-- ==== Sys2Proof/Word.lean ====
section
/-!
DEFINITION. The words of the FX288: registers are 32 bits wide, pairs and whole registers 64 (R572); a cache line is
128 bytes of four 32-byte sectors (R197).
-/
namespace Sys2Proof

abbrev Byte := BitVec 8
abbrev Word := BitVec 32
abbrev DWord := BitVec 64
/-- One 128-byte line; byte `i` is bits `8 * i` to `8 * i + 7` (little-endian, R6). -/
abbrev Line := BitVec 1024
/-- One bit for each 32-byte sector of a line (R197). -/
abbrev Sectors := BitVec 4

end Sys2Proof
end

