-- ==== Sys2Proof/Machine/Tab.lean ====
section
/-!
DEFINITION. Sparse tables of the machine as plain data: a list of keys and values, keys strictly rising. A table with a
default value lists no entry equal to the default, so that equal tables are equal lists.
-/
namespace Sys2Proof.Machine

/-- Keys and values, keys strictly rising. -/
abbrev Tab (α : Type) := List (Nat × α)

/-- The value at a key, if one is listed. -/
def Tab.find {α : Type} : Tab α → Nat → Option α
  | [], _ => none
  | (k, v) :: t, n => if n = k then some v else if n < k then none else Tab.find t n

/-- The table with a value listed at a key. -/
def Tab.put {α : Type} : Tab α → Nat → α → Tab α
  | [], n, x => [(n, x)]
  | (k, v) :: t, n, x =>
    if n = k then (n, x) :: t else if n < k then (n, x) :: (k, v) :: t else (k, v) :: Tab.put t n x

/-- The table with nothing listed at a key. -/
def Tab.del {α : Type} : Tab α → Nat → Tab α
  | [], _ => []
  | (k, v) :: t, n => if n = k then t else if n < k then (k, v) :: t else (k, v) :: Tab.del t n

/-- Reading a table whose unlisted keys hold `d`. -/
def Tab.getD {α : Type} (t : Tab α) (n : Nat) (d : α) : α := (Tab.find t n).getD d

/-- Writing a table whose unlisted keys hold `d`: the default is never listed. -/
def Tab.setD {α : Type} [DecidableEq α] (t : Tab α) (n : Nat) (d x : α) : Tab α :=
  if x = d then Tab.del t n else Tab.put t n x

/-- A table given by a function on the keys `0` to `n - 1`, the default left out. -/
def Tab.ofFn {α : Type} [DecidableEq α] (n : Nat) (d : α) (f : Nat → α) : Tab α :=
  (List.range n).filterMap fun i => if f i = d then none else some (i, f i)

/-- Changing every listed value by its key. -/
def Tab.mapVal {α : Type} (t : Tab α) (f : Nat → α → α) : Tab α := t.map fun e => (e.1, f e.1 e.2)

/-- The listed entries a test keeps. -/
def Tab.keep {α : Type} (t : Tab α) (f : Nat → α → Bool) : Tab α := t.filter fun e => f e.1 e.2

/-- The first key from `i` on that a table in canonical form does not list. -/
def Tab.gap {α : Type} : Tab α → Nat → Nat
  | [], i => i
  | (k, _) :: t, i => if k = i then Tab.gap t (i + 1) else i

/-- Keys strictly rising from a bound on. -/
def Tab.sortedFrom {α : Type} : Nat → Tab α → Bool
  | _, [] => true
  | lo, (k, _) :: t => decide (lo ≤ k) && Tab.sortedFrom (k + 1) t

/-- The canonical form: keys strictly rising. -/
def Tab.wf {α : Type} (t : Tab α) : Bool := Tab.sortedFrom 0 t

/-- The canonical form of a table with a default: keys strictly rising, the default not listed. -/
def Tab.wfD {α : Type} [DecidableEq α] (d : α) (t : Tab α) : Bool :=
  Tab.wf t && t.all fun e => decide (e.2 ≠ d)

end Sys2Proof.Machine
end

