-- ==== Sys2Proof/Machine/Bits.lean ====
section
/-! DEFINITION. Bit fields, byte order (R6) and counters that every unit of the FX288 uses. -/
namespace Sys2Proof.Machine

/-- Bits `lo` to `lo + n - 1` of a number. -/
def field (x lo n : Nat) : Nat := x / 2 ^ lo % 2 ^ n

/-- Bit `i` of a number. -/
def bit (x i : Nat) : Bool := x / 2 ^ i % 2 == 1

/-- A Boolean as a bit. -/
def b2n (b : Bool) : Nat := if b then 1 else 0

/-- The number whose bit `i` is `f i`, for `i` below `n`. -/
def packBits (n : Nat) (f : Nat → Bool) : Nat :=
  (List.range n).foldl (fun a i => a + b2n (f i) * 2 ^ i) 0

/-- How many of the bits below `n` are set. -/
def popCount (n x : Nat) : Nat := (List.range n).foldl (fun a i => a + b2n (bit x i)) 0

/-- The set bits below `n`, ascending. -/
def bitsOf (n x : Nat) : List Nat := (List.range n).filter (bit x)

/-- A number as `n` bytes, least significant first (R6). -/
def leBytes : Nat → Nat → List Byte
  | 0, _ => []
  | n + 1, x => BitVec.ofNat 8 x :: leBytes n (x / 256)

/-- Bytes read as a number, least significant first (R6). -/
def leNat : List Byte → Nat
  | [] => 0
  | b :: t => b.toNat + 256 * leNat t

/-- Byte `i` of a line. -/
def lineByte (l : Line) (i : Nat) : Byte := l.extractLsb' (8 * i) 8

/-- Two's complement value of an `n`-bit number. -/
def toSigned (n x : Nat) : Int := if x % 2 ^ n < 2 ^ (n - 1) then (x % 2 ^ n : Nat) else (x % 2 ^ n : Nat) - (2 ^ n : Nat)

/-- The low `n` bits of an integer in two's complement. -/
def ofSigned (n : Nat) (x : Int) : Nat := (x % (2 ^ n : Nat)).toNat

/-- Clamp to a range (saturation). -/
def clampInt (lo hi x : Int) : Int := if x < lo then lo else if hi < x then hi else x

/-- The mask of whole sectors as a mask of bytes. -/
def sectorBytes (m : Sectors) : BitVec 128 :=
  BitVec.ofNat 128 (packBits 128 fun i => bit m.toNat (i / 32))

/-- The sectors a byte mask touches. -/
def bytesSectors (m : BitVec 128) : Sectors :=
  BitVec.ofNat 4 (packBits 4 fun i => (m.toNat / 2 ^ (32 * i)) % 2 ^ 32 != 0)

/-- The sectors a byte mask covers in part only. -/
def partialSectors (m : BitVec 128) : Sectors :=
  BitVec.ofNat 4 (packBits 4 fun i =>
    (m.toNat / 2 ^ (32 * i)) % 2 ^ 32 != 0 && (m.toNat / 2 ^ (32 * i)) % 2 ^ 32 != 2 ^ 32 - 1)

/-- A byte mask as a mask of the bits of a line. -/
def byteMaskLine (m : BitVec 128) : Line :=
  (List.range 128).foldl (fun a i => if bit m.toNat i then a ||| (BitVec.ofNat 1024 255 <<< (8 * i)) else a) 0

/-- The masked bytes of `new` over the other bytes of `old`. -/
def mergeLine (m : BitVec 128) (old new : Line) : Line :=
  (old &&& ~~~ byteMaskLine m) ||| (new &&& byteMaskLine m)

/-- Insert an `n`-bit value at bit `lo` of a line. -/
def putField (l : Line) (lo n x : Nat) : Line :=
  (l &&& ~~~ (BitVec.ofNat 1024 (2 ^ n - 1) <<< lo)) ||| (BitVec.ofNat 1024 (x % 2 ^ n) <<< lo)

/-- A counter of 32 bits that counts one event and wraps (R544). -/
def tick32 (c : Word) : Word := c + 1

/-- A choice the spec calls not architectural: one element of a list, named by the command (notes/assumptions/7.md). -/
def pickFrom {α : Type} (xs : List α) (pick : Nat) : Option α := xs[pick % xs.length]?

/-- `x` placed before the first element that may follow it. -/
def insertBy {α : Type} (le : α → α → Bool) (x : α) : List α → List α
  | [] => [x]
  | y :: t => if le x y then x :: y :: t else y :: insertBy le x t

/-- A list in order; elements of equal rank keep their order. -/
def sortBy {α : Type} (le : α → α → Bool) : List α → List α
  | [] => []
  | x :: t => insertBy le x (sortBy le t)

end Sys2Proof.Machine
end

