-- ==== Sys2Proof/Machine/Fp.lean ====
section
/-!
DEFINITION. The number formats of Table 13-1 and the reduction formats of Table 07-6: exact values, rounding (R341),
conversion (R342, R343) and the sums of R206, R207, R340, R348 and R349. Values are exact: a finite value is a sign, a
natural number and a power of two.
-/
namespace Sys2Proof.Machine

/-- Rounding modes of R341; the stochastic mode carries its 24-bit value `r`. -/
inductive Rounding where
  | rne
  | rtz
  | sr (r : Nat)
  deriving DecidableEq, Repr

/-- The formats of Table 13-1, by code. -/
inductive NumFmt where
  | fp32 | bf16 | fp16 | e4m3 | e5m2 | int8 | int16 | int32 | lzb8
  deriving DecidableEq, Repr

/-- Table 13-1: codes 9-15 are reserved. -/
def NumFmt.ofCode : Nat → Option NumFmt
  | 0 => some .fp32 | 1 => some .bf16 | 2 => some .fp16 | 3 => some .e4m3 | 4 => some .e5m2
  | 5 => some .int8 | 6 => some .int16 | 7 => some .int32 | 8 => some .lzb8 | _ => none

/-- Bytes of one element; LZB8 is counted in blocks of 17 bytes (R339). -/
def NumFmt.bytes : NumFmt → Nat
  | .fp32 => 4 | .bf16 => 2 | .fp16 => 2 | .e4m3 => 1 | .e5m2 => 1
  | .int8 => 1 | .int16 => 2 | .int32 => 4 | .lzb8 => 17

def NumFmt.isInt : NumFmt → Bool
  | .int8 => true | .int16 => true | .int32 => true | _ => false

def NumFmt.isFloat : NumFmt → Bool
  | .fp32 => true | .bf16 => true | .fp16 => true | .e4m3 => true | .e5m2 => true | _ => false

/-- Exponent bits, fraction bits and bias of a floating-point format (Table 13-1). -/
structure FpParams where
  eb : Nat
  mb : Nat
  bias : Nat
  /-- FP8-E4M3 has no infinity: its all-ones exponent is finite but for fraction 7. -/
  noInf : Bool := false
  deriving DecidableEq, Repr

def FpParams.fp32 : FpParams := { eb := 8, mb := 23, bias := 127 }
def FpParams.bf16 : FpParams := { eb := 8, mb := 7, bias := 127 }
def FpParams.fp16 : FpParams := { eb := 5, mb := 10, bias := 15 }
def FpParams.e4m3 : FpParams := { eb := 4, mb := 3, bias := 7, noInf := true }
def FpParams.e5m2 : FpParams := { eb := 5, mb := 2, bias := 15 }

def NumFmt.params : NumFmt → FpParams
  | .bf16 => .bf16 | .fp16 => .fp16 | .e4m3 => .e4m3 | .e5m2 => .e5m2 | _ => .fp32

/-- An exact value: a NaN, an infinity, or `±m * 2^e`. -/
inductive FVal where
  | nan
  | inf (neg : Bool)
  | fin (neg : Bool) (m : Nat) (e : Int)
  deriving DecidableEq, Repr

def FVal.zero : FVal := .fin false 0 0

/-- The value of an integer times a power of two. -/
def FVal.ofInt (x : Int) (e : Int := 0) : FVal := .fin (decide (x < 0)) x.natAbs e

def FVal.isNan : FVal → Bool
  | .nan => true | _ => false

def FVal.neg : FVal → FVal
  | .nan => .nan | .inf s => .inf (!s) | .fin s m e => .fin (!s) m e

/-- The signed integer of a finite value at a lower exponent `q` (exact when `q ≤ e`). -/
def scaleTo (neg : Bool) (m : Nat) (e q : Int) : Int :=
  let x : Int := (m * 2 ^ (e - q).toNat : Nat)
  if neg then -x else x

/-- Exact sum; the sum of equal and opposite values, and of `+0` and `-0`, is `+0` (R207, R340). -/
def FVal.add : FVal → FVal → FVal
  | .nan, _ => .nan
  | _, .nan => .nan
  | .inf a, .inf b => if a = b then .inf a else .nan
  | .inf a, .fin _ _ _ => .inf a
  | .fin _ _ _, .inf b => .inf b
  | .fin a m e, .fin b n f =>
    if m = 0 ∧ n = 0 then .fin (a && b) 0 0
    else
      let q := min e f
      let x := scaleTo a m e q + scaleTo b n f q
      .fin (decide (x < 0)) x.natAbs q

/-- Exact product; zero times infinity is a NaN (R340). -/
def FVal.mul : FVal → FVal → FVal
  | .nan, _ => .nan
  | _, .nan => .nan
  | .inf a, .inf b => .inf (a != b)
  | .inf a, .fin b n _ => if n = 0 then .nan else .inf (a != b)
  | .fin a m _, .inf b => if m = 0 then .nan else .inf (a != b)
  | .fin a m e, .fin b n f => .fin (a != b) (m * n) (e + f)

/-- Exact order of two values that are not NaN; `none` where one is. -/
def FVal.lt? : FVal → FVal → Option Bool
  | .nan, _ => none
  | _, .nan => none
  | .inf a, .inf b => some (a && !b)
  | .inf a, .fin _ _ _ => some a
  | .fin _ _ _, .inf b => some (!b)
  | .fin a m e, .fin b n f =>
    let q := min e f
    some (decide (scaleTo a m e q < scaleTo b n f q))

/-- The value of an encoding of a floating-point format. -/
def decodeFp (p : FpParams) (x : Nat) : FVal :=
  let sgn := bit x (p.eb + p.mb)
  let ex := field x p.mb p.eb
  let fr := field x 0 p.mb
  let top := 2 ^ p.eb - 1
  if ex = top ∧ p.noInf ∧ fr = 2 ^ p.mb - 1 then .nan
  else if ex = top ∧ ¬ p.noInf then (if fr = 0 then .inf sgn else .nan)
  else if ex = 0 then .fin sgn fr (1 - (p.bias : Int) - p.mb)
  else .fin sgn (2 ^ p.mb + fr) ((ex : Int) - p.bias - p.mb)

/-- A magnitude in units of `2^q`, rounded in a mode (R341). -/
def roundMag (mode : Rounding) (m : Nat) (e q : Int) : Nat :=
  if q ≤ e then m * 2 ^ (e - q).toNat
  else
    let k := (q - e).toNat
    let fl := m / 2 ^ k
    let rm := m % 2 ^ k
    match mode with
    | .rtz => fl
    | .rne => if 2 * rm > 2 ^ k ∨ (2 * rm = 2 ^ k ∧ fl % 2 = 1) then fl + 1 else fl
    | .sr r => if rm * 2 ^ 24 / 2 ^ k + r ≥ 2 ^ 24 then fl + 1 else fl

/-- The canonical NaN of a format (Table 13-1). -/
def canonicalNan (p : FpParams) : Nat :=
  if p.noInf then 2 ^ (p.eb + p.mb) - 1 else (2 ^ p.eb - 1) * 2 ^ p.mb + 2 ^ (p.mb - 1)

/-- The encoding of the largest finite magnitude. -/
def maxFinite (p : FpParams) : Nat :=
  if p.noInf then 2 ^ (p.eb + p.mb) - 2 else (2 ^ p.eb - 1) * 2 ^ p.mb - 1

/-- The magnitude encoding of what lies beyond the range (Table 13-2). -/
def overflowEnc (p : FpParams) (mode : Rounding) : Nat :=
  if p.noInf then maxFinite p
  else match mode with
    | .rtz => maxFinite p
    | _ => (2 ^ p.eb - 1) * 2 ^ p.mb

/-- The magnitude encoding of a finite value before the range is looked at: exponent and fraction carry into each other. -/
def magEnc (p : FpParams) (mode : Rounding) (m : Nat) (e : Int) : Nat :=
  if m = 0 then 0
  else
    let emin : Int := 1 - p.bias
    let top : Int := max ((Nat.log2 m : Int) + e) emin
    let r := roundMag mode m e (top - p.mb)
    (top - emin).toNat * 2 ^ p.mb + r

/-- The result of a conversion: the encoding and whether it was clamped, saturated or made infinite (R342). -/
structure Cvt where
  bits : Nat
  sat : Bool := false
  nan : Bool := false
  deriving DecidableEq, Repr

/-- Conversion of an exact value to a floating-point format (Table 13-2). -/
def encodeFp (p : FpParams) (mode : Rounding) : FVal → Cvt
  | .nan => { bits := canonicalNan p }
  | .inf s =>
    -- R342: FP32 holds every value of each source, so its conversion is exact.
    let o := if p = FpParams.fp32 then 255 * 2 ^ 23 else overflowEnc p mode
    { bits := b2n s * 2 ^ (p.eb + p.mb) + o, sat := o = maxFinite p }
  | .fin s m e =>
    let x := magEnc p mode m e
    if x > maxFinite p then { bits := b2n s * 2 ^ (p.eb + p.mb) + overflowEnc p mode, sat := true }
    else { bits := b2n s * 2 ^ (p.eb + p.mb) + x }

/-- Conversion of an exact value to a two's complement format of `n` bits (Table 13-2): clamped, a NaN becomes 0. -/
def encodeInt (n : Nat) (mode : Rounding) : FVal → Cvt
  | .nan => { bits := 0, nan := true }
  | .inf s => { bits := if s then 2 ^ (n - 1) else 2 ^ (n - 1) - 1, sat := true }
  | .fin s m e =>
    let r : Int := roundMag mode m e 0
    let x := if s then -r else r
    let c := clampInt (-(2 ^ (n - 1) : Nat)) ((2 ^ (n - 1) : Nat) - 1) x
    { bits := ofSigned n c, sat := decide (c ≠ x) }

/-- Conversion to a one-element format (Table 13-2). -/
def encodeNum (f : NumFmt) (mode : Rounding) (v : FVal) : Cvt :=
  match f with
  | .int8 => encodeInt 8 mode v
  | .int16 => encodeInt 16 mode v
  | .int32 => encodeInt 32 mode v
  | f => encodeFp f.params mode v

/-- The exact value of an element of a one-element format. -/
def decodeNum (f : NumFmt) (x : Nat) : FVal :=
  match f with
  | .int8 => .ofInt (toSigned 8 x)
  | .int16 => .ofInt (toSigned 16 x)
  | .int32 => .ofInt (toSigned 32 x)
  | f => decodeFp f.params x

/-- R341: the 24-bit value of stochastic rounding for an element, from the plan's seed. -/
def srValue (seed row col : Nat) : Nat :=
  let x0 : BitVec 32 := BitVec.ofNat 32 seed ^^^ (BitVec.ofNat 32 (row % 65536) <<< 16) ^^^ BitVec.ofNat 32 (col % 65536)
  let x1 := x0 ^^^ (x0 <<< 13)
  let x2 := x1 ^^^ (x1 >>> 17)
  let x3 := x2 ^^^ (x2 <<< 5)
  (x3 >>> 8).toNat

/-! ### LZB8 (R339, R343) -/

/-- One LZB8 block: the shared exponent and 16 significands. -/
structure Lzb where
  e : Int
  s : List Int
  deriving DecidableEq, Repr

/-- R339: the block in 17 bytes. -/
def Lzb.ofBytes (b : List Byte) : Lzb :=
  { e := toSigned 8 ((b.getD 0 0).toNat), s := (List.range 16).map fun i => toSigned 8 ((b.getD (i + 1) 0).toNat) }

def Lzb.bytes (b : Lzb) : List Byte := (b.e :: b.s).map fun x => BitVec.ofInt 8 x

/-- The exact value of element `i` of a block. -/
def Lzb.val (b : Lzb) (i : Nat) : FVal := .ofInt (b.s.getD i 0) b.e

/-- The magnitude of a finite value scaled by `2^-E` is below 127.5 (R343 step 2). -/
def lzbFits (m : Nat) (e E : Int) : Bool :=
  let sh := e - E + 1
  if 0 ≤ sh then decide (m * 2 ^ sh.toNat < 255) else decide (m < 255 * 2 ^ (-sh).toNat)

/-- R343 step 2: the smallest exponent that every finite source fits under; 127 where none does. -/
def lzbExp (xs : List FVal) : Int :=
  let fits (E : Int) : Bool := xs.all fun x => match x with
    | .fin _ m e => m = 0 || lzbFits m e E
    | _ => true
  let anyFin := xs.any fun x => match x with
    | .fin _ m _ => m != 0
    | _ => false
  if anyFin then
    match (List.range 256).find? fun i => fits ((i : Int) - 128) with
    | some i => (i : Int) - 128
    | none => 127
  else -128

/-- R343: conversion of up to 16 values to one block, with the counts of clamped significands and of NaNs. The rounding
mode is given for each element (the stochastic value differs by element). -/
def lzbEncode (mode : Nat → Rounding) (xs : List FVal) : Lzb × Nat × Nat :=
  let E := lzbExp xs
  let one (i : Nat) (x : FVal) : Int × Nat × Nat := match x with
    | .nan => (0, 0, 1)
    | .inf s => (if s then -127 else 127, 1, 0)
    | .fin s m e =>
      let r : Int := roundMag (mode i) m e E
      let y := if s then -r else r
      let c := clampInt (-127) 127 y
      (c, b2n (decide (c ≠ y)), 0)
  let rs := (List.range 16).map fun i => one i (xs.getD i .zero)
  ({ e := E, s := rs.map (·.1) }, rs.foldl (fun a r => a + r.2.1) 0, rs.foldl (fun a r => a + r.2.2) 0)

/-! ### Sums and quotients -/

/-- IEEE sum of two encodings with one rounding to nearest even (R207); the NaN result is the canonical one. -/
def addFp (p : FpParams) (a b : Nat) : Nat := (encodeFp p .rne ((decodeFp p a).add (decodeFp p b))).bits

/-- R340: the quotient of two values rounded to nearest even into a format. -/
def divVal (p : FpParams) : FVal → FVal → FVal
  | .nan, _ => .nan
  | _, .nan => .nan
  | .inf _, .inf _ => .nan
  | .inf a, .fin b _ _ => .inf (a != b)
  | .fin a _ _, .inf b => .fin (a != b) 0 0
  | .fin a m e, .fin b n f =>
    if n = 0 then (if m = 0 then .nan else .inf (a != b))
    else if m = 0 then .fin (a != b) 0 0
    else
      let k := p.mb + 4 + Nat.log2 n
      let q := m * 2 ^ k / n
      let st := b2n (m * 2 ^ k % n != 0)
      decodeFp p (encodeFp p .rne (.fin (a != b) (2 * q + st) (e - f - k - 1))).bits

/-- A value rounded to nearest even into a format, as a value. -/
def roundFp (p : FpParams) (v : FVal) : FVal := decodeFp p (encodeFp p .rne v).bits

/-- R348: the exact sum of a group of products (DEDUCED: products that are all -0 sum to -0). -/
def groupSum : List (FVal × FVal) → FVal
  | [] => .zero
  | x :: t => t.foldl (fun a y => a.add (y.1.mul y.2)) (x.1.mul x.2)

/-- R349: an integer times a power of two, rounded to nearest even. -/
def shiftRne (x : Int) (sh : Int) : Int :=
  let r : Int := roundMag .rne x.natAbs sh 0
  if x < 0 then -r else r

end Sys2Proof.Machine
end

