-- ==== Sys2Proof/Machine/Types.lean ====
section
/-!
DEFINITION. What commands and records carry: the statuses of Table 11-9, coherence messages of Table 08-2, descriptors of
Table 11-1, error records of Table 19-11 and the sections of a boot image (Tables 04-5 to 04-10, 14-1, 14-2).
-/
namespace Sys2Proof.Machine

/-- Completion statuses of Table 11-9. -/
inductive Status where
  | ok | poisoned | cancelled | predFailed | abandoned | invalidField | badAddress | readOnly | revoked | quota
  | noSpace | tooLarge | staleHandle | notOwner | inUse | policy | noGrant | notGranted | badList | deviceGone
  | noPennant | noBucket | bounds | accOverflow | retired
  deriving DecidableEq, Repr

/-- The codes of Table 11-9. -/
def Status.code : Status → Nat
  | .ok => 0 | .poisoned => 1 | .cancelled => 0x10 | .predFailed => 0x11 | .abandoned => 0x12
  | .invalidField => 0x20 | .badAddress => 0x21 | .readOnly => 0x22 | .revoked => 0x23 | .quota => 0x24
  | .noSpace => 0x25 | .tooLarge => 0x26 | .staleHandle => 0x27 | .notOwner => 0x28 | .inUse => 0x29
  | .policy => 0x2A | .noGrant => 0x2B | .notGranted => 0x2C | .badList => 0x2D | .deviceGone => 0x2E
  | .noPennant => 0x2F | .noBucket => 0x30 | .bounds => 0x31 | .accOverflow => 0x32 | .retired => 0x33

/-- How a command or task ended (Table 11-10). -/
inductive Term where
  | done | cancelled | faulted
  deriving DecidableEq, Repr

/-- What a slice finds in its own arrays (Tables 19-2, 19-3): in a bay a corrected bit, or an uncorrectable sector at an offset of
the bay; or a parity error in its control logic. -/
inductive SramErr where
  | corrected (bay : Nat)
  | bad (bay off : Nat)
  | logic
  deriving DecidableEq, Repr

/-! ### Coherence (Table 08-2) and slice requests (Table 07-5) -/

/-- Who sent a request to a home: an agent of the home device, a pool device, or the host on a CXL port (R226). -/
inductive Src where
  | loc
  | dev (d : Nat)
  | host (p : Nat)
  deriving DecidableEq, Repr

/-- MetaValue of a CXL.mem request (R231, R232). -/
inductive Meta where
  | none | inv | shared | any
  deriving DecidableEq, Repr

/-- The requests a home serves: the local agents' (Table 07-5), the pool peers' (Table 08-2) and the hosts'. -/
inductive ReqOp where
  | read | write | red | atomic | rdS | rdX | upg | rdNc | memRd | memWr | memClnEvct
  deriving DecidableEq, Repr

/-- On whose behalf an access is made: its VD, and for a command its stream, tag and read number (R462); the VD address of the
access, and the slice of the task that makes it, if one does. -/
structure Who where
  vd : Nat
  stream : Nat := 0xFFFF
  tag : Nat := 0
  cmd : Option Nat := none
  va : Nat := 0
  slice : Option Nat := none
  /-- Its writes carry the no-allocate hint (R199, Table 11-2). -/
  noAlloc : Bool := false
  /-- It is the write of a record of the VD's error ring or of a completion ring (R178, R303). -/
  errRec : Bool := false
  /-- The epoch in which its slice took the request, for one that is sent on (R168). -/
  made : Option (BitVec 16) := none
  deriving DecidableEq, Repr

/-- One request at a slice. `line` is the global address divided by 128 and `bytes` the bytes it covers. -/
structure Req where
  op : ReqOp
  src : Src := .loc
  vd : Nat := 0
  tag : Nat := 0
  /-- The VD address of a host's request. -/
  dpa : Nat := 0
  line : Nat
  bytes : BitVec 128 := 0
  data : Line := 0
  pois : Sectors := 0
  fmt : Nat := 0
  emask : BitVec 64 := 0
  atop : Nat := 0
  width : Nat := 32
  off : Nat := 0
  opA : Nat := 0
  opB : Nat := 0
  mv : Meta := .none
  /-- A host's request: the `era` of its port in which it was accepted (R152). -/
  era : Nat := 0
  noAlloc : Bool := false
  /-- A write that its proxy takes the line exclusively for (RD_X or UPG), not one posted to the home. -/
  own : Bool := false
  bulk : Bool := false
  memAtomic : Bool := false
  /-- The slice whose Runner reads through its first-level cache, if one does (R238). -/
  l1 : Option Nat := none
  /-- The step of a task or an engine that made it, whose answer is no message. -/
  who : Option Who := none
  /-- The epoch in which a command made it (R168). -/
  epoch : BitVec 16 := 0
  /-- A host's write that was performed when it met its own snoop, whose completion waits for earlier requests of its line (R142). -/
  performed : Bool := false
  /-- The QoS byte of a peer's VD (R205). -/
  qos : Nat := 0
  deriving DecidableEq, Repr

/-- What a row that cannot go on yet waits for (notes/assumptions/26.md): a read at the slice that serves the line, the end of every
copy of a line of this device, or work that other rows are doing. -/
inductive Stall where
  | read (r : Req)
  | take (line vd : Nat)
  | hold
  deriving DecidableEq, Repr

/-- The end of a read that a row waited for and that left no copy to read (R461, R517): poison, or DEVICE_GONE. -/
structure ReadEnd where
  who : Who
  line : Nat
  st : Status
  deriving DecidableEq, Repr

/-- The messages of Table 08-2. -/
inductive CohOp where
  | rdS | rdX | upg | rdNc | wrNc | red | atom | snpInv | snpData | snpCur | rspI | rspS | rspE | rspNp | gntAck
  | cmp | cmpE | wbAck | fillS | fillE | rdDat | datI | datS | datE | wb
  deriving DecidableEq, Repr

/-- The codes of Table 08-2. -/
def CohOp.code : CohOp → Nat
  | .rdS => 1 | .rdX => 2 | .upg => 3 | .rdNc => 4 | .wrNc => 5 | .red => 6 | .atom => 7
  | .snpInv => 0x10 | .snpData => 0x11 | .snpCur => 0x12
  | .rspI => 0x18 | .rspS => 0x19 | .rspE => 0x1A | .rspNp => 0x1B | .gntAck => 0x1C | .cmp => 0x1D | .cmpE => 0x1E | .wbAck => 0x1F
  | .fillS => 0x20 | .fillE => 0x21 | .rdDat => 0x22 | .datI => 0x23 | .datS => 0x24 | .datE => 0x25 | .wb => 0x26

/-- One coherence message between pool devices: the other device, the line, and what its kind carries. -/
structure CohMsg where
  op : CohOp
  dev : Nat
  line : Nat
  tag : Nat := 0
  vd : Nat := 0
  sec : Sectors := 0
  bytes : BitVec 128 := 0
  data : Line := 0
  pois : Sectors := 0
  fmt : Nat := 0
  emask : BitVec 64 := 0
  atop : Nat := 0
  width : Nat := 32
  off : Nat := 0
  opA : Nat := 0
  opB : Nat := 0
  wbPending : Bool := false
  status : Status := .ok
  stream : Nat := 0xFFFF
  epoch : Nat := 0
  /-- A CMP of a COLL_DATA message (R474): `line` is COLL_SEQ, `tag` the part and `epoch` the step. -/
  coll : Bool := false
  /-- The QoS byte of the originating VD (QCLASS and QWEIGHT of Table 16-5) in a message that arrives; one that leaves carries the VD's own. -/
  qos : Nat := 0
  deriving DecidableEq, Repr

/-- The block snoops sent to hosts (R222). -/
inductive BiOp where
  | inv | data | cur
  deriving DecidableEq, Repr

/-- A host's answer to one half of a block snoop (R139): no longer held, or kept shared. -/
inductive BiRsp where
  | i | s
  deriving DecidableEq, Repr

/-- The raw sectors of a line that travels with a page move (R284). -/
structure RemLine where
  /-- Counted from the page's first line. -/
  line : Nat
  sec : Sectors := 15
  data : Line
  pois : Sectors := 0
  deriving DecidableEq, Repr

/-- What the spec leaves to the device in an agent's access: a choice among frames or ways (notes/assumptions/7.md). -/
structure Ext where
  pick : Nat := 0
  /-- The translation cache that the access goes through: port `p`, slice `8 + n`, or none (R286). -/
  via : Nat := 255
  /-- That translation cache does not hold the entry, so that a walk finds it (R272: not architectural). -/
  miss : Bool := false
  deriving DecidableEq, Repr

/-- One access to a window of a VD: aligned or not, with its byte enables (R573). -/
structure Mmio where
  vd : Nat
  door : Bool := false
  off : Nat
  len : Nat := 4
  val : Nat := 0
  be : Nat := 255
  /-- The LD-ID that it carries, where that is not the VD's (R129). -/
  ld : Option Nat := none
  deriving DecidableEq, Repr

/-- What REGISTER_WRITE writes: a register of a window, or an HDM decoder of an LD with its commit (R137), whose register
layout CXL 3.1 gives (R574). -/
inductive RegWrite where
  | window (m : Mmio)
  | decoder (vd i base len ways gran : Nat) (bi : Bool)
  deriving DecidableEq, Repr

/-- A command to the mailbox of an LD: the rows of Table 05-8 with their operands. -/
inductive MbCmd where
  | identify | backgroundStatus
  | getEvents (log : Nat)
  | clearEvents (log : Nat) (all : Bool) (handles : List Nat)
  | getEventInterrupt
  | setEventInterrupt (log : Nat) (vector : Option Nat)
  | getTimestamp
  | setTimestamp (value : DWord)
  | supportedLogs
  | getLog (log : Nat)
  | identifyMemory | healthInfo | getAlerts
  | setAlerts (value : Nat)
  | poisonList (lo len : Nat)
  | injectPoison (dpa : Nat) (x : Ext)
  | clearPoison (dpa : Nat) (data : BitVec 512) (x : Ext)
  | scanCapabilities (lo len : Nat)
  | scanMedia (lo len : Nat)
  | scanResults | sanitize | secureErase | dcConfiguration
  | dcExtentList (start : Nat)
  | dcAddResponse (extents : List (Nat × Nat))
  | dcRelease (extents : List (Nat × Nat))
  | unsupported (op : Nat)
  deriving DecidableEq, Repr

/-- A CXL.io request that a port may have to hold (R68, R112, R149): a register write, a reset of an LD with its cause, a mailbox command. -/
inductive HostReq where
  | write (w : RegWrite)
  | reset (port ld cause : Nat)
  | mailbox (vd : Nat) (c : MbCmd)
  deriving DecidableEq, Repr

/-- The port that a held request came through. -/
def HostReq.port : HostReq → Nat
  | .write (.window m) => m.vd / 16
  | .write (.decoder v _ _ _ _ _ _) => v / 16
  | .reset p _ _ => p
  | .mailbox v _ => v / 16

/-- What an IDE_KM message does to a stream (R149): keys begin to switch, the stream is secure, or it is not. -/
inductive IdeOp where
  | switch | on | off
  deriving DecidableEq, Repr

/-- One CXL.mem request: 64 bytes of a line at a DPA, which is a VD address (R138, R266). -/
structure CxlReq where
  port : Nat
  vd : Nat
  tag : Nat
  dpa : Nat
  op : ReqOp
  mv : Meta := .none
  data : BitVec 512 := 0
  pois : Bool := false
  /-- The `era` of the port in which it was accepted (R152), and its place among all accepted (R142); set at acceptance. -/
  era : Nat := 0
  no : Nat := 0
  deriving DecidableEq, Repr

/-- Table 06-2; per-port and per-slice queues carry their number. -/
inductive QueueId where
  | cxlMem (port : Nat)
  | tasks
  | missRegs (slice : Nat)
  | waiters (slice : Nat)
  | remoteOps
  | penOverflow
  | walks
  | hopperCmds
  deriving DecidableEq, Repr

/-- What a Race carries (Table 15-1, R407): a coherence message between slices of one die; any other message between a slice and what lies off
its die; CXL.mem, CXL.io and HyhanLink traffic; and the traffic of CTL. -/
inductive RaceTraffic where
  | coherence | offDie | cxl | hyhanLink | dispatch | taskStatus | pennant | shootdown | management
  deriving DecidableEq, Repr

/-- A message at a Race (R407): its class (0 RSP, 1 DAT, 2 SNP, 3 CTL, 4 REQ), its input and output ports, and what it is. -/
structure RaceMsg where
  cls : Nat
  inp : Nat
  out : Nat := 0
  traffic : RaceTraffic := .coherence
  deriving DecidableEq, Repr

/-- What Sluices say to each other (SL_REQ and SL_RSP of Table 17-5; the spec gives their purposes, not their fields). -/
inductive SlMsg where
  /-- An attach: the caller's VD and command, then slot, key, length and READ_ONLY (R280). -/
  | attach (vd tag slot len : Nat) (key : BitVec 32) (readOnly : Bool)
  /-- Its answer: the frames of the range with their sizes, or a refusal. -/
  | attached (tag : Nat) (frames : Option (List (Nat × Bool)))
  /-- The grant of a slot has ended (R281). -/
  | revoke (slot : Nat)
  /-- Move control (R284): take `k` frames, zeroed, and the answer. -/
  | take (tag k : Nat)
  | taken (tag : Nat) (gframe : Option Nat) (k : Nat := 1)
  /-- Frames are given back. -/
  | giveBack (frame k : Nat)
  /-- The source home is to send the raw sectors of `k` frames to the frames `dst`. -/
  | fetch (frame k dst : Nat)
  /-- Raw sectors for frames. -/
  | page (frame k : Nat) (lines : List RemLine)
  deriving DecidableEq, Repr

/-! ### CXL events and answers (Table 05-7, R146) -/

/-- The records of Table 05-7. -/
inductive EvKind where
  | generalMedia | dram | memoryModule | dynamicCapacity
  deriving DecidableEq, Repr

/-- What a record says happened (Table 05-7). -/
inductive EvType where
  | mediaEcc | dataPath | invalidAddress | maintenanceCleared | channelRetired | mediaStatusChange | temperatureChange
  | offered | releaseRequested | released | forcedRelease | withdrawn
  deriving DecidableEq, Repr

/-- A CXL event record: its transaction type (0 unknown, 1 host read, 2 host write), the VD's own address, a length for
capacity records, and the QUOTA indication of R135. -/
structure EvRec where
  kind : EvKind
  ty : EvType
  trans : Nat := 0
  dpa : Nat := 0
  len : Nat := 0
  quota : Bool := false
  time : Nat := 0
  handle : Nat := 0
  deriving DecidableEq, Repr

/-- Return codes of the mailbox and the FM API that the spec names. -/
inductive RetCode where
  | success | backgroundStarted | invalidInput | unsupported | busy | resourcesExhausted | refused
  deriving DecidableEq, Repr

/-! ### HyhanLink and the pool (chapters 16, 17) -/

/-- Table 17-2. -/
structure Hello where
  serial : Nat
  imageFp : Nat := 0
  mapDigest : Nat := 0
  poolId : Nat := 0
  maxDevices : Nat := 0
  mode : Nat := 0
  port : Nat := 0
  devnum : Option Nat := none
  coordSerial : Nat := 0
  caps : Nat := 0
  deriving DecidableEq, Repr

/-- A message of the link (Table 16-5): its header's fields and its data slots. -/
structure LinkMsg where
  cls : Nat
  dst : Nat
  src : Nat
  op : Nat := 0
  tag : Nat := 0
  mtype : Nat := 2
  addr : Nat := 0
  sect : Nat := 0
  pois : Nat := 0
  ovd : Nat := 0
  qcls : Nat := 0
  qweight : Nat := 0
  flags : Nat := 0
  data : List (BitVec 128) := []
  deriving DecidableEq, Repr

/-- A message begun in a PAYLOAD flit, and how many of its data slots are still to come (R418). -/
structure MsgPart where
  msg : LinkMsg
  left : Nat
  deriving DecidableEq, Repr

/-- The bytes on the lanes, by lane number after reversal, in the order of time (R412): a flit's, or a lane's training block (R429). -/
abbrev FlitWire := Tab (List Byte)

/-- What a receiver reads in a flit (Tables 16-3, 16-4): the outcome of R417, the lanes with corrected bytes, one for each byte, the
header's fields, whether a reserved one is nonzero, and the slots. -/
structure LinkFlit where
  pass : Bool := true
  fixed : List Nat := []
  kind : Nat := 1
  seq : Nat := 0
  ack : Nat := 0
  nak : Bool := false
  first : Nat := 15
  credit : List (Nat × Nat) := []
  rsvd : Bool := false
  slots : List (BitVec 128) := []
  deriving DecidableEq, Repr

/-- The OP of a CONTROL flit (Table 16-12). -/
def LinkFlit.op (f : LinkFlit) : Nat := (f.slots.headD 0).toNat % 256

/-- Table 16-10, but for MARK, CRC and FEC; and whether the block came inverted (R430). -/
structure TrainBlock where
  retrain : Bool := false
  lane : Nat := 0
  port : Nat := 0
  attempt : Nat := 0
  serial : Nat := 0
  devnum : Option Nat := none
  usable : Nat := 255
  active : Nat := 0
  seen : Bool := true
  precode : Bool := false
  eqHeld : Bool := false
  nextRx : Nat := 0
  eqReq : Nat := 0
  eqSts : Nat := 0
  inverted : Bool := false
  deriving DecidableEq, Repr

/-- A flooded message (R451, R459): its origin's serial and flood sequence, and the port it arrived on. -/
structure Flood where
  origin : Nat
  seq : Nat
  port : Nat
  deriving DecidableEq, Repr

/-- COLL_READY (R473): its sender, over the bridge or not, and its fields. -/
structure CollReady where
  dev : Nat
  bridge : Bool := false
  seq : Nat
  kind : Nat
  fmt : Nat
  count : Nat
  step : Nat
  deriving DecidableEq, Repr

/-- What PEN_RSP carries (R333-R336): an answer with its count, that a wait is recorded, a wake, the revocation of a ticket, and
the notice that a posted signal was dropped. -/
inductive PenAns where
  | answer (st : Status) (value : Nat)
  | recorded
  | wake (st : Status) (value : Nat)
  | revoke (ticket : Nat)
  | dropped
  deriving DecidableEq, Repr

/-! ### Management messages and policy registers -/

/-- A message at the management island (R546-R548): the PCIe port that carried it (none: SMBus), its requester, its MCTP type
and tag, whether a secured session carried it, and over PCIe whether it is addressed to the FM-owned LD (R559). Type 0x100 stands
for a request on LD 0's DOE (R553). -/
structure MctpHdr where
  port : Option Nat := none
  who : Nat := 0
  ty : Nat := 0x7E
  tag : Nat := 0
  secured : Bool := false
  fm : Bool := false
  deriving DecidableEq, Repr

/-- The registers of the policy window (Table 22-14); KEEP_AWAKE as a pair and as its halves (R113). -/
inductive PolReg where
  | fmThresh (k : Nat) | fmWscale (k : Nat) | refreshCap | srMinIdle | pgMinIdle | spillMaxK | keepAwake | keepLo | keepHi
  | hylEqHold | fantailCtrl | regionPolicy (n : Nat)
  | quotaTask (v : Nat) | quotaBuf (v : Nat) | quotaPage (v : Nat) | quotaPen (v : Nat) | qos (v : Nat)
  deriving DecidableEq, Repr

/-! ### Error records (Table 19-11) -/

/-- Table 19-12. -/
inductive RecClass where
  | correctable | retirement | poisoned | taskFault | misuse | deferredWrite | writeUnconfirmed | deviceGone
  | ringFault | protocol | boot | fatal | deviceFatal
  deriving DecidableEq, Repr

def RecClass.code : RecClass → Nat
  | .correctable => 1 | .retirement => 2 | .poisoned => 3 | .taskFault => 4 | .misuse => 5 | .deferredWrite => 6
  | .writeUnconfirmed => 7 | .deviceGone => 8 | .ringFault => 9 | .protocol => 10 | .boot => 11 | .fatal => 12
  | .deviceFatal => 13

/-- The fields of an error record but for its CHECK, which is computed when the record is written (R525). -/
structure Rec where
  time : Nat := 0
  cls : RecClass
  tagged : Bool := false
  earlier : Bool := false
  remote : Bool := false
  code : Nat := 0
  status : Nat := 0
  vd : Nat := 0xFF
  opcode : Nat := 0
  tag : Nat := 0
  stream : Nat := 0xFFFF
  device : Option Nat := none
  meter : Nat := 0xFF
  addr : Nat := 0
  slice : Nat := 0xFFFF
  unit : Nat := 0xFFFF
  level : Nat := 0
  count : Nat := 1
  detail : Nat := 0
  deriving DecidableEq, Repr

/-- What the block sends, in order (notes/assumptions/8.md). -/
inductive OutMsg where
  | coh (m : CohMsg)
  | bisnp (port line : Nat) (op : BiOp)
  /-- A CXL.mem response; for a write, poison stands for the error indication (R129). -/
  | s2m (port tag : Nat) (data : Line) (pois : Sectors) (mv : Meta) (devLoad : Nat)
  | rsp (tag : Nat) (st : Status) (data : Line) (pois : Sectors)
  | msix (vd vector : Nat)
  /-- A pennant operation to its owner: device, VD, tag, operation (16 for a termination signal, 17 for the withdrawal of
  a wait, 18 to give an import place back), ticket, value (R326, R333, R334). -/
  | penReq (dev vd tag op ticket value : Nat)
  | penWake (dev vd tag : Nat) (st : Status) (value : Nat)
  | penRevoke (dev vd ticket : Nat)
  | penAnswer (dev vd tag : Nat) (ans : PenAns)
  | sl (dev : Nat) (m : SlMsg)
  /-- A mailbox answer of a VD, and an answer of the FM API: the opcode, the return code and the values returned. -/
  | mb (vd op : Nat) (rc : RetCode) (vals : List Nat)
  | fm (h : MctpHdr) (op : Nat) (rc : RetCode) (vals : List Nat)
  | biConflictAck (port line : Nat)
  /-- An answer to a link power request: accepted or refused (R125). -/
  | l1Rsp (port : Nat) (ok : Bool)
  /-- A management, SPDM or PLDM answer: the request, the command, the completion code and its data. -/
  | mgmt (h : MctpHdr) (cmd code : Nat) (vals : List Nat)
  | mgmtLog (h : MctpHdr) (first : Nat) (recs : List Rec)
  /-- A PLDM event: sensor and value. -/
  | platformEvent (receiver sensor value : Nat)
  /-- A HyhanLink flit (Table 16-4): port, KIND, SEQ, ACK, NAK, credits returned, and the message, by its place among these. -/
  | flit (port kind seq ack : Nat) (nak : Bool) (credit : List (Nat × Nat)) (msg : Option Nat)
  /-- A CONTROL flit (Table 16-12): port, OP, LANES. -/
  | control (port op lanes : Nat)
  /-- A link-local pool message (Table 17-5), a flooded one (not sent on the port it came from), and a forwarded one. -/
  | link (port op : Nat) (vals : List Nat)
  | flood (op origin seq : Nat) (vals : List Nat) (but : Option Nat)
  | forward (m : LinkMsg)
  | unreach (dev op tag : Nat)
  /-- A collective message (R473, R474): its device, whether over the bridge, the opcode, its fields, and a line. -/
  | coll (dev : Nat) (bridge : Bool) (op : Nat) (vals : List Nat) (data : Line)
  /-- An access to a window of a VD that completes with Unsupported Request (R129, R150, R573). -/
  | unsupported (vd off : Nat)
  /-- A CXL.io request of a port that carries an LD-ID which is not exposed completes with Unsupported Request (R129). -/
  | noLd (port ld : Nat)
  /-- What a test scan shifts out: the register's bits, bit 0 first. -/
  | tdo (bits : List Bool)
  deriving DecidableEq, Repr

/-! ### The boot image -/

/-- Table 04-6. -/
structure ImgDevice where
  minDies : Nat := 1
  dieExclude : Nat := 0
  anchorSel : Nat := 4
  sscAllowed : Bool := false
  testLock : Bool := false
  dramEncrypt : Bool := false
  hylEnable : Nat := 0
  policyVd : Nat := 0xFF
  deriving DecidableEq, Repr

/-- Table 04-7. -/
structure ImgPort where
  ldCount : Nat := 0
  maxWidth : Nat := 0
  maxRate : Nat := 0
  refMode : Nat := 0
  ideIoRequired : Bool := false
  ideMemRequired : Bool := false
  hdmDbAllowed : Bool := false
  deriving DecidableEq, Repr

/-- R92: the kinds of a slice's bays, two bits each, and their RETAIN bits. -/
structure ImgBays where
  kind : Nat := 0
  retain : Nat := 0
  deriving DecidableEq, Repr

/-- Table 04-8. -/
structure ImgVd where
  quotaTask : Nat := 0
  quotaPen : Nat := 0
  quotaBuf : Nat := 0
  streams : Nat := 0
  quotaPage : Nat := 0
  qos : Nat := 0
  encrypt : Bool := false
  deriving DecidableEq, Repr

/-- Table 04-9: the image values of the policy window; the run-time values have the same fields (Table 04-17). -/
structure Policy where
  fmThresh : Tab Nat := []
  fmWscale : Tab Nat := []
  refreshCap : Nat := 0
  srMinIdle : Nat := 0
  pgMinIdle : Nat := 0
  spillMaxK : Nat := 0
  keepAwake : Nat := 0
  hylEqHold : Nat := 0
  fantailEnable : Bool := false
  regionPolicy : Tab Nat := []
  quotaTask : Tab Nat := []
  quotaBuf : Tab Nat := []
  quotaPage : Tab Nat := []
  quotaPen : Tab Nat := []
  qos : Tab Nat := []
  deriving DecidableEq, Repr

/-- Table 04-10. -/
structure Region where
  vd : Nat
  bulk : Bool := false
  memAtomic : Bool := false
  promotable : Bool := false
  keepLocal : Bool := false
  policyIndex : Nat := 0xFF
  base : Nat
  length : Nat
  deriving DecidableEq, Repr

/-- R96. -/
structure ImgPool where
  kind : Nat := 0
  size : Nat := 0
  classes : List Nat := []
  deriving DecidableEq, Repr

/-- R97. -/
structure PoolMap where
  mode : Nat
  maxDevices : Nat
  poolId : Nat
  entries : List (Nat × Nat)
  deriving DecidableEq, Repr

/-- Table 14-2. -/
structure Bucket where
  bm : Nat := 0
  bn : Nat := 0
  bk : Nat := 0
  mt : Nat := 1
  nt : Nat := 1
  order : Nat := 0
  ml : Nat := 1
  nl : Nat := 1
  kl : Nat := 16
  mb : Nat := 1
  nb : Nat := 1
  deriving DecidableEq, Repr

/-- Table 14-1. -/
structure Plan where
  kind : Nat := 0x30
  buckets : List Bucket := []
  aFmt : Nat := 0
  xFmt : Nat := 0
  xConv : Nat := 0
  accMode : Nat := 0
  maxRetry : Nat := 0
  ovfSaturate : Bool := false
  scaleA : Int := 0
  scaleX : Int := 0
  frame : Int := 0
  spillK : Nat := 5
  seed : Nat := 0
  outFmt : Nat := 0
  round : Nat := 0
  stages : Nat := 0
  func : Nat := 0xFFFF
  scaleC : Nat := 0
  biasC : Nat := 0
  auxScale : Nat := 0xFFFFFFFF
  auxBias : Nat := 0xFFFFFFFF
  auxRes : Nat := 0xFFFFFFFF
  auxHdr : Nat := 0xFFFFFFFF
  padAOn : Bool := false
  padXOn : Bool := false
  ksplit : Nat := 0
  flume : Nat := 0xFFFF
  padA : Nat := 0
  padX : Nat := 0
  scratch : Nat := 1
  acqBay : Bool := false
  relBay : Bool := false
  nFixed : Nat := 0
  deriving DecidableEq, Repr

/-- Table 18-2: a service record: its opcode, how many arguments it takes, where each lands, and its template. -/
structure SvcRec where
  op : Nat
  args : Nat := 0
  maps : List (Nat × Nat) := []
  template : BitVec 512 := 0
  deriving DecidableEq, Repr

/-- Table 14-8: a function table: its segments' slopes and intercepts as FP32. -/
structure FuncTable where
  lo : Nat
  rscale : Nat
  segs : List (Nat × Nat)
  deriving DecidableEq, Repr

/-- Table 15-3: what one router does in one cycle. -/
structure FlumeEntry where
  cycle : Nat
  router : Nat
  inp : Nat
  out : Nat
  add : Bool
  deriving DecidableEq, Repr

structure FlumeVariant where
  participants : Nat
  dest : Nat
  entries : List FlumeEntry
  deriving DecidableEq, Repr

/-- Table 15-2. -/
structure FlumeRec where
  reduce : Bool
  period : Nat
  fmt : Nat := 0
  variants : List FlumeVariant
  deriving DecidableEq, Repr

/-! ### What a part is -/

/-- A fused key slot (R87). -/
structure KeySlot where
  provisioned : Bool := false
  /-- The SHA-384 digest of the allowed key. -/
  digest : Nat := 0
  revoked : Bool := false
  deriving DecidableEq, Repr

/-- What provisioning fused (R87, R578, R579, R585). -/
structure Fuses where
  serial : Nat := 0
  /-- The identity chain of certificate slot 0 (R554). -/
  chain : List Byte := []
  iodRev : Nat := 1
  /-- The previous-generation I/O die: an FX288-A. -/
  prevGen : Bool := false
  keys : Tab KeySlot := []
  minSecurity : Nat := 0
  deriving DecidableEq, Repr

/-- The straps, sampled at power-on (R597), and whether the board is the FX288-C and carries a panel. -/
structure Straps where
  refm : Tab Nat := []
  smbAddr : Nat := 0
  flashX8 : Bool := false
  card : Bool := false
  panel : Bool := false
  deriving DecidableEq, Repr

end Sys2Proof.Machine
end

