-- ==== Sys2Proof/Syntax.lean ====
section
/-!
DEFINITION. The commands of the FX288: one constructor per row of spec/opcode_table.json, in the table's order.
The table names no operands; each constructor carries what the rule of its row says the step acts on
(an address, a port, a virtual device), and what its outcome depends on outside the block (a measured value, the
outcome of a published check, a choice the spec calls not architectural: notes/assumptions/7.md).
-/
namespace Sys2Proof
open Sys2Proof.Machine

/-- The rows of the opcode table. -/
inductive Instr where
  /-- POWER_ON (R70). PWR_OK rises with every rail in regulation, starting the power-up sequence from step 1. The straps as wired and what the part holds fused. -/
  | powerOn (straps : Straps) (fuses : Fuses)
  /-- MGMT_ISLAND_START (R70). The on-die oscillator runs, the management island leaves reset and mask ROM starts. -/
  | mgmtIslandStart
  /-- QUIET_CLOCK_LOCK (R70). The quiet clock is running and checked; the main PLL locks to it and the forwarded reference and time base start. -/
  | quietClockLock
  /-- SFDP_PARSE (R83). The ROM reads the flash SFDP tables, chooses the read mode or records FLASH_UNSUPPORTED for every slot. What the SFDP tables say. -/
  | sfdpParse (signature : Bool) (dense : Bool) (addr4 : Bool) (octal : Bool) (quad : Bool)
  /-- DISCOVERY_START (R30). The I/O die starts the forwarded reference and Leat clocks on all links and releases the slice dies from reset. -/
  | discoveryStart
  /-- SLICE_PLL_LOCK (R30). A slice die's PLLs lock and it returns the Leat clock upward. -/
  | slicePllLock (die : Nat)
  /-- LEAT_WIRE_TRAINING (R31). Per-wire training of a Leat link completes and failing wires are mapped to spares, or the link fails. The failing wires of each group, downward and upward. -/
  | leatWireTraining (die : Nat) (dn : List Nat) (up : List Nat)
  /-- IDENTITY_MESSAGE (R32). A slice die's identity message arrives and is checked for deadline, check code and interface level. `good` is the outcome of the check code. -/
  | identityMessage (die : Nat) (serial : Nat) (rev : Nat) (level : Nat) (good : Bool)
  /-- CHANNEL_FAILURE_MASK_REPORT (R30). A slice die reports its stack's channel failure mask at the end of training. -/
  | channelFailureMaskReport (die : Nat) (mask : Nat)
  /-- DISCOVERY_DEADLINE (R30). A discovery step's time limit expires and a die that has not met it takes that step's failure state. -/
  | discoveryDeadline (step : Nat)
  /-- INVENTORY_FIX (R33). The I/O die fixes die states, usable channels, slices, bays and pennants until the next cold reset. -/
  | inventoryFix
  /-- CXL_TRAINING_START (R71). A CXL port starts link training at the latest of power-on, PERST_N deassertion and reference validity plus 20 ms. -/
  | cxlTrainingStart (port : Nat)
  /-- SLOT_STAGE (R100). A boot slot has been read once from flash into staging bays and checks 1-4 are made on it. -/
  | slotStage (slot : Nat) (bytes : List Byte)
  /-- SLOT_SELECTION (R106). After the inventory is fixed, checks 5 and 6 run in preference order and the first passing slot is selected. -/
  | slotSelection
  /-- IMAGE_APPLY (R102). The selected image is applied: bays, Hopper, Sluice and pennants are initialised. -/
  | imageApply (pick : Nat)
  /-- COLD_RST_N_ASSERT (R64). COLD_RST_N held low for at least 1 us triggers a cold reset. -/
  | coldRstNAssert
  /-- WARM_RST_N_ASSERT (R67). WARM_RST_N held low for at least 1 us requests a warm reset; dispatch and credits stop. -/
  | warmRstNAssert
  /-- WARM_RESET_TASK_STOP (R67). Running tasks have stopped for a warm reset, undrained tiles discarded and no completion written. -/
  | warmResetTaskStop
  /-- WARM_RESET_FLUSH (R67). Every accepted request completes and dirty lines are written back; stacks enter self-refresh and bays, epochs and engines reset. `acked`: lines whose write-back to a peer was acknowledged in time. -/
  | warmResetFlush (acked : List Nat) (pick : Nat)
  /-- WARM_IMAGE_REAPPLY (R110). The DRAM copy of the image is rehashed and reapplied, or a mismatch turns the warm reset into a cold reset. -/
  | warmImageReapply (ok : Bool)
  /-- WARM_RESET_COMPLETE (R68). Stacks leave self-refresh, credits are granted again and held CXL.io accesses are completed in order. -/
  | warmResetComplete (pick : Nat)
  /-- PORT_RESET (R64). PERST_N low, hot reset or link disable resets a port and each VD bound to it. -/
  | portReset (port : Nat) (perst : Option Bool) (pick : Nat)
  /-- POWER_LOSS (R600). PWR_OK low or a core rail sagging for 1 us is treated as power loss; outputs float and nothing is kept. -/
  | powerLoss
  /-- REF_GLITCH (R56). A reference disturbance ends within 100 ns; the PLL holds and REF_GLITCH_CNT increments. -/
  | refGlitch (ref : Nat) (ns : Nat)
  /-- REF_LOSS (R57). A disturbance reaches 100 ns and the reference is declared lost. -/
  | refLoss (ref : Nat) (pick : Nat)
  /-- FREQ_WINDOW_END (R56). A 20 us frequency window ends; two consecutive out-of-band windows declare loss. -/
  | freqWindowEnd (ref : Nat) (hz : Nat) (pick : Nat)
  /-- REF_RETURN (R59). A lost reference completes 100 us without disturbance and in band, and is valid again. -/
  | refReturn (ref : Nat)
  /-- QUIET_CLOCK_FAIL (R61). The quiet clock fails; QUIET_FAIL is set or, during holdover, the device enters FREE_RUN. -/
  | quietClockFail (pick : Nat)
  /-- THERMAL_SAMPLE (R79). Each stack's temperature is sampled every 100 us and its thermal actions are started or released. The stack's sensors in degrees; none for one that failed its self-check. -/
  | thermalSample (die : Nat) (readings : List (Option Nat))
  /-- IOD_THERMAL_TRIP (R81). The I/O die reaches 125 C and the device cold-resets and holds until below 100 C. -/
  | iodThermalTrip (temp : Nat)
  /-- SLICE_CLOCK_GATE (R73). A slice idle for 1 us clock-gates itself. -/
  | sliceClockGate (slice : Nat)
  /-- SLICE_POWER_GATE (R74). A slice meeting every gating condition writes back and switches its domain off. -/
  | slicePowerGate (slice : Nat) (choice : Nat) (idle : Nat)
  /-- SLICE_WAKE (R73). A request or keep-awake bit wakes a gated slice within its wake latency. -/
  | sliceWake (slice : Nat) (pick : Nat)
  /-- RUNNER_GATE (R73). A Runner array with no task for 2 us gates itself. -/
  | runnerGate (slice : Nat)
  /-- STACK_SELF_REFRESH (R73). A stack whose channels are idle for the loop's interval enters self-refresh. -/
  | stackSelfRefresh (die : Nat) (choice : Nat) (idle : Nat)
  /-- CARD_POWER_SENSE (R603). At card power-on SENSE0 and SENSE1 are read; only the 600 W configuration lets the rails sequence. -/
  | cardPowerSense (sense0 : Bool) (sense1 : Bool)
  /-- LEAT_ECC_ERROR (R26). A Leat beat with a check error is corrected or poisoned and charged to the link's meter. A single or double bit error, and the sectors whose data the beat carried. -/
  | leatEccError (die : Nat) (double : Bool) (line : Option Nat) (sec : Sectors)
  /-- TEST_LOGIC_RESET (R46). The TAP enters Test-Logic-Reset, selecting IDCODE and closing every SIB. -/
  | testLogicReset
  /-- EXTEST (R45). TAP instruction driving package outputs from the boundary-scan register. The levels that the register captures at the pins, and the bits shifted in. -/
  | extest (pins : List Bool := []) (bits : List Bool := [])
  /-- IDCODE (R45). TAP instruction selecting the 32-bit identification register. -/
  | idcode
  /-- SAMPLE (R45). TAP instruction capturing the boundary-scan register without driving. -/
  | sample (pins : List Bool)
  /-- PRELOAD (R45). TAP instruction loading the boundary-scan register without driving. -/
  | preload (bits : List Bool)
  /-- CLAMP (R45). TAP instruction holding outputs from the boundary-scan register with bypass selected. -/
  | clamp
  /-- HIGHZ (R45). TAP instruction placing outputs in high impedance. -/
  | highz
  /-- IJTAG_ACCESS (R46). TAP instruction selecting the SIB chain and open slice-die segments. -/
  | ijtagAccess
  /-- DIE_SUMMARY (R45). TAP instruction selecting the 8-bit register of ACTIVE or EXCLUDED dies. -/
  | dieSummary
  /-- BYPASS (R45). TAP instruction selecting the 1-bit bypass register. -/
  | bypass
  /-- SIB_UPDATE (R46). Update-DR applies new SIB values, opening or closing die segments and switching DIE_COM power. -/
  | sibUpdate (sibs : Nat)
  /-- DIE_COM_POWERED (R49). A die's common domain finishes powering up for test 100 us after its SIB opens. -/
  | dieComPowered (die : Nat)
  /-- POLICY_WRITE_ARRIVE (R112). A policy write arrives at the policy block and waits in the 16-entry queue or is held. -/
  | policyWriteArrive (reg : PolReg) (val : Nat) (vd : Option Nat)
  /-- FM_THRESH_WRITE (R116). Processing a fault meter threshold write; meters at or above it cross. -/
  | fmThreshWrite
  /-- FM_WSCALE_WRITE (R116). Processing an event weight scale write for later events. -/
  | fmWscaleWrite
  /-- REFRESH_CAP_WRITE (R116). Processing a refresh interval cap write. -/
  | refreshCapWrite
  /-- SR_MIN_IDLE_WRITE (R75). Processing a minimum self-refresh idle write. -/
  | srMinIdleWrite
  /-- PG_MIN_IDLE_WRITE (R75). Processing a minimum power-gate idle write. -/
  | pgMinIdleWrite
  /-- KEEP_AWAKE_WRITE (R116). Processing a keep-awake mask write; newly set slices are blocked from gating and woken. -/
  | keepAwakeWrite (pick : Nat)
  /-- SPILL_MAX_K_WRITE (R116). Processing a spill interval ceiling write for later task launches. -/
  | spillMaxKWrite
  /-- HYL_EQ_HOLD_WRITE (R441). Processing a HyhanLink equalisation freeze write. -/
  | hylEqHoldWrite
  /-- FANTAIL_CTRL_WRITE (R116). Processing a Fantail enable write; forbidden moves not yet copying are abandoned. -/
  | fantailCtrlWrite
  /-- REGION_POLICY_WRITE (R116). Processing a region policy write setting Fantail bounds. -/
  | regionPolicyWrite
  /-- VD_QUOTA_TASK_WRITE (R116). Processing a VD task quota write. -/
  | vdQuotaTaskWrite
  /-- VD_QUOTA_BUF_WRITE (R116). Processing a VD buffer quota write. -/
  | vdQuotaBufWrite
  /-- VD_QUOTA_PAGE_WRITE (R116). Processing a VD page quota write. -/
  | vdQuotaPageWrite
  /-- VD_QUOTA_PEN_WRITE (R116). Processing a VD pennant quota write. -/
  | vdQuotaPenWrite
  /-- VD_QOS_WRITE (R166). Processing a VD QoS class and weight write. -/
  | vdQosWrite
  /-- POLICY_WRITE_COMPLETE (R112). A policy write's effect completes or its latency passes, so the next queued write is taken. -/
  | policyWriteComplete
  /-- LINK_UP (R124). A CXL port link comes up and partner discovery sets MLD_MODE, CXL_OK and the exposed LDs. -/
  | linkUp (port : Nat) (rate : Nat) (width : Nat) (cxl : Bool) (mld : Bool) (sris : Bool := false) (pick : Nat := 0)
  /-- LINK_DOWN (R152). A CXL link goes down: credits stop, accepted requests complete internally, BISnps answered Invalid, host bits cleared. -/
  | linkDown (port : Nat) (surprise : Bool) (pick : Nat)
  /-- L1_ENTRY_REQUEST (R125). The partner requests L0p or ASPM L1, refused while a BISnp or held completion is pending. 1 L0p, 2 L1. -/
  | l1EntryRequest (port : Nat) (level : Nat)
  /-- IDE_INTEGRITY_FAILURE (R150). An IDE integrity failure takes the port's link down. -/
  | ideIntegrityFailure (port : Nat) (pick : Nat)
  /-- FUNCTION_LEVEL_RESET (R151). An FLR of an LD triggers a VD reset keeping extents and pages. -/
  | functionLevelReset (port : Nat) (ld : Nat)
  /-- CXL_RESET (R151). A CXL Reset of an LD triggers a VD reset, freeing every page when Mem Clr is set. -/
  | cxlReset (port : Nat) (ld : Nat) (memClr : Bool)
  /-- MEM_RD (R226). A CXL.mem M2S read is accepted, translated and served at the home per its MetaValue. `hit`: the port's translation cache holds the page's entry (not architectural). -/
  | memRd (r : CxlReq) (ld : Nat) (hit : Bool) (pick : Nat)
  /-- MEM_WR (R226). A CXL.mem write is accepted, translated and applied at the home, setting host state by MetaValue. -/
  | memWr (r : CxlReq) (ld : Nat) (hit : Bool) (pick : Nat)
  /-- MEM_CLN_EVCT (R226). A host clean eviction clears its host bit in the directory. -/
  | memClnEvct (r : CxlReq) (ld : Nat) (hit : Bool) (pick : Nat)
  /-- MEM_SPEC_RD (R143). A speculative read hint is acted on below 1536 outstanding or discarded. -/
  | memSpecRd (port : Nat) (ld : Nat) (dpa : Nat) (hit : Bool) (pick : Nat)
  /-- BIRSP (R139). A host BIRsp half arrives for an outstanding block snoop; stray ones are counted. -/
  | birsp (port : Nat) (line : Nat) (half : Nat) (rsp : BiRsp) (pick : Nat)
  /-- BISNP_TIMEOUT (R140). A BISnp unanswered for 10 ms clears the host bit, poisons an exclusive line and releases waiters. -/
  | bisnpTimeout (port : Nat) (line : Nat) (pick : Nat)
  /-- BICONFLICT (R233). A host BIConflict is answered BIConflictAck after its conflicting request's completion. -/
  | biconflict (port : Nat) (line : Nat) (tag : Nat)
  /-- DEVLOAD_UPDATE (R144). The port's DevLoad value is recomputed every 1 us. -/
  | devloadUpdate (port : Nat)
  /-- GET_LD_INFO (R130). FM API command returning LD count and total capacity. -/
  | getLdInfo (h : MctpHdr) (port : Nat)
  /-- GET_LD_ALLOCATIONS (R130). FM API command returning each LD's accepted extent total. -/
  | getLdAllocations (h : MctpHdr) (port : Nat)
  /-- SET_LD_ALLOCATIONS (R130). FM API command always returning Unsupported. -/
  | setLdAllocations (h : MctpHdr)
  /-- GET_QOS_CONTROL (R130). FM API command reporting each VD's QoS. -/
  | getQosControl (h : MctpHdr) (port : Nat)
  /-- SET_QOS_CONTROL (R130). FM API command always returning Unsupported. -/
  | setQosControl (h : MctpHdr)
  /-- GET_QOS_STATUS (R130). FM API command reporting the port-wide DevLoad level. -/
  | getQosStatus (h : MctpHdr) (port : Nat)
  /-- GET_QOS_ALLOCATED_BW (R130). FM API command reporting each LD's weight share. -/
  | getQosAllocatedBw (h : MctpHdr) (port : Nat)
  /-- GET_DCD_INFO (R130). FM API command reporting dynamic capacity regions, block size and capacity. -/
  | getDcdInfo (h : MctpHdr)
  /-- GET_HOST_DC_REGION_CONFIGURATION (R131). FM API command returning the fixed DC regions. -/
  | getHostDcRegionConfiguration (h : MctpHdr) (vd : Nat)
  /-- SET_DC_REGION_CONFIGURATION (R130). FM API command accepted only if it equals the fixed regions. -/
  | setDcRegionConfiguration (h : MctpHdr) (vd : Nat) (region : Nat) (base : Nat) (len : Nat) (block : Nat)
  /-- GET_DC_REGION_EXTENT_LISTS (R130). FM API command returning accepted and pending extents. -/
  | getDcRegionExtentLists (h : MctpHdr) (vd : Nat)
  /-- INITIATE_DYNAMIC_CAPACITY_ADD (R132). FM API command offering extents to a VD after capacity and overlap checks. -/
  | initiateDynamicCapacityAdd (h : MctpHdr) (vd : Nat) (extents : List (Nat × Nat)) (shared : Bool)
  /-- INITIATE_DYNAMIC_CAPACITY_RELEASE (R133). FM API command requesting or forcing release of extents. -/
  | initiateDynamicCapacityRelease (h : MctpHdr) (vd : Nat) (extents : List (Nat × Nat)) (forced : Bool) (pick : Nat)
  /-- FM_API_UNSUPPORTED (R130). Any other FM API opcode returns Unsupported. -/
  | fmApiUnsupported (h : MctpHdr) (op : Nat)
  /-- EXTENT_OFFER_TIMEOUT (R132). An offered extent not accepted within 60 s is withdrawn. -/
  | extentOfferTimeout (vd : Nat) (base : Nat)
  /-- MB_IDENTIFY (R148). Mailbox Identify command. -/
  | mbIdentify (vd : Nat)
  /-- BACKGROUND_OPERATION_STATUS (R148). Mailbox command reporting background operation status. -/
  | backgroundOperationStatus (vd : Nat)
  /-- GET_EVENT_RECORDS (R146). Mailbox command reading a VD event log. -/
  | getEventRecords (vd : Nat) (log : Nat)
  /-- CLEAR_EVENT_RECORDS (R146). Mailbox command clearing event records. -/
  | clearEventRecords (vd : Nat) (log : Nat) (all : Bool) (handles : List Nat)
  /-- GET_EVENT_INTERRUPT_POLICY (R146). Mailbox command reading event interrupt policy. -/
  | getEventInterruptPolicy (vd : Nat)
  /-- SET_EVENT_INTERRUPT_POLICY (R146). Mailbox command selecting each log's MSI-X vector. -/
  | setEventInterruptPolicy (vd : Nat) (log : Nat) (vector : Option Nat)
  /-- GET_TIMESTAMP (R148). Mailbox command reading per-VD host time. -/
  | getTimestamp (vd : Nat)
  /-- SET_TIMESTAMP (R148). Mailbox command setting per-VD host time without changing the time base. -/
  | setTimestamp (vd : Nat) (value : DWord)
  /-- GET_SUPPORTED_LOGS (R148). Mailbox command listing supported logs. -/
  | getSupportedLogs (vd : Nat)
  /-- GET_LOG (R148). Mailbox command reading the Command Effects Log. -/
  | getLog (vd : Nat) (log : Nat)
  /-- IDENTIFY_MEMORY_DEVICE (R148). Mailbox command reporting zero static capacity. -/
  | identifyMemoryDevice (vd : Nat)
  /-- GET_HEALTH_INFO (R148). Mailbox command reporting health with the highest stack temperature. -/
  | getHealthInfo (vd : Nat)
  /-- GET_ALERT_CONFIGURATION (R148). Mailbox command reading alert configuration. -/
  | getAlertConfiguration (vd : Nat)
  /-- SET_ALERT_CONFIGURATION (R148). Mailbox command setting alert configuration. -/
  | setAlertConfiguration (vd : Nat) (value : Nat)
  /-- GET_POISON_LIST (R148). Mailbox command returning up to 256 poison records. -/
  | getPoisonList (vd : Nat) (lo : Nat) (len : Nat)
  /-- INJECT_POISON (R148). Mailbox command injecting poison, refused once Memory Active is lost. -/
  | injectPoison (vd : Nat) (dpa : Nat) (x : Ext)
  /-- CLEAR_POISON (R148). Mailbox command clearing poison. -/
  | clearPoison (vd : Nat) (dpa : Nat) (data : BitVec 512) (x : Ext)
  /-- GET_SCAN_MEDIA_CAPABILITIES (R148). Mailbox command reporting scan media capabilities. -/
  | getScanMediaCapabilities (vd : Nat) (lo : Nat) (len : Nat)
  /-- SCAN_MEDIA (R148). Mailbox command starting a background scan of the VD's touched pages. -/
  | scanMedia (vd : Nat) (lo : Nat) (len : Nat)
  /-- GET_SCAN_MEDIA_RESULTS (R148). Mailbox command returning scan results. -/
  | getScanMediaResults (vd : Nat)
  /-- SANITIZE (R148). Mailbox command starting a background sanitize of the VD's pages. -/
  | sanitize (vd : Nat)
  /-- SECURE_ERASE (R148). Mailbox command starting a background secure erase with a new key. -/
  | secureErase (vd : Nat)
  /-- BACKGROUND_OPERATION_DONE (R148). A background mailbox operation (scan, sanitize, secure erase) completes. -/
  | backgroundOperationDone (vd : Nat) (pick : Nat)
  /-- GET_DYNAMIC_CAPACITY_CONFIGURATION (R148). Mailbox command returning DC configuration. -/
  | getDynamicCapacityConfiguration (vd : Nat)
  /-- GET_DYNAMIC_CAPACITY_EXTENT_LIST (R148). Mailbox command returning the DC extent list. The place of the first extent that the reply holds. -/
  | getDynamicCapacityExtentList (vd : Nat) (start : Nat := 0)
  /-- ADD_DYNAMIC_CAPACITY_RESPONSE (R132). Mailbox command by which the host accepts offered extents. -/
  | addDynamicCapacityResponse (vd : Nat) (extents : List (Nat × Nat))
  /-- RELEASE_DYNAMIC_CAPACITY (R133). Mailbox command by which the host releases extents. -/
  | releaseDynamicCapacity (vd : Nat) (extents : List (Nat × Nat)) (pick : Nat)
  /-- MAILBOX_UNSUPPORTED (R148). Any other mailbox opcode returns Unsupported. -/
  | mailboxUnsupported (vd : Nat) (op : Nat)
  /-- VD_RESET_TRIGGER (R171). A VD reset trigger increments the epoch, sets RESETTING and stops ring reads. `cause` is the LAST_RESET code of Table 06-3. -/
  | vdResetTrigger (vd : Nat) (cause : Nat)
  /-- VD_RESET_TASK_STOP (R171). The VD's queued tasks are cancelled and running tasks have stopped at tile boundaries. -/
  | vdResetTaskStop (vd : Nat)
  /-- VD_RESET_ABANDON (R171). The VD's pennants become ABANDONED and its wait registrations are withdrawn. -/
  | vdResetAbandon (vd : Nat)
  /-- VD_RESET_SWEEP (R169). The sweep frees buffers, initialises streams, resets views and error ring and marks departed-write entries EARLIER. -/
  | vdResetSweep (vd : Nat) (x : Ext)
  /-- VD_RESET_COMPLETE (R171). The VD becomes READY with RESET_SEEN and LAST_RESET recorded. -/
  | vdResetComplete (vd : Nat) (pick : Nat)
  /-- ERR_RING_CTRL_WRITE (R177). A write to ERR_RING_CTRL sets size, enable and vector under the live-write rules. -/
  | errRingCtrlWrite (vd : Nat) (value : Word)
  /-- ERR_RING_HEAD_WRITE (R177). Software advances ERR_RING_HEAD within the valid index range. -/
  | errRingHeadWrite (vd : Nat) (value : Word)
  /-- ERR_RING_BASE_WRITE (R179). A write to an error ring base, ignored with LIVE_WRITE while enabled. -/
  | errRingBaseWrite (vd : Nat) (hi : Bool) (value : Word)
  /-- ERROR_RECORD_WRITE_FAIL (R179). An error record write fails, so RING_FAULT is set and the ring disabled. -/
  | errorRecordWriteFail (vd : Nat)
  /-- ERR_RING_MSIX_DEFER (R178). A suppressed error-ring MSI-X is sent at the end of its 1 us if records remain unread. -/
  | errRingMsixDefer (vd : Nat)
  /-- SHARED_ENTRY_GRANT (R165). A shared queue entry frees and the arbiter grants it to a waiting request by class and weight. -/
  | sharedEntryGrant (q : QueueId) (pick : Nat) (x : Ext)
  /-- LOCAL_READ (R199). A read from an agent on the home device reaches the home slice and is served or allocates a miss register. The request, and the error that the slice found in its SRAM or logic while it served the read, if any; `pick` is the frame or recall victim, where one is chosen. -/
  | localRead (r : Req) (pick : Nat) (err : (Option SramErr))
  /-- LOCAL_WRITE (R199). A write from an agent on the home device is applied at the home, snooping holders first. -/
  | localWrite (r : Req) (pick : Nat)
  /-- DRAM_FILL_RETURN (R198). A DRAM or bulk-line fill returns and the line's waiters are served in list order. `line` is the global line. -/
  | dramFillReturn (line : Nat) (pick : Nat)
  /-- LOCAL_REDUCTION (R208). An add-to-line reduction is applied at the home as one atomic line update. -/
  | localReduction (r : Req) (pick : Nat)
  /-- SLICE_ATOMIC (R211). An atomic executes in the slice's atomic unit and returns the old value. -/
  | sliceAtomic (r : Req) (pick : Nat)
  /-- MEM_SIDE_ATOMIC_DONE (R214). A memory-controller atomic writes its new value and releases the line's miss register. -/
  | memSideAtomicDone (line : Nat) (pick : Nat)
  /-- RD_S (R226). Coherence request for a shared copy arrives at the home. -/
  | rdS (m : CohMsg) (pick : Nat)
  /-- RD_X (R226). Coherence request for an exclusive copy arrives at the home. -/
  | rdX (m : CohMsg) (pick : Nat)
  /-- UPG (R226). Upgrade request from a proxy holding RS arrives at the home. -/
  | upg (m : CohMsg) (pick : Nat)
  /-- RD_NC (R226). Non-caching read arrives at the home. -/
  | rdNc (m : CohMsg) (pick : Nat)
  /-- WR_NC (R226). Non-caching write arrives at the home. -/
  | wrNc (m : CohMsg) (pick : Nat)
  /-- RED (R234). Remote reduction arrives at the home and is applied after removing copies. -/
  | red (m : CohMsg) (pick : Nat)
  /-- ATOM (R234). Remote atomic arrives at the home and executes there or at the controller. -/
  | atom (m : CohMsg) (pick : Nat)
  /-- SNP_INV (R227). Invalidating snoop arrives at a proxy and is answered per its line state. -/
  | snpInv (m : CohMsg) (pick : Nat)
  /-- SNP_DATA (R227). Downgrading snoop arrives at a proxy. -/
  | snpData (m : CohMsg) (pick : Nat)
  /-- SNP_CUR (R227). Current-data snoop arrives at a proxy. -/
  | snpCur (m : CohMsg) (pick : Nat)
  /-- RSP_I (R225). Invalidated answer arrives at the home. -/
  | rspI (m : CohMsg) (pick : Nat)
  /-- RSP_S (R225). Kept-shared answer arrives at the home. -/
  | rspS (m : CohMsg) (pick : Nat)
  /-- RSP_E (R225). Kept-exclusive answer arrives at the home. -/
  | rspE (m : CohMsg) (pick : Nat)
  /-- RSP_NP (R228). Not-present answer clears the sharer bit and may wait for a pending WB. -/
  | rspNp (m : CohMsg) (pick : Nat)
  /-- GNT_ACK (R225). A proxy acknowledges a grant, allowing the home to clear BUSY. -/
  | gntAck (m : CohMsg) (pick : Nat)
  /-- CMP (R237). Completion of a write, reduction or atomic arrives at the requester with its status. -/
  | cmp (m : CohMsg) (x : Ext)
  /-- CMP_E (R224). Upgrade granted without data arrives at the proxy. -/
  | cmpE (m : CohMsg) (pick : Nat)
  /-- WB_ACK (R224). Write-back acknowledgement releases the proxy's miss register. -/
  | wbAck (m : CohMsg) (pick : Nat)
  /-- FILL_S (R224). Whole-line shared fill arrives at the requester, which installs it and sends GNT_ACK. -/
  | fillS (m : CohMsg) (pick : Nat)
  /-- FILL_E (R224). Whole-line exclusive fill arrives at the requester. -/
  | fillE (m : CohMsg) (pick : Nat)
  /-- RD_DAT (R222). Read data or an atomic's old value arrives at the requester. -/
  | rdDat (m : CohMsg) (x : Ext)
  /-- DAT_I (R228). Dirty sectors with invalidation arrive at the home and are merged. -/
  | datI (m : CohMsg) (pick : Nat)
  /-- DAT_S (R228). Dirty sectors with downgrade to RS arrive at the home. -/
  | datS (m : CohMsg) (pick : Nat)
  /-- DAT_E (R228). Dirty sectors kept as RE arrive at the home. -/
  | datE (m : CohMsg) (pick : Nat)
  /-- WB (R230). An evicted RE line's write-back arrives; applied from the owner, discarded if stale. -/
  | wb (m : CohMsg) (pick : Nat)
  /-- SNOOP_TIMEOUT (R235). A pool snoop unanswered for 2 ms clears the bit, poisons an owned line and completes the transaction. -/
  | snoopTimeout (line : Nat) (dev : Nat) (pick : Nat)
  /-- DIRECTORY_DEPARTURE_SWEEP (R236). A slice finishes sweeping its directory for a departed device and reports completion. -/
  | directoryDepartureSweep (slice : Nat) (dev : Nat)
  /-- RELEASE (R239). RELEASE fence completes when every earlier write of the task is performed or reported failed. `full` marks the RELEASE of a FULL fence. -/
  | release (cmd : Nat) (slice : Nat) (full : Bool)
  /-- ALLOC (R253). Hopper ALLOC command allocating and zeroing a block and returning a handle. `cmd` is the read number of the command in flight; `pick` the block within a preference tier. -/
  | hopAlloc (cmd : Nat) (pick : Nat)
  /-- ADOPT (R254). ALLOC with ADOPT makes the caller's RETAINED buffer LIVE under its current epoch. -/
  | hopAdopt (cmd : Nat) (pick : Nat)
  /-- FREE (R255). Hopper FREE command killing a handle's name, freeing or marking DYING. -/
  | hopFree (cmd : Nat)
  /-- QUERY (R257). Hopper QUERY command writing a buffer or pool result. -/
  | hopQuery (cmd : Nat) (x : Ext)
  /-- TRANSFER (R258). Hopper TRANSFER command allocating a destination and starting the copy. -/
  | hopTransfer (cmd : Nat) (pick : Nat)
  /-- TRANSFER_SWITCH (R258). A TRANSFER copy completes and the destination goes LIVE as the source dies. -/
  | transferSwitch (cmd : Nat) (x : Ext)
  /-- QUARANTINE_END (R260). A quarantined buffer index becomes FREE with GEN 0. -/
  | quarantineEnd (pool : Nat) (index : Nat)
  /-- HOPPER_BACKGROUND_PASS (R260). The background pass sets LONG on records whose cycle reached 60 s. -/
  | hopperBackgroundPass
  /-- SLUICE_WALK (R270). A translation walk takes a slot and resolves the entry to an outcome. -/
  | sluiceWalk (vd : Nat) (page : Nat) (pick : Nat)
  /-- PAGE_ZERO_DONE (R273). Zeroing of a first-touched page completes, the entry becomes PAGE and the access proceeds. -/
  | pageZeroDone (vd : Nat) (page : Nat) (pick : Nat)
  /-- PAGE_MOVE_START (R284). A page move allocates the destination and marks the entry MIGRATING. `place` is the place of the move among those asked for. -/
  | pageMoveStart (place : Nat) (pick : Nat)
  /-- MOVE_ACK_COMPLETE (R284). Every requester has acknowledged its pre-shootdown accesses to the page. -/
  | moveAckComplete (vd : Nat) (page : Nat)
  /-- MOVE_COPY_DONE (R284). The page copy finishes and the entry becomes PAGE with the new address. -/
  | moveCopyDone (vd : Nat) (page : Nat) (x : Ext)
  /-- MOVE_SOURCE_FREE (R284). The moved page's source frames are freed. -/
  | moveSourceFree (vd : Nat) (page : Nat)
  /-- MOVE_DEADLINE (R285). A between-device move not committed by 20 ms is abandoned. -/
  | moveDeadline (vd : Nat) (page : Nat) (pick : Nat)
  /-- FANTAIL_EVALUATION (R287). Every 10 ms Fantail chooses moves by heat, then halves all heat. -/
  | fantailEvaluation
  /-- PROMOTE_DONE (R288). A page's promotion into a pinned slot completes. -/
  | promoteDone (slot : Nat)
  /-- DEMOTE_DONE (R289). A promoted page's demotion to its frame completes and the slot frees. -/
  | demoteDone (slot : Nat)
  /-- SL_PLACE (R278). Sluice command moving a range's pages to a named device. -/
  | slPlace (cmd : Nat) (pick : Nat)
  /-- SL_PIN (R278). Sluice command setting PIN on a range. -/
  | slPin (cmd : Nat)
  /-- SL_UNPIN (R278). Sluice command clearing PIN on a range. -/
  | slUnpin (cmd : Nat)
  /-- SL_QUERY (R278). Sluice command writing per-page results. -/
  | slQuery (cmd : Nat) (x : Ext)
  /-- SL_GRANT (R279). Sluice command creating a grant with slot and key. -/
  | slGrant (cmd : Nat) (pick : Nat)
  /-- SL_REVOKE (R281). Sluice command ending a grant and sending revocations. -/
  | slRevoke (cmd : Nat)
  /-- SL_ATTACH (R280). Sluice command mapping another VD's granted range as FOREIGN. -/
  | slAttach (cmd : Nat)
  /-- SL_DETACH (R278). Sluice command setting FOREIGN and REVOKED entries EMPTY. -/
  | slDetach (cmd : Nat)
  /-- GRANT_REVOCATION (R281). An attached device receives a revocation and sets its entries REVOKED. -/
  | grantRevocation (dev : Nat) (slot : Nat)
  /-- REFRESH_LOOP_DECISION (R293). The refresh loop chooses a channel's interval within REFRESH_CAP every 1 ms. -/
  | refreshLoopDecision (channel : Nat) (choice : Nat)
  /-- EQUALISATION_DECISION (R441). The equalisation loop adapts a lane at most every 1 ms unless held. Whether the lane's margin asks for it, the lane, and the
  EQ_REQ that the loop chooses (Table 16-10). -/
  | equalisationDecision (port : Nat) (asks : Bool) (lane : Nat := 0) (req : Nat := 0)
  /-- RING_DB (R300). A doorbell write sets RING_TAIL, or is ignored with BAD_DOORBELL. -/
  | ringDb (vd : Nat) (ring : Nat) (value : Word)
  /-- CQ_DB (R300). A doorbell write sets CQ_HEAD, or is ignored with BAD_DOORBELL. -/
  | cqDb (vd : Nat) (ring : Nat) (value : Word)
  /-- RING_CTRL_WRITE (R299). A write to RING_CTRL sets size, enable and vector under the live-write rules. -/
  | ringCtrlWrite (vd : Nat) (ring : Nat) (value : Word)
  /-- RING_BASE_WRITE (R299). A write to a ring or completion base, ignored with LIVE_WRITE unless idle and disabled. `reg` is 0 RING_BASE_LO, 1 RING_BASE_HI, 2 CQ_BASE_LO, 3 CQ_BASE_HI. -/
  | ringBaseWrite (vd : Nat) (ring : Nat) (reg : Nat) (value : Word)
  /-- DESCRIPTOR_READ (R301). The scheduler reads a ring entry when all conditions hold, taking a slot and a completion entry. -/
  | descriptorRead (vd : Nat) (ring : Nat) (x : Ext)
  /-- CANCEL_TAG (R309). CANCEL mode 0 cancels commands of a stream with a tag. `value` is the whole 64-bit write. -/
  | cancelTag (vd : Nat) (value : DWord)
  /-- CANCEL_STREAM (R309). CANCEL mode 1 cancels every command of a stream. -/
  | cancelStream (vd : Nat) (value : DWord)
  /-- CANCEL_RING (R309). CANCEL mode 2 cancels a ring's commands and captures its unread entries. -/
  | cancelRing (vd : Nat) (value : DWord)
  /-- CANCEL_ALL_RINGS (R309). CANCEL mode 3 cancels and captures on every ring of the VD. -/
  | cancelAllRings (vd : Nat) (value : DWord)
  /-- CAPTURED_ENTRY_READ (R309). A captured unread entry is read when a completion entry frees and completes CANCELLED. -/
  | capturedEntryRead (vd : Nat) (ring : Nat) (x : Ext)
  /-- COMMAND_DECODE (R307). Once start order is met the decode checks run, faulting the command or registering its wait. -/
  | commandDecode (cmd : Nat)
  /-- COMMAND_READY (R307). Wait, ORDER, FENCE and resolution conditions are met and the command becomes READY. -/
  | commandReady (cmd : Nat) (x : Ext)
  /-- TASK_CREATE (R312). A further task of a READY command is created when a slot is free to the VD. -/
  | taskCreate (cmd : Nat)
  /-- TASK_LAUNCH (R313). A staged task starts on its slice, dividing local SRAM and resolving handles. -/
  | taskLaunch (slice : Nat) (pick : Nat)
  /-- TASK_TERMINATE (R307). A task ends DONE, CANCELLED or FAULTED. `slice` is that of the task; an engine command, which has none, is named by 255. -/
  | taskTerminate (cmd : Nat) (slice : Nat) (x : Ext)
  /-- COMPLETION_WRITE_FAIL (R302). A completion write fails, so CQ_FAULT is set and the ring disabled. -/
  | completionWriteFail (vd : Nat) (ring : Nat) (x : Ext)
  /-- RING_MSIX_DEFER (R304). A suppressed ring MSI-X is sent at the end of 1 us if records remain unread. -/
  | ringMsixDefer (vd : Nat) (ring : Nat)
  /-- NOP (R297). NOP command completing OK. -/
  | nop (cmd : Nat)
  /-- FENCE (R311). FENCE command holding later commands of its scope until earlier ones terminate. -/
  | fence (cmd : Nat)
  /-- COPY (R479). COPY service copying bytes with sector merging and poison propagation. The task of command `cmd` on `slice` goes to its next boundary (R310). -/
  | copy (cmd : Nat) (slice : Nat) (x : Ext)
  /-- FILL (R480). FILL service writing an 8-byte pattern over a range. -/
  | fill (cmd : Nat) (slice : Nat) (x : Ext)
  /-- COMPARE (R481). COMPARE service returning the first differing or poisoned offset. -/
  | compare (cmd : Nat) (slice : Nat) (x : Ext)
  /-- ATOMIC (R213). ATOMIC command executing one atomic operation at its home. -/
  | atomic (cmd : Nat) (slice : Nat) (x : Ext)
  /-- REDUCE (R210). REDUCE command issuing add-to-line reductions to their homes. -/
  | reduce (cmd : Nat) (slice : Nat) (x : Ext)
  /-- MATMUL (R494). Matrix-vector multiply service under its plan. The Runner of `slice` takes the task's next bay tile. -/
  | matmul (cmd : Nat) (slice : Nat)
  /-- PARAM_UPDATE (R495). Weighted parameter update service. -/
  | paramUpdate (cmd : Nat) (slice : Nat) (x : Ext)
  /-- EMB_GATHER (R483). Embedding gather-and-pool service. -/
  | embGather (cmd : Nat) (slice : Nat) (x : Ext)
  /-- KV_APPEND (R488). KV append service writing one token's K and V rows. -/
  | kvAppend (cmd : Nat) (slice : Nat) (x : Ext)
  /-- ATTN_DECODE (R490). Attention decode step forming per-page partials. -/
  | attnDecode (cmd : Nat) (slice : Nat) (x : Ext)
  /-- COLLECTIVE (R472). Pool collective command: reduce-scatter, all-gather or all-reduce. -/
  | collective (cmd : Nat) (x : Ext)
  /-- SERVICE (R498). SERVICE command expanding a pre-registered template with arguments. -/
  | serviceCall (cmd : Nat)
  /-- LEASE (R321). Pennant operation leasing a FREE pennant under a virtual number. `pick` is the FREE pennant taken (not architectural). -/
  | penLease (cmd : Nat) (pick : Nat)
  /-- DROP (R321). Pennant operation abandoning a lease or withdrawing an import, then unbinding. -/
  | penDrop (cmd : Nat)
  /-- SIGNAL (R327). Pennant operation adding to COUNT, saturating. -/
  | penSignal (cmd : Nat)
  /-- RESET (R328). Pennant operation setting COUNT and clearing SATURATED. -/
  | penReset (cmd : Nat)
  /-- READ (R321). Pennant operation returning COUNT. -/
  | penRead (cmd : Nat)
  /-- ARM (R323). Pennant operation registering a wait and freeing its task slot. -/
  | penArm (cmd : Nat)
  /-- EXPORT (R332). Pennant operation giving the pennant an export slot and ticket. -/
  | penExport (cmd : Nat) (pick : Nat)
  /-- IMPORT (R333). Pennant operation binding a number to an export ticket. -/
  | penImport (cmd : Nat)
  /-- UNEXPORT (R335). Pennant operation freeing the export slot and abandoning imports. -/
  | penUnexport (cmd : Nat)
  /-- RUNNER_TILE_ATTEMPT (R351). An accumulator tile attempt runs over K, retrying with halved scale on integer overflow. `err`: an error in the Runner's SRAM or accumulators was detected during the tile. -/
  | runnerTileAttempt (slice : Nat) (err : Bool) (x : Ext)
  /-- SPILL (R356). The K count since the last spill reaches the interval and the active set spills to its buffer. -/
  | spill (slice : Nat)
  /-- LOCAL_TILE_LOADED (R373). A local tile's operands have been loaded into the scratchpad. -/
  | localTileLoaded (slice : Nat) (x : Ext)
  /-- ACC_SET_SWAP (R360). A completed tile swaps into the shadow set once the shadow has drained. `wait` is the cycles that the multiplier waited (measured). -/
  | accSetSwap (slice : Nat) (wait : Nat)
  /-- DRAIN_DONE (R360). The shadow set finishes draining a tile through the drain chain. -/
  | drainDone (slice : Nat) (x : Ext)
  /-- FLUME_RUN_GRANT (R398). A waiting run receives its die's Flume. `pick` is the turn within a weighted round. -/
  | flumeRunGrant (die : Nat) (pick : Nat)
  /-- FLUME_PERIOD_START (R399). Every participant is ready and a timetable period starts. The cycles waited and the slips (measured). -/
  | flumePeriodStart (die : Nat) (wait : Nat) (slips : Nat)
  /-- FLUME_RUN_END (R401). A run's last period completes and it releases the Flume. The cycles it waited for a period that never started (measured). -/
  | flumeRunEnd (die : Nat) (wait : Nat := 0)
  /-- RACE_GRANT (R407). A Race output port grants one waiting message by class, round robin and starvation rule. The messages that have come for the output port since its last grant, and the credits that its receiver has returned, by class. -/
  | raceGrant (race : Nat) (out : Nat) (arrived : List RaceMsg) (credits : List Nat := [])
  /-- HYL_DETECT_POLL (R428). A HyhanLink port in DETECT probes for a receiver every 1 ms. The lanes on which a receiver is found. -/
  | hylDetectPoll (port : Nat) (lanes : Nat)
  /-- HYL_TRAIN_DONE (R428). Lane training completes or times out at 10 ms. The lanes that have trained, whether the time is over, and the lanes for which precoding is asked. -/
  | hylTrainDone (port : Nat) (lanes : Nat) (expired : Bool) (precode : Nat)
  /-- TRAINING_BLOCK_RECEIVE (R429). A training block arrives on a lane and is counted toward moving on. Its 256 bytes. -/
  | trainingBlockReceive (port : Nat) (lane : Nat) (bytes : List Byte)
  /-- HYL_CONFIG_DONE (R430). The active lane set is agreed and the port enters L0 with fresh sequences and credits. -/
  | hylConfigDone (port : Nat)
  /-- FLIT_RECEIVE (R424). A flit passing FEC and CRC is classified by sequence, acknowledged and its messages delivered. -/
  | flitReceive (port : Nat) (wire : FlitWire)
  /-- REPLAY_TIMEOUT (R425). Held flits unacknowledged for 2 us are replayed. -/
  | replayTimeout (port : Nat)
  /-- LANE_LOCK_LOSS (R431). A receiver loses lock on an active lane and the port enters RECOVERY. -/
  | laneLockLoss (port : Nat) (lane : Nat)
  /-- NO_FLIT_TIMEOUT (R431). No valid flit decoded for 1 us sends the port to RECOVERY. -/
  | noFlitTimeout (port : Nat)
  /-- RECOVERY_ATTEMPT_TIMEOUT (R433). A recovery attempt's limit passes, starting the next attempt or going DOWN. -/
  | recoveryAttemptTimeout (port : Nat)
  /-- WREQ (R434). Width change request control command, resolved by leader if in conflict. -/
  | wreq (port : Nat) (lanes : Nat) (devnum : Option Nat) (serial : Nat)
  /-- WACK (R434). Width change acknowledgement; both ends enter WIDTH_CHANGE. -/
  | wack (port : Nat) (lanes : Nat)
  /-- WIDTH_CHANGE_DONE (R434). New lanes lock and the port returns to L0, replaying from the partner's NEXT_RX. -/
  | widthChangeDone (port : Nat)
  /-- HYL_IDLE_TIMER (R439). A port idle for 10 us sends PM_REQ. -/
  | hylIdleTimer (port : Nat)
  /-- PM_REQ (R439). Low-power request control command answered PM_ACK or PM_NAK. -/
  | pmReq (port : Nat)
  /-- PM_ACK (R439). Low-power acknowledgement; both ends enter L1. -/
  | pmAck (port : Nat)
  /-- PM_NAK (R440). Low-power refusal. -/
  | pmNak (port : Nat)
  /-- L1_TO_L1D (R428). A port in L1 for 1 ms enters L1D. -/
  | l1ToL1d (port : Nat)
  /-- HYL_WAKE (R439). Either end leaves electrical idle and the link relocks to L0. -/
  | hylWake (port : Nat)
  /-- HYL_DOWN_TIMER (R437). A DOWN port returns to DETECT after 100 ms. -/
  | hylDownTimer (port : Nat)
  /-- QSFP_MODULE_DETECT (R605). A cage detects a module and powers it only if of the lowest power class. -/
  | qsfpModuleDetect (cage : Nat) (present : Bool) (lowest : Bool)
  /-- HELLO (R451). A HELLO arrives and the link kind is re-evaluated. -/
  | hello (port : Nat) (h : Hello)
  /-- HELLO_TIMER (R450). A port in L0 sends HELLO every 100 us, then every 10 ms. -/
  | helloTimer (port : Nat)
  /-- ELECT (R452). An ELECT flood arrives and the lowest eligible serial is adopted. -/
  | elect (f : Flood) (serial : Nat)
  /-- ELECT_TIMEOUT (R452). A device's own serial stands 5 ms unchallenged and it becomes coordinator. -/
  | electTimeout
  /-- JOIN_REQ (R453). A candidate's JOIN_REQ reaches the coordinator, which numbers candidates. The candidate's POOL links: port and its partner's number. -/
  | joinReq (f : Flood) (serial : Nat) (links : List (Nat × Option Nat))
  /-- JOIN_REQ_TIMER (R453). A non-member floods JOIN_REQ every 1 ms. -/
  | joinReqTimer
  /-- MEMBER (R466). A MEMBER flood gives a device its number or declares a departure. -/
  | poolMember (f : Flood) (serial : Nat) (number : Nat) (isIn : Bool) (offset : Int) (x : Ext)
  /-- DEPARTURE_SWEEP_DONE (R468). Sluice and directory sweeps for a departed device finish and SWEEP_DONE is flooded. -/
  | departureSweepDone (device : Nat)
  /-- LINK_STATE (R467). A LINK_STATE flood reports a link becoming usable or unusable. -/
  | linkState (f : Flood) (reporter : Nat) (device : Nat) (ok : Bool)
  /-- DEPARTURE_TIMER (R467). All of a device's links unusable for 5 ms makes the coordinator declare it departed. -/
  | departureTimer (device : Nat) (x : Ext)
  /-- LEAVE (R467). A LEAVE flood makes the coordinator declare the device departed. -/
  | leave (f : Flood) (device : Nat) (x : Ext)
  /-- SWEEP_DONE (R470). A member's SWEEP_DONE arrives; the number is readmitted when all have reported. -/
  | sweepDone (f : Flood) (reporter : Nat) (device : Nat)
  /-- ISOLATION_TIMER (R469). A device with no usable pool link for 5 ms becomes ISOLATED. -/
  | isolationTimer (x : Ext)
  /-- TIME_SYNC_TIMER (R471). Every 1 ms a TIME_REQ is sent on each link. -/
  | timeSyncTimer
  /-- TIME_REQ (R471). A time request arrives and is answered with TIME_RSP. -/
  | timeReq (port : Nat)
  /-- TIME_RSP (R471). A time response arrives and the time base rate is slewed. -/
  | timeRsp (port : Nat) (delta : Int) (upstream : Bool)
  /-- UNREACH (R461). An UNREACH returns to the originator and its operation ends as for a timeout. -/
  | unreach (device : Nat) (op : Nat) (tag : Nat) (line : Nat) (x : Ext)
  /-- PEN_REQ (R336). A remote pennant operation arrives at the owner, checked against its ticket. -/
  | penReq (dev : Nat) (vd : Nat) (tag : Nat) (op : Nat) (ticket : Nat) (value : Nat) (qos : Nat := 0)
  /-- PEN_RSP (R335). A pennant response, wake or revocation arrives at the importer. -/
  | penRsp (dev : Nat) (vd : Nat) (tag : Nat) (ans : PenAns)
  /-- SL_REQ (R280). A remote Sluice request (grant, attach, revocation, move control) arrives. -/
  | slReq (dev : Nat) (m : SlMsg) (x : Ext)
  /-- SL_RSP (R280). A remote Sluice response arrives at the requester. -/
  | slRsp (dev : Nat) (m : SlMsg) (x : Ext)
  /-- COLL_READY (R473). A partner's COLL_READY arrives, allowing data for a collective step. -/
  | collReady (r : CollReady) (x : Ext)
  /-- COLL_DATA (R474). A 128 B collective data message arrives and is added or written into BUF. -/
  | collData (dev : Nat) (bridge : Bool) (seq : Nat) (part : Nat) (step : Nat) (line : Nat) (data : Line) (pois : Sectors) (x : Ext)
  /-- COLL_STEP (R474). A partner announces its message count; the step ends when all are applied and acknowledged. -/
  | collStep (dev : Nat) (bridge : Bool) (seq : Nat) (part : Nat) (step : Nat) (count : Nat) (x : Ext)
  /-- COLL_READY_TIMEOUT (R473). No matching COLL_READY within 1 s ends the collective with DEVICE_GONE. -/
  | collReadyTimeout (cmd : Nat)
  /-- REMOTE_OP_TIMEOUT (R460). A remote operation unanswered for 50 ms times out. -/
  | remoteOpTimeout (place : Nat) (x : Ext)
  /-- METER_LEAK (R503). At each leak period every meter of a class drains by its leak amount. -/
  | meterLeak (cls : Nat)
  /-- DRAM_UE_REREAD (R507). An uncorrectable sector is reread 100 ns later and poisoned if still bad. -/
  | dramUeReread (line : Nat) (sector : Nat) (bad : Bool) (oneRow : Bool)
  /-- PATROL_SCRUB (R507). Patrol scrub reads and corrects a sector. `found`: 0 clean, 1 a corrected bit, 2 a corrected symbol, 3 a command or address parity error, 4 a failed TSV repair. -/
  | patrolScrub (line : Nat) (found : Nat)
  /-- WAITING_RETIREMENT_START (R504). A frozen retirement of a class begins when the running one on that die ends. -/
  | waitingRetirementStart (cls : Nat) (inst : Nat)
  /-- ROW_PPR_DONE (R509). A row repair or frame retirement completes. -/
  | rowPprDone (channel : Nat) (slot : Nat)
  /-- CHANNEL_METADATA_COPY_DONE (R510). The channel's metadata frames have been copied and remapped. The directory sets that could not be read, and the lines whose entries are cached. -/
  | channelMetadataCopyDone (channel : Nat) (lost : List Nat) (known : List Nat)
  /-- CHANNEL_PAGE_MOVES_DONE (R510). Every page and pool frame on the channel has been moved. -/
  | channelPageMovesDone (channel : Nat) (pick : Nat)
  /-- BAY_COPY_DONE (R512). A pinned bay's copy into its rescue bay completes and the rescue bay takes its place. -/
  | bayCopyDone (bay : Nat)
  /-- SLICE_DRAIN_DONE (R514). A retiring slice's transactions and dirty write-backs complete. -/
  | sliceDrainDone (slice : Nat) (lost : List Nat := []) (known : List Nat := [])
  /-- SLICE_RETIRED (R514). The buddy homes all eight channels and the slice domain switches off. -/
  | sliceRetired (slice : Nat) (pick : Nat)
  /-- DIE_PROXY_WRITEBACK_DONE (R515). A retiring die's dirty proxy lines have been written back. -/
  | dieProxyWritebackDone (die : Nat)
  /-- DIE_METADATA_RESTORE_DONE (R518). Second metadata copies are restored and lost sets marked after a die retirement. -/
  | dieMetadataRestoreDone (die : Nat) (known : List Nat)
  /-- LOST_SET_SWEEP (R519). The background sweep recalls a LOST set's lines and writes it rebuilt. -/
  | lostSetSweep (slice : Nat) (set : Nat)
  /-- LOG_COALESCE_TIMER (R528). A 1 s coalescing period ends and one record carries the withheld count. -/
  | logCoalesceTimer (cls : RecClass) (code : Nat) (unit : Nat)
  /-- GAUGE_CTRL_WRITE (R541). A write to GAUGE_CTRL enables or disables a gauge, checking its configuration. -/
  | gaugeCtrlWrite (gauge : Nat) (value : Word)
  /-- GAUGE_CONFIG_WRITE (R540). A write to gauge source, bin or window registers, ignored with CFG_IGNORED while enabled. -/
  | gaugeConfigWrite (gauge : Nat) (off : Nat) (wide : Bool) (value : DWord)
  /-- GAUGE_WINDOW_END (R539). A gauge window ends, its captures snapshot and GAUGE_SEQ increments. -/
  | gaugeWindowEnd (gauge : Nat)
  /-- GAUGE_SAMPLE_INSTANT (R536). A level or rate gauge takes a sample at its period. -/
  | gaugeSampleInstant (gauge : Nat) (units : Nat)
  /-- MCTP_MESSAGE_RECEIVE (R548). An MCTP message completes reassembly and is queued or dropped by type. -/
  | mctpMessageReceive (h : MctpHdr)
  /-- SET_ENDPOINT_ID (R546). MCTP control command assigning a binding's endpoint ID. -/
  | setEndpointId (h : MctpHdr) (eid : Nat)
  /-- READ32 (R551). Management command reading 32 bits of management space. -/
  | read32 (h : MctpHdr) (flags : Nat) (off : Nat)
  /-- WRITE32 (R551). Management command writing 32 bits of management space. -/
  | write32 (h : MctpHdr) (flags : Nat) (off : Nat) (value : Word)
  /-- READ64 (R551). Management command reading 64 bits atomically. -/
  | read64 (h : MctpHdr) (flags : Nat) (off : Nat)
  /-- WRITE64 (R551). Management command writing 64 bits. -/
  | write64 (h : MctpHdr) (flags : Nat) (off : Nat) (value : DWord)
  /-- LOG_READ (R552). Management command returning log records by sequence. -/
  | logRead (h : MctpHdr) (flags : Nat) (seq : Nat) (count : Nat)
  /-- FATAL_LOG_READ (R552). Management command returning fatal log entries by index. -/
  | fatalLogRead (h : MctpHdr) (flags : Nat) (index : Nat) (count : Nat)
  /-- COLD_RESET (R551). Management command triggering a cold reset. -/
  | coldReset (h : MctpHdr) (flags : Nat)
  /-- WARM_RESET (R551). Management command triggering a warm reset. -/
  | warmReset (h : MctpHdr) (flags : Nat)
  /-- VD_RESET (R551). Management command triggering a VD reset. -/
  | vdReset (h : MctpHdr) (flags : Nat) (vd : Nat)
  /-- POOL_LEAVE (R467). Management command writing back RE lines and flooding LEAVE. -/
  | poolLeave (h : MctpHdr) (flags : Nat)
  /-- IDENTIFY (R568). Management command turning the IDENTIFY LED on or off. -/
  | identify (h : MctpHdr) (flags : Nat) (value : Nat)
  /-- PANEL_UPDATE (R564). Management command triggering a panel update. -/
  | panelUpdate (h : MctpHdr) (flags : Nat)
  /-- GET_VERSION (R553). SPDM request negotiating version 1.2. -/
  | getVersion (h : MctpHdr)
  /-- GET_CAPABILITIES (R553). SPDM capabilities request. -/
  | getCapabilities (h : MctpHdr)
  /-- NEGOTIATE_ALGORITHMS (R553). SPDM request fixing the algorithms. -/
  | negotiateAlgorithms (h : MctpHdr)
  /-- GET_DIGESTS (R554). SPDM request for certificate chain digests. -/
  | getDigests (h : MctpHdr)
  /-- GET_CERTIFICATE (R554). SPDM request returning slot 0's identity chain or an error. -/
  | getCertificate (h : MctpHdr) (slot : Nat)
  /-- CHALLENGE (R553). SPDM challenge signed with the device identity key. -/
  | challenge (h : MctpHdr) (slot : Nat)
  /-- GET_MEASUREMENTS (R555). SPDM request returning measurement blocks 1-6. -/
  | getMeasurements (h : MctpHdr) (index : Nat)
  /-- KEY_EXCHANGE (R556). SPDM request opening a session, refused with four open. -/
  | keyExchange (h : MctpHdr)
  /-- FINISH (R556). SPDM request completing session establishment. -/
  | finish (h : MctpHdr) (session : Nat)
  /-- END_SESSION (R556). SPDM request ending a session. -/
  | endSession (h : MctpHdr) (session : Nat)
  /-- GET_TID (R557). PLDM GetTID command. -/
  | getTid (h : MctpHdr)
  /-- SET_TID (R557). PLDM SetTID command. -/
  | setTid (h : MctpHdr) (tid : Nat)
  /-- GET_PLDM_VERSION (R557). PLDM GetPLDMVersion command. -/
  | getPldmVersion (h : MctpHdr) (ty : Nat)
  /-- GET_PLDM_TYPES (R557). PLDM GetPLDMTypes command. -/
  | getPldmTypes (h : MctpHdr)
  /-- GET_PLDM_COMMANDS (R557). PLDM GetPLDMCommands command. -/
  | getPldmCommands (h : MctpHdr) (ty : Nat)
  /-- SET_EVENT_RECEIVER (R558). PLDM command setting the event receiver. -/
  | setEventReceiver (h : MctpHdr) (receiver : Option Nat)
  /-- GET_SENSOR_READING (R558). PLDM command returning a numeric sensor reading. -/
  | getSensorReading (h : MctpHdr) (sensor : Nat)
  /-- GET_STATE_SENSOR_READINGS (R558). PLDM command returning the health state sensor. -/
  | getStateSensorReadings (h : MctpHdr) (sensor : Nat)
  /-- GET_SENSOR_THRESHOLDS (R558). PLDM command returning fixed sensor thresholds. -/
  | getSensorThresholds (h : MctpHdr) (sensor : Nat)
  /-- GET_PDR_REPOSITORY_INFO (R558). PLDM command returning repository information. -/
  | getPdrRepositoryInfo (h : MctpHdr)
  /-- GET_PDR (R558). PLDM command returning a PDR. -/
  | getPdr (h : MctpHdr) (record : Nat)
  /-- PLDM_UNSUPPORTED (R557). Any other PLDM command returns ERROR_UNSUPPORTED_PLDM_CMD. -/
  | pldmUnsupported (h : MctpHdr) (ty : Nat) (cmd : Nat)
  /-- PLATFORM_EVENT_RESEND (R558). An unacknowledged PLDM event is resent every 1 s up to three times. -/
  | platformEventResend (place : Nat) (acked : Bool)
  /-- HEALTH_EVALUATE (R560). HEALTH.STATE is re-evaluated after a condition changes, sending sensor events and triggering an update. -/
  | healthEvaluate (iodTemp : Nat) (power : Nat) (waited : Bool)
  /-- PANEL_INTERVAL_END (R564). The 60 s interval since the last update ends and a waiting update may start. -/
  | panelIntervalEnd
  /-- PANEL_CLEARING_WAVEFORM (R565). With IN_PROGRESS found set, the bridge runs the clearing waveform before the boot draw. -/
  | panelClearingWaveform
  /-- PANEL_UPDATE_START (R566). An update writes panel memory with IN_PROGRESS and the frame to the bridge. -/
  | panelUpdateStart
  /-- PANEL_BAND_HATCHED (R566). The partial refresh to the hatched UPDATING band completes. -/
  | panelBandHatched
  /-- PANEL_FULL_REFRESH_DONE (R566). The full refresh of the frame completes. -/
  | panelFullRefreshDone
  /-- PANEL_BAND_WHITE (R566). The band is refreshed white and the bridge clears IN_PROGRESS. -/
  | panelBandWhite
  /-- POWER_FAIL_COMPARATOR (R567). The bridge's 12 V input falls below 10.8 V, blocking new updates. -/
  | powerFailComparator
  /-- COMPARATOR_DEASSERT (R567). After 100 ms above 11.4 V the power-fail comparator deasserts. -/
  | comparatorDeassert
  /-- PGM_REQ (R604). An external programmer holds PGM_REQ low, keeping PWR_OK low while it owns the flash. -/
  | pgmReq (low : Bool)
  /-- UNSUPPORTED_ACCESS (R573). An unaligned, over-long or non-contiguous window access completes with Unsupported Request and a PROTOCOL record. -/
  | unsupportedAccess (m : Mmio)
  /-- REGISTER_WRITE (R573). A write to a register with no row of its own, acting by field access types, width rules and R11. -/
  | registerWrite (w : RegWrite)
  /-- IDE_KM (R149). A CXL_IDE_KM or PCIe IDE_KM message in an SPDM secured session programs or switches IDE keys, making a stream active and setting IDE_IO_ACTIVE or IDE_MEM_ACTIVE. -/
  | ideKm (port : Nat) (session : Nat) (mem : Bool) (op : IdeOp) (stream : Nat := 16) (skid : Bool := false) (pick : Nat := 0)
  /-- THERMAL_HOLD_RELEASE (R81). The I/O die junction temperature falls below 100 C and the device leaves the thermal reset hold. -/
  | thermalHoldRelease (temp : Nat)
  /-- PANEL_HOLD_UP_FAIL (R567). The panel bridge's hold-up capacitor runs out before an update reaches step 5, leaving IN_PROGRESS set and possibly the band hatched. -/
  | panelHoldUpFail
  /-- VDD_IO_IN_TOLERANCE (R599). VDD_IO enters tolerance before power-on, and the device drives FLASH_OWN low and both HEALTH LED outputs off. -/
  | vddIoInTolerance
  /-- FLUME_RACE_CLOCK_GATE (R73). A die's Flume and die Race, idle for 1 us with no timetable running, clock-gate themselves. -/
  | flumeRaceClockGate (die : Nat)
  /-- CXL_RECEIVER_ERROR (R502). A CXL lane receiver error or link-layer replay is charged as LANE_ERR to the lane meter or as REPLAY to the port meter. -/
  | cxlReceiverError (port : Nat) (lane : Option Nat)
  /-- CXL_LINK_RECOVERY (R507). A CXL link enters Recovery under PCIe rules, and RECOV is charged to the port meter. -/
  | cxlLinkRecovery (port : Nat)
  /-- RELOCK_FAIL (R428). A HyhanLink relock in WIDTH_CHANGE, L1 or L1D does not complete within its limit, and the port enters RECOVERY at attempt 1. -/
  | relockFail (port : Nat)
  /-- DEPARTED_WRITE_ENTRY_AGE (R315). The oldest departed-write table entry passes 1 s of age, so a posted remote write that was waiting for an entry replaces it and proceeds. -/
  | departedWriteEntryAge
  deriving DecidableEq, Repr

end Sys2Proof
end

