-- ==== Sys2Proof/Config.lean ====
section
/-!
DEFINITION. What the spec leaves open and no command supplies: free values. Each is an opaque constant, so that a statement
holds whatever it is (notes/assumptions/6.md).
-/
namespace Sys2Proof.Config

/-- Random draws (R181, R279, R332) and other values the spec leaves open, applied to the counter the step advances. -/
opaque freeValue : Nat → BitVec 64

/-- R181: what the random bit generator gives as a key (two AES-256 keys), applied to the counter. -/
opaque keyDraw : Nat → BitVec 512

/-- R180: AES-256-XTS, which the spec names and does not give, of one data unit of 32 bytes under a key and a tweak. -/
opaque xts : (key : BitVec 512) → (tweak : Nat) → BitVec 256 → BitVec 256

/-- R490: the exponential of an FP32 value, whose algorithm the spec does not give, as FP32 bits. -/
opaque exp32 : BitVec 32 → BitVec 32

/-- Bytes a command leaves undefined (R475, R478), applied to the counter and the byte's place. -/
opaque freeByte : Nat → Nat → BitVec 8

/-- R286: the set of the heat table that a page falls in, and its ways; the spec gives the size, not the sets. -/
opaque heatSet : Nat → Nat
opaque heatWays : Nat

/-- R278: the 8-byte result of SL_QUERY for KIND, PIN, PROMOTED, size, device and heat; the spec gives no layout. -/
opaque queryWord : (kind pin promoted big dev heat : Nat) → BitVec 64

/-- R87, R101: SHA-384 and ECDSA P-384, which the spec names and does not give (notes/assumptions/10.md): the digest of bytes, its
byte 0 as bits [7:0], and whether `r`, `s` sign a digest under an uncompressed public key. -/
opaque sha384 : List (BitVec 8) → BitVec 384
opaque ecdsaP384 : (pub : List (BitVec 8)) → (digest : BitVec 384) → (r s : List (BitVec 8)) → Bool

/-- R126: Lomzon's PCI vendor ID and the function's device ID, the same on every variant; the spec gives neither number. -/
opaque vendorId : BitVec 16
opaque deviceId : BitVec 16

/-- What Table 16-5 leaves to a message's kind and no rule lays out: ADDR of a pool operation, FLAGS, and the data slots of what is
not a line or a HELLO. -/
opaque msgAddr : Machine.OutMsg → BitVec 48
opaque msgFlags : Machine.OutMsg → BitVec 7
opaque msgData : Machine.OutMsg → List (BitVec 128)

/-- R223, R407: the credits, less one, that the receiver at a Race's output grants a class, and that a home device grants another for its
write-backs; the spec gives no numbers. -/
opaque raceCredits : (race cls : Nat) → Nat
opaque wbCredits : (home : Nat) → Nat

/-- R411, R429: a transmitter's tap (1 to 4) at a position is at its limit upward or downward; the spec gives no range. -/
opaque tapAtLimit : (tap : Nat) → (up : Bool) → (position : Int) → Bool

/-- R555: the digest of the mask ROM, whose content the spec does not give. -/
opaque romDigest : BitVec 384

end Sys2Proof.Config
end

