-- ==== Sys2Proof/Machine/UnitsCore.lean ====
section
/-!
DEFINITION. The state of the units that hold and compute on data: slices and their cache, the directory, virtual devices
and rings, shared queues, Hopper, Sluice and Fantail, Daxmas commands, pennants, the fault meters and the logs.
Every field names the rule that gives it.
-/
namespace Sys2Proof.Machine

/-! ### Slices (chapters 07, 08) -/

/-- Table 07-4. -/
inductive LineState where
  | i | h | rs | re
  deriving DecidableEq, Repr

/-- One line frame of a slice's cache (R197). The tag is held as the global line number it stands for (R190, R194). -/
structure Frame where
  st : LineState := .i
  line : Nat := 0
  v : Sectors := 0
  d : Sectors := 0
  p : Sectors := 0
  bulk : Bool := false
  busy : Bool := false
  data : Line := 0
  deriving DecidableEq, Repr

/-- What a miss register's transaction is doing (R201). `way` waits for a choosable way (R195); `dirFull` waits for a
directory way (R221); `wb` waits for WB_ACK (R224). -/
inductive Phase where
  | snoop | fill | grant | way | dirFull | controller | merge | remote | wb
  deriving DecidableEq, Repr

/-- An active miss register: the transaction on one line and the requests that wait behind it (R201, R202). -/
structure Miss where
  phase : Phase
  /-- The share it draws on (R205): a requester's, the home's own (`ownShare`), or none for a write-back (`wbShare`). -/
  vd : Nat := 0
  /-- The line frame kept for its fill (R195). -/
  way : Option Nat := none
  req : Option Req := none
  bulk : Bool := false
  fill : Sectors := 0
  snpDev : List Nat := []
  snpHost : List (Nat × Nat) := []
  wbDev : List Nat := []
  wbSeen : List Nat := []
  gnt : List Nat := []
  keepHost : List Nat := []
  keepDev : List Nat := []
  upgSent : Bool := false
  /-- When the register was allocated (Table 20-1). -/
  since : Nat := 0
  waiters : List Req := []
  deriving DecidableEq, Repr

/-- A line in a Runner's first-level cache (R238): the sectors that it has read, those of them that a store of its own poisoned, and
the bytes. -/
structure L1Line where
  v : Sectors
  p : Sectors := 0
  data : Line
  deriving DecidableEq, Repr

/-- A 128-byte line of a Runner's read-only caches, apart from AUX data (Table 14-6): of a function table's record, a plan's constants;
a command's descriptor, a plan's record (its header and buckets), a service record; the steps of a service. -/
inductive RoItem where
  | func (n line : Nat)
  | chain (plan : Nat)
  | desc (cmd : Nat)
  | plan (n line : Nat)
  | record (n : Nat)
  | steps (op : Nat)
  deriving DecidableEq, Repr

/-- The constants, descriptor and instruction caches of a Runner (R381). `aux` are the lines of scale and bias vectors; with `consts` they
fill the 16 KiB of the constants cache. -/
structure ReadOnly where
  consts : List RoItem := []
  aux : Tab L1Line := []
  descs : List RoItem := []
  instrs : List RoItem := []
  deriving DecidableEq, Repr

/-- One slice. -/
structure Slice where
  frames : Tab Frame := []
  miss : Tab Miss := []
  inq : List Req := []
  stopped : Bool := false
  retired : Bool := false
  l1 : Tab L1Line := []
  /-- The lines that the first-level cache may hold for the running task (R378). -/
  l1Cap : Nat := 0
  ro : ReadOnly := {}
  mrFull : Word := 0
  waitFull : Word := 0
  redNan : Word := 0
  redSat : Word := 0
  memAtomic : Word := 0
  dirRecall : Word := 0
  dirStaleSnp : Word := 0
  dirStaleWb : Word := 0
  dirTimeout : Word := 0
  dirLostSets : Word := 0
  runRetry : Word := 0
  runExhaust : Word := 0
  runSat : Word := 0
  runFpOvf : Word := 0
  runCvtSat : Word := 0
  runNan : Word := 0
  runSpill : Word := 0
  runDrainWait : Word := 0
  /-- When BUSY was set, by line (Table 20-1, source 0x08). -/
  busyAt : Tab Nat := []
  lostSets : List Nat := []
  /-- Lines of a LOST set already recalled (R519). -/
  lostKnown : List Nat := []
  deriving DecidableEq, Repr

/-- Table 08-1, STATE. -/
inductive DirState where
  | free | shared | exclRemote | exclHost
  deriving DecidableEq, Repr

/-- One directory entry: the tag is the key it is listed under (R217, R218). -/
structure DirEntry where
  st : DirState := .free
  sharers : BitVec 128 := 0
  hosts : BitVec 4 := 0
  deriving DecidableEq, Repr

/-! ### Virtual devices (chapter 06) and their rings (chapter 11) -/

/-- VD_STATE.STATE (Table 06-6). -/
inductive VdSt where
  | notActive | resetting | ready
  deriving DecidableEq, Repr

/-- The error ring (R177, R178). -/
structure ErrRing where
  base : DWord := 0
  sizeLog2 : Nat := 0
  enable : Bool := false
  vector : Nat := 0
  tail : Nat := 0
  head : Nat := 0
  lost : Word := 0
  /-- The addresses of records whose writes are under way, oldest first, and whether each is performed; TAIL has not passed them. -/
  writing : List (Nat × Bool) := []
  msixBusy : Bool := false
  msixHeld : Bool := false
  deriving DecidableEq, Repr

/-- VD_ERR_STATUS (Table 06-7). -/
structure ErrStatus where
  accessSize : Bool := false
  rsvdEnc : Bool := false
  unaligned : Bool := false
  liveWrite : Bool := false
  ringOverflow : Bool := false
  ringFault : Bool := false
  deriving DecidableEq, Repr

/-- A command ring and its completion ring (R299). `captured` is the end of the entries a CANCEL captured (R309). -/
structure Ring where
  sizeLog2 : Nat := 0
  enable : Bool := false
  vector : Nat := 0
  liveWrite : Bool := false
  badDoorbell : Bool := false
  ringFault : Bool := false
  cqFault : Bool := false
  base : DWord := 0
  cqBase : DWord := 0
  head : BitVec 16 := 0
  tail : BitVec 16 := 0
  cqTail : BitVec 16 := 0
  cqHead : BitVec 16 := 0
  reserved : Nat := 0
  inFlight : Nat := 0
  captured : Nat := 0
  discard : Bool := false
  msixBusy : Bool := false
  msixHeld : Bool := false
  /-- The addresses of completion records whose writes are under way, oldest first, whether each is performed, and whether it raises the
  ring's vector; CQ_TAIL has not passed them (R303). -/
  writing : List (Nat × Bool × Bool) := []
  /-- The address of a record whose write failed after it was sent, until its error record is posted (R302). -/
  cqLost : Option Nat := none
  deriving DecidableEq, Repr

/-- A binding of a virtual pennant number (Table 12-2). -/
inductive Binding where
  | lease (pen : Nat) (abandoned : Bool)
  | imported (ticket : Nat) (abandoned : Bool)
  deriving DecidableEq, Repr

/-- One of the five event logs of a VD (R146): 64 records, overflow, next handle and interrupt policy. -/
structure EvLog where
  recs : List EvRec := []
  overflow : Bool := false
  lost : Nat := 0
  handle : Nat := 1
  msix : Option Nat := none
  deriving DecidableEq, Repr

/-- An HDM decoder of an LD (R137), by the DPA range that it covers. -/
structure Decoder where
  base : Nat := 0
  len : Nat := 0
  ways : Nat := 1
  gran : Nat := 256
  bi : Bool := false
  committed : Bool := false
  error : Bool := false
  deriving DecidableEq, Repr

/-- The background mailbox operations (Table 05-8). -/
inductive BgKind where
  | scan | sanitize | erase
  deriving DecidableEq, Repr

/-- One virtual device. `trigger` and `memClr` belong to the reset in progress (R171, R173). -/
structure Vd where
  st : VdSt := .notActive
  resetSeen : Bool := false
  lastReset : Nat := 0
  err : ErrStatus := {}
  epoch : BitVec 16 := 0
  resetStep : Nat := 0
  trigger : Nat := 0
  memClr : Bool := false
  errRing : ErrRing := {}
  rings : Tab Ring := []
  rrRing : Nat := 0
  /-- The lowest read number of a command of each stream that ended with a status other than OK (R296). -/
  failedStreams : Tab Nat := []
  bind : Tab Binding := []
  /-- The bindings that the last epoch increment unbound, whose leases and import places the reset has yet to give up (R320). -/
  oldBind : Tab Binding := []
  useTask : Nat := 0
  useBuf : Nat := 0
  usePage : Nat := 0
  staleCnt : Word := 0
  tugCnt : Word := 0
  penDropCnt : Word := 0
  /-- R181: its key in DRAM, once one has been drawn. -/
  key : Option (BitVec 512) := none
  /-- Accepted extents: base and length (R131, R134). -/
  extents : List (Nat × Nat) := []
  /-- Offered extents: base, length and the time of the offer (R132). -/
  offers : List (Nat × Nat × Nat) := []
  /-- Event logs: 0 Informational, 1 Warning, 2 Failure, 3 Fatal, 4 Dynamic Capacity (R146). -/
  logs : Tab EvLog := []
  decoders : Tab Decoder := []
  /-- Host time (R148): the value set and when. -/
  hostTime : Nat := 0
  hostTimeAt : Nat := 0
  alerts : Nat := 0
  /-- The event of R155 has been logged. -/
  mediaLogged : Bool := false
  background : Option BgKind := none
  /-- The range of the last scan, and the poisoned addresses that it found. -/
  scanRange : Nat × Nat := (0, 0)
  scanFound : List Nat := []
  deriving DecidableEq, Repr

/-! ### Shared queues (R163-R165) -/

/-- The number a queue is listed under. -/
def QueueId.key : QueueId → Nat
  | .cxlMem p => p
  | .tasks => 8
  | .remoteOps => 9
  | .penOverflow => 10
  | .walks => 11
  | .hopperCmds => 12
  | .missRegs s => 100 + s
  | .waiters s => 200 + s

/-- A request that waits for a shared entry: its VD and what waits (a command, a walk, a registration, by its number). -/
structure QWait where
  vd : Nat
  item : Nat
  deriving DecidableEq, Repr

/-- A request for an entry of a shared queue: the share that it draws on, the VD whose turn it takes, and that VD's class and weight
(R164-R166). A peer's originating VD is another one than this device's of that number (R205, R324). -/
structure Ask where
  share : Nat
  who : Nat
  cls : Nat
  wt : Nat
  deriving DecidableEq, Repr

/-- The arbiter of a shared queue (R165): grants to higher classes in a row, and grants of the current round. -/
structure Arb where
  higher : Nat := 0
  round : Tab Nat := []
  deriving DecidableEq, Repr

structure SharedQ where
  waiting : List QWait := []
  arb : Arb := {}
  deriving DecidableEq, Repr

/-! ### Hopper (chapter 09) -/

/-- Table 09-2, STATE. -/
inductive HopState where
  | free | live | dying | retained | quarantine
  deriving DecidableEq, Repr

/-- A buffer record (Table 09-2). `held` says that the block is still held (a quarantined index may hold one, R260). -/
structure HopRec where
  st : HopState := .free
  inRetain : Bool := false
  cls : Nat := 0
  gen : BitVec 8 := 0
  owner : Nat := 0
  epoch : BitVec 16 := 0
  refs : Nat := 0
  long : Bool := false
  base : Nat := 0
  stamp : Word := 0
  held : Bool := false
  deriving DecidableEq, Repr

/-- A TRANSFER whose copy has not reached its switch step (R258). -/
structure Transfer where
  cmd : Nat
  vd : Nat
  epoch : BitVec 16
  src : Nat
  dst : Nat
  cls : Nat
  base : Nat
  inRetain : Bool
  deriving DecidableEq, Repr

structure Hopper where
  recs : Tab HopRec := []
  /-- The record of every index that is not listed: the indices that no command has named share one history (R247, R260, R264). -/
  rest : HopRec := {}
  /-- Pinned pool bays that retirement replaced: key `pool * 2^16 + j` (R512). -/
  bayMap : Tab Nat := []
  /-- DRAM pool frames that retirement moved: key `pool * 2^32 + frame` (R243). -/
  frameMap : Tab Nat := []
  transfers : List Transfer := []
  allocCnt : Tab Word := []
  freeCnt : Tab Word := []
  noSpaceCnt : Tab Word := []
  misuse : Tab Word := []
  deriving DecidableEq, Repr

/-! ### Sluice and Fantail (chapter 10) -/

/-- Table 10-2, KIND; an EMPTY entry is not listed and TABLE entries are the tree itself. -/
inductive PageKind where
  | page | foreign | migrating | revoked
  deriving DecidableEq, Repr

/-- The entry that maps one page of a VD (Table 10-2), listed under `vd * 2^26 + VD address / 64 KiB`. -/
structure PEntry where
  kind : PageKind
  big : Bool := false
  pin : Bool := false
  promoted : Bool := false
  readOnly : Bool := false
  grant : Nat := 0
  /-- Global address / 64 KiB: the device number above 25 bits of frame. -/
  gframe : Nat := 0
  moved : BitVec 16 := 0
  /-- The device whose grant table `grant` is a slot of, in a FOREIGN or REVOKED entry (R280, R281). -/
  owner : Nat := 0
  deriving DecidableEq, Repr

/-- A walk in flight: the VD page and the accesses that joined it (R271); `zero` while a first touch zeroes the page
(R273). Without a slot the walk waits for one. -/
structure Walk where
  vd : Nat
  page : Nat
  slot : Bool := true
  zero : Option (Nat × Bool) := none
  acc : List CxlReq := []
  since : Nat := 0
  deriving DecidableEq, Repr

/-- An attachment of a grant (R280). -/
structure Attach where
  device : Nat
  vd : Nat
  va : Nat
  deriving DecidableEq, Repr

/-- A slot of the grant table (R279). -/
structure Grant where
  vd : Nat
  epoch : BitVec 16
  va : Nat
  len : Nat
  readOnly : Bool
  key : Word
  attach : List Attach := []
  deriving DecidableEq, Repr

/-- Who started a page move (R284): Fantail, SL_PLACE, or the retirement of a channel or of a row. -/
inductive MoveBy where
  | fantail | place (cmd : Nat) | retire | row
  deriving DecidableEq, Repr

/-- A move that was asked for and not started yet. -/
structure MoveReq where
  vd : Nat
  page : Nat
  dev : Nat
  by_ : MoveBy
  deriving DecidableEq, Repr

/-- A page move in progress (Table 10-7): step 0 waits for a peer's frames, 1 for the requesters, 3 copies, 5 has the source
still to free. Frames are global; `fresh` has no source (SL_PLACE with ALLOCATE on a peer). -/
structure Move where
  vd : Nat
  page : Nat
  big : Bool
  src : Nat
  dst : Nat
  step : Nat
  by_ : MoveBy
  fresh : Bool := false
  deriving DecidableEq, Repr

/-- What a promotion slot is doing: taking its page in, holding it, or writing it back (R288, R289). -/
inductive PromoSt where
  | coming | held | going
  deriving DecidableEq, Repr

/-- A promotion slot in use, listed under device bay * 4 + quarter (R288). `next` is the page promoted after a displacement. -/
structure Promo where
  vd : Nat
  page : Nat
  frame : Nat
  st : PromoSt := .coming
  fantail : Bool := true
  next : Option (Nat × Nat) := none
  deriving DecidableEq, Repr

/-- An SL_PLACE at work: the page it has reached and its end (R278). -/
structure Placing where
  cmd : Nat
  vd : Nat
  next : Nat
  stop : Nat
  dev : Nat
  alloc : Bool
  pin : Bool
  deriving DecidableEq, Repr

/-- The memory controller's tag of a frame that a page holds (R180). -/
structure FrameTag where
  vd : Nat
  page : Nat
  deriving DecidableEq, Repr

structure Sluice where
  pt : Tab PEntry := []
  /-- The L2 tables, as bytes of the Sluice area, by `vd * 2^12 + VD address / 1 GiB` (R268, R269). -/
  l2 : Tab Nat := []
  /-- The L3 tables, by `vd * 2^21 + VD address / 2 MiB`. -/
  l3 : Tab Nat := []
  /-- Records of rings whose pages are not settled: who writes them, at which address, and their bytes. -/
  recWait : List (Who × List Byte) := []
  /-- Frames held by pages of this device, zeroing pages and move destinations. -/
  frames : Tab FrameTag := []
  /-- Frames of this device held for pages of VDs of other devices (moves between devices). -/
  foreignFrames : Tab Nat := []
  walks : List Walk := []
  /-- How many CXL.mem requests have been accepted (R142): the model's own count, by which their order is known. -/
  order : Nat := 0
  grants : Tab Grant := []
  wanted : List MoveReq := []
  moves : List Move := []
  places : List Placing := []
  promo : Tab Promo := []
  heat : Tab Nat := []
  /-- Accesses counted by each translation cache since its last sample (R286). -/
  samples : Tab Nat := []
  walkCnt : Word := 0
  shootdown : Word := 0
  firstTouch : Word := 0
  quotaCnt : Word := 0
  noSpaceCnt : Word := 0
  localise : Word := 0
  promote : Word := 0
  demote : Word := 0
  abandon : Word := 0
  dwellSkip : Word := 0
  noSlot : Word := 0
  sampleDrop : Word := 0
  tug : Tab Word := []
  tugLast : Tab DWord := []
  loopTug : Tab Word := []
  deriving DecidableEq, Repr

/-! ### Daxmas (chapter 11) -/

/-- A command's state before termination (Table 11-10). -/
inductive CmdSt where
  | queued | ready | running
  deriving DecidableEq, Repr

/-- The wait of a command or ARM on a pennant (R323). -/
inductive WaitSt where
  | none | registered | met | abandoned
  deriving DecidableEq, Repr

inductive TaskSt where
  | ready | staged | running
  deriving DecidableEq, Repr

/-- What a task ended with, before the scheduler has taken it (R307). -/
structure Fin where
  term : Term := .done
  status : Status := .ok
  addr : Nat := 0
  deriving DecidableEq, Repr

/-- One task: the units of a command that one slice runs (R312). `held` are the handles it holds (R259). The command holds a task slot for
each of its tasks, and one where it has none. -/
structure Task where
  slice : Nat
  units : List Nat := []
  st : TaskSt := .ready
  readySeq : Nat := 0
  readyAt : Nat := 0
  held : List Nat := []
  /-- Bytes, tiles or tokens of the first unit that are done, and what UNITS counts so far. -/
  pos : Nat := 0
  done : Nat := 0
  poison : Bool := false
  fin : Option Fin := none
  cancel : Bool := false
  /-- The RELEASE after its last bay tile is still to be performed (R387). -/
  relDue : Bool := false
  /-- The spill interval it launched with, as its power of two, and whether a tile was retried (R357). -/
  interval : Nat := 5
  retried : Bool := false
  /-- The partials of an attention step have been folded and OUT drained (R492). -/
  folded : Bool := false
  deriving DecidableEq, Repr

/-- One command read from a ring and not yet terminated (R307). -/
structure Cmd where
  vd : Nat
  ring : Nat
  epoch : BitVec 16
  desc : BitVec 512
  st : CmdSt := .queued
  decoded : Bool := false
  wait : WaitSt := .none
  slot : Bool := true
  cq : Bool := true
  tasks : List Task := []
  uncreated : List (Nat × List Nat) := []
  fault : Option Fin := none
  anyCancelled : Bool := false
  anyPoisoned : Bool := false
  unitsSum : Nat := 0
  result : Nat := 0
  bucket : Nat := 0
  engineFin : Option Fin := none
  readAt : Nat := 0
  /-- Expanded from a SERVICE command (R498). -/
  svc : Bool := false
  /-- Place among the READY commands (R312). -/
  readySeq : Nat := 0
  /-- KV pages that the command's list walk delivered (R283). -/
  kv : List Nat := []
  /-- Attention partials by physical slice: m, l and a as FP32 (R492). -/
  partials : Tab (List Nat) := []
  /-- The answer of its atomic, which no row has taken up yet: the old value, or none where its sector is poisoned. -/
  old : Option (Option Nat) := none
  /-- Holds an entry of the Hopper command queue, or is no Hopper command (R250). -/
  admitted : Bool := true
  deriving DecidableEq, Repr

structure Dax where
  seq : Nat := 0
  cmds : Tab Cmd := []
  readySeq : Nat := 0
  arb : Tab Arb := []
  deriving DecidableEq, Repr

/-- The spill loop of a plan on a slice (R357): its choice as a power of two, whether the last task retried, and the tasks
without a retry since the last change. -/
structure SpillLoop where
  k : Nat
  retried : Bool := false
  quiet : Nat := 0
  deriving DecidableEq, Repr

/-! ### Runners (chapters 13, 14) -/

/-- The outcome of a read of a range: the bytes, whether a sector was poison, and the fault that stopped it. -/
structure RdOut where
  bytes : List Byte := []
  poison : Bool := false
  fault : Option (Status × Nat) := none
  deriving DecidableEq, Repr

/-- A local tile staged in scratchpad (R373): its place in the loop order, and its rows of A (or index lists) and vectors of
X after load conversion. -/
structure LocalTile where
  loc : Nat
  a : List RdOut
  x : List RdOut := []
  deriving DecidableEq, Repr

/-- What the spill buffer of an accumulator tile keeps (R356, R358), or a pooling tile between its K steps (R483): values are
integers, or the encodings of floating-point values. `seen` counts contributions by row and `real` those that are not
padding. -/
structure LiveTile where
  adj : Nat := 0
  spill : List Int := []
  clamped : List Bool := []
  poison : List Bool := []
  seen : List Nat := []
  real : List Nat := []
  /-- An error was detected during the tile (R507). -/
  ue : Bool := false
  deriving DecidableEq, Repr

/-- What the active set waits for (R351, R356, R360): to go on, the next local tile, a spill (which may leave the tile), a
retry, or the swap. -/
inductive AccPhase where
  | run | step | spill (leave : Bool) | retry | redo | swap
  deriving DecidableEq, Repr

/-- The active accumulator set: its tile, the next K element, the end of the K it may run to, the elements, and the K elements
since the last spill. A retry keeps the operands it read again, from `base` on. -/
structure Active where
  phase : AccPhase := .run
  m0 : Nat
  n0 : Nat
  rows : Nat
  cols : Nat
  k : Nat
  kEnd : Nat
  adj : Nat := 0
  acc : List Int
  spill : List Int := []
  spilled : Bool := false
  clamped : List Bool := []
  since : Nat := 0
  poison : Bool := false
  again : Option (Nat × List RdOut × List RdOut) := none
  ue : Bool := false
  deriving DecidableEq, Repr

/-- The shadow set while a tile drains (R360): its values, and with K split the sums that its Flume delivered (R362). -/
structure Shadow where
  m0 : Nat
  n0 : Nat
  rows : Nat
  cols : Nat
  vals : List Int
  adj : Nat
  sat : Bool
  poison : Bool
  /-- Supplied to the Flume and not drained here (R362). -/
  supplied : Bool := false
  sums : Option (List Nat) := none
  deriving DecidableEq, Repr

/-- A run of a timetable (R397): its command, row block and column block (REDUCE), the slices with a task in it, and the
anchor's position. -/
structure FlumeRun where
  cmd : Nat
  vd : Nat
  reduce : Bool
  row : Nat := 0
  cb : Nat := 0
  slices : List Nat
  anchor : Nat
  /-- Periods that have completed, and the periods of the whole run, known from its first (R399). -/
  periods : Nat := 0
  total : Nat := 0
  /-- MULTICAST: tiles of X that the anchor has supplied and no period has carried yet (R399). -/
  supply : List (List RdOut) := []
  /-- REDUCE: partial tiles that a slice with two positions supplied for the first of them (R392). -/
  queued : Tab (List Shadow) := []
  /-- Slips of the run so far (R404). -/
  slips : Nat := 0
  deriving DecidableEq, Repr

/-- One die's Flume (R398, R409). -/
structure Flume where
  run : Option FlumeRun := none
  waiting : List FlumeRun := []
  arb : Arb := {}
  slip : Word := 0
  wait : Word := 0
  runs : Word := 0
  ended : Word := 0
  deriving DecidableEq, Repr

/-- A Runner at work on a bay tile of its task (R371): `bay` is the tile's place among the task's bay tiles, `visit` the level-1
step it is at. `stop` is how the task ends once the shadow set has drained (R361). -/
structure Runner where
  cmd : Nat
  bay : Nat
  visit : Nat := 0
  loaded : List LocalTile := []
  next : Nat := 0
  live : Tab LiveTile := []
  cur : Option Active := none
  shadow : Option Shadow := none
  stop : Option Fin := none
  /-- MULTICAST (R399, R402): tiles of X delivered here and not yet taken up. -/
  xin : List (List RdOut) := []
  deriving DecidableEq, Repr

/-! ### Pennants (chapter 12) -/

/-- Table 12-1, STATE. -/
inductive PenSt where
  | free | leased | abandoned
  deriving DecidableEq, Repr

/-- The state word of a physical pennant (Table 12-1); EXPORTED and OVERFLOW are seen in the tables beside it. -/
structure Pen where
  count : BitVec 48 := 0
  owner : Nat := 0
  st : PenSt := .free
  saturated : Bool := false
  epochPar : Bool := false
  deriving DecidableEq, Repr

/-- Who waits on a pennant (R323): a command of this device, or a wait that a pool peer registered. -/
inductive PenWho where
  | cmd (seq : Nat)
  | peer (dev vd tag : Nat)
  deriving DecidableEq, Repr

/-- Where a registration is held (R324): one of the pennant's own entries, the overflow list, or waiting for one. -/
inductive RegPlace where
  | own | overflow | waiting
  deriving DecidableEq, Repr

structure PenReg where
  pen : Nat
  who : PenWho
  vd : Nat
  target : Nat
  place : RegPlace
  /-- The QoS byte of a peer's VD (R324). -/
  qos : Nat := 0
  deriving DecidableEq, Repr

/-- An export slot (R332, R333). -/
structure Export where
  pen : Nat
  key : BitVec 31
  imports : List (Nat × Nat) := []
  deriving DecidableEq, Repr

structure Pennants where
  pens : Tab Pen := []
  regs : List PenReg := []
  exports : Tab Export := []
  ovfWaitCnt : Word := 0
  abandonCnt : Word := 0
  dropCnt : Word := 0
  deriving DecidableEq, Repr

/-! ### Fault meters, retirement and logs (chapter 19) -/

/-- A meter: its level, and whether it has crossed (R503). -/
structure Meter where
  level : Word := 0
  frozen : Bool := false
  deriving DecidableEq, Repr

/-- A row meter's slot (R505). -/
structure RowSlot where
  used : Bool := false
  r : Nat := 0
  bank : Nat := 0
  level : Word := 0
  frozen : Bool := false
  deriving DecidableEq, Repr

/-- A retirement that runs or waits: its meter class and instance (for a row, channel times 16 plus slot), and the step
of its sequence it has reached; step 0 waits (R504). -/
structure Retire where
  cls : Nat
  inst : Nat
  step : Nat
  deriving DecidableEq, Repr

/-- An open coalescing second (R528). -/
structure Coalesce where
  cls : RecClass
  code : Nat
  unit : Nat
  withheld : Nat := 0
  deriving DecidableEq, Repr

structure Faults where
  meters : Tab Meter := []
  rows : Tab RowSlot := []
  rowEvict : Word := 0
  /-- Spare rows already used, by channel, DRAM die and bank (R509). -/
  pprUsed : Tab Nat := []
  retiring : List Retire := []
  chDraining : List Nat := []
  chRetired : List Nat := []
  bayRetired : List Nat := []
  cxlLaneRetired : List Nat := []
  frameRetired : List Nat := []
  /-- Where a metadata frame was moved by a channel retirement (R510). -/
  metaMap : Tab Nat := []
  singleCopy : Bool := false
  spareLeft : Nat := 0
  failedAtBoot : Nat := 0
  /-- Channels with an uncorrectable error and its time, by stack times 12 plus DRAM die (DIE_WIDE, Table 19-2). -/
  dieWide : Tab (List (Nat × Nat)) := []
  log : List Rec := []
  logFirst : Nat := 0
  logLost : Word := 0
  fatal : List Rec := []
  coalesce : List Coalesce := []
  deriving DecidableEq, Repr

end Sys2Proof.Machine
end

