-- ==== Sys2Proof/Machine/UnitsLink.lean ====
section
/-! DEFINITION. The state of the links, ports, services, boot, management and panel units. -/
namespace Sys2Proof.Machine

/-- DIE_STATE_n.STATE (Table 02-5). -/
inductive DieSt where
  | notRun | absent | linkFail | idFail | stackFail | excluded | active | retired
  deriving DecidableEq, Repr

/-- One slice die as the I/O die knows it (Tables 02-3 to 02-5), and its stack's temperature and actions (R78, R79). -/
structure Die where
  st : DieSt := .notRun
  serial : Nat := 0
  rev : Nat := 0
  levelOffered : Nat := 0
  levelUsed : Nat := 0
  spareDn : Nat := 0
  spareUp : Nat := 0
  /-- CH_FAIL_n. -/
  chFail : Nat := 0
  /-- The last step of Table 02-3 that the die has passed, and the state of the first one that it failed (R36). -/
  step : Nat := 0
  fail : Option DieSt := none
  /-- Identity messages that arrived (R32). -/
  idTries : Nat := 0
  temp : Nat := 0
  /-- The actions of Table 03-11 at 95 and at 105 degrees. -/
  hot : Bool := false
  throttle : Bool := false
  deriving DecidableEq, Repr

/-- The inventory fixed at discovery step 8 (R33, R184): ACTIVE dies as a mask, CH_LIST, and the channels failed at boot. -/
structure Inventory where
  fixed : Bool := false
  active : Nat := 0
  chList : List Nat := []
  minDies : Nat := 0
  level : Nat := 0
  maxPool : Nat := 0
  deriving DecidableEq, Repr

/-- An outstanding M2S request (Table 05-5), with the time at which it was accepted and whether it writes. -/
structure Outst where
  tag : Nat
  vd : Nat
  time : Nat := 0
  write : Bool := false
  /-- The port's `era` in which it was accepted. -/
  era : Nat := 0
  deriving DecidableEq, Repr

/-- A CXL port: PORT_STATUS_n (Table 05-2), and what the port holds. -/
structure CxlPort where
  /-- 0 down, 1 training, 2 up, 3 disabled. -/
  link : Nat := 0
  rate : Nat := 0
  width : Nat := 0
  mld : Bool := false
  cxlOk : Bool := false
  strapMismatch : Bool := false
  ideIo : Bool := false
  ideMem : Bool := false
  /-- R149: the CXL.io streams that are secure, the link stream (16) and the selective ones (0 to 15); the CXL.mem stream's mode, skid or
  containment; a key switch is under way. -/
  ideStreams : List Nat := []
  ideSkid : Bool := false
  ideSwitch : Bool := false
  surpriseDown : Bool := false
  outst : List Outst := []
  /-- How often the link has gone down (R152): the model's own count, by which an answer to a request of before is known. -/
  era : Nat := 0
  /-- Requests that the port holds back under credits, oldest first (R23, R141). -/
  held : List CxlReq := []
  devLoad : Nat := 0
  biStray : Word := 0
  /-- The record of R150 has been written since link-up. -/
  ideSeen : Bool := false
  /-- 0 L0, 1 L0p, 2 L1 (R125). -/
  power : Nat := 0
  /-- BIConflict messages that wait for the S2M completion of a tag: tag and line (R233). -/
  conflicts : List (Nat × Nat) := []
  /-- The reference mode it trained in (R121): 0 COMMON, 1 SEPARATE, 2 LOCAL, 3 held in Detect. -/
  refMode : Nat := 0
  /-- SRIS is negotiated (R121). -/
  sris : Bool := false
  /-- PERST_N_n is asserted. -/
  perst : Bool := false
  deriving DecidableEq, Repr

/-- A record that is limited in time (R134, R457, R468): what it is, for whom, where, and when it was last written. -/
structure Limit where
  kind : Nat
  who : Nat
  place : Nat
  time : Nat
  deriving DecidableEq, Repr

/-- HYL_STATUS_n.STATE (Table 16-8). -/
inductive HylSt where
  | disabled | detect | train | config | l0 | recovery | widthChange | l1 | l1d | down | retired
  deriving DecidableEq, Repr

/-- Table 16-8. -/
def HylSt.code : HylSt → Nat
  | .disabled => 0 | .detect => 1 | .train => 2 | .config => 3 | .l0 => 4 | .recovery => 5 | .widthChange => 6
  | .l1 => 7 | .l1d => 8 | .down => 9 | .retired => 10

/-- A PAYLOAD flit that is not acknowledged (R422, R425): its sequence number, the message it carries by its place among those
sent, the message's class, and its replays. -/
structure HeldFlit where
  seq : Nat
  msg : Nat
  cls : Nat
  replays : Nat := 0
  deriving DecidableEq, Repr

/-- A HyhanLink port (chapter 16). -/
structure HylPort where
  st : HylSt := .disabled
  /-- Lanes that are trained, active and retired. -/
  trained : Nat := 0
  active : Nat := 0
  retired : Nat := 0
  reversed : Bool := false
  /-- By lane: the polarity is inverted; this end, and the partner, has asked for precoding (R411, R430). -/
  inverted : Nat := 0
  precodeRx : Nat := 0
  precodeTx : Nat := 0
  /-- The taps of the transmitter by lane and tap (R411), the request that goes with the lane's next block, the answer to the partner's last,
  and when the lane was last adapted (R429, R441). -/
  taps : Tab Int := []
  eqReq : Tab Nat := []
  eqSts : Tab Nat := []
  eqAt : Tab Nat := []
  attempt : Nat := 0
  /-- It is in an attempt of its own (R435). -/
  own : Bool := false
  /-- The active set that its WREQ names, and when the last was sent. -/
  want : Option Nat := none
  wantAt : Nat := 0
  pmWait : Bool := false
  /-- The partner, from its blocks, with the lanes it can use, its NEXT_RX, its active set and EQ_HELD; the blocks with SEEN received
  and sent, by lane (R429). -/
  peerPort : Option Nat := none
  peerSerial : Nat := 0
  peerDev : Option Nat := none
  peerUsable : Nat := 0
  peerNext : Option Nat := none
  peerActive : Nat := 0
  peerHeld : Bool := false
  seen : Tab Nat := []
  sentSeen : Tab Nat := []
  /-- Messages that wait for their flits: place and class. -/
  tx : List (Nat × Nat) := []
  held : List HeldFlit := []
  nextTx : Nat := 0
  nextRx : Nat := 0
  nakSent : Bool := false
  /-- Credits held by class, and those still to return. -/
  credits : Tab Nat := []
  owed : Tab Nat := []
  /-- When the recovery in progress began, and when the last one ended. -/
  recFrom : Nat := 0
  recEnd : Option Nat := none
  lastAttempt : Nat := 0
  /-- The last HELLO since link-up, and whether the record of R451 has been written. -/
  hello : Option Hello := none
  noted : Bool := false
  /-- The scramblers of the lanes (R412), the message begun in the last PAYLOAD flit (R418), and the flits put on the lanes. -/
  txScr : Tab (BitVec 31) := []
  rxScr : Tab (BitVec 31) := []
  part : Option MsgPart := none
  lanesOut : List FlitWire := []
  fecSym : Tab Word := []
  crcErr : Word := 0
  replay : Word := 0
  stall : Word := 0
  recovery : Word := 0
  badFlit : Word := 0
  tieYield : Word := 0
  widthCnt : Word := 0
  l1Cnt : Word := 0
  deriving DecidableEq, Repr

/-- A request of a pool device that waits for the end of a warm reset (R68): coherence, a pennant operation, a grant's. -/
inductive HeldReq where
  | coh (m : CohMsg) (op : ReqOp)
  | pen (dev vd tag op ticket value qos : Nat)
  | sl (dev : Nat) (m : SlMsg)
  deriving DecidableEq, Repr

def HeldReq.dev : HeldReq → Nat
  | .coh m _ => m.dev
  | .pen d _ _ _ _ _ _ => d
  | .sl d _ => d

/-- Pool membership (R455). -/
inductive PoolSt where
  | standalone | joining | member | isolated
  deriving DecidableEq, Repr

/-- What a remote operation is for (R460, R461): memory, a pennant, a grant or a line of a collective. -/
inductive RemKind where
  | mem | pen | sl | coll
  deriving DecidableEq, Repr

/-- A remote operation that awaits its answer (R460): what was sent, for whom, and whether it is posted. `src` and `rtag` name
the requester that the answer goes to. -/
structure RemoteOp where
  kind : RemKind := .mem
  op : CohOp := .rdNc
  dev : Nat
  line : Nat := 0
  tag : Nat
  who : Who
  epoch : BitVec 16 := 0
  posted : Bool := false
  src : Src := .loc
  rtag : Nat := 0
  /-- For a host's request, the `era` of its port (R152). -/
  era : Nat := 0
  sentAt : Nat := 0
  deriving DecidableEq, Repr

/-- An entry of the departed-write table (R462), with the command it was taken for. -/
structure DepEntry where
  vd : Nat
  epoch : BitVec 16
  earlier : Bool := false
  stream : Nat
  tag : Nat
  gen : BitVec 4
  time : Nat
  cmd : Option Nat
  deriving DecidableEq, Repr

structure Pool where
  st : PoolSt := .standalone
  devnum : Nat := 0
  members : BitVec 128 := 0
  /-- POOL_LINK_n: the kind of each port's link (Table 17-3). -/
  linkKind : Tab Nat := []
  departed : List Nat := []
  /-- It is the coordinator; pool time meets R471; it leaves (R467). -/
  coord : Bool := false
  aligned : Bool := false
  leaving : Bool := false
  /-- The lowest eligible serial known (R452), and the serials of the members by number. -/
  lowest : Option Nat := none
  serials : Tab Nat := []
  /-- Candidates by serial, with their POOL links: port and the neighbour's number, if it has one (R453). -/
  candidates : Tab (List (Nat × Option Nat)) := []
  /-- Floods already seen: origin serial and sequence; and the next sequence of this device's. -/
  seen : List (Nat × Nat) := []
  floodSeq : Nat := 0
  /-- Links reported usable: the reporting device and the device that they lead to (R467). -/
  usable : List (Nat × Nat) := []
  /-- Members that have reported a sweep: member and departed device (R470); and this device's own reports. -/
  reported : List (Nat × Nat) := []
  /-- How fast the time base is slewed, in parts per million (R471). -/
  slew : Int := 0
  /-- Dimensions whose traffic is on the spare (R448). -/
  onSpare : List Nat := []
  /-- How many messages of `State.out` have been handed to the ports. -/
  routed : Nat := 0
  remote : List RemoteOp := []
  /-- WB credits of each home device in use, and write-backs that wait for one (R223). -/
  wbOut : Tab Nat := []
  wbHold : List CohMsg := []
  /-- Peers' lines whose dirty copies were lost with a die (R515); the next snoop of one is not answered. -/
  lostCopies : List Nat := []
  /-- Requests of peers held in a warm reset, in order (R68). -/
  heldReqs : List HeldReq := []
  /-- Remote operations that wait for an entry (R460), and posted writes that wait for the departed-write table (Table 11-13). -/
  remWait : List (RemoteOp × OutMsg) := []
  depWait : List (Who × CohMsg) := []
  dep : Tab DepEntry := []
  /-- POOL_OFFSET (R471): what pool time adds to the time base, as an integer. -/
  offset : Int := 0
  /-- Directory sweeps reported for departed devices: device and slice (R236). -/
  swept : List (Nat × Nat) := []
  unreachCnt : Word := 0
  lostMsgCnt : Word := 0
  timeoutCnt : Word := 0
  deferredCnt : Word := 0
  unconfirmedCnt : Word := 0
  lostLineCnt : Word := 0
  joinCnt : Word := 0
  departCnt : Word := 0
  deriving DecidableEq, Repr

/-- One part of a running COLLECTIVE (R474): its step, and the step's exchange: whether COLL_READY was sent and received, lines
sent and acknowledged, lines applied, and the number that the partner's COLL_STEP announced. -/
structure CollPart where
  step : Nat := 0
  ready : Bool := false
  partner : Bool := false
  sent : Nat := 0
  acked : Nat := 0
  applied : Nat := 0
  announced : Option Nat := none
  deriving DecidableEq, Repr

/-- A running COLLECTIVE, by its command. -/
structure Coll where
  cmd : Nat
  seq : Nat
  kind : Nat
  fmt : Nat
  count : Nat
  /-- The dimensions of its group, ascending, and whether the plane step follows (R472). -/
  dims : List Nat
  plane : Bool
  parts : List CollPart
  deriving DecidableEq, Repr

/-- The applied image (R102, R109). -/
structure Image where
  applied : Bool := false
  device : ImgDevice := {}
  ports : Tab ImgPort := []
  bays : Tab ImgBays := []
  vds : Tab ImgVd := []
  pol : Policy := {}
  regions : List Region := []
  pools : Tab ImgPool := []
  poolMap : Option PoolMap := none
  /-- MAP_DIGEST (R445). -/
  mapDigest : Nat := 0
  plans : Tab Plan := []
  services : Tab SvcRec := []
  flumes : Tab FlumeRec := []
  funcs : Tab FuncTable := []
  deriving DecidableEq, Repr

/-- A Race (R407): waiting messages in order of arrival; by output port and class the grants to higher classes in a row while the class waited,
the input port granted last, and the credits in use; and RACE_LOW_GRANT_CNT. -/
structure Race where
  waiting : List RaceMsg := []
  higher : Tab Nat := []
  last : Tab Nat := []
  used : Tab Nat := []
  low : Word := 0
  deriving DecidableEq, Repr

/-! ### Gauges (chapter 20) -/

/-- The captures of a window (R538). -/
structure Capture where
  start : Nat := 0
  min : Nat := 2 ^ 64 - 1
  max : Nat := 0
  sum : Nat := 0
  count : Nat := 0
  sat : Bool := false
  short : Bool := false
  bins : Tab Nat := []
  deriving DecidableEq, Repr

/-- A gauge or view (Tables 20-2 to 20-4): `snap` is its snapshot, `cur` the window in progress or still to begin. -/
structure Gauge where
  enable : Bool := false
  oneShot : Bool := false
  pow2 : Bool := false
  poolClock : Bool := false
  done : Bool := false
  missed : Bool := false
  cfgIgnored : Bool := false
  src : Nat := 0
  base : Nat := 0
  step : Nat := 0
  wstart : Nat := 0
  wlen : Nat := 0
  period : Nat := 0
  seq : Word := 0
  snap : Capture := {}
  cur : Capture := {}
  /-- The counter of source 0x40 at the last sample instant. -/
  last : Nat := 0
  deriving DecidableEq, Repr

/-! ### The part and its board -/

/-- The board or card around the package (chapter 23). -/
structure Board where
  vddIo : Bool := false
  pwrOk : Bool := false
  /-- The card found the 600 W configuration at its power-on (R603). -/
  sense : Option Bool := none
  pgmReq : Bool := false
  /-- Cages: 1 a module or cable of the lowest class, 2 a module left unpowered (R605). -/
  cages : Tab Nat := []
  deriving DecidableEq, Repr

/-! ### Clocks and power -/

/-- The clock monitor's view of one REFCLK (R56, R59). -/
structure RefMon where
  valid : Bool := false
  /-- The last window lay outside the band. -/
  out : Bool := false
  /-- A 100 us return count is running. -/
  counting : Bool := false
  deriving DecidableEq, Repr

structure Clk where
  /-- 0 ANCHOR, 1 HOLDOVER, 2 QUIET_FIXED, 3 FREE_RUN (Table 03-4). -/
  source : Nat := 1
  refs : Tab RefMon := []
  /-- QUIET_FAIL, and whether the quiet clock has failed. -/
  quietFail : Bool := false
  quietBad : Bool := false
  /-- SOURCE has been 0 since the cold reset (R63). -/
  switched : Bool := false
  glitchCnt : Word := 0
  lossCnt : Word := 0
  holdover : DWord := 0
  deriving DecidableEq, Repr

/-- Power states of Table 03-10: slices (1 clock-gated, 2 power-gated), gated Runners, stacks in self-refresh, gated Flumes, and
slice-die common domains that are on for test (R49). -/
structure Power where
  slices : Tab Nat := []
  runners : List Nat := []
  refresh : List Nat := []
  flumes : List Nat := []
  /-- Refresh intervals in ns that the refresh loop chose, by channel (R293). -/
  interval : Tab Nat := []
  testCom : List Nat := []
  deriving DecidableEq, Repr

/-- The test access port (R45, R46). -/
structure Jtag where
  ir : Nat := 1
  /-- Open SIBs. -/
  sibs : Nat := 0
  bsr : List Bool := []
  deriving DecidableEq, Repr

/-! ### Boot -/

/-- One boot slot (R99, R104). -/
structure Slot where
  staged : Bool := false
  code : Nat := 0
  /-- It passed checks 1 to 4. -/
  sound : Bool := false
  seq : Nat := 0
  caps : Nat := 0
  /-- Only its DEVICE and CXL sections were kept (R100). -/
  limited : Bool := false
  img : Image := {}
  /-- The SHA-384 digest of the signed region (R101). -/
  digest : Nat := 0
  deriving DecidableEq, Repr

structure Boot where
  /-- The last step of Table 03-8 reached, training (6) left out; 0 without power or in a hold. -/
  step : Nat := 0
  /-- The hold of R81, and the junction temperature of the I/O die. -/
  thermalHold : Bool := false
  iodTemp : Nat := 0
  /-- RESET_CAUSE [10:0] and LAST (R586). -/
  cause : BitVec 11 := 0
  last : Nat := 0
  flashOk : Bool := false
  /-- The read mode of R83: 1 1-1-1, 2 1-4-4, 3 8D-8D-8D. -/
  flashMode : Nat := 0
  flashOwn : Bool := false
  slots : Tab Slot := []
  /-- 1 A, 2 B, 3 recovery. -/
  selected : Nat := 0
  fallback : Bool := false
  diesShort : Bool := false
  done : Bool := false
  noImage : Bool := false
  /-- The slot whose digest is reported (R101, R107). -/
  digest : Nat := 0
  testLock : Bool := false
  /-- Memory Active has been reported (R154). -/
  memActive : Bool := false
  /-- Memory Active will not be reached (R155). -/
  neverActive : Bool := false
  /-- The last step of Table 03-7 that a warm reset has done; 0 outside one. -/
  warm : Nat := 0
  /-- A warm reset waits for discovery step 8 (R69): its trigger. -/
  warmWait : Option Nat := none
  /-- CXL.io requests held during a warm reset, a key switch or behind a held policy write, in order (R68, R112, R149). -/
  held : List HostReq := []
  deriving DecidableEq, Repr

/-! ### The policy window (R112-R118) -/

/-- One policy write (R113): its register, its value, and who wrote it: a VD, or management with the request it answers. -/
structure PolWrite where
  reg : PolReg
  val : Nat
  vd : Option Nat := none
  hdr : Option MctpHdr := none
  /-- The command code of the request (Table 21-2). -/
  cmd : Nat := 2
  /-- It is the first of the two writes of one WRITE64 (R551). -/
  first : Bool := false
  deriving DecidableEq, Repr

structure PolicyQ where
  queue : List PolWrite := []
  held : List PolWrite := []
  cur : Option PolWrite := none
  doneSeq : BitVec 16 := 0
  /-- LAST_RESULT: 0 APPLIED, 1 RANGE. -/
  result : Nat := 0
  /-- The first write of a WRITE64 was refused. -/
  firstBad : Bool := false
  deriving DecidableEq, Repr

/-! ### Management and the panel (chapter 21) -/

/-- A PLDM event that awaits its acknowledgement (R558): the sensor, the state reported and how often it was sent. -/
structure PldmEvent where
  sensor : Nat
  value : Nat
  sent : Nat := 0
  deriving DecidableEq, Repr

structure Mgmt where
  /-- Endpoint identifiers by binding: 0 SMBus, 1 PCIe. -/
  eids : Tab Nat := []
  /-- Reassembled requests, in order (R548), and PCIe messages held under flow control. -/
  bufs : List MctpHdr := []
  held : List MctpHdr := []
  drop : Word := 0
  /-- Mirror reads held during a warm reset (R594): the request, the offset and whether it is 64 bits wide. -/
  reads : List (MctpHdr × Nat × Bool) := []
  /-- The first request is under way: its answer comes later. -/
  busy : Bool := false
  /-- VD_RESET commands still to answer (R551). -/
  resets : List (MctpHdr × Nat) := []
  /-- SPDM: 0 nothing negotiated, 1 version, 2 capabilities, 3 algorithms; open sessions with the port that carries them, if
  any, and whether they are established. -/
  spdm : Nat := 0
  sessions : Tab (Option Nat × Bool) := []
  tid : Nat := 0
  receiver : Option Nat := none
  events : List PldmEvent := []
  evtLost : Word := 0
  /-- Threshold levels of sensors as last reported. -/
  levels : Tab Nat := []
  identify : Bool := false
  /-- HEALTH.STATE (Table 21-6). -/
  health : Nat := 0
  cardPower : Nat := 0
  deriving DecidableEq, Repr

/-- What a frame shows (Table 21-7): device number, health and fault codes with their P flags. -/
structure PanelFrame where
  devnum : Option Nat := none
  health : Nat := 0
  codes : List (Nat × Bool) := []
  deriving DecidableEq, Repr

/-- The panel and its bridge (R561-R567). Nothing of it is lost with power. -/
structure Panel where
  /-- Panel memory: fault codes, newest first, and IN_PROGRESS (R563). -/
  codes : List (Nat × Bool) := []
  inProgress : Bool := false
  /-- The frame drawn, the one being drawn, and the step of Table 21-9 that the update has done. -/
  shown : Option PanelFrame := none
  next : Option PanelFrame := none
  step : Nat := 0
  /-- The band is hatched. -/
  hatched : Bool := false
  /-- The frame beneath may be drawn in part. -/
  partly : Bool := false
  /-- The R77 frame is drawn by the bridge itself. -/
  connector : Bool := false
  comparator : Bool := false
  /-- Codes of this cold reset, newest first (R562). -/
  fresh : List Nat := []
  waiting : Bool := false
  bootDrawn : Bool := false
  /-- A clearing waveform is due or done before the boot draw (R565). -/
  clearing : Bool := false
  lastStart : Option Nat := none
  deriving DecidableEq, Repr

end Sys2Proof.Machine
end

