-- ==== Sys2Proof/Machine/State.lean ====
section
/-!
DEFINITION. The state of the FX288 as plain data, its faults and refusals, and the machine before power-on.
-/
namespace Sys2Proof.Machine

/-- Reasons the block stops. No command of the table stops the block: every error of the spec is state. -/
inductive Fault where
  /-- Never raised by this model; the spec gives every error an effect on the state. Safe. -/
  | none
  deriving DecidableEq, Repr

/-- Reasons a command has no meaning here. -/
inductive Refusal where
  /-- Raised by an arm of `exec` whose meaning is not written yet. Safe. -/
  | notModelled (mnemonic : String)
  deriving DecidableEq, Repr

structure State where
  /-- Commands that wait, first in first out. -/
  pending : List Instr := []
  /-- The model's own counter of free values (notes/assumptions/6.md). -/
  freeCtr : Nat := 0
  out : List OutMsg := []
  /-- The model's own: what the row at work cannot go on without; empty between rows (notes/assumptions/26.md). -/
  stall : List Stall := []
  /-- Reads that rows waited for and that ended with no copy, not taken up yet. -/
  ends : List ReadEnd := []
  dies : Tab Die := []
  inv : Inventory := {}
  fuses : Fuses := {}
  straps : Straps := {}
  board : Board := {}
  boot : Boot := {}
  clk : Clk := {}
  power : Power := {}
  jtag : Jtag := {}
  polq : PolicyQ := {}
  mgmt : Mgmt := {}
  panel : Panel := {}
  pool : Pool := {}
  img : Image := {}
  pol : Policy := {}
  timeBase : DWord := 0
  /-- DRAM by device offset: listed bytes differ from 0. -/
  mem : List Host.Cell := []
  /-- Poisoned DRAM sectors, by device offset / 32. -/
  memPoison : Tab Bool := []
  /-- Pinned bays' bytes by device bay number * 256 KiB + offset. -/
  bays : List Host.Cell := []
  bayPoison : Tab Bool := []
  slices : Tab Slice := []
  dir : Tab DirEntry := []
  vds : Tab Vd := []
  ports : Tab CxlPort := []
  hyl : Tab HylPort := []
  colls : List Coll := []
  /-- COLL_READY messages that match no step yet (R473), with their times. -/
  collHeld : List (CollReady × Nat) := []
  limits : List Limit := []
  queues : Tab SharedQ := []
  hop : Hopper := {}
  slu : Sluice := {}
  dax : Dax := {}
  /-- Spill loops by plan * 64 + slice. -/
  spill : Tab SpillLoop := []
  flume : Tab Flume := []
  runners : Tab Runner := []
  /-- Die Races 0 to 7 and the central Race 8. -/
  races : Tab Race := []
  pen : Pennants := {}
  flt : Faults := {}
  /-- Gauges 0 to 127 and the views 128 + 2v + i (R529). -/
  gauges : Tab Gauge := []
  deriving DecidableEq, Repr

/-- The device at its cold values, before PWR_OK: POWER_ON is a command of the table (notes/assumptions/1.md). -/
def State.reset : State := {}

end Sys2Proof.Machine
end

