-- ==== Sys2Proof/Machine/Ops.lean ====
section
/-!
DEFINITION. Named operations over the state: units by number, the memory and its poison, the address hash (R186-R189),
metadata frames (R185), and what the block sends.
-/
namespace Sys2Proof.Machine

/-- The outcome of a command that has its effect. -/
abbrev Res := Host.Outcome State Fault Refusal

/-! ### Units by number -/

def State.vd (s : State) (v : Nat) : Vd := s.vds.getD v {}
def State.setVd (s : State) (v : Nat) (x : Vd) : State := { s with vds := s.vds.setD v {} x }
def State.modVd (s : State) (v : Nat) (f : Vd → Vd) : State := s.setVd v (f (s.vd v))
def State.ring (s : State) (v i : Nat) : Ring := (s.vd v).rings.getD i {}
def State.modRing (s : State) (v i : Nat) (f : Ring → Ring) : State :=
  s.modVd v fun x => { x with rings := x.rings.setD i {} (f (x.rings.getD i {})) }
def State.slice (s : State) (n : Nat) : Slice := s.slices.getD n {}
def State.setSlice (s : State) (n : Nat) (x : Slice) : State := { s with slices := s.slices.setD n {} x }
def State.modSlice (s : State) (n : Nat) (f : Slice → Slice) : State := s.setSlice n (f (s.slice n))
def State.queue (s : State) (q : QueueId) : SharedQ := s.queues.getD q.key {}
def State.setQueue (s : State) (q : QueueId) (x : SharedQ) : State := { s with queues := s.queues.setD q.key {} x }

def State.port (s : State) (p : Nat) : CxlPort := s.ports.getD p {}
def State.modPort (s : State) (p : Nat) (f : CxlPort → CxlPort) : State := { s with ports := s.ports.setD p {} (f (s.port p)) }

/-- R150: memory requests to the port's windows are refused until CXL.io IDE is active. -/
def State.ideBlocks (s : State) (p : Nat) : Bool := (s.img.ports.getD p {}).ideIoRequired && !(s.port p).ideIo

/-- The block sends one message. -/
def State.send (s : State) (o : OutMsg) : State := { s with out := s.out ++ [o] }

/-- A free value: the next one of the opaque sequence (notes/assumptions/6.md). -/
def State.draw (s : State) : BitVec 64 × State := (Config.freeValue s.freeCtr, { s with freeCtr := s.freeCtr + 1 })

/-- R181: a VD's key is drawn. -/
def State.drawKey (s : State) (v : Nat) : State :=
  { s.modVd v (fun x => { x with key := some (Config.keyDraw s.freeCtr) }) with freeCtr := s.freeCtr + 1 }

/-- R12: a 64-bit time base in ns. -/
def State.now (s : State) : Nat := s.timeBase.toNat

/-! ### Counters held in tables -/

def countAt (t : Tab Word) (i : Nat) : Tab Word := t.setD i 0 (t.getD i 0 + 1)

/-! ### Commands in flight by their read numbers -/

def State.cmd? (s : State) (q : Nat) : Option Cmd := s.dax.cmds.find q
def State.setCmd (s : State) (q : Nat) (c : Cmd) : State := { s with dax := { s.dax with cmds := s.dax.cmds.put q c } }
def State.modCmd (s : State) (q : Nat) (f : Cmd → Cmd) : State :=
  match s.cmd? q with
  | some c => s.setCmd q (f c)
  | none => s

/-- A command's task on a slice changes: the one that has not ended, where another of the command has ended there. -/
def State.modTask (s : State) (q n : Nat) (f : Task → Task) : State :=
  s.modCmd q fun c =>
    let live := c.tasks.any fun t => decide (t.slice = n) && t.fin.isNone
    { c with tasks := c.tasks.map fun t => if t.slice = n ∧ (t.fin.isNone ∨ !live) then f t else t }

/-! ### Virtual devices -/

/-- R91: VD `v` is logical device `v mod 16` of port `v / 16`, and exists when its port record gives it one. -/
def Image.vdExists (i : Image) (v : Nat) : Bool :=
  i.applied && decide (v < 64) && decide (v % 16 < (i.ports.getD (v / 16) {}).ldCount)

def State.vdExists (s : State) (v : Nat) : Bool := s.img.vdExists v

/-- The existing VDs, ascending. -/
def State.vdList (s : State) : List Nat := (List.range 64).filter s.vdExists

def State.quotaTask (s : State) (v : Nat) : Nat := s.pol.quotaTask.getD v 0
def State.quotaBuf (s : State) (v : Nat) : Nat := s.pol.quotaBuf.getD v 0
def State.quotaPage (s : State) (v : Nat) : Nat := s.pol.quotaPage.getD v 0
def State.quotaPen (s : State) (v : Nat) : Nat := s.pol.quotaPen.getD v 0
/-- R166: the class of a VD: 0 BULK, 1 NORMAL, 2 LATENCY. -/
def State.qosClass (s : State) (v : Nat) : Nat := s.pol.qos.getD v 0 % 4
def State.qosWeight (s : State) (v : Nat) : Nat := s.pol.qos.getD v 0 / 4 % 32

/-! ### The inventory -/

/-- S of R38: the number of ACTIVE dies. -/
def Inventory.s (i : Inventory) : Nat := popCount 8 i.active
/-- U of R184. -/
def Inventory.u (i : Inventory) : Nat := i.chList.length
/-- R184: 18,432 frames of 64 KiB in a channel. -/
def framesPerChannel : Nat := 18432
def Inventory.frames (i : Inventory) : Nat := i.u * framesPerChannel
/-- R185: the first metadata frame. -/
def Inventory.metaBase (i : Inventory) : Nat := i.frames - i.s * 47104
/-- The present slices, ascending (R159). -/
def Inventory.slices (i : Inventory) : List Nat := (List.range 64).filter fun n => bit i.active (n / 8)
/-- N of R156. -/
def Inventory.n (i : Inventory) : Nat := i.slices.length

/-- R159: the physical slice of a virtual one, before retirement. -/
def Inventory.physSlice (i : Inventory) (v : Nat) : Nat := i.slices.getD v 0
/-- The virtual number of a present physical slice. -/
def Inventory.virtSlice (i : Inventory) (p : Nat) : Nat := i.slices.idxOf p

/-! ### Where an offset lies (R186-R189) -/

/-- A device offset's place: device channel, channel-local frame, line in the frame. -/
structure Place where
  ch : Nat
  r : Nat
  line : Nat
  deriving DecidableEq, Repr

/-- R186, for a frame number. -/
def Inventory.chanOf (i : Inventory) (f : Nat) : Nat :=
  i.chList.getD ((f % i.u + 32 * (f / i.u)) % i.u) 0

/-- R186: where a row of frames meets a usable channel: the frame of the row that lies on it. -/
def Inventory.rowFrame (i : Inventory) (c r : Nat) : Nat := r * i.u + (i.chList.idxOf c + i.u - 32 * r % i.u) % i.u

/-- R186. -/
def Inventory.place (i : Inventory) (o : Nat) : Place :=
  let f := o / 65536
  { ch := i.chanOf f, r := f / i.u, line := o / 128 % 512 }

/-- R186: the channel-local line number. -/
def Place.l (p : Place) : Nat := p.r * 512 + p.line

/-- Table 07-2. -/
def Place.dramDie (p : Place) : Nat := p.r % 12
def Place.row (p : Place) : Nat := p.r / 12
/-- Table 07-2: line[8:4]. -/
def Place.columnBlock (p : Place) : Nat := p.line / 16
def Place.bank (p : Place) : Nat := (p.line % 16) ^^^ (p.row % 16)

/-- R187: the buddy of a slice: the other slice of its pair on the same die. -/
def buddy (n : Nat) : Nat := n / 8 * 8 + ((n % 8) ^^^ 1)

/-- R187: a retired slice's channels are homed on its buddy. -/
def State.liveSlice (s : State) (n : Nat) : Nat := if (s.slice n).retired then buddy n else n

/-- HYL_PORTS: 8 on FX288-B, 4 on FX288-A (R410). -/
def State.hylPorts (s : State) : Nat := if s.fuses.prevGen then 4 else 8

/-- The home slice of a channel. -/
def State.homeSlice (s : State) (c : Nat) : Nat := s.liveSlice (c / 4)

/-- The device number of a global line (a global address divided by 128). -/
def lineDev (gl : Nat) : Nat := gl / 2 ^ 34
/-- The device offset of a global line. -/
def lineOff (gl : Nat) : Nat := gl % 2 ^ 34 * 128
/-- The frame of a global line on its device. -/
def lineFrame (gl : Nat) : Nat := gl % 2 ^ 34 / 512

/-- The global line of an offset of this device. -/
def State.ownLine (s : State) (l : Nat) : Nat := s.pool.devnum * 2 ^ 34 + l

def State.die (s : State) (n : Nat) : Die := s.dies.getD n {}

/-- R190: the proxy slice of a line of another device. Where it lies on a retired die, which the spec leaves open, the next
slice in virtual order that does not (notes/assumptions/16.md). -/
def State.proxySlice (s : State) (gl : Nat) : Nat :=
  let k := (lineFrame gl + lineDev gl) % s.inv.n
  let n (i : Nat) : Nat := s.liveSlice (s.inv.physSlice ((k + i) % s.inv.n))
  if (s.die (n 0 / 8)).st ≠ .retired then n 0
  else n (((List.range s.inv.n).find? fun i => decide ((s.die (n i / 8)).st ≠ .retired)).getD 0)

/-- The slice that serves a global line on this device: its home, or its proxy (R187, R190). -/
def State.sliceOf (s : State) (gl : Nat) : Nat :=
  if lineDev gl = s.pool.devnum then s.homeSlice (s.inv.chanOf (lineFrame gl)) else s.proxySlice gl

/-- R185: an offset no request outside the metadata engines may reach. -/
def State.offLimits (s : State) (gl : Nat) : Bool := decide (s.inv.metaBase ≤ lineFrame gl)

/-- R194, R190: the set of a line in its slice. -/
def State.setOf (s : State) (gl : Nat) : Nat :=
  if lineDev gl = s.pool.devnum then
    let p := s.inv.place (lineOff gl)
    ((p.r % 4) ^^^ (p.ch % 4)) * 512 + p.line
  else (lineFrame gl % 4) * 512 + gl % 512

/-- R517: the line's home lies on a retired die. -/
def State.lostHome (s : State) (gl : Nat) : Bool :=
  decide (lineDev gl = s.pool.devnum) && decide ((s.die (s.inv.chanOf (lineFrame gl) / 32)).st = .retired)

/-! ### Memory -/

/-- The byte at a device offset; an unlisted byte reads 0 (notes/assumptions/4.md). -/
def readByte (m : List Host.Cell) (a : Nat) : Byte := Tab.getD m a 0
def writeByte (m : List Host.Cell) (a : Nat) (b : Byte) : List Host.Cell := Tab.setD m a 0 b

/-- Consecutive bytes. -/
def readBytes (m : List Host.Cell) (a n : Nat) : List Byte := (List.range n).map fun i => readByte m (a + i)
def writeBytes (m : List Host.Cell) : Nat → List Byte → List Host.Cell
  | _, [] => m
  | a, b :: t => writeBytes (writeByte m a b) (a + 1) t

/-- A little-endian number of a list of bytes as a line. -/
def bytesLine (bs : List Byte) : Line := BitVec.ofNat 1024 (leNat bs)

/-- The 128 bytes at an offset. -/
def readLine (m : List Host.Cell) (a : Nat) : Line := bytesLine (readBytes m a 128)

/-- Write the masked bytes of a line at an offset. -/
def writeLine (m : List Host.Cell) (a : Nat) (mask : BitVec 128) (x : Line) : List Host.Cell :=
  (List.range 128).foldl (fun m i => if bit mask.toNat i then writeByte m (a + i) (lineByte x i) else m) m

/-- The poisoned sectors of the line at an offset. -/
def poisonAt (t : Tab Bool) (a : Nat) : Sectors :=
  BitVec.ofNat 4 (packBits 4 fun i => t.getD (a / 32 + i) false)

/-- Set the poison of the sectors in a mask. -/
def setPoison (t : Tab Bool) (a : Nat) (mask p : Sectors) : Tab Bool :=
  (List.range 4).foldl (fun t i => if bit mask.toNat i then t.setD (a / 32 + i) false (bit p.toNat i) else t) t

/-- DRAM takes the sectors of a mask with their poison (R197). -/
def State.dramWrite (s : State) (a : Nat) (mask : Sectors) (x : Line) (p : Sectors) : State :=
  { s with mem := writeLine s.mem a (sectorBytes mask) x, memPoison := setPoison s.memPoison a mask p }

/-- The canonical form of a memory: addresses strictly rising, no byte equal to what an unlisted address reads as. -/
abbrev Memory.wf (m : List Host.Cell) : Prop := Tab.wfD (0 : Byte) m = true

end Sys2Proof.Machine
end

