-- ==== Sys2Proof/Machine/Queues.lean ====
section
/-!
DEFINITION. The shared queues of Table 06-2: reserved shares and the shared remainder (R163, R164) and their arbitration
(R165). Entries are counted, not named: a VD's entries beyond its reserved share are the shared ones.
-/
namespace Sys2Proof.Machine

/-- Table 06-2, Size. -/
def QueueId.size : QueueId → Nat
  | .cxlMem _ => 2048 | .tasks => 4096 | .missRegs _ => 256 | .waiters _ => 4096
  | .remoteOps => 8192 | .penOverflow => 8192 | .walks => 512 | .hopperCmds => 1024

/-- The logical devices that a port exposes (R124): those of its record, and none but LD 0 to a partner that is not in MLD mode, nor
before an image is applied (R154). -/
def State.exposed (s : State) (p ld : Nat) : Bool :=
  if s.img.applied then decide (ld < (s.img.ports.getD p {}).ldCount) && ((s.port p).mld || decide (ld = 0)) else decide (ld = 0)

/-- Table 06-2, Reserved per VD (R163 for the task slots); a port reserves for the LDs that it exposes. -/
def State.reserve (s : State) (q : QueueId) (v : Nat) : Nat :=
  if s.vdExists v then
    match q with
    | .cxlMem p => if v / 16 = p ∧ s.exposed p (v % 16) then 32 else 0
    | .tasks => min 8 (s.quotaTask v)
    | .missRegs _ => 2
    | .waiters _ => 16
    | .remoteOps => 32
    | .penOverflow => 32
    | .walks => 4
    | .hopperCmds => 4
  else 0

/-- The requester number that stands for pool peers, which have no reserved share (R205, R324). -/
def peerVd : Nat := 64

/-- The share of a register that the home or the pool's own work takes with no request of a VD, as a recall of LOST_SET_SWEEP: like
peers' it draws on the shared remainder. -/
def ownShare : Nat := 65

/-- The mark of a write-back's register, which draws on no share, since a write-back never needs one (R205, R224). -/
def wbShare : Nat := 66

/-- The shared remainder of Table 06-2. -/
def State.sharedSize (s : State) (q : QueueId) : Nat :=
  q.size - (List.range 64).foldl (fun a v => a + s.reserve q v) 0

/-- Shared entries in use, given how many entries each VD holds. -/
def State.sharedUsed (s : State) (q : QueueId) (use : Nat → Nat) : Nat :=
  (List.range 66).foldl (fun a v => a + (use v - s.reserve q v)) 0

/-- R164: a VD may take an entry: one of its reserved share, or a free shared one. -/
def State.canTake (s : State) (q : QueueId) (use : Nat → Nat) (v : Nat) : Bool :=
  decide (use v < s.reserve q v) || decide (s.sharedUsed q use < s.sharedSize q)

/-- A request that arrives takes an entry at once: behind none of its own VD that waits, and where none of its reserved share is
free, past no waiting request at all, since the arbiter of R165 grants the shared ones. -/
def State.mayEnter (s : State) (q : QueueId) (use : Nat → Nat) (waiting : List Nat) (v : Nat) : Bool :=
  !waiting.contains v && (decide (use v < s.reserve q v) || (waiting.isEmpty && decide (s.sharedUsed q use < s.sharedSize q)))

/-- The count of a VD's grants in the round of its class. -/
def Ask.turn (y : Ask) : Nat := 4 * y.who + y.cls % 4

/-- R165: the arbiter's choice among waiting requests (oldest first): the position granted, and the arbiter after the grant. `pick` is the
turn within a weighted round; a round that ends begins anew for its own class. -/
def Arb.choose (a : Arb) (waiting : List Ask) (pick : Nat) : Option (Nat × Arb) :=
  let top := waiting.foldl (fun c y => max c y.cls) 0
  let lower := waiting.any fun y => decide (y.cls < top)
  if a.higher ≥ 16 ∧ lower then some (waiting.findIdx fun y => decide (y.cls < top), { a with higher := 0 })
  else
    let inTop := waiting.filter fun y => decide (y.cls = top)
    let left := inTop.filter fun y => decide (a.round.getD y.turn 0 < y.wt)
    let round : Tab Nat := if left.isEmpty then a.round.keep fun k _ => decide (k % 4 ≠ top % 4) else a.round
    match pickFrom (if left.isEmpty then inTop else left) pick with
    | none => none
    | some y =>
      some (waiting.findIdx fun z => decide (z.who = y.who),
        { higher := if lower then a.higher + 1 else 0, round := round.setD y.turn 0 (round.getD y.turn 0 + 1) })

/-- What a VD of this device asks with. -/
def State.ask (s : State) (v : Nat) : Ask := { share := v, who := v, cls := s.qosClass v, wt := s.qosWeight v }

/-- The turn of VD `v` of peer `d`. -/
def peerTurn (d v : Nat) : Nat := 100 + 64 * d + v

/-- What VD `v` of peer `d` asks with, under the QoS byte of its message. -/
def peerAsk (d v qos : Nat) : Ask := { share := peerVd, who := peerTurn d v, cls := qos % 4, wt := qos / 4 % 32 }

/-- A list less its element at a position. -/
def dropAt {α : Type} (xs : List α) (i : Nat) : List α := xs.take i ++ xs.drop (i + 1)

end Sys2Proof.Machine
end

