-- ==== Sys2Proof/Machine/Log.lean ====
section
/-! DEFINITION. Error records: their 64 bytes (Table 19-11), the management log, its coalescing and the fatal log (R525-R528). -/
namespace Sys2Proof.Machine

/-- One byte through the CRC-32 of R86: reflected polynomial 0xEDB88320. -/
def crcByte (c : BitVec 32) (b : Byte) : BitVec 32 :=
  (List.range 8).foldl (fun c _ => if c.getLsbD 0 then (c >>> 1) ^^^ 0xEDB88320 else c >>> 1) (c ^^^ b.setWidth 32)

/-- R86: the CRC-32 of IEEE 802.3. -/
def crc32 (bs : List Byte) : Nat := ((bs.foldl crcByte 0xFFFFFFFF) ^^^ 0xFFFFFFFF).toNat

/-- Table 19-11, bytes 0x00 to 0x3B. `vdRing` selects the column of the VD error ring, where nothing physical shows. -/
def Rec.body (r : Rec) (vdRing : Bool) : List Byte :=
  leBytes 8 r.time ++ leBytes 1 r.cls.code
    ++ leBytes 1 (b2n (!vdRing) + 2 * b2n r.tagged + 4 * b2n r.earlier + 8 * b2n r.remote)
    ++ leBytes 2 r.code ++ leBytes 2 r.status ++ leBytes 1 (if vdRing then 0xFF else r.vd) ++ leBytes 1 r.opcode
    ++ leBytes 4 (if r.tagged then r.tag else 0) ++ leBytes 2 r.stream
    ++ leBytes 1 (match r.device with | some d => 0x80 + d % 128 | none => 0)
    ++ leBytes 1 (if vdRing then 0xFF else r.meter) ++ leBytes 8 r.addr ++ leBytes 2 r.slice
    ++ leBytes 2 (if vdRing then 0xFFFF else r.unit) ++ leBytes 4 (if vdRing then 0 else r.level) ++ leBytes 4 r.count
    ++ leBytes 4 0 ++ leBytes 12 r.detail

/-- Table 19-11: the whole record, CHECK last. -/
def Rec.bytes (r : Rec) (vdRing : Bool) : List Byte := r.body vdRing ++ leBytes 4 (crc32 (r.body vdRing))

/-- R528: the classes that are coalesced. -/
def RecClass.coalesced : RecClass → Bool
  | .correctable => true | .poisoned => true | .protocol => true | _ => false

/-- R526, Table 19-12: the classes that the fatal log also takes. -/
def RecClass.isFatal : RecClass → Bool
  | .fatal => true | .deviceFatal => true | _ => false

/-- R562: the panel fault code of a record, CC-MM-UUUU. -/
def Rec.panelCode (r : Rec) : Option Nat :=
  if r.cls = .retirement ∨ r.cls = .fatal ∨ r.cls = .deviceFatal then some (r.cls.code * 2 ^ 24 + r.meter * 2 ^ 16 + r.unit) else none

/-- R564: an update is asked for. Before the boot draw nothing else starts one; while the comparator is asserted triggers are
lost (R567); without a panel nothing is sent. -/
def State.panelAsk (s : State) : State :=
  if s.straps.panel && s.panel.bootDrawn && !s.panel.comparator then { s with panel := { s.panel with waiting := true } } else s

/-- R564: the boot draw is due. -/
def State.bootDraw (s : State) : State :=
  if s.straps.panel && !s.panel.bootDrawn && !s.panel.comparator then { s with panel := { s.panel with waiting := true } } else s

/-- R527: a record enters the management log, over the oldest when the log is full, and the fatal log if it is fatal. -/
def State.logWrite (s : State) (r : Rec) : State :=
  let f := s.flt
  let full := decide (65536 ≤ f.log.length)
  let f1 := { f with
    log := (if full then f.log.drop 1 else f.log) ++ [r]
    logFirst := if full then f.logFirst + 1 else f.logFirst
    logLost := if full then f.logLost + 1 else f.logLost
    fatal := if r.cls.isFatal && decide (f.fatal.length < 256) then f.fatal ++ [r] else f.fatal }
  let s1 := { s with flt := f1 }
  match r.panelCode with
  | some c => { s1 with panel := { s1.panel with fresh := (c :: s1.panel.fresh).take 3 } }.panelAsk
  | none => s1

/-- R527, R528: post a record to the management log at the present time; a record of a coalesced class opens its second,
and one that falls in an open second is withheld and counted. -/
def State.post (s : State) (r0 : Rec) : State :=
  let r := { r0 with time := s.now }
  if r.cls.coalesced then
    let same (c : Coalesce) : Bool := decide (c.cls = r.cls) && decide (c.code = r.code) && decide (c.unit = r.unit)
    if s.flt.coalesce.any same then
      { s with flt := { s.flt with
          coalesce := s.flt.coalesce.map fun c => if same c then { c with withheld := c.withheld + r.count } else c } }
    else
      let s1 := s.logWrite r
      { s1 with flt := { s1.flt with coalesce := s1.flt.coalesce ++ [{ cls := r.cls, code := r.code, unit := r.unit }] } }
  else s.logWrite r

/-- A record of a condition whose panel code is one of Table 21-8. -/
def State.postAs (s : State) (r : Rec) (code : Nat) : State :=
  let s1 := s.post r
  { s1 with panel := { s1.panel with fresh := code :: s1.panel.fresh.drop 1 } }

/-! ### CXL event logs (R146, R147) -/

/-- R146: a record enters a log of a VD, or is counted as lost; the log's vector is raised as the policy says. -/
def State.event (s : State) (v log : Nat) (r : EvRec) : State :=
  let g := (s.vd v).logs.getD log {}
  let g1 : EvLog :=
    if 64 ≤ g.recs.length then { g with overflow := true, lost := g.lost + 1 }
    else { g with recs := g.recs ++ [{ r with time := s.now, handle := g.handle }], handle := g.handle + 1 }
  let s1 := s.modVd v fun x => { x with logs := x.logs.setD log {} g1 }
  match g.msix with
  | some m => s1.send (.msix v m)
  | none => s1

/-- R147: a device-wide event goes to every existing VD. -/
def State.eventAll (s : State) (log : Nat) (r : EvRec) : State := s.vdList.foldl (fun s v => s.event v log r) s

/-- Records limited to one per second for each place: whether this one may be written, and its note. -/
def State.limited (s : State) (kind who place : Nat) : Bool × State :=
  let same (l : Limit) : Bool := decide (l.kind = kind) && decide (l.who = who) && decide (l.place = place)
  if s.limits.any fun l => same l && decide (s.now < l.time + 10 ^ 9) then (false, s)
  else (true, { s with limits := (s.limits.filter fun l => !same l) ++ [{ kind := kind, who := who, place := place, time := s.now }] })

/-- The VD whose page holds a line of this device, and the line's VD address (R147, R180). -/
def State.lineOwner (s : State) (gl : Nat) : Option (Nat × Nat) :=
  if lineDev gl = s.pool.devnum then
    match s.slu.frames.find (lineFrame gl) with
    | some t => some (t.vd, t.page * 65536 + gl % 512 * 128)
    | none => none
  else none

/-- R180: the pages of a VD are encrypted in DRAM. -/
def State.encrypts (s : State) (v : Nat) : Bool := s.img.device.dramEncrypt && (s.img.vds.getD v {}).encrypt

/-- R180: what DRAM itself holds in the sector at a device offset / 32: `State.mem` is what the controller supplies, and a frame that its tag
gives to an encrypted VD holds that under the owner's key, with the sector's VD address / 32 as tweak. -/
def State.dramSector (s : State) (k : Nat) : BitVec 256 :=
  let plain : BitVec 256 := (readLine s.mem (k / 4 * 128)).extractLsb' (256 * (k % 4)) 256
  match s.slu.frames.find (k / 2048) with
  | some t =>
    match (s.vd t.vd).key with
    | some key => if s.encrypts t.vd then Config.xts key (t.page * 2048 + k % 2048) plain else plain
    | none => plain
  | none => plain

/-- R147: an event caused by a line goes to the VD that owns its address. -/
def State.lineEvent (s : State) (gl log : Nat) (r : EvRec) : State :=
  match s.lineOwner gl with
  | some (v, a) => s.event v log { r with dpa := a }
  | none => s

/-! ### Answers of the management island -/

/-- R548: the request at the front is answered, its buffer is free, and a message held under flow control takes it. -/
def State.mgmtFree (s : State) (h : MctpHdr) : State :=
  let m := s.mgmt
  if m.bufs.head? = some h then
    let bufs := m.bufs.drop 1
    let room := 8 - bufs.length
    { s with mgmt := { m with bufs := bufs ++ m.held.take room, held := m.held.drop room, busy := false } }
  else s

def State.mgmtAnswer (s : State) (h : MctpHdr) (cmd code : Nat) (vals : List Nat) : State := (s.mgmtFree h).send (.mgmt h cmd code vals)

end Sys2Proof.Machine
end

