-- ==== Sys2Proof/Machine/Gauge.lean ====
section
/-! DEFINITION. Gauges: bins (R534), windows (R535), captures and snapshots (R538, R539), and the events that they capture (R530-R533). -/
namespace Sys2Proof.Machine

/-! ### A gauge -/

def gSource (src : Nat) : Nat := src % 256
def gInst (src : Nat) : Nat := field src 8 8

/-- A rate source (Table 20-1). -/
def gRate (src : Nat) : Bool := [0x20, 0x21, 0x22, 0x23, 0x40].contains (gSource src)
/-- A level source. -/
def gLevel (src : Nat) : Bool := [0x10, 0x11, 0x12, 0x13, 0x14, 0x15, 0x16].contains (gSource src)

/-- R534: edge `e_i`. -/
def Gauge.edge (g : Gauge) (i : Nat) : Nat := if g.pow2 then g.base * 2 ^ (i - 1) else g.base + (i - 1) * g.step

/-- R534: the bin of a value: a value equal to an edge lies in the bin above it. -/
def Gauge.bin (g : Gauge) (v : Nat) : Nat := ((List.range 31).filter fun i => decide (g.edge (i + 1) ≤ v)).length

/-- R534: a setting that ENABLE accepts. -/
def Gauge.settingOk (g : Gauge) : Bool :=
  decide (g.edge 31 < 2 ^ 48) && (if g.pow2 then decide (1 ≤ g.base) else decide (1 ≤ g.step)) && decide (1000 ≤ g.wlen)
    && (!(gRate g.src || gLevel g.src) || (decide (100 ≤ g.period) && decide (g.wlen % g.period = 0)))

def satTo (m x : Nat) : Nat := min m x

/-- R531, R538: one value enters the captures; every accumulation saturates. -/
def Gauge.take (g : Gauge) (v0 : Nat) : Gauge :=
  let v := min v0 (2 ^ 48 - 1)
  let c := g.cur
  let b := g.bin v
  let n := c.bins.getD b 0
  let full := decide (2 ^ 64 ≤ c.sum + v) || decide (2 ^ 32 ≤ c.count + 1) || decide (2 ^ 32 ≤ n + 1)
  { g with cur := { c with min := min c.min v, max := max c.max v, sum := satTo (2 ^ 64 - 1) (c.sum + v), count := satTo (2 ^ 32 - 1) (c.count + 1)
                           sat := c.sat || full, bins := c.bins.setD b 0 (satTo (2 ^ 32 - 1) (n + 1)) } }

/-- R539, R541: windows that have ended by `now` are snapshotted; the last of them is the one that shows. -/
def Gauge.roll (g : Gauge) (now : Nat) : Gauge :=
  if g.enable && decide (0 < g.wlen) && decide (g.cur.start + g.wlen ≤ now) then
    if g.oneShot then { g with enable := false, done := true, seq := g.seq + 1, snap := g.cur, cur := {} }
    else
      let k := (now - g.cur.start) / g.wlen
      let last : Capture := if k = 1 then g.cur else { start := g.cur.start + (k - 1) * g.wlen }
      { g with seq := g.seq + BitVec.ofNat 32 k, snap := last, cur := { start := g.cur.start + k * g.wlen } }
  else g

/-- A value with a timestamp, captured by the window that holds the timestamp. -/
def Gauge.capture (g : Gauge) (at_ v : Nat) : Gauge :=
  let g1 := g.roll at_
  if g1.enable && decide (g1.cur.start ≤ at_) then g1.take v else g1

/-- R535, R541: the first window that starts at or after `t` on the grid of WSTART. -/
def gridFrom (wstart wlen t : Nat) : Nat := ((t : Int) + (((wstart : Int) - (t : Int)) % (wlen : Int))).toNat

/-- R541: ENABLE goes to 1 at `t`. -/
def Gauge.start (g : Gauge) (t : Nat) : Gauge :=
  let g1 := { g with done := false, missed := false }
  if g.oneShot then
    if t ≤ g.wstart then { g1 with enable := true, cur := { start := g.wstart } } else { g1 with missed := true, enable := false }
  else { g1 with enable := true, cur := { start := gridFrom g.wstart g.wlen t } }

/-- R542: the device joins a pool: the window is cut short, and the grid goes on in the new pool time. -/
def Gauge.cut (g : Gauge) (old new : Nat) : Gauge :=
  let g1 := g.roll old
  if g1.enable && g1.poolClock then
    let g2 : Gauge := if g1.cur.start ≤ old then { g1 with seq := g1.seq + 1, snap := { g1.cur with short := true } } else g1
    { g2 with cur := { start := if g.oneShot then g.wstart else gridFrom g.wstart g.wlen new } }
  else g1

/-! ### The device's gauges -/

def State.gauge (s : State) (g : Nat) : Gauge := s.gauges.getD g {}
def State.modGauge (s : State) (g : Nat) (f : Gauge → Gauge) : State := { s with gauges := s.gauges.setD g {} (f (s.gauge g)) }

/-- Pool time (R471). -/
def State.poolTime (s : State) : Nat := ((s.now : Int) + s.pool.offset).toNat

/-- A gauge's clock (R535). -/
def State.gaugeNow (s : State) (g : Gauge) : Nat := if g.poolClock then s.poolTime else s.now

/-- Windows that have ended: a rate gauge's window still takes the sample that closes it (R531). -/
def State.gaugeRoll (s : State) (n : Nat) : State :=
  s.modGauge n fun g => g.roll (if gRate g.src then s.gaugeNow g - 1 else s.gaugeNow g)

def State.gaugeRollAll (s : State) : State := (s.gauges.map (·.1)).foldl State.gaugeRoll s

/-- The VD of a view (R529). -/
def viewVd (n : Nat) : Option Nat := if 128 ≤ n then some ((n - 128) / 2) else none

/-- Sources whose INST names a slice. -/
def instSlice (src : Nat) : Bool := [0x04, 0x05, 0x08, 0x10, 0x11, 0x21].contains src
/-- Sources whose INST names a CXL port. -/
def instPort (src : Nat) : Bool := [0x01, 0x02, 0x13, 0x23].contains src

/-- R530: the physical instance that a gauge selects; a view names slices virtually, and its own port as 0. -/
def State.gaugeInst (s : State) (n : Nat) (g : Gauge) : Nat :=
  match viewVd n with
  | none => gInst g.src
  | some v =>
    if instPort (gSource g.src) then v / 16
    else if instSlice (gSource g.src) && decide (gInst g.src ≠ 255) then s.liveSlice (s.inv.physSlice (gInst g.src))
    else gInst g.src

/-- R530, R532: a gauge counts what belongs to a VD. -/
def Gauge.wants (n : Nat) (g : Gauge) (vd : Option Nat) : Bool :=
  match viewVd n with
  | some v => vd == some v
  | none => bit g.src 22 || (match vd with | some v => decide (field g.src 16 6 = v) | none => true)

/-- R533: an event of a source, at an instance, for a VD where the source is per VD. -/
def State.gaugeEvent (s : State) (src inst : Nat) (vd : Option Nat) (value : Nat) : State :=
  { s with gauges := s.gauges.mapVal fun n g =>
      if g.enable && decide (gSource g.src = src) && (s.gaugeInst n g == inst || gInst g.src == 255) && g.wants n vd then
        g.capture (s.gaugeNow g) value else g }

end Sys2Proof.Machine
end

