-- ==== Sys2Proof/Machine/Atomic.lean ====
section
/-! DEFINITION. Add-to-line reductions (R206-R209) and the atomic unit's operations (R211, R212) on one line. -/
namespace Sys2Proof.Machine

/-- Table 07-6: bytes of an element. -/
def redSize (fmt : Nat) : Nat := if fmt = 1 then 2 else 4

/-- Table 07-6: one element's sum, with whether it became the canonical NaN (R207) and whether it clamped. -/
def redElem (fmt old op : Nat) : Nat × Bool × Bool :=
  match fmt with
  | 0 => let x := addFp .fp32 old op; (x, decide (x = canonicalNan .fp32), false)
  | 1 => let x := addFp .bf16 old op; (x, decide (x = canonicalNan .bf16), false)
  | 2 => ((old + op) % 2 ^ 32, false, false)
  | _ =>
    let y := toSigned 32 old + toSigned 32 op
    let c := clampInt (-(2 ^ 31 : Nat)) ((2 ^ 31 : Nat) - 1) y
    (ofSigned 32 c, false, decide (c ≠ y))

/-- R208, R209: a reduction of a line, leaving the elements of the sectors in `skip` alone; with the counts of R215. -/
def redLine (fmt : Nat) (emask : BitVec 64) (skip : Sectors) (old op : Line) : Line × Nat × Nat :=
  let n := redSize fmt
  (List.range (128 / n)).foldl (fun (acc : Line × Nat × Nat) i =>
    if bit emask.toNat i && !bit skip.toNat (i * n / 32) then
      let (x, na, sa) := redElem fmt ((old.extractLsb' (8 * n * i) (8 * n)).toNat) ((op.extractLsb' (8 * n * i) (8 * n)).toNat)
      (putField acc.1 (8 * n * i) (8 * n) x, acc.2.1 + b2n na, acc.2.2 + b2n sa)
    else acc) (old, 0, 0)

/-- The bytes that a reduction's mask covers. -/
def redBytes (fmt : Nat) (emask : BitVec 64) : BitVec 128 :=
  BitVec.ofNat 128 (packBits 128 fun i => bit emask.toNat (i / redSize fmt))

/-- Table 07-7: the widths each code allows. -/
def atomicWidthOk (code width : Nat) : Bool :=
  match code with
  | 0 => width == 32 || width == 64 || width == 128
  | 2 => width == 32 || width == 64 || width == 128
  | 0xB => width == 32
  | c => decide (c ≤ 0xC) && (width == 32 || width == 64)

/-- R212: aligned to the operand width, with a width the code allows. -/
def atomicOk (code width off : Nat) : Bool := atomicWidthOk code width && decide (off % (width / 8) = 0)

/-- Table 07-7: the new value. -/
def atomicNew (code width old a b : Nat) : Nat :=
  let m := 2 ^ width
  let lt := decide (toSigned width a < toSigned width old)
  match code with
  | 0x0 => old
  | 0x1 => a % m
  | 0x2 => if old = b % m then a % m else old
  | 0x3 => (old + a) % m
  | 0x4 => if lt then a % m else old
  | 0x5 => if lt then old else a % m
  | 0x6 => min old (a % m)
  | 0x7 => max old (a % m)
  | 0x8 => old &&& (a % m)
  | 0x9 => old ||| (a % m)
  | 0xA => old ^^^ (a % m)
  | 0xB => addFp .fp32 old (a % m)
  | 0xC => if old ≥ a % m then 0 else old + 1
  | _ => old

/-- R207, Table 07-7: a FADD whose sum is the canonical NaN. -/
def atomicNan (code old a : Nat) : Bool := decide (code = 0xB) && decide (addFp .fp32 old (a % 2 ^ 32) = canonicalNan .fp32)

end Sys2Proof.Machine
end

