-- ==== Sys2Proof/Machine/Remote.lean ====
section
/-! DEFINITION. Remote operations of this device (R460) and its posted writes' entries (R462). -/
namespace Sys2Proof.Machine

/-- An S2M response (R142, R144, R152): the request is no longer outstanding, and unless the link has gone down since it was accepted
the answer is sent with the port's DevLoad; a BIConflict that waited for it is acknowledged (R233). -/
def State.hostAnswer (s : State) (p vd tag era : Nat) (data : Line) (pois : Sectors) (mv : Meta) : State :=
  let x := s.port p
  let isIt (o : Outst) : Bool := decide (o.tag = tag) && decide (o.vd = vd) && decide (o.era = era)
  let s1 := s.modPort p fun x => { x with outst := x.outst.filter fun o => !isIt o }
  let s2 := match x.outst.find? isIt with
    | some o => s1.gaugeEvent (if o.write then 0x02 else 0x01) p (some o.vd) (s.now - o.time)
    | none => s1
  if era ≠ x.era ∨ x.link ≠ 2 then s2
  else
    let s3 := s2.modPort p fun x => { x with conflicts := x.conflicts.filter fun c => decide (c.1 ≠ tag) }
    (x.conflicts.filter fun c => decide (c.1 = tag)).foldl (fun s c => s.send (.biConflictAck p c.2)) (s3.send (.s2m p tag data pois mv x.devLoad))

/-- A departed device's memory reads poison (R468). -/
def State.gone (s : State) (d : Nat) : Bool := s.pool.leaving || s.pool.departed.contains d || !bit s.pool.members.toNat d

/-- Remote-operation entries a requester holds (Table 06-2). -/
def State.useRemote (s : State) (v : Nat) : Nat := (s.pool.remote.filter fun r => decide (r.who.vd = v)).length

/-- The epoch in which an access was made: that in which its slice took it, that of its command (R169), or the VD's. -/
def State.epochOf (s : State) (w : Who) : BitVec 16 :=
  match w.made with
  | some e => e
  | none => (match w.cmd.bind s.cmd? with | some c => c.epoch | none => (s.vd w.vd).epoch)

/-- A remote operation takes an entry and is sent, or waits for one (R460): never past one that waits for the same VD, or for the
same line (R237). -/
def State.sendRemote (s : State) (r : RemoteOp) (m : OutMsg) : State :=
  if s.mayEnter .remoteOps s.useRemote (s.pool.remWait.map fun y => y.1.who.vd) r.who.vd
      && s.pool.remWait.all (fun y => decide (y.1.kind ≠ r.kind) || decide (y.1.line ≠ r.line)) then
    { s.send m with pool := { s.pool with remote := s.pool.remote ++ [{ r with sentAt := s.now }] } }
  else { s with pool := { s.pool with remWait := s.pool.remWait ++ [(r, m)] } }

/-- R462: the entry that a command's posted writes carry: its own, a free one, or one older than 1 s. -/
def State.depChoose (s : State) (w : Who) : Option Nat :=
  match s.pool.dep.find? fun e => decide (e.2.cmd = w.cmd) && decide (e.2.vd = w.vd) && !e.2.earlier && decide (e.2.epoch = s.epochOf w) with
  | some e => some e.1
  | none =>
    if Tab.gap s.pool.dep 0 < 4096 then some (Tab.gap s.pool.dep 0)
    else
      match s.pool.dep.foldl (fun a e => match a with | none => some e | some b => if e.2.time < b.2.time then some e else some b) (none : Option (Nat × DepEntry)) with
      | some e => if e.2.time + 10 ^ 9 < s.now then some e.1 else none
      | none => none

/-- A posted write or reduction takes or reuses its departed-write entry and travels. None where it must wait for an entry. -/
def State.postNow (s : State) (w : Who) (m : CohMsg) : Option State :=
  let op (t : Nat) : RemoteOp := { op := m.op, dev := m.dev, line := m.line, tag := t, who := w, epoch := s.epochOf w, posted := true, rtag := w.tag }
  match w.cmd with
  | none => some (s.sendRemote (op 0xFFFF) (.coh { m with tag := 0xFFFF }))
  | some _ =>
    (s.depChoose w).map fun i =>
      let same := match s.pool.dep.find i with | some e => decide (e.cmd = w.cmd) && decide (e.vd = w.vd) && !e.earlier | none => false
      let g := match s.pool.dep.find i with | some e => if same then e.gen else e.gen + 1 | none => 0
      let e : DepEntry := { vd := w.vd, epoch := s.epochOf w, stream := w.stream, tag := w.tag, gen := g, time := s.now, cmd := w.cmd }
      let s1 := { s with pool := { s.pool with dep := s.pool.dep.put i e } }
      let t := i + g.toNat * 4096
      s1.sendRemote (op t) (.coh { m with tag := t })

/-- A posted write or reduction: it travels, or waits for an entry, and never passes one that waits for the same VD or line (R237). -/
def State.sendPosted (s : State) (w : Who) (m : CohMsg) : State :=
  let wait : State := { s with pool := { s.pool with depWait := s.pool.depWait ++ [(w, m)] } }
  if s.pool.depWait.any fun y => decide (y.1.vd = w.vd) || decide (y.2.line = m.line) then wait else (s.postNow w m).getD wait

end Sys2Proof.Machine
end

