-- ==== Sys2Proof/Machine/Home.lean ====
section
/-!
DEFINITION. The home slice: line frames and their allocation (R194-R200), miss registers and waiter lists (R201-R205), and
the home's transactions on a line (Table 08-3, R221, R225, R226, R228-R232).
A choice the spec calls not architectural (a way, a recall victim) is the command's `pick` (notes/assumptions/7.md).
-/
namespace Sys2Proof.Machine

/-! ### Frames -/

/-- R92: the kind of a bay: 0 cache, 1 pinned, 2 rescue. -/
def State.bayKind (s : State) (n b : Nat) : Nat := (s.img.bays.getD n {}).kind / 4 ^ b % 4

/-- R194: the cache bays of a slice, ascending; a retired bay's way has left every set (R196). -/
def State.cacheBays (s : State) (n : Nat) : List Nat :=
  (List.range 18).filter fun b => decide (s.bayKind n b = 0) && !s.flt.bayRetired.contains (n * 18 + b)

/-- The frame that holds a line in a slice, and its key: set * 32 + bay. -/
def Slice.hit (x : Slice) (gl : Nat) : Option (Nat × Frame) :=
  x.frames.find? fun e => decide (e.2.st ≠ .i) && decide (e.2.line = gl)

/-- R192, R288: the byte of the pinned bays where a promoted line lies; a promotion slot is a quarter of a bay. -/
def State.slotOf (s : State) (gl : Nat) : Option Nat :=
  if lineDev gl = s.pool.devnum then
    (s.slu.promo.find? fun e => decide (e.2.frame = lineFrame gl) && decide (e.2.st ≠ .coming)).map fun e => e.1 * 65536 + lineOff gl % 65536
  else none

/-- R288: the line's home copy is a promotion slot. -/
def State.promoted (s : State) (gl : Nat) : Bool := (s.slotOf gl).isSome

/-- R195, R201: the register that a line has: its own, that of a bulk fill of its 2 KiB line, or the one whose list holds a waiter for it. -/
def Slice.missOf (x : Slice) (gl : Nat) : Option (Nat × Miss) :=
  match x.miss.find gl with
  | some m => some (gl, m)
  | none => x.miss.find? fun e => (e.2.bulk && decide (e.1 / 16 = gl / 16)) || e.2.waiters.any fun r => decide (r.line = gl)

/-- R195: a way of a set is choosable when no register is active on the line it holds, no waiter is attached to it, and no register keeps
it for a fill. -/
def State.ways (s : State) (n gl : Nat) : List Nat :=
  (s.cacheBays n).filter fun b =>
    let k := s.setOf gl * 32 + b
    let f := (s.slice n).frames.getD k {}
    (decide (f.st = .i) || ((s.slice n).missOf f.line).isNone) && (s.slice n).miss.all fun e => decide (e.2.way ≠ some k)

def State.setFrame (s : State) (n key : Nat) (f : Frame) : State :=
  s.modSlice n fun x => { x with frames := x.frames.setD key {} f }

/-- The line of a write-back from this device's proxy to its home (R200). -/
def wbMsg (f : Frame) : CohMsg := { op := .wb, dev := lineDev f.line, line := f.line, sec := f.d, data := f.data, pois := f.p &&& f.d }

/-- R223: a write-back goes to its home if the home has given a credit for it, and waits for one otherwise. -/
def State.sendWb (s : State) (m : CohMsg) : State :=
  let n := s.pool.wbOut.getD m.dev 0
  if n ≤ Config.wbCredits m.dev ∧ ¬ s.pool.wbHold.any (fun h => decide (h.dev = m.dev)) then
    { s with pool := { s.pool with wbOut := s.pool.wbOut.setD m.dev 0 (n + 1) } }.send (.coh m)
  else { s with pool := { s.pool with wbHold := s.pool.wbHold ++ [m] } }

/-- R223: a home returns a WB credit, and the oldest write-back that waits for one goes. -/
def State.wbCredit (s : State) (d : Nat) : State :=
  let s1 := { s with pool := { s.pool with wbOut := s.pool.wbOut.setD d 0 (s.pool.wbOut.getD d 0 - 1) } }
  match s.pool.wbHold.find? fun h => decide (h.dev = d) with
  | some m => { s1 with pool := { s1.pool with wbHold := s1.pool.wbHold.erase m, wbOut := s1.pool.wbOut.setD d 0 (s1.pool.wbOut.getD d 0 + 1) } }.send (.coh m)
  | none => s1

/-- R73: the stack of a line's channel leaves self-refresh. -/
def State.stackFor (s : State) (f : Nat) : State := { s with power := { s.power with refresh := s.power.refresh.erase (s.inv.chanOf f / 32) } }

/-- R200: a frame is emptied: dirty sectors of an H line go to DRAM, a dirty RE line sends WB and holds a register until
WB_ACK (R224), which draws on no share since a write-back never needs one (R205), and a clean line sends nothing. -/
def State.evict (s : State) (n key : Nat) : State :=
  let f := (s.slice n).frames.getD key {}
  let s1 := s.setFrame n key {}
  if f.d = 0 then s1
  else match f.st with
    | .h => (s1.stackFor (lineFrame f.line)).dramWrite (lineOff f.line) f.d f.data f.p
    | .re => (s1.sendWb (wbMsg f)).modSlice n fun x => { x with miss := x.miss.put f.line { phase := .wb, vd := wbShare } }
    | _ => s1

/-- A line frame for a line: a choosable way, emptied. -/
def State.freeWay (s : State) (n gl pick : Nat) : Option (Nat × State) :=
  (pickFrom (s.ways n gl) pick).map fun b => (s.setOf gl * 32 + b, s.evict n (s.setOf gl * 32 + b))

/-- R225: a line's transaction keeps its frame BUSY. -/
def State.busy (s : State) (n gl : Nat) : Bool := ((s.slice n).busyAt.find gl).isSome

/-- A home frame in a choosable way, whose sectors its caller makes valid in the same step (R197). -/
def State.allocFrame (s : State) (n gl pick : Nat) : Option (Nat × State) :=
  (s.freeWay n gl pick).map fun e => (e.1, e.2.setFrame n e.1 { st := .h, line := gl, busy := s.busy n gl })

/-! ### Data of a line -/

/-- R145, R199: the bytes of a mask merged into a line's sectors: whole sectors are replaced, a part of a sector is merged
unless the sector is poisoned, and poison of the data poisons the sector. Answers the bytes written, and the new poison. -/
def mergeMask (mask : BitVec 128) (oldP newP : Sectors) : BitVec 128 × Sectors :=
  let touched := bytesSectors mask
  let part := partialSectors mask
  let full := touched &&& ~~~ part
  (mask &&& sectorBytes (full ||| (part &&& ~~~ oldP)), (oldP &&& ~~~ full) ||| (newP &&& touched))

def Frame.merge (f : Frame) (mask : BitVec 128) (x : Line) (p : Sectors) : Frame :=
  let (m, p') := mergeMask mask f.p p
  let touched := bytesSectors mask
  { f with data := mergeLine m f.data x, p := p', v := f.v ||| touched, d := f.d ||| touched }

/-- The bytes of a mask go straight to DRAM. -/
def State.dramMerge (s : State) (a : Nat) (mask : BitVec 128) (x : Line) (p : Sectors) : State :=
  let (m, p') := mergeMask mask (poisonAt s.memPoison a) p
  { s with mem := writeLine s.mem a m x, memPoison := setPoison s.memPoison a (bytesSectors mask) p' }

/-- The bytes of a mask go to the pinned bay that holds the line's only copy (R192). -/
def State.bayMerge (s : State) (a : Nat) (mask : BitVec 128) (x : Line) (p : Sectors) : State :=
  let (m, p') := mergeMask mask (poisonAt s.bayPoison a) p
  { s with bays := writeLine s.bays a m x, bayPoison := setPoison s.bayPoison a (bytesSectors mask) p' }

/-- What the home holds of a line: valid sectors, data and poison. A pinned line is always valid (R193); of a line that no frame holds
DRAM has the data, and no sector is valid. -/
structure View where
  v : Sectors
  data : Line
  p : Sectors
  deriving DecidableEq, Repr

def State.view (s : State) (n gl : Nat) : View :=
  match s.slotOf gl with
  | some a => { v := 15, data := readLine s.bays a, p := poisonAt s.bayPoison a }
  | none =>
    match (s.slice n).hit gl with
    | some (_, f) => { v := f.v, data := f.data, p := f.p }
    | none => { v := 0, data := readLine s.mem (lineOff gl), p := poisonAt s.memPoison (lineOff gl) }

/-- The bytes of a mask written into the line where it is held: its slot, its frame, or else DRAM. -/
def State.storeLine (s : State) (n gl : Nat) (mask : BitVec 128) (x : Line) (p : Sectors) : State :=
  match s.slotOf gl with
  | some a => s.bayMerge a mask x p
  | none =>
    match (s.slice n).hit gl with
    | some (k, f) => s.setFrame n k (f.merge mask x p)
    | none => s.dramMerge (lineOff gl) mask x p

/-- All four sectors of the home's copy become poison (R235). -/
def State.poisonLine (s : State) (n gl : Nat) : State :=
  match s.slotOf gl with
  | some a => { s with bayPoison := setPoison s.bayPoison a 15 15 }
  | none =>
    match (s.slice n).hit gl with
    | some (k, f) => s.setFrame n k { f with v := 15, d := 15, p := 15 }
    | none => { s with memPoison := setPoison s.memPoison (lineOff gl) 15 15 }

/-- A line as the home would serve it now: its slot, or cached sectors over DRAM's. -/
def State.lineNow (s : State) (n gl : Nat) : Line × Sectors :=
  let w := s.view n gl
  (mergeLine (sectorBytes w.v) (readLine s.mem (lineOff gl)) w.data,
   (poisonAt s.memPoison (lineOff gl) &&& ~~~ w.v) ||| (w.p &&& w.v))

/-! ### Fills (R198) -/

/-- The sectors of a line that a burst supplies to its frame: those not already valid. -/
def Frame.fill (s : State) (f : Frame) (sec : Sectors) : Frame :=
  let new := sec &&& ~~~ f.v
  let p := poisonAt s.memPoison (lineOff f.line)
  { f with data := mergeLine (sectorBytes new) f.data (readLine s.mem (lineOff f.line)), v := f.v ||| new,
           p := (f.p &&& ~~~ new) ||| (p &&& new) }

/-- The fill of a line that has a frame; a bulk burst that it is part of marks it BULK (R197). -/
def State.fillLine (s : State) (n gl : Nat) (sec : Sectors) (bulk : Bool := false) : State :=
  match (s.slice n).hit gl with
  | some (k, f) => s.setFrame n k { f.fill s sec with bulk := f.bulk || bulk }
  | none => s

/-- The fill of a line into a way that was emptied for it. -/
def State.fillWay (s : State) (n gl key : Nat) (sec : Sectors) (bulk : Bool) : State :=
  s.setFrame n key (({ st := .h, line := gl, bulk := bulk, busy := s.busy n gl } : Frame).fill s sec)

/-- The 16 lines of a bulk line. -/
def bulkLines (gl : Nat) : List Nat := (List.range 16).map fun i => gl / 16 * 16 + i

/-- The other lines of a bulk burst: lines already present keep their frames and contents; missing lines take the same way where it
is choosable, and otherwise another way without the BULK flag. -/
def State.fillOthers (s : State) (n gl pick way : Nat) : State :=
  (bulkLines gl).foldl (fun s g =>
    if g = gl then s
    else
      match (s.slice n).hit g with
      | some _ => s.fillLine n g 15 true
      | none =>
        if (s.ways n g).contains way then
          let key := s.setOf g * 32 + way
          (s.evict n key).fillWay n g key 15 true
        else
          match s.freeWay n g pick with
          | some (k, s1) => s1.fillWay n g k 15 false
          | none => s) s

/-- A fill returns: into the frame that is present, or into the way kept for it; a bulk burst fills its 16 lines. -/
def State.fillInto (s : State) (n gl pick : Nat) (way : Option Nat) (sec : Sectors) (bulk : Bool) : State :=
  match (s.slice n).hit gl, way with
  | some (k, _), _ => if bulk then (s.fillLine n gl 15 true).fillOthers n gl pick (k % 32) else s.fillLine n gl sec
  | none, some k => if bulk then (s.fillWay n gl k 15 true).fillOthers n gl pick (k % 32) else s.fillWay n gl k sec false
  | none, none => s

/-! ### Regions (R95) -/

/-- R95: the region of a VD address, with its record number. -/
def State.regionAt (s : State) (v va : Nat) : Option (Nat × Region) :=
  ((List.range s.img.regions.length).zip s.img.regions).find? fun x =>
    decide (x.2.vd = v) && decide (x.2.base ≤ va) && decide (va < x.2.base + x.2.length)

/-- R95: the BULK and MEM_ATOMIC attributes of the page that holds a line of this device. -/
def State.attrs (s : State) (gl : Nat) : Bool × Bool :=
  match s.lineOwner gl with
  | some (v, a) => (match s.regionAt v a with | some (_, r) => (r.bulk, r.memAtomic) | none => (false, false))
  | none => (false, false)

def State.withAttrs (s : State) (r : Req) : Req := { r with bulk := (s.attrs r.line).1, memAtomic := (s.attrs r.line).2 }

/-! ### The directory -/

/-- A line of this device: its number is the device offset divided by 128. -/
def ownNum (gl : Nat) : Nat := gl % 2 ^ 34

/-- R217: the directory set of a line, with the slice whose region holds it. -/
def State.dirSet (s : State) (l : Nat) : Nat :=
  let p := s.inv.place (l * 128)
  p.ch / 4 * 2 ^ 20 + ((p.l % 2 ^ 20) ^^^ (p.ch % 4 * 2 ^ 18))

/-- R219: an entry with no bit set is FREE. -/
def DirEntry.mk' (st : DirState) (sh : BitVec 128) (h : BitVec 4) : DirEntry :=
  if sh = 0 ∧ h = 0 then {} else { st := st, sharers := sh, hosts := h }

def oneHot (n : Nat) {w : Nat} : BitVec w := BitVec.ofNat w (2 ^ n)

/-- Pool members other than this device, as a mask. -/
def State.peers (s : State) : BitVec 128 := s.pool.members &&& ~~~ oneHot s.pool.devnum

/-- Ports with a decoder committed as HDM-DB (R137). -/
def State.hdmPorts (s : State) : BitVec 4 :=
  BitVec.ofNat 4 (packBits 4 fun p => (s.img.ports.getD p {}).hdmDbAllowed &&
    (List.range 16).any fun l => (s.vd (16 * p + l)).decoders.any fun d => d.2.committed && d.2.bi)

/-- R519: the entry that the home acts on: in a LOST set, the first transaction on a line finds it shared with every member
and every port that has an HDM-DB decoder committed. -/
def State.dirEntry (s : State) (l : Nat) : DirEntry :=
  let set := s.dirSet l
  let x := s.slice (set / 2 ^ 20)
  if x.lostSets.contains (set % 2 ^ 20) && !x.lostKnown.contains l then
    DirEntry.mk' .shared s.peers s.hdmPorts
  else s.dir.getD l {}

def State.setDir (s : State) (l : Nat) (e : DirEntry) : State :=
  let set := s.dirSet l
  let s1 := { s with dir := s.dir.setD l {} e }
  if (s1.slice (set / 2 ^ 20)).lostSets.contains (set % 2 ^ 20) then
    s1.modSlice (set / 2 ^ 20) fun x => { x with lostKnown := if x.lostKnown.contains l then x.lostKnown else l :: x.lostKnown }
  else s1

/-- The entries of a directory set. -/
def State.dirWays (s : State) (l : Nat) : List Nat :=
  (s.dir.filter fun e => decide (s.dirSet e.1 = s.dirSet l)).map (·.1)

/-! ### Table 08-3 -/

/-- The snoops a request sends. -/
structure Snoops where
  devs : List (Nat × CohOp) := []
  hosts : List (Nat × BiOp) := []
  deriving DecidableEq, Repr

def Req.fromDev (r : Req) (d : Nat) : Bool := decide (r.src = .dev d)
def Req.fromHost (r : Req) (p : Nat) : Bool := decide (r.src = .host p)

/-- The requester is the recorded exclusive holder: it dropped its copy silently (R226). -/
def Req.isHolder (r : Req) (e : DirEntry) : Bool :=
  match e.st with
  | .exclRemote => (bitsOf 128 e.sharers.toNat).any r.fromDev
  | .exclHost => (bitsOf 4 e.hosts.toNat).any r.fromHost
  | _ => false

/-- Table 08-3: the snoops of each cell. -/
def snoopPlan (e : DirEntry) (r : Req) : Snoops :=
  let P := bitsOf 128 e.sharers.toNat
  let H := bitsOf 4 e.hosts.toNat
  let inv (ps hs : List Nat) : Snoops := { devs := ps.map fun d => (d, .snpInv), hosts := hs.map fun p => (p, .inv) }
  let excl (dop : CohOp) (hop : BiOp) : Snoops :=
    if r.isHolder e then {}
    else match e.st with
      | .exclRemote => { devs := P.map fun d => (d, dop) }
      | .exclHost => { hosts := H.map fun p => (p, hop) }
      | _ => {}
  match r.op with
  | .read => excl .snpData .data
  | .write => inv P H
  | .red => inv P H
  | .atomic => inv P H
  | .rdS => excl .snpData .data
  | .rdX => inv (P.filter fun d => !r.fromDev d) H
  | .upg => inv (P.filter fun d => !r.fromDev d) H
  | .rdNc => excl .snpCur .cur
  | .memRd =>
    match r.mv with
    | .shared => excl .snpData .data
    | .any => inv P (H.filter fun p => !r.fromHost p)
    | _ => excl .snpCur .cur
  | .memWr => inv P (H.filter fun p => !r.fromHost p)
  | .memClnEvct => {}

def Req.devBit (r : Req) : BitVec 128 := match r.src with | .dev d => oneHot d | _ => 0
def Req.hostBit (r : Req) : BitVec 4 := match r.src with | .host p => oneHot p | _ => 0

/-- R232, and the grant of a host read (Table 08-3). -/
def hostState (mv : Meta) (sh : BitVec 128) (h b : BitVec 4) : DirEntry :=
  match mv with
  | .shared => DirEntry.mk' .shared sh (h ||| b)
  | .any => DirEntry.mk' .exclHost 0 b
  | _ => DirEntry.mk' .shared sh (h &&& ~~~ b)

/-- Table 08-3: the resulting entry, given which snooped devices and hosts kept a copy (R228, BIRspS). -/
def finalDir (e : DirEntry) (r : Req) (keepDev : List Nat) (keepHost : List Nat) : DirEntry :=
  let kd : BitVec 128 := keepDev.foldl (fun a d => a ||| oneHot d) 0
  let kh : BitVec 4 := keepHost.foldl (fun a p => a ||| oneHot p) 0
  -- what a non-invalidating request leaves: the kept copies of an exclusive holder, or the sharers
  let (sh, h) : BitVec 128 × BitVec 4 :=
    if r.isHolder e then (0, 0)
    else match e.st with
      | .exclRemote => (kd, 0)
      | .exclHost => (0, kh)
      | _ => (e.sharers, e.hosts)
  match r.op with
  | .read => DirEntry.mk' .shared sh h
  | .write => {}
  | .red => {}
  | .atomic => {}
  | .rdS => DirEntry.mk' .shared (sh ||| r.devBit) h
  | .rdX => DirEntry.mk' .exclRemote r.devBit 0
  | .upg => DirEntry.mk' .exclRemote r.devBit 0
  | .rdNc =>
    if r.isHolder e then {}
    else match e.st with
      | .exclRemote => DirEntry.mk' .exclRemote kd 0
      | _ => e
  | .memRd =>
    match r.mv with
    | .shared => hostState .shared sh h r.hostBit
    | .any => hostState .any 0 0 r.hostBit
    | _ =>
      if r.isHolder e then {}
      else match e.st with
        | .exclRemote => DirEntry.mk' .exclRemote kd 0
        | _ => e
  | .memWr => hostState r.mv 0 0 r.hostBit
  | .memClnEvct =>
    match e.st with
    | .shared => DirEntry.mk' .shared e.sharers (e.hosts &&& ~~~ r.hostBit)
    | .exclHost => if r.isHolder e then hostState r.mv 0 0 r.hostBit else e
    | _ => e

/-- Table 08-3 for a request whose port's link has gone down since it was accepted, or whose device has departed: it holds nothing
(R152, R236). -/
def State.finalEntry (s : State) (e : DirEntry) (r : Req) (keepDev keepHost : List Nat) : DirEntry :=
  let e' := finalDir e r keepDev keepHost
  match r.src with
  | .host p => if r.era = (s.port p).era then e' else DirEntry.mk' e'.st e'.sharers (e'.hosts &&& ~~~ r.hostBit)
  | .dev d => if s.pool.departed.contains d then DirEntry.mk' e'.st (e'.sharers &&& ~~~ r.devBit) e'.hosts else e'
  | .loc => e'

/-! ### What a request needs and does -/

/-- Requests that change a line. -/
def ReqOp.changes : ReqOp → Bool
  | .write => true | .red => true | .atomic => true | .memWr => true | _ => false

/-- Table 07-5: the sectors that must be valid before the request is applied. -/
def Req.need (r : Req) : Sectors :=
  match r.op with
  | .read => bytesSectors r.bytes
  | .write => partialSectors r.bytes
  | .memWr => partialSectors r.bytes
  | .red => bytesSectors (redBytes r.fmt r.emask)
  | .atomic => oneHot (r.off / 32 % 4)
  | .rdS => 15
  | .rdX => 15
  | .upg => 15
  | .rdNc => bytesSectors r.bytes
  | .memRd => bytesSectors r.bytes
  | .memClnEvct => 0

/-- The sectors that a request covers. -/
def Req.covers (r : Req) : Sectors :=
  match r.op with
  | .write => bytesSectors r.bytes
  | .memWr => bytesSectors r.bytes
  | .red => r.need ||| r.pois
  | _ => r.need

/-- The request takes a frame if the line is absent (Table 07-5). -/
def Req.allocates (r : Req) : Bool :=
  decide (r.covers ≠ 0) &&
    match r.op with
    | .write => !r.noAlloc
    | .memClnEvct => false
    | _ => true

/-! ### The error ring (R177-R179) -/

/-- R177: a valid size, or none. -/
def ErrRing.size (r : ErrRing) : Nat := if 6 ≤ r.sizeLog2 ∧ r.sizeLog2 ≤ 12 then 2 ^ r.sizeLog2 else 0

/-- R178: one MSI-X message of the ring's vector, or one held back by the limit of one a microsecond. -/
def State.errMsix (s : State) (v : Nat) : State :=
  let r := (s.vd v).errRing
  if r.msixBusy then s.modVd v fun x => { x with errRing := { x.errRing with msixHeld := true } }
  else (s.send (.msix v r.vector)).modVd v fun x => { x with errRing := { x.errRing with msixBusy := true } }

/-- R178: the index of the next record to write: behind those whose writes are not performed yet. -/
def ErrRing.next (r : ErrRing) : Nat := if r.size = 0 then 0 else (r.tail + r.writing.length) % r.size

/-- R178: a record is lost because the ring is full or disabled. -/
def State.errLost (s : State) (v : Nat) : State :=
  s.modVd v fun x => { x with err := { x.err with ringOverflow := true }, errRing := { x.errRing with lost := x.errRing.lost + 1 } }

/-- R179: a record write failed. -/
def State.errFault (s : State) (v : Nat) : State :=
  s.modVd v fun x => { x with err := { x.err with ringFault := true }, errRing := { x.errRing with enable := false, lost := x.errRing.lost + 1 } }

/-- R304: a ring raises its vector, at most once in a microsecond. -/
def State.ringMsix (s : State) (v i : Nat) : State :=
  let r := s.ring v i
  if r.msixBusy then s.modRing v i fun r => { r with msixHeld := true }
  else (s.send (.msix v r.vector)).modRing v i fun r => { r with msixBusy := true }

/-- R303: the write of a completion record is performed: CQ_TAIL advances over the oldest records that are. -/
def State.cqDone (s : State) (v i va : Nat) : State :=
  let w := (s.ring v i).writing.map fun y => if y.1 = va then (va, true, y.2.2) else y
  let done := w.takeWhile fun y => y.2.1
  let s1 := s.modRing v i fun r => { r with writing := w.drop done.length, cqTail := r.cqTail + BitVec.ofNat 16 done.length }
  if done.any fun y => y.2.2 then s1.ringMsix v i else s1

/-- The ring of a VD with a record under way at an address. -/
def State.cqAt (s : State) (v va : Nat) : Option Nat := (List.range 16).find? fun i => (s.ring v i).writing.any fun y => decide (y.1 = va)

/-- R178, R303: the write of a record at an address is performed: TAIL, or CQ_TAIL of its ring, advances over the oldest records that are. -/
def State.recDone (s : State) (v va : Nat) : State :=
  match s.cqAt v va with
  | some i => s.cqDone v i va
  | none =>
    let g := (s.vd v).errRing
    let w := g.writing.map fun y => if y.1 = va then (va, true) else y
    let n := (w.takeWhile fun y => y.2).length
    let s1 := s.modVd v fun x => { x with errRing := { x.errRing with writing := w.drop n, tail := if g.size = 0 then 0 else (g.tail + n) % g.size } }
    if n = 0 then s1 else s1.errMsix v

/-- R302: a completion write failed: the ring's records are lost from then on. -/
def Ring.fault (r : Ring) : Ring := { r with enable := false, cqFault := true, discard := true, captured := 0, writing := [] }

/-- R179, R302: the write of a record at an address failed after it was sent; the records behind it, which no index can reach, are lost with
it (notes/assumptions/43.md). COMPLETION_WRITE_FAIL posts the error record of a ring's. -/
def State.recFailed (s : State) (v va : Nat) : State :=
  match s.cqAt v va with
  | some i => s.modRing v i fun r => { r.fault with cqLost := some va }
  | none =>
    let w := (s.vd v).errRing.writing
    let n := (w.takeWhile fun y => decide (y.1 ≠ va)).length
    if n < w.length then
      (s.errFault v).modVd v fun x => { x with errRing := { x.errRing with writing := w.take n, lost := x.errRing.lost + BitVec.ofNat 32 (w.length - n - 1) } }
    else s

/-! ### Requests of tasks and engines (notes/assumptions/26.md) -/

/-- A task, or an engine's command, whose access cannot be performed ends with a status and the VD address of the access (R305, R461). -/
def State.whoFailed (s : State) (w : Who) (st : Status) : State :=
  match w.cmd with
  | none => if w.errRec then s.recFailed w.vd w.va else s
  | some q =>
    let fin : Fin := { term := .faulted, status := st, addr := w.va }
    s.modCmd q fun c =>
      { c with
        tasks := c.tasks.map fun t =>
          if t.st = .running ∧ (t.fin.getD {}).term = .done ∧ (w.slice = none ∨ w.slice = some t.slice) then { t with fin := some fin } else t
        engineFin := if c.tasks.isEmpty then c.engineFin.map fun f => if f.term = .done then fin else f else c.engineFin }

/-- R145: a write of a part of a poisoned sector writes nothing into it, and the command ends POISONED: its task, or the command itself
where an engine serves it. -/
def State.whoPoisoned (s : State) (w : Who) : State :=
  match w.cmd with
  | none => s
  | some q => s.modCmd q fun c =>
    { c with tasks := c.tasks.map fun t => if w.slice = none ∨ w.slice = some t.slice then { t with poison := true } else t
             anyPoisoned := c.anyPoisoned || c.tasks.isEmpty }

/-- What a step of a task or an engine learns when its request ends: an atomic's old value, poison, or a failure. -/
def State.whoAnswer (s : State) (w : Who) (op : ReqOp) (st : Status) (old : Nat) : State :=
  if w.errRec then (if st = .ok ∨ st = .poisoned then s.recDone w.vd w.va else s.recFailed w.vd w.va) else
  match op, st, w.cmd with
  | .atomic, .ok, some q => s.modCmd q fun c => { c with old := some (some old) }
  | .atomic, .poisoned, some q => s.modCmd q fun c => { c with old := some none }
  | .read, _, _ => s
  | _, .ok, _ => s
  | _, .poisoned, _ => s.whoPoisoned w
  | _, _, _ => s.whoFailed w st

/-- R213: an atomic that executes at the memory controller. -/
def State.atController (s : State) (gl : Nat) (r : Req) : Bool :=
  decide (r.op = .atomic) && (r.memAtomic || r.bulk) && !s.promoted gl

/-- The answer to a finished request. -/
def State.answer (s : State) (gl : Nat) (r : Req) (st : Status) (data : Line) (p : Sectors) (e : DirEntry) : State :=
  let m (op : CohOp) (d : Nat) : CohMsg :=
    { op := op, dev := d, line := gl, tag := r.tag, vd := r.vd, sec := bytesSectors r.bytes, bytes := r.bytes, data := data, pois := p, status := st }
  match r.src with
  | .loc => (match r.who with | some w => s.whoAnswer w r.op st data.toNat | none => s.send (.rsp r.tag st data p))
  | .host hp =>
    s.hostAnswer hp r.vd r.tag r.era data p (match r.op, r.mv with | .memRd, .shared => .shared | .memRd, .any => .any | _, _ => .inv)
  | .dev d =>
    if s.pool.departed.contains d then s else
    match r.op with
    | .rdS => s.send (.coh { m .fillS d with sec := 15 })
    | .rdX => s.send (.coh { m .fillE d with sec := 15 })
    | .upg => if decide (e.st = .shared) && bit e.sharers.toNat d then s.send (.coh (m .cmpE d)) else s.send (.coh { m .fillE d with sec := 15 })
    | .rdNc => s.send (.coh (m .rdDat d))
    | .atomic => s.send (.coh (m .rdDat d))
    | _ => s.send (.coh (m .cmp d))

/-- The device whose GNT_ACK a grant waits for (R225). -/
def Req.granted (r : Req) : List Nat :=
  match r.src, r.op with
  | .dev d, .rdS => [d]
  | .dev d, .rdX => [d]
  | .dev d, .upg => [d]
  | _, _ => []

/-- Sectors of a line that a Runner's cache of at most `cap` lines has read: they replace an older copy of the line, so that a copy holds
one value of it (R240). A full cache gives up a line, the `pick`th (notes/assumptions/7.md). -/
def cacheTake (t : Tab L1Line) (cap pick gl : Nat) (v : Sectors) (data : Line) : Tab L1Line :=
  if v = 0 ∨ cap = 0 then t
  else
    let t1 := if (t.find gl).isSome ∨ t.length < cap then t
              else match t[pick % t.length]? with | some e => t.del e.1 | none => t
    t1.put gl { v := v, data := data }

/-- R238: the sectors of a line that a Runner reads become its first-level copy. -/
def State.l1Take (s : State) (n gl : Nat) (v : Sectors) (data : Line) (pick : Nat := 0) : State :=
  s.modSlice n fun x => { x with l1 := cacheTake x.l1 x.l1Cap pick gl v data }

/-- R238: a store of the Runner updates a copy that is present, poison with it (R145). -/
def State.l1Store (s : State) (n gl : Nat) (mask : BitVec 128) (data : Line) (p : Sectors) : State :=
  s.modSlice n fun x =>
    match x.l1.find gl with
    | some old =>
      let (m, p') := mergeMask mask old.p p
      { x with l1 := x.l1.put gl { old with data := mergeLine m old.data data, p := p' } }
    | none => x

/-- R238: what a request does to the first-level cache of the Runner that made it; `v` are the sectors supplied unpoisoned. -/
def State.touchL1 (s : State) (gl : Nat) (r : Req) (v : Sectors) (data : Line) : State :=
  match r.l1, r.op with
  | some n, .read => s.l1Take n gl v data
  | some n, .write => s.l1Store n gl r.bytes r.data r.pois
  | _, _ => s

def Req.fromPeer (r : Req) : Bool := match r.src with | .dev _ => true | _ => false

/-- R463: the management record of a posted write that the home cannot perform. -/
def State.deferredRecord (s : State) (r : Req) (st : Status) : State :=
  s.post { cls := .deferredWrite, status := st.code, vd := r.vd, addr := r.line * 128,
           device := match r.src with | .dev d => some d | _ => none }

/-- R215: elements that R207 set to the canonical NaN, and INT32_SAT elements that clamped, at a slice. -/
def State.countNan (s : State) (n k : Nat) : State := s.modSlice n fun y => { y with redNan := y.redNan + BitVec.ofNat 32 k }
def State.countSat (s : State) (n k : Nat) : State := s.modSlice n fun y => { y with redSat := y.redSat + BitVec.ofNat 32 k }

/-- The request is applied at the home: data, counters, directory and answer (R199, R208, R209, R211, R212, Table 08-3).
Every sector it needs is valid. -/
def State.applyReq (s : State) (n gl : Nat) (r : Req) (e e' : DirEntry) : State :=
  let w := s.view n gl
  let s1 := (s.setDir (ownNum gl) e')
  match r.op with
  | .write =>
    let hurt := decide (partialSectors r.bytes ≠ 0) && decide (partialSectors r.bytes &&& (s.lineNow n gl).2 ≠ 0)
    if r.fromPeer && hurt then
      -- R463: the merge of a partial sector reads poison
      ((s1.storeLine n gl (sectorBytes (bytesSectors r.bytes)) 0 (bytesSectors r.bytes)).deferredRecord r .poisoned).answer gl r .poisoned 0 0 e
    else ((s1.storeLine n gl r.bytes r.data r.pois).touchL1 gl r 0 r.data).answer gl r (if hurt then .poisoned else .ok) 0 0 e
  | .memWr => (s1.storeLine n gl r.bytes r.data r.pois).answer gl r .ok 0 0 e
  | .red =>
    let (x, nan, sat) := redLine r.fmt r.emask (w.p ||| r.pois) w.data r.data
    let s2 := s1.storeLine n gl (redBytes r.fmt r.emask &&& sectorBytes (~~~ (w.p ||| r.pois))) x 0
    let s3 := s2.storeLine n gl (sectorBytes r.pois) 0 r.pois
    ((s3.countNan n nan).countSat n sat).answer gl r .ok 0 0 e
  | .atomic =>
    let old := (w.data.extractLsb' (8 * r.off) r.width).toNat
    if bit w.p.toNat (r.off / 32) then s1.answer gl r .poisoned (BitVec.ofNat 1024 old) 15 e
    else
      let x := putField 0 (8 * r.off) r.width (atomicNew r.atop r.width old r.opA r.opB)
      let mask := BitVec.ofNat 128 ((2 ^ (r.width / 8) - 1) * 2 ^ r.off)
      let s2 := s1.countNan n (b2n (atomicNan r.atop old r.opA))
      (s2.storeLine n gl mask x 0).answer gl r .ok (BitVec.ofNat 1024 old) 0 e
  | .memClnEvct => s1.answer gl r .ok 0 0 e
  | _ =>
    let p := w.p &&& r.need
    (s1.touchL1 gl r (w.v &&& ~~~ w.p) w.data).answer gl r (if p = 0 then .ok else .poisoned) w.data p e

/-! ### Transactions -/

/-- A holder's bit leaves a line's entry (R228, R235, R236); an entry with no bit left is FREE. -/
def State.dropHolder (s : State) (l : Nat) (dev : Nat) : State :=
  let e := s.dirEntry l
  if bit e.sharers.toNat dev then s.setDir l (DirEntry.mk' e.st (e.sharers &&& ~~~ oneHot dev) e.hosts) else s

/-- A host port's bit leaves a line's entry (R140, R152). -/
def State.dropHost (s : State) (l : Nat) (p : Nat) : State :=
  let e := s.dirEntry l
  if bit e.hosts.toNat p then s.setDir l (DirEntry.mk' e.st e.sharers (e.hosts &&& ~~~ oneHot p)) else s

/-- R236: a snoop that would go to a departed device counts as answered, and its bit is cleared; a line it owned is poisoned. DESIGN CHOICE
(notes/assumptions/52.md): no RSP_NP has been received, so that DIR_STALE_SNP_CNT stays. -/
def State.dropDeparted (s : State) (n gl : Nat) (e : DirEntry) (sn : Snoops) : Snoops × State :=
  let gone := sn.devs.filter fun x => s.pool.departed.contains x.1
  let s1 := if !gone.isEmpty && decide (e.st = .exclRemote) then s.poisonLine n gl else s
  ({ sn with devs := sn.devs.filter fun x => !s.pool.departed.contains x.1 }, gone.foldl (fun s x => s.dropHolder (ownNum gl) x.1) s1)

/-- Send the snoops of a transaction (R222). -/
def State.sendSnoops (s : State) (gl : Nat) (sn : Snoops) : State :=
  let s1 := sn.devs.foldl (fun s x => s.send (.coh { op := x.2, dev := x.1, line := gl })) s
  sn.hosts.foldl (fun s x => s.send (.bisnp x.1 gl x.2)) s1

/-- R225: an H frame's BUSY flag. -/
def State.setBusy (s : State) (n gl : Nat) (b : Bool) : State :=
  let s1 := match (s.slice n).hit gl with
    | some (k, f) => if f.st = .h then s.setFrame n k { f with busy := b } else s
    | none => s
  match b, (s.slice n).busyAt.find gl with
  | true, none => s1.modSlice n fun x => { x with busyAt := x.busyAt.put gl s.now }
  | false, some t => (s1.modSlice n fun x => { x with busyAt := x.busyAt.del gl }).gaugeEvent 0x08 n none (s.now - t)
  | _, _ => s1

/-- R228: dirty sectors that a holder returned, into the home's H frame, which is BUSY while the line's transaction runs. -/
def State.mergeHome (s : State) (n gl pick : Nat) (sec : Sectors) (d : Line) (p : Sectors) : State :=
  let s1 := if s.promoted gl || ((s.slice n).hit gl).isSome || decide (sec = 0) then s
            else match s.allocFrame n gl pick with | some (_, s1) => s1 | none => s
  s1.storeLine n gl (sectorBytes sec) d p

/-- A register takes its contents; it keeps the time at which it was allocated. -/
def State.putReg (s : State) (n gl : Nat) (m : Miss) : State :=
  s.modSlice n fun x => { x with miss := x.miss.put gl { m with since := match x.miss.find gl with | some o => o.since | none => s.now } }

/-- The register's contents while snoops are out. -/
def snoopMiss (r : Option Req) (vd : Nat) (sn : Snoops) : Miss :=
  { phase := .snoop, vd := vd, req := r, snpDev := sn.devs.map (·.1),
    snpHost := sn.hosts.flatMap fun x => [(x.1, 0), (x.1, 1)] }

/-- The requester number whose share of a slice's queues a request draws on (R205). -/
def Req.share (r : Req) : Nat := match r.src with | .dev _ => peerVd | _ => r.vd

/-- The input queue that a request waits in (R205): its VD's, and for a pool peer that of the originating VD. -/
def Req.inqId (r : Req) : Nat := match r.src with | .dev d => peerTurn d r.vd | _ => r.vd

/-- What a request asks the arbiter of a slice's queue with (R205). -/
def State.reqAsk (s : State) (r : Req) : Ask := match r.src with | .dev d => peerAsk d r.vd r.qos | _ => s.ask r.vd

/-- The requests at the heads of a slice's input queues (R205), those behind an earlier one for their line left out (R142, R203). -/
def inqHeads : List Req → List Nat → List Nat → List Req
  | [], _, _ => []
  | r :: t, ids, lines =>
    let rest := inqHeads t (r.inqId :: ids) (r.line :: lines)
    if ids.contains r.inqId || lines.contains r.line then rest else r :: rest

/-- The queue whose entry a request at the head of its input queue needs: a waiter where its line has a register, else a register. -/
def Slice.needs (x : Slice) (n : Nat) (r : Req) : QueueId := if (x.missOf r.line).isSome then .waiters n else .missRegs n

/-- The register is held while its request waits, and is active on no line (R195, R201). -/
def Miss.waits (m : Miss) : Bool := decide (m.phase = .way) || decide (m.phase = .dirFull)

/-- The bulk burst of a line may start: no register is active on another of its 16 lines (R201). One that only waits goes on after the
burst. -/
def State.bulkFree (s : State) (n gl : Nat) : Bool :=
  (s.slice n).miss.all fun e => decide (e.1 / 16 ≠ gl / 16) || decide (e.1 = gl) || e.2.waits

/-- The grants of a request that a device still in the pool acknowledges (R225, R236). -/
def State.grants (s : State) (r : Req) : List Nat := r.granted.filter fun d => !s.pool.departed.contains d

/-- A request whose sectors are all valid is applied. A grant holds the line BUSY until its device has acknowledged it (R225). -/
def State.finish (s : State) (n gl : Nat) (r : Req) (kd kh : List Nat) : State × Option Miss :=
  let e := s.dirEntry (ownNum gl)
  let s1 := s.applyReq n gl r e (s.finalEntry e r kd kh)
  if (s.grants r).isEmpty then (s1, none)
  else (s1.setBusy n gl true, some { phase := .grant, vd := r.share, gnt := s.grants r })

/-- After every snoop is answered: fetch what is missing, apply, answer, and wait for the grant's acknowledgement. A fill keeps the
way that it will take; a slice whose last cache bay has retired has none, and serves the line from DRAM (R196). Answers the register's
contents while the transaction goes on, and none when it has ended. -/
def State.dataPhase (s : State) (n gl pick : Nat) (r : Req) (kd kh : List Nat) : State × Option Miss :=
  let mk (ph : Phase) (fill : Sectors) (way : Option Nat) : Miss :=
    { phase := ph, vd := r.share, way := way, req := some r, bulk := r.bulk && decide (ph = .fill), fill := fill, keepDev := kd, keepHost := kh }
  let allocates := r.allocates && !(s.cacheBays n).isEmpty
  if s.atController gl r then
    if r.bulk && !s.bulkFree n gl then (s, some (mk .way 0 none))
    else
      -- R213: write back, free the frames of the line (of the whole bulk line), then the controller runs
      let s1 := (if r.bulk then bulkLines gl else [gl]).foldl (fun s g => match (s.slice n).hit g with | some (k, _) => s.evict n k | none => s) s
      (s1, some (mk .controller 0 none))
  else
    let w := s.view n gl
    let miss := r.need &&& ~~~ w.v
    let present := s.promoted gl || ((s.slice n).hit gl).isSome
    if miss ≠ 0 ∧ r.bulk ∧ (present ∨ allocates) ∧ !s.bulkFree n gl then (s, some (mk .way 0 none))
    else if present then
      if miss = 0 then s.finish n gl r kd kh else (s, some (mk .fill miss none))
    else if allocates then
      if miss = 0 then
        match s.allocFrame n gl pick with
        | none => (s, some (mk .way 0 none))
        | some (_, s1) => s1.finish n gl r kd kh
      else
        match s.freeWay n gl pick with
        | none => (s, some (mk .way 0 none))
        | some (k, s1) => (s1, some (mk .fill miss (some k)))
    else if miss = 0 then s.finish n gl r kd kh else (s, some (mk .merge miss none))

/-- The request needs a directory entry that does not exist (R221). -/
def Req.needsEntry (r : Req) (e : DirEntry) : Bool :=
  decide (e.st = .free) && decide ((finalDir e r [] []).st ≠ .free)

/-- BISnp outstanding on a port: each covers the two halves of a line. -/
def State.biOut (s : State) (p : Nat) : Nat :=
  s.slices.foldl (fun a e => e.2.miss.foldl (fun a m => a + b2n (m.2.snpHost.any fun h => decide (h.1 = p))) a) 0

/-- Table 05-5: 256 outstanding BISnp on a port and 1024 on the device; a home that needs one more waits. -/
def State.biRoom (s : State) (sn : Snoops) : Bool :=
  (sn.hosts.all fun x => decide (s.biOut x.1 < 256))
    && decide ((List.range 4).foldl (fun a p => a + s.biOut p) 0 + sn.hosts.length ≤ 1024)

/-- The snoops that end every copy of a line (R221, R226). -/
def DirEntry.takeAll (e : DirEntry) : Snoops :=
  { devs := (bitsOf 128 e.sharers.toNat).map fun d => (d, .snpInv), hosts := (bitsOf 4 e.hosts.toNat).map fun p => (p, .inv) }

/-- Miss registers and waiters each requester holds at a slice (R205). -/
def Slice.useMiss (x : Slice) (v : Nat) : Nat := (x.miss.filter fun e => decide (e.2.vd = v)).length
def Slice.useWait (x : Slice) (v : Nat) : Nat :=
  x.miss.foldl (fun a e => a + (e.2.waiters.filter fun r => decide (r.share = v)).length) 0

/-- A home transaction that ends every copy of a line, with no request of its own: a register is taken and its snoops are out. None
where a register or room for a BISnp is missing (Tables 06-2, 05-5). -/
def State.takeCopies (s : State) (n gl share : Nat) : Option State :=
  let (sn, s1) := s.dropDeparted n gl (s.dirEntry (ownNum gl)) (s.dirEntry (ownNum gl)).takeAll
  if sn.devs.isEmpty && sn.hosts.isEmpty then some (s1.setDir (ownNum gl) {})
  else if !s1.biRoom sn || !s1.canTake (.missRegs n) (s1.slice n).useMiss share then none
  else some (((s1.sendSnoops gl sn).setBusy n gl true).putReg n gl (snoopMiss none share sn))

/-- R221: a recall of one entry of the set: a home transaction on the victim line. -/
def State.recall (s : State) (n l share : Nat) : Option State :=
  (s.takeCopies n (s.ownLine l) share).map fun s1 => s1.modSlice n fun x => { x with dirRecall := x.dirRecall + 1 }

/-- The snoops of a request, or its data, once the directory has an entry for it. -/
def State.startReq (s : State) (n gl pick : Nat) (r : Req) : State × Option Miss :=
  let e := s.dirEntry (ownNum gl)
  let (sn, s1) := s.dropDeparted n gl e (snoopPlan e r)
  if sn.devs.isEmpty && sn.hosts.isEmpty then s1.dataPhase n gl pick r [] []
  else if !s1.biRoom sn then (s, some { phase := .dirFull, vd := r.share, req := some r })
  else ((s1.sendSnoops gl sn).setBusy n gl true, some (snoopMiss (some r) r.share sn))

/-- R221: transactions on other lines of the set that have yet to write an entry: each has a way of the set coming to it. -/
def State.dirComing (s : State) (l : Nat) : Nat :=
  s.slices.foldl (fun a x => a + (x.2.miss.filter fun m =>
    decide (lineDev m.1 = s.pool.devnum) && decide (ownNum m.1 ≠ l) && !decide (m.2.phase = .dirFull) && decide (s.dirSet (ownNum m.1) = s.dirSet l)
      && m.2.req.any fun r => r.needsEntry (s.dirEntry (ownNum m.1))).length) 0

/-- A request meets the line with no transaction in progress (R226). In a full directory set it waits for a recall, one at a time
(R221). -/
def State.tryReq (s : State) (n gl pick : Nat) (r : Req) : State × Option Miss :=
  let l := ownNum gl
  let wait : Miss := { phase := .dirFull, vd := r.share, req := some r }
  if r.needsEntry (s.dirEntry l) && decide (8 ≤ (s.dirWays l).length + s.dirComing l) then
    let regs := (s.dirWays l).filterMap fun v => (s.slice (s.sliceOf (s.ownLine v))).missOf (s.ownLine v)
    let vict := (s.dirWays l).filter fun v => ((s.slice (s.sliceOf (s.ownLine v))).missOf (s.ownLine v)).isNone
    if regs.any fun m => m.2.req.isNone && decide (m.2.phase = .snoop) then (s, some wait)
    else
      match (pickFrom vict pick).bind fun v => s.recall (s.sliceOf (s.ownLine v)) v r.share with
      | none => (s, some wait)
      | some s1 => if (s1.dirWays l).length + s1.dirComing l < 8 then s1.startReq n gl pick r else (s1, some wait)
  else s.startReq n gl pick r

/-! ### The proxy (R190, R216, R224, R231) -/

/-- On whose behalf a request is made. -/
def Req.onBehalf (r : Req) : Who := match r.who with | some w => { w with made := some r.epoch } | none => { vd := r.vd, va := r.dpa }

def Req.ofHost (r : Req) : Bool := match r.src with | .host _ => true | _ => false

/-- The entry of a request that its proxy sends on. -/
def State.reqOp (s : State) (r : Req) (op : CohOp) : RemoteOp :=
  { op := op, dev := lineDev r.line, line := r.line, tag := r.tag, who := r.onBehalf, epoch := s.epochOf r.onBehalf, src := r.src, rtag := r.tag, era := r.era }

/-- The message of a request that its proxy sends on. -/
def Req.msg (r : Req) (op : CohOp) : CohMsg :=
  { op := op, dev := lineDev r.line, line := r.line, tag := r.tag, vd := r.vd, sec := bytesSectors r.bytes, bytes := r.bytes, data := r.data,
    pois := r.pois, fmt := r.fmt, emask := r.emask, atop := r.atop, width := r.width, off := r.off, opA := r.opA, opB := r.opB }

/-- R468: the record of an access to a departed device, limited to one a second for each VD and 2 MiB page. -/
def State.goneRecord (s : State) (v gl : Nat) : State :=
  match s.limited 1 v (gl / 16384) with
  | (false, s1) => s1
  | (true, s1) => s1.post { cls := .deviceGone, vd := v, addr := gl * 128, device := some (lineDev gl), status := Status.deviceGone.code }

/-- R468: a request for a line of a departed device: poison, and DEVICE_GONE. -/
def State.goneAnswer (s : State) (r : Req) : State := (s.answer r.line r .deviceGone 0 15 {}).goneRecord r.vd r.line

/-- The requester is answered from the proxy's copy. -/
def State.proxyServe (s : State) (n gl : Nat) (r : Req) (k : Nat) (f : Frame) : State :=
  if r.op.changes then
    let f1 := f.merge r.bytes r.data r.pois
    let hurt := decide (partialSectors r.bytes &&& f.p ≠ 0)
    ((s.setFrame n k f1).touchL1 gl r 0 r.data).answer gl r (if hurt then .poisoned else .ok) 0 0 {}
  else
    let p := f.p &&& bytesSectors r.bytes
    (s.touchL1 gl r (f.v &&& ~~~ f.p) f.data).answer gl r (if p = 0 then .ok else .poisoned) f.data p {}

/-- A request at the proxy slice. A write is posted to the home unless the proxy holds the line RE or takes it so. A host's write is
always posted, and its read is a RD_NC (R231) unless the proxy holds the line RE, for which it sends none (R224). A RD_NC holds the line's
register, so that later requests to the line complete after it (R142, R203). -/
def State.proxyTry (s : State) (n gl pick : Nat) (r : Req) : State × Option Miss :=
  let wait (ph : Phase) : Miss := { phase := ph, vd := r.share, req := some r }
  let post (op : CohOp) : State × Option Miss :=
    let s1 := (s.sendPosted r.onBehalf (r.msg op)).touchL1 gl r 0 r.data
    -- an error record counts as written when its CMP arrives (R178)
    (if r.onBehalf.errRec then s1 else s1.answer gl r .ok 0 0 {}, none)
  let readNc : State × Option Miss := (s.sendRemote (s.reqOp r .rdNc) (.coh (r.msg .rdNc)), some (wait .remote))
  if s.gone (lineDev gl) then (s.goneAnswer r, none)
  else
    match r.op, (s.slice n).hit gl with
    | .red, _ => post .red
    | .atomic, _ => (s.sendRemote (s.reqOp r .atom) (.coh (r.msg .atom)), none)
    | .memClnEvct, _ => (s.answer gl r .ok 0 0 {}, none)
    | op, some (k, f) =>
      if r.ofHost then
        if op.changes then post .wrNc
        else if f.st = .re then (s.proxyServe n gl r k f, none)
        else readNc
      else if !op.changes || decide (f.st = .re) then (s.proxyServe n gl r k f, none)
      else if r.own then (s.sendRemote (s.reqOp r .upg) (.coh (r.msg .upg)), some { wait .remote with upgSent := true })
      else post .wrNc
    | op, none =>
      if op.changes && !r.own then post .wrNc
      else if decide (op = .memRd) || r.noAlloc then readNc
      else
        let m : CohOp := if op.changes then .rdX else .rdS
        match s.freeWay n gl pick with
        | none => (s, some (wait .way))
        | some (k, s1) => (s1.sendRemote (s1.reqOp r m) (.coh (r.msg m)), some { wait .remote with way := some k })

/-- R168: the request of a command whose epoch has passed. -/
def State.stale (s : State) (r : Req) : Bool :=
  match r.who with | some w => w.cmd.isSome && decide (r.epoch ≠ (s.vd w.vd).epoch) | none => false

/-- A request at the slice that serves its line: the home, or the proxy. One of an old epoch is not begun (R168), and a write that has been
performed only completes. -/
def State.serve (s : State) (n gl pick : Nat) (r : Req) : State × Option Miss :=
  if r.performed then (s.answer gl r .ok 0 0 {}, none)
  else if s.stale r then (s, none)
  else if lineDev gl = s.pool.devnum then s.tryReq n gl pick r else s.proxyTry n gl pick r

/-- R202: the register passes from the line of an ended transaction to the next transaction that a waiter needs; `m` is what it does now.
A write-back's register was no request's, so that a waiter that needs one must find one free (R205), and else waits in its input queue. -/
def State.takeOver (s0 s1 : State) (n gl : Nat) (r : Req) (ws : List Req) (m : Miss) : State :=
  let o := ((s0.slice n).miss.find gl).getD m
  if o.vd = wbShare ∧ !(s0.modSlice n fun x => { x with miss := x.miss.del gl }).canTake (.missRegs n) (s0.slice n).useMiss r.share then
    s0.modSlice n fun x => { x with miss := x.miss.del gl, inq := r :: ws ++ x.inq }
  else
    s1.modSlice n fun x => { x with miss := (x.miss.del gl).put r.line { m with vd := if o.vd = wbShare then r.share else o.vd, since := o.since, waiters := ws } }

/-- R202: the waiters of a register are served from the head. The first that needs a new transaction goes on with the register, and those
behind it wait on; the register is free when its list is empty. -/
def State.serveWaiters (n pick : Nat) : List Req → Nat → State → State
  | [], gl, s => s.modSlice n fun x => { x with miss := x.miss.del gl }
  | r :: ws, gl, s =>
    let s0 := s.modSlice n fun x =>
      { x with miss := match x.miss.find gl with
          | some m => x.miss.put gl { phase := .way, vd := m.vd, since := m.since, waiters := ws }
          | none => x.miss }
    match s0.serve n r.line pick r with
    | (s1, none) => State.serveWaiters n pick ws gl s1
    | (s1, some m) => State.takeOver s0 s1 n gl r ws m

/-- R202: a register's transaction has ended: the line is no longer BUSY, and the waiters are served. -/
def State.drain (n gl pick : Nat) (ws : List Req) (s : State) : State := State.serveWaiters n pick ws gl (s.setBusy n gl false)

/-- A register's transaction moved on: it stays with its waiters, or it ended and they are served. -/
def State.settle (n gl pick : Nat) (ws : List Req) : State × Option Miss → State
  | (s, none) => State.drain n gl pick ws s
  | (s, some m) => s.putReg n gl { m with waiters := ws }

/-- R225: when every snoop answer and awaited write-back is in, the transaction goes on; BUSY clears unless a grant is still to be
acknowledged. A recall frees its entry. -/
def State.answered (s : State) (n gl pick : Nat) (m : Miss) : State :=
  if m.snpDev.isEmpty && m.snpHost.isEmpty && m.wbDev.isEmpty then
    match m.req with
    | some r =>
      State.settle n gl pick m.waiters ((if (s.grants r).isEmpty then s.setBusy n gl false else s).dataPhase n gl pick r m.keepDev m.keepHost)
    | none => State.drain n gl pick m.waiters (s.setDir (ownNum gl) {})
  else s.modSlice n fun x => { x with miss := x.miss.put gl m }

/-- A register that only waits gives its requests back to the head of the input queues. -/
def State.requeue (s : State) (n gl : Nat) : State :=
  match (s.slice n).miss.find gl with
  | some m => s.modSlice n fun x => { x with miss := x.miss.del gl, inq := m.req.toList ++ m.waiters ++ x.inq }
  | none => s

/-- The registers that wait for a way of a set, for their bulk line, a directory way or room to snoop try again (R195, R221). At a proxy
slice with no cache bay left they wait for the slice that serves the line next (R196). -/
def State.wake (s : State) (n pick : Nat) : State :=
  let keys := ((s.slice n).miss.filter fun e => e.2.waits).map (·.1)
  keys.foldl (fun s gl =>
    match (s.slice n).miss.find gl with
    | some m =>
      match m.phase, m.req with
      | .way, some r =>
        if lineDev gl = s.pool.devnum then State.settle n gl pick m.waiters (s.dataPhase n gl pick r m.keepDev m.keepHost)
        else if (s.cacheBays n).isEmpty then s.requeue n gl
        else State.settle n gl pick m.waiters (s.serve n gl pick r)
      | .dirFull, some r => State.settle n gl pick m.waiters (s.serve n gl pick r)
      | _, _ => s
    | none => s) s

/-! ### Acceptance -/

/-- A request enters the slice: it joins its line's waiters, is served, takes a register, or waits in its input queue (R202, R204,
R205). `may` says whether it may take an entry of a queue, given the entries in use. -/
def State.enterIf (s : State) (n pick : Nat) (r : Req) (may : QueueId → (Nat → Nat) → Bool) : State :=
  let x := s.slice n
  let queue (s : State) : State := s.modSlice n fun x => { x with inq := x.inq ++ [r] }
  match x.missOf r.line with
  | some (k, m) =>
    if may (.waiters n) x.useWait then s.modSlice n fun x => { x with miss := x.miss.put k { m with waiters := m.waiters ++ [r] } }
    else queue s
  | none =>
    match s.serve n r.line pick r with
    | (s1, none) => s1.wake n pick
    | (s1, some m) => if may (.missRegs n) (s1.slice n).useMiss then s1.putReg n r.line m else queue s

/-- A request that the arbiter has chosen, or that meets nobody waiting. -/
def State.enter (s : State) (n pick : Nat) (r : Req) : State := s.enterIf n pick r fun q use => s.canTake q use r.share

/-- R185: a request for an offset outside the data frames: poison or nothing, and a management record. -/
def State.refuseOffset (s : State) (r : Req) : State :=
  let s1 := s.post { cls := .protocol, addr := r.line * 128, vd := r.vd }
  let s2 := if r.fromPeer && (decide (r.op = .write) || decide (r.op = .red)) then s1.deferredRecord r .badAddress else s1
  s2.answer r.line r (if r.fromPeer && r.op.changes then .badAddress else .poisoned) 0 15 {}

/-- R517, R463: the lost-home responder. -/
def State.lostAnswer (s : State) (r : Req) : State :=
  let rd : CohMsg := { op := .rdDat, dev := 0, line := r.line, tag := r.tag, vd := r.vd, sec := 15, pois := 15, status := .poisoned }
  let cmp (d : Nat) : CohMsg := { op := .cmp, dev := d, line := r.line, tag := r.tag, vd := r.vd, status := .retired }
  match r.src, r.op with
  | .dev d, .write => (s.deferredRecord r .retired).send (.coh (cmp d))
  | .dev d, .red => (s.deferredRecord r .retired).send (.coh (cmp d))
  | .dev d, .atomic => s.send (.coh (cmp d))
  | .dev d, _ => s.send (.coh { rd with dev := d })
  | .loc, .read => (match r.who with | some _ => s | none => s.send (.rsp r.tag .poisoned 0 15))
  | .loc, _ => (match r.who with | some w => s.whoFailed w .retired | none => s.send (.rsp r.tag .retired 0 0))
  | .host p, _ => (s.hostAnswer p r.vd r.tag r.era 0 15 .inv).lineEvent r.line 2 { kind := .generalMedia, ty := .mediaEcc, trans := if r.op.changes then 2 else 1 }

/-- R73: the slice is clock-gated or power-gated, and requests wait before it. -/
def State.asleep (s : State) (n : Nat) : Bool := decide (s.power.slices.getD n 0 ≠ 0)

/-- R142, R205: a request enters a slice, or waits before it, behind its queue's earlier ones and those to its line. What it needs it
takes past other queues' waiting requests only from its own share (R165). -/
def State.arrive (s : State) (n pick : Nat) (r : Req) : State :=
  if (s.slice n).stopped || s.asleep n || (s.slice n).inq.any fun q => decide (q.inqId = r.inqId) || decide (q.line = r.line) then
    s.modSlice n fun x => { x with inq := x.inq ++ [r] }
  else s.enterIf n pick r fun q use =>
    s.mayEnter q use (((inqHeads (s.slice n).inq [] []).filter fun h => decide ((s.slice n).needs n h = q)).map Req.share) r.share

/-- A request reaches the home device of its line (R185, R187, R205, R226, R517). -/
def State.homeAccept (s : State) (r : Req) (pick : Nat) : State :=
  if s.offLimits r.line then s.refuseOffset r
  else if s.lostHome r.line then s.lostAnswer r
  else (s.stackFor (lineFrame r.line)).arrive (s.sliceOf r.line) pick r

/-- A new request: that of a command carries the epoch in which it was made (R168). -/
def State.stamp (s : State) (r : Req) : Req := { r with performed := false, epoch := match r.who with | some w => s.epochOf w | none => 0 }

/-- A request of an agent of this device (R187, R190, R205). -/
def State.localReq (s : State) (r : Req) (pick : Nat) : State :=
  if lineDev r.line = s.pool.devnum then s.homeAccept (s.withAttrs (s.stamp r)) pick
  else s.arrive (s.sliceOf r.line) pick (s.stamp r)

end Sys2Proof.Machine
end

