-- ==== Sys2Proof/Machine/Tables.lean ====
section
/-!
DEFINITION. The Sluice tables (R266-R269): the entries that map a VD's pages, the L2 and L3 tables that hold them, where they lie in
the Sluice area, and the change of an entry with its shootdown (R272).
-/
namespace Sys2Proof.Machine

/-- The key of a VD page. -/
def ptKey (v page : Nat) : Nat := v * 2 ^ 26 + page

/-- Frames of a page. -/
def pageFrames (big : Bool) : Nat := if big then 32 else 1

/-- The device and the local frame of a global frame. -/
def gfDev (g : Nat) : Nat := g / 2 ^ 25
def gfLocal (g : Nat) : Nat := g % 2 ^ 25

/-- The entry that maps a 64 KiB page of a VD, its own or that of the 2 MiB page around it, with the entry's page. A VD's
addresses end at 4 TiB (R130, R266). -/
def State.entry (s : State) (v page : Nat) : Option (Nat × PEntry) :=
  if 2 ^ 26 ≤ page then none else
  match s.slu.pt.find (ptKey v page) with
  | some e => some (page, e)
  | none =>
    match s.slu.pt.find (ptKey v (page / 32 * 32)) with
    | some e => if e.big then some (page / 32 * 32, e) else none
    | none => none

/-! ### The Sluice area (R268) -/

/-- The device offset at which the area begins, and its size: 64 MiB for each ACTIVE die. -/
def Inventory.areaBase (i : Inventory) : Nat := (i.metaBase + 32768 * i.s) * 65536
def Inventory.areaSize (i : Inventory) : Nat := i.s * 2 ^ 26

/-- What the area holds, by its first byte, with its size: the root tables of the VDs that exist, L2 tables and L3 tables. -/
def State.areaUsed (s : State) : Tab Nat :=
  let root (t : Tab Nat) (v : Nat) : Tab Nat := t.put (32768 * v) 32768
  s.slu.l3.foldl (fun t e => t.put e.2 256) (s.slu.l2.foldl (fun t e => t.put e.2 4096) (s.vdList.foldl root []))

/-- The lowest aligned place for `n` bytes from `lo` on, between what is there. -/
def fitFrom (n : Nat) : Nat → Tab Nat → Nat
  | lo, [] => (lo + n - 1) / n * n
  | lo, (o, k) :: t => if (lo + n - 1) / n * n + n ≤ o then (lo + n - 1) / n * n else fitFrom n (max lo (o + k)) t

/-- A place for a table of `n` bytes, if the area has one (DESIGN CHOICE: the lowest, notes/assumptions/53.md). -/
def State.fitTable (s : State) (n : Nat) : Option Nat :=
  let a := fitFrom n 0 s.areaUsed
  if a + n ≤ s.inv.areaSize then some a else none

/-- The tables that lead to a page's entry are there: the L2 table, and for a 64 KiB page the L3 table, each allocated where it is
missing. None where the area has no room (R275). -/
def State.withTables (s : State) (v page : Nat) (big : Bool) : Option State :=
  let k := ptKey v page
  let two (s : State) : Option State :=
    if big || (s.slu.l3.find (k / 32)).isSome then some s
    else (s.fitTable 256).map fun a => { s with slu := { s.slu with l3 := s.slu.l3.put (k / 32) a } }
  if (s.slu.l2.find (k / 2 ^ 14)).isSome then two s
  else match s.fitTable 4096 with
    | some a => two { s with slu := { s.slu with l2 := s.slu.l2.put (k / 2 ^ 14) a } }
    | none => none

/-- The code of KIND (Table 10-2). -/
def PageKind.code : PageKind → Nat
  | .page => 2 | .foreign => 3 | .migrating => 4 | .revoked => 5

/-- Table 10-2: the eight bytes of an entry. -/
def PEntry.word (e : PEntry) : DWord :=
  BitVec.ofNat 64 (e.kind.code + 8 * b2n e.pin + 16 * b2n e.promoted + 32 * b2n e.readOnly + 64 * (e.grant % 1024) + 2 ^ 16 * (e.gframe % 2 ^ 32)
    + 2 ^ 48 * e.moved.toNat)

/-- R269: a root entry, or a TABLE entry of an L2 table, that leads to a table at a device offset. -/
def tableWord (off : Nat) : DWord := BitVec.ofNat 64 (off + 1)

/-- The table of `n` bytes that holds a byte of the area, by its key. -/
def tableAt (t : Tab Nat) (n a : Nat) : Option (Nat × Nat) := t.find? fun e => decide (e.2 ≤ a) && decide (a < e.2 + n)

/-- The eight bytes at a multiple of 8 of the area (Tables 10-1, 10-2): an entry of a root, L2 or L3 table; what no table holds is 0. -/
def State.areaWord (s : State) (a : Nat) : DWord :=
  let base := s.inv.areaBase
  let mapped (k : Nat) (big : Bool) : DWord := match s.slu.pt.find k with | some e => if e.big = big then e.word else 0 | none => 0
  match tableAt s.slu.l2 4096 a with
  | some (k, o) =>
    let i := k * 512 + (a - o) / 8
    (match s.slu.l3.find i with | some b => tableWord (base + b) | none => mapped (i * 32) true)
  | none =>
    match tableAt s.slu.l3 256 a with
    | some (k, o) => mapped (k * 32 + (a - o) / 8) false
    | none =>
      if s.vdExists (a / 32768) then (match s.slu.l2.find (a / 8) with | some b => tableWord (base + b) | none => 0) else 0

/-! ### Changing an entry (R272) -/

def State.countShootdown (s : State) : State := { s with slu := { s.slu with shootdown := s.slu.shootdown + 1 } }

/-- An entry of which a translation cache may hold a copy. -/
def PEntry.cached (e : PEntry) : Bool := decide (e.kind = .page) || decide (e.kind = .foreign)

/-- An entry is written; one that maps 2 MiB takes the place of an L3 table. -/
def State.putEntry (s : State) (v page : Nat) (e : PEntry) : State :=
  { s with slu := { s.slu with pt := s.slu.pt.put (ptKey v page) e, l3 := if e.big then s.slu.l3.del (ptKey v page / 32) else s.slu.l3 } }

/-- R272: an entry is written, with the shootdown that a change of a PAGE, FOREIGN or TABLE entry needs. -/
def State.setEntry (s : State) (v page : Nat) (e : PEntry) : State :=
  let shot := match s.slu.pt.find (ptKey v page) with
    | some o => o.cached && decide (o ≠ e)
    | none => e.big && (s.slu.l3.find (ptKey v page / 32)).isSome
  (if shot then s.countShootdown else s).putEntry v page e

/-- An entry becomes EMPTY, with its shootdown (R272). -/
def State.delEntry (s : State) (v page : Nat) : State :=
  let s1 := match s.slu.pt.find (ptKey v page) with | some o => if o.cached then s.countShootdown else s | none => s
  { s1 with slu := { s1.slu with pt := s1.slu.pt.del (ptKey v page) } }

/-- PAGE or FOREIGN entries that a test names become REVOKED, each with its shootdown (R272, R281, R468). -/
def State.revokeEntries (s : State) (f : Nat → PEntry → Bool) : State :=
  let hit (k : Nat) (e : PEntry) : Bool := e.cached && f k e
  { s with slu := { s.slu with
      pt := s.slu.pt.mapVal fun k e => if hit k e then { e with kind := .revoked } else e
      shootdown := s.slu.shootdown + BitVec.ofNat 32 (s.slu.pt.filter fun e => hit e.1 e.2).length } }

end Sys2Proof.Machine
end

