-- ==== Sys2Proof/Machine/Access.lean ====
section
/-!
DEFINITION. Accesses of the device's own agents by VD address: translation with first touch (R266-R275), coherent reads and
writes of lines (Table 08-3, R237), the error ring (R177-R179) and the interrupts it raises. A row whose read cannot be served at
once waits: it starts what it needs and changes nothing else; its writes are requests of their own (notes/assumptions/26.md).
-/
namespace Sys2Proof.Machine

/-! ### Frames of memory -/

/-- Frames of the DRAM Hopper pools: they lie directly below META_BASE (R243). -/
def State.dramPoolFrames (s : State) : Nat :=
  s.img.pools.foldl (fun a e => if e.2.kind = 2 then a + e.2.size else a) 0

/-- The channel of a frame takes no new frame (R510). -/
def State.chClosed (s : State) (c : Nat) : Bool := s.flt.chDraining.contains c || s.flt.chRetired.contains c

/-- The channel takes pages: it is open, and its die ACTIVE. -/
def State.chOpen (s : State) (c : Nat) : Bool := !s.chClosed c && decide ((s.die (c / 32)).st = .active)

/-- R274: a frame that Sluice may allocate, but for the sparing reserve. -/
def State.frameFree (s : State) (f : Nat) : Bool :=
  decide (f + s.dramPoolFrames < s.inv.metaBase) && (s.slu.frames.find f).isNone && (s.slu.foreignFrames.find f).isNone
    && s.chOpen (s.inv.chanOf f) && !s.flt.frameRetired.contains f
    && !(s.flt.metaMap.any fun e => decide (e.2 = f)) && !(s.hop.frameMap.any fun e => decide (e.2 = f))

/-- The frames below `top` that lie on channels that take none (R188). -/
def State.closedFrames (s : State) (top : Nat) : Nat :=
  (s.inv.chList.filter fun c => !s.chOpen c).foldl (fun a c => a + top / s.inv.u + b2n (decide (s.inv.rowFrame c (top / s.inv.u) < top))) 0

/-- Frames in use or out of use, one by one, wherever they lie. -/
def State.takenFrames (s : State) : List Nat :=
  s.slu.frames.map (·.1) ++ s.slu.foreignFrames.map (·.1) ++ s.flt.frameRetired ++ s.flt.metaMap.map (·.2) ++ s.hop.frameMap.map (·.2)

/-- The free data frames, the sparing reserve among them. -/
def State.freeTotal (s : State) : Nat :=
  let top := s.inv.metaBase - s.dramPoolFrames
  top - s.closedFrames top - (s.takenFrames.filter fun f => decide (f < top) && s.chOpen (s.inv.chanOf f)).length

/-- R274: the sparing reserve: 18,432 frames for each channel of sparing that remains. -/
def State.sparing (s : State) : Nat := framesPerChannel * s.flt.spareLeft

/-- A run of `k` frames from `f` on is free. -/
def State.runFree (s : State) (f k : Nat) : Bool := (List.range k).all fun i => s.frameFree (f + i)

/-- The first free aligned run of `k` frames from `f` on. -/
def State.scanFree (s : State) (k : Nat) : Nat → Nat → Option Nat
  | 0, _ => none
  | n + 1, f => if s.runFree f k then some f else State.scanFree s k n (f + k)

/-- The frames a page takes: those the command picked when they are free (R273: not architectural), or the lowest free.
Only channel retirement draws on the sparing reserve (R274). -/
def State.chooseFrames (s : State) (k pick : Nat) (reserve : Bool := false) : Option Nat :=
  if s.freeTotal < k + (if reserve then 0 else s.sparing) then none
  else if s.runFree (pick / k * k) k then some (pick / k * k) else s.scanFree k (s.inv.metaBase / k) 0

/-- The line of a frame is held nowhere in a cache of the device. -/
def State.dropCached (s : State) (f k : Nat) : State :=
  let own (fr : Frame) : Bool := decide (lineDev fr.line = s.pool.devnum) && decide (f ≤ lineFrame fr.line) && decide (lineFrame fr.line < f + k)
  { s with slices := s.slices.mapVal fun _ x => { x with frames := x.frames.keep fun _ fr => !own fr } }

/-- R273: the bytes of frames become zero. -/
def State.zeroFrames (s : State) (f k : Nat) : State :=
  let lo := f * 65536
  let hi := (f + k) * 65536
  let s1 := ((List.range k).foldl (fun s i => s.stackFor (f + i)) s).dropCached f k
  { s1 with
    mem := Tab.keep s1.mem fun a _ => decide (a < lo) || decide (hi ≤ a)
    memPoison := s1.memPoison.keep fun a _ => decide (a * 32 < lo) || decide (hi ≤ a * 32) }

/-! ### Translation (R266-R275) -/

/-- R134, R270: an address inside an accepted extent of the VD. -/
def State.inExtent (s : State) (v va : Nat) : Bool :=
  decide (va < 2 ^ 42) && (s.vd v).extents.any fun x => decide (x.1 ≤ va) && decide (va < x.1 + x.2)

/-- REGION_POLICY_n of a region: bits NO_PROMOTE, NO_DEMOTE, NO_MIGRATE (Table 04-17). -/
def State.regionPolicy (s : State) (v va : Nat) : Nat :=
  match s.regionAt v va with
  | some (_, r) => if r.policyIndex < 16 then s.pol.regionPolicy.getD r.policyIndex 0 else 0
  | none => 0

/-- MOVED of Table 10-2: time base bits 39 to 24. -/
def State.movedNow (s : State) : BitVec 16 := BitVec.ofNat 16 (s.now / 2 ^ 24)

/-- R180: tag the frames of a page with their VD and page. -/
def State.tagFrames (s : State) (f k v page : Nat) : State :=
  { s with slu := { s.slu with frames := (List.range k).foldl (fun t i => t.put (f + i) { vd := v, page := page + i }) s.slu.frames } }

def State.untagFrames (s : State) (f k : Nat) : State :=
  { s with slu := { s.slu with frames := (List.range k).foldl (fun t i => t.del (f + i)) s.slu.frames } }

/-- R273: the page a first touch allocates: its size, its page number. -/
def State.touchSize (s : State) (v page : Nat) : Bool :=
  let base := page / 32 * 32
  (match s.regionAt v (page * 65536) with | some (_, r) => r.bulk | none => false)
    && ((List.range 32).all fun i => (s.entry v (base + i)).isNone)
    && decide ((s.vd v).usePage + 32 ≤ s.quotaPage v)

/-- R273, R275: a first touch takes frames for a page, or says why it does not. Answers the frame and whether the page is
2 MiB; the entry is not written yet. -/
def State.touchFrames (s : State) (v page pick : Nat) : Except Status (Nat × Bool) :=
  if s.quotaPage v ≤ (s.vd v).usePage then .error .quota
  else
    match (if s.touchSize v page && (s.withTables v page true).isSome then s.chooseFrames 32 pick else none) with
    | some f => .ok (f, true)
    | none =>
      match (if (s.withTables v page false).isSome then s.chooseFrames 1 pick else none) with
      | some f => .ok (f, false)
      | none => .error .noSpace

/-- R275: a refused first touch is counted. -/
def State.touchRefused (s : State) (st : Status) : State :=
  { s with slu := if st = .quota then { s.slu with quotaCnt := s.slu.quotaCnt + 1 } else { s.slu with noSpaceCnt := s.slu.noSpaceCnt + 1 } }

/-- R273: the frames, and the tables that lead to the page's entry, are taken and charged. -/
def State.touchTake (s : State) (v page f : Nat) (big : Bool) : State :=
  let k := pageFrames big
  let p := if big then page / 32 * 32 else page
  let s1 := (((s.withTables v page big).getD s).tagFrames f k v p).modVd v fun x => { x with usePage := x.usePage + k }
  { s1 with slu := { s1.slu with firstTouch := s1.slu.firstTouch + 1 } }

/-- R273: zeroing is done and the entry is written. -/
def State.touchDone (s : State) (v page f : Nat) (big : Bool) : State :=
  let p := if big then page / 32 * 32 else page
  (s.zeroFrames f (pageFrames big)).setEntry v p { kind := .page, big := big, gframe := s.pool.devnum * 2 ^ 25 + f, moved := s.movedNow }

/-- The global address of a byte of a mapped page. -/
def PEntry.gaddr (e : PEntry) (entryPage va : Nat) : Nat := (e.gframe + (va / 65536 - entryPage)) * 65536 + va % 65536

/-- R286: one more access that a translation cache translates; each 64th adds 1 to the heat of its page, by the page's first 64 KiB. Of
several entries of heat 0 or 1 a new page takes the lowest (DESIGN CHOICE, notes/assumptions/52.md). -/
def State.sampleHeat (s : State) (via v page : Nat) : State :=
  if via = 255 then s
  else
    let n := s.slu.samples.getD via 0 + 1
    let g := { s.slu with samples := s.slu.samples.setD via 0 (n % 64) }
    if n < 64 then { s with slu := g }
    else
      let k := ptKey v page
      let inSet := g.heat.filter fun e => decide (Config.heatSet e.1 = Config.heatSet k)
      if (g.heat.find k).isSome then
        { s with slu := { g with heat := g.heat.setD k 0 (min 65535 (g.heat.getD k 0 + 1)) } }
      else if inSet.length < Config.heatWays ∧ g.heat.length < 65536 then { s with slu := { g with heat := g.heat.setD k 0 1 } }
      else
        match inSet.find? fun e => decide (e.2 ≤ 1) with
        | some e => { s with slu := { g with heat := (g.heat.del e.1).setD k 0 1 } }
        | none => { s with slu := { g with sampleDrop := g.sampleDrop + 1 } }

def State.walkOf (s : State) (v page : Nat) : Option Walk := s.slu.walks.find? fun w => decide (w.vd = v) && decide (w.page = page)

def State.useWalks (s : State) (v : Nat) : Nat := (s.slu.walks.filter fun w => decide (w.vd = v) && w.slot).length

/-- A row cannot go on without it. -/
def State.stalled (s : State) (y : Stall) : State := { s with stall := s.stall ++ [y] }

/-- R271: a walk for a page joins one that is in flight, or finds an entry of the walk queue. -/
def State.walkRoom (s : State) (v page : Nat) : Bool :=
  (s.walkOf v page).isSome || s.mayEnter .walks s.useWalks ((s.slu.walks.filter fun w => !w.slot).map Walk.vd) v

/-- R294: one more walk has completed. -/
def State.walked (s : State) : State := { s with slu := { s.slu with walkCnt := s.slu.walkCnt + 1 } }

/-- R270, R272: only a walk translates the access: its translation cache has no copy of the entry, or can have none. -/
def State.needsWalk (s : State) (v page : Nat) (miss : Bool) : Bool :=
  match s.entry v page with | some (_, e) => miss || !e.cached | none => true

/-- R271: a first touch in the 2 MiB of a page is under way: its frames are being zeroed, here or on a peer. -/
def State.touchBusy (s : State) (v page : Nat) : Bool :=
  (s.slu.walks.any fun w => decide (w.vd = v) && decide (w.page / 32 = page / 32) && w.zero.isSome)
    || s.slu.moves.any fun m => m.fresh && decide (m.vd = v) && decide (m.page / 32 = page / 32)

/-- R270, R271: the access has to wait: its entry is MIGRATING, a first touch of its page is under way, or its walk finds no entry of the
walk queue. -/
def State.heldUp (s : State) (v va : Nat) (miss : Bool) : Bool :=
  (match s.entry v (va / 65536) with
    | some (_, e) => decide (e.kind = .migrating)
    | none => s.inExtent v va && s.touchBusy v (va / 65536))
  || (s.needsWalk v (va / 65536) miss && !s.walkRoom v (va / 65536))

/-- Table 10-3 for an access of the device's own agents: the global address, or the status that ends it. A row whose access has to wait
waits with it, whatever is answered here. -/
def State.translate (s0 : State) (v va : Nat) (write : Bool) (x : Ext) : Except Status Nat × State :=
  let page := va / 65536
  if s0.heldUp v va x.miss then (.error .revoked, s0.stalled .hold)
  else
    let s := if s0.needsWalk v page x.miss then s0.walked else s0
    match s.entry v page with
    | some (p, e) =>
      if e.cached then (if e.kind = .foreign ∧ write ∧ e.readOnly then (.error .readOnly, s) else (.ok (e.gaddr p va), s.sampleHeat x.via v p))
      else (.error .revoked, s)
    | none =>
      if s.inExtent v va then
        match s.touchFrames v page x.pick with
        | .error st => (.error st, s.touchRefused st)
        | .ok (f, big) =>
          let p := if big then page / 32 * 32 else page
          (.ok ((s.pool.devnum * 2 ^ 25 + f + (page - p)) * 65536 + va % 65536), ((s.touchTake v page f big).touchDone v page f big).sampleHeat x.via v p)
      else (.error .badAddress, s)

/-! ### Coherent lines -/

/-- What a row finds at a line: its bytes, the poisoned sectors, and the status that ends the access. -/
structure LineOut where
  data : Line := 0
  p : Sectors := 0
  fault : Option Status := none
  deriving DecidableEq, Repr

def LineOut.poison : LineOut := { p := 15 }

/-- The read of a row, as the slice that serves the line sees it. -/
def Who.read (w : Who) (gl : Nat) (sec : Sectors) : Req := { op := .read, vd := w.vd, line := gl, bytes := sectorBytes sec, who := some w }

/-- Two accesses are of the same task, or of the same command. -/
def Who.sameRow (u w : Who) : Bool :=
  decide (u.vd = w.vd) && ((u.slice.isSome && decide (u.slice = w.slice)) || (u.cmd.isSome && decide (u.cmd = w.cmd)))

/-- R203, R205: a request of a VD for a line would not be served next at its slice. -/
def State.behind (s : State) (n : Nat) (r : Req) : Bool :=
  (s.slice n).stopped || s.asleep n || ((s.slice n).missOf r.line).isSome
    || (s.slice n).inq.any fun q => decide (q.inqId = r.inqId) || decide (q.line = r.line)

/-- A read that its slice serves within the row: what it needs is there or comes from DRAM in one fill (R198, R199), and no snoop and
no remote fill is needed. None where it has to wait. -/
def State.serveNow (s : State) (n pick : Nat) (r : Req) : Option State :=
  if lineDev r.line = s.pool.devnum then
    match s.tryReq n r.line pick r with
    | (s1, none) => some s1
    | (s1, some m) =>
      if m.phase = .fill then
        match ((s1.fillInto n r.line pick m.way m.fill m.bulk).gaugeEvent 0x05 n (some r.vd) 0).dataPhase n r.line pick r [] [] with
        | (s2, none) => some s2
        | (_, some _) => none
      else if m.phase = .merge then some (s1.finish n r.line r [] []).1
      else none
  else if ((s.slice n).hit r.line).isSome then some s
  else none

/-- A coherent read of sectors of one line by a row (Table 08-3, Local read; R185, R468, R517). -/
def State.lineRead (s : State) (gl : Nat) (sec : Sectors) (w : Who) (pick : Nat) : LineOut × State :=
  let own := decide (lineDev gl = s.pool.devnum)
  let n := s.sliceOf gl
  let r := if own then s.withAttrs (w.read gl sec) else w.read gl sec
  match s.ends.find? fun e => decide (e.who = w) && decide (e.line = gl) with
  | some e => ({ p := 15, fault := if e.st = .deviceGone then some .deviceGone else none }, { s with ends := s.ends.erase e })
  | none =>
    if own && s.offLimits gl then (.poison, s.refuseOffset r)
    else if own && s.lostHome gl then (.poison, s)
    else if !own && s.gone (lineDev gl) then ({ p := 15, fault := some .deviceGone }, s.goneRecord w.vd gl)
    else if s.behind n r then
      match (s.slice n).missOf gl with
      | some (_, m) =>
        -- the row's own write of the line is not performed yet: it goes on once the line is held nowhere else
        if own && m.req.any (fun q => q.op.changes && q.who.any fun u => u.sameRow w) then ({}, s.stalled (.take gl w.vd)) else ({}, s.stalled (.read r))
      | none => ({}, s.stalled (.read r))
    else
      let s1 := if own then s.stackFor (lineFrame gl) else s
      match s1.serveNow n pick r with
      | none => ({}, s.stalled (.read r))
      | some s2 =>
        let v := s2.view n gl
        ({ data := v.data, p := v.p }, s2)

/-- A row needs every copy of a line of this device ended (Table 08-3, Local write). -/
def State.takeLine (s : State) (gl v : Nat) : State :=
  if s.lostHome gl then s
  else if ((s.slice (s.sliceOf gl)).missOf gl).isSome || decide (s.dirEntry (ownNum gl) ≠ {}) then s.stalled (.take gl v)
  else s

/-- The read of a row that waits is under way. -/
def State.reading (s : State) (r : Req) : Bool :=
  let same (q : Req) : Bool := decide (q.op = .read) && decide (q.line = r.line) && decide (q.who = r.who)
  let x := s.slice (s.sliceOf r.line)
  x.inq.any same || x.miss.any fun e => (match e.2.req with | some q => same q | none => false) || e.2.waiters.any same

/-- What a row waits for is started, unless it is under way. -/
def State.startStall (s : State) (pick : Nat) (y : Stall) : State :=
  match y with
  | .read r => if s.reading r then s else s.localReq r pick
  | .take gl v =>
    let n := s.sliceOf gl
    let r := ({ vd := v } : Who).read gl 15
    if (s.slice n).stopped || s.asleep n then (if s.reading r then s else s.localReq r pick)
    else if ((s.slice n).missOf gl).isSome then s else (s.takeCopies n gl v).getD s
  | .hold => s

/-- A row that can go on has its effect; one that cannot starts what it waits for and changes nothing else, and goes on when it is
given again (notes/assumptions/26.md). -/
def State.orWait (s : State) (pick : Nat) (f : State → State) : State :=
  let t := f { s with stall := [] }
  if t.stall.isEmpty then t else t.stall.foldl (fun s y => s.startStall pick y) s

/-! ### Writes of lines -/

/-- A request of a row that changes a line: performed within the row where its slice can, and else on its own way (Table 08-3). -/
def State.rowReq (s : State) (r0 : Req) (pick : Nat) : State :=
  let own := decide (lineDev r0.line = s.pool.devnum)
  let n := s.sliceOf r0.line
  let r := if own then s.withAttrs (s.stamp r0) else r0
  if !own || s.offLimits r.line || s.behind n r then s.localReq r0 pick
  else ((s.stackFor (lineFrame r.line)).serveNow n pick r).getD (s.localReq r0 pick)

/-- A coherent write of the masked bytes of one line (Table 08-3, Local write; WR_NC to a peer unless the proxy holds RE): a request
of its own at the line's slice. The status where no slice performs it (R468, R517). -/
def State.lineWrite (s : State) (gl : Nat) (mask : BitVec 128) (x : Line) (p : Sectors) (w : Who) (pick : Nat) : Option Status × State :=
  let r : Req := { op := .write, vd := w.vd, line := gl, bytes := mask, data := x, pois := p, noAlloc := w.noAlloc, who := some w }
  if lineDev gl ≠ s.pool.devnum then
    if s.gone (lineDev gl) then (some .deviceGone, s.goneRecord w.vd gl) else (none, s.rowReq r pick)
  else if s.lostHome gl then (some .retired, s)
  else (none, s.rowReq r pick)

/-! ### Ranges by VD address -/

/-- The bytes of `[va, va + n)` that lie in its first `128` byte line. -/
def lineChunk (va n : Nat) : Nat := min n (128 - va % 128)

/-- The sectors that `n` bytes from offset `o` of a line touch. -/
def sectorsAt (o n : Nat) : Sectors := bytesSectors (BitVec.ofNat 128 ((2 ^ n - 1) * 2 ^ o))

/-- The bytes of one line that a read covers. -/
def lineOut (d : Line) (p : Sectors) (o n : Nat) : RdOut :=
  { bytes := (List.range n).map fun i => lineByte d (o + i)
    poison := (List.range n).any fun i => bit p.toNat ((o + i) / 32) }

/-- What a chunk of a range reads as, at a VD address. -/
def LineOut.chunk (y : LineOut) (va o n : Nat) : RdOut :=
  match y.fault with
  | some st => { poison := true, fault := some (st, va) }
  | none => lineOut y.data y.p o n

/-- Read one chunk, within one line. -/
def State.readChunk (s : State) (v va n : Nat) (x : Ext) : RdOut × State :=
  match s.translate v va false x with
  | (.error st, s1) => ({ poison := true, fault := some (st, va) }, s1)
  | (.ok ga, s1) =>
    match s1.lineRead (ga / 128) (sectorsAt (ga % 128) n) { vd := v, va := va } x.pick with
    | (y, s2) => (y.chunk va (ga % 128) n, s2)

/-- Read a range, chunk by chunk, stopping at the first fault. `fuel` bounds the chunks. -/
def State.vdReadF (x : Ext) : Nat → Nat → Nat → Nat → State → RdOut × State
  | 0, _, _, _, s => ({}, s)
  | k + 1, v, va, n, s =>
    if n = 0 then ({}, s)
    else
      let c := lineChunk va n
      match s.readChunk v va c x with
      | (o, s1) =>
        if o.fault.isSome then (o, s1)
        else
          match State.vdReadF x k v (va + c) (n - c) s1 with
          | (o2, s2) => ({ bytes := o.bytes ++ o2.bytes, poison := o.poison || o2.poison, fault := o2.fault }, s2)

def State.vdRead (s : State) (v va n : Nat) (x : Ext) : RdOut × State := State.vdReadF x (n / 128 + 2) v va n s

/-- Write one chunk, within one line. The record of a ring waits by itself for its page; a row's other writes make the row wait. -/
def State.writeChunk (s : State) (v va : Nat) (bs : List Byte) (pois : Bool) (w : Who) (x : Ext) : Option (Status × Nat) × State :=
  if w.errRec && s.heldUp v va x.miss then (none, { s with slu := { s.slu with recWait := s.slu.recWait ++ [({ w with va := va }, bs)] } })
  else match s.translate v va true x with
  | (.error st, s1) => (some (st, va), s1)
  | (.ok ga, s1) =>
    let o := ga % 128
    let mask := BitVec.ofNat 128 ((2 ^ bs.length - 1) * 2 ^ o)
    let d := BitVec.ofNat 1024 (leNat bs * 2 ^ (8 * o))
    match s1.lineWrite (ga / 128) mask d (if pois then bytesSectors mask else 0) { w with va := va } x.pick with
    | (some st, s2) => (some (st, va), s2)
    | (none, s2) => (none, s2)

/-- Write a range, chunk by chunk, stopping at the first fault; what is written stays. -/
def State.vdWriteF (x : Ext) (pois : Bool) (w : Who) : Nat → Nat → Nat → List Byte → State → Option (Status × Nat) × State
  | 0, _, _, _, s => (none, s)
  | k + 1, v, va, bs, s =>
    match bs with
    | [] => (none, s)
    | _ =>
      let c := lineChunk va bs.length
      match s.writeChunk v va (bs.take c) pois w x with
      | (some f, s1) => (some f, s1)
      | (none, s1) => State.vdWriteF x pois w k v (va + c) (bs.drop c) s1

def State.vdWrite (s : State) (v va : Nat) (bs : List Byte) (pois : Bool) (w : Who) (x : Ext) : Option (Status × Nat) × State :=
  State.vdWriteF x pois w (bs.length / 128 + 2) v va bs s

/-- Records of rings that waited for their pages go on; one whose page cannot be written fails (R179, R302). -/
def State.recFlush (s : State) (pick : Nat) : State :=
  s.slu.recWait.foldl (fun s r => match s.writeChunk r.1.vd r.1.va r.2 false r.1 { pick := pick } with
    | (some _, s1) => s1.recFailed r.1.vd r.1.va
    | (none, s1) => s1) { s with slu := { s.slu with recWait := [] } }

/-! ### The error ring (R177-R179) -/

/-- R178, R179: post a record to a VD's error ring; TAIL advances once its write is performed. -/
def State.postVd (s : State) (v : Nat) (r0 : Rec) (x : Ext) : State :=
  let r := { r0 with time := s.now }
  let g := (s.vd v).errRing
  if g.enable && decide (g.size ≠ 0) && decide ((g.next + 1) % g.size ≠ g.head) then
    let a := g.base.toNat + 64 * g.next
    let s0 := s.modVd v fun y => { y with errRing := { y.errRing with writing := y.errRing.writing ++ [(a, false)] } }
    match s0.vdWrite v a (r.bytes true) false { vd := v, errRec := true } x with
    | (some _, s1) => (s1.errFault v).modVd v fun y => { y with errRing := { y.errRing with writing := y.errRing.writing.dropLast } }
    | (none, s1) => s1
  else s.errLost v

end Sys2Proof.Machine
end

