-- ==== Sys2Proof/Machine/Desc.lean ====
section
/-! DEFINITION. Fields of a 64-byte descriptor (Tables 11-1 to 11-4), and a command in flight by its read number. -/
namespace Sys2Proof.Machine

/-- `n` bytes of a descriptor from an offset, little-endian. -/
def dfield (d : BitVec 512) (off n : Nat) : Nat := (d.extractLsb' (8 * off) (8 * n)).toNat

def Cmd.opcode (c : Cmd) : Nat := dfield c.desc 0 1
def Cmd.flags (c : Cmd) : Nat := dfield c.desc 1 1
def Cmd.stream (c : Cmd) : Nat := dfield c.desc 2 2
def Cmd.tag (c : Cmd) : Nat := dfield c.desc 4 4
def Cmd.waitPen (c : Cmd) : Nat := dfield c.desc 8 2
def Cmd.signalPen (c : Cmd) : Nat := dfield c.desc 0xA 2
def Cmd.sigInc (c : Cmd) : Nat := dfield c.desc 0xC 2
def Cmd.waitVal (c : Cmd) : Nat := dfield c.desc 0x10 6
def Cmd.opx (c : Cmd) : Nat := dfield c.desc 0x16 2
/-- A body field. -/
def Cmd.f (c : Cmd) (off n : Nat) : Nat := dfield c.desc off n

/-- Table 11-2. -/
def Cmd.irq (c : Cmd) : Bool := bit c.flags 0
def Cmd.quiet (c : Cmd) : Bool := bit c.flags 1
def Cmd.order (c : Cmd) : Bool := bit c.flags 2
def Cmd.sigAlways (c : Cmd) : Bool := bit c.flags 3
def Cmd.noAlloc (c : Cmd) : Bool := bit c.flags 4

/-- On whose behalf a command's accesses are made. -/
def Cmd.who (c : Cmd) (q : Nat) : Who := { vd := c.vd, stream := c.stream, tag := c.tag, cmd := some q, noAlloc := c.noAlloc }

/-- R168: a command's epoch is its VD's current one; an older command passes no check. -/
def State.current (s : State) (c : Cmd) : Bool := decide (c.epoch = (s.vd c.vd).epoch)

/-- An engine command (Hopper, Sluice, PEN, FENCE, NOP) that is READY and not yet served (R308). -/
def State.engineCmd (s : State) (q op : Nat) : Option Cmd :=
  match s.cmd? q with
  | some c => if decide (c.opcode = op) && decide (c.st = .ready) && c.engineFin.isNone && c.admitted && s.current c then some c else none
  | none => none

/-- The engine has served its command: status and RESULT; the statuses of an engine end the command DONE (R306). -/
def State.engineDone (s : State) (q : Nat) (st : Status) (result : Nat := 0) (term : Term := .done) (addr : Nat := 0) : State :=
  s.modCmd q fun c => { c with st := .running, engineFin := some { term := term, status := st, addr := addr }, result := result }

end Sys2Proof.Machine
end

