-- ==== Sys2Proof/Machine/Hopper.lean ====
section
/-! DEFINITION. Hopper: pools, spans and blocks (R242-R245), handles and buffer records (R246-R249), generation wrap (R260),
and the meanings of its commands (R250-R258, R260, R262-R264). -/
namespace Sys2Proof.Machine

/-! ### Pools -/

def bayBytes : Nat := 262144

def State.hpool (s : State) (p : Nat) : ImgPool := s.img.pools.getD p {}

/-- The pinned bays on ACTIVE dies, ascending (R242). -/
def State.pinnedBays (s : State) : List Nat :=
  s.inv.slices.flatMap fun n => ((List.range 18).filter fun b => decide (s.bayKind n b = 1)).map fun b => n * 18 + b

/-- Pinned bays that the pools below `p` take. -/
def State.baysBefore (s : State) (p : Nat) : Nat :=
  (List.range p).foldl (fun a q => if (s.hpool q).kind = 1 then a + (s.hpool q).size / 4 else a) 0

/-- R242, R512: the device bay number of pool bay `j`. -/
def State.poolBay (s : State) (p j : Nat) : Nat :=
  match s.hop.bayMap.find (p * 2 ^ 16 + j) with
  | some b => b
  | none => s.pinnedBays.getD (s.baysBefore p + j) 0

/-- R92, R512: RETAIN of a device bay; a rescue bay that stands in for a pool bay has the setting of the bay it replaced. -/
def State.bayRetain (s : State) (b : Nat) : Bool :=
  let o := match s.hop.bayMap.find? fun e => decide (e.2 = b) with
    | some e => s.pinnedBays.getD (s.baysBefore (e.1 / 2 ^ 16) + e.1 % 2 ^ 16) 0
    | none => b
  bit ((s.img.bays.getD (o / 18) {}).retain) (o % 18)

/-- R243: the device frame of a DRAM pool's frame. -/
def State.poolFrame (s : State) (p k : Nat) : Nat :=
  match s.hop.frameMap.find (p * 2 ^ 32 + k) with
  | some f => f
  | none =>
    s.inv.metaBase - (List.range 16).foldl (fun a q => if p ≤ q ∧ (s.hpool q).kind = 2 then a + (s.hpool q).size else a) 0 + k

/-- Pinned bays that no pool takes: the promotion reserve (R242). -/
def State.promoBays (s : State) : List Nat := s.pinnedBays.drop (s.baysBefore 16)

def hopKey (p i : Nat) : Nat := p * 2 ^ 20 + i
def State.hrec (s : State) (k : Nat) : HopRec := s.hop.recs.getD k s.hop.rest
def State.setHrec (s : State) (k : Nat) (r : HopRec) : State := { s with hop := { s.hop with recs := s.hop.recs.setD k s.hop.rest r } }

/-- The same change of every record of every pool. -/
def State.mapHrec (s : State) (f : HopRec → HopRec) : State :=
  { s with hop := { s.hop with rest := f s.hop.rest, recs := (s.hop.recs.map fun e => (e.1, f e.2)).filter fun e => decide (e.2 ≠ f s.hop.rest) } }

/-- Bytes of a block of a class. -/
def State.classSize (s : State) (p c : Nat) : Nat := 2 ^ (s.hpool p).classes.getD c 0

def State.spanSize (s : State) (p : Nat) : Nat := if (s.hpool p).kind = 1 then bayBytes else 2097152
def State.poolBytes (s : State) (p : Nat) : Nat := (s.hpool p).size * 65536
def State.spanCount (s : State) (p : Nat) : Nat := (s.poolBytes p + s.spanSize p - 1) / s.spanSize p

/-- The held blocks of a pool: pool offset, bytes, class. -/
def State.heldBlocks (s : State) (p : Nat) : List (Nat × Nat × Nat) :=
  ((s.hop.recs.filter fun e => decide (e.1 / 2 ^ 20 = p) && e.2.held).map fun e => (e.2.base * 64, s.classSize p e.2.cls, e.2.cls))
    ++ (s.hop.transfers.filter fun t => decide (t.dst / 2 ^ 20 = p)).map fun t => (t.base * 64, s.classSize p t.cls, t.cls)

/-- R244: no held block lies in the span. -/
def State.spanUnassigned (s : State) (p n : Nat) : Bool :=
  let lo := n * s.spanSize p
  let hi := lo + s.spanSize p
  (s.heldBlocks p).all fun b => decide (hi ≤ b.1) || decide (b.1 + b.2.1 ≤ lo)

/-- R244: the span is assigned to a class. -/
def State.spanOf (s : State) (p n c : Nat) : Bool :=
  decide (s.classSize p c ≤ s.spanSize p) && (s.heldBlocks p).any fun b => decide (b.2.2 = c) && decide (b.1 / s.spanSize p = n)

/-- The free blocks of a class in a span. -/
def State.freeIn (s : State) (p n c : Nat) : List Nat :=
  let b := s.classSize p c
  ((List.range (s.spanSize p / b)).map fun i => n * s.spanSize p + i * b).filter fun o =>
    decide (o + b ≤ s.poolBytes p) && (s.heldBlocks p).all fun h => decide (h.1 ≠ o)

/-- R253: a span may serve an allocation: retain bays only with RETAIN, others only without. -/
def State.spanRetainOk (s : State) (p n : Nat) (retain : Bool) : Bool :=
  decide ((s.hpool p).kind ≠ 1) || decide (s.bayRetain (s.poolBay p n) = retain)

/-- R245: how a span meets NEAR: 0 in a bay of the slice, 1 on its die, 2 elsewhere; NEAR is ignored for DRAM pools. -/
def State.nearTier (s : State) (p n : Nat) (near : Option Nat) : Nat :=
  match near with
  | none => 0
  | some sl =>
    if (s.hpool p).kind ≠ 1 then 0
    else if s.poolBay p n / 18 = sl then 0 else if s.poolBay p n / 18 / 8 = sl / 8 then 1 else 2

/-- The block of lowest tier: within a tier the choice is the command's with NEAR (R245 does not fix it), else the lowest. -/
def bestBlock (near : Option Nat) (pick : Nat) (xs : List (Nat × Nat)) : Option Nat :=
  let t := xs.foldl (fun a x => min a x.1) 3
  let ys := (xs.filter fun x => decide (x.1 = t)).map (·.2)
  match near with
  | none => ys.head?
  | some _ => pickFrom ys pick

/-- R244, R245: the block an allocation of a class takes. -/
def State.chooseBlock (s : State) (p c : Nat) (retain : Bool) (near : Option Nat) (pick : Nat) : Option Nat :=
  let b := s.classSize p c
  let span := s.spanSize p
  let spans := (List.range (s.spanCount p)).filter fun n => s.spanRetainOk p n retain
  let near := if (s.hpool p).kind = 1 then near else none
  if b ≤ span then
    let assigned := spans.filter fun n => s.spanOf p n c
    match bestBlock near pick (assigned.flatMap fun n => (s.freeIn p n c).map fun o => (s.nearTier p n near, o)) with
    | some o => some o
    | none =>
      let fresh := spans.filter fun n => s.spanUnassigned p n && decide (n * span + b ≤ s.poolBytes p)
      bestBlock none pick (fresh.map fun n => (s.nearTier p n near, n * span))
  else
    let k := b / span
    let starts := spans.filter fun n =>
      decide ((n + k) * span ≤ s.poolBytes p) && (List.range k).all fun i => s.spanUnassigned p (n + i) && s.spanRetainOk p (n + i) retain
    bestBlock none pick (starts.map fun n => (s.nearTier p n near, n * span))

/-- R247: the lowest FREE index of a pool. Past the listed records and the destinations of transfers the first unlisted index is
as good as any other. -/
def State.freeIndex (s : State) (p : Nat) : Option Nat :=
  let listed := (s.hop.recs.filter fun e => decide (e.1 / 2 ^ 20 = p)).map fun e => e.1 % 2 ^ 20
  match (sortBy (fun a b => decide (a ≤ b)) (List.range (listed.length + s.hop.transfers.length + 1) ++ listed)).find? fun i =>
      decide ((s.hrec (hopKey p i)).st = .free) && !(s.hop.transfers.any fun t => decide (t.dst = hopKey p i)) with
  | some i => if i < 0xFFFFF then some i else none
  | none => none

/-- R245: the smallest class that holds `n` bytes. -/
def State.classFor (s : State) (p n : Nat) : Option Nat :=
  (List.range (s.hpool p).classes.length).find? fun c => decide (n ≤ s.classSize p c)

/-! ### A block's bytes -/

/-- Where byte `o` of a pool lies: the key in `bays`, or the device offset. -/
def State.poolByte (s : State) (p o : Nat) : Nat :=
  if (s.hpool p).kind = 1 then s.poolBay p (o / bayBytes) * bayBytes + o % bayBytes
  else s.poolFrame p (o / 65536) * 65536 + o % 65536

/-- A key of `bays`, or a device offset, lies in the block of `n` bytes at pool offset `o` (`n` is a multiple of 64). -/
def State.inBlock (s : State) (p o n a : Nat) : Bool :=
  (List.range (n / 64)).any fun i => decide (s.poolByte p (o + 64 * i) ≤ a) && decide (a < s.poolByte p (o + 64 * i) + 64)

/-- The sectors of a line of this device, by its device offset, that lie in a block. -/
def State.blockSectors (s : State) (p o n a : Nat) : Sectors := BitVec.ofNat 4 (packBits 4 fun i => s.inBlock p o n (a + 32 * i))

/-- Every byte of a block reads zero (R253, R262); a line that the block shares with another keeps the other's bytes. -/
def State.zeroBlock (s : State) (p o n : Nat) : State :=
  if (s.hpool p).kind = 1 then
    { s with bays := Tab.keep s.bays fun a _ => !s.inBlock p o n a, bayPoison := s.bayPoison.keep fun k _ => !s.inBlock p o n (k * 32) }
  else
    let own (f : Frame) : Sectors := if lineDev f.line = s.pool.devnum then s.blockSectors p o n (lineOff f.line) else 0
    let clear (f : Frame) : Frame := if own f = 0 then f else f.merge (sectorBytes (own f)) 0 0
    { s with
      mem := Tab.keep s.mem fun a _ => !s.inBlock p o n a
      memPoison := s.memPoison.keep fun k _ => !s.inBlock p o n (k * 32)
      slices := s.slices.mapVal fun _ x => { x with frames := (x.frames.keep fun _ f => decide (own f ≠ 15)).mapVal fun _ f => clear f } }

/-- The slice that homes byte `o` of a pool: it holds the bay, or homes the channel (R187). -/
def State.poolSlice (s : State) (p o : Nat) : Nat :=
  if (s.hpool p).kind = 1 then s.poolBay p (o / bayBytes) / 18 else s.sliceOf (s.ownLine (s.poolByte p o / 128))

/-- R73: an access to a pinned bay of a gated slice waits before it until it has woken. -/
def State.blockAsleep (s : State) (p o n : Nat) : Bool :=
  decide ((s.hpool p).kind = 1) && (List.range ((o % bayBytes + n + bayBytes - 1) / bayBytes)).any fun i => s.asleep (s.poolSlice p (o + i * bayBytes))

/-- Read within one line of a pool: from the pinned bay that holds it, or at its home (R187, R193). -/
def State.poolLine (s : State) (p o : Nat) (sec : Sectors) (w : Who) (pick : Nat) : LineOut × State :=
  let a := s.poolByte p o
  if s.blockAsleep p o 1 then ({}, s.stalled .hold)
  else if (s.hpool p).kind = 1 then ({ data := readLine s.bays (a / 128 * 128), p := poisonAt s.bayPoison (a / 128 * 128) }, s)
  else s.lineRead (s.ownLine (a / 128)) sec w pick

/-- The masked bytes of that line are written. A part of a poisoned sector is not (R145). -/
def State.poolWrite (s : State) (p o : Nat) (mask : BitVec 128) (x : Line) (po : Sectors) (w : Who) (pick : Nat) : State :=
  let a := s.poolByte p o
  if s.blockAsleep p o 1 then s.stalled .hold
  else if (s.hpool p).kind = 1 then
    let s1 := s.bayMerge (a / 128 * 128) mask x po
    if partialSectors mask &&& poisonAt s.bayPoison (a / 128 * 128) = 0 then s1 else s1.whoPoisoned w
  else (s.lineWrite (s.ownLine (a / 128)) mask x po w pick).2


/-! ### Handles (R246, R248) -/

def handle (k : Nat) (gen : BitVec 8) : Nat := gen.toNat * 2 ^ 24 + k
def handleKey (h : Nat) : Nat := h % 2 ^ 24
def handlePool (h : Nat) : Nat := h / 2 ^ 20 % 16
def handleGen (h : Nat) : BitVec 8 := BitVec.ofNat 8 (h / 2 ^ 24)
def nullHandle : Nat := 0xFFFFFFFF

/-- How a handle stands for a caller (R248, R255, R259, R262). -/
inductive HandleIs where
  | invalid | stale | other (owner : Nat) | live
  deriving DecidableEq, Repr

/-- R248; a buffer whose epoch is not its owner's current one counts as stale (R262). -/
def State.handleIs (s : State) (v h : Nat) : HandleIs :=
  let r := s.hrec (handleKey h)
  if (s.hpool (handlePool h)).kind = 0 then .invalid
  else if h % 2 ^ 20 = 0xFFFFF ∨ r.st ≠ .live ∨ r.gen ≠ handleGen h ∨ r.epoch ≠ (s.vd r.owner).epoch then .stale
  else if r.owner ≠ v then .other r.owner else .live

/-! ### Names die, blocks free (R249, R260) -/

/-- Microseconds of the time base, as STAMP holds them. -/
def State.stampNow (s : State) : Word := BitVec.ofNat 32 (s.now / 1000)

/-- R260: a name dies: GEN goes up, or the index enters quarantine for as long as the cycle lasted, 1 ms to 60 s.
`free` says whether the record becomes FREE now (its block freed) or DYING. -/
def State.nameDies (s : State) (r : HopRec) (keepBlock : Bool) : HopRec :=
  if r.gen = 0xFF then
    let cyc := if r.long then 60000000 else (s.stampNow - r.stamp).toNat
    let q := min 60000000 (max 1000 cyc)
    { r with st := .quarantine, gen := 0, stamp := s.stampNow + BitVec.ofNat 32 q, held := keepBlock }
  else { r with st := if keepBlock then .dying else .free, gen := r.gen + 1, held := keepBlock }

/-- R249, Table 09-3: a LIVE record is freed: its block stays while tasks hold it. -/
def State.freeLive (s : State) (k : Nat) : State :=
  let r := s.hrec k
  s.setHrec k (s.nameDies r (decide (0 < r.refs)))

/-- R249: a reference goes; a DYING buffer whose REFS reach 0 is freed. -/
def State.unref (s : State) (k : Nat) : State :=
  let r := s.hrec k
  let r1 := { r with refs := r.refs - 1 }
  s.setHrec k (if r1.refs = 0 then
      match r1.st with
      | .dying => { r1 with st := .free, held := false }
      | .quarantine => { r1 with held := false }
      | _ => r1
    else r1)

/-- R259, R255: a use of another VD's buffer is counted and recorded in physical terms. -/
def State.misused (s : State) (owner caller : Nat) : State :=
  ({ s with hop := { s.hop with misuse := countAt s.hop.misuse owner } }).post
    { cls := .misuse, status := Status.notOwner.code, vd := caller, detail := owner }

/-! ### Commands -/

/-- R253: the destination of an ALLOC or TRANSFER: class, block and index, or the status that refuses it. -/
def State.allocPlace (s : State) (p size : Nat) (retain : Bool) (near : Option Nat) (pick : Nat) : Except Status (Nat × Nat × Nat) :=
  match s.classFor p size with
  | none => .error .tooLarge
  | some c =>
    match s.chooseBlock p c retain near pick, s.freeIndex p with
    | some o, some i => .ok (c, o, i)
    | _, _ => .error .noSpace

/-- R252: the operand rules that ALLOC and TRANSFER share. -/
def State.allocFieldsOk (s : State) (p near flags : Nat) (adoptOk : Bool) : Bool :=
  decide ((s.hpool p).kind ≠ 0) && (near == 0xFF || decide (near < s.inv.n)) && decide (flags < (if adoptOk then 4 else 2))
    && (decide ((s.hpool p).kind = 1) || flags == 0)

def nearSlice (s : State) (near : Nat) : Option Nat := if near = 0xFF then none else some (s.liveSlice (s.inv.physSlice near))

def State.countNoSpace (s : State) (p : Nat) (st : Status) : State :=
  if st = .noSpace then { s with hop := { s.hop with noSpaceCnt := countAt s.hop.noSpaceCnt p } } else s

/-- ALLOC (R253, R254). -/
def State.hopAlloc (s : State) (q : Nat) (c : Cmd) (pick : Nat) : State :=
  let p := c.opx % 16
  let size := c.f 0x18 4
  let near := c.f 0x1C 1
  let flags := c.f 0x1D 1
  let old := c.f 0x20 4
  if bit flags 1 then
    if !s.allocFieldsOk p 0xFF flags true then s.engineDone q .invalidField
    else
      let r := s.hrec (handleKey old)
      if r.st = .retained ∧ r.owner = c.vd ∧ r.gen = handleGen old + 1 ∧ old % 2 ^ 20 ≠ 0xFFFFF then
        if s.quotaBuf c.vd ≤ (s.vd c.vd).useBuf then s.engineDone q .quota
        else
          let s1 := (s.setHrec (handleKey old) { r with st := .live, epoch := (s.vd c.vd).epoch }).modVd c.vd fun x => { x with useBuf := x.useBuf + 1 }
          let s2 := { s1 with hop := { s1.hop with allocCnt := countAt s1.hop.allocCnt (handlePool old) } }
          s2.engineDone q .ok (handle (handleKey old) r.gen)
      else s.engineDone q .staleHandle
  else if !s.allocFieldsOk p near flags true || size == 0 then s.engineDone q .invalidField
  else
    match s.classFor p size with
    | none => s.engineDone q .tooLarge
    | some _ =>
      if s.quotaBuf c.vd ≤ (s.vd c.vd).useBuf then s.engineDone q .quota
      else
        match s.allocPlace p size (bit flags 0) (nearSlice s near) pick with
        | .error st => (s.countNoSpace p st).engineDone q st
        | .ok (cl, o, i) =>
          if s.blockAsleep p o (s.classSize p cl) then s.stalled .hold else
          let k := hopKey p i
          let r := s.hrec k
          let s1 := s.zeroBlock p o (s.classSize p cl)
          let s2 := s1.setHrec k { r with st := .live, inRetain := decide ((s.hpool p).kind = 1) && s.bayRetain (s.poolBay p (o / bayBytes)), cls := cl, owner := c.vd, epoch := (s.vd c.vd).epoch, refs := 0, base := o / 64, held := true }
          let s3 := (s2.modVd c.vd fun x => { x with useBuf := x.useBuf + 1 })
          let s4 := { s3 with hop := { s3.hop with allocCnt := countAt s3.hop.allocCnt p } }
          s4.engineDone q .ok (handle k r.gen)

/-- FREE (R255, R256). -/
def State.hopFree (s : State) (q : Nat) (c : Cmd) : State :=
  let h := c.f 0x18 4
  let k := handleKey h
  let r := s.hrec k
  let counted (s : State) : State := { s with hop := { s.hop with freeCnt := countAt s.hop.freeCnt (handlePool h) } }
  if (s.hpool (handlePool h)).kind = 0 then s.engineDone q .invalidField
  else if h = nullHandle then s.engineDone q .ok
  else if r.st = .retained ∧ r.owner = c.vd ∧ r.gen = handleGen h ∧ h % 2 ^ 20 ≠ 0xFFFFF then
    (counted (s.setHrec k { r with st := .free, held := false })).engineDone q .ok
  else
    match s.handleIs c.vd h with
    | .other o => (s.misused o c.vd).engineDone q .notOwner
    | .live => (counted ((s.freeLive k).modVd c.vd fun x => { x with useBuf := x.useBuf - 1 })).engineDone q .ok
    | _ => s.engineDone q .staleHandle

/-- Table 09-6, buffer form. -/
def State.queryBuf (s : State) (h : Nat) : List Byte :=
  let r := s.hrec (handleKey h)
  let p := handlePool h
  leBytes 4 h ++ leBytes 4 (s.classSize p r.cls) ++ leBytes 1 1 ++ leBytes 1 (b2n r.inRetain) ++ leBytes 2 r.refs
    ++ leBytes 4 (if (s.hpool p).kind = 1 then s.inv.virtSlice (s.poolBay p (r.base * 64 / bayBytes) / 18) else 0xFFFFFFFF)
    ++ leBytes 48 0

/-- Table 09-6, pool form. -/
def State.queryPool (s : State) (v p : Nat) : List Byte :=
  let spans := List.range (s.spanCount p)
  leBytes 4 (p + 16 * (s.hpool p).kind) ++ leBytes 4 (s.hpool p).classes.length
    ++ leBytes 4 (spans.filter (s.spanUnassigned p)).length
    ++ leBytes 4 (s.hop.recs.filter fun e => decide (e.1 / 2 ^ 20 = p) && decide (e.2.st = .live) && decide (e.2.owner = v)).length
    ++ (List.range 8).flatMap (fun c => leBytes 4 (if c < (s.hpool p).classes.length then
        ((spans.filter fun n => s.spanOf p n c).map fun n => (s.freeIn p n c).length).foldl (· + ·) 0 else 0))
    ++ leBytes 16 0

/-- QUERY (R257). -/
def State.hopQuery (s : State) (q : Nat) (c : Cmd) (x : Ext) : State :=
  let h := c.f 0x18 4
  let dest := c.f 0x20 8
  let put (bs : List Byte) : State :=
    match s.vdWrite c.vd dest bs false (c.who q) x with
    | (none, s1) => s1.engineDone q .ok
    | (some (st, a), s1) => s1.engineDone q st a .faulted a
  if (s.hpool (handlePool h)).kind = 0 ∨ dest % 64 ≠ 0 then s.engineDone q .invalidField
  else if h % 2 ^ 20 = 0xFFFFF then put (s.queryPool c.vd (handlePool h))
  else
    match s.handleIs c.vd h with
    | .other _ => s.engineDone q .notOwner
    | .live => put (s.queryBuf h)
    | _ => s.engineDone q .staleHandle

/-- TRANSFER up to its copy: checks, destination, and the copy that is then under way (R258). -/
def State.hopTransfer (s : State) (q : Nat) (c : Cmd) (pick : Nat) : State :=
  let h := c.f 0x18 4
  let near := c.f 0x1C 1
  let flags := c.f 0x1D 1
  let p := c.opx % 16
  let k := handleKey h
  let r := s.hrec k
  if (s.hpool (handlePool h)).kind = 0 ∨ 2 ≤ flags then s.engineDone q .invalidField
  else
    match s.handleIs c.vd h with
    | .other o => (s.misused o c.vd).engineDone q .notOwner
    | .live =>
      if !s.allocFieldsOk p near flags false then s.engineDone q .invalidField
      else
        match s.allocPlace p (s.classSize (handlePool h) r.cls) (bit flags 0) (nearSlice s near) pick with
        | .error st => (s.countNoSpace p st).engineDone q st
        | .ok (cl, o, i) =>
          if 0 < r.refs then s.engineDone q .inUse
          else
            let t : Transfer := { cmd := q, vd := c.vd, epoch := c.epoch, src := k, dst := hopKey p i, cls := cl, base := o / 64,
                                  inRetain := decide ((s.hpool p).kind = 1) && s.bayRetain (s.poolBay p (o / bayBytes)) }
            ({ s with hop := { s.hop with transfers := s.hop.transfers ++ [t] } }).modCmd q fun c => { c with st := .running }
    | _ => s.engineDone q .staleHandle

/-- R258: 64 bytes of a block; blocks lie at multiples of 64 bytes. -/
def State.copyHalf (w : Who) (pick p o p' o' : Nat) (s : State) : State :=
  let h := o / 64 % 2
  let h' := o' / 64 % 2
  match s.poolLine p o (BitVec.ofNat 4 (3 * 4 ^ h)) w pick with
  | (y, s1) =>
    s1.poolWrite p' o' (BitVec.ofNat 128 ((2 ^ 64 - 1) * 2 ^ (64 * h'))) ((y.data >>> (512 * h)) <<< (512 * h')) ((y.p >>> (2 * h)) <<< (2 * h')) w pick

/-- R258: copy a block. -/
def State.copyBlock (s : State) (w : Who) (pick p o p' o' n : Nat) : State :=
  (List.range (n / 64)).foldl (fun s i => State.copyHalf w pick p (o + 64 * i) p' (o' + 64 * i) s) s

/-- TRANSFER's switch step: the destination becomes LIVE and the source dies as a FREE would (R258). -/
def State.transferSwitch (s : State) (q pick : Nat) : State :=
  match s.hop.transfers.find? fun t => decide (t.cmd = q) with
  | none => s
  | some t =>
    let s0 := { s with hop := { s.hop with transfers := s.hop.transfers.filter fun t => decide (t.cmd ≠ q) } }
    if (s.vd t.vd).epoch ≠ t.epoch then s0
    else
      let r := s.hrec t.src
      let p := t.dst / 2 ^ 20
      let s1 := s0.zeroBlock p (t.base * 64) (s.classSize p t.cls)
      let s2 := s1.copyBlock { vd := t.vd, cmd := some q } pick (t.src / 2 ^ 20) (r.base * 64) p (t.base * 64) (s.classSize (t.src / 2 ^ 20) r.cls)
      let d := s2.hrec t.dst
      let s3 := s2.setHrec t.dst { d with st := .live, inRetain := t.inRetain, cls := t.cls, owner := t.vd, epoch := t.epoch, refs := 0, base := t.base, held := true }
      let s4 := s3.freeLive t.src
      ({ s4 with hop := { s4.hop with allocCnt := countAt s4.hop.allocCnt p } }).engineDone q .ok (handle t.dst d.gen)

/-- R260: quarantine ends. DESIGN CHOICE (notes/assumptions/52.md): an index whose time has passed with REFS above 0 stays in QUARANTINE
until its block is no longer held. -/
def State.quarantineEnd (s : State) (k : Nat) : State :=
  let r := s.hrec k
  if r.st = .quarantine ∧ r.held = false ∧ (s.stampNow - r.stamp).toNat < 2 ^ 31 then
    s.setHrec k { r with st := .free, gen := 0, long := false, stamp := s.stampNow }
  else s

/-- R260: the background pass sets LONG on the records of used pools whose cycle has lasted 60 s. -/
def State.hopperPass (s : State) : State :=
  s.mapHrec fun r => if r.st ≠ .quarantine ∧ 60000000 ≤ (s.stampNow - r.stamp).toNat then { r with long := true } else r

/-- R260: at Memory Active after a cold reset every index begins its first generation cycle. -/
def State.hopStart (s : State) : State := s.mapHrec fun r => { r with stamp := s.stampNow, long := false }

/-- R262: the sweep revokes a record of a VD whose epoch has passed. DESIGN CHOICE (notes/assumptions/52.md): a record in retain bays at
GEN 0xFF is RETAINED at GEN 0x00 without a quarantine, and STAMP and LONG stay. -/
def State.revokeRec (s : State) (k : Nat) : State :=
  let r := s.hrec k
  if r.inRetain then s.setHrec k { r with st := .retained, gen := r.gen + 1 }
  else
    let p := k / 2 ^ 20
    let s1 := if (s.hpool p).kind = 1 then s.zeroBlock p (r.base * 64) (s.classSize p r.cls) else s
    s1.setHrec k (s.nameDies r (decide (0 < r.refs)))

/-- R262, R258: step 5 of a VD reset: every LIVE record of an older epoch, and transfers not yet switched. -/
def State.hopSweep (s : State) (v : Nat) : State :=
  let ks := (s.hop.recs.filter fun e => decide (e.2.st = .live) && decide (e.2.owner = v) && decide (e.2.epoch ≠ (s.vd v).epoch)).map (·.1)
  let s1 := { s with hop := { s.hop with transfers := s.hop.transfers.filter fun t => decide (t.vd ≠ v) || decide (t.epoch = (s.vd v).epoch) } }
  (ks.foldl State.revokeRec s1).modVd v fun x => { x with useBuf := 0 }

/-- R264: what warm reset step 5 makes of a record. -/
def State.warmRec (s : State) (r : HopRec) : HopRec :=
  match r.st with
  | .retained => r
  | .quarantine => { r with held := false, refs := 0 }
  | .live => if r.inRetain then { r with st := .retained, gen := r.gen + 1, refs := 0 } else { s.nameDies r false with refs := 0 }
  | _ => { s.nameDies r false with refs := 0 }

/-- R264: warm reset step 5: every pool returns to its image configuration. -/
def State.hopWarm (s : State) : State :=
  let s1 := s.mapHrec s.warmRec
  { s1 with hop := { s1.hop with transfers := [] } }

/-- R250: a pool's commands are processed one at a time: while a TRANSFER copies, its pools take no other. -/
def State.poolBusy (s : State) (p : Nat) : Bool := s.hop.transfers.any fun t => decide (t.src / 2 ^ 20 = p) || decide (t.dst / 2 ^ 20 = p)

/-- A Hopper command of an opcode whose pools, among those that it names, are free. -/
def State.hopCmd (s : State) (q op : Nat) (pools : Cmd → List Nat) : Option Cmd :=
  match s.engineCmd q op with
  | some c => if (pools c).any s.poolBusy then none else some c
  | none => none

/-! ### Meanings -/

/-- ALLOC without ADOPT (R253); with the flag the command is served by the row ADOPT. -/
def execHopAlloc (cmd pick : Nat) (s : State) : Res :=
  .next (s.orWait pick fun s =>
    match s.hopCmd cmd 0x20 fun c => [c.opx % 16] with
    | some c => if bit (c.f 0x1D 1) 1 then s else s.hopAlloc cmd c pick
    | none => s)

/-- ALLOC with ADOPT is the same opcode; this row acts on a command that sets the flag (R254). -/
def execHopAdopt (cmd pick : Nat) (s : State) : Res :=
  .next (s.orWait pick fun s =>
    match s.hopCmd cmd 0x20 fun c => [c.opx % 16, handlePool (c.f 0x20 4)] with
    | some c => if bit (c.f 0x1D 1) 1 then s.hopAlloc cmd c pick else s
    | none => s)

/-- FREE (R255). -/
def execHopFree (cmd : Nat) (s : State) : Res :=
  match s.hopCmd cmd 0x21 fun c => [handlePool (c.f 0x18 4)] with
  | some c => .next (s.hopFree cmd c)
  | none => .next s

/-- QUERY (R257). -/
def execHopQuery (cmd : Nat) (x : Ext) (s : State) : Res :=
  .next (s.orWait x.pick fun s =>
    match s.hopCmd cmd 0x22 fun c => [handlePool (c.f 0x18 4)] with
    | some c => s.hopQuery cmd c x
    | none => s)

/-- TRANSFER (R258). -/
def execHopTransfer (cmd pick : Nat) (s : State) : Res :=
  match s.hopCmd cmd 0x23 fun c => [c.opx % 16, handlePool (c.f 0x18 4)] with
  | some c => .next (s.hopTransfer cmd c pick)
  | none => .next s

/-- TRANSFER's switch (R258). -/
def execTransferSwitch (cmd : Nat) (x : Ext) (s : State) : Res := .next (s.orWait x.pick fun s => s.transferSwitch cmd x.pick)

/-- The quarantine of an index ends (R260). -/
def execQuarantineEnd (pool index : Nat) (s : State) : Res := .next (s.quarantineEnd (hopKey pool index))

/-- The background pass (R260). -/
def execHopperBackgroundPass (s : State) : Res := .next s.hopperPass

end Sys2Proof.Machine
end

