-- ==== Sys2Proof/Machine/Pennant.lean ====
section
/-! DEFINITION. Pennants: the state word (R317), bindings (R319), waits (R323-R326), signals (R327-R329), abandonment
(R330, R331), export and import (R332-R336). Peers' operations travel as messages of the pool. -/
namespace Sys2Proof.Machine

/-! ### Words and bindings -/

def State.penn (s : State) (p : Nat) : Pen := s.pen.pens.getD p {}
def State.setPenn (s : State) (p : Nat) (x : Pen) : State := { s with pen := { s.pen with pens := s.pen.pens.setD p {} x } }

/-- R316: pennant `p` belongs to slice `p / 128`, which must be present; a retired die's pennants are gone (R330). -/
def State.penPresent (s : State) (p : Nat) : Bool :=
  decide (p < 8192) && s.inv.slices.contains (p / 128) && decide ((s.die (p / 1024)).st = .active)

def State.exportOf (s : State) (p : Nat) : Option (Nat × Export) := s.pen.exports.find? fun e => decide (e.2.pen = p)

/-- Table 12-1 as a 64-bit word. -/
def State.penWord (s : State) (p : Nat) : DWord :=
  let x := s.penn p
  BitVec.ofNat 64 (x.count.toNat + x.owner * 2 ^ 48 + (match x.st with | .free => 0 | .leased => 1 | .abandoned => 2) * 2 ^ 54
    + b2n x.saturated * 2 ^ 56 + b2n (s.exportOf p).isSome * 2 ^ 57 + b2n x.epochPar * 2 ^ 58
    + b2n (s.pen.regs.any fun r => decide (r.pen = p) && decide (r.place = .overflow)) * 2 ^ 59)

def State.binding (s : State) (v n : Nat) : Option Binding := (s.vd v).bind.find n
def State.setBinding (s : State) (v n : Nat) (b : Binding) : State := s.modVd v fun x => { x with bind := x.bind.put n b }
/-- What happens to bindings happens to those of an old epoch too, until the reset frees what they hold (R320). -/
def Vd.mapBind (x : Vd) (f : Binding → Binding) : Vd := { x with bind := x.bind.mapVal fun _ b => f b, oldBind := x.oldBind.mapVal fun _ b => f b }

/-- The binding of a number that a command of some epoch uses. -/
def State.bindingIn (s : State) (v : Nat) (epoch : BitVec 16) (n : Nat) : Option Binding :=
  if epoch = (s.vd v).epoch then s.binding v n else (s.vd v).oldBind.find n

def State.unbind (s : State) (v n : Nat) : State := s.modVd v fun x => { x with bind := x.bind.del n }

/-- R332: the fields of a ticket (Table 12-4). -/
def ticketSlot (t : Nat) : Nat := t % 1024
def ticketDev (t : Nat) : Nat := t / 1024 % 128
def ticketKey (t : Nat) : BitVec 31 := BitVec.ofNat 31 (t / 2 ^ 17)
def ticketOf (slot dev : Nat) (key : BitVec 31) : Nat := slot + dev * 1024 + key.toNat * 2 ^ 17

/-- The device number a ticket of this device carries: 0 outside a pool. -/
def State.ticketOwn (s : State) : Nat := s.pool.devnum

/-- R168: the lease of a pennant is of its VD's current epoch; from the increment on it can be neither signalled nor waited on, though
the sweep reclaims it only later. -/
def State.penCurrent (s : State) (p : Nat) : Bool := decide ((s.penn p).epochPar = (s.vd (s.penn p).owner).epoch.getLsbD 0)

/-- The operands PEN and VALUE. -/
def Cmd.pen (c : Cmd) : Nat := c.f 0x18 2
def Cmd.value (c : Cmd) : Nat := c.f 0x20 6

/-- The number that a command waits through: its WAIT_PEN while it is QUEUED, else the PEN of an ARM (R323). -/
def Cmd.waitsOn (c : Cmd) : Option Nat := if c.wait ≠ .registered then none else if c.st = .queued then some c.waitPen else some c.pen

/-! ### Waits met and released (R323, R325, R330) -/

/-- An ARM ends: its target was met, or its pennant was abandoned. -/
def State.armEnd (s : State) (q : Nat) (st : Status) (n : Nat) : State :=
  (s.engineDone q st n (if st = .abandoned then .cancelled else .done)).modCmd q fun c => { c with wait := .met }

/-- A registration is released: its command's wait is met or abandoned, or a wake goes to the peer (R325). An ARM ends. -/
def State.release (s : State) (r : PenReg) (met : Bool) : State :=
  match r.who with
  | .cmd q =>
    match s.cmd? q with
    | none => s
    | some c =>
      if c.opcode = 3 ∧ c.st ≠ .queued then
        if met then s.armEnd q .ok (s.penn r.pen).count.toNat else s.armEnd q .abandoned 0
      else s.setCmd q { c with wait := if met then .met else .abandoned }
  | .peer d v t =>
    s.send (.penWake d v t (if met then .ok else .abandoned) (s.penn r.pen).count.toNat)

/-- R323, R325: after an operation on a pennant, every registration whose target is reached is released. -/
def State.checkWaits (s : State) (p : Nat) : State :=
  let met (r : PenReg) : Bool := decide (r.pen = p) && decide (r.target ≤ (s.penn p).count.toNat) && decide (r.place ≠ .waiting)
  let s1 := { s with pen := { s.pen with regs := s.pen.regs.filter fun r => !met r } }
  (s.pen.regs.filter met).foldl (fun s r => s.release r true) s1

/-- R327, R328: an add, saturating at 2^48 - 1. -/
def State.penAdd (s : State) (p n : Nat) : State :=
  let x := s.penn p
  let m := 2 ^ 48 - 1
  let y := x.count.toNat + n
  (s.setPenn p { x with count := BitVec.ofNat 48 (min m y), saturated := x.saturated || decide (m < y) || decide (y = m) }).checkWaits p

/-- R323: an ARM whose registration has its entry holds no task slot. -/
def State.armRecorded (s : State) (q : Nat) (c : Cmd) : State :=
  if c.opcode = 3 ∧ c.st ≠ .queued ∧ c.slot then
    (s.setCmd q { c with slot := false }).modVd c.vd fun x => { x with useTask := x.useTask - 1 }
  else s

/-- What a registration asks for an overflow entry with: a peer's carries the class and weight of its VD and draws on the shared remainder
(R324). -/
def State.penAsk (s : State) (r : PenReg) : Ask := match r.who with | .cmd _ => s.ask r.vd | .peer d _ _ => peerAsk d r.vd r.qos

/-- Entries of the overflow list that a requester holds (R324). -/
def State.useOvf (s : State) (v : Nat) : Nat :=
  (s.pen.regs.filter fun r => decide (r.place = .overflow) && decide ((s.penAsk r).share = v)).length

/-- Registrations that wait for an entry, oldest first. -/
def State.penWaiting (s : State) : List PenReg := s.pen.regs.filter fun r => decide (r.place = .waiting)

/-- One of the 32 entries of a pennant is free. -/
def State.penOwnFree (s : State) (p : Nat) : Bool := decide ((s.pen.regs.filter fun r => decide (r.pen = p) && decide (r.place = .own)).length < 32)

/-- A registration has an entry: an ARM's task slot is freed (R323), and the peer of a remote one is told (R334). -/
def State.recorded (s : State) (r : PenReg) : State :=
  match r.who with
  | .cmd q => match s.cmd? q with | some c => s.armRecorded q c | none => s
  | .peer d v t => s.send (.penAnswer d v t .recorded)

/-- R324: a registration takes one of the pennant's 32 entries, an overflow entry, or waits for one. -/
def State.register (s : State) (p vd target : Nat) (who : PenWho) (qos : Nat := 0) : State :=
  let r : PenReg := { pen := p, who := who, vd := vd, target := target, place := .waiting, qos := qos }
  let place : RegPlace :=
    if s.penOwnFree p then .own
    else if s.mayEnter .penOverflow s.useOvf (s.penWaiting.map fun w => (s.penAsk w).share) (s.penAsk r).share then .overflow else .waiting
  let r1 := { r with place := place }
  let s1 := { s with pen := { s.pen with regs := s.pen.regs ++ [r1] } }
  if place = .waiting then { s1 with pen := { s1.pen with ovfWaitCnt := s1.pen.ovfWaitCnt + 1 } } else s1.recorded r1

/-- A waiting registration takes an entry: its condition is evaluated (R324), unless its lease is of an old epoch (R168). -/
def State.penTake (s : State) (r : PenReg) (place : RegPlace) : State :=
  let r1 := { r with place := place }
  let s1 := { s with pen := { s.pen with regs := s.pen.regs.map fun y => if y = r then r1 else y } }
  if s.penCurrent r.pen && decide (r.target ≤ (s.penn r.pen).count.toNat) then s1.checkWaits r.pen else s1.recorded r1

/-- R326: registrations are withdrawn. A peer's that still waited is answered, so that its remote operation ends. -/
def State.withdraw (s : State) (f : PenReg → Bool) : State :=
  (s.pen.regs.filter fun r => f r && decide (r.place = .waiting)).foldl (fun s r => match r.who with | .peer _ _ _ => s.recorded r | .cmd _ => s)
    { s with pen := { s.pen with regs := s.pen.regs.filter fun r => !f r } }

/-! ### Abandonment (R330) -/

/-- The registration is of a command that waits through an IMPORT binding. -/
def State.importWait (s : State) (r : PenReg) : Bool :=
  match r.who with
  | .peer _ _ _ => true
  | .cmd q =>
    match s.cmd? q with
    | some c => (match c.waitsOn.bind (s.bindingIn c.vd c.epoch) with | some (.imported _ _) => true | _ => false)
    | none => false

/-- The revocation of an export: every importer's binding becomes ABANDONED, and waits through it end (R330, R335). A peer's registrations
are freed; it ends their commands itself. -/
def State.revokeExport (s : State) (p : Nat) : State :=
  match s.exportOf p with
  | none => s
  | some (k, e) =>
    let t := ticketOf k s.ticketOwn e.key
    let hit (r : PenReg) : Bool := decide (r.pen = p) && s.importWait r
    let s0 := (s.pen.regs.filter hit).foldl (fun s r => match r.who with | .cmd _ => s.release r false | .peer _ _ _ => s) (s.withdraw hit)
    let s1 := { s0 with pen := { s0.pen with exports := s0.pen.exports.del k } }
    e.imports.foldl (fun s i =>
      if i.1 = s.pool.devnum then
        s.modVd i.2 fun x => x.mapBind fun b => if b = .imported t false then .imported t true else b
      else s.send (.penRevoke i.1 i.2 t)) s1

/-- R330: a pennant becomes ABANDONED: waiters are released, the export is revoked, the owner's binding is marked, and the
pennant becomes FREE. -/
def State.penAbandon (s : State) (p : Nat) : State :=
  let x := s.penn p
  let s1 := (s.pen.regs.filter fun r => decide (r.pen = p)).foldl (fun s r => s.release r false) (s.withdraw fun r => decide (r.pen = p))
  let s2 := s1.revokeExport p
  let s3 := s2.modVd x.owner fun y => y.mapBind fun b => if b = .lease p false then .lease p true else b
  let s4 := s3.setPenn p {}
  { s4 with pen := { s4.pen with abandonCnt := s4.pen.abandonCnt + 1 } }

/-! ### PEN operations (Table 12-3) -/

/-- A PEN command of an operation, READY and not yet served. -/
def State.penCmd (s : State) (q op : Nat) : Option Cmd :=
  match s.engineCmd q 3 with
  | some c => if c.opx % 16 = op then some c else none
  | none => none

/-- The 48-bit results of PEN. -/
def State.penDone (s : State) (q : Nat) (st : Status) (result : Nat := 0) : State :=
  s.engineDone q st result (if st = .abandoned then .cancelled else .done)

/-- R334: a PEN operation through an IMPORT travels to the owner's device as a remote operation with the ticket. -/
def State.penRemote (s : State) (q : Nat) (c : Cmd) (op ticket value : Nat) : State :=
  if ticketDev ticket ≠ s.pool.devnum ∧ s.gone (ticketDev ticket) then s.penDone q .deviceGone
  else
    (s.sendRemote { kind := .pen, dev := ticketDev ticket, tag := q, who := c.who q, epoch := c.epoch }
      (.penReq (ticketDev ticket) c.vd q op ticket value)).modCmd q fun c => { c with st := .running }

/-- R333, R336: a ticket presented to its owner: the pennant it names, or none. A ticket of a lease of the old epoch is a stale one
(R168). -/
def State.ticketPen (s : State) (t : Nat) : Option (Nat × Export) :=
  match s.pen.exports.find (ticketSlot t) with
  | some e => if e.key = ticketKey t ∧ s.penCurrent e.pen then some (ticketSlot t, e) else none
  | none => none

/-- LEASE (R321). -/
def execPenLease (cmd pick : Nat) (s : State) : Res :=
  match s.penCmd cmd 0 with
  | none => .next s
  | some c =>
    if (s.binding c.vd c.pen).isSome then .next (s.penDone cmd .inUse)
    else if s.quotaPen c.vd ≤ (s.vd c.vd).bind.length then .next (s.penDone cmd .quota)
    else
      let ok (p : Nat) : Bool := s.penPresent p && decide ((s.penn p).st = .free)
      match (if ok pick then some pick else (List.range 8192).find? ok) with
      | none => .next (s.penDone cmd .noSpace)
      | some p =>
        let s1 := s.setPenn p { count := BitVec.ofNat 48 c.value, owner := c.vd, st := .leased, epochPar := (s.vd c.vd).epoch.getLsbD 0 }
        .next ((s1.setBinding c.vd c.pen (.lease p false)).penDone cmd .ok c.value)

/-- DROP (R321, R326, R330). -/
def execPenDrop (cmd : Nat) (s : State) : Res :=
  match s.penCmd cmd 1 with
  | none => .next s
  | some c =>
    match s.binding c.vd c.pen with
    | none => .next (s.penDone cmd .noPennant)
    | some (.lease p dead) =>
      let s1 := s.unbind c.vd c.pen
      .next ((if dead then s1 else s1.penAbandon p).penDone cmd .ok)
    | some (.imported t dead) =>
      let s1 := s.unbind c.vd c.pen
      if dead then .next (s1.penDone cmd .ok)
      else if ticketDev t = s.pool.devnum then
        match s.ticketPen t with
        | some (k, e) =>
          let s2 := s1.withdraw fun r => decide (r.pen = e.pen) && decide (r.vd = c.vd) && (match r.who with
            | .cmd q => (match s.cmd? q with | some d => decide (d.waitPen = c.pen) || decide (d.opcode = 3 ∧ d.pen = c.pen) | none => false)
            | .peer _ _ _ => false)
          let s3 := { s2 with pen := { s2.pen with exports := s2.pen.exports.put k { e with imports := e.imports.erase (s.pool.devnum, c.vd) } } }
          .next (s3.penDone cmd .ok)
        | none => .next (s1.penDone cmd .ok)
      else .next ((s1.sendRemote { kind := .pen, dev := ticketDev t, tag := cmd, who := c.who cmd, epoch := c.epoch, posted := true }
        (.penReq (ticketDev t) c.vd cmd 1 t 0)).penDone cmd .ok)

/-- SIGNAL (R321, R327, R328). -/
def execPenSignal (cmd : Nat) (s : State) : Res :=
  match s.penCmd cmd 2 with
  | none => .next s
  | some c =>
    match s.binding c.vd c.pen with
    | none => .next (s.penDone cmd .noPennant)
    | some (.lease p dead) =>
      if dead then .next (s.penDone cmd .abandoned)
      else
        let s1 := s.penAdd p c.value
        .next (s1.penDone cmd .ok (s1.penn p).count.toNat)
    | some (.imported t dead) =>
      if dead then .next (s.penDone cmd .abandoned)
      else if ticketDev t = s.pool.devnum then
        match s.ticketPen t with
        | some (_, e) =>
          let s1 := s.penAdd e.pen c.value
          .next (s1.penDone cmd .ok (s1.penn e.pen).count.toNat)
        | none => .next (({ s with pen := { s.pen with dropCnt := s.pen.dropCnt + 1 } }).penDone cmd .abandoned)
      else .next (s.penRemote cmd c 2 t c.value)

/-- RESET (R321, R328). -/
def execPenReset (cmd : Nat) (s : State) : Res :=
  match s.penCmd cmd 3 with
  | none => .next s
  | some c =>
    match s.binding c.vd c.pen with
    | none => .next (s.penDone cmd .noPennant)
    | some (.imported _ _) => .next (s.penDone cmd .notOwner)
    | some (.lease p dead) =>
      if dead then .next (s.penDone cmd .abandoned)
      else
        let s1 := (s.setPenn p { s.penn p with count := BitVec.ofNat 48 c.value, saturated := false }).checkWaits p
        .next (s1.penDone cmd .ok c.value)

/-- READ (R321). -/
def execPenRead (cmd : Nat) (s : State) : Res :=
  match s.penCmd cmd 4 with
  | none => .next s
  | some c =>
    match s.binding c.vd c.pen with
    | none => .next (s.penDone cmd .noPennant)
    | some (.lease p dead) => .next (s.penDone cmd .ok (if dead then 2 ^ 48 else (s.penn p).count.toNat))
    | some (.imported t dead) =>
      if dead then .next (s.penDone cmd .ok (2 ^ 48))
      else if ticketDev t = s.pool.devnum then
        match s.ticketPen t with
        | some (_, e) => .next (s.penDone cmd .ok (s.penn e.pen).count.toNat)
        | none => .next (({ s with pen := { s.pen with dropCnt := s.pen.dropCnt + 1 } }).penDone cmd .abandoned)
      else .next (s.penRemote cmd c 4 t 0)

/-- R323: an ARM whose target is reached ends; otherwise its wait is registered. -/
def State.penArm (s : State) (q : Nat) (c : Cmd) (p : Nat) : State :=
  if c.value ≤ (s.penn p).count.toNat then s.penDone q .ok (s.penn p).count.toNat
  else (s.modCmd q fun c => { c with st := .running, wait := .registered }).register p c.vd c.value (.cmd q)

/-- An ARM through a peer's pennant waits from now on, unless its device is gone. -/
def State.armRemote (s : State) (q : Nat) (c : Cmd) (t : Nat) : State :=
  (s.penRemote q c 5 t c.value).modCmd q fun c => if c.engineFin.isNone then { c with wait := .registered } else c

/-- ARM (R321, R323). -/
def execPenArm (cmd : Nat) (s : State) : Res :=
  match s.penCmd cmd 5 with
  | none => .next s
  | some c =>
    match s.binding c.vd c.pen with
    | none => .next (s.penDone cmd .noPennant)
    | some (.lease p dead) => if dead then .next (s.penDone cmd .abandoned) else .next (s.penArm cmd c p)
    | some (.imported t dead) =>
      if dead then .next (s.penDone cmd .abandoned)
      else if ticketDev t = s.pool.devnum then
        match s.ticketPen t with
        | some (_, e) => .next (s.penArm cmd c e.pen)
        | none => .next (({ s with pen := { s.pen with dropCnt := s.pen.dropCnt + 1 } }).penDone cmd .abandoned)
      else .next (s.armRemote cmd c t)

/-- EXPORT (R321, R332): a slot and a random key, or the slot the pennant holds. -/
def execPenExport (cmd pick : Nat) (s : State) : Res :=
  match s.penCmd cmd 6 with
  | none => .next s
  | some c =>
    match s.binding c.vd c.pen with
    | none => .next (s.penDone cmd .noPennant)
    | some (.imported _ _) => .next (s.penDone cmd .notOwner)
    | some (.lease p dead) =>
      if dead then .next (s.penDone cmd .abandoned)
      else
        match s.exportOf p with
        | some (k, e) => .next (s.penDone cmd .ok (ticketOf k s.ticketOwn e.key))
        | none =>
          let free := (List.range 1024).filter fun k => (s.pen.exports.find k).isNone
          match pickFrom free pick with
          | none => .next (s.penDone cmd .noGrant)
          | some k =>
            let (r, s1) := s.draw
            let key := r.setWidth 31
            let s2 := { s1 with pen := { s1.pen with exports := s1.pen.exports.put k { pen := p, key := key } } }
            .next (s2.penDone cmd .ok (ticketOf k s.ticketOwn key))

/-- R333: the owner's check of an IMPORT: an importer's place and the count, or a management record. -/
def State.importCheck (s : State) (t dev vd : Nat) : Option Nat × State :=
  match s.ticketPen t with
  | some (k, e) =>
    if e.imports.length < 16 then
      (some (s.penn e.pen).count.toNat, { s with pen := { s.pen with exports := s.pen.exports.put k { e with imports := e.imports ++ [(dev, vd)] } } })
    else (none, s.post { cls := .protocol, device := some dev })
  | none => (none, s.post { cls := .protocol, device := some dev })

/-- IMPORT (R321, R333). -/
def execPenImport (cmd : Nat) (s : State) : Res :=
  match s.penCmd cmd 7 with
  | none => .next s
  | some c =>
    let t := c.value
    if (s.binding c.vd c.pen).isSome then .next (s.penDone cmd .inUse)
    else if s.quotaPen c.vd ≤ (s.vd c.vd).bind.length then .next (s.penDone cmd .quota)
    else if ticketDev t = s.pool.devnum then
      match s.importCheck t s.pool.devnum c.vd with
      | (some n, s1) => .next ((s1.setBinding c.vd c.pen (.imported t false)).penDone cmd .ok n)
      | (none, s1) => .next (s1.penDone cmd .notGranted)
    else .next (s.penRemote cmd c 7 t 0)

/-- UNEXPORT (R321, R335). -/
def execPenUnexport (cmd : Nat) (s : State) : Res :=
  match s.penCmd cmd 8 with
  | none => .next s
  | some c =>
    match s.binding c.vd c.pen with
    | none => .next (s.penDone cmd .noPennant)
    | some (.imported _ _) => .next (s.penDone cmd .notOwner)
    | some (.lease p dead) =>
      if dead then .next (s.penDone cmd .abandoned) else .next ((s.revokeExport p).penDone cmd .ok)

/-- R329: the termination signal of a command. -/
def State.terminationSignal (s : State) (v n inc : Nat) : State :=
  let drop (s : State) : State := s.modVd v fun x => { x with penDropCnt := x.penDropCnt + 1 }
  match s.binding v n with
  | some (.lease p false) => s.penAdd p inc
  | some (.imported t false) =>
    if ticketDev t = s.pool.devnum then
      match s.ticketPen t with
      | some (_, e) => s.penAdd e.pen inc
      | none => drop { s with pen := { s.pen with dropCnt := s.pen.dropCnt + 1 } }
    else s.sendRemote { kind := .pen, dev := ticketDev t, tag := 0, who := { vd := v }, epoch := (s.vd v).epoch, posted := true }
      (.penReq (ticketDev t) v 0 16 t inc)
  | _ => drop s

end Sys2Proof.Machine
end

