-- ==== Sys2Proof/Machine/Sluice.lean ====
section
/-! DEFINITION. Sluice and Fantail: page moves (R284, R285), promotion (R288, R289), Fantail's evaluation (R286-R291), shared
ranges (R279-R281), the release of pages (R276) and the Sluice commands (R278). -/
namespace Sys2Proof.Machine

/-! ### Pages and their frames -/

def State.ownFrame (s : State) (f : Nat) : Nat := s.pool.devnum * 2 ^ 25 + f

/-- R279: a live grant of the VD covers the page. -/
def State.granted (s : State) (v page k : Nat) : Bool :=
  s.slu.grants.any fun e => decide (e.2.vd = v) && decide (e.2.va / 65536 < page + k) && decide (page < (e.2.va + e.2.len) / 65536)

/-- R277: the page is KEEP_LOCAL: by its region, or because its VD is encrypted. -/
def State.keepLocal (s : State) (v page : Nat) : Bool :=
  (s.img.vds.getD v {}).encrypt || (match s.regionAt v (page * 65536) with | some (_, r) => r.keepLocal | none => false)

/-- The lines of `k` frames of this device. -/
def State.frameLines (s : State) (f k : Nat) : List Nat := (List.range (512 * k)).map fun i => s.ownLine (f * 512 + i)

/-- A global line lies in `k` frames of this device. -/
def State.inFrames (s : State) (f k gl : Nat) : Bool := decide (s.ownLine (f * 512) ≤ gl) && decide (gl < s.ownLine ((f + k) * 512))

/-- The lines of frames that may have copies: those with a directory entry or a register, and every line while a directory set is LOST
(R519). -/
def State.copied (s : State) (f k : Nat) : List Nat :=
  if s.slices.any fun e => !e.2.lostSets.isEmpty then s.frameLines f k
  else ((s.dir.map fun e => s.ownLine e.1) ++ s.slices.flatMap fun e => e.2.miss.map (·.1)).filter (s.inFrames f k)

/-- Every cached line of frames is written to DRAM and leaves its slice. -/
def State.evictFrames (s : State) (f k : Nat) : State :=
  s.slices.foldl (fun s e => e.2.frames.foldl (fun s fr => if decide (fr.2.st = .h) && s.inFrames f k fr.2.line then s.evict e.1 fr.1 else s) s) s

/-- Every copy of the lines of frames is taken back at their homes, and the dirty sectors are written to DRAM (R276, Table 10-7
step 4). -/
def State.takeBackFrames (s : State) (f k v : Nat) : State :=
  ((s.copied f k).foldl (fun s gl => s.takeLine gl v) s).evictFrames f k

/-- `n` consecutive values of one table take the place of `n` others. -/
def splice {α : Type} [DecidableEq α] (d : α) (src : List (Nat × α)) (lo : Nat) (dst : List (Nat × α)) (base n : Nat) : List (Nat × α) :=
  (Tab.keep src fun a _ => decide (lo ≤ a) && decide (a < lo + n)).foldl (fun t c => Tab.setD t (c.1 - lo + base) d c.2)
    (Tab.keep dst fun a _ => decide (a < base) || decide (base + n ≤ a))

/-- Raw sectors and poison of `k` frames copied to other frames of this device (Table 10-7 step 4). -/
def State.copyFrames (s : State) (f g k : Nat) : State :=
  let s1 := ((List.range k).foldl (fun s i => (s.stackFor (f + i)).stackFor (g + i)) s).dropCached g k
  { s1 with mem := splice 0 s.mem (f * 65536) s1.mem (g * 65536) (k * 65536)
            memPoison := splice false s.memPoison (f * 2048) s1.memPoison (g * 2048) (k * 2048) }

/-- The raw lines of `k` frames that are not all zero, as they travel to another device, numbered from the first. -/
def State.rawLines (s : State) (f k : Nat) : List RemLine :=
  (s.frameLines f k).filterMap fun gl =>
    let d := readLine s.mem (lineOff gl)
    let p := poisonAt s.memPoison (lineOff gl)
    if d = 0 ∧ p = 0 then none else some { line := gl - s.ownLine (f * 512), data := d, pois := p }

/-- Raw lines land in frames of this device; those that were left out are zero. `src` is the line that the first of them had. -/
def State.landLines (s : State) (src f k : Nat) (lines : List RemLine) : State :=
  (lines.filter fun l => decide (src ≤ l.line) && decide (l.line < src + 512 * k)).foldl
    (fun s l => s.dramWrite (f * 65536 + 128 * (l.line - src)) 15 l.data l.pois) (s.zeroFrames f k)

/-- A page's frames are freed: on this device, or given back to the device that holds them. -/
def State.freeFramesOf (s : State) (g k : Nat) : State :=
  if gfDev g = s.pool.devnum then s.untagFrames (gfLocal g) k else s.send (.sl (gfDev g) (.giveBack (gfLocal g) k))

/-! ### Requests in flight (Table 10-7 step 3) -/

/-- No request for a line of the frames waits or is served at a slice of this device, and none is on its way to a peer. -/
def State.framesQuiet (s : State) (g k : Nat) : Bool :=
  let inside (gl : Nat) : Bool := decide (g * 512 ≤ gl) && decide (gl < (g + k) * 512)
  (s.slices.all fun e => (e.2.miss.all fun m => !inside m.1) && (e.2.inq.all fun r => !inside r.line))
    && (s.pool.remote.all fun r => decide (r.kind ≠ .mem) || !inside r.line)
    && (s.pool.remWait.all fun r => decide (r.1.kind ≠ .mem) || !inside r.1.line) && (s.pool.depWait.all fun r => !inside r.2.line)

/-! ### Promotion slots (R288, R289) -/

/-- The slots of a slice that no page takes. -/
def State.freeSlots (s : State) (n : Nat) : List Nat :=
  ((s.promoBays.filter fun b => decide (b / 18 = n)).flatMap fun b => [b * 4, b * 4 + 1, b * 4 + 2, b * 4 + 3]).filter fun k =>
    (s.slu.promo.find k).isNone

def State.setPromo (s : State) (k : Nat) (p : Promo) : State := { s with slu := { s.slu with promo := s.slu.promo.put k p } }
def State.promoOf (s : State) (v page : Nat) : Option (Nat × Promo) :=
  s.slu.promo.find? fun e => decide (e.2.vd = v) && decide (e.2.page = page)

/-- A promotion starts: the slot is taken (R288). -/
def State.promoteStart (s : State) (k v page frame : Nat) : State := s.setPromo k { vd := v, page := page, frame := frame }

/-- A demotion starts (R289). -/
def State.demoteStart (s : State) (v page : Nat) (fantail : Bool) (next : Option (Nat × Nat)) : State :=
  match s.promoOf v page with
  | some (k, p) => if p.st = .held then s.setPromo k { p with st := .going, fantail := fantail, next := next } else s
  | none => s

/-- R288: a frame's bytes and poison go to a slot. -/
def State.slotIn (s : State) (f k : Nat) : State :=
  { s with bays := splice 0 s.mem (f * 65536) s.bays (k * 65536) 65536
           bayPoison := splice false s.memPoison (f * 2048) s.bayPoison (k * 2048) 2048 }

/-- R289: a slot's bytes and poison go to a frame. -/
def State.slotOut (s : State) (f k : Nat) : State :=
  { s with mem := splice 0 s.bays (k * 65536) s.mem (f * 65536) 65536
           memPoison := splice false s.bayPoison (k * 2048) s.memPoison (f * 2048) 2048 }

/-- The slot becomes the home copy of the page's lines: what the home's cache holds of them goes first to memory. It waits for the
transactions on the lines (R288: under the home's line arbiter), and is given up where a move of the page has begun. No shootdown
occurs. -/
def State.promoteDone (s : State) (k : Nat) : State :=
  match s.slu.promo.find k with
  | none => s
  | some p =>
    if p.st ≠ .coming ∨ s.slices.any (fun e => e.2.miss.any fun m => s.inFrames p.frame 1 m.1) then s
    else
      match s.slu.pt.find (ptKey p.vd p.page) with
      | some e =>
        if e.kind = .page ∧ e.gframe = s.ownFrame p.frame ∧ (s.slu.moves.all fun m => decide (m.vd ≠ p.vd) || decide (m.page ≠ p.page)) then
          let s1 := (s.evictFrames p.frame 1).slotIn p.frame k
          let s2 := (s1.setPromo k { p with st := .held }).putEntry p.vd p.page { e with promoted := true, moved := s.movedNow }
          { s2 with slu := { s2.slu with promote := s2.slu.promote + 1 } }
        else { s with slu := { s.slu with promo := s.slu.promo.del k } }
      | none => { s with slu := { s.slu with promo := s.slu.promo.del k } }

/-- R291: the page was allocated or moved too recently. -/
def State.dwells (s : State) (e : PEntry) : Bool := decide ((s.movedNow - e.moved).toNat < 7)

/-- R116, R290, R291: Fantail may promote the page now. -/
def State.mayPromote (s : State) (v page : Nat) (e : PEntry) : Bool :=
  s.pol.fantailEnable && !e.pin && !bit (s.regionPolicy v (page * 65536)) 0 && !s.granted v page 1 && !s.dwells e

/-- The slot is written back and freed; a displacing page is then promoted (Table 10-8), if no policy written since forbids it
(R116). -/
def State.demoteDone (s : State) (k : Nat) : State :=
  match s.slu.promo.find k with
  | none => s
  | some p =>
    if p.st ≠ .going then s
    else
      let s0 := s.slotOut p.frame k
      let s1 := { s0 with slu := { s0.slu with promo := s.slu.promo.del k, demote := if p.fantail then s.slu.demote + 1 else s.slu.demote } }
      let s2 := match s1.slu.pt.find (ptKey p.vd p.page) with
        | some e => s1.setEntry p.vd p.page { e with promoted := false, moved := s.movedNow }
        | none => s1
      match p.next with
      | none => s2
      | some (v, page) =>
        match s2.slu.pt.find (ptKey v page) with
        | some e => if e.kind = .page && decide (gfDev e.gframe = s.pool.devnum) && !e.promoted && s.mayPromote v page e then s2.promoteStart k v page (gfLocal e.gframe) else s2
        | none => s2

/-! ### First touch by a command -/

/-- R273: one page is first-touched at once, or refused. -/
def State.touchNow (s : State) (v page pick : Nat) : Option Status × State :=
  match s.touchFrames v page pick with
  | .error st => (some st, s.touchRefused st)
  | .ok (f, big) => (none, (s.touchTake v page f big).touchDone v page f big)

/-! ### SL_PLACE (R278) -/

def State.placeDrop (s : State) (q : Nat) : State := { s with slu := { s.slu with places := s.slu.places.filter fun p => decide (p.cmd ≠ q) } }
def State.placeKeep (s : State) (p : Placing) : State := { s.placeDrop p.cmd with slu := { (s.placeDrop p.cmd).slu with places := (s.placeDrop p.cmd).slu.places ++ [p] } }
def State.placeEnd (s : State) (p : Placing) (st : Status) : State := (s.placeDrop p.cmd).engineDone p.cmd st

/-- A move is asked for; the same page is asked for once. -/
def State.want (s : State) (r : MoveReq) : State :=
  if s.slu.wanted.contains r then s else { s with slu := { s.slu with wanted := s.slu.wanted ++ [r] } }

/-- R273, R278: an EMPTY page is to be first-touched on a peer, which is asked for zeroed frames; the page is charged from then on. None
where the Sluice area has no room. -/
def State.freshTake (s : State) (p : Placing) (big : Bool) : Option State :=
  let page := if big then p.next / 32 * 32 else p.next
  let k := pageFrames big
  (s.withTables p.vd page big).map fun s0 =>
    let w : Who := { vd := p.vd, cmd := some p.cmd }
    let s1 := s0.sendRemote { kind := .sl, dev := p.dev, tag := ptKey p.vd page, who := w, epoch := s.epochOf w } (.sl p.dev (.take (ptKey p.vd page) k))
    let s2 := s1.modVd p.vd fun x => { x with usePage := x.usePage + k }
    let m : Move := { vd := p.vd, page := page, big := big, src := 0, dst := p.dev * 2 ^ 25, step := 0, by_ := .place p.cmd, fresh := true }
    { s2 with slu := { s2.slu with moves := s2.slu.moves ++ [m] } }.placeKeep p

/-- The pages of a range in ascending order, until one needs a move, which the command then waits for. -/
def State.placeRun : Nat → Placing → Nat → State → State
  | 0, p, _, s => s.placeKeep p
  | fuel + 1, p, pick, s =>
    if p.stop ≤ p.next then s.placeEnd p .ok
    else if !s.inExtent p.vd (p.next * 65536) then s.placeEnd p .badAddress
    else
      match s.entry p.vd p.next with
      | none =>
        if !p.alloc then State.placeRun fuel { p with next := p.next + 1 } pick s
        else if s.touchBusy p.vd p.next then s.placeKeep p
        else if p.dev = s.pool.devnum then
          match s.touchNow p.vd p.next pick with
          | (some st, s1) => s1.placeEnd p st
          | (none, s1) => State.placeRun fuel p pick s1
        else if s.keepLocal p.vd p.next then s.placeEnd p .policy
        else if s.gone p.dev then s.placeEnd p .deviceGone
        else if s.quotaPage p.vd ≤ (s.vd p.vd).usePage then (s.touchRefused .quota).placeEnd p .quota
        else
          match s.freshTake p (s.touchSize p.vd p.next) with
          | some s1 => s1
          | none => (s.touchRefused .noSpace).placeEnd p .noSpace
      | some (ep, e) =>
        let k := pageFrames e.big
        match e.kind with
        | .foreign => State.placeRun fuel { p with next := ep + k } pick s
        | .revoked => State.placeRun fuel { p with next := ep + k } pick s
        | .migrating => s.placeKeep p
        | .page =>
          if s.granted p.vd ep k then s.placeEnd p .policy
          else if gfDev e.gframe = p.dev then
            let s1 := if p.pin then s.setEntry p.vd ep { e with pin := true } else s
            State.placeRun fuel { p with next := ep + k } pick s1
          else if p.dev ≠ s.pool.devnum ∧ s.keepLocal p.vd ep then s.placeEnd p .policy
          else if p.dev ≠ s.pool.devnum ∧ s.gone p.dev then s.placeEnd p .deviceGone
          else (s.want { vd := p.vd, page := ep, dev := p.dev, by_ := .place p.cmd }).placeKeep p

def State.placeGo (s : State) (p : Placing) (pick : Nat) : State := State.placeRun (2 * (p.stop - p.next) + 2) p pick s

/-- A page has settled: the places and the records of rings that wait for it go on. -/
def State.placeResume (s : State) (v page pick : Nat) : State :=
  ((s.slu.places.filter fun p => decide (p.vd = v) && decide (p.next / 32 = page / 32)).foldl (fun s p => s.placeGo p pick) s).recFlush pick

/-! ### Moves (Table 10-7) -/

def State.moveOf (s : State) (v page : Nat) : Option Move := s.slu.moves.find? fun m => decide (m.vd = v) && decide (m.page = page)
def State.dropMove (s : State) (v page : Nat) : State :=
  { s with slu := { s.slu with moves := s.slu.moves.filter fun m => !(decide (m.vd = v) && decide (m.page = page)) } }
def State.putMove (s : State) (m : Move) : State :=
  { s.dropMove m.vd m.page with slu := { (s.dropMove m.vd m.page).slu with moves := (s.dropMove m.vd m.page).slu.moves ++ [m] } }

/-- Steps 1 and 2: the destination is allocated, the entry becomes MIGRATING, the caches are shot down. -/
def State.moveBegin (s : State) (m : Move) (e : PEntry) : State :=
  (s.putMove { m with step := 1 }).setEntry m.vd m.page { e with kind := .migrating }

/-- R279, R290, R291: nothing forbids the move of a page now. A retirement is stopped by no policy. -/
def State.mayMove (s : State) (by_ : MoveBy) (v page : Nat) (e : PEntry) : Bool :=
  match by_ with
  | .fantail => !e.pin && !s.granted v page (pageFrames e.big) && !s.dwells e
  | .place _ => !s.granted v page (pageFrames e.big)
  | _ => true

/-- A move that may not start: an SL_PLACE that asked for it ends with POLICY. -/
def State.moveRefused (s : State) (by_ : MoveBy) : State :=
  match by_ with
  | .place q => (s.placeDrop q).engineDone q .policy
  | _ => s

/-- A requested move starts, or is given up: for want of frames, or because something forbids it now. Only channel retirement draws on
the sparing reserve (R274). -/
def State.moveStart (s : State) (r : MoveReq) (pick : Nat) : State :=
  let s1 := { s with slu := { s.slu with wanted := s.slu.wanted.filter fun w => decide (w ≠ r) } }
  match s.slu.pt.find (ptKey r.vd r.page) with
  | none => s1.placeResume r.vd r.page pick
  | some e =>
    let k := pageFrames e.big
    let m : Move := { vd := r.vd, page := r.page, big := e.big, src := e.gframe, dst := 0, step := 0, by_ := r.by_ }
    if e.kind ≠ .page then s1.placeResume r.vd r.page pick
    else if !s.mayMove r.by_ r.vd r.page e then s1.moveRefused r.by_
    else if e.promoted then s.demoteStart r.vd r.page false none
    else if r.dev = s.pool.devnum then
      match s.chooseFrames k pick (decide (r.by_ = .retire)) with
      | some f => (s1.tagFrames f k r.vd r.page).moveBegin { m with dst := s.ownFrame f } e
      | none =>
        match r.by_ with
        | .fantail => s1
        | .retire => s
        | .row => s
        | .place q => (s1.placeDrop q).engineDone q .noSpace
    else
      (s1.sendRemote { kind := .sl, dev := r.dev, tag := ptKey r.vd r.page, who := { vd := r.vd }, epoch := (s.vd r.vd).epoch }
        (.sl r.dev (.take (ptKey r.vd r.page) k))).putMove { m with dst := r.dev * 2 ^ 25 }

/-- R285: the entry returns to PAGE at the source and the destination is freed. A first touch on a peer that comes to nothing gives back
what it charged. -/
def State.moveAbandon (s : State) (m : Move) : State :=
  let s1 := s.dropMove m.vd m.page
  if m.fresh then s1.modVd m.vd fun x => { x with usePage := x.usePage - pageFrames m.big }
  else
  let s2 := if m.step = 0 then s1 else s1.freeFramesOf m.dst (pageFrames m.big)
  let s3 := match s2.slu.pt.find (ptKey m.vd m.page) with
    | some e => if e.kind = PageKind.migrating then s2.setEntry m.vd m.page { e with kind := .page } else s2
    | none => s2
  { s3 with slu := { s3.slu with abandon := s3.slu.abandon + 1 } }

/-- What a move was asked for as. -/
def Move.asked (m : Move) : MoveReq := { vd := m.vd, page := m.page, dev := gfDev m.dst, by_ := m.by_ }

/-- R116, R285: moves that a test names are given up where they have not started, and abandoned where they have not reached step 4. -/
def State.abandonMoves (s : State) (f : MoveReq → Bool) : State :=
  ((s.slu.moves.filter fun m => decide (m.step < 3) && f m.asked).foldl State.moveAbandon
    { s with slu := { s.slu with wanted := s.slu.wanted.filter fun r => !f r } }).recFlush 0

/-- Step 3 is done and the copy of step 4 starts; a remote source home is told to send. -/
def State.moveAcked (s : State) (v page : Nat) : State :=
  match s.moveOf v page with
  | none => s
  | some m =>
    if m.step = 1 && s.framesQuiet m.src (pageFrames m.big) then
      let s1 := s.putMove { m with step := 3 }
      if gfDev m.src = s.pool.devnum then s1
      else s1.send (.sl (gfDev m.src) (.fetch (gfLocal m.src) (pageFrames m.big) m.dst))
    else s

/-- The raw sectors of a page arrive in frames of this device: those of a move, which has then copied, or frames held for a peer. -/
def State.pageLands (s : State) (f k : Nat) (lines : List RemLine) : State :=
  match s.slu.moves.find? fun m => decide (m.dst = s.ownFrame f) && decide (m.step = 3) && decide (gfDev m.src ≠ s.pool.devnum) with
  | some m => (s.landLines 0 f k lines).putMove { m with step := 4 }
  | none => if (s.slu.foreignFrames.find f).isSome then s.landLines 0 f k lines else s

/-- Steps 4 and 5: the copy, then the entry becomes PAGE with the new address. A page whose source home is a peer has arrived with its
own message, where this device is its destination. -/
def State.moveCommit (s : State) (v page pick : Nat) : State :=
  match s.moveOf v page with
  | none => s
  | some m =>
    let own := s.pool.devnum
    if m.step ≠ (if gfDev m.dst = own ∧ gfDev m.src ≠ own then 4 else 3) then s
    else
      let k := pageFrames m.big
      let s1 := if gfDev m.src = own then s.takeBackFrames (gfLocal m.src) k v else s
      let s2 :=
        if gfDev m.src = own ∧ gfDev m.dst = own then s1.copyFrames (gfLocal m.src) (gfLocal m.dst) k
        else if gfDev m.src = own then s1.send (.sl (gfDev m.dst) (.page (gfLocal m.dst) k (s1.rawLines (gfLocal m.src) k)))
        else s1
      match s2.slu.pt.find (ptKey v page) with
      | none => s2
      | some e =>
        let s3 := (s2.setEntry v page { e with kind := .page, gframe := m.dst, moved := s2.movedNow }).putMove { m with step := 5 }
        let s4 := if m.by_ = .fantail then { s3 with slu := { s3.slu with localise := s3.slu.localise + 1 } } else s3
        s4.placeResume v page pick

/-- Step 6: the source frames are freed. -/
def State.moveFree (s : State) (v page : Nat) : State :=
  match s.moveOf v page with
  | some m => if m.step = 5 then (s.freeFramesOf m.src (pageFrames m.big)).dropMove v page else s
  | none => s

/-- PAGE_MOVE_START (R284): the `i`-th requested move. -/
def execPageMoveStart (i pick : Nat) (s : State) : Res :=
  match (if s.boot.warm = 0 then s.slu.wanted[i]? else none) with
  | some r => .next (s.moveStart r pick)
  | none => .next s

/-- MOVE_ACK_COMPLETE (R284). -/
def execMoveAckComplete (vd page : Nat) (s : State) : Res := .next (s.moveAcked vd page)

/-- MOVE_COPY_DONE (R284). -/
def execMoveCopyDone (vd page : Nat) (x : Ext) (s : State) : Res := .next (s.orWait x.pick fun s => s.moveCommit vd page x.pick)

/-- MOVE_SOURCE_FREE (R284). -/
def execMoveSourceFree (vd page : Nat) (s : State) : Res := .next (s.moveFree vd page)

/-- MOVE_DEADLINE (R285): a move between devices that has not reached step 5 at 20 ms. -/
def execMoveDeadline (vd page pick : Nat) (s : State) : Res :=
  match s.moveOf vd page with
  | some m =>
    if m.step < 5 && decide (gfDev m.src ≠ gfDev m.dst) && !m.fresh then .next ((s.moveAbandon m).placeResume vd page pick) else .next s
  | none => .next s

/-- PROMOTE_DONE (R288). -/
def execPromoteDone (slot : Nat) (s : State) : Res := .next (s.promoteDone slot)

/-- DEMOTE_DONE (R289). -/
def execDemoteDone (slot : Nat) (s : State) : Res := .next (s.demoteDone slot)

/-! ### Fantail (R287, R290, R291) -/

/-- Table 10-8. -/
inductive FtMove where
  | localise | promote | demote
  deriving DecidableEq, Repr

def FtMove.code : FtMove → Nat
  | .localise => 0 | .promote => 1 | .demote => 2

structure FtCand where
  vd : Nat
  page : Nat
  heat : Nat
  mv : FtMove
  e : PEntry
  deriving DecidableEq, Repr

/-- Table 10-8: the move a page is a candidate for at its heat. -/
def State.candidate (s : State) (key : Nat) (e : PEntry) : Option FtCand :=
  let v := key / 2 ^ 26
  let page := key % 2 ^ 26
  let h := s.slu.heat.getD key 0
  let mk (m : FtMove) : Option FtCand := some { vd := v, page := page, heat := h, mv := m, e := e }
  if e.kind ≠ .page ∨ s.granted v page (pageFrames e.big) then none
  else if gfDev e.gframe ≠ s.pool.devnum then if 128 ≤ h then mk .localise else none
  else if e.promoted then if h < 8 then mk .demote else none
  else
    match s.regionAt v (page * 65536) with
    | some (_, r) => if !e.big && r.promotable && decide (256 ≤ h) then mk .promote else none
    | none => none

/-- R290: the hard constraint that forbids a move, as Table 10-9 codes it. -/
def State.forbids (s : State) (c : FtCand) : Option Nat :=
  let pol := s.regionPolicy c.vd (c.page * 65536)
  if c.e.pin then some 0
  else
    match c.mv with
    | .promote => if bit pol 0 then some 1 else none
    | .demote => if bit pol 1 then some 2 else none
    | .localise => if bit pol 2 then some 3 else none

/-- R290: a tug is counted for the page's region, or 256 for none, and noted. -/
def State.tugAt (s : State) (c : FtCand) (why : Nat) : State :=
  let i := match s.regionAt c.vd (c.page * 65536) with | some (i, _) => i | none => 256
  let w : DWord := BitVec.ofNat 64 (c.vd + c.mv.code * 64 + why * 256 + c.page % 2 ^ 26 * 65536)
  let s1 := s.modVd c.vd fun x => { x with tugCnt := x.tugCnt + 1 }
  { s1 with slu := { s1.slu with tug := countAt s1.slu.tug i, tugLast := s1.slu.tugLast.setD i 0 w } }

/-- Fantail's moves under way or asked for. -/
def State.ftInFlight (s : State) : Nat :=
  (s.slu.moves.filter fun m => decide (m.by_ = .fantail) && decide (m.step < 5)).length
    + (s.slu.wanted.filter fun w => decide (w.by_ = .fantail)).length
    + (s.slu.promo.filter fun e => decide (e.2.st ≠ .held) && e.2.fantail).length

/-- Table 10-8, Displace: a promoted page of the slice that could be demoted, with at most half the heat; of several the one in the lowest
slot (DESIGN CHOICE, notes/assumptions/52.md). -/
def State.displaceable (s : State) (n heat : Nat) : Option (Nat × Nat) :=
  let xs := s.slu.promo.filter fun e =>
    decide (e.1 / 4 / 18 = n) && decide (e.2.st = .held) && (match s.slu.pt.find (ptKey e.2.vd e.2.page) with
      | some pe =>
        let c : FtCand := { vd := e.2.vd, page := e.2.page, heat := s.slu.heat.getD (ptKey e.2.vd e.2.page) 0, mv := .demote, e := pe }
        decide (2 * c.heat ≤ heat) && (s.forbids c).isNone && !s.dwells pe && !s.granted e.2.vd e.2.page 1
      | none => false)
  match xs.head? with
  | some e => some (e.2.vd, e.2.page)
  | none => none

/-- One candidate: a tug, a dwell skip, no slot, or a start. Answers how many moves it started. -/
def State.ftTry (s : State) (c : FtCand) (budget : Nat) : Nat × State :=
  match s.forbids c with
  | some why => (0, s.tugAt c why)
  | none =>
    if s.dwells c.e then (0, { s with slu := { s.slu with dwellSkip := s.slu.dwellSkip + 1 } })
    else if budget = 0 ∨ 16 ≤ s.ftInFlight then (0, s)
    else
      match c.mv with
      | .localise => (1, s.want { vd := c.vd, page := c.page, dev := s.pool.devnum, by_ := .fantail })
      | .demote => (1, s.demoteStart c.vd c.page true none)
      | .promote =>
        let f := gfLocal c.e.gframe
        let n := s.sliceOf (s.ownLine (f * 512))
        match (s.freeSlots n).head? with
        | some k => if (s.promoOf c.vd c.page).isSome then (0, s) else (1, s.promoteStart k c.vd c.page f)
        | none =>
          match s.displaceable n c.heat with
          | some (v, page) => (1, s.demoteStart v page true (some (c.vd, c.page)))
          | none => (0, { s with slu := { s.slu with noSlot := s.slu.noSlot + 1 } })

/-- Candidates in descending heat, equal heats by key. -/
def insertCand (c : FtCand) : List FtCand → List FtCand
  | [] => [c]
  | d :: t => if d.heat < c.heat then c :: d :: t else d :: insertCand c t

def State.ftRun : List FtCand → Nat → State → State
  | [], _, s => s
  | c :: t, budget, s =>
    match s.ftTry c budget with
    | (n, s1) => State.ftRun t (budget - n) s1

/-- R287: one evaluation, then every heat is halved (R286). -/
def State.fantail (s : State) : State :=
  let s0 := { s with slu := { s.slu with wanted := s.slu.wanted.filter fun w => decide (w.by_ ≠ .fantail) } }
  let s1 :=
    if s.pol.fantailEnable then
      State.ftRun ((s0.slu.pt.filterMap fun e => s0.candidate e.1 e.2).foldl (fun l c => insertCand c l) []) 32 s0
    else s0
  { s1 with slu := { s1.slu with heat := (s1.slu.heat.mapVal fun _ h => h / 2).keep fun _ h => decide (h ≠ 0) } }

/-- FANTAIL_EVALUATION (R287). -/
def execFantailEvaluation (s : State) : Res := .next s.fantail

/-! ### Shared ranges (R279-R281) -/

/-- An attached device sets the entries of an ended grant REVOKED (R281), wherever the pages lie. -/
def State.revokeGrant (s : State) (dev slot : Nat) : State :=
  s.revokeEntries fun _ e => decide (e.kind = .foreign) && decide (e.grant = slot) && decide (e.owner = dev)

/-- A grant ends: a revocation goes to every attached device (R281). -/
def State.endGrant (s : State) (slot : Nat) : State :=
  match s.slu.grants.find slot with
  | none => s
  | some g =>
    let s1 := { s with slu := { s.slu with grants := s.slu.grants.del slot } }
    (g.attach.map (·.device)).eraseDups.foldl (fun s d =>
      if d = s.pool.devnum then s.revokeGrant d slot else s.send (.sl d (.revoke slot))) s1

def State.endGrants (s : State) (f : Grant → Bool) : State :=
  ((s.slu.grants.filter fun e => f e.2).map (·.1)).foldl State.endGrant s

/-- R280: the owner's check of an attach: the frames of the range, or a refusal with a management record. -/
def State.attachCheck (s : State) (dev vd slot len : Nat) (key : Word) (ro : Bool) (va : Nat) : Option (List (Nat × Bool)) × State :=
  match s.slu.grants.find slot with
  | some g =>
    if g.key = key ∧ g.len = len ∧ (g.readOnly → ro) ∧ g.attach.length < 16 then
      let pages := (List.range (len / 65536)).filterMap fun i =>
        match s.slu.pt.find (ptKey g.vd (g.va / 65536 + i)) with
        | some e => some (e.gframe, e.big)
        | none => none
      (some pages, { s with slu := { s.slu with grants := s.slu.grants.put slot { g with attach := g.attach ++ [{ device := dev, vd := vd, va := va }] } } })
    else (none, s.post { cls := .protocol, vd := vd, device := some dev, detail := slot })
  | none => (none, s.post { cls := .protocol, vd := vd, device := some dev, detail := slot })

/-- The caller's entries become FOREIGN (R280); none where the Sluice area has no room for their tables. -/
def State.attachPages (s : State) (v dev slot : Nat) (ro : Bool) : Nat → List (Nat × Bool) → Option State
  | _, [] => some s
  | page, (g, big) :: t =>
    match s.withTables v page big with
    | none => none
    | some s1 =>
      State.attachPages (s1.setEntry v page { kind := .foreign, big := big, readOnly := ro, grant := slot, gframe := g, moved := s.movedNow, owner := dev })
        v dev slot ro (page + pageFrames big) t

/-- SL_ATTACH ends with its pages (R280). Without room for their tables it ends NO_SPACE and maps none (DESIGN CHOICE,
notes/assumptions/53.md). -/
def State.attachEnd (s : State) (q v dev slot : Nat) (ro : Bool) (page : Nat) (fs : List (Nat × Bool)) : State :=
  match s.attachPages v dev slot ro page fs with
  | some s1 => s1.engineDone q .ok
  | none => s.engineDone q .noSpace

/-- Ranges of Sluice commands. -/
def Cmd.addr (c : Cmd) : Nat := c.f 0x18 8
def Cmd.len (c : Cmd) : Nat := c.f 0x20 8

/-- R278: the range is in units of `u` bytes. -/
def rangeOk (c : Cmd) (u : Nat) : Bool := decide (c.addr % u = 0) && decide (c.len % u = 0)

/-- R278: no 2 MiB page lies across an end of the range. -/
def State.splits (s : State) (c : Cmd) : Bool :=
  let lo := c.addr / 65536
  let hi := (c.addr + c.len) / 65536
  s.slu.pt.any fun e => e.2.big && decide (e.1 / 2 ^ 26 = c.vd) && decide (e.1 % 2 ^ 26 < hi) && decide (lo < e.1 % 2 ^ 26 + 32)
    && (decide (e.1 % 2 ^ 26 < lo) || decide (hi < e.1 % 2 ^ 26 + 32))

/-- SL_PLACE (R278). -/
def execSlPlace (cmd pick : Nat) (s : State) : Res :=
  match s.engineCmd cmd 0x28 with
  | none => .next s
  | some c =>
    let dev := c.f 0x28 1
    if !rangeOk c 65536 || s.splits c || decide (128 ≤ dev) || decide (3 < c.f 0x29 1) then .next (s.engineDone cmd .invalidField)
    else
      let p : Placing := { cmd := cmd, vd := c.vd, next := c.addr / 65536, stop := (c.addr + c.len) / 65536, dev := dev, alloc := bit (c.f 0x29 1) 0, pin := bit (c.f 0x29 1) 1 }
      .next ((s.modCmd cmd fun c => { c with st := .running }).placeGo p pick)

/-- The pages of a range that a command changes, in ascending order, until one lies outside the extents. -/
def State.pinRun (v : Nat) (on : Bool) : Nat → Nat → State → Bool × State
  | 0, _, s => (true, s)
  | n + 1, page, s =>
    if !s.inExtent v (page * 65536) then (false, s)
    else
      match s.slu.pt.find (ptKey v page) with
      | some e =>
        let own := decide (e.kind = .page) || decide (e.kind = .migrating)
        State.pinRun v on n (page + 1) (if own then s.setEntry v page { e with pin := on } else s)
      | none => State.pinRun v on n (page + 1) s

def State.slPin (s : State) (q : Nat) (c : Cmd) (on : Bool) : State :=
  if !rangeOk c 65536 || s.splits c then s.engineDone q .invalidField
  else
    match State.pinRun c.vd on (c.len / 65536) (c.addr / 65536) s with
    | (true, s1) => s1.engineDone q .ok
    | (false, s1) => s1.engineDone q .badAddress

/-- SL_PIN (R278). -/
def execSlPin (cmd : Nat) (s : State) : Res :=
  match s.engineCmd cmd 0x29 with
  | some c => .next (s.slPin cmd c true)
  | none => .next s

/-- SL_UNPIN (R278). -/
def execSlUnpin (cmd : Nat) (s : State) : Res :=
  match s.engineCmd cmd 0x2A with
  | some c => .next (s.slPin cmd c false)
  | none => .next s

/-- The pages of a range, as far as `n` of them: what no entry maps counts as 64 KiB pages. -/
def State.pagesIn (s : State) (v : Nat) : Nat → Nat → Nat → Nat
  | 0, _, _ => 0
  | n + 1, page, stop =>
    if stop ≤ page then 0
    else match s.entry v page with
      | some (ep, e) => State.pagesIn s v n (ep + pageFrames e.big) stop + 1
      | none => State.pagesIn s v n (page + 1) stop + 1

/-- R278: the results of a query, page by page, as far as a page that lies outside the extents; and whether there is one. -/
def State.queryRun (s : State) (v : Nat) : Nat → Nat → Nat → List Byte × Bool
  | 0, _, _ => ([], false)
  | n + 1, page, stop =>
    if stop ≤ page then ([], false)
    else
      let word (k pin pr big dev heat : Nat) : List Byte := leBytes 8 (Config.queryWord k pin pr big dev heat).toNat
      match s.entry v page with
      | some (ep, e) =>
        let (t, bad) := State.queryRun s v n (ep + pageFrames e.big) stop
        (word e.kind.code (b2n e.pin) (b2n e.promoted) (b2n e.big) (gfDev e.gframe) (s.slu.heat.getD (ptKey v ep) 0) ++ t, bad)
      | none =>
        if s.inExtent v (page * 65536) then
          let (t, bad) := State.queryRun s v n (page + 1) stop
          (word 0 0 0 0 0 (s.slu.heat.getD (ptKey v page) 0) ++ t, bad)
        else ([], true)

/-- SL_QUERY (R278): the results of the pages before one that fails are written. -/
def State.slQuery (s : State) (cmd : Nat) (c : Cmd) (x : Ext) : State :=
  let lo := c.addr / 65536
  let hi := (c.addr + c.len) / 65536
  if !rangeOk c 65536 || s.splits c || decide (64 < s.pagesIn c.vd 65 lo hi) then s.engineDone cmd .invalidField
  else
    let (bs, bad) := s.queryRun c.vd 65 lo hi
    match s.vdWrite c.vd (c.f 0x28 8) bs false (c.who cmd) x with
    | (none, s1) => s1.engineDone cmd (if bad then .badAddress else .ok)
    | (some (st, a), s1) => s1.engineDone cmd st a .faulted a

def execSlQuery (cmd : Nat) (x : Ext) (s : State) : Res :=
  .next (s.orWait x.pick fun s => match s.engineCmd cmd 0x2B with | some c => s.slQuery cmd c x | none => s)

/-- R279: the EMPTY pages of the range are first-touched in ascending order. -/
def State.grantTouch (v pick : Nat) : Nat → Nat → State → Option Status × State
  | 0, _, s => (none, s)
  | n + 1, page, s =>
    if !s.inExtent v (page * 65536) then (some .badAddress, s)
    else
      match s.entry v page with
      | some (_, e) => if e.kind = .page then State.grantTouch v pick n (page + 1) s else (some .badAddress, s)
      | none =>
        if s.touchBusy v page then (some .revoked, s.stalled .hold) else
        match s.touchNow v page pick with
        | (some st, s1) => (some st, s1)
        | (none, s1) => State.grantTouch v pick n (page + 1) s1

/-- SL_GRANT (R279). It waits while a page of the range is MIGRATING or being first-touched. -/
def State.slGrant (s : State) (cmd : Nat) (c : Cmd) (pick : Nat) : State :=
  if !rangeOk c 2097152 || decide (c.len < 2 ^ 30) || decide (2 ^ 32 < c.len) then s.engineDone cmd .invalidField
  else if s.slu.pt.any fun e => decide (e.1 / 2 ^ 26 = c.vd) && decide (c.addr / 65536 ≤ e.1 % 2 ^ 26)
      && decide (e.1 % 2 ^ 26 < (c.addr + c.len) / 65536) && decide (e.2.kind = .migrating) then s
  else
    match State.grantTouch c.vd pick (c.len / 65536) (c.addr / 65536) s with
    | (some st, s1) => s1.engineDone cmd st
    | (none, s1) =>
      match (List.range 1024).find? fun k => (s1.slu.grants.find k).isNone with
      | none => s1.engineDone cmd .noGrant
      | some k =>
        let (r, s2) := s1.draw
        let key := r.setWidth 32
        let g : Grant := { vd := c.vd, epoch := (s.vd c.vd).epoch, va := c.addr, len := c.len, readOnly := bit c.opx 0, key := key }
        let s3 := { s2 with slu := { s2.slu with grants := s2.slu.grants.put k g } }
        s3.engineDone cmd .ok (k + key.toNat * 2 ^ 32)

def execSlGrant (cmd pick : Nat) (s : State) : Res :=
  .next (s.orWait pick fun s => match s.engineCmd cmd 0x2C with | some c => s.slGrant cmd c pick | none => s)

/-- SL_REVOKE (R281). -/
def execSlRevoke (cmd : Nat) (s : State) : Res :=
  match s.engineCmd cmd 0x2D with
  | none => .next s
  | some c =>
    match s.slu.grants.find (c.f 0x18 2) with
    | some g => if g.vd = c.vd then .next ((s.endGrant (c.f 0x18 2)).engineDone cmd .ok) else .next (s.engineDone cmd .notGranted)
    | none => .next (s.engineDone cmd .notGranted)

/-- SL_ATTACH (R280). -/
def execSlAttach (cmd : Nat) (s : State) : Res :=
  match s.engineCmd cmd 0x2E with
  | none => .next s
  | some c =>
    let dev := c.f 0x28 1
    let slot := c.f 0x2A 2
    let key : Word := BitVec.ofNat 32 (c.f 0x2C 4)
    let ro := bit c.opx 0
    let pages := (List.range (c.len / 65536)).map fun i => c.addr / 65536 + i
    if !rangeOk c 2097152 || decide (128 ≤ dev) then .next (s.engineDone cmd .invalidField)
    else if pages.any fun p => !s.inExtent c.vd (p * 65536) || (s.entry c.vd p).isSome then .next (s.engineDone cmd .badAddress)
    else if dev = s.pool.devnum then
      match s.attachCheck dev c.vd slot c.len key ro c.addr with
      | (some fs, s1) => .next (s1.attachEnd cmd c.vd dev slot ro (c.addr / 65536) fs)
      | (none, s1) => .next (s1.engineDone cmd .notGranted)
    else if s.gone dev then .next (s.engineDone cmd .deviceGone)
    else .next ((s.sendRemote { kind := .sl, dev := dev, tag := cmd, who := c.who cmd, epoch := c.epoch }
      (.sl dev (.attach c.vd cmd slot c.len key ro))).modCmd cmd fun c => { c with st := .running })

/-- SL_DETACH (R278). -/
def State.detachRun (v : Nat) : Nat → Nat → State → Bool × State
  | 0, _, s => (true, s)
  | n + 1, page, s =>
    if !s.inExtent v (page * 65536) then (false, s)
    else
      match s.slu.pt.find (ptKey v page) with
      | some e =>
        let hit := decide (e.kind = .foreign) || decide (e.kind = .revoked)
        State.detachRun v n (page + 1) (if hit then s.delEntry v page else s)
      | none => State.detachRun v n (page + 1) s

def execSlDetach (cmd : Nat) (s : State) : Res :=
  match s.engineCmd cmd 0x2F with
  | none => .next s
  | some c =>
    if !rangeOk c 2097152 then .next (s.engineDone cmd .invalidField)
    else
      match State.detachRun c.vd (c.len / 65536) (c.addr / 65536) s with
      | (true, s1) => .next (s1.engineDone cmd .ok)
      | (false, s1) => .next (s1.engineDone cmd .badAddress)

/-- GRANT_REVOCATION (R281). -/
def execGrantRevocation (dev slot : Nat) (s : State) : Res := .next (s.revokeGrant dev slot)

/-! ### Release of pages (R276) -/

/-- A page of a VD is freed: copies are taken back, the caches shot down, the frames freed and the count lowered. A FOREIGN
page becomes REVOKED in a released range. It waits for a move of the page to settle. -/
def State.freePage (s : State) (v page : Nat) : State :=
  match s.slu.pt.find (ptKey v page) with
  | none => s
  | some e =>
    let k := pageFrames e.big
    match e.kind with
    | .foreign => s.setEntry v page { e with kind := .revoked }
    | .revoked => s
    | .migrating => s.stalled .hold
    | .page =>
      let s0 := s.moveFree v page
      let s1 := if gfDev e.gframe = s.pool.devnum then s0.takeBackFrames (gfLocal e.gframe) k v else s0
      let s2 := ((s1.delEntry v page).freeFramesOf e.gframe k).modVd v fun x => { x with usePage := x.usePage - k }
      { s2 with slu := { s2.slu with promo := s2.slu.promo.keep (fun _ p => !(decide (p.vd = v) && decide (p.page = page)))
                                     wanted := s2.slu.wanted.filter fun r => !(decide (r.vd = v) && decide (r.page = page)) } }

/-- R276: the pages of a VD that a test names are freed, and those that are being zeroed for a first touch: walks begin again, and what a
peer was asked for is given back when it comes. SL_PLACE commands that waited there go on. -/
def State.freePages (s : State) (v : Nat) (f : Nat → Bool) : State :=
  let zeroing (w : Walk) : Bool := decide (w.vd = v) && w.zero.isSome && f w.page
  let s1 := (s.slu.walks.filter zeroing).foldl (fun s w => match w.zero with
    | some (g, big) => (s.freeFramesOf (s.ownFrame g) (pageFrames big)).modVd v fun x => { x with usePage := x.usePage - pageFrames big }
    | none => s) s
  let s2 := { s1 with slu := { s1.slu with walks := s1.slu.walks.map fun w => if zeroing w then { w with zero := none } else w } }
  let s3 := (s2.slu.moves.filter fun m => m.fresh && decide (m.vd = v) && f m.page).foldl State.moveAbandon s2
  let s4 := ((s3.slu.pt.filter fun e => decide (e.1 / 2 ^ 26 = v) && f (e.1 % 2 ^ 26)).map fun e => e.1 % 2 ^ 26).foldl (fun s p => s.freePage v p) s3
  (s4.slu.places.filter fun p => decide (p.vd = v) && f p.next).foldl (fun s p => s.placeGo p 0) s4

/-- R276, R281: a released extent: grants that it touches end, its pages are freed. A 2 MiB page goes whole with the extent
that holds its start. -/
def State.releaseExtent (s : State) (v base len : Nat) : State :=
  (s.endGrants fun g => decide (g.vd = v) && decide (g.va < base + len) && decide (base < g.va + g.len)).freePages v
    fun p => decide (base ≤ p * 65536) && decide (p * 65536 < base + len)

end Sys2Proof.Machine
end

