-- ==== Sys2Proof/Machine/Operands.lean ====
section
/-! DEFINITION. The operand forms of a descriptor: operand references (R298), the field rules of each opcode (R295-R297, R500),
operand extents (R369, R478) and the expansion of a SERVICE command (R498). -/
namespace Sys2Proof.Machine

/-! ### Operand references (Table 11-4) -/

/-- A VD address, or a byte offset within a Hopper block. -/
inductive OpRef where
  | va (a : Nat)
  | blk (handle off : Nat)
  deriving DecidableEq, Repr

/-- R298: reserved bits must be 0. -/
def opRef (x : Nat) : Option OpRef :=
  if x / 2 ^ 63 = 0 then (if x < 2 ^ 42 then some (.va x) else none)
  else if bit x 62 then none else some (.blk (x % 2 ^ 32) (field x 32 30))

def OpRef.off : OpRef → Nat
  | .va a => a
  | .blk _ o => o

/-- The reference `n` bytes further on. -/
def OpRef.add : OpRef → Nat → OpRef
  | .va a, n => .va (a + n)
  | .blk h o, n => .blk h (o + n)

def OpRef.handle? : OpRef → Option Nat
  | .va _ => none
  | .blk h _ => some h

/-- The body field at an offset as a reference; the zero address stands for one that decode refuses. -/
def Cmd.ref (c : Cmd) (off : Nat) : OpRef := (opRef (c.f off 8)).getD (.va 0)

/-! ### Plans -/

def State.plan? (s : State) (n : Nat) : Option Plan := s.img.plans.find n
/-- OPX[9:0] of a command that names a plan. -/
def Cmd.planNo (c : Cmd) : Nat := c.opx % 1024
def fmtOf (n : Nat) : NumFmt := (NumFmt.ofCode n).getD .fp32

def Plan.a (p : Plan) : NumFmt := fmtOf p.aFmt
def Plan.x (p : Plan) : NumFmt := fmtOf p.xFmt
def Plan.out (p : Plan) : NumFmt := fmtOf p.outFmt
/-- The format of X after load conversion (R346). -/
def Plan.xc (p : Plan) : NumFmt := match p.xConv with | 1 => .lzb8 | 2 => .e4m3 | 3 => .bf16 | _ => p.x
def Plan.scaleOn (p : Plan) : Bool := bit p.stages 0
def Plan.scaleSrc (p : Plan) : Bool := bit p.stages 1
def Plan.biasOn (p : Plan) : Bool := bit p.stages 2
def Plan.biasSrc (p : Plan) : Bool := bit p.stages 3
def Plan.actOn (p : Plan) : Bool := bit p.stages 4
def Plan.resOn (p : Plan) : Bool := bit p.stages 5
def Plan.resSrc (p : Plan) : Bool := bit p.stages 6
def Plan.hdrOn (p : Plan) : Bool := decide (p.auxHdr ≠ 0xFFFFFFFF)
/-- R384. -/
def Plan.usesAux (p : Plan) : Bool :=
  (p.scaleOn && p.scaleSrc) || (p.biasOn && p.biasSrc) || (p.resOn && !p.resSrc) || p.hdrOn

/-- Bytes of a packed row of `k` elements (R339, R369). -/
def rowBytes (k : Nat) (f : NumFmt) : Nat :=
  match f with
  | .lzb8 => (k + 15) / 16 * 17
  | f => k * f.bytes

/-! ### MATMUL and the other service operands (Table 11-3) -/

def Cmd.mM (c : Cmd) : Nat := c.f 0x30 4
def Cmd.mK (c : Cmd) : Nat := c.f 0x34 4
def Cmd.mN (c : Cmd) : Nat := c.f 0x38 2
def Cmd.aux (c : Cmd) : Nat := c.f 0x3C 4
def Cmd.bags (c : Cmd) : Nat := c.f 0x30 4
def Cmd.bagLen (c : Cmd) : Nat := c.f 0x34 2
def Cmd.rows (c : Cmd) : Nat := c.f 0x38 4 % 2 ^ 30
def Cmd.poolMode (c : Cmd) : Nat := c.f 0x38 4 / 2 ^ 30
def Cmd.pos (c : Cmd) : Nat := c.f 0x28 4
def Cmd.tokens (c : Cmd) : Nat := c.f 0x30 4
def Cmd.head (c : Cmd) : Nat := c.f 0x34 2
def Cmd.atop (c : Cmd) : Nat := c.opx % 16
/-- The operand width of an ATOMIC in bits. -/
def Cmd.width (c : Cmd) : Nat := 32 * 2 ^ (c.opx / 16 % 4)
def Cmd.len3 (c : Cmd) : Nat := c.f 0x28 8

/-- The dimensions of a command on its plan (Table 14-3, R487, R495). -/
def Cmd.dims (c : Cmd) (p : Plan) : Nat × Nat × Nat :=
  match c.opcode with
  | 0x30 => (c.mM, c.mN, c.mK)
  | 0x38 => (c.bags, p.nFixed, c.bagLen)
  | 0x39 => (1, 1, p.nFixed)
  | 0x3A => (c.tokens, 1, p.nFixed)
  | _ => (1, 1, 1)

/-- The tile header array of a MATMUL: 8 bytes for each tile of the bucket that would serve it are bounded by one header for
each output element (R384). -/
structure Span where
  ref : OpRef
  len : Nat
  out : Bool
  deriving DecidableEq, Repr

/-- The operands of a service command, with what each covers (R369, R478-R495). -/
def Cmd.spans (c : Cmd) (p : Plan) : List Span :=
  let i (o n : Nat) : Span := { ref := c.ref o, len := n, out := false }
  let w (o n : Nat) : Span := { ref := c.ref o, len := n, out := true }
  match c.opcode with
  | 0x10 => [i 0x18 c.len3, w 0x20 c.len3]
  | 0x14 => [i 0x18 c.len3, w 0x20 c.len3]
  | 0x30 =>
    let aux (off n : Nat) : Span := { ref := .blk c.aux off, len := n, out := false }
    [i 0x18 (c.mM * rowBytes c.mK p.a), i 0x20 (c.mN * rowBytes c.mK p.x), w 0x28 (c.mN * rowBytes c.mM p.out)]
      ++ (if p.scaleOn && p.scaleSrc then [aux p.auxScale (4 * c.mM)] else [])
      ++ (if p.biasOn && p.biasSrc then [aux p.auxBias (4 * c.mM)] else [])
      ++ (if p.resOn && !p.resSrc then [aux p.auxRes (c.mN * rowBytes c.mM p.out)] else [])
  | 0x31 => [w 0x18 (rowBytes c.len3 p.out), i 0x20 (rowBytes c.len3 p.x)]
  | 0x38 => [i 0x18 (c.rows * rowBytes p.nFixed p.x), i 0x20 (4 * c.bagLen * c.bags), w 0x28 (c.bags * rowBytes p.nFixed p.out)]
  | 0x3A => [i 0x20 (rowBytes p.nFixed p.x), w 0x28 (rowBytes p.nFixed p.out)]
  | _ => []

/-- Two spans of one form that share a byte. -/
def Span.meets (a b : Span) : Bool :=
  let cross (x y : Nat) : Bool := decide (0 < a.len) && decide (0 < b.len) && decide (x < y + b.len) && decide (y < x + a.len)
  match a.ref, b.ref with
  | .va x, .va y => cross x y
  | .blk h x, .blk g y => decide (h = g) && cross x y
  | _, _ => false

/-- R478: an output overlaps an input. -/
def overlaps (xs : List Span) : Bool := xs.any fun o => o.out && xs.any fun i => !i.out && o.meets i

/-! ### Field rules -/

/-- Table 11-3: the opcodes. -/
def opcodes : List Nat :=
  [0x01, 0x02, 0x03, 0x10, 0x11, 0x12, 0x13, 0x14, 0x20, 0x21, 0x22, 0x23, 0x28, 0x29, 0x2A, 0x2B, 0x2C, 0x2D, 0x2E, 0x2F,
   0x30, 0x31, 0x38, 0x39, 0x3A, 0x40, 0x48]

/-- The opcodes that name a plan in OPX[9:0]. -/
def planOp (op : Nat) : Bool := op == 0x30 || op == 0x31 || op == 0x38 || op == 0x39 || op == 0x3A

/-- Table 11-3: legal values of OPX. -/
def opxOk (op x : Nat) : Bool :=
  if planOp op || op == 0x48 then decide (x < 1024)
  else match op with
    | 0x02 => decide (x < 3)
    | 0x03 => decide (x < 9)
    | 0x13 => decide (x < 64) && decide (x % 16 ≤ 0xC) && decide (x / 16 < 3)
    | 0x14 => decide (x < 4)
    | 0x20 => decide (x < 16)
    | 0x23 => decide (x < 16)
    | 0x2C => decide (x < 2)
    | 0x2E => decide (x < 2)
    | 0x40 => decide (x % 4 ≠ 3) && decide (x / 4 < 4)
    | _ => decide (x = 0)

/-- Table 11-3: the bytes of the body that each opcode defines, as offset and size. -/
def bodyUsed (op : Nat) : List (Nat × Nat) :=
  match op with
  | 0x03 => [(0x18, 2), (0x20, 6)]
  | 0x10 => [(0x18, 24)] | 0x11 => [(0x18, 24)] | 0x12 => [(0x18, 24)]
  | 0x13 => [(0x18, 40)] | 0x14 => [(0x18, 24)]
  | 0x20 => [(0x18, 6), (0x20, 4)] | 0x21 => [(0x18, 4)] | 0x22 => [(0x18, 4), (0x20, 8)] | 0x23 => [(0x18, 6)]
  | 0x28 => [(0x18, 18)] | 0x29 => [(0x18, 16)] | 0x2A => [(0x18, 16)] | 0x2B => [(0x18, 24)] | 0x2C => [(0x18, 16)]
  | 0x2D => [(0x18, 2)] | 0x2E => [(0x18, 17), (0x2A, 6)] | 0x2F => [(0x18, 16)]
  | 0x30 => [(0x18, 34), (0x3C, 4)] | 0x31 => [(0x18, 32)] | 0x38 => [(0x18, 30), (0x38, 4)]
  | 0x39 => [(0x18, 20)] | 0x3A => [(0x18, 30), (0x38, 4)]
  | 0x40 => [(0x18, 18), (0x2C, 4)] | 0x48 => [(0x18, 40)]
  | _ => []

/-- R295: every byte of the body that the opcode does not define is 0. -/
def bodyOk (c : Cmd) : Bool :=
  (List.range 40).all fun i => (bodyUsed c.opcode).any (fun u => decide (u.1 ≤ 0x18 + i) && decide (0x18 + i < u.1 + u.2)) || c.f (0x18 + i) 1 == 0

/-- Body offsets of the operand references (Table 11-3, the fields marked †). -/
def refFields (op : Nat) : List Nat :=
  match op with
  | 0x10 => [0x18, 0x20] | 0x11 => [0x18] | 0x12 => [0x18, 0x20] | 0x13 => [0x18] | 0x14 => [0x18, 0x20]
  | 0x30 => [0x18, 0x20, 0x28] | 0x31 => [0x18, 0x20] | 0x38 => [0x18, 0x20, 0x28] | 0x39 => [0x20] | 0x3A => [0x20, 0x28]
  | 0x40 => [0x18] | _ => []

/-- Table 11-1: the header. -/
def State.headerOk (s : State) (c : Cmd) : Bool :=
  decide (c.flags < 32) && (!c.noAlloc || c.opcode == 0x10 || c.opcode == 0x11 || c.opcode == 0x30 || c.opcode == 0x38)
    && decide (c.stream < (s.img.vds.getD c.vd {}).streams) && c.f 0x0E 2 == 0
    && (decide (c.waitPen < 8192) || (c.waitPen == 0xFFFF && c.waitVal == 0))
    && ((decide (c.signalPen < 8192) && decide (0 < c.sigInc)) || (c.signalPen == 0xFFFF && c.sigInc == 0))

/-- R472: a legal group of a collective. -/
def State.groupOk (s : State) (c : Cmd) : Bool :=
  let g := c.f 0x28 2
  let m := g % 128
  let plane := bit g 7
  let d := match s.img.poolMap with | some p => ((List.range 8).find? fun d => decide (p.maxDevices ≤ 2 ^ d)).getD 7 | none => 0
  let n := popCount 7 m + b2n plane
  let bytes := c.f 0x20 8 * (if c.opx / 4 = 1 then 2 else 4)
  decide (g < 256) && decide (m < 2 ^ d) && decide (0 < n) && (!plane || s.pool.linkKind.getD 7 0 == 2)
    && decide (0 < bytes) && decide (bytes % (128 * n * 2 ^ n) = 0)

/-- The FP32 encoding is finite. -/
def fp32Finite (x : Nat) : Bool := decide (field x 23 8 ≠ 255)

/-- The range rules of the body (R321, R472, R482, R489, R494, R500, Table 11-3). -/
def State.bodyRangeOk (s : State) (c : Cmd) : Bool :=
  let lenOk := decide (1 ≤ c.len3) && decide (c.len3 ≤ 2 ^ 42)
  match c.opcode with
  | 0x03 => decide (c.f 0x18 2 < 8192)
      && (match c.opx with
        | 2 => decide (0 < c.f 0x20 6)
        | 1 => c.f 0x20 6 == 0 | 4 => c.f 0x20 6 == 0 | 6 => c.f 0x20 6 == 0 | 8 => c.f 0x20 6 == 0
        | _ => true)
  | 0x10 => lenOk
  | 0x11 => decide (1 ≤ c.f 0x20 8) && decide (c.f 0x20 8 ≤ 2 ^ 42)
  | 0x12 => lenOk
  | 0x13 => atomicOk c.atop c.width ((c.ref 0x18).off % 128) && decide (c.f 0x20 16 < 2 ^ c.width) && decide (c.f 0x30 16 < 2 ^ c.width)
  | 0x14 => decide ((c.ref 0x20).off % 128 = 0) && decide (c.len3 % 128 = 0)
  | 0x28 => decide (c.f 0x29 1 < 4)
  | 0x30 => decide (0 < c.mM) && decide (0 < c.mK) && decide (0 < c.mN)
  | 0x31 => decide (1 ≤ c.len3) && decide (c.len3 ≤ 2 ^ 40)
  | 0x38 => decide (0 < c.bags) && decide (1 ≤ c.bagLen) && decide (c.bagLen ≤ 4096) && decide (0 < c.rows) && decide (c.poolMode ≠ 3)
  | 0x39 => decide (c.f 0x18 8 % 4096 = 0)
  | 0x3A => decide (c.f 0x18 8 % 4096 = 0) && decide (1 ≤ c.tokens) && decide (c.tokens ≤ 2 ^ 24) && decide (c.head < 256) && fp32Finite (c.f 0x38 4)
  | 0x40 => s.groupOk c
  | _ => true

/-- R297, R384, R478: the plan exists, serves the opcode, and the operands fit it. -/
def State.planOk (s : State) (c : Cmd) : Bool :=
  if planOp c.opcode then
    match s.plan? c.planNo with
    | none => false
    | some p =>
      decide (p.kind = c.opcode) && !overlaps (c.spans p)
        && (c.opcode != 0x30 || (p.usesAux == decide (c.aux ≠ nullHandle)))
  else !overlaps (c.spans {})

/-- R322: the virtual pennants that the command names and that must be bound are bound. -/
def State.pensBound (s : State) (c : Cmd) : Bool :=
  (c.waitPen == 0xFFFF || (s.binding c.vd c.waitPen).isSome) && (c.signalPen == 0xFFFF || (s.binding c.vd c.signalPen).isSome)
    && (c.opcode != 3 || c.opx == 0 || c.opx == 7 || (s.binding c.vd c.pen).isSome)

/-- R498: the descriptor that a SERVICE command expands to. -/
def State.expand (s : State) (c : Cmd) : Option (BitVec 512) :=
  match (if c.opx < 256 then s.img.services.find c.opx else none) with
  | none => none
  | some r =>
    let arg (i : Nat) : Nat := c.f (0x18 + 8 * i) 8
    let clean := (List.range 5).all fun i => decide (arg i < (if i < r.args then 256 ^ (r.maps.getD i (0, 0)).2 else 1))
    if clean then
      let base : BitVec 512 := (c.desc &&& BitVec.ofNat 512 (2 ^ 176 - 1)) ||| (r.template &&& ~~~ BitVec.ofNat 512 (2 ^ 176 - 1))
      let d0 := (base &&& ~~~ (255 : BitVec 512)) ||| BitVec.ofNat 512 r.op
      some ((List.range r.args).foldl (fun d i =>
        let (o, n) := r.maps.getD i (0x18, 1)
        (d &&& ~~~ (BitVec.ofNat 512 (256 ^ n - 1) <<< (8 * o))) ||| (BitVec.ofNat 512 (arg i % 256 ^ n) <<< (8 * o))) d0)
    else none

/-- The decode checks of R307 on a descriptor that is not a SERVICE: none, or the status that faults the command. -/
def State.decodeStatus (s : State) (c : Cmd) : Option Status :=
  if !opcodes.contains c.opcode || !s.headerOk c || !opxOk c.opcode c.opx || !bodyOk c
      || !((refFields c.opcode).all fun o => (opRef (c.f o 8)).isSome) || !s.bodyRangeOk c || !s.planOk c then some .invalidField
  else if !s.pensBound c then some .noPennant
  else none

end Sys2Proof.Machine
end

