-- ==== Sys2Proof/Machine/Daxmas.lean ====
section
/-! DEFINITION. Daxmas: rings and doorbells (R299-R302), completion records (R303, R304), cancellation (R309), decode and
readiness (R307, R311), the split (R312), buckets (R370) and the launch of tasks (R313). -/
namespace Sys2Proof.Machine

/-! ### Windows -/

/-- R112, R149: a policy write held under posted flow control holds what follows on its port, and so does a key switch. -/
def State.portStuck (s : State) (p : Nat) : Bool := (s.port p).ideSwitch || s.polq.held.any fun w => match w.vd with | some v => decide (v / 16 = p) | none => false

/-- A window access completes with Unsupported Request. -/
def State.unsupported (s : State) (m : Mmio) : State := s.send (.unsupported m.vd m.off)

/-- R129: a CXL.io message that carries an LD-ID at or above LD_COUNT: Unsupported Request, and a management record. -/
def State.noLd (s : State) (p ld : Nat) : State := (s.send (.noLd p ld)).post { cls := .protocol, unit := p, code := 3, detail := ld }

/-- What becomes of a window access that no window takes; none where one does: no link carries it; no LD of that number is exposed, and
to a partner in MLD mode the device answers so (R124, R129); or CXL.io IDE is not active yet (R150). -/
def State.windowShut (s : State) (m : Mmio) : Option State :=
  let p := m.vd / 16
  let ld := m.ld.getD (m.vd % 16)
  if (s.port p).link ≠ 2 then some s
  else if 16 ≤ ld ∨ !s.exposed p ld then some (if (s.port p).mld then s.noLd p ld else s)
  else if s.ideBlocks p then some (s.unsupported m)
  else none

/-- A write to a VD's window: held during a warm reset (R68), else effective when the device is up and the VD READY
(R174, R301, R577). -/
def State.winWrite (s : State) (m : Mmio) (f : State → State) (w : RegWrite := .window m) : State :=
  match s.windowShut m with
  | some s1 => s1
  | none =>
  if decide (s.boot.warm ≠ 0) || s.portStuck (m.vd / 16) then { s with boot := { s.boot with held := s.boot.held ++ [.write w] } }
  else if s.boot.memActive && decide ((s.vd m.vd).st = .ready) then f s else s

/-- R11: a reserved encoding was written. -/
def State.rsvdEnc (s : State) (v : Nat) : State := s.modVd v fun x => { x with err := { x.err with rsvdEnc := true } }

/-! ### Rings -/

/-- Table 11-5: sizes 4 to 12 are valid. -/
def ringSizeOk (n : Nat) : Bool := decide (4 ≤ n) && decide (n ≤ 12)
def Ring.size (r : Ring) : Nat := if ringSizeOk r.sizeLog2 then 2 ^ r.sizeLog2 else 0
/-- Table 11-6, IDLE. -/
def Ring.idle (r : Ring) : Bool := !r.enable && r.inFlight == 0 && r.captured == 0 && r.writing.isEmpty
/-- R301: a completion entry is neither used nor reserved. -/
def Ring.cqFree (r : Ring) : Bool := decide ((r.cqTail + BitVec.ofNat 16 (r.writing.length + r.reserved) - r.cqHead).toNat < r.size)

/-- R300: RING_DB. -/
def State.ringDb (s : State) (v i : Nat) (w : Word) : State :=
  s.modRing v i fun r =>
    if !r.enable || decide (65536 ≤ w.toNat) || decide (r.size < (w.setWidth 16 - r.head).toNat) then { r with badDoorbell := true }
    else { r with tail := w.setWidth 16 }

/-- R300: CQ_DB. -/
def State.cqDb (s : State) (v i : Nat) (w : Word) : State :=
  s.modRing v i fun r =>
    if !r.enable || decide (65536 ≤ w.toNat) || decide (r.size < (r.cqTail - w.setWidth 16).toNat) then { r with badDoorbell := true }
    else { r with cqHead := w.setWidth 16 }

/-- R299, R11: RING_CTRL_i. -/
def State.ringCtrl (s : State) (v i : Nat) (w : Word) : State :=
  let r := s.ring v i
  let sz := field w.toNat 0 4
  let sz' := if ringSizeOk sz then sz else r.sizeLog2
  let en := bit w.toNat 4
  let live := (sz' != r.sizeLog2 && (r.enable || !r.idle)) || (en && !r.enable && !r.idle)
  if live then s.modRing v i fun r => { r with liveWrite := true }
  else
    let bad := en && !ringSizeOk sz'
    let s1 := if !ringSizeOk sz || bad then s.rsvdEnc v else s
    s1.modRing v i fun r =>
      let r1 := { r with sizeLog2 := sz', enable := en && !bad, vector := field w.toNat 8 5 }
      if en && !bad && !r.enable then { r1 with head := 0, tail := 0, cqTail := 0, cqHead := 0, discard := false } else r1

/-- R299, R590: a base register: 0 RING_BASE_LO, 1 RING_BASE_HI, 2 CQ_BASE_LO, 3 CQ_BASE_HI. -/
def State.ringBase (s : State) (v i reg : Nat) (w : Word) : State :=
  s.modRing v i fun r =>
    if r.enable || !r.idle then { r with liveWrite := true }
    else
      let lo (b : DWord) : DWord := BitVec.ofNat 64 (b.toNat / 2 ^ 32 * 2 ^ 32 + w.toNat / 4096 * 4096)
      let hi (b : DWord) : DWord := BitVec.ofNat 64 (b.toNat % 2 ^ 32 + w.toNat * 2 ^ 32)
      match reg with
      | 0 => { r with base := lo r.base }
      | 1 => { r with base := hi r.base }
      | 2 => { r with cqBase := lo r.cqBase }
      | _ => { r with cqBase := hi r.cqBase }

/-- Offsets of the ring registers and doorbells (R300, R590), for accesses that a warm reset holds. -/
def ringReg (i : Nat) : Nat := 0x22000 + 0x40 * i

def execRingDb (vd ring : Nat) (value : Word) (s : State) : Res :=
  .next (s.winWrite { vd := vd, door := true, off := 0x1000 * (ring % 16), val := value.toNat } fun s => s.ringDb vd (ring % 16) value)

def execCqDb (vd ring : Nat) (value : Word) (s : State) : Res :=
  .next (s.winWrite { vd := vd, door := true, off := 0x1000 * (ring % 16) + 8, val := value.toNat } fun s => s.cqDb vd (ring % 16) value)

def execRingCtrlWrite (vd ring : Nat) (value : Word) (s : State) : Res :=
  .next (s.winWrite { vd := vd, off := ringReg (ring % 16), val := value.toNat } fun s => s.ringCtrl vd (ring % 16) value)

def execRingBaseWrite (vd ring reg : Nat) (value : Word) (s : State) : Res :=
  .next (s.winWrite { vd := vd, off := ringReg (ring % 16) + 8 + 4 * (reg % 4), val := value.toNat } fun s =>
    s.ringBase vd (ring % 16) (reg % 4) value)

/-! ### Ring faults and records (R302-R304) -/

/-- R302: a ring stops on a failed descriptor read. -/
def State.ringFault (s : State) (v i : Nat) (st : Status) (a : Nat) (x : Ext) : State :=
  let s1 := s.modRing v i fun r => { r with enable := false, ringFault := true, captured := 0 }
  let r : Rec := { cls := .ringFault, status := st.code, vd := v, addr := a }
  (s1.postVd v r x).post { r with addr := 0 }

/-- R302: a completion write fails. -/
def State.cqFaulted (s : State) (v i : Nat) (st : Status) (a : Nat) (x : Ext) : State :=
  let s1 := s.modRing v i Ring.fault
  let r : Rec := { cls := .ringFault, status := st.code, vd := v, addr := a }
  (s1.postVd v r x).post { r with addr := 0 }

/-- What a completion record says of its command. -/
structure Done where
  term : Term
  status : Status
  units : Nat := 0
  result : Nat := 0
  deriving DecidableEq, Repr

/-- The counter value of the next record: behind those whose writes are under way. -/
def Ring.cqNext (r : Ring) : Nat := (r.cqTail + BitVec.ofNat 16 r.writing.length).toNat

/-- The VD address of the next record. -/
def Ring.cqAddr (r : Ring) : Nat := r.cqBase.toNat + 32 * (r.cqNext % r.size)

/-- Table 11-7, at a counter value of the ring. -/
def Ring.record (r : Ring) (tag opcode stream : Nat) (d : Done) : List Byte :=
  let phase := b2n (r.cqNext / r.size % 2 == 0)
  let term := match d.term with | .done => 0 | .cancelled => 2 | .faulted => 4
  leBytes 4 tag ++ leBytes 2 d.status.code ++ leBytes 1 opcode ++ leBytes 1 (phase + term) ++ leBytes 2 stream ++ leBytes 2 0
    ++ leBytes 4 d.units ++ leBytes 16 d.result

/-- R303, R304: a record is written behind the others; the tail advances, and the interrupt is raised, when the write is performed. The entry
was reserved or is free. -/
def State.putRecord (s : State) (v i : Nat) (irq : Bool) (tag opcode stream : Nat) (d : Done) (x : Ext) : State :=
  let r := s.ring v i
  if r.discard then s
  else
    let s0 := s.modRing v i fun r => { r with writing := r.writing ++ [(r.cqAddr, false, irq || decide (d.status ≠ .ok))] }
    match s0.vdWrite v r.cqAddr (r.record tag opcode stream d) false { vd := v, stream := stream, tag := tag, errRec := true } x with
    | (some (st, fa), s1) => s1.cqFaulted v i st fa x
    | (none, s1) => s1

/-! ### Reading descriptors (R301) -/

/-- A VD's task slots in use. -/
def State.useTask (s : State) (v : Nat) : Nat := (s.vd v).useTask

/-- R301, R312: a READY command of the VD still has tasks to create. -/
def State.hasUncreated (s : State) (v : Nat) : Bool := s.dax.cmds.any fun e => decide (e.2.vd = v) && !e.2.uncreated.isEmpty

/-- A ring has an entry that R301 lets it read, apart from what R301 asks of the VD. -/
def Ring.readable (r : Ring) : Bool := r.enable && decide (r.head ≠ r.tail) && r.captured == 0 && r.cqFree

/-- R301: one entry per ring per turn: the next ring of the VD that may be read. -/
def State.nextRing (s : State) (v : Nat) : Option Nat :=
  ((List.range 16).map fun i => ((s.vd v).rrRing + i) % 16).find? fun i => (s.ring v i).readable

/-- R301: what the VD itself must meet, the device's task slots aside. -/
def State.mayRead (s : State) (v : Nat) : Bool :=
  s.boot.memActive && s.boot.warm == 0 && decide ((s.vd v).st = .ready) && decide (s.useTask v < s.quotaTask v) && !s.hasUncreated v

/-- The descriptor read itself: it takes a slot, reserves a completion entry and advances the head, or stops the ring. -/
def State.readEntry (s : State) (v i : Nat) (x : Ext) : State :=
  let r := s.ring v i
  let a := r.base.toNat + 64 * (r.head.toNat % r.size)
  match s.vdRead v a 64 x with
  | (o, s1) =>
    match o.fault with
    | some (st, fa) => s1.ringFault v i st fa x
    | none =>
      if o.poison then s1.ringFault v i .poisoned a x
      else
        let c : Cmd := { vd := v, ring := i, epoch := (s1.vd v).epoch, desc := BitVec.ofNat 512 (leNat o.bytes), readAt := s.now }
        let s2 := s1.modRing v i fun r => { r with head := r.head + 1, reserved := r.reserved + 1, inFlight := r.inFlight + 1 }
        let s3 := s2.modVd v fun y => { y with useTask := y.useTask + 1, rrRing := (i + 1) % 16 }
        { s3 with dax := { s3.dax with seq := s3.dax.seq + 1, cmds := s3.dax.cmds.put s3.dax.seq c } }

/-- A request for a shared entry waits once (R164). -/
def State.waitShared (s : State) (q : QueueId) (v item : Nat) : State :=
  let x := s.queue q
  if x.waiting.any fun w => decide (w.vd = v) && decide (w.item = item) then s
  else s.setQueue q { x with waiting := x.waiting ++ [{ vd := v, item := item }] }

/-- A waiting ring or command could take a task slot now. -/
def State.stillWaits (s : State) (w : QWait) : Bool :=
  if w.item < 16 then s.mayRead w.vd && s.nextRing w.vd == some w.item
  else match s.cmd? (w.item - 16) with
    | some c => s.current c && !c.uncreated.isEmpty && decide (s.useTask c.vd < s.quotaTask c.vd)
    | none => false

/-- R164, R165: a slot is free to the VD now: of its reserved share, or a shared one for which nobody waits. -/
def State.slotNow (s : State) (v : Nat) : Bool :=
  decide (s.useTask v < s.reserve .tasks v) || (s.canTake .tasks s.useTask v && !((s.queue .tasks).waiting.any s.stillWaits))

/-- A command waits no more for a shared entry of a queue. -/
def State.unwait (s : State) (q : QueueId) (item : Nat) : State :=
  let x := s.queue q
  if x.waiting.any fun w => decide (w.item = item) then s.setQueue q { x with waiting := x.waiting.filter fun w => decide (w.item ≠ item) } else s

def execDescriptorRead (vd ring : Nat) (x : Ext) (s : State) : Res :=
  if s.mayRead vd && s.nextRing vd == some ring then
    if s.slotNow vd then .next (s.orWait x.pick fun s => s.readEntry vd ring x) else .next (s.waitShared .tasks vd ring)
  else .next s

/-! ### Termination of one command that never ran, and cancellation (R309) -/

/-- R326: a command's wait is withdrawn: its registration on this device, its request that still waits for a remote-operation entry, and,
through a peer's pennant, what it sent or had recorded there. It waits for no shared entry any more. -/
def State.withdrawCmd (s : State) (q : Nat) (c : Cmd) : State :=
  let mine (r : RemoteOp) : Bool := decide (r.kind = .pen) && decide (r.who.cmd = some q) && !r.posted
  let s1 := s.withdraw fun r => decide (r.who = .cmd q)
  let s2 := (({ s1 with pool := { s1.pool with remWait := s1.pool.remWait.filter fun r => !mine r.1 } } : State).unwait .tasks (16 + q)).unwait .hopperCmds q
  match c.waitsOn.bind (s.bindingIn c.vd c.epoch) with
  | some (.imported t false) =>
    if ticketDev t = s.pool.devnum ∨ (s.pool.remWait.any fun r => mine r.1) then s2
    else s2.sendRemote { kind := .pen, dev := ticketDev t, tag := q, who := c.who q, epoch := c.epoch, posted := true }
      (.penReq (ticketDev t) c.vd q 17 t 0)
  | _ => s2

/-- The command ends before any task of it exists. -/
def State.endEarly (s : State) (q : Nat) (term : Term) (st : Status) : State :=
  match s.cmd? q with
  | some c => (s.withdrawCmd q c).modCmd q fun c => { c with engineFin := some { term := term, status := st }, wait := .none }
  | none => s

/-- A task is cancelled: before it runs it ends, while it runs it stops at its next boundary (Table 11-10). -/
def Task.cancelled (t : Task) : Task :=
  match t.st with
  | .running => { t with cancel := true }
  | _ => if t.fin.isSome then t else { t with fin := some { term := .cancelled, status := .cancelled } }

/-- Cancellation of a command (R307-R309): an engine command, ATOMIC or COLLECTIVE that runs completes; a waiting ARM ends
(R326). Tasks that are not created yet never are. -/
def State.cancelCmd (s : State) (q : Nat) : State :=
  match s.cmd? q with
  | none => s
  | some c =>
    if c.engineFin.isSome then s
    else if c.st = .queued then s.endEarly q .cancelled .cancelled
    else if c.tasks.isEmpty then
      if c.st = .ready ∨ c.wait = .registered then s.endEarly q .cancelled .cancelled
      else if c.uncreated.isEmpty then s
      else s.setCmd q { c with uncreated := [], anyCancelled := true, engineFin := some { term := .cancelled, status := .cancelled } }
    else if (c.opcode = 0x13 ∨ c.opcode = 0x40) ∧ c.tasks.any (fun t => decide (t.st = .running)) then s
    else s.setCmd q { c with tasks := c.tasks.map Task.cancelled, uncreated := [], anyCancelled := c.anyCancelled || !c.uncreated.isEmpty }

/-- Every command that a test names is cancelled. -/
def State.cancelAll (s : State) (f : Nat → Cmd → Bool) : State :=
  ((s.dax.cmds.filter fun e => f e.1 e.2).map (·.1)).foldl State.cancelCmd s

/-- R309: the unread entries of a ring are captured. -/
def State.capture (s : State) (v i : Nat) : State :=
  s.modRing v i fun r => { r with captured := (r.tail - r.head).toNat }

/-- Table 11-11: CANCEL acts in a mode. -/
def State.cancelMode (s : State) (v : Nat) (w : DWord) : State :=
  let tag := field w.toNat 0 32
  let stream := field w.toNat 32 11
  let ring := field w.toNat 52 4
  let mine (c : Cmd) : Bool := decide (c.vd = v) && decide (c.epoch = (s.vd v).epoch)
  match field w.toNat 48 2 with
  | 0 => s.cancelAll fun _ c => mine c && decide (c.stream = stream) && decide (c.tag = tag)
  | 1 => s.cancelAll fun _ c => mine c && decide (c.stream = stream)
  | 2 => (s.cancelAll fun _ c => mine c && decide (c.ring = ring)).capture v ring
  | _ => (List.range 16).foldl (fun s i => s.capture v i) (s.cancelAll fun _ c => mine c)

/-- A CANCEL write of one mode: reserved bits are a reserved encoding (R309, R11). -/
def State.cancelWrite (s : State) (v : Nat) (w : DWord) : State :=
  if field w.toNat 43 5 ≠ 0 ∨ field w.toNat 50 2 ≠ 0 ∨ field w.toNat 56 8 ≠ 0 then s.rsvdEnc v else s.cancelMode v w

def State.cancelRow (s : State) (mode v : Nat) (w : DWord) : State :=
  if field w.toNat 48 2 = mode then s.winWrite { vd := v, off := 0x21008, len := 8, val := w.toNat } fun s => s.cancelWrite v w else s

def execCancelTag (vd : Nat) (value : DWord) (s : State) : Res := .next (s.cancelRow 0 vd value)
def execCancelStream (vd : Nat) (value : DWord) (s : State) : Res := .next (s.cancelRow 1 vd value)
def execCancelRing (vd : Nat) (value : DWord) (s : State) : Res := .next (s.cancelRow 2 vd value)
def execCancelAllRings (vd : Nat) (value : DWord) (s : State) : Res := .next (s.cancelRow 3 vd value)

/-- R296: a command of a stream ended with a status other than OK. -/
def State.streamFailed (s : State) (v stream q : Nat) : State :=
  s.modVd v fun x => { x with failedStreams := x.failedStreams.put stream (min q (x.failedStreams.getD stream q)) }

/-- R309: a captured entry is read when a completion entry is free and completes CANCELLED at once (R308). -/
def State.readCaptured (s : State) (v i : Nat) (x : Ext) : State :=
  let r := s.ring v i
  let a := r.base.toNat + 64 * (r.head.toNat % r.size)
  match s.vdRead v a 64 x with
  | (o, s1) =>
    match o.fault with
    | some (st, fa) => s1.ringFault v i st fa x
    | none =>
      if o.poison then s1.ringFault v i .poisoned a x
      else
        let c : Cmd := { vd := v, ring := i, epoch := (s1.vd v).epoch, desc := BitVec.ofNat 512 (leNat o.bytes), readAt := s.now }
        let s2 := (s1.modRing v i fun r => { r with head := r.head + 1, captured := r.captured - 1 }).streamFailed v c.stream s1.dax.seq
        let s3 := { s2 with dax := { s2.dax with seq := s2.dax.seq + 1 } }
        let s4 := if c.sigAlways && c.signalPen != 0xFFFF then s3.terminationSignal v c.signalPen c.sigInc else s3
        s4.putRecord v i c.irq c.tag c.opcode c.stream { term := .cancelled, status := .cancelled } x

def execCapturedEntryRead (vd ring : Nat) (x : Ext) (s : State) : Res :=
  let r := s.ring vd ring
  if decide (0 < r.captured) && r.cqFree && decide ((s.vd vd).st = .ready) && s.boot.warm == 0 then .next (s.orWait x.pick fun s => s.readCaptured vd ring x)
  else .next s

/-! ### Decode (R307, R311) -/

/-- The command has not left QUEUED. -/
def Cmd.queued (c : Cmd) : Bool := decide (c.st = .queued) && c.engineFin.isNone

/-- Commands of the same VD that were read before a command and have not terminated. -/
def State.earlier (s : State) (q : Nat) (c : Cmd) (f : Cmd → Bool) : Bool :=
  s.dax.cmds.any fun e => decide (e.1 < q) && decide (e.2.vd = c.vd) && f e.2

/-- R311, Start order. -/
def State.startOk (s : State) (q : Nat) (c : Cmd) : Bool :=
  s.current c && !s.earlier q c fun d => decide (d.stream = c.stream) && d.queued

/-- R311: the scope of a FENCE covers another command. -/
def Cmd.fences (d c : Cmd) : Bool :=
  decide (d.opcode = 2) && (match d.opx with | 0 => decide (d.stream = c.stream) | 1 => decide (d.ring = c.ring) | 2 => true | _ => false)

/-- R323: the wait of a command whose decode checks passed. -/
def State.registerWait (s : State) (q : Nat) (c : Cmd) : State :=
  let set (w : WaitSt) : State := s.setCmd q { c with wait := w }
  if c.waitPen = 0xFFFF ∨ c.waitVal = 0 then set .met
  else
    let loc (p : Nat) : State :=
      if c.waitVal ≤ (s.penn p).count.toNat then set .met else (set .registered).register p c.vd c.waitVal (.cmd q)
    match s.binding c.vd c.waitPen with
    | none => s.setCmd q { c with engineFin := some { term := .faulted, status := .noPennant } }
    | some (.lease p dead) => if dead then set .abandoned else loc p
    | some (.imported t dead) =>
      if dead then set .abandoned
      else if ticketDev t = s.pool.devnum then
        match s.ticketPen t with
        | some (_, e) => loc e.pen
        | none => set .abandoned
      else
        (set .registered).sendRemote { kind := .pen, dev := ticketDev t, tag := q, who := c.who q, epoch := c.epoch }
          (.penReq (ticketDev t) c.vd q 5 t c.waitVal)

/-- The decode checks, the expansion of a SERVICE (R498) and the wait. -/
def State.decode (s : State) (q : Nat) (c : Cmd) : State :=
  let fault (st : Status) : State := s.setCmd q { c with engineFin := some { term := .faulted, status := st } }
  let go (c : Cmd) : State :=
    match s.decodeStatus c with
    | some st => s.setCmd q { c with engineFin := some { term := .faulted, status := st } }
    | none => s.registerWait q { c with decoded := true }
  if c.opcode = 0x48 then
    if !s.headerOk c || !opxOk 0x48 c.opx then fault .invalidField
    else
      match s.expand c with
      | none => fault .invalidField
      | some d => go { c with desc := d, svc := true }
  else go c

def execCommandDecode (cmd : Nat) (s : State) : Res :=
  match s.cmd? cmd with
  | some c => if c.queued && !c.decoded && s.startOk cmd c then .next (s.decode cmd c) else .next s
  | none => .next s

/-! ### Buckets (R370) -/

/-- R370: the bucket covers the dimensions. -/
def Bucket.covers (b : Bucket) (kind m n k : Nat) : Bool :=
  (b.bm == 0 || decide (m ≤ b.bm)) && (kind != 0x30 || decide (n ≤ b.bn)) && (b.bk == 0 || decide (k ≤ b.bk))

/-- R370: its size. -/
def Bucket.size (b : Bucket) : Nat :=
  (if b.bm = 0 then 2 ^ 32 else b.bm) * (if b.bn = 0 then 1 else b.bn) * (if b.bk = 0 then 2 ^ 32 else b.bk)

/-- R370: the smallest covering bucket, the lowest number among equals. -/
def Plan.bucketFor (p : Plan) (m n k : Nat) : Option Nat :=
  (List.range p.buckets.length).foldl (fun best i =>
    match p.buckets[i]? with
    | none => best
    | some b =>
      if b.covers p.kind m n k then
        match best with
        | none => some i
        | some j => if b.size < (p.buckets.getD j {}).size then some i else some j
      else best) none

def State.planOf (s : State) (c : Cmd) : Plan := (s.plan? c.planNo).getD {}
def State.bucketOf (s : State) (c : Cmd) : Bucket := (s.planOf c).buckets.getD c.bucket {}

/-! ### Handles and the split (R259, R312) -/

/-- The handles that a command's operands name (R259, R384). -/
def Cmd.handles (c : Cmd) : List Nat :=
  let hs := (refFields c.opcode).filterMap fun o => (c.ref o).handle?
  (if c.opcode = 0x30 ∧ c.aux ≠ nullHandle then hs ++ [c.aux] else hs).eraseDups

/-- R259: the first handle that does not resolve: its fault, and the owner of another VD's buffer. -/
def State.handleFault (s : State) (c : Cmd) : Option (Status × Nat) :=
  c.handles.findSome? fun h =>
    match s.handleIs c.vd h with
    | .live => none
    | .other o => some (.notOwner, o)
    | .invalid => some (.invalidField, 0)
    | .stale => some (.staleHandle, 0)

/-- A handle of another VD's buffer counts as misuse (R255, R259). -/
def State.countHandle (s : State) (v : Nat) (f : Status × Nat) : State := if f.1 = .notOwner then s.misused f.2 v else s

/-- The slice of an operand's byte: its home or proxy, or the slice whose bay holds it (R187, R190, R193). A byte that
cannot be translated goes to the lowest present slice. -/
def State.refSlice (s : State) (v : Nat) (r : OpRef) (x : Ext) : Nat × State :=
  match r with
  | .va a =>
    match s.translate v a false x with
    | (.ok ga, s1) => (s1.sliceOf (ga / 128), s1)
    | (.error _, s1) => (s1.liveSlice (s1.inv.physSlice 0), s1)
  | .blk h o =>
    let p := handlePool h
    let b := s.poolByte p ((s.hrec (handleKey h)).base * 64 + o)
    (s.liveSlice (if (s.hpool p).kind = 1 then b / bayBytes / 18 else s.homeSlice (s.inv.chanOf (b / 65536))), s)

/-- Where an operand begins, for its 64 KiB frames: its VD address, or its offset in its pool. -/
def State.refBase (s : State) (r : OpRef) : Nat :=
  match r with
  | .va a => a
  | .blk h o => (s.hrec (handleKey h)).base * 64 + o

/-- Units are assigned one by one: the slice of each and the tasks they form (R312). -/
def State.assign (f : Nat → State → Nat × State) : List Nat → Tab (List Nat) → State → Tab (List Nat) × State
  | [], t, s => (t, s)
  | u :: us, t, s =>
    match f u s with
    | (n, s1) => State.assign f us (t.put n (t.getD n [] ++ [u])) s1

/-- R312: one unit for each 64 KiB frame of an operand. -/
def State.frameUnits (s : State) (r : OpRef) (len : Nat) : List Nat :=
  let b := s.refBase r
  List.range ((b + len - 1) / 65536 - b / 65536 + 1)

/-- The first byte of a frame unit, as an offset into the operand. -/
def State.frameOff (s : State) (r : OpRef) (u : Nat) : Nat := (s.refBase r / 65536 + u) * 65536 - s.refBase r

/-- R377: KB, the K elements of one part. -/
def Plan.kb (p : Plan) (b : Bucket) (k : Nat) : Nat :=
  if p.ksplit = 0 then k else ((k + 2 ^ p.ksplit - 1) / 2 ^ p.ksplit + b.kl - 1) / b.kl * b.kl

/-- R377: the K parts that exist. -/
def Plan.parts (p : Plan) (b : Bucket) (k : Nat) : Nat := if p.ksplit = 0 then 1 else (k + p.kb b k - 1) / p.kb b k

/-- R486: the byte of head `g` in a KV page, and the bytes of its K and V blocks. -/
def Plan.headBytes (p : Plan) : Nat := 2 * 32 * p.nFixed * p.a.bytes

/-- Bytes that an element-wise operand of PARAM_UPDATE covers. -/
def Cmd.updateBytes (c : Cmd) (p : Plan) : Nat := rowBytes c.len3 p.out

/-- Table 11-12: the units of a command by slice. -/
def State.split (s : State) (c : Cmd) (x : Ext) : Tab (List Nat) × State :=
  let p := s.planOf c
  let b := s.bucketOf c
  let frames (o len : Nat) : Tab (List Nat) × State :=
    State.assign (fun u s => s.refSlice c.vd ((c.ref o).add (s.frameOff (c.ref o) u)) x) (s.frameUnits (c.ref o) len) [] s
  match c.opcode with
  | 0x10 => frames 0x20 c.len3
  | 0x11 => frames 0x18 (c.f 0x20 8)
  | 0x12 => frames 0x18 c.len3
  | 0x14 => frames 0x20 c.len3
  | 0x31 => frames 0x18 (c.updateBytes p)
  | 0x40 => frames 0x18 (c.f 0x20 8 * (if c.opx / 4 = 1 then 2 else 4))
  | 0x30 =>
    let j := p.parts b c.mK
    State.assign (fun u s =>
      match s.refSlice c.vd ((c.ref 0x18).add (u / j * b.mb * rowBytes c.mK p.a)) x with
      | (n, s1) => (s1.liveSlice (n / 8 * 8 + ((n % 8) ^^^ (u % j))), s1)) (List.range ((c.mM + b.mb - 1) / b.mb * j)) [] s
  | 0x38 =>
    State.assign (fun u s => s.refSlice c.vd ((c.ref 0x28).add (u * b.mb * rowBytes p.nFixed p.out)) x)
      (List.range ((c.bags + b.mb - 1) / b.mb)) [] s
  | 0x3A =>
    State.assign (fun u s => s.refSlice c.vd (.va (c.kv.getD u 0 + c.head * p.headBytes)) x) (List.range c.kv.length) [] s
  | 0x39 => State.assign (fun _ s => s.refSlice c.vd (.va (c.kv.getLast?.getD 0)) x) [0] [] s
  | _ => State.assign (fun _ s => s.refSlice c.vd (c.ref 0x18) x) [0] [] s

/-! ### KV page lists (R282, R283) -/

/-- The entries of a list block that a walk takes: the page addresses, or none at a bad entry. -/
def kvEntries (bs : List Byte) : Nat → Nat → Option (List Nat)
  | 0, _ => some []
  | n + 1, i =>
    let e := leNat ((bs.drop (64 + 8 * i)).take 8)
    if bit e 0 && field e 1 5 == 0 && field e 42 22 == 0 then (kvEntries bs n (i + 1)).map (e / 64 * 64 :: ·) else none

/-- R283: the pages of the walk, or the fault that ended it. `fuel` is the blocks that may still be read. -/
def State.kvWalkF (v : Nat) (x : Ext) : Nat → Nat → Nat → State → (Except (Status × Nat) (List Nat)) × State
  | 0, _, _, s => (.error (.badList, 0), s)
  | fuel + 1, a, n, s =>
    match s.vdRead v a 4096 x with
    | (o, s1) =>
      match o.fault with
      | some f => (.error f, s1)
      | none =>
        let count := leNat (o.bytes.take 4)
        let rsvd := leNat ((o.bytes.drop 4).take 4)
        let next := leNat ((o.bytes.drop 8).take 8)
        let tail := leNat ((o.bytes.drop 16).take 48)
        if o.poison || decide (504 < count) || rsvd != 0 || tail != 0 then (.error (.badList, a), s1)
        else
          match kvEntries o.bytes (min count n) 0 with
          | none => (.error (.badList, a), s1)
          | some ps =>
            if n ≤ count then (.ok ps, s1)
            else if next = 0 ∨ next % 4096 ≠ 0 then (.error (.badList, a), s1)
            else
              match State.kvWalkF v x fuel next (n - count) s1 with
              | (.ok qs, s2) => (.ok (ps ++ qs), s2)
              | (.error f, s2) => (.error f, s2)

/-- R283: the 64 KiB pages that a range spans are translated. -/
def State.touchRange (v : Nat) (x : Ext) : List Nat → State → Option (Status × Nat) × State
  | [], s => (none, s)
  | a :: as, s =>
    match s.translate v a false x with
    | (.error st, s1) => (some (st, a), s1)
    | (.ok _, s1) => State.touchRange v x as s1

/-- The walk of a KV_APPEND or ATTN_DECODE, made when the command becomes READY, for R312 places its units then (DEDUCED, notes/assumptions/34.md). -/
def State.kvWalk (s : State) (c : Cmd) (x : Ext) : (Except (Status × Nat) (List Nat)) × State :=
  let p := s.planOf c
  let n := if c.opcode = 0x39 then c.pos % 2 ^ 24 / 32 + 1 else (c.tokens + 31) / 32
  let g := if c.opcode = 0x39 then c.pos / 2 ^ 24 else c.head
  match State.kvWalkF c.vd x 4096 (c.f 0x18 8) n s with
  | (.error f, s1) => (.error f, s1)
  | (.ok ps, s1) =>
    let touched := ps.flatMap fun a =>
      let lo := (a + g * p.headBytes) / 65536
      let hi := (a + (g + 1) * p.headBytes - 1) / 65536
      (List.range (hi - lo + 1)).map fun i => (lo + i) * 65536
    match State.touchRange c.vd x touched s1 with
    | (some f, s2) => (.error f, s2)
    | (none, s2) => (.ok ps, s2)

/-! ### Readiness (R307, R311) -/

/-- Opcodes of the engines (R308). -/
def engineOp (op : Nat) : Bool :=
  op == 1 || op == 2 || op == 3 || (decide (0x20 ≤ op) && decide (op ≤ 0x23)) || (decide (0x28 ≤ op) && decide (op ≤ 0x2F))
def hopperOp (op : Nat) : Bool := decide (0x20 ≤ op) && decide (op ≤ 0x23)

/-- Entries of the Hopper command queue that a VD holds (R250). -/
def State.useHopper (s : State) (v : Nat) : Nat :=
  (s.dax.cmds.filter fun e => decide (e.2.vd = v) && hopperOp e.2.opcode && decide (e.2.st ≠ .queued) && e.2.admitted).length

/-- R307, R311: nothing holds the command but its own resolution. -/
def State.readyNow (s : State) (q : Nat) (c : Cmd) : Bool :=
  decide (c.wait = .met) && !(s.earlier q c fun d => d.fences c)
    && !(c.order && s.earlier q c fun d => decide (d.stream = c.stream))
    && !(decide (c.opcode = 2) && s.earlier q c fun d => c.fences d)

/-- R296: an earlier command of the stream ended with a status other than OK. -/
def State.predFailed (s : State) (q : Nat) (c : Cmd) : Bool :=
  c.order && (match (s.vd c.vd).failedStreams.find c.stream with | some k => decide (k < q) | none => false)

/-- R397: the runs of a command whose plan names a timetable. -/
def State.runsOf (s : State) (q : Nat) (c : Cmd) (t : Tab (List Nat)) : List (Nat × FlumeRun) :=
  let p := s.planOf c
  let b := s.bucketOf c
  if c.opcode ≠ 0x30 ∨ p.flume = 0xFFFF then []
  else if p.ksplit = 0 then
    (List.range 8).filterMap fun d =>
      let here := t.filter fun e => decide (e.1 / 8 = d)
      let most := here.foldl (fun a e => max a e.2.length) 0
      match here.find? fun e => decide (e.2.length = most) with
      | some e => some (d, { cmd := q, vd := c.vd, reduce := false, slices := here.map (·.1), anchor := e.1 % 8 })
      | none => none
  else
    let j := p.parts b c.mK
    let rows := sortBy (fun a b => decide (a ≤ b)) (((t.flatMap fun e => e.2).map fun u => u / j).eraseDups)
    let cbs := List.range ((c.mN + b.nb - 1) / b.nb)
    let all := if bit b.order 4 then cbs.flatMap fun k => rows.map fun r => (r, k) else rows.flatMap fun r => cbs.map fun k => (r, k)
    all.filterMap fun (r, k) =>
      match t.find? fun e => e.2.contains (r * j) with
      | some a =>
        let on := (t.filter fun e => e.2.any fun u => decide (u / j = r)).map (·.1)
        some (a.1 / 8, { cmd := q, vd := c.vd, reduce := true, row := r, cb := k, slices := on, anchor := a.1 % 8 })
      | none => none

/-- A die's Flume loses its run and those that wait; the run has ended early (R401, R409). -/
def Flume.cut (f : Flume) : Flume := { f with run := none, waiting := [], arb := {}, ended := if f.run.isSome then f.ended + 1 else f.ended }

/-- A waiting run joins its die's list (R398). -/
def State.queueRun (s : State) (r : Nat × FlumeRun) : State :=
  let f := s.flume.getD r.1 {}
  { s with flume := s.flume.setD r.1 {} { f with waiting := f.waiting ++ [r.2] } }

/-- What COMPARE holds while no difference and no poison is found: twice an offset, less 1 where poison is what was found
there (R481). -/
def compareNone : Nat := 2 * (2 ^ 64 - 1) + 1

/-- A slice command becomes READY: its tasks are formed and the first takes the command's slot (R312). -/
def State.readySplit (s : State) (q : Nat) (c : Cmd) (x : Ext) : State :=
  match s.split c x with
  | (t, s1) =>
    let rs := s1.dax.readySeq
    let c1 : Cmd := { c with st := .ready, readySeq := rs,
                             tasks := (t.take 1).map fun e => { slice := e.1, units := e.2, readySeq := rs, readyAt := s.now },
                             uncreated := t.drop 1,
                             result := if c.opcode = 0x12 then compareNone else 0,
                             engineFin := if t.isEmpty then some {} else none }
    let s2 := s1.setCmd q c1
    let s3 := { s2 with dax := { s2.dax with readySeq := rs + 1 } }
    (s3.runsOf q c1 t).foldl State.queueRun s3

/-- R307, R370, R283: a slice command resolves, or faults. -/
def State.readySlice (s : State) (q : Nat) (c : Cmd) (x : Ext) : State :=
  let fault (s : State) (f : Status × Nat) : State := s.setCmd q { c with engineFin := some { term := .faulted, status := f.1, addr := f.2 } }
  match s.handleFault c with
  | some f => fault (s.countHandle c.vd f) f
  | none =>
    let p := s.planOf c
    let d := c.dims p
    match (if planOp c.opcode then p.bucketFor d.1 d.2.1 d.2.2 else some 0) with
    | none => fault s (.noBucket, 0)
    | some b =>
      let c1 := { c with bucket := b }
      if c.opcode = 0x39 ∨ c.opcode = 0x3A then
        match s.kvWalk c1 x with
        | (.error f, s1) => fault s1 f
        | (.ok ps, s1) => s1.readySplit q { c1 with kv := ps } x
      else s.readySplit q c1 x

/-- An engine command becomes READY; a Hopper command takes an entry of its queue or waits for one (R250). -/
def State.readyEngine (s : State) (q : Nat) (c : Cmd) : State :=
  let ok := !hopperOp c.opcode || s.mayEnter .hopperCmds s.useHopper ((s.queue .hopperCmds).waiting.map QWait.vd) c.vd
  let s1 := s.setCmd q { c with st := .ready, readySeq := s.dax.readySeq, admitted := ok }
  let s2 := { s1 with dax := { s1.dax with readySeq := s1.dax.readySeq + 1 } }
  if ok then s2 else s2.waitShared .hopperCmds c.vd q

/-- One command's move from QUEUED (Table 11-10). -/
def State.ready (s : State) (q : Nat) (c : Cmd) (x : Ext) : State :=
  if s.predFailed q c then s.endEarly q .cancelled .predFailed
  else if c.wait = .abandoned then s.endEarly q .cancelled .abandoned
  else if s.readyNow q c then (if engineOp c.opcode then s.readyEngine q c else s.readySlice q c x)
  else s

def execCommandReady (cmd : Nat) (x : Ext) (s : State) : Res :=
  match s.cmd? cmd with
  | some c => if c.queued && c.decoded && s.current c then .next (s.orWait x.pick fun s => s.ready cmd c x) else .next s
  | none => .next s

/-! ### Tasks (R312, R313) -/

/-- R312: the command whose uncreated tasks come first in its VD. -/
def State.createFirst (s : State) (q : Nat) (c : Cmd) : Bool :=
  !s.dax.cmds.any fun e => decide (e.2.vd = c.vd) && !e.2.uncreated.isEmpty && decide (e.1 ≠ q) && decide (e.2.readySeq < c.readySeq)

/-- The command holds a slot for no task that it has: its next task takes it (R312). -/
def Cmd.ownSlot (c : Cmd) : Bool := c.tasks.isEmpty

/-- A further task is created and READY, in a slot of its own or in the command's; where the command's task on a slice goes on, it takes
up the units (R312: at most one for each slice). -/
def State.createTask (s : State) (q : Nat) (c : Cmd) : State :=
  match c.uncreated with
  | [] => s
  | u :: us =>
    let n := s.liveSlice u.1
    let s1 := if us.isEmpty then s.unwait .tasks (16 + q) else s
    if c.tasks.any fun t => decide (t.slice = n) && t.fin.isNone then
      s1.setCmd q { c with tasks := c.tasks.map fun t => if t.slice = n ∧ t.fin.isNone then { t with units := t.units ++ u.2 } else t, uncreated := us }
    else
      let t : Task := { slice := n, units := u.2, readySeq := s.dax.readySeq, readyAt := s.now }
      let s2 := s1.setCmd q { c with tasks := c.tasks ++ [t], uncreated := us }
      let s3 := { s2 with dax := { s2.dax with readySeq := s2.dax.readySeq + 1 } }
      if c.ownSlot then s3 else s3.modVd c.vd fun x => { x with useTask := x.useTask + 1 }

/-- TASK_CREATE (R312): a command without a task uses the slot that it holds. -/
def execTaskCreate (cmd : Nat) (s : State) : Res :=
  match s.cmd? cmd with
  | some c =>
    if !s.current c || c.uncreated.isEmpty then .next s
    else if c.ownSlot then .next (s.createTask cmd c)
    else if s.createFirst cmd c && decide (s.useTask c.vd < s.quotaTask c.vd) then
      if s.slotNow c.vd then .next (s.createTask cmd c) else .next (s.waitShared .tasks c.vd (16 + cmd))
    else .next s
  | none => .next s

/-- The tasks of a slice in a state that have not ended: their commands and themselves. -/
def State.tasksAt (s : State) (n : Nat) (st : TaskSt) : List (Nat × Task) :=
  (s.dax.cmds.filter fun e => s.current e.2 || decide (st = .running)).flatMap fun e => (e.2.tasks.filter fun t => decide (t.slice = n) && decide (t.st = st) && (t.fin.isNone || decide (st = .running))).map fun t => (e.1, t)

/-- R392, R398: the slices of a run's tasks: the tasks of a retired slice are its buddy's. -/
def State.runSlices (s : State) (g : FlumeRun) : List Nat := (g.slices.map s.liveSlice).eraseDups

/-- R398: a task of a run is staged only while its run holds the die's Flume. -/
def State.runHeld (s : State) (q n : Nat) : Bool :=
  match (s.flume.getD (n / 8) {}).run with
  | some r => decide (r.cmd = q) && (s.runSlices r).contains n
  | none => false

/-- The command's tasks run only in runs of a Flume. -/
def State.needsRun (s : State) (q : Nat) : Bool :=
  match s.cmd? q with
  | some c => decide (c.opcode = 0x30) && decide ((s.planOf c).flume ≠ 0xFFFF)
  | none => false

/-- R313, R165, R398: the READY task that a slice stages next, and the arbiter after the choice. -/
def State.stageChoice (s : State) (n pick : Nat) : Option (Nat × Arb) :=
  let ts := (s.tasksAt n .ready).filter fun e => !s.needsRun e.1 || s.runHeld e.1 n
  match ts.find? fun e => s.runHeld e.1 n with
  | some e => some (e.1, s.dax.arb.getD n {})
  | none =>
    let old := sortBy (fun a b => decide (a.2.readySeq ≤ b.2.readySeq)) ts
    let vds := old.filterMap fun e => (s.cmd? e.1).map (·.vd)
    match (s.dax.arb.getD n {}).choose (vds.map s.ask) pick with
    | some (i, a) => (old[i]?).map fun e => (e.1, a)
    | none => none

/-- R313: a slice with no staged task stages one. -/
def State.stage (s : State) (n pick : Nat) : State :=
  if !(s.tasksAt n .staged).isEmpty then s
  else
    match s.stageChoice n pick with
    | none => s
    | some (q, a) =>
      let s1 := { s with dax := { s.dax with arb := s.dax.arb.setD n {} a } }
      s1.modTask q n fun t => { t with st := .staged }

/-- R357: the spill interval of a launch. -/
def State.spillInterval (s : State) (n : Nat) (c : Cmd) : Nat × State :=
  let p := s.planOf c
  let key := c.planNo * 64 + n
  let l := (s.spill.find key).getD { k := p.spillK }
  let l1 : SpillLoop :=
    if l.retried then { k := max 5 (l.k - 1) }
    else if 64 ≤ l.quiet then { k := min p.spillK (l.k + 1) } else l
  let cap := Nat.log2 s.pol.spillMaxK
  let s1 := { s with spill := s.spill.put key l1 }
  if cap < l1.k then (cap, { s1 with slu := { s1.slu with loopTug := countAt s1.slu.loopTug 3 } }) else (l1.k, s1)

/-- R259: the references of a task's handles. -/
def State.holdHandles (s : State) (hs : List Nat) : State :=
  hs.foldl (fun s h => s.setHrec (handleKey h) { s.hrec (handleKey h) with refs := (s.hrec (handleKey h)).refs + 1 }) s

/-- R378: the lines of the first-level cache that a task's plan leaves it. A task without a plan has no division, and its reads go to their
homes (notes/assumptions/54.md). -/
def State.l1Lines (s : State) (c : Cmd) : Nat := if planOp c.opcode then (8 - (s.planOf c).scratch) * 512 else 0

/-- R239, R259, R313, R357, R378: a staged task starts; a gated Runner wakes with it (R73). -/
def State.launch (s : State) (q n : Nat) (c : Cmd) : State :=
  match s.handleFault c with
  | some f =>
    (s.countHandle c.vd f).modTask q n fun t => { t with st := .running, fin := some { term := .faulted, status := f.1, addr := f.2 } }
  | none =>
    if c.handles.any fun h => decide (65535 ≤ (s.hrec (handleKey h)).refs) then s
    else
      let s0 := { s with power := { s.power with runners := s.power.runners.erase n } }
      let s1 := ({ s0 with ends := s0.ends.filter fun e => decide (e.who.slice ≠ some n) }.holdHandles c.handles).modSlice n fun x => { x with l1 := [], l1Cap := s.l1Lines c, ro := {} }
      let (k, s2) := if planOp c.opcode then s1.spillInterval n c else (5, s1)
      let s3 := (c.tasks.filter fun t => decide (t.slice = n) && decide (t.st = .staged)).foldl (fun s t => s.gaugeEvent 0x04 n (some c.vd) (s.now - t.readyAt)) s2
      (s3.modTask q n fun t => { t with st := .running, held := c.handles, interval := k }).modCmd q fun c => { c with st := .running }

/-- A slice that takes tasks. -/
def State.sliceUp (s : State) (n : Nat) : Bool := decide (s.boot.warm = 0) && !(s.slice n).stopped && !(s.slice n).retired && !s.asleep n

/-- TASK_LAUNCH: the slice stages a task if it has none staged, and starts the staged task if it runs none (R313). -/
def execTaskLaunch (slice pick : Nat) (s : State) : Res :=
  if !s.sliceUp slice then .next s
  else
    let s1 := s.stage slice pick
    if !(s1.tasksAt slice .running).isEmpty then .next s1
    else
      match s1.tasksAt slice .staged with
      | (q, _) :: _ => (match s1.cmd? q with | some c => .next (s1.launch q slice c) | none => .next s1)
      | [] => .next s1

/-! ### NOP, FENCE (R297, R311), RING_MSIX_DEFER (R304) -/

def execNop (cmd : Nat) (s : State) : Res :=
  match s.engineCmd cmd 1 with
  | some _ => .next (s.engineDone cmd .ok)
  | none => .next s

def execFence (cmd : Nat) (s : State) : Res :=
  match s.engineCmd cmd 2 with
  | some _ => .next (s.engineDone cmd .ok)
  | none => .next s

/-- The end of a ring's microsecond: a held message is sent if records are unread. -/
def execRingMsixDefer (vd ring : Nat) (s : State) : Res :=
  let r := s.ring vd ring
  if r.msixHeld && decide (r.cqHead ≠ r.cqTail) then
    .next ((s.send (.msix vd r.vector)).modRing vd ring fun r => { r with msixBusy := true, msixHeld := false })
  else .next (s.modRing vd ring fun r => { r with msixBusy := false, msixHeld := false })

def execCompletionWriteFail (vd ring : Nat) (x : Ext) (s : State) : Res :=
  let r := s.ring vd ring
  match r.cqLost with
  | some a => .next ((s.modRing vd ring fun r => { r with cqLost := none }).cqFaulted vd ring .poisoned a x)
  | none => if 0 < r.reserved then .next (s.cqFaulted vd ring .poisoned r.cqAddr x) else .next s

end Sys2Proof.Machine
end

