-- ==== Sys2Proof/Machine/Task.lean ====
section
/-! DEFINITION. What a running task does: access to its operands by reference (R298, R238, R380, R389), reductions and atomics at
their homes (R208-R213), and the progress of a task over its units (R310). -/
namespace Sys2Proof.Machine

/-! ### Bytes of an operand -/

/-- The place of a block's byte in its pool. -/
def State.blkOff (s : State) (h o : Nat) : Nat := (s.hrec (handleKey h)).base * 64 + o
/-- R259: the size of a block is its class size. -/
def State.blkSize (s : State) (h : Nat) : Nat := s.classSize (handlePool h) (s.hrec (handleKey h)).cls
/-- R389: RESULT of a BOUNDS fault: the byte offset, with bit 63 set. -/
def boundsAddr (o : Nat) : Nat := 2 ^ 63 + o % 2 ^ 42

/-- Where a reference falls in its 128-byte line. -/
def State.refMod (s : State) (r : OpRef) : Nat :=
  match r with
  | .va a => a % 128
  | .blk h o => s.blkOff h o % 128

/-- The key of a line in a first-level cache: its global line, or a pinned bay's line above 2^60. -/
def State.l1Key (s : State) (h o : Nat) : Nat :=
  let b := s.poolByte (handlePool h) (s.blkOff h o)
  if (s.hpool (handlePool h)).kind = 1 then 2 ^ 60 + b / 128 else s.ownLine (b / 128)

/-- What an access of a task uses: its slice, and whether it goes through the first-level cache (R380) or the constants cache (R381). -/
structure Port where
  slice : Nat
  l1 : Bool := false
  consts : Bool := false
  deriving DecidableEq, Repr

/-- A line read through a cache of the Runner that is never snooped (R238, R240, R381): a copy that is present is used, unless the step
says (bit 40 of its choice) that it was replaced. -/
def State.cachedRead (s : State) (t : Port) (key : Nat) (sec : Sectors) (x : Ext) (fetch : State → LineOut × State) : LineOut × State :=
  let y := s.slice t.slice
  let copy := (if bit x.pick 40 then none else if t.consts then y.ro.aux.find key else y.l1.find key).filter fun d => decide (sec &&& ~~~ d.v = 0)
  match copy with
  | some d => ({ data := d.data, p := d.p }, s)
  | none =>
    match fetch s with
    | (z, s1) =>
      let v := sec &&& ~~~ z.p
      (z, if z.fault.isSome then s1
        else if t.consts then s1.modSlice t.slice fun y => { y with ro := { y.ro with aux := cacheTake y.ro.aux (128 - y.ro.consts.length) (x.pick / 2 ^ 41) key v z.data } }
        else s1.l1Take t.slice key v z.data (x.pick / 2 ^ 41))

/-- Read within one line through an operand reference. -/
def State.opChunk (s : State) (v : Nat) (t : Port) (r : OpRef) (n : Nat) (x : Ext) : RdOut × State :=
  let w (a : Nat) : Who := { vd := v, va := a, slice := some t.slice }
  match r with
  | .va a =>
    match s.translate v a false { x with via := 8 + t.slice } with
    | (.error st, s1) => ({ poison := true, fault := some (st, a) }, s1)
    | (.ok ga, s1) =>
      let sec := sectorsAt (ga % 128) n
      let f (s : State) : LineOut × State := s.lineRead (ga / 128) sec (w a) x.pick
      match (if t.l1 || t.consts then s1.cachedRead t (ga / 128) sec x f else f s1) with
      | (y, s2) => (y.chunk a (ga % 128) n, s2)
  | .blk h o =>
    if s.blkSize h < o + n then ({ poison := true, fault := some (.bounds, boundsAddr o) }, s)
    else
      let b := s.blkOff h o
      let sec := sectorsAt (b % 128) n
      let f (s : State) : LineOut × State := s.poolLine (handlePool h) b sec (w (boundsAddr o)) x.pick
      match (if t.l1 || t.consts then s.cachedRead t (s.l1Key h o) sec x f else f s) with
      | (y, s2) => (y.chunk (boundsAddr o) (b % 128) n, s2)

/-- Read a range through an operand reference, stopping at the first fault. -/
def State.opReadF (v : Nat) (t : Port) (x : Ext) : Nat → OpRef → Nat → State → RdOut × State
  | 0, _, _, s => ({}, s)
  | k + 1, r, n, s =>
    if n = 0 then ({}, s)
    else
      let c := min n (128 - s.refMod r)
      match s.opChunk v t r c x with
      | (o, s1) =>
        if o.fault.isSome then (o, s1)
        else
          match State.opReadF v t x k (r.add c) (n - c) s1 with
          | (o2, s2) => ({ bytes := o.bytes ++ o2.bytes, poison := o.poison || o2.poison, fault := o2.fault }, s2)

def State.opRead (s : State) (v : Nat) (t : Port) (r : OpRef) (n : Nat) (x : Ext) : RdOut × State :=
  State.opReadF v t x (n / 128 + 2) r n s

/-- Bytes to be written, each with its poison; a sector is poisoned when any byte written to it is (R386). -/
abbrev PBytes := List (Byte × Bool)

def pbytes (bs : List Byte) (p : Bool) : PBytes := bs.map fun b => (b, p)

/-- The sectors that bytes written from offset `o` of a line poison. -/
def poisonOf (bs : PBytes) (o : Nat) : Sectors :=
  BitVec.ofNat 4 (packBits 4 fun k => (List.range bs.length).any fun i => (o + i) / 32 == k && (bs.getD i (0, false)).2)

/-- Write within one line through an operand reference. -/
def State.opPut (s : State) (w : Who) (t : Port) (r : OpRef) (bs : PBytes) (x : Ext) : Option (Status × Nat) × State :=
  let n := bs.length
  let line (o : Nat) : BitVec 128 × Line := (BitVec.ofNat 128 ((2 ^ n - 1) * 2 ^ o), BitVec.ofNat 1024 (leNat (bs.map (·.1)) * 2 ^ (8 * o)))
  match r with
  | .va a =>
    match s.translate w.vd a true { x with via := 8 + t.slice } with
    | (.error st, s1) => (some (st, a), s1)
    | (.ok ga, s1) =>
      let (m, d) := line (ga % 128)
      match s1.lineWrite (ga / 128) m d (poisonOf bs (ga % 128)) { w with va := a, slice := some t.slice } x.pick with
      | (none, s2) => (none, s2.l1Store t.slice (ga / 128) m d (poisonOf bs (ga % 128)))
      | (some st, s2) => (some (st, a), s2)
  | .blk h o =>
    if s.blkSize h < o + n then (some (.bounds, boundsAddr o), s)
    else
      let b := s.blkOff h o
      let (m, d) := line (b % 128)
      (none, (s.poolWrite (handlePool h) b m d (poisonOf bs (b % 128)) { w with va := boundsAddr o, slice := some t.slice } x.pick).l1Store t.slice (s.l1Key h o) m d (poisonOf bs (b % 128)))

def State.opWriteF (w : Who) (t : Port) (x : Ext) : Nat → OpRef → PBytes → State → Option (Status × Nat) × State
  | 0, _, _, s => (none, s)
  | k + 1, r, bs, s =>
    match bs with
    | [] => (none, s)
    | _ =>
      let c := min bs.length (128 - s.refMod r)
      match s.opPut w t r (bs.take c) x with
      | (some f, s1) => (some f, s1)
      | (none, s1) => State.opWriteF w t x k (r.add c) (bs.drop c) s1

/-- Write a range through an operand reference, stopping at the first fault; what is written stays. -/
def State.opWrite (s : State) (w : Who) (t : Port) (r : OpRef) (bs : PBytes) (x : Ext) : Option (Status × Nat) × State :=
  State.opWriteF w t x (bs.length / 128 + 2) r bs s

/-! ### Reductions and atomics at their homes -/

/-- The mask of all elements of a line. -/
def allElems (fmt : Nat) : BitVec 64 := BitVec.ofNat 64 (2 ^ (128 / redSize fmt) - 1)

/-- R206-R210: one add-to-line of a task, a request of its own at the line's home. The fault that stops it, if any. -/
def State.lineRed (s : State) (gl fmt : Nat) (d : Line) (p : Sectors) (w : Who) (pick : Nat) (em : BitVec 64 := allElems fmt) : Option Status × State :=
  let r : Req := { op := .red, vd := w.vd, line := gl, bytes := sectorBytes 15, data := d, pois := p, fmt := fmt, emask := em, who := some w }
  if lineDev gl ≠ s.pool.devnum then
    if s.gone (lineDev gl) then (some .deviceGone, s.goneRecord w.vd gl) else (none, s.rowReq r pick)
  else if s.lostHome gl then (some .retired, s)
  else (none, s.rowReq r pick)

/-- An add-to-line of a task in a Hopper block: at the bay that holds it, or at its home (R187, R193). -/
def State.poolRed (s : State) (p o fmt : Nat) (d : Line) (po : Sectors) (w : Who) (pick : Nat) (em : BitVec 64 := allElems fmt) : Option Status × State :=
  let a := s.poolByte p o / 128 * 128
  if s.blockAsleep p o 1 then (none, s.stalled .hold)
  else if (s.hpool p).kind = 1 then
    let bad := poisonAt s.bayPoison a ||| po
    let (new, nan, sat) := redLine fmt em bad (readLine s.bays a) d
    let s1 := (s.bayMerge a (redBytes fmt em &&& sectorBytes (~~~ bad)) new 0).bayMerge a (sectorBytes po) 0 po
    (none, (s1.countNan (s.poolSlice p o) nan).countSat (s.poolSlice p o) sat)
  else s.lineRed (s.ownLine (a / 128)) fmt d po w pick em

/-- The atomic of a command on a line, a request of its own at the line's home; its answer stands in the command (R211-R213). -/
def State.lineAtom (s : State) (gl off : Nat) (c : Cmd) (w : Who) (pick : Nat) : State :=
  let r : Req := { op := .atomic, vd := w.vd, line := gl, off := off, width := c.width, atop := c.atop, opA := c.f 0x20 16, opB := c.f 0x30 16,
                   tag := (w.cmd.getD 0) % 65536, who := some w }
  if lineDev gl ≠ s.pool.devnum ∧ s.gone (lineDev gl) then (s.goneRecord w.vd gl).whoFailed w .deviceGone
  else if s.lostHome gl then s.whoFailed w .retired
  else s.rowReq r pick

/-- The lines that requests of a command are still to change at the slices of this device. -/
def State.writing (s : State) (q : Nat) : List Nat :=
  let mine (r : Req) : Option Nat := if r.op.changes ∧ r.who.bind Who.cmd = some q then some r.line else none
  s.slices.flatMap fun e => e.2.inq.filterMap mine ++ e.2.miss.flatMap fun m => (m.2.req.toList ++ m.2.waiters).filterMap mine

/-- A row goes on once every change that a command makes at this device has been performed. -/
def State.finishWrites (s : State) (q vd : Nat) : State := (s.writing q).foldl (fun s gl => s.stalled (.take gl vd)) s

/-- No write, reduction or atomic of a command is on its way (R239): at the slices of this device, or to a peer. -/
def State.released (s : State) (q : Nat) : Bool :=
  (s.writing q).isEmpty && !(s.pool.remote.any fun r => decide (r.who.cmd = some q)) && !(s.pool.remWait.any fun r => decide (r.1.who.cmd = some q))
    && !(s.pool.depWait.any fun r => decide (r.1.cmd = some q))

/-! ### Progress of a task -/

/-- The task of a command on a slice that runs and has not ended. -/
def Cmd.runningOn (c : Cmd) (n : Nat) : Option Task := c.tasks.find? fun t => decide (t.slice = n) && decide (t.st = .running) && t.fin.isNone

/-- R315: a posted write or reduction of the task still waits for an entry. -/
def State.issueHeld (s : State) (q n : Nat) : Bool :=
  (s.pool.remWait.any fun r => r.1.posted && decide (r.1.who.cmd = some q) && decide (r.1.who.slice = some n))
    || s.pool.depWait.any fun r => decide (r.1.cmd = some q) && decide (r.1.slice = some n)

/-- The task of a command that runs on a slice and may go on: at the bound of Table 11-13 on remote operations the issuing task waits. -/
def State.taskOn (s : State) (q : Nat) (c : Cmd) (n : Nat) : Option Task := if s.issueHeld q n then none else c.runningOn n

/-- Lines that a read-only cache of `cap` lines lacks join it; the oldest make room (R381). -/
def roTake (cap : Nat) (have_ new : List RoItem) : List RoItem :=
  let all := have_ ++ new.filter fun i => !have_.contains i
  all.drop (all.length - cap)

/-- R381, Table 14-6: the lines of the descriptor and instruction caches that a step of a task reads: its command's descriptor, the header and
the bucket of its plan, the record and the steps of a service. -/
def State.readDescs (s : State) (q n : Nat) (c : Cmd) : State :=
  let ds := RoItem.desc q :: (if planOp c.opcode then [.plan c.planNo 0, .plan c.planNo ((c.bucket + 1) / 2)] else []).eraseDups
    ++ if c.svc then [.record c.opcode] else []
  s.modSlice n fun y => { y with ro := { y.ro with descs := roTake 64 y.ro.descs ds, instrs := if c.svc then roTake 128 y.ro.instrs [.steps c.opcode] else y.ro.instrs } }

/-- One step of a task of an opcode: a cancellation takes effect here, at a boundary (R310); else the step runs. -/
def State.taskStep (s : State) (q n op : Nat) (f : Cmd → Task → State) : State :=
  match s.cmd? q with
  | none => s
  | some c =>
    match s.taskOn q c n with
    | none => s
    | some t =>
      if c.opcode ≠ op then s
      else if t.cancel then s.modTask q n fun t => { t with fin := some { term := .cancelled, status := .cancelled } }
      else (f c t).readDescs q n c

/-- The task ends (Table 11-10). -/
def State.taskFault (s : State) (q n : Nat) (f : Status × Nat) : State :=
  s.modTask q n fun t => { t with fin := some { term := .faulted, status := f.1, addr := f.2 } }

def Task.ended (t : Task) : Task := { t with fin := some { status := if t.poison then .poisoned else .ok } }

/-- A step of `n` bytes (or items) of the first unit is done; a unit of `total` of them ends, and the task with its last. -/
def Task.advance (t : Task) (n total : Nat) (poison : Bool) (count : Nat) : Task :=
  let t1 := { t with done := t.done + count, poison := t.poison || poison }
  if t.pos + n < total then { t1 with pos := t.pos + n }
  else
    let t2 := { t1 with pos := 0, units := t.units.drop 1 }
    if t2.units.isEmpty then t2.ended else t2

/-- The whole task is done. -/
def Task.finish (t : Task) (poison : Bool) (count : Nat) : Task :=
  { t with done := t.done + count, poison := t.poison || poison, units := [], pos := 0 }.ended

end Sys2Proof.Machine
end

