-- ==== Sys2Proof/Machine/Drain.lean ====
section
/-! DEFINITION. Elements of the Runner: rows of elements in memory (R338, R339), load conversion (R346), the element-wise unit's
widening (R363), function tables (R385) and the drain chain (R382, R383). -/
namespace Sys2Proof.Machine

/-! ### Rows of elements -/

/-- A row of elements as it lies in memory or scratchpad: its bytes, whether a sector read for it was poisoned, and the fault
that its use meets (R389). -/
abbrev ElemRow := RdOut

/-- Byte offset of element `k` of a packed row (`k` a multiple of 16 for LZB8, R339). -/
def elemOff (f : NumFmt) (k : Nat) : Nat := match f with | .lzb8 => k / 16 * 17 | f => k * f.bytes

/-- Element `i` of a row's bytes, exactly. -/
def elemVal (f : NumFmt) (bs : List Byte) (i : Nat) : FVal :=
  match f with
  | .lzb8 => (Lzb.ofBytes ((bs.drop (i / 16 * 17)).take 17)).val (i % 16)
  | f => decodeNum f (leNat ((bs.drop (i * f.bytes)).take f.bytes))

/-- The significand of element `i` and the exponent of its block: what integer accumulation uses (R349). -/
def elemInt (f : NumFmt) (scale : Int) (bs : List Byte) (i : Nat) : Int × Int :=
  match f with
  | .lzb8 => let b := Lzb.ofBytes ((bs.drop (i / 16 * 17)).take 17); (b.s.getD (i % 16) 0, b.e)
  | f => (toSigned (8 * f.bytes) (leNat ((bs.drop (i * f.bytes)).take f.bytes)), scale)

/-- R363: an input of the element-wise unit as FP32 or INT32, with whether LZB8 expansion left the FP32 range. -/
def widen (f : NumFmt) (v : FVal) : FVal × Bool :=
  match f with
  | .lzb8 => let c := encodeFp .fp32 .rne v; (decodeFp .fp32 c.bits, c.sat)
  | _ => (v, false)

def f32 (v : FVal) : FVal := roundFp .fp32 v
def f32Add (a b : FVal) : FVal := f32 (a.add b)
def f32Mul (a b : FVal) : FVal := f32 (a.mul b)
def f32Div (a b : FVal) : FVal := f32 (divVal .fp32 a b)

/-- The larger of two values; a NaN in either gives a NaN, and +0 is greater than -0 (R483, R490). -/
def maxVal (a b : FVal) : FVal :=
  match a, b with
  | .nan, _ => .nan
  | _, .nan => .nan
  | .fin sa ma ea, .fin sb mb eb =>
    if ma = 0 ∧ mb = 0 then (if sa then .fin sb mb eb else .fin sa ma ea)
    else if (FVal.lt? (.fin sa ma ea) (.fin sb mb eb)) = some true then .fin sb mb eb else .fin sa ma ea
  | x, y => if FVal.lt? x y = some true then y else x

/-! ### Conversion of runs of elements -/

/-- R341: the mode of the plan's rounding stage for an element. -/
def Plan.mode (p : Plan) (row col : Nat) : Rounding :=
  match p.round with | 1 => .rtz | 2 => .sr (srValue p.seed row col) | _ => .rne

/-- The bytes of a run of elements, and the counts of R342 and R343. -/
structure Encoded where
  bytes : List Byte
  sat : Nat := 0
  nan : Nat := 0
  deriving DecidableEq, Repr

/-- R342, R343: a run of values in a format; `mode` gives the rounding of element `i` of the run. -/
def encodeRun (f : NumFmt) (mode : Nat → Rounding) (vs : List FVal) : Encoded :=
  match f with
  | .lzb8 =>
    (List.range ((vs.length + 15) / 16)).foldl (fun (e : Encoded) b =>
      let (l, sa, na) := lzbEncode (fun i => mode (16 * b + i)) ((vs.drop (16 * b)).take 16)
      { bytes := e.bytes ++ l.bytes, sat := e.sat + sa, nan := e.nan + na }) { bytes := [] }
  | f =>
    (List.range vs.length).foldl (fun (e : Encoded) i =>
      let c := encodeNum f (mode i) (vs.getD i .zero)
      { bytes := e.bytes ++ leBytes f.bytes c.bits, sat := e.sat + b2n c.sat, nan := e.nan + b2n c.nan }) { bytes := [] }

/-- The bytes of a run with the poison of its elements: an LZB8 block is poisoned with any of its elements. -/
def poisonRun (f : NumFmt) (bs : List Byte) (ps : Nat → Bool) : PBytes :=
  (List.range bs.length).map fun i =>
    (bs.getD i 0, match f with
      | .lzb8 => (List.range 16).any fun j => ps (i / 17 * 16 + j)
      | f => ps (i / f.bytes))

/-- R346, R347, R376: a row of X as the multiplier takes it, with the counts of its conversion: `n` elements and, at the end of K, `pad`
padding elements that are converted with them. -/
def Plan.loadX (p : Plan) (bs : List Byte) (n pad : Nat) : Encoded :=
  if p.xConv = 0 then { bytes := bs }
  else
    let z := if p.padXOn then elemVal p.x (leBytes 4 p.padX) 0 else .zero
    encodeRun p.xc (fun _ => .rne) (((List.range n).map fun i => elemVal p.x bs i) ++ List.replicate pad z)

/-- R347: the elements that complete the last group of `k` elements. -/
def padOf (d k : Nat) : Nat := (k + d - 1) / d * d - k

/-- The counters of a conversion (R342). -/
def State.countCvt (s : State) (n sat nan : Nat) : State :=
  s.modSlice n fun y => { y with runCvtSat := y.runCvtSat + BitVec.ofNat 32 sat, runNan := y.runNan + BitVec.ofNat 32 nan }

/-! ### Function tables (R385) -/

/-- The floor of a finite value. -/
def floorVal (neg : Bool) (m : Nat) (e : Int) : Int :=
  if 0 ≤ e then scaleTo neg m e 0
  else
    let k := (2 ^ (-e).toNat : Nat)
    let x : Int := if neg then -(m : Int) else m
    x / (k : Int)

/-- R385: the segment of an input that is not a NaN. -/
def FuncTable.seg (t : FuncTable) (x : FVal) : Nat :=
  match f32Mul (f32Add x (decodeFp .fp32 t.lo).neg) (decodeFp .fp32 t.rscale) with
  | .nan => 0
  | .inf neg => if neg then 0 else t.segs.length - 1
  | .fin neg m e => (clampInt 0 ((t.segs.length : Int) - 1) (floorVal neg m e)).toNat

/-- R385. -/
def FuncTable.eval (t : FuncTable) (x : FVal) : FVal :=
  match x with
  | .nan => .nan
  | x =>
    let (sl, ic) := t.segs.getD (t.seg x) (0, 0)
    if sl % 2 ^ 31 = 0 then decodeFp .fp32 ic
    else f32Add (f32Mul (decodeFp .fp32 sl) x) (decodeFp .fp32 ic)

/-! ### The drain chain (Table 14-7) -/

/-- Any of stages 1 to 4 is enabled. -/
def Plan.fused (p : Plan) : Bool := p.scaleOn || p.biasOn || p.actOn || p.resOn

/-- What stages 1, 2 and 4 add for one element: the scale, the bias and the residual. -/
structure Fused where
  scale : FVal := .zero
  bias : FVal := .zero
  res : FVal := .zero
  deriving DecidableEq, Repr

/-- Stages 1 and 2 on one value (R382, R383): what enters stage 3. -/
def Plan.actIn (p : Plan) (g : Fused) (v : FVal) : FVal :=
  let v0 := f32 v
  let v1 := if p.scaleOn then f32Mul v0 g.scale else v0
  if p.biasOn then f32Add v1 g.bias else v1

/-- Stages 1 to 4 on one value (R382, R383). -/
def State.stages (s : State) (p : Plan) (g : Fused) (v : FVal) : FVal :=
  if !p.fused then v
  else
    let v2 := p.actIn g v
    let v3 := if p.actOn then (match s.img.funcs.find p.func with | some t => t.eval v2 | none => v2) else v2
    if p.resOn then f32Add v3 g.res else v3

/-- R342, R383: values whose rounding to FP32 ahead of stage 1 left its range. -/
def Plan.roundSat (p : Plan) (vs : List FVal) : Nat := if p.fused then (vs.filter fun v => (encodeFp .fp32 .rne v).sat).length else 0

/-- Table 14-6: the lines of the constants cache that a drain reads: SCALE_C, BIAS_C and the padding values, and of the function table the
first line and those of the segments that its inputs fall in (R385). -/
def State.useConsts (s : State) (n plan : Nat) (p : Plan) (ins : List FVal) : State :=
  let chain := if (p.scaleOn && !p.scaleSrc) || (p.biasOn && !p.biasSrc) || p.padAOn || p.padXOn then [RoItem.chain plan] else []
  let funcs := match (if p.actOn then s.img.funcs.find p.func else none) with
    | some t => ins.flatMap fun v => if v.isNan then [] else [RoItem.func p.func 0, .func p.func ((16 + 8 * t.seg v) / 128)]
    | none => []
  s.modSlice n fun y =>
    let cs := roTake 128 y.ro.consts (chain ++ funcs).eraseDups
    { y with ro := { y.ro with consts := cs, aux := y.ro.aux.take (128 - cs.length) } }

/-- The constants of stages 1 and 2 (SCALE_SRC and BIAS_SRC 0). -/
def Plan.constants (p : Plan) : Fused := { scale := decodeFp .fp32 p.scaleC, bias := decodeFp .fp32 p.biasC }

/-- Stages 1 to 6 for a run of elements with constants only (the plans of R478). -/
def State.drainRun (s : State) (p : Plan) (mode : Nat → Rounding) (vs : List FVal) : Encoded :=
  encodeRun p.out mode (vs.map fun v => s.stages p p.constants v)

end Sys2Proof.Machine
end

