-- ==== Sys2Proof/Machine/Service.lean ====
section
/-! DEFINITION. The services that move bytes or update elements: COPY, FILL, COMPARE (R479-R481), ATOMIC (R211-R213), REDUCE (R210),
PARAM_UPDATE (R495, R496), KV_APPEND (R488) and ATTN_DECODE (R489-R491). One command of the table carries a task to its next
boundary (R310). -/
namespace Sys2Proof.Machine

/-! ### 4 KiB blocks of a frame unit -/

/-- The part of a frame unit, as offsets into an operand of `len` bytes. -/
def State.unitRange (s : State) (r : OpRef) (u len : Nat) : Nat × Nat :=
  let b := s.refBase r
  let lo := max b ((b / 65536 + u) * 65536)
  let hi := min (b + len) ((b / 65536 + u + 1) * 65536)
  (lo - b, hi - b)

/-- The next block of a task: offset into the operand, length, and the unit's length (R310: 4 KiB blocks). -/
def State.nextBlock (s : State) (t : Task) (r : OpRef) (len : Nat) : Nat × Nat × Nat :=
  let (lo, hi) := s.unitRange r (t.units.headD 0) len
  let o := lo + t.pos
  let e := min hi (((s.refBase r + o) / 4096 + 1) * 4096 - s.refBase r)
  (o, e - o, hi - lo)

/-- One block's outcome. -/
structure Block where
  fault : Option (Status × Nat) := none
  poison : Bool := false
  deriving DecidableEq, Repr

/-- A block is done: the task faults or advances. -/
def State.blockDone (s : State) (q n : Nat) (b : Block) (len total count : Nat) : State :=
  match b.fault with
  | some f => s.taskFault q n f
  | none => s.modTask q n fun t => t.advance len total b.poison count

/-- R380: a task's reads that are not staged: through the first-level cache, if its plan leaves one. -/
def Plan.port (p : Plan) (n : Nat) : Port := { slice := n, l1 := decide (p.scratch < 8) }

/-- R387: each unit of a task is a bay tile (R371). Its step waits for the RELEASE owed after the last, and its first step performs the
ACQUIRE; when the unit is done the RELEASE is owed before the next. -/
def State.unitFence (s : State) (q n : Nat) (p : Plan) (t : Task) (f : State → State) : State :=
  if t.relDue then s
  else
    (f (if p.acqBay && decide (t.pos = 0) then s.modSlice n fun y => { y with l1 := [] } else s)).modTask q n fun u =>
      if u.units.length < t.units.length ∧ ¬ u.units.isEmpty then { u with relDue := p.relBay } else u

/-! ### COPY and FILL -/

/-- R479: one piece of a copy within one destination sector. -/
def State.copyPiece (s : State) (w : Who) (t : Port) (src dst : OpRef) (n : Nat) (x : Ext) : Block × State :=
  match s.opRead w.vd t src n x with
  | (o, s1) =>
    match o.fault with
    | some f => ({ fault := some f }, s1)
    | none =>
      match s1.opWrite w t dst (pbytes o.bytes o.poison) x with
      | (f, s2) => ({ fault := f, poison := o.poison }, s2)

/-- R479: a block, destination sector by destination sector. -/
def State.copyF (w : Who) (t : Port) (x : Ext) : Nat → OpRef → OpRef → Nat → State → Block × State
  | 0, _, _, _, s => ({}, s)
  | k + 1, src, dst, n, s =>
    if n = 0 then ({}, s)
    else
      let c := min n (32 - s.refMod dst % 32)
      match s.copyPiece w t src dst c x with
      | (b, s1) =>
        if b.fault.isSome then (b, s1)
        else
          match State.copyF w t x k (src.add c) (dst.add c) (n - c) s1 with
          | (b2, s2) => ({ fault := b2.fault, poison := b.poison || b2.poison }, s2)

def execCopy (cmd slice : Nat) (x : Ext) (s : State) : Res :=
  .next (s.orWait x.pick fun s => s.taskStep cmd slice 0x10 fun c t =>
    let (o, n, total) := s.nextBlock t (c.ref 0x20) c.len3
    match State.copyF (c.who cmd) { slice := slice } x (n / 32 + 2) ((c.ref 0x18).add o) ((c.ref 0x20).add o) n s with
    | (b, s1) => s1.blockDone cmd slice b n total 1)

/-- R480: the bytes of a fill from an offset. -/
def fillBytes (pattern o n : Nat) : List Byte := (List.range n).map fun i => BitVec.ofNat 8 (pattern / 256 ^ ((o + i) % 8))

def execFill (cmd slice : Nat) (x : Ext) (s : State) : Res :=
  .next (s.orWait x.pick fun s => s.taskStep cmd slice 0x11 fun c t =>
    let (o, n, total) := s.nextBlock t (c.ref 0x18) (c.f 0x20 8)
    match s.opWrite (c.who cmd) { slice := slice } ((c.ref 0x18).add o) (pbytes (fillBytes (c.f 0x28 8) o n) false) x with
    | (f, s1) => s1.blockDone cmd slice { fault := f } n total 1)

/-! ### COMPARE (R481) -/

/-- Bytes with the poison of the sector that each lies in, or the fault that stops the read. -/
def State.readMarked (v : Nat) (t : Port) (x : Ext) : Nat → OpRef → Nat → State → Except (Status × Nat) PBytes × State
  | 0, _, _, s => (.ok [], s)
  | k + 1, r, n, s =>
    if n = 0 then (.ok [], s)
    else
      let c := min n (32 - s.refMod r % 32)
      match s.opRead v t r c x with
      | (o, s1) =>
        match o.fault with
        | some f => (.error f, s1)
        | none =>
          match State.readMarked v t x k (r.add c) (n - c) s1 with
          | (.ok bs, s2) => (.ok (pbytes o.bytes o.poison ++ bs), s2)
          | (.error f, s2) => (.error f, s2)

/-- The first byte of the range that lies in the sector of byte `o` of an operand. -/
def State.sectorStart (s : State) (r : OpRef) (o : Nat) : Nat := o - min o ((s.refMod (r.add o)) % 32)

/-- R481: what one block finds first: twice the offset of a difference, plus 1; or twice that of a poisoned sector. -/
def State.compareKey (s : State) (a b : OpRef) (o : Nat) (xs ys : PBytes) : Option Nat :=
  ((List.range xs.length).map fun i =>
    let u := xs.getD i (0, false)
    let v := ys.getD i (0, false)
    let pa := if u.2 then some (2 * s.sectorStart a (o + i)) else none
    let pb := if v.2 then some (2 * s.sectorStart b (o + i)) else none
    match pa, pb with
    | some m, some n => some (min m n)
    | some m, none => some m
    | none, some n => some n
    | none, none => if u.1 = v.1 then none else some (2 * (o + i) + 1)).foldl (fun acc y =>
      match acc, y with
      | some m, some n => some (min m n)
      | none, y => y
      | acc, none => acc) none

def execCompare (cmd slice : Nat) (x : Ext) (s : State) : Res :=
  .next (s.orWait x.pick fun s => s.taskStep cmd slice 0x12 fun c t =>
    let (o, n, total) := s.nextBlock t (c.ref 0x18) c.len3
    let port : Port := { slice := slice }
    match State.readMarked c.vd port x (n / 32 + 2) ((c.ref 0x18).add o) n s with
    | (.error f, s1) => s1.taskFault cmd slice f
    | (.ok xs, s1) =>
      match State.readMarked c.vd port x (n / 32 + 2) ((c.ref 0x20).add o) n s1 with
      | (.error f, s2) => s2.taskFault cmd slice f
      | (.ok ys, s2) =>
        match s2.compareKey (c.ref 0x18) (c.ref 0x20) o xs ys with
        | none => s2.blockDone cmd slice {} n total 0
        | some k => (s2.modCmd cmd fun c => { c with result := min c.result k }).blockDone cmd slice {} total total 0)

/-! ### REDUCE (R210) -/

/-- 128 bytes and their poison added at the home of a line of the destination. -/
def State.addLine (s1 : State) (w : Who) (fmt : Nat) (t : Port) (r : OpRef) (d : Line) (p : Sectors) (x : Ext)
    (em : BitVec 64 := allElems fmt) (n : Nat := 128) : Block × State :=
  match r with
  | .va a =>
    match s1.translate w.vd a true { x with via := 8 + t.slice } with
    | (.error st, s2) => ({ fault := some (st, a) }, s2)
    | (.ok ga, s2) =>
      match s2.lineRed (ga / 128) fmt d p { w with va := a, slice := some t.slice } x.pick em with
      | (none, s3) => ({ poison := p != 0 }, s3)
      | (some st, s3) => ({ fault := some (st, a) }, s3)
  | .blk h o' =>
    if s1.blkSize h < o' + n then ({ fault := some (.bounds, boundsAddr o') }, s1)
    else
      match s1.poolRed (handlePool h) (s1.blkOff h o') fmt d p { w with va := boundsAddr o', slice := some t.slice } x.pick em with
      | (none, s3) => ({ poison := p != 0 }, s3)
      | (some st, s3) => ({ fault := some (st, boundsAddr o') }, s3)

/-- One line: source bytes and their poison added at the home of the destination line. -/
def State.reduceLine (s : State) (c : Cmd) (q : Nat) (t : Port) (o : Nat) (x : Ext) : Block × State :=
  match State.readMarked c.vd t x 6 ((c.ref 0x18).add o) 128 s with
  | (.error f, s1) => ({ fault := some f }, s1)
  | (.ok bs, s1) =>
    s1.addLine (c.who q) c.opx t ((c.ref 0x20).add o) (bytesLine (bs.map (·.1))) (poisonOf bs 0) x

def State.reduceF (c : Cmd) (q : Nat) (t : Port) (x : Ext) : Nat → Nat → State → Block × State
  | 0, _, s => ({}, s)
  | k + 1, o, s =>
    match s.reduceLine c q t o x with
    | (b, s1) =>
      if b.fault.isSome then (b, s1)
      else
        match State.reduceF c q t x k (o + 128) s1 with
        | (b2, s2) => ({ fault := b2.fault, poison := b.poison || b2.poison }, s2)

def execReduce (cmd slice : Nat) (x : Ext) (s : State) : Res :=
  .next (s.orWait x.pick fun s => s.taskStep cmd slice 0x14 fun c t =>
    if c.len3 = 0 then s.modTask cmd slice fun t => t.finish false 0
    else
      let (o, n, total) := s.nextBlock t (c.ref 0x20) c.len3
      match State.reduceF c cmd { slice := slice } x (n / 128) o s with
      | (b, s1) => s1.blockDone cmd slice b n total 1)

/-! ### ATOMIC (R212, R213) -/

/-- An atomic has answered: its old value, or a poisoned target whose value is free (Table 11-8). -/
def State.atomDone (s : State) (q n : Nat) (old : Option Nat) (width : Nat) : State :=
  match old with
  | some v => (s.modCmd q fun c => { c with result := v }).modTask q n fun t => t.finish false 0
  | none =>
    let (a, s1) := s.draw
    let (b, s2) := s1.draw
    (s2.modCmd q fun c => { c with result := (a.toNat + b.toNat * 2 ^ 64) % 2 ^ width }).modTask q n fun t => t.finish true 0

/-- The atomic of a command is on its way. -/
def State.atomOut (s : State) (q : Nat) : Bool :=
  let mine (r : Req) : Bool := decide (r.op = .atomic) && decide (r.who.bind Who.cmd = some q)
  (s.slices.any fun e => e.2.inq.any mine || e.2.miss.any fun m => m.2.req.any mine || m.2.waiters.any mine)
    || (s.pool.remote.any fun r => decide (r.op = .atom) && decide (r.who.cmd = some q))
    || (s.pool.remWait.any fun r => decide (r.1.op = .atom) && decide (r.1.who.cmd = some q))

/-- The answer of a command's atomic, if it is in, ends its task. -/
def State.atomTake (s : State) (q n width : Nat) : State :=
  match s.cmd? q with
  | some c => (match c.old with | some v => (s.setCmd q { c with old := none }).atomDone q n v width | none => s)
  | none => s

/-- ATOMIC: the request goes to the home of its line, and when its answer is in the task is done. A block of a pinned bay is changed where
it lies. -/
def execAtomic (cmd slice : Nat) (x : Ext) (s : State) : Res :=
  .next (s.orWait x.pick fun s => s.taskStep cmd slice 0x13 fun c t =>
    if c.old.isSome then s.atomTake cmd slice c.width
    else if s.atomOut cmd then s
    else
      let w (a : Nat) : Who := { c.who cmd with va := a, slice := some slice }
      match c.ref 0x18 with
      | .va a =>
        match s.translate c.vd a (decide (c.atop ≠ 0)) { x with via := 8 + slice } with
        | (.error st, s1) => s1.taskFault cmd slice (st, a)
        | (.ok ga, s1) => (s1.lineAtom (ga / 128) (ga % 128) c (w a) x.pick).atomTake cmd slice c.width
      | .blk h o =>
        let b := s.blkOff h o
        if t.held.isEmpty then s
        else if s.blkSize h < o + c.width / 8 then s.taskFault cmd slice (.bounds, boundsAddr o)
        else if (s.hpool (handlePool h)).kind = 1 then
          let y := s.poolLine (handlePool h) b 0 (w (boundsAddr o)) x.pick
          let old := (y.1.data.extractLsb' (8 * (b % 128)) c.width).toNat
          if bit y.1.p.toNat (b % 128 / 32) then s.atomDone cmd slice none c.width
          else
            let z := putField 0 (8 * (b % 128)) c.width (atomicNew c.atop c.width old (c.f 0x20 16) (c.f 0x30 16))
            let m := BitVec.ofNat 128 ((2 ^ (c.width / 8) - 1) * 2 ^ (b % 128))
            (s.poolWrite (handlePool h) b m z 0 (w (boundsAddr o)) x.pick).atomDone cmd slice (some old) c.width
        else
          let a := s.poolByte (handlePool h) b
          (s.lineAtom (s.ownLine (a / 128)) (a % 128) c (w (boundsAddr o)) x.pick).atomTake cmd slice c.width)

/-! ### PARAM_UPDATE (R495, R496) -/

/-- The elements of W whose first byte lies in a byte range of the operand, in groups of one LZB8 block or one element:
first group and how many. -/
def Plan.groupsIn (p : Plan) (lo hi : Nat) : Nat × Nat :=
  let k := p.out.bytes
  let a := (lo + k - 1) / k
  let b := (hi + k - 1) / k
  (a, b - a)

/-- R495: the updated value of one element. -/
def updateVal (alpha beta w g : FVal) : FVal := f32Add (f32Mul beta w) (f32Mul alpha g)

/-- One group of elements is updated. -/
def State.updateGroup (s : State) (c : Cmd) (q : Nat) (t0 : Port) (p : Plan) (grp : Nat) (x : Ext) : Block × State :=
  let t := p.port t0.slice
  let per := if p.out = .lzb8 then 16 else 1
  let i0 := grp * per
  let n := min per (c.len3 - i0)
  let wr := (c.ref 0x18).add (grp * p.out.bytes)
  match s.opRead c.vd t wr p.out.bytes x with
  | (w, s1) =>
    match w.fault with
    | some f => ({ fault := some f }, s1)
    | none =>
      let gLo := if p.x = .lzb8 then i0 / 16 * 17 else i0 * p.x.bytes
      let gLen := if p.x = .lzb8 then 17 else n * p.x.bytes
      match s1.opRead c.vd t ((c.ref 0x20).add gLo) gLen x with
      | (g, s2) =>
        match g.fault with
        | some f => ({ fault := some f }, s2)
        | none =>
          let alpha := decodeFp .fp32 (c.f 0x30 4)
          let beta := decodeFp .fp32 (c.f 0x34 4)
          let one (i : Nat) : (FVal × Bool) :=
            let (wv, a) := widen p.out (elemVal p.out w.bytes i)
            let (gv, b) := widen p.x (elemVal p.x g.bytes (if p.x = .lzb8 then (i0 + i) % 16 else i))
            (updateVal alpha beta wv gv, a || b)
          let us := (List.range n).map one
          let e := encodeRun p.out (fun i => p.mode ((i0 + i) / 65536) ((i0 + i) % 65536)) (us.map (·.1))
          let poison := w.poison || g.poison
          match s2.opWrite (c.who q) t wr (pbytes e.bytes poison) x with
          | (f, s3) => ({ fault := f, poison := poison }, s3.countCvt t.slice (e.sat + (us.filter (·.2)).length) e.nan)

def State.updateF (c : Cmd) (q : Nat) (t : Port) (p : Plan) (x : Ext) : Nat → Nat → State → Block × State
  | 0, _, s => ({}, s)
  | k + 1, grp, s =>
    match s.updateGroup c q t p grp x with
    | (b, s1) =>
      if b.fault.isSome then (b, s1)
      else
        match State.updateF c q t p x k (grp + 1) s1 with
        | (b2, s2) => ({ fault := b2.fault, poison := b.poison || b2.poison }, s2)

def execParamUpdate (cmd slice : Nat) (x : Ext) (s : State) : Res :=
  .next (s.orWait x.pick fun s => s.taskStep cmd slice 0x31 fun c t =>
    let p := s.planOf c
    s.unitFence cmd slice p t fun s =>
      let (o, n, total) := s.nextBlock t (c.ref 0x18) (c.updateBytes p)
      let (g, k) := p.groupsIn o (o + n)
      match State.updateF c cmd { slice := slice } p x k g s with
      | (b, s1) => s1.blockDone cmd slice b n total 1)

/-! ### KV_APPEND (R488) -/

/-- One row of the token: read from SRC, converted, written to its slot. -/
def State.kvRow (s : State) (c : Cmd) (q : Nat) (t : Port) (p : Plan) (src dst : Nat) (x : Ext) : Block × State :=
  let hd := p.nFixed
  match s.opRead c.vd (p.port t.slice) ((c.ref 0x20).add src) (rowBytes hd p.x) x with
  | (o, s1) =>
    match o.fault with
    | some f => ({ fault := some f }, s1)
    | none =>
      let vs := (List.range hd).map fun i => widen p.x (elemVal p.x o.bytes i)
      let e := s1.drainRun p (fun i => p.mode (c.pos % 2 ^ 24) i) (vs.map (·.1))
      match (s1.useConsts t.slice c.planNo p []).opWrite (c.who q) t (.va dst) (pbytes e.bytes o.poison) x with
      | (f, s2) => ({ fault := f, poison := o.poison }, s2.countCvt t.slice (e.sat + (vs.filter (·.2)).length) e.nan)

def execKvAppend (cmd slice : Nat) (x : Ext) (s : State) : Res :=
  .next (s.orWait x.pick fun s => s.taskStep cmd slice 0x39 fun c _ =>
    let p := s.planOf c
    let row := p.nFixed * p.a.bytes
    let base := c.kv.getLast?.getD 0 + c.pos / 2 ^ 24 * p.headBytes
    let slot := c.pos % 2 ^ 24 % 32
    let port : Port := { slice := slice }
    match s.kvRow c cmd port p 0 (base + slot * row) x with
    | (b, s1) =>
      if b.fault.isSome then s1.blockDone cmd slice b 1 1 0
      else
        match s1.kvRow c cmd port p (rowBytes p.nFixed p.x) (base + (32 + slot) * row) x with
        | (b2, s2) => s2.blockDone cmd slice { b2 with poison := b.poison || b2.poison } 1 1 1)

/-! ### ATTN_DECODE (R489-R492) -/

/-- A partial result (m, l, a), with whether a poisoned sector fed it. -/
structure Partial where
  m : FVal
  l : FVal
  a : List FVal
  deriving DecidableEq, Repr

def fp32Val (x : Nat) : FVal := decodeFp .fp32 x
def fp32Enc (v : FVal) : Nat := (encodeFp .fp32 .rne v).bits

/-- R490: exp of a value that is not above 0; its algorithm is not given (notes/assumptions/6.md), but its fixed points are. -/
def expVal (v : FVal) : FVal :=
  match v with
  | .nan => .nan
  | .inf _ => .zero
  | .fin s m e => if m = 0 then .fin false 1 0 else fp32Val (Config.exp32 (BitVec.ofNat 32 (fp32Enc (.fin s m e)))).toNat

/-- R490: the weight of a score against a maximum. -/
def weight (sc m : FVal) : FVal :=
  match m with
  | .nan => .nan
  | .inf b => if sc = .inf b then .fin false 1 0 else .zero
  | m => expVal (f32Add sc m.neg)

/-- R491: two partials fold, the first earlier in the order. -/
def Partial.fold (p q : Partial) : Partial :=
  let mm := maxVal p.m q.m
  let c1 := weight p.m mm
  let c2 := weight q.m mm
  let mix (a b : FVal) : FVal := f32Add (f32Mul a c1) (f32Mul b c2)
  { m := mm, l := mix p.l q.l, a := (p.a.zip q.a).map fun x => mix x.1 x.2 }

/-- Table 13-4: the group depth D of a pairing with an accumulation mode. -/
def pairDepth (a x : NumFmt) (acc : Nat) : Nat :=
  let eight (f : NumFmt) : Bool := f == .int8 || f == .lzb8
  let fp8 (f : NumFmt) : Bool := f == .e4m3 || f == .e5m2
  if eight a && eight x then (if acc = 1 then 32 else 16)
  else if fp8 a && fp8 x then (if acc = 3 then 32 else 16)
  else if a = .fp32 then 2 else 8

def Plan.depth (p : Plan) : Nat := pairDepth p.a p.xc p.accMode

/-- The padding value of an operand as it is stored (R376). -/
def Plan.padVal (p : Plan) (isA : Bool) : FVal :=
  if isA then (if p.padAOn then elemVal p.a (leBytes 4 p.padA) 0 else .zero)
  else if p.padXOn then elemVal p.x (leBytes 4 p.padX) 0 else .zero

/-- Element `k` of an operand row that begins at element `base`; beyond K it is padding (R347), which a conversion of X has put into the row
(R376). -/
def Plan.valAt (p : Plan) (isA : Bool) (row : RdOut) (base kk k : Nat) : FVal :=
  if k < kk ∨ (¬ isA ∧ p.xConv ≠ 0) then elemVal (if isA then p.a else p.xc) row.bytes (k - base) else p.padVal isA

/-- R348: one group added to a floating-point accumulator, and whether it overflowed. -/
def accGroup (f : FpParams) (acc : FVal) (g : List (FVal × FVal)) : FVal × Bool :=
  let v := acc.add (groupSum g)
  let r := roundFp f v
  (r, match v, r with | .fin _ _ _, .inf _ => true | _, _ => false)

/-- R348: an FP32 dot product by groups of `d`, one rounding for each group. -/
def dotGroups (d : Nat) (xs : List (FVal × FVal)) : FVal × Bool :=
  (List.range ((xs.length + d - 1) / d)).foldl (fun acc g =>
    let (v, o) := accGroup .fp32 acc.1 ((xs.drop (g * d)).take d)
    (v, acc.2 || o)) (.zero, false)

/-- The scores, and with the V rows the partial, of one page's tokens (R490). -/
def pagePartial (scores : List FVal) (vs : List (List FVal)) (hd : Nat) : Partial :=
  let m := match scores with | [] => .nan | x :: xs => xs.foldl maxVal x
  let ws := scores.map fun sc => weight sc m
  let l := ws.foldl f32Add .zero
  let a := (List.range hd).map fun j => (ws.zip vs).foldl (fun acc x => f32Add acc (f32Mul x.1 (x.2.getD j .zero))) .zero
  if m.isNan then { m := .nan, l := .nan, a := List.replicate hd .nan } else { m := m, l := l, a := a }

/-- A partial as it is written: m, l and a as FP32 (R492), and back. -/
def Partial.words (p : Partial) : List Nat := fp32Enc p.m :: fp32Enc p.l :: p.a.map fp32Enc
def Partial.ofWords (ws : List Nat) : Partial := { m := fp32Val (ws.getD 0 0), l := fp32Val (ws.getD 1 0), a := (ws.drop 2).map fp32Val }

/-- Rows of a block of the page: `n` rows of `row` bytes from an address. -/
def State.kvRows (v : Nat) (t : Port) (row : Nat) (x : Ext) : Nat → Nat → State → (Except (Status × Nat) (List (List Byte) × Bool)) × State
  | 0, _, s => (.ok ([], false), s)
  | n + 1, a, s =>
    match s.opRead v t (.va a) row x with
    | (o, s1) =>
      match o.fault with
      | some f => (.error f, s1)
      | none =>
        match State.kvRows v t row x n (a + row) s1 with
        | (.ok (rs, p), s2) => (.ok (o.bytes :: rs, o.poison || p), s2)
        | (.error f, s2) => (.error f, s2)

/-- One KV page of the task: read Q and the page's rows, form its partial and fold it in (R490, R491). -/
def State.attnPage (s : State) (c : Cmd) (q n u : Nat) (x : Ext) : Block × State :=
  let p := s.planOf c
  let port := p.port n
  let hd := p.nFixed
  let row := hd * p.a.bytes
  let toks := min 32 (c.tokens - 32 * u)
  let base := c.kv.getD u 0 + c.head * p.headBytes
  match s.opRead c.vd { slice := n } (c.ref 0x20) (rowBytes hd p.x) x with
  | (qo, s1) =>
    match qo.fault with
    | some f => ({ fault := some f }, s1)
    | none =>
      match State.kvRows c.vd port row x toks base s1 with
      | (.error f, s2) => ({ fault := some f }, s2)
      | (.ok (ks, pk), s2) =>
        match State.kvRows c.vd port row x toks (base + 32 * row) s2 with
        | (.error f, s3) => ({ fault := some f }, s3)
        | (.ok (vs, pv), s3) =>
          let d := p.depth
          let xq := p.loadX qo.bytes hd (padOf d hd)
          let bad := qo.poison || pk || pv
          let dots := ks.map fun kr => dotGroups d ((List.range (hd + padOf d hd)).map fun k =>
            (p.valAt true { bytes := kr } 0 hd k, p.valAt false { bytes := xq.bytes } 0 hd k))
          let pp := pagePartial (dots.map fun y => f32Mul (fp32Val (c.f 0x38 4)) y.1) (vs.map fun r => (List.range hd).map fun j => elemVal p.a r j) hd
          let s4 := s3.countCvt n xq.sat xq.nan
          -- a poisoned page counts no overflow (R355)
          let s5 := if bad then s4 else s4.modSlice n fun y => { y with runFpOvf := y.runFpOvf + BitVec.ofNat 32 (dots.filter (·.2)).length }
          let all := match c.partials.find n with | some ws => (Partial.ofWords ws).fold pp | none => pp
          ({ poison := bad }, s5.modCmd q fun c => { c with partials := c.partials.put n all.words })

def execAttnDecode (cmd slice : Nat) (x : Ext) (s : State) : Res :=
  .next (s.orWait x.pick fun s => s.taskStep cmd slice 0x3A fun c t =>
    s.unitFence cmd slice (s.planOf c) t fun s =>
      match s.attnPage c cmd slice (t.units.headD 0) x with
      | (b, s1) => s1.blockDone cmd slice b 1 1 0)

/-- R382, R386: a run of output elements of a plan without AUX drains to a destination; with RES_ON the residual is the element
about to be overwritten. `bad` says which elements are poisoned already. -/
def State.drainRow (s : State) (c : Cmd) (q : Nat) (t : Port) (p : Plan) (mode : Nat → Rounding) (dst : OpRef) (vs : List FVal)
    (bad : Nat → Bool) (x : Ext) : Block × State :=
  let n := vs.length
  match (if p.resOn then State.readMarked c.vd (p.port t.slice) x (rowBytes n p.out / 32 + 3) dst (rowBytes n p.out) s else (.ok [], s)) with
  | (.error f, s1) => ({ fault := some f }, s1)
  | (.ok bs, s1) =>
    let raw := bs.map (·.1)
    let part (i : Nat) : PBytes := match p.out with | .lzb8 => (bs.drop (i / 16 * 17)).take 17 | f => (bs.drop (i * f.bytes)).take f.bytes
    let ws := (List.range n).map fun i => if p.resOn then widen p.out (elemVal p.out raw i) else (.zero, false)
    let res (i : Nat) : FVal := (ws.getD i (.zero, false)).1
    let bad1 (i : Nat) : Bool := bad i || (p.resOn && (part i).any (·.2))
    let e := encodeRun p.out mode ((List.range n).map fun i => s1.stages p { p.constants with res := res i } (vs.getD i .zero))
    match (s1.useConsts t.slice c.planNo p (vs.map (p.actIn p.constants))).opWrite (c.who q) t dst (poisonRun p.out e.bytes bad1) x with
    | (f, s2) => ({ fault := f, poison := (List.range n).any bad1 }, s2.countCvt t.slice (e.sat + p.roundSat vs + (ws.filter (·.2)).length) e.nan)

/-- R492: the task that completes the count folds every partial in ascending slice order and drains OUT. -/
def State.attnFold (s : State) (c : Cmd) (q n : Nat) (poison : Bool) (x : Ext) : Block × State :=
  let p := s.planOf c
  match c.partials.map fun e => Partial.ofWords e.2 with
  | [] => ({}, s)
  | a :: rest =>
    let all := rest.foldl Partial.fold a
    s.drainRow c q { slice := n } p (fun i => p.mode i 0) (c.ref 0x28) (all.a.map fun v => f32Div v all.l) (fun _ => poison) x

end Sys2Proof.Machine
end

