-- ==== Sys2Proof/Machine/Runner.lean ====
section
/-! DEFINITION. The Runner's sequencer: bay tiles, local tiles and accumulator tiles (R371-R375), products and accumulation
(R347-R349), overflow and rescale (R350-R352), spills (R356-R358), the accumulator sets (R360) and the drain of a MATMUL
(R353, R354, R362, R382-R387). -/
namespace Sys2Proof.Machine

def cdiv (a b : Nat) : Nat := (a + b - 1) / b

/-! ### Tiles and loops -/

/-- A bay tile of a task: rows, columns and the K elements of its part. -/
structure BayTile where
  m0 : Nat
  rows : Nat
  n0 : Nat
  cols : Nat
  k0 : Nat
  kEnd : Nat
  deriving DecidableEq, Repr

/-- The bay tiles of a task in the order of its level 3 loops (Table 14-4, R377). -/
def State.bayTiles (s : State) (c : Cmd) (t : Task) : List BayTile :=
  let p := s.planOf c
  let b := s.bucketOf c
  let (m, n, k) := c.dims p
  let j := if c.opcode = 0x30 then p.parts b k else 1
  let kb := if c.opcode = 0x30 then p.kb b k else k
  let tile (u cb : Nat) : BayTile :=
    let m0 := u / j * b.mb
    { m0 := m0, rows := min b.mb (m - m0), n0 := cb * b.nb, cols := min b.nb (n - cb * b.nb),
      k0 := u % j * kb, kEnd := min k ((u % j + 1) * kb) }
  let cbs := List.range (cdiv n b.nb)
  -- of two parts of one row block the later comes first (R392: a slice that stands in for its buddy supplies both)
  let us := sortBy (fun u w => decide (u / j < w / j) || (decide (u / j = w / j) && decide (w ≤ u))) t.units
  if bit b.order 4 then cbs.flatMap fun cb => us.map fun u => tile u cb
  else us.flatMap fun u => cbs.map fun cb => tile u cb

/-- Table 14-4: the loops of level 2 over (M, N, K) indexes, the first named outermost. -/
def loops2 (o nm nn nk : Nat) : List (Nat × Nat × Nat) :=
  let M := List.range nm
  let N := List.range nn
  let K := List.range nk
  match o with
  | 0 => M.flatMap fun a => N.flatMap fun b => K.map fun c => (a, b, c)
  | 1 => M.flatMap fun a => K.flatMap fun c => N.map fun b => (a, b, c)
  | 2 => N.flatMap fun b => M.flatMap fun a => K.map fun c => (a, b, c)
  | 3 => N.flatMap fun b => K.flatMap fun c => M.map fun a => (a, b, c)
  | 4 => K.flatMap fun c => M.flatMap fun a => N.map fun b => (a, b, c)
  | _ => K.flatMap fun c => N.flatMap fun b => M.map fun a => (a, b, c)

/-- A local tile of a bay tile: where it lies, and its indexes in the three loops. -/
structure LocTile where
  m0 : Nat
  rows : Nat
  n0 : Nat
  cols : Nat
  k0 : Nat
  kEnd : Nat
  deriving DecidableEq, Repr

/-- R373: of two consecutive local tiles the second finds the A tile of the first in place, with N innermost. -/
def Bucket.keepsA (b : Bucket) (x y : LocTile) : Bool :=
  (b.order % 8 == 1 || b.order % 8 == 4) && decide (x.m0 = y.m0) && decide (x.k0 = y.k0)
/-- R373: the second finds the X tile of the first in place, with M innermost. -/
def Bucket.keepsX (b : Bucket) (x y : LocTile) : Bool :=
  (b.order % 8 == 3 || b.order % 8 == 5) && decide (x.n0 = y.n0) && decide (x.k0 = y.k0)

/-- The local tiles of a bay tile in loop order, cut at its edges (R375). -/
def Bucket.locTiles (b : Bucket) (y : BayTile) : List LocTile :=
  (loops2 (b.order % 8) (cdiv y.rows b.ml) (cdiv y.cols b.nl) (cdiv (y.kEnd - y.k0) b.kl)).map fun (a, e, k) =>
    { m0 := y.m0 + a * b.ml, rows := min b.ml (y.rows - a * b.ml), n0 := y.n0 + e * b.nl, cols := min b.nl (y.cols - e * b.nl),
      k0 := y.k0 + k * b.kl, kEnd := min y.kEnd (y.k0 + (k + 1) * b.kl) }

/-- A level-1 step: one accumulator tile over one local tile's K. `loc` is the local tile's place in its loops. -/
structure Visit where
  loc : Nat
  m0 : Nat
  rows : Nat
  n0 : Nat
  cols : Nat
  k0 : Nat
  kEnd : Nat
  /-- The tile's K is complete after this step. -/
  last : Bool
  deriving DecidableEq, Repr

/-- R373: local tile `i` of a bay tile takes a new X tile. -/
def Bucket.loadsX (b : Bucket) (ls : List LocTile) (i : Nat) : Bool :=
  match ls[i]?, (if i = 0 then none else ls[i - 1]?) with
  | some l, some k => !b.keepsX k l
  | some _, none => true
  | none, _ => false

/-- The level-1 steps of a bay tile, in order. -/
def Bucket.visits (b : Bucket) (y : BayTile) : List Visit :=
  let ls := b.locTiles y
  (List.range ls.length).flatMap fun i =>
    match ls[i]? with
    | none => []
    | some l =>
      let ms := List.range (cdiv l.rows b.mt)
      let ns := List.range (cdiv l.cols b.nt)
      let v (a e : Nat) : Visit :=
        { loc := i, m0 := l.m0 + a * b.mt, rows := min b.mt (l.rows - a * b.mt), n0 := l.n0 + e * b.nt, cols := min b.nt (l.cols - e * b.nt),
          k0 := l.k0, kEnd := l.kEnd, last := decide (l.kEnd = y.kEnd) }
      if bit b.order 3 then ns.flatMap fun e => ms.map fun a => v a e else ms.flatMap fun a => ns.map fun e => v a e

/-- The number a tile is kept under: its first output element. -/
def tileKey (m0 n0 : Nat) : Nat := m0 * 65536 + n0

/-! ### The Runner of a slice -/

def State.setRunner (s : State) (n : Nat) (r : Runner) : State := { s with runners := s.runners.put n r }
def State.dropRunner (s : State) (n : Nat) : State := { s with runners := s.runners.del n }

/-- A Runner at work for a running task of an opcode, not stopping. -/
def State.runnerOn (s : State) (n op : Nat) : Option (Runner × Cmd × Task) :=
  match s.runners.find n with
  | none => none
  | some r =>
    match s.cmd? r.cmd with
    | none => none
    | some c =>
      match s.taskOn r.cmd c n with
      | none => none
      | some t => if c.opcode = op ∧ r.stop.isNone then some (r, c, t) else none

/-- The task is to end: at once, or when the shadow set has drained (R361). -/
def State.runnerStop (s : State) (n : Nat) (r : Runner) (f : Fin) : State :=
  if r.shadow.isNone then (s.dropRunner n).modTask r.cmd n fun t => { t with fin := some f }
  else s.setRunner n { r with cur := none, stop := some f }

def cancelFin : Fin := { term := .cancelled, status := .cancelled }
def faultFin (f : Status × Nat) : Fin := { term := .faulted, status := f.1, addr := f.2 }

/-- The next bay tile of a task starts (R371), after the RELEASE owed for the last and with the ACQUIRE that its plan asks for (R387). -/
def State.startBay (s : State) (q n : Nat) (c : Cmd) (t : Task) : State :=
  if t.relDue then s
  else
    let s1 := if (s.planOf c).acqBay then s.modSlice n fun y => { y with l1 := [] } else s
    s1.setRunner n { cmd := q, bay := t.pos }

/-- A bay tile is complete: the next one may start, once the RELEASE that its plan asks for has been performed (R387), or the task is done. -/
def State.endBay (s : State) (n : Nat) (r : Runner) (c : Cmd) (t : Task) : State :=
  let s1 := s.dropRunner n
  if r.bay + 1 < (s.bayTiles c t).length then s1.modTask r.cmd n fun t => { t with pos := r.bay + 1, relDue := (s.planOf c).relBay }
  else s1.modTask r.cmd n fun t => t.finish false 0

/-- MATMUL (R494): its Runner takes the next bay tile. -/
def execMatmul (cmd slice : Nat) (s : State) : Res :=
  match s.runners.find slice with
  | some _ => .next s
  | none => .next (s.taskStep cmd slice 0x30 fun c t => s.startBay cmd slice c t)

/-! ### Loading local tiles (R346, R373, R389) -/

/-- Rows of an operand, each on its own: a fault of one is met when it is used (R389). -/
def State.readRows (v : Nat) (t : Port) (r : OpRef) (stride len : Nat) (x : Ext) : Nat → Nat → State → List RdOut × State
  | 0, _, s => ([], s)
  | n + 1, i, s =>
    match s.opRead v t (r.add (i * stride)) len x with
    | (o, s1) =>
      match State.readRows v t r stride len x n (i + 1) s1 with
      | (os, s2) => (o :: os, s2)

/-- Rows `m0` on of A over K elements `k0` to `kEnd`. -/
def State.loadA (s : State) (c : Cmd) (p : Plan) (n m0 rows k0 kEnd : Nat) (x : Ext) : List RdOut × State :=
  State.readRows c.vd { slice := n } ((c.ref 0x18).add (elemOff p.a k0)) (rowBytes c.mK p.a) (rowBytes (kEnd - k0) p.a) x rows m0 s

/-- Vectors `n0` on of X, converted on load (R346), with the counts of the conversion. -/
def State.loadXs (s : State) (c : Cmd) (p : Plan) (n n0 cols k0 kEnd : Nat) (x : Ext) : List RdOut × State :=
  match State.readRows c.vd { slice := n } ((c.ref 0x20).add (elemOff p.x k0)) (rowBytes c.mK p.x) (rowBytes (kEnd - k0) p.x) x cols n0 s with
  | (os, s1) =>
    let es := os.map fun o => p.loadX o.bytes (kEnd - k0) (if kEnd = c.mK then padOf p.depth kEnd else 0)
    ((os.zip es).map fun y => { y.1 with bytes := y.2.bytes },
      s1.countCvt n ((es.map (·.sat)).foldl (· + ·) 0) ((es.map (·.nan)).foldl (· + ·) 0))

/-- R397, R399: how a slice gets X: it reads it; or it is the anchor of a MULTICAST run and also supplies it; or it receives
what the anchor reads. -/
inductive XFrom where
  | mem | anchor | flume
  deriving DecidableEq, Repr

def State.xFrom (s : State) (q n : Nat) : XFrom :=
  match (s.flume.getD (n / 8) {}).run with
  | some r =>
    if r.cmd = q ∧ ¬ r.reduce ∧ (s.runSlices r).contains n then (if n = s.liveSlice (n / 8 * 8 + r.anchor) then .anchor else .flume) else .mem
  | none => .mem

/-- The anchor may supply one more tile of X. -/
def State.supplyRoom (s : State) (n : Nat) : Bool :=
  match (s.flume.getD (n / 8) {}).run with | some r => decide (r.supply.length < 2) | none => true

def State.setRun (s : State) (d : Nat) (r : Option FlumeRun) : State := { s with flume := s.flume.setD d {} { s.flume.getD d {} with run := r } }

/-- The anchor supplies a tile of X to its run (R399). -/
def State.supplyX (s : State) (n : Nat) (xs : List RdOut) : State :=
  match (s.flume.getD (n / 8) {}).run with
  | some r => s.setRun (n / 8) (some { r with supply := r.supply ++ [xs] })
  | none => s

/-- LOCAL_TILE_LOADED: the next local tile of the bay tile is in scratchpad; an operand that stays in place is not read again
(R373). -/
def State.loadTile (s : State) (n : Nat) (r : Runner) (c : Cmd) (t : Task) (x : Ext) : State :=
  let p := s.planOf c
  let b := s.bucketOf c
  match (s.bayTiles c t)[r.bay]? with
  | none => s
  | some y =>
    let ls := b.locTiles y
    match ls[r.next]? with
    | none => s
    | some l =>
      if 2 ≤ r.loaded.length then s
      else
        let prev : Option (LocTile × LocalTile) := if r.next = 0 then none else
          match ls[r.next - 1]?, r.loaded.getLast? with
          | some a, some d => some (a, d)
          | _, _ => none
        let sameA := match prev with | some (a, _) => b.keepsA a l | none => false
        let sameX := match prev with | some (a, _) => b.keepsX a l | none => false
        -- a tile that the Flume has delivered is used, be the run over or not (R402)
        let src : XFrom := if r.xin.isEmpty then s.xFrom r.cmd n else .flume
        if src = XFrom.flume ∧ !sameX ∧ r.xin.isEmpty then s
        else if src = XFrom.anchor ∧ !sameX ∧ !s.supplyRoom n then s
        else
          let (as, s1) := match prev with
            | some (_, d) => if sameA then (d.a, s) else s.loadA c p n l.m0 l.rows l.k0 l.kEnd x
            | none => s.loadA c p n l.m0 l.rows l.k0 l.kEnd x
          let (xs, s2) := match prev with
            | some (_, d) => if sameX then (d.x, s1) else if src = XFrom.flume then (r.xin.headD [], s1) else s1.loadXs c p n l.n0 l.cols l.k0 l.kEnd x
            | none => if src = XFrom.flume then (r.xin.headD [], s1) else s1.loadXs c p n l.n0 l.cols l.k0 l.kEnd x
          let r1 : Runner := { r with
            loaded := r.loaded ++ [{ loc := r.next, a := as, x := xs }]
            next := r.next + 1
            xin := if src = XFrom.flume ∧ !sameX then r.xin.drop 1 else r.xin }
          (if src = XFrom.anchor ∧ !sameX then s2.supplyX n xs else s2).setRunner n r1

def execLocalTileLoaded (slice : Nat) (x : Ext) (s : State) : Res :=
  match s.runnerOn slice 0x30 with
  | some (r, c, t) => .next (s.orWait x.pick fun s => s.loadTile slice r c t x)
  | none => .next s

/-! ### Products (R347-R349) -/

/-- Accumulation is integer (Table 13-7). -/
def Plan.intAcc (p : Plan) : Bool := decide (p.accMode < 2)
/-- The parameters of a floating-point accumulator. -/
def Plan.accFp (p : Plan) : FpParams := if p.accMode = 3 then .fp16 else .fp32
/-- R349: elements of a sub-group. -/
def Plan.sub (p : Plan) : Nat := if p.a = .int16 ∨ p.xc = .int16 then 8 else 16
/-- Bits of an integer accumulator, and of its spill buffer (Table 13-6). -/
def Plan.accBits (p : Plan) : Nat := if p.accMode = 1 then 16 else 32
def Plan.spillBits (p : Plan) : Nat := if p.accMode = 1 then 32 else 64

/-- The padding of an operand as integer accumulation takes it (R376). -/
def Plan.padInt (p : Plan) (isA : Bool) : Int × Int :=
  if isA then (if p.padAOn then elemInt p.a p.scaleA (leBytes 4 p.padA) 0 else (0, p.scaleA))
  else if p.padXOn then elemInt p.x p.scaleX (leBytes 4 p.padX) 0 else (0, p.scaleX)

/-- Element `k` of an operand row as integer accumulation takes it; beyond K it is padding, as `Plan.valAt` has it. -/
def Plan.intAt (p : Plan) (isA : Bool) (row : RdOut) (base kk k : Nat) : Int × Int :=
  if k < kk ∨ (¬ isA ∧ p.xConv ≠ 0) then elemInt (if isA then p.a else p.xc) (if isA then p.scaleA else p.scaleX) row.bytes (k - base) else p.padInt isA

/-- The operands of an active tile: rows of A, vectors of X, and the K element at which each begins. -/
structure Operands where
  base : Nat
  a : List RdOut
  x : List RdOut
  deriving DecidableEq, Repr

/-- R349: the contribution of the sub-group at `k` to an element of row `i` and column `j`. -/
def Plan.contrib (p : Plan) (o : Operands) (adj kk i j k : Nat) : Int :=
  let ra := o.a.getD i {}
  let rx := o.x.getD j {}
  let sum := (List.range p.sub).foldl (fun acc e => acc + (p.intAt true ra o.base kk (k + e)).1 * (p.intAt false rx o.base kk (k + e)).1) (0 : Int)
  shiftRne sum ((p.intAt true ra o.base kk k).2 + (p.intAt false rx o.base kk k).2 - adj - p.frame)

/-- An integer range. -/
def inBits (n : Nat) (x : Int) : Bool := decide (-(2 ^ (n - 1) : Nat) ≤ x) && decide (x < (2 ^ (n - 1) : Nat))
def clampBits (n : Nat) (x : Int) : Int := clampInt (-(2 ^ (n - 1) : Nat)) ((2 ^ (n - 1) : Nat) - 1) x

/-- An element after one group: its value, whether it left its range (R350), and whether a floating-point sum overflowed. -/
structure Elem where
  val : Int
  ovf : Bool := false
  fpOver : Bool := false
  deriving DecidableEq, Repr

/-- One group for one element (R348, R349, R352). -/
def Plan.groupElem (p : Plan) (o : Operands) (adj kk : Nat) (sat : Bool) (i j k : Nat) (acc : Int) : Elem :=
  if p.intAcc then
    (List.range (p.depth / p.sub)).foldl (fun (e : Elem) g =>
      let c := p.contrib o adj kk i j (k + g * p.sub)
      let v := e.val + c
      let bad := !inBits p.accBits c || !inBits p.accBits v
      { e with val := if sat then clampBits p.accBits v else v, ovf := e.ovf || bad }) { val := acc }
  else
    let g := (List.range p.depth).map fun e => (p.valAt true (o.a.getD i {}) o.base kk (k + e), p.valAt false (o.x.getD j {}) o.base kk (k + e))
    let (v, ov) := accGroup p.accFp (decodeFp p.accFp acc.toNat) g
    { val := ((encodeFp p.accFp .rne v).bits : Nat), fpOver := ov }

/-- One group for every element of the active tile. -/
def Plan.groupTile (p : Plan) (o : Operands) (kk : Nat) (sat : Bool) (y : Active) : List Elem :=
  (List.range (y.rows * y.cols)).map fun e => p.groupElem o y.adj kk sat (e / y.cols) (e % y.cols) y.k (y.acc.getD e 0)

/-- Flags joined element by element. -/
def orFlags (n : Nat) (a b : List Bool) : List Bool := (List.range n).map fun i => a.getD i false || b.getD i false

/-- Groups run until an overflow, the spill interval or the end of the step (R350, R357). Answers whether an element
overflowed, and how many floating-point elements did. -/
def Plan.runGroups (p : Plan) (o : Operands) (kk interval : Nat) (sat : Bool) : Nat → Active → Nat → Active × Bool × Nat
  | 0, y, f => (y, false, f)
  | fuel + 1, y, f =>
    if y.kEnd ≤ y.k then (y, false, f)
    else if p.accMode ≠ 2 ∧ interval ≤ y.since then (y, false, f)
    else
      let es := p.groupTile o kk sat y
      let ovf := es.any (·.ovf)
      let y1 : Active := { y with
        acc := es.map (·.val), k := y.k + p.depth, since := y.since + min p.depth (kk - y.k)
        clamped := if sat then orFlags es.length y.clamped (es.map (·.ovf)) else y.clamped }
      if ovf && !sat && !y.poison then (y1, true, f)
      else Plan.runGroups p o kk interval sat fuel y1 (f + (es.filter (·.fpOver)).length)

/-! ### Attempts (R351, R352) -/

/-- The attempt is the last allowed one and saturates. -/
def Plan.saturates (p : Plan) (adj : Nat) : Bool := p.intAcc && decide (adj = p.maxRetry) && p.ovfSaturate

def zeros (n : Nat) : List Int := List.replicate n 0

/-- An attempt begins with a cleared set and spill buffer (R351); the last allowed one is counted (R352). -/
def State.beginAttempt (s : State) (n : Nat) (p : Plan) (adj : Nat) : State :=
  if p.intAcc && decide (adj = p.maxRetry) then s.modSlice n fun y => { y with runExhaust := y.runExhaust + 1 } else s

/-- An overflow (R351, R352): a retry with the scale halved, or the task faults. -/
def State.overflow (s : State) (n : Nat) (r : Runner) (p : Plan) (y : Active) (kLo : Nat) : State :=
  if y.adj = p.maxRetry then s.runnerStop n r (faultFin (.accOverflow, 0))
  else
    let y1 : Active := { y with phase := .retry, adj := y.adj + 1, k := kLo, acc := zeros (y.rows * y.cols), spill := [],
                                spilled := false, clamped := [], since := 0, again := none }
    let s1 := (s.modSlice n fun z => { z with runRetry := z.runRetry + 1 }).modTask r.cmd n fun t => { t with retried := true }
    s1.setRunner n { r with cur := some y1, live := r.live.del (tileKey y.m0 y.n0) }

/-- The steps of the Runner's bay tile. -/
def State.stepsOf (s : State) (r : Runner) (c : Cmd) (t : Task) : List Visit :=
  match (s.bayTiles c t)[r.bay]? with
  | some y => (s.bucketOf c).visits y
  | none => []

/-- What follows when the active set has run as far as it can. -/
def Active.afterRun (y : Active) (p : Plan) (interval : Nat) (v : Visit) (next : Option Visit) : AccPhase :=
  if y.k < y.kEnd then .spill false
  else if v.last then .swap
  else
    let stays := match next with | some w => decide (w.m0 = v.m0) && decide (w.n0 = v.n0) | none => false
    if !stays then .spill true
    else if p.accMode ≠ 2 ∧ interval ≤ y.since then .spill false else .step

/-- The active set runs over its operands (R351). -/
def State.runActive (s : State) (n : Nat) (r : Runner) (c : Cmd) (t : Task) (y : Active) (o : Operands) (v : Visit) (next : Option Visit) (kLo : Nat) : State :=
  let p := s.planOf c
  let i := 2 ^ t.interval
  match p.runGroups o c.mK i (p.saturates y.adj && !y.poison) (cdiv (y.kEnd - y.k) p.depth + 1) y 0 with
  | (y1, ovf, f) =>
    -- a poisoned tile counts no overflow (R355)
    let s1 := if y.poison then s else s.modSlice n fun z => { z with runFpOvf := z.runFpOvf + BitVec.ofNat 32 f }
    if ovf then s1.overflow n r p y1 kLo
    else s1.setRunner n { r with cur := some { y1 with phase := y1.afterRun p i v next } }

/-- The operands of a step in scratchpad: the rows of its tile within the local tile. -/
def LocalTile.operands (l : LocalTile) (lt : LocTile) (v : Visit) : Operands :=
  { base := lt.k0, a := (l.a.drop (v.m0 - lt.m0)).take v.rows, x := (l.x.drop (v.n0 - lt.n0)).take v.cols }

/-- The first fault of the operands of a step (R389). -/
def Operands.fault (o : Operands) : Option (Status × Nat) := (o.a ++ o.x).findSome? (·.fault)
def Operands.poison (o : Operands) : Bool := (o.a ++ o.x).any (·.poison)

/-- The tile of a step as the active set takes it up: new, left before (R358), or going on. -/
def Runner.takeUp (r : Runner) (v : Visit) : Active :=
  match r.cur with
  | some y => { y with phase := .run, kEnd := v.kEnd, again := none }
  | none =>
    match r.live.find (tileKey v.m0 v.n0) with
    | some l => { m0 := v.m0, n0 := v.n0, rows := v.rows, cols := v.cols, k := v.k0, kEnd := v.kEnd, adj := l.adj,
                  acc := zeros (v.rows * v.cols), spill := l.spill, spilled := true, clamped := l.clamped, poison := l.poison.any id, ue := l.ue }
    | none => { m0 := v.m0, n0 := v.n0, rows := v.rows, cols := v.cols, k := v.k0, kEnd := v.kEnd, acc := zeros (v.rows * v.cols) }

/-- RUNNER_TILE_ATTEMPT: the active set starts its step, or goes on after a spill or into a retry (R351). A cancellation takes effect at a tile
boundary: the end of a step, the start of an attempt and a swap (R374). -/
def State.tileAttempt (s : State) (n : Nat) (r0 : Runner) (c : Cmd) (t : Task) (x : Ext) : State :=
  let p := s.planOf c
  let vs := s.stepsOf r0 c t
  let step (r : Runner) (i : Nat) : State :=
    -- a level-1 step begins on its loaded local tile
    match vs[i]?, (s.bayTiles c t)[r.bay]? with
    | some v, some y =>
      let loaded := r.loaded.filter fun l => decide (v.loc ≤ l.loc)
      match loaded.head?, ((s.bucketOf c).locTiles y)[v.loc]? with
      | some l, some lt =>
        if l.loc ≠ v.loc then s
        else
          let o := l.operands lt v
          let r1 := { r with visit := i, loaded := loaded }
          match o.fault with
          | some f => s.runnerStop n r1 (faultFin f)
          | none =>
            let a := r1.takeUp v
            let bad := a.poison || o.poison
            let s1 := if r.cur.isNone && !a.spilled && !bad then s.beginAttempt n p 0 else s
            s1.runActive n r1 c t { a with poison := bad } o v vs[i + 1]? y.k0
      | _, _ => s
    | _, _ => s
  let boundary := match r0.cur with
    | none => decide (r0.visit < vs.length)
    | some y => decide (y.phase ∈ [.step, .retry, .redo, .swap])
  if t.cancel && boundary then s.runnerStop n r0 cancelFin
  else
    match r0.cur with
    | none => step r0 r0.visit
    | some y =>
      match y.phase, vs[r0.visit]?, (s.bayTiles c t)[r0.bay]? with
      | .step, _, _ => step r0 (r0.visit + 1)
      | .run, some v, some bt =>
        match y.again with
        | some (base, as, xs) => s.runActive n r0 c t y { base := base, a := as, x := xs } v vs[r0.visit + 1]? bt.k0
        | none =>
          match r0.loaded.head?, ((s.bucketOf c).locTiles bt)[v.loc]? with
          | some l, some lt => s.runActive n r0 c t y (l.operands lt v) v vs[r0.visit + 1]? bt.k0
          | _, _ => s
      | _, some v, some bt =>
        if y.phase ≠ .retry ∧ y.phase ≠ .redo then s else
        -- a retry reads the tile's operands again, from its first K element (R351)
        match s.loadA c p n v.m0 v.rows bt.k0 v.kEnd x with
        | (as, s1) =>
          match s1.loadXs c p n v.n0 v.cols bt.k0 v.kEnd x with
          | (xs, s2) =>
            let o : Operands := { base := bt.k0, a := as, x := xs }
            match o.fault with
            | some f => s2.runnerStop n r0 (faultFin f)
            | none =>
              let bad := y.poison || o.poison
              (if y.phase = .retry ∧ ¬ bad then s2.beginAttempt n p y.adj else s2).runActive n r0 c t
                { y with phase := .run, kEnd := v.kEnd, poison := bad, again := some (bt.k0, as, xs) } o v vs[r0.visit + 1]? bt.k0
      | _, _, _ => s

/-- R507: an error is detected during the active tile: the tile is repeated from its first K element with the same ADJ; a second
error drains it as poison (R355). -/
def State.tileError (s : State) (n : Nat) : State :=
  match s.runnerOn n 0x30 with
  | some (r, c, t) =>
    match r.cur, (s.bayTiles c t)[r.bay]? with
    | some y, some bt =>
      if y.ue then s.setRunner n { r with cur := some { y with poison := true } }
      else
        let y1 : Active := { y with phase := .redo, k := bt.k0, acc := zeros (y.rows * y.cols), spill := [], spilled := false, clamped := [],
                                    since := 0, again := none, ue := true }
        s.setRunner n { r with cur := some y1, live := r.live.del (tileKey y.m0 y.n0) }
    | _, _ => s
  | none => s

/-! ### Spills (R356, R358) -/

/-- One element into the spill buffer: its new value, and whether that left the buffer's range. -/
def Plan.spillElem (p : Plan) (sat : Bool) (old acc : Int) : Int × Bool :=
  if p.intAcc then
    let v := old + acc
    let bad := !inBits p.spillBits v
    (if sat then clampBits p.spillBits v else v, bad)
  else
    (((encodeFp .fp32 .rne ((decodeFp .fp32 old.toNat).add (decodeFp p.accFp acc.toNat))).bits : Nat), false)

/-- SPILL: the active set is added into its buffer and cleared; a first spill loads it. -/
def State.spillTile (s : State) (n : Nat) (r : Runner) (c : Cmd) (t : Task) (y : Active) (leave : Bool) : State :=
  let p := s.planOf c
  let sat := p.saturates y.adj && !y.poison
  let es := (List.range y.acc.length).map fun i =>
    if y.spilled then p.spillElem sat (y.spill.getD i 0) (y.acc.getD i 0)
    else if p.intAcc then (y.acc.getD i 0, false)
    else (((encodeFp .fp32 .rne (decodeFp p.accFp (y.acc.getD i 0).toNat)).bits : Nat), false)
  let y1 : Active := { y with
    spill := es.map (·.1), spilled := true, acc := zeros y.acc.length, since := 0
    clamped := if sat then orFlags es.length y.clamped (es.map (·.2)) else y.clamped }
  let s1 := s.modSlice n fun z => { z with runSpill := z.runSpill + 1 }
  if (es.any (·.2)) && !sat && !y.poison then
    match (s.bayTiles c t)[r.bay]? with
    | some bt => s1.overflow n r p y1 bt.k0
    | none => s1
  else if leave then
    let l : LiveTile := { adj := y.adj, spill := y1.spill, clamped := y1.clamped, poison := [y.poison], ue := y.ue }
    s1.setRunner n { r with cur := none, visit := r.visit + 1, live := r.live.put (tileKey y.m0 y.n0) l }
  else s1.setRunner n { r with cur := some { y1 with phase := if y.k < y.kEnd then .run else .step } }

def execSpill (slice : Nat) (s : State) : Res :=
  match s.runnerOn slice 0x30 with
  | some (r, c, t) =>
    match r.cur with
    | some y => (match y.phase with | .spill leave => .next (s.spillTile slice r c t y leave) | _ => .next s)
    | none => .next s
  | none => .next s

/-! ### The swap (R360) -/

/-- The drained value of an element: spill buffer plus accumulator (R358), as an integer or an encoding in FP32. -/
def Plan.total (p : Plan) (y : Active) (i : Nat) : Int :=
  let a := y.acc.getD i 0
  if p.intAcc then (if y.spilled then y.spill.getD i 0 + a else a)
  else if y.spilled then (p.spillElem false (y.spill.getD i 0) a).1
  else ((encodeFp .fp32 .rne (decodeFp p.accFp a.toNat)).bits : Nat)

/-- ACC_SET_SWAP: the completed tile moves into the shadow set; while the shadow drains, the multiplier waits `wait`
cycles (R360). -/
def State.swapSets (s : State) (n : Nat) (r : Runner) (p : Plan) (t : Task) (y : Active) (wait : Nat) : State :=
  let s0 := s.modSlice n fun z => { z with runDrainWait := z.runDrainWait + BitVec.ofNat 32 wait }
  if r.shadow.isSome then s0
  else if t.cancel then s0.runnerStop n r cancelFin
  else
    let clamps := (y.clamped.filter id).length
    let sh : Shadow := { m0 := y.m0, n0 := y.n0, rows := y.rows, cols := y.cols, vals := (List.range y.acc.length).map (p.total y),
                         adj := y.adj, sat := decide (0 < clamps) && !y.poison, poison := y.poison }
    let s1 := if y.poison then s0 else s0.modSlice n fun z => { z with runSat := z.runSat + BitVec.ofNat 32 clamps }
    s1.setRunner n { r with cur := none, visit := r.visit + 1, shadow := some sh, live := r.live.del (tileKey y.m0 y.n0) }

def execAccSetSwap (slice wait : Nat) (s : State) : Res :=
  match s.runnerOn slice 0x30 with
  | some (r, c, t) =>
    match r.cur with
    | some y => if y.phase = .swap then .next (s.swapSets slice r (s.planOf c) t y wait) else .next s
    | none => .next s
  | none => .next s

/-! ### The drain (R353, R354, R361, R362, R382-R387) -/

/-- R354, R362: the value that enters the drain chain. -/
def Plan.drainVal (p : Plan) (sh : Shadow) (i : Nat) : FVal :=
  match sh.sums with
  | some xs => decodeFp .fp32 (xs.getD i 0)
  | none =>
    let v := sh.vals.getD i 0
    if p.intAcc then .ofInt v (if p.out.isInt then p.frame else p.frame + sh.adj) else decodeFp .fp32 v.toNat

/-- R362: a drained partial as FP32, and whether its conversion left the range (R342). -/
def Plan.partialCvt (p : Plan) (sh : Shadow) (i : Nat) : Cvt :=
  let v := sh.vals.getD i 0
  if p.intAcc then encodeFp .fp32 .rne (.ofInt v (p.frame + sh.adj)) else { bits := v.toNat }
def Plan.partialVal (p : Plan) (sh : Shadow) (i : Nat) : Nat := (p.partialCvt sh i).bits
/-- R342: the conversions of a partial tile that saturated. -/
def Plan.partialSat (p : Plan) (sh : Shadow) : Nat := ((List.range sh.vals.length).filter fun i => (p.partialCvt sh i).sat).length

/-- A vector of FP32 values from AUX, read through the constants cache (R381): one for each row of the tile, with the poison of each. -/
def State.auxVec (s : State) (c : Cmd) (n off m0 rows : Nat) (x : Ext) : Except (Status × Nat) (List (FVal × Bool)) × State :=
  match State.readMarked c.vd { slice := n, consts := true } x (rows / 8 + 3) (.blk c.aux (off + 4 * m0)) (4 * rows) s with
  | (.error f, s1) => (.error f, s1)
  | (.ok bs, s1) =>
    (.ok ((List.range rows).map fun i =>
      let e := (bs.drop (4 * i)).take 4
      (decodeFp .fp32 (leNat (e.map (·.1))), e.any (·.2))), s1)

/-- A constant for each row, or the AUX vector of a stage. -/
def State.stageVec (s : State) (c : Cmd) (n : Nat) (on src : Bool) (const off m0 rows : Nat) (x : Ext) : Except (Status × Nat) (List (FVal × Bool)) × State :=
  if on && src then s.auxVec c n off m0 rows x else (.ok (List.replicate rows (decodeFp .fp32 const, false)), s)

/-- The residual elements of one output vector (stage 4), with their poison. -/
def State.residual (s : State) (c : Cmd) (p : Plan) (n m0 rows col : Nat) (x : Ext) : Except (Status × Nat) (List (FVal × Bool)) × State :=
  if !p.resOn then (.ok (List.replicate rows (.zero, false)), s)
  else
    let o := col * rowBytes c.mM p.out + elemOff p.out m0
    let r := if p.resSrc then (c.ref 0x28).add o else .blk c.aux (p.auxRes + o)
    match State.readMarked c.vd (p.port n) x (rowBytes rows p.out / 32 + 3) r (rowBytes rows p.out) s with
    | (.error f, s1) => (.error f, s1)
    | (.ok bs, s1) =>
      let ws := (List.range rows).map fun i => widen p.out (elemVal p.out (bs.map (·.1)) i)
      (.ok ((List.range rows).map fun i =>
        let part := match p.out with
          | .lzb8 => (bs.drop (i / 16 * 17)).take 17
          | f => (bs.drop (i * f.bytes)).take f.bytes
        ((ws.getD i (.zero, false)).1, part.any (·.2))), s1.countCvt n (ws.filter (·.2)).length 0)

/-- One output vector of the tile: stages 1 to 6 and the store. Answers whether poison was written. -/
def State.drainCol (s : State) (c : Cmd) (q n : Nat) (p : Plan) (sh : Shadow) (sc bi : List (FVal × Bool)) (j : Nat) (x : Ext) : Block × State :=
  match s.residual c p n sh.m0 sh.rows (sh.n0 + j) x with
  | (.error f, s1) => ({ fault := some f }, s1)
  | (.ok rs, s1) =>
    let at_ (ys : List (FVal × Bool)) (i : Nat) : FVal × Bool := ys.getD i (.zero, false)
    let bad (i : Nat) : Bool := sh.poison || (p.scaleOn && (at_ sc i).2) || (p.biasOn && (at_ bi i).2) || (p.resOn && (at_ rs i).2)
    let raw := (List.range sh.rows).map fun i => p.drainVal sh (i * sh.cols + j)
    let g (i : Nat) : Fused := { scale := (at_ sc i).1, bias := (at_ bi i).1, res := (at_ rs i).1 }
    let vs := (List.range sh.rows).map fun i => s1.stages p (g i) (raw.getD i .zero)
    let ins := (List.range sh.rows).map fun i => p.actIn (g i) (raw.getD i .zero)
    let e := encodeRun p.out (fun i => p.mode (sh.m0 + i) (sh.n0 + j)) vs
    let dst := (c.ref 0x28).add ((sh.n0 + j) * rowBytes c.mM p.out + elemOff p.out sh.m0)
    match (s1.useConsts n c.planNo p ins).opWrite (c.who q) { slice := n } dst (poisonRun p.out e.bytes bad) x with
    | (f, s2) => ({ fault := f, poison := (List.range sh.rows).any bad }, s2.countCvt n (e.sat + p.roundSat raw) e.nan)

def State.drainCols (c : Cmd) (q n : Nat) (p : Plan) (sh : Shadow) (sc bi : List (FVal × Bool)) (x : Ext) : Nat → Nat → State → Block × State
  | 0, _, s => ({}, s)
  | k + 1, j, s =>
    match s.drainCol c q n p sh sc bi j x with
    | (b, s1) =>
      if b.fault.isSome then (b, s1)
      else
        match State.drainCols c q n p sh sc bi x k (j + 1) s1 with
        | (b2, s2) => ({ fault := b2.fault, poison := b.poison || b2.poison }, s2)

/-- R353, R384: the header of a tile, and where it goes. -/
def tileNumber (c : Cmd) (b : Bucket) (sh : Shadow) : Nat := cdiv c.mN b.nt * (sh.m0 / b.mt) + sh.n0 / b.nt
def Plan.header (p : Plan) (c : Cmd) (b : Bucket) (sh : Shadow) : List Byte :=
  leBytes 4 ((if p.intAcc then sh.adj else 0) + b2n sh.sat * 8 + b2n sh.poison * 16) ++ leBytes 4 (tileNumber c b sh)

/-- The whole drain of the shadow set's tile. -/
def State.drainTile (s : State) (c : Cmd) (q n : Nat) (sh : Shadow) (x : Ext) : Block × State :=
  let p := s.planOf c
  let b := s.bucketOf c
  match s.stageVec c n p.scaleOn p.scaleSrc p.scaleC p.auxScale sh.m0 sh.rows x with
  | (.error f, s1) => ({ fault := some f }, s1)
  | (.ok sc, s1) =>
    match s1.stageVec c n p.biasOn p.biasSrc p.biasC p.auxBias sh.m0 sh.rows x with
    | (.error f, s2) => ({ fault := some f }, s2)
    | (.ok bi, s2) =>
      match State.drainCols c q n p sh sc bi x sh.cols 0 s2 with
      | (d, s3) =>
        if d.fault.isSome || !p.hdrOn then (d, s3)
        else
          match s3.opWrite (c.who q) { slice := n } (.blk c.aux (p.auxHdr + 8 * tileNumber c b sh)) (pbytes (p.header c b sh) false) x with
          | (f, s4) => ({ d with fault := f }, s4)

/-- The shadow set is free: a stop that waited for it takes effect, or the bay tile or task may be complete. -/
def State.shadowFree (s : State) (n : Nat) (r : Runner) (c : Cmd) (t : Task) : State :=
  match r.stop with
  | some f => (s.dropRunner n).modTask r.cmd n fun t => { t with fin := some f }
  | none =>
    if r.cur.isNone && decide ((s.stepsOf r c t).length ≤ r.visit) then s.endBay n r c t else s.setRunner n r

/-- The K part of the bay tile at work. -/
def State.partOf (s : State) (r : Runner) (c : Cmd) (t : Task) : Nat :=
  match (s.bayTiles c t)[r.bay]? with | some y => y.k0 / (s.planOf c).kb (s.bucketOf c) c.mK | none => 0

/-- The run that a shadow tile belongs to, if it holds the die's Flume. -/
def State.runOf (s : State) (n q : Nat) (c : Cmd) (sh : Shadow) : Option FlumeRun :=
  match (s.flume.getD (n / 8) {}).run with
  | some g => if g.cmd = q ∧ g.reduce ∧ sh.m0 / (s.bucketOf c).mb = g.row ∧ sh.n0 / (s.bucketOf c).nb = g.cb then some g else none
  | none => none

/-- R392: a partial waits in its shadow set for its period, but on a slice with a further part of the same row block it moves
on to its position's crossing. -/
def State.queuePartial (s : State) (n : Nat) (r : Runner) (c : Cmd) (t : Task) (sh : Shadow) : State :=
  let part := s.partOf r c t
  let j := (s.planOf c).parts (s.bucketOf c) c.mK
  match s.runOf n r.cmd c sh with
  | none => s
  | some g =>
    if t.units.any fun u => decide (u / j = g.row) && decide (u % j < part) then
      let pos := g.anchor ^^^ part
      (s.setRun (n / 8) (some { g with queued := g.queued.put pos (g.queued.getD pos [] ++ [sh]) })).shadowFree n { r with shadow := none } c t
    else s

/-- DRAIN_DONE: the shadow set's tile is stored and counts (R360), or the drain's own fault stops it (R361). A partial of a
split K is drained when the Flume has taken it, and the tile of the destination when its sums have arrived (R362). -/
def State.drainDone (s : State) (n : Nat) (r : Runner) (c : Cmd) (t : Task) (sh : Shadow) (x : Ext) : State :=
  let p := s.planOf c
  if p.ksplit ≠ 0 ∧ sh.supplied ∧ sh.sums.isNone then s.shadowFree n { r with shadow := none } c t
  else if p.ksplit ≠ 0 ∧ sh.sums.isNone then s.queuePartial n r c t sh
  else
    match s.drainTile c r.cmd n sh x with
    | (b, s1) =>
      match b.fault with
      | some f => (s1.dropRunner n).modTask r.cmd n fun t => { t with fin := some (faultFin f) }
      | none =>
        (s1.modTask r.cmd n fun t => { t with done := t.done + 1, poison := t.poison || b.poison || sh.poison }).shadowFree n { r with shadow := none } c t

def execDrainDone (slice : Nat) (x : Ext) (s : State) : Res :=
  match s.runners.find slice with
  | none => .next s
  | some r =>
    match s.cmd? r.cmd, r.shadow with
    | some c, some sh =>
      match s.taskOn r.cmd c slice with
      | some t => .next (s.orWait x.pick fun s => s.drainDone slice r c t sh x)
      | none => .next s
    | _, _ => .next s

end Sys2Proof.Machine
end

