-- ==== Sys2Proof/Machine/Gather.lean ====
section
/-! DEFINITION. EMB_GATHER (R482-R485): a level-1 step pools one accumulator tile over one local tile's index entries; the tile
drains at its last step. -/
namespace Sys2Proof.Machine

/-- A pooling tile: by element its accumulator and poison, by bag the entries seen and those that are not padding. -/
def LiveTile.gather (rows cols : Nat) : LiveTile :=
  { spill := zeros (rows * cols), poison := List.replicate (rows * cols) false, seen := List.replicate rows 0, real := List.replicate rows 0 }

/-- R483: one contribution of a column. -/
def poolStep (mode seen : Nat) (acc v : FVal) : FVal :=
  if mode = 2 then (if seen = 0 then v else maxVal acc v) else f32Add acc v

/-- R483: the padding row's element. -/
def Plan.padRow (p : Plan) : FVal := if p.padXOn then (widen p.x (elemVal p.x (leBytes 4 p.padX) 0)).1 else .zero

/-- The address that RESULT names for a place in an operand (R389, R484). -/
def OpRef.report (r : OpRef) : Nat := match r with | .va a => a | .blk _ o => boundsAddr o

/-- The elements of a table row that a tile's columns need, each with its poison. -/
def State.gatherRow (s : State) (c : Cmd) (p : Plan) (n row n0 cols : Nat) (x : Ext) : Except (Status × Nat) (List (FVal × Bool)) × State :=
  let c0 := if p.x = .lzb8 then n0 / 16 * 16 else n0
  let len := rowBytes (n0 + cols - c0) p.x
  match State.readMarked c.vd (p.port n) x (len / 32 + 3)
      ((c.ref 0x18).add (row * rowBytes p.nFixed p.x + elemOff p.x c0)) len s with
  | (.error f, s1) => (.error f, s1)
  | (.ok bs, s1) =>
    let raw := bs.map (·.1)
    let part (i : Nat) : PBytes := match p.x with | .lzb8 => (bs.drop (i / 16 * 17)).take 17 | f => (bs.drop (i * f.bytes)).take f.bytes
    let ws := (List.range cols).map fun j => widen p.x (elemVal p.x raw (n0 + j - c0))
    let at_ (j : Nat) : FVal × Bool := ((ws.getD j (.zero, false)).1, (part (n0 + j - c0)).any (·.2))
    (.ok ((List.range cols).map at_), s1.countCvt n (ws.filter (·.2)).length 0)

/-- One bag's contribution of one row of values. -/
def LiveTile.take (l : LiveTile) (mode i cols : Nat) (vs : List (FVal × Bool)) (real : Bool) : LiveTile :=
  let upd {α : Type} (xs : List α) (d : α) (f : Nat → α → α) : List α :=
    (List.range xs.length).map fun e => if e / cols = i then f (e % cols) (xs.getD e d) else xs.getD e d
  { l with
    spill := upd l.spill 0 fun j a => (fp32Enc (poolStep mode (l.seen.getD i 0) (fp32Val a.toNat) (vs.getD j (.zero, false)).1) : Nat)
    poison := upd l.poison false fun j b => b || (vs.getD j (.zero, false)).2
    seen := l.seen.set i (l.seen.getD i 0 + 1)
    real := if real then l.real.set i (l.real.getD i 0 + 1) else l.real }

/-- One entry of bag `i` of the tile (R483, R484). A poisoned entry poisons its bag. -/
def State.gatherEntry (s : State) (c : Cmd) (p : Plan) (n : Nat) (v : Visit) (l : LiveTile) (i k : Nat) (list : RdOut) (k0 : Nat) (x : Ext) :
    Except (Status × Nat) LiveTile × State :=
  let e := leNat ((list.bytes.drop (4 * (k - k0))).take 4)
  if list.poison then (.ok (l.take c.poolMode i v.cols (List.replicate v.cols (.zero, true)) true), s)
  else if e = 0xFFFFFFFF then (.ok (l.take c.poolMode i v.cols (List.replicate v.cols (p.padRow, false)) false), s)
  else if c.rows ≤ e then (.error (.bounds, ((c.ref 0x20).add (4 * (c.bagLen * (v.m0 + i) + k))).report), s)
  else
    match s.gatherRow c p n e v.n0 v.cols x with
    | (.error f, s1) => (.error f, s1)
    | (.ok vs, s1) => (.ok (l.take c.poolMode i v.cols vs true), s1)

/-- Every entry of a step, bag by bag in list order. -/
def State.gatherEntries (c : Cmd) (p : Plan) (n : Nat) (v : Visit) (lists : List RdOut) (x : Ext) :
    List (Nat × Nat) → LiveTile → State → Except (Status × Nat) LiveTile × State
  | [], l, s => (.ok l, s)
  | (i, k) :: t, l, s =>
    match s.gatherEntry c p n v l i k (lists.getD i {}) v.k0 x with
    | (.error f, s1) => (.error f, s1)
    | (.ok l1, s1) => State.gatherEntries c p n v lists x t l1 s1

/-- R483: the pooled value of an element. -/
def LiveTile.pooled (l : LiveTile) (mode i e : Nat) : FVal :=
  let a := fp32Val (l.spill.getD e 0).toNat
  if mode = 1 then (if l.real.getD i 0 = 0 then .zero else f32Div a (f32 (.ofInt (l.real.getD i 0)))) else a

/-- The bags of a finished tile drain, row by row (R382). A tile whose columns do not fall on LZB8 blocks leaves those blocks'
bytes open: they are free values. -/
def State.gatherDrain (c : Cmd) (q n : Nat) (p : Plan) (v : Visit) (l : LiveTile) (x : Ext) : Nat → Nat → State → Block × State
  | 0, _, s => ({}, s)
  | k + 1, i, s =>
    let c0 := if p.out = .lzb8 then v.n0 / 16 * 16 else v.n0
    let dst := (c.ref 0x28).add ((v.m0 + i) * rowBytes p.nFixed p.out + elemOff p.out c0)
    let whole := decide (p.out ≠ .lzb8) || (decide (c0 = v.n0) && (decide (v.cols % 16 = 0) || decide (v.n0 + v.cols = p.nFixed)))
    let bad (j : Nat) : Bool := l.poison.getD (i * v.cols + j) false
    let one : Block × State :=
      if whole then
        s.drainRow c q { slice := n } p (fun j => p.mode (v.m0 + i) (v.n0 + j)) dst
          ((List.range v.cols).map fun j => l.pooled c.poolMode i (i * v.cols + j)) bad x
      else
        let bs := (List.range (rowBytes (v.n0 + v.cols - c0) p.out)).map fun j => (Config.freeByte s.freeCtr j, (List.range v.cols).any bad)
        match ({ s with freeCtr := s.freeCtr + 1 }).opWrite (c.who q) { slice := n } dst bs x with
        | (f, s1) => ({ fault := f, poison := (List.range v.cols).any bad }, s1)
    match one with
    | (b, s1) =>
      if b.fault.isSome then (b, s1)
      else
        match State.gatherDrain c q n p v l x k (i + 1) s1 with
        | (b2, s2) => ({ fault := b2.fault, poison := b.poison || b2.poison }, s2)

/-- The index lists of the step's local tile: those staged, of this local tile or of the one before it if its A tile stays in place (R373), or
read now. -/
def State.gatherLists (s : State) (c : Cmd) (n : Nat) (r : Runner) (y : BayTile) (v : Visit) (lt : LocTile) (x : Ext) : List RdOut × State :=
  let b := s.bucketOf c
  let stays (l : LocalTile) : Bool :=
    decide (l.loc = v.loc) || (decide (l.loc + 1 = v.loc) && match (b.locTiles y)[l.loc]? with | some k => b.keepsA k lt | none => false)
  match r.loaded.find? stays with
  | some l => (l.a, s)
  | none => State.readRows c.vd { slice := n } ((c.ref 0x20).add (4 * v.k0)) (4 * c.bagLen) (4 * (v.kEnd - v.k0)) x lt.rows lt.m0 s

/-- One level-1 step of a gather. -/
def State.gatherStep (s : State) (q n : Nat) (c : Cmd) (t : Task) (r : Runner) (x : Ext) : State :=
  let p := s.planOf c
  match (s.stepsOf r c t)[r.visit]?, (s.bayTiles c t)[r.bay]? with
  | some v, some y =>
    match ((s.bucketOf c).locTiles y)[v.loc]? with
    | none => s
    | some lt =>
      match s.gatherLists c n r y v lt x with
      | (all, s1) =>
        let lists := (all.drop (v.m0 - lt.m0)).take v.rows
        let stop (s : State) (f : Status × Nat) : State := (s.dropRunner n).taskFault q n f
        match lists.findSome? (·.fault) with
        | some f => stop s1 f
        | none =>
          let key := tileKey v.m0 v.n0
          let l0 := (r.live.find key).getD (LiveTile.gather v.rows v.cols)
          let order := (List.range v.rows).flatMap fun i => (List.range (v.kEnd - v.k0)).map fun k => (i, v.k0 + k)
          match State.gatherEntries c p n v lists x order l0 s1 with
          | (.error f, s2) => stop s2 f
          | (.ok l, s2) =>
            let r1 : Runner := { r with visit := r.visit + 1, loaded := [{ loc := v.loc, a := all }] }
            if !v.last then s2.setRunner n { r1 with live := r.live.put key l }
            else
              match State.gatherDrain c q n p v l x v.rows 0 s2 with
              | (b, s3) =>
                match b.fault with
                | some f => stop s3 f
                | none =>
                  let s4 := s3.modTask q n fun t => { t with done := t.done + 1, poison := t.poison || b.poison }
                  let r2 : Runner := { r1 with live := r.live.del key }
                  if (s4.stepsOf r2 c t).length ≤ r2.visit then s4.endBay n r2 c t else s4.setRunner n r2
  | _, _ => s

/-- EMB_GATHER: the next bay tile starts, or the next step of the one at work runs. -/
def execEmbGather (cmd slice : Nat) (x : Ext) (s : State) : Res :=
  match s.cmd? cmd with
  | none => .next s
  | some c =>
    match s.taskOn cmd c slice with
    | none => .next s
    | some t =>
      if c.opcode ≠ 0x38 then .next s
      else if t.cancel then .next ((s.dropRunner slice).modTask cmd slice fun t => { t with fin := some cancelFin })
      else
        match s.runners.find slice with
        | none => .next ((s.startBay cmd slice c t).readDescs cmd slice c)
        | some r => .next (s.orWait x.pick fun s => s.gatherStep cmd slice c t r x)

end Sys2Proof.Machine
end

