-- ==== Sys2Proof/Machine/Flume.lean ====
section
/-! DEFINITION. The Flume: runs (R397, R398, R401), the periods of a timetable (R391-R395, R399, R400, R402-R404); and the Races'
arbitration (R407, R408). -/
namespace Sys2Proof.Machine

/-! ### The timetable of a run -/

/-- R393: the variant of a run's anchor. -/
def FlumeRec.variant (f : FlumeRec) (anchor : Nat) : FlumeVariant :=
  f.variants.getD (if f.variants.length = 8 then anchor else 0) { participants := 0, dest := 0, entries := [] }

/-- A flit (R391): 16 lanes of 32 bits and a poison mask by 32 B sector; none is a null flit. -/
abbrev Flit := Option (List Nat × Nat)

/-- The elements of a format in a 32-bit lane (Table 07-6), added one by one: the lane, and the elements that became the canonical NaN and that
clamped. -/
def laneAdd (fmt a b : Nat) : Nat × Nat × Nat :=
  let w := 8 * redSize fmt
  (List.range (32 / w)).foldl (fun acc i =>
    let (x, na, sa) := redElem fmt (field a (w * i) w) (field b (w * i) w)
    (acc.1 + x * 2 ^ (w * i), acc.2.1 + b2n na, acc.2.2 + b2n sa)) (0, 0, 0)

/-- R403, R400: ADD of two flits in the format of the record. -/
def Flit.add (fmt : Nat) (a b : Flit) : Flit :=
  match a, b with
  | none, y => y
  | x, none => x
  | some (u, p), some (v, q) => some ((u.zip v).map fun e => (laneAdd fmt e.1 e.2).1, p ||| q)

/-- R207: what an ADD counts: canonical NaNs and clamps. -/
def Flit.counts (fmt : Nat) (a b : Flit) : Nat × Nat :=
  match a, b with
  | some (u, _), some (v, _) => (u.zip v).foldl (fun n e => (n.1 + (laneAdd fmt e.1 e.2).2.1, n.2 + (laneAdd fmt e.1 e.2).2.2)) (0, 0)
  | _, _ => (0, 0)

/-- The router that a port of a router leads to, and the port it arrives at (R391): 1 N, 2 E, 3 S, 4 W. -/
def flumeHop (router port : Nat) : Nat × Nat :=
  match port with
  | 1 => (router - 4, 3)
  | 2 => (router + 1, 4)
  | 3 => (router + 4, 1)
  | _ => (router - 1, 2)

/-- What a period does: the flits on links by cycle, router and port, how many flits each position has supplied, the flits delivered, and
by router the NaNs and clamps of its additions. -/
structure FlumeSim where
  wires : Tab (List Nat × Nat) := []
  taken : Tab Nat := []
  delivered : List (Nat × Flit) := []
  counts : Tab (Nat × Nat) := []
  deriving DecidableEq, Repr

def wireKey (cycle router port : Nat) : Nat := (cycle * 8 + router) * 8 + port

/-- One entry acts (R394, R400). -/
def FlumeSim.act (fmt : Nat) (supply : Nat → Nat → Flit) (m : FlumeSim) (e : FlumeEntry) : FlumeSim :=
  let k := m.taken.getD e.router 0
  let own := supply e.router k
  let arrived : Flit := m.wires.find (wireKey e.cycle e.router e.inp)
  let f : Flit := if e.inp = 0 then own else if e.add then Flit.add fmt arrived own else arrived
  let n := if e.inp ≠ 0 ∧ e.add then Flit.counts fmt arrived own else (0, 0)
  let old := m.counts.getD e.router (0, 0)
  let m0 := if n = (0, 0) then m else { m with counts := m.counts.put e.router (old.1 + n.1, old.2 + n.2) }
  let m1 := if e.inp = 0 ∨ e.add then { m0 with taken := m.taken.put e.router (k + 1) } else m0
  (List.range 5).foldl (fun (m : FlumeSim) o =>
    if !bit e.out o then m
    else if o = 0 then { m with delivered := m.delivered ++ [(e.router, f)] }
    else
      match f with
      | none => m
      | some x => { m with wires := m.wires.put (wireKey (e.cycle + 1) (flumeHop e.router o).1 (flumeHop e.router o).2) x }) m1

/-- A whole period; the delays of slips change nothing in it (R404). -/
def FlumeVariant.run (v : FlumeVariant) (fmt : Nat) (supply : Nat → Nat → Flit) : FlumeSim :=
  v.entries.foldl (FlumeSim.act fmt supply) {}

/-- R399: a partial tile as flits, in element order. -/
def Shadow.flit (p : Plan) (sh : Shadow) (k : Nat) : Flit :=
  let n := sh.vals.length
  if n ≤ 16 * k then none
  else some ((List.range 16).map fun i => if 16 * k + i < n then p.partialVal sh (16 * k + i) else 0, if sh.poison then 3 else 0)

/-! ### Runs -/

def State.flumeOf (s : State) (d : Nat) : Flume := s.flume.getD d {}
def State.setFlume (s : State) (d : Nat) (f : Flume) : State := { s with flume := s.flume.setD d {} f }

/-- R73: work for a die's Flume or Race opens its clock gate. -/
def State.dieClockOn (s : State) (d : Nat) : State := { s with power := { s.power with flumes := s.power.flumes.erase d } }

/-- The command still has work in the run. -/
def State.runAlive (s : State) (r : FlumeRun) : Bool :=
  match s.cmd? r.cmd with
  | some c => (!c.tasks.isEmpty || !c.uncreated.isEmpty) && c.engineFin.isNone
  | none => false

/-- A task of a waiting run is RUNNING: an earlier run of its command has started it. -/
def State.runBegun (s : State) (g : FlumeRun) : Bool :=
  match s.cmd? g.cmd with
  | some c => (s.runSlices g).any fun n => (c.runningOn n).isSome
  | none => false

/-- FLUME_RUN_GRANT (R398): a waiting run takes the Flume of a die; runs of ended commands have left. A run whose tasks run already comes before the
others, for its tasks hold their slices until it has been served (notes/assumptions/55.md). -/
def execFlumeRunGrant (die pick : Nat) (s : State) : Res :=
  let f := s.flumeOf die
  let ws := f.waiting.filter s.runAlive
  let begun := ws.filter s.runBegun
  let from_ := if begun.isEmpty then ws else begun
  match f.run with
  | some _ => .next s
  | none =>
    match f.arb.choose (from_.map fun r => s.ask r.vd) pick with
    | some (i, a) => .next ((s.dieClockOn die).setFlume die { f with run := from_[i]?, waiting := match from_[i]? with | some g => ws.erase g | none => ws, arb := a })
    | none => .next (s.setFlume die { f with waiting := ws })

/-- Every task of the run is RUNNING, or for a later period was. -/
def State.runStarted (s : State) (r : FlumeRun) (c : Cmd) : Bool :=
  decide (0 < r.periods) || (s.runSlices r).all fun n => c.tasks.any fun t => decide (t.slice = n) && decide (t.st = .running)

/-- The slice that holds position `pos` of a die's run (R392: a retired position's buddy). -/
def State.runSlice (s : State) (die pos : Nat) : Nat := s.liveSlice (die * 8 + pos)

/-- R399: the partial that K part `i` of a run supplies next: from its crossing, or from its slice's shadow set. -/
def State.supplyOf (s : State) (die : Nat) (g : FlumeRun) (c : Cmd) (i : Nat) : Option Shadow :=
  let pos := g.anchor ^^^ i
  match g.queued.getD pos [] with
  | sh :: _ => some sh
  | [] =>
    match s.runners.find (s.runSlice die pos) with
    | some r =>
      match r.shadow, c.runningOn (s.runSlice die pos) with
      | some sh, some t =>
        if r.cmd = g.cmd ∧ !sh.supplied ∧ s.partOf r c t = i ∧ (s.runOf (s.runSlice die pos) g.cmd c sh).isSome then some sh else none
      | _, _ => none
    | none => none

/-- R399: the periods of a run: the accumulator tiles of one bay tile (REDUCE), or the X local tiles of the anchor's task. -/
def State.runPeriods (s : State) (die : Nat) (g : FlumeRun) (c : Cmd) : Nat :=
  let b := s.bucketOf c
  if g.reduce then
    let rows := min b.mb (c.mM - g.row * b.mb)
    let cols := min b.nb (c.mN - g.cb * b.nb)
    ((List.range (cdiv rows b.ml)).map fun i => cdiv (min b.ml (rows - i * b.ml)) b.mt).foldl (· + ·) 0
      * ((List.range (cdiv cols b.nl)).map fun i => cdiv (min b.nl (cols - i * b.nl)) b.nt).foldl (· + ·) 0
  else
    match c.tasks.find? fun t => decide (t.slice = s.runSlice die g.anchor) with
    | none => 0
    | some t =>
      let loads (y : BayTile) : Nat :=
        let ls := b.locTiles y
        ((List.range ls.length).filter (b.loadsX ls)).length
      ((s.bayTiles c t).map loads).foldl (· + ·) 0

/-- What the destination receives of a period: the sums in element order and whether any is poisoned. An element that no flit
carries is open. -/
def flumeSums (ctr n : Nat) (fs : List (Nat × Flit)) : List Nat × Bool :=
  let ys := fs.map (·.2)
  ((List.range n).map fun i =>
    match ys[i / 16]? with
    | some (some (xs, _)) => xs.getD (i % 16) 0
    | _ => leNat ((List.range 4).map fun k => Config.freeByte ctr (4 * i + k)),
   ys.any fun f => match f with | some (_, p) => decide (p ≠ 0) | none => false)

/-- A supplied partial leaves its crossing or is marked in its shadow set. -/
def State.supplyTaken (s : State) (die : Nat) (g : FlumeRun) (i : Nat) : State :=
  let pos := g.anchor ^^^ i
  match (s.flumeOf die).run, g.queued.getD pos [] with
  | some h, _ :: rest => s.setRun die (some { h with queued := h.queued.setD pos [] rest })
  | _, _ =>
    match s.runners.find (s.runSlice die pos) with
    | some r => s.setRunner (s.runSlice die pos) { r with shadow := r.shadow.map fun sh => { sh with supplied := true } }
    | none => s

/-- One period of a REDUCE run. -/
def State.reducePeriod (s : State) (die : Nat) (g : FlumeRun) (c : Cmd) (fmt : Nat) (v : FlumeVariant) : State :=
  let p := s.planOf c
  let j := p.parts (s.bucketOf c) c.mK
  let parts := (List.range j).map fun i => s.supplyOf die g c i
  match parts with
  | some d :: _ =>
    if parts.any (·.isNone) then s
    else
      let at_ (router k : Nat) : Flit :=
        match (parts[router ^^^ g.anchor]?).bind id with
        | some sh => if bit v.participants router then sh.flit p k else none
        | none => none
      let m := v.run fmt at_
      let (sums, bad) := flumeSums s.freeCtr d.vals.length m.delivered
      let adj := parts.foldl (fun a o => max a ((o.map (·.adj)).getD 0)) 0
      -- each slice counts the conversions of its partial (R342), and the NaNs of its router's additions (R207)
      let s0 := m.counts.foldl (fun s e => (s.countNan (s.runSlice die e.1) e.2.1).countSat (s.runSlice die e.1) e.2.2) { s with freeCtr := s.freeCtr + 1 }
      let s1 := (List.range j).foldl (fun s i =>
        (s.supplyTaken die g i).countCvt (s.runSlice die (g.anchor ^^^ i)) ((parts.getD i none).elim 0 p.partialSat) 0) s0
      let n := s1.runSlice die g.anchor
      match s1.runners.find n with
      | some r =>
        let sat := parts.any fun o => (o.map (·.sat)).getD false
        (s1.setRunner n { r with shadow := r.shadow.map fun sh => { sh with sums := some sums, adj := adj, sat := sat, poison := sh.poison || bad } })
      | none => s1
  | _ => s

/-- A participant that still loads X in its bay tile, or has more bay tiles to come. -/
def State.wantsX (s : State) (c : Cmd) (n : Nat) : Option Bool :=
  match c.runningOn n with
  | none => none
  | some t =>
    match s.runners.find n with
    | none => some false
    | some r =>
      match (s.bayTiles c t)[r.bay]? with
      | none => none
      | some y =>
        let ls := (s.bucketOf c).locTiles y
        let left := (List.range ls.length).filter fun i => decide (r.next ≤ i) && (s.bucketOf c).loadsX ls i
        if r.xin.length < left.length then some (decide (r.xin.length < 2))
        else if r.bay + 1 < (s.bayTiles c t).length then some false else none

/-- The slices that a MULTICAST run delivers to: its tasks' but the anchor's. -/
def State.receivers (s : State) (die : Nat) (g : FlumeRun) : List Nat := (s.runSlices g).filter fun n => decide (n ≠ s.runSlice die g.anchor)

/-- R402: what a router delivers of a tile that the anchor supplies in stored order, 64 bytes a flit: the flits in the order in which they come.
Bytes of the tile that no flit brings are open. -/
def FlumeVariant.tileAt (v : FlumeVariant) (anchor router ctr : Nat) (xs : List RdOut) : Option (List RdOut) :=
  let bs : PBytes := xs.flatMap fun r => pbytes r.bytes r.poison
  let n := cdiv bs.length 64
  let got := ((v.run 0 fun r k => if r = anchor ∧ k < n then some ([k], 0) else none).delivered.filter fun e => decide (e.1 = router)).filterMap (·.2)
  let order := got.map fun f => f.1.headD 0
  if order.isEmpty then none
  else if order = List.range n then some xs
  else
    let byte (i : Nat) : Byte × Bool :=
      match order[i / 64]? with
      | some k => bs.getD (64 * k + i % 64) (Config.freeByte ctr i, false)
      | none => (Config.freeByte ctr i, false)
    some (xs.foldl (fun (acc : Nat × List RdOut) r =>
      let mine := (List.range r.bytes.length).map fun i => byte (acc.1 + i)
      (acc.1 + r.bytes.length, acc.2 ++ [{ r with bytes := mine.map (·.1), poison := mine.any (·.2) }])) (0, [])).2

/-- One period of a MULTICAST run (R402): the tile reaches every slice that the timetable delivers to. -/
def State.multicastPeriod (s : State) (die : Nat) (g : FlumeRun) (c : Cmd) (v : FlumeVariant) : State :=
  match g.supply with
  | [] => s
  | xs :: rest =>
    let s1 := { s with freeCtr := s.freeCtr + 1 }.setRun die (some { g with supply := rest })
    (s.receivers die g).foldl (fun s1 n =>
      match s1.runners.find n, v.tileAt g.anchor (n % 8) s.freeCtr xs with
      | some r, some ys => if s1.wantsX c n = some true then s1.setRunner n { r with xin := r.xin ++ [ys] } else s1
      | _, _ => s1) s1

/-- R401: a participant has ended, or can supply no more, before the run has its supply. -/
def State.runBroken (s : State) (die : Nat) (g : FlumeRun) : Bool :=
  match s.cmd? g.cmd with
  | none => true
  | some c =>
    let gone (n : Nat) : Bool := !(c.tasks.any fun t => decide (t.slice = n)) && !(c.uncreated.any fun u => decide (u.1 = n))
    let stopping (n : Nat) : Bool := match s.runners.find n with | some r => decide (r.cmd = g.cmd) && r.stop.isSome | none => false
    let left (n : Nat) : Bool := gone n || stopping n
    if g.reduce then
      ((s.runSlices g).any fun n => left n)
        && (List.range ((s.planOf c).parts (s.bucketOf c) c.mK)).any fun i => left (s.runSlice die (g.anchor ^^^ i)) && (s.supplyOf die g c i).isNone
    else
      let a := s.runSlice die g.anchor
      let fin := match c.tasks.find? fun t => decide (t.slice = a) with | some t => t.fin.isSome | none => true
      let total := if g.periods = 0 then s.runPeriods die g c else g.total
      left a || fin && decide (g.periods + g.supply.length < total)

/-- Every participant of a run is ready for its next period (R399). -/
def State.runReady (s : State) (die : Nat) (g : FlumeRun) (c : Cmd) : Bool :=
  s.runStarted g c && !s.runBroken die g &&
    if g.reduce then (List.range ((s.planOf c).parts (s.bucketOf c) c.mK)).all fun i => (s.supplyOf die g c i).isSome
    else !g.supply.isEmpty && !((s.receivers die g).any fun n => decide (s.wantsX c n = some false))

/-- FLUME_PERIOD_START (R399, R404): every participant is ready and the period runs; `wait` and `slips` are the cycles measured. -/
def execFlumePeriodStart (die wait slips : Nat) (s : State) : Res :=
  match (s.flumeOf die).run with
  | none => .next s
  | some g =>
    match s.cmd? g.cmd with
    | none => .next s
    | some c =>
      match s.img.flumes.find (s.planOf c).flume with
      | none => .next s
      | some rec =>
        if !s.runReady die g c then .next s
        else
          let v := rec.variant g.anchor
          let total := if g.periods = 0 then s.runPeriods die g c else g.total
          let s1 := if g.reduce then s.reducePeriod die g c rec.fmt v else s.multicastPeriod die g c v
          let f := s1.flumeOf die
          .next (s1.setFlume die { f with
            run := f.run.map fun h => { h with periods := h.periods + 1, total := total, slips := h.slips + slips }
            slip := f.slip + BitVec.ofNat 32 slips
            wait := f.wait + BitVec.ofNat 32 wait })

/-- R401: a tile whose sums will not come is discarded; a stop that waited for it takes effect, and a cancelled task that waited for it alone ends. -/
def State.dropUnsummed (s : State) (n q : Nat) : State :=
  match s.runners.find n, s.cmd? q with
  | some r, some c =>
    match r.shadow, c.runningOn n with
    | some sh, some t =>
      if r.cmd = q ∧ sh.sums.isNone then
        let last := r.cur.isNone && decide ((s.stepsOf r c t).length ≤ r.visit)
        s.shadowFree n { r with shadow := none, stop := if t.cancel && last && r.stop.isNone then some cancelFin else r.stop } c t
      else s
    | _, _ => s
  | _, _ => s

/-- The run of a die's Flume is over: it completed, or it ends early (R401, R409). -/
def State.runOver (s : State) (die : Nat) (g : FlumeRun) (early : Bool) : State :=
  let f := s.flumeOf die
  (s.setFlume die { f with run := none, runs := if early then f.runs else f.runs + 1, ended := if early then f.ended + 1 else f.ended }).gaugeEvent 0x31 die none g.slips

/-- FLUME_RUN_END (R401): the run completes, or ends early; `wait` are the cycles measured since its last period. -/
def execFlumeRunEnd (die : Nat) (s : State) (wait : Nat := 0) : Res :=
  let f := s.flumeOf die
  match f.run with
  | none => .next s
  | some g =>
    if decide (0 < g.periods) && decide (g.total ≤ g.periods) then .next (s.runOver die g false)
    else if s.runBroken die g then
      let s1 := (s.setFlume die { f with wait := f.wait + BitVec.ofNat 32 wait }).runOver die g true
      .next (if g.reduce then (s.runSlices g).foldl (fun s n => s.dropUnsummed n g.cmd) s1 else s1)
    else .next s

/-! ### The Races (R407) -/

/-- The classes of R407 in the order of their priority: RSP, DAT, SNP, CTL, REQ. -/
def raceTop (ms : List RaceMsg) : Nat := ms.foldl (fun a m => min a m.cls) 5

/-- R407: a grant of class `k` at an output port: for each class the grants to higher classes in a row while it waits. -/
def Race.granted (r : Race) (out k : Nat) (ms : List RaceMsg) : Race :=
  { r with
    higher := (List.range 5).foldl (fun (t : Tab Nat) c =>
      t.setD (out * 8 + c) 0 (if k < c ∧ ms.any (fun m => decide (m.cls = c)) then t.getD (out * 8 + c) 0 + 1 else 0)) r.higher
    used := r.used.setD (out * 8 + k) 0 (r.used.getD (out * 8 + k) 0 + 1) }

/-- R407: the message that an output port grants among those that wait for it and whose class has a credit of the receiver. -/
def Race.choose (r : Race) (out : Nat) (ms : List RaceMsg) : Option (RaceMsg × Race) :=
  let top := raceTop ms
  match ms.find? fun m => decide (16 ≤ r.higher.getD (out * 8 + m.cls) 0) with
  | some m => some (m, { r.granted out m.cls ms with low := r.low + 1 })
  | none =>
    let last := r.last.getD (out * 8 + top) 0
    let tier := ms.filter fun m => decide (m.cls = top)
    -- round robin: the first waiting input port after the one granted last
    let key (m : RaceMsg) : Nat := (m.inp + 32 - last % 32 - 1) % 32
    match tier.foldl (fun (a : Option RaceMsg) m => match a with | none => some m | some b => if key m < key b then some m else some b) none with
    | some m => some (m, { r.granted out top ms with last := r.last.setD (out * 8 + top) 0 m.inp })
    | none => none

/-- R406: the ports of a Race. Of a die Race: the slices, the Leat uplink, the pennant unit. Of the central Race, in the order of Table 15-4: Leat links,
CXL ports, HyhanLink ports (four of them on FX288-A), the engines, the management island, clock and power control. -/
def State.racePort (s : State) (race p : Nat) : Bool :=
  if race < 8 then decide (p < 10) else decide (p < 12 + s.hylPorts) || (decide (20 ≤ p) && decide (p < 23))

/-- R390, Table 15-1: the Races carry a message of its class (R407) between these ports. -/
def RaceMsg.carried (m : RaceMsg) (race : Nat) : Bool :=
  match m.traffic with
  | .coherence => decide (race < 8) && decide (m.inp < 8) && decide (m.out < 8) && decide (m.cls ≠ 3) && decide (m.cls < 5)
  | .offDie => decide (m.cls < 5) && if race < 8 then decide (m.inp = 8) || decide (m.out = 8) else decide (m.inp < 8) || decide (m.out < 8)
  | .cxl => decide (m.cls < 5) && if race < 8 then decide (m.inp = 8) || decide (m.out = 8)
      else (decide (8 ≤ m.inp) && decide (m.inp < 12)) || (decide (8 ≤ m.out) && decide (m.out < 12))
  | .hyhanLink => decide (m.cls < 5) && if race < 8 then decide (m.inp = 8) || decide (m.out = 8)
      else (decide (12 ≤ m.inp) && decide (m.inp < 20)) || (decide (12 ≤ m.out) && decide (m.out < 20))
  | _ => decide (m.cls = 3)

/-- Credits of a class that a receiver has returned. -/
def Race.returned (r : Race) (out : Nat) (credits : List Nat) : Race :=
  { r with used := credits.foldl (fun (t : Tab Nat) c => t.setD (out * 8 + c) 0 (t.getD (out * 8 + c) 0 - 1)) r.used }

def State.setRace (s : State) (i : Nat) (r : Race) : State := { s with races := s.races.setD i {} r }

/-- RACE_GRANT (R407, R408): the messages that have arrived for an output port join its queue in order, and one of a class with a credit is granted. A
die that is off has no Race (R37, R515). -/
def execRaceGrant (race out : Nat) (arrived : List RaceMsg) (s : State) (credits : List Nat := []) : Res :=
  if (race < 8 ∧ (s.die race).st ≠ .active) ∨ ¬ s.racePort race out then .next s else
  let r0 : Race := (s.races.getD race {}).returned out credits
  let new := (arrived.map fun m => { m with out := out }).filter fun m => s.racePort race m.inp && m.carried race
  let r : Race := { r0 with waiting := r0.waiting ++ new }
  let room (c : Nat) : Bool := decide (r.used.getD (out * 8 + c) 0 < Config.raceCredits race c + 1)
  match r.choose out (r.waiting.filter fun m => decide (m.out = out) && room m.cls) with
  | some (m, r1) => .next ((s.dieClockOn race).setRace race { r1 with waiting := r1.waiting.erase m })
  | none => .next (s.setRace race r)

end Sys2Proof.Machine
end

