-- ==== Sys2Proof/Machine/DaxEnd.lean ====
section
/-! DEFINITION. Termination of tasks and commands (Table 11-10, R305, R306, R308), and the expansion of SERVICE (R498). -/
namespace Sys2Proof.Machine

/-! ### Tasks -/

/-- R357: what a plan's task tells its slice's spill loop. -/
def State.spillNote (s : State) (c : Cmd) (t : Task) : State :=
  if !planOp c.opcode then s
  else
    let key := c.planNo * 64 + t.slice
    let l := (s.spill.find key).getD { k := (s.planOf c).spillK }
    { s with spill := s.spill.put key (if t.retried then { k := l.k, retried := true } else { k := l.k, quiet := l.quiet + 1 }) }

/-- A task slot of the VD is free again. -/
def State.freeSlot (s : State) (v : Nat) : State := s.modVd v fun x => { x with useTask := x.useTask - 1 }

/-- R492: the last task of an attention step has the partials still to fold. -/
def State.attnDue (c : Cmd) (t : Task) : Bool :=
  decide (c.opcode = 0x3A) && decide ((t.fin.getD {}).term = .done) && decide (c.tasks.length = 1) && c.uncreated.isEmpty && c.fault.isNone
    && !c.anyCancelled && !t.folded

/-- R492: the last task of an attention step folds the partials and drains OUT. -/
def State.attnLast (s : State) (q : Nat) (c : Cmd) (t : Task) (x : Ext) : State :=
  match s.attnFold c q t.slice (c.anyPoisoned || t.poison) x with
  | (b, s1) =>
    s1.modTask q t.slice fun u =>
      match b.fault with
      | some e => { u with folded := true, fin := some (faultFin e) }
      | none => { u with folded := true, poison := u.poison || b.poison, done := u.done + 1 }

/-- One task has terminated: its handles go, its command learns of it, and a fault stops the command's other tasks. Its slot is free, but
for the last that the command holds (R312). -/
def State.taskEnd (s : State) (q : Nat) (c : Cmd) (t : Task) (f : Fin) : State :=
  let s1 := t.held.foldl (fun s h => s.unref (handleKey h)) { s with ends := s.ends.filter fun e => decide (e.who.slice ≠ some t.slice) }
  let s2 := match s1.runners.find t.slice with | some r => if r.cmd = q then s1.dropRunner t.slice else s1 | none => s1
  let s3 := if t.st = .running then s2.spillNote c t else s2
  let s4 := if 2 ≤ c.tasks.length then s3.freeSlot c.vd else s3
  let first := f.term = .faulted ∧ c.fault.isNone
  s4.modCmd q fun c =>
    let rest := c.tasks.filter fun u => decide (u.slice ≠ t.slice) || u.fin.isNone
    { c with
      tasks := if first then rest.map Task.cancelled else rest
      uncreated := if first then [] else c.uncreated
      fault := if first then some f else c.fault
      anyCancelled := c.anyCancelled || decide (f.term = .cancelled)
      anyPoisoned := c.anyPoisoned || t.poison
      unitsSum := c.unitsSum + t.done }

/-! ### Commands -/

/-- How a command whose tasks have all terminated ends (Table 11-10). -/
def Cmd.outcome (c : Cmd) : Done × Nat :=
  match c.engineFin with
  | some f => ({ term := f.term, status := if c.anyPoisoned ∧ f.status = .ok then .poisoned else f.status, units := c.unitsSum, result := if f.term = .faulted then f.addr else c.result }, f.addr)
  | none =>
    match c.fault with
    | some f => ({ term := .faulted, status := f.status, units := c.unitsSum, result := f.addr }, f.addr)
    | none =>
      if c.anyCancelled then ({ term := .cancelled, status := .cancelled, units := c.unitsSum }, 0)
      else if c.opcode = 0x12 then
        let bad := decide (c.result ≠ compareNone) && decide (c.result % 2 = 0)
        ({ term := .done, status := if bad then .poisoned else .ok, result := if bad then 0 else c.result / 2 }, 0)
      else
        ({ term := .done, status := if c.anyPoisoned then .poisoned else .ok, units := c.unitsSum
           result := if c.opcode = 0x13 then c.result else 0 }, 0)

/-- R306: the record that a termination posts. The owner of another VD's buffer is told to management only. -/
def State.endRecord (s : State) (c : Cmd) (d : Done) (x : Ext) : State :=
  let r : Rec := { cls := .taskFault, tagged := true, status := d.status.code, vd := c.vd, opcode := c.opcode, tag := c.tag, stream := c.stream,
                   addr := d.result, detail := d.result }
  if d.status = .notOwner ∨ d.status = .staleHandle then s.postVd c.vd { r with cls := .misuse, addr := 0, detail := 0 } x
  else if d.term = .faulted then (s.postVd c.vd r x).post { r with addr := 0 }
  else s

/-- R265, R308: a command terminates: signal, record, interrupt; then its slot is free. After a VD reset it leaves no record. -/
def State.cmdEnd (s : State) (q : Nat) (c : Cmd) (x : Ext) : State :=
  let (d0, _) := c.outcome
  let d := if d0.status = .notOwner then { d0 with result := if d0.term = .faulted then 0 else d0.result } else d0
  let w := s.withdrawCmd q c
  let gone := ({ w with dax := { w.dax with cmds := w.dax.cmds.del q } }).gaugeEvent 0x03 c.ring (some c.vd) (w.now - c.readAt)
  let s0 := if c.slot then gone.freeSlot c.vd else gone
  if c.epoch ≠ (s.vd c.vd).epoch then gone
  else
    let op := if c.svc then 0x48 else c.opcode
    let s1 := if c.signalPen ≠ 0xFFFF ∧ (c.sigAlways ∨ d.status = .ok) then s0.terminationSignal c.vd c.signalPen c.sigInc else s0
    let s2 := if d.status = .ok then s1 else s1.streamFailed c.vd c.stream q
    let s3 := (if d.status = .staleHandle then s2.modVd c.vd fun y => { y with staleCnt := y.staleCnt + 1 } else s2).endRecord c d x
    let s4 := s3.modRing c.vd c.ring fun r => { r with reserved := r.reserved - 1, inFlight := r.inFlight - 1 }
    if c.quiet ∧ d.status = .ok then s4 else s4.putRecord c.vd c.ring c.irq c.tag op c.stream d x

/-- A command with no task left terminates. -/
def State.cmdEndIfDone (s : State) (q : Nat) (x : Ext) : State :=
  match s.cmd? q with
  | some c => if c.tasks.isEmpty && c.uncreated.isEmpty then s.cmdEnd q c x else s
  | none => s

/-- One task that has ended, with its writes performed (R239): the last of an attention step folds first, which is a write of its own. -/
def State.terminate (s : State) (q slice : Nat) (x : Ext) : State :=
  match s.cmd? q with
  | none => s
  | some c =>
    match c.tasks.find? fun t => decide (t.slice = slice) && t.fin.isSome with
    | none => s
    | some t => if s.released q then (s.taskEnd q c t (t.fin.getD {})).cmdEndIfDone q x else s

/-- TASK_TERMINATE (R239, R307, R308): a task of the command on a slice, or with slice 255 the command itself where it has no task.
From step 3 of a warm reset on, no command signals or leaves a record (R67). -/
def State.taskTerminate (s : State) (cmd slice : Nat) (x : Ext) : State :=
  if 3 ≤ s.boot.warm then s
  else
    match s.cmd? cmd with
    | none => s
    | some c =>
      if slice = 255 then (if c.engineFin.isSome && s.released cmd then s.cmdEndIfDone cmd x else s)
      else
        match c.tasks.find? fun t => decide (t.slice = slice) && t.fin.isSome with
        | none => s
        | some t =>
          if !s.released cmd then s
          else if State.attnDue c t then (s.attnLast cmd c t x).terminate cmd slice x
          else s.terminate cmd slice x

def execTaskTerminate (cmd slice : Nat) (x : Ext) (s : State) : Res := .next (s.orWait x.pick fun s => s.taskTerminate cmd slice x)

/-- SERVICE (R498): an undecoded SERVICE command is decoded: its arguments go into the template, and it stands as the command
that results. -/
def execServiceCall (cmd : Nat) (s : State) : Res :=
  match s.cmd? cmd with
  | some c => if c.queued && !c.decoded && decide (c.opcode = 0x48) && s.startOk cmd c then .next (s.decode cmd c) else .next s
  | none => .next s

end Sys2Proof.Machine
end

