-- ==== Sys2Proof/Machine/Coherence.lean ====
section
/-!
DEFINITION. The commands of the slices and of coherence: requests of the device's own agents (Table 07-5), the messages of
Table 08-2 at the home and at the proxy (Tables 08-3 to 08-5), snoop timeouts and departures (R235, R236), and the outcomes of
remote operations (R461, R463-R465).
-/
namespace Sys2Proof.Machine

/-! ### Shared steps -/

/-- Every slice's registers that wait for a way or for snoop room try again. -/
def State.wakeAll (s : State) (pick : Nat) : State := (s.slices.map (·.1)).foldl (fun s n => s.wake n pick) s

/-- The register active on a line, with the slice that serves the line. -/
def State.register? (s : State) (gl : Nat) : Option (Nat × Miss) :=
  ((s.slice (s.sliceOf gl)).miss.find gl).map fun m => (s.sliceOf gl, m)

def State.putMiss (s : State) (n gl : Nat) (m : Miss) : State := s.modSlice n fun x => { x with miss := x.miss.put gl m }

/-- LOCAL_WRITE (R199). -/
def execLocalWrite (r : Req) (pick : Nat) (s : State) : Res := .next (s.localReq { r with op := .write, src := .loc } pick)

/-- LOCAL_REDUCTION (R206, R208): a reserved format is refused. -/
def execLocalReduction (r : Req) (pick : Nat) (s : State) : Res :=
  if 4 ≤ r.fmt then .next (s.send (.rsp r.tag .invalidField 0 0))
  else .next (s.localReq { r with op := .red, src := .loc } pick)

/-- SLICE_ATOMIC (R211, R212): a reserved code or width, or a misaligned target, is refused. -/
def execSliceAtomic (r : Req) (pick : Nat) (s : State) : Res :=
  if !atomicOk r.atop r.width r.off then .next (s.send (.rsp r.tag .invalidField 0 0))
  else .next (s.localReq { r with op := .atomic, src := .loc } pick)

/-! ### Fills and the memory controller -/

/-- A fill, or a no-allocate merge, returns from DRAM (R198, R202). -/
def State.fillReturn (s : State) (gl pick : Nat) : State :=
  match s.register? gl with
  | none => s
  | some (n, m) =>
    match m.req with
    | none => s
    | some r =>
      match m.phase with
      | .fill =>
        let s0 := s.gaugeEvent 0x05 n (if m.vd < 64 then some m.vd else none) (s.now - m.since)
        let s1 := s0.fillInto n gl pick m.way m.fill m.bulk
        (State.settle n gl pick m.waiters (s1.dataPhase n gl pick r m.keepDev m.keepHost)).wakeAll pick
      | .merge =>
        -- the sectors are read, and merged and written back to DRAM, without a frame
        (State.settle n gl pick m.waiters (s.finish n gl r m.keepDev m.keepHost)).wakeAll pick
      | _ => s

/-- DRAM_FILL_RETURN (R198). -/
def execDramFillReturn (line pick : Nat) (s : State) : Res := .next (s.fillReturn line pick)

/-- R213, R214: the controller has written the new value; the line is absent from the cache and in the state HOME. -/
def State.memAtomicDone (s : State) (gl pick : Nat) : State :=
  match s.register? gl with
  | none => s
  | some (n, m) =>
    match m.req, m.phase with
    | some r, .controller =>
      let old := ((readLine s.mem (lineOff gl)).extractLsb' (8 * r.off) r.width).toNat
      let bad := bit (poisonAt s.memPoison (lineOff gl)).toNat (r.off / 32)
      let s1 := (s.setDir (ownNum gl) {}).modSlice n fun y => { y with memAtomic := y.memAtomic + 1 }
      let mask := BitVec.ofNat 128 ((2 ^ (r.width / 8) - 1) * 2 ^ r.off)
      let s2 := if bad then s1 else (s1.countNan n (b2n (atomicNan r.atop old r.opA))).dramMerge (lineOff gl) mask (putField 0 (8 * r.off) r.width (atomicNew r.atop r.width old r.opA r.opB)) 0
      let s3 := s2.answer gl r (if bad then .poisoned else .ok) (BitVec.ofNat 1024 old) (if bad then 15 else 0) {}
      (State.settle n gl pick m.waiters (s3, none)).wakeAll pick
    | _, _ => s

/-- MEM_SIDE_ATOMIC_DONE (R214). -/
def execMemSideAtomicDone (line pick : Nat) (s : State) : Res := .next (s.memAtomicDone line pick)

/-! ### Requests from pool devices (Table 08-3) -/

def CohMsg.req (m : CohMsg) (op : ReqOp) : Req :=
  { op := op, src := .dev m.dev, vd := m.vd, tag := m.tag, line := m.line, bytes := m.bytes, data := m.data, pois := m.pois, fmt := m.fmt,
    emask := m.emask, atop := m.atop, width := m.width, off := m.off, opA := m.opA, opB := m.opB, qos := m.qos }

/-- A message for a line that this device homes. -/
def State.atHome (s : State) (m : CohMsg) : Bool := decide (lineDev m.line = s.pool.devnum) && decide (m.dev ≠ s.pool.devnum)

/-- R43, R219: a device number that the pool can have at the device's interface level. -/
def State.poolNumber (s : State) (d : Nat) : Bool := decide (d < if s.inv.level = 1 then 16 else 128)

/-- R68: peers' requests wait from step 2 of a warm reset on. -/
def State.peersWait (s : State) : Bool := decide (2 ≤ s.boot.warm)

def State.holdReq (s : State) (h : HeldReq) : State := { s with pool := { s.pool with heldReqs := s.pool.heldReqs ++ [h] } }

/-- A reduction or an atomic that the home refuses: its CMP says so, and for a posted one a record (R206, R212, R463). -/
def State.refusePeer (s : State) (m : CohMsg) (op : ReqOp) : State :=
  let s1 := if op = .red then s.deferredRecord (m.req op) .invalidField else s
  s1.send (.coh { op := .cmp, dev := m.dev, line := m.line, tag := m.tag, vd := m.vd, status := .invalidField })

/-- R206, R211, R212: the home refuses a reserved format, code or width, and a misaligned target. -/
def CohMsg.refused (m : CohMsg) (op : ReqOp) : Bool :=
  match op with
  | .red => decide (4 ≤ m.fmt)
  | .atomic => !atomicOk m.atop m.width m.off
  | _ => false

/-- A peer's request at its home. -/
def State.peerServe (s : State) (m : CohMsg) (op : ReqOp) (pick : Nat) : State :=
  if m.refused op then s.refusePeer m op else s.homeAccept (s.withAttrs (m.req op)) pick

def State.peerReq (s : State) (m : CohMsg) (op : ReqOp) (pick : Nat) : Res :=
  if s.atHome m && s.poolNumber m.dev then .next (if s.peersWait then s.holdReq (.coh m op) else s.peerServe m op pick) else .next s

def execRdS (m : CohMsg) (pick : Nat) (s : State) : Res := s.peerReq m .rdS pick
def execRdX (m : CohMsg) (pick : Nat) (s : State) : Res := s.peerReq m .rdX pick
def execUpg (m : CohMsg) (pick : Nat) (s : State) : Res := s.peerReq m .upg pick
def execRdNc (m : CohMsg) (pick : Nat) (s : State) : Res := s.peerReq m .rdNc pick
def execWrNc (m : CohMsg) (pick : Nat) (s : State) : Res := s.peerReq m .write pick
/-- RED (R206). -/
def execRed (m : CohMsg) (pick : Nat) (s : State) : Res := s.peerReq m .red pick
/-- ATOM (R211, R212). -/
def execAtom (m : CohMsg) (pick : Nat) (s : State) : Res := s.peerReq m .atomic pick

/-! ### Snoop answers at the home (R225, R228) -/

/-- An answer from a snooped device: it keeps a copy or not, its dirty sectors are merged first, and an RSP_NP with
WB_PENDING makes the home wait for the write-back unless that has already arrived. -/
def State.snoopAnswer (s : State) (msg : CohMsg) (keep : Bool) (dirty : Bool) (wait : Bool) (pick : Nat) : State :=
  match s.register? msg.line with
  | none => s
  | some (n, m) =>
    if m.phase = .snoop ∧ m.snpDev.contains msg.dev then
      let s1 := if dirty then s.mergeHome n msg.line pick msg.sec msg.data msg.pois else s
      let m1 := { m with snpDev := m.snpDev.erase msg.dev, keepDev := if keep then m.keepDev ++ [msg.dev] else m.keepDev,
                         wbDev := if wait && !m.wbSeen.contains msg.dev then m.wbDev ++ [msg.dev] else m.wbDev }
      (s1.answered n msg.line pick m1).wakeAll pick
    else s

def execRspI (m : CohMsg) (pick : Nat) (s : State) : Res := .next (s.snoopAnswer m false false false pick)
def execRspS (m : CohMsg) (pick : Nat) (s : State) : Res := .next (s.snoopAnswer m true false false pick)
def execRspE (m : CohMsg) (pick : Nat) (s : State) : Res := .next (s.snoopAnswer m true false false pick)

/-- RSP_NP (R228): the device's bit is cleared. -/
def execRspNp (m : CohMsg) (pick : Nat) (s : State) : Res :=
  match s.register? m.line with
  | some (n, r) =>
    if r.phase = .snoop ∧ r.snpDev.contains m.dev then
      .next (((s.modSlice n fun x => { x with dirStaleSnp := x.dirStaleSnp + 1 }).dropHolder (ownNum m.line) m.dev).snoopAnswer m false false m.wbPending pick)
    else .next s
  | none => .next s

def execDatI (m : CohMsg) (pick : Nat) (s : State) : Res := .next (s.snoopAnswer m false true false pick)
def execDatS (m : CohMsg) (pick : Nat) (s : State) : Res := .next (s.snoopAnswer m true true false pick)
def execDatE (m : CohMsg) (pick : Nat) (s : State) : Res := .next (s.snoopAnswer m true true false pick)

/-- GNT_ACK (R225). -/
def execGntAck (m : CohMsg) (pick : Nat) (s : State) : Res :=
  match s.register? m.line with
  | some (n, r) =>
    if r.phase = .grant ∧ r.gnt.contains m.dev then
      let gnt := r.gnt.erase m.dev
      if gnt.isEmpty then .next ((State.drain n m.line pick r.waiters s).wakeAll pick)
      else .next (s.putMiss n m.line { r with gnt := gnt })
    else .next s
  | none => .next s

/-- WB at the home (Table 08-3, Table 08-5, R230, R517): that of the recorded owner, or of a device whose write-back a transaction waits
for, is applied whatever the line is doing, and counts as the owner's snoop data. -/
def State.writeBack (s : State) (msg : CohMsg) (pick : Nat) : State :=
  let ack (s : State) : State := s.send (.coh { op := .wbAck, dev := msg.dev, line := msg.line, tag := msg.tag })
  let gl := msg.line
  if s.lostHome gl then ack (s.post { cls := .poisoned, addr := gl * 128, device := some msg.dev })
  else
    let n := s.sliceOf gl
    let e := s.dirEntry (ownNum gl)
    let owner := decide (e.st = .exclRemote) && bit e.sharers.toNat msg.dev
    let stale : State := ack (s.modSlice n fun x => { x with dirStaleWb := x.dirStaleWb + 1 })
    let merged : State := ack (s.mergeHome n gl pick msg.sec msg.data msg.pois)
    let apply : State := if owner then merged.setDir (ownNum gl) {} else merged
    match (s.slice n).miss.find gl with
    | some m =>
      if m.phase = .snoop ∧ (owner ∨ m.wbDev.contains msg.dev) then
        (apply.answered n gl pick { m with wbDev := m.wbDev.erase msg.dev, wbSeen := m.wbSeen ++ [msg.dev] }).wakeAll pick
      else if owner then apply.putMiss n gl { m with keepDev := m.keepDev.erase msg.dev }
      else stale
    | none => if owner then apply.wakeAll pick else stale

/-- WB (R230). -/
def execWb (m : CohMsg) (pick : Nat) (s : State) : Res := if s.atHome m then .next (s.writeBack m pick) else .next s

/-- R235: the home acts for a device whose answer will not come. DESIGN CHOICE (notes/assumptions/52.md): a write-back that RSP_NP with
WB_PENDING announced and that does not come is lost like an answer, and the line is poisoned. -/
def State.snoopLost (s : State) (gl dev pick : Nat) : State :=
  match s.register? gl with
  | none => s
  | some (n, m) =>
    if m.phase = .snoop ∧ (m.snpDev.contains dev ∨ m.wbDev.contains dev) then
      let e := s.dirEntry (ownNum gl)
      let s1 := if e.st = .exclRemote ∧ bit e.sharers.toNat dev ∨ m.wbDev.contains dev then s.poisonLine n gl else s
      let s2 := (s1.post { cls := .correctable, code := 1, addr := gl * 128, device := some dev, slice := n }).modSlice n fun x => { x with dirTimeout := x.dirTimeout + 1 }
      ((s2.dropHolder (ownNum gl) dev).answered n gl pick { m with snpDev := m.snpDev.erase dev, wbDev := m.wbDev.erase dev }).wakeAll pick
    else s

/-- SNOOP_TIMEOUT (R235): the 2 ms of a snoop have passed. -/
def execSnoopTimeout (line dev pick : Nat) (s : State) : Res := .next (s.snoopLost line dev pick)

/-- A transaction still waits for a departed device, whose answer runs to its timeout (R236). -/
def Miss.awaits (m : Miss) (dev : Nat) : Bool := m.snpDev.contains dev || m.wbDev.contains dev

/-- R236: a line's transaction forgets a departed device: what it was to keep, and a grant that it will not acknowledge. -/
def State.forgetDev (s : State) (n gl dev : Nat) : State :=
  match (s.slice n).miss.find gl with
  | none => s
  | some m =>
    let m1 := { m with keepDev := m.keepDev.erase dev, gnt := m.gnt.erase dev }
    if m.phase = .grant ∧ m1.gnt.isEmpty then State.drain n gl 0 m.waiters s else s.putMiss n gl m1

/-- R236: every entry of a slice's directory region that names a departed device, but for lines whose snoops to it are out. -/
def State.dirSweep (s : State) (n dev : Nat) : State :=
  let hit := s.dir.filter fun e => decide (s.dirSet e.1 / 2 ^ 20 = n) && bit e.2.sharers.toNat dev
  hit.foldl (fun s e =>
    let gl := s.ownLine e.1
    let hn := s.sliceOf gl
    if ((s.slice hn).miss.find gl).any fun m => m.awaits dev then s
    else
      let s1 := if e.2.st = DirState.exclRemote then s.poisonLine hn gl else s
      (s1.setDir e.1 (DirEntry.mk' e.2.st (e.2.sharers &&& ~~~ oneHot dev) e.2.hosts)).forgetDev hn gl dev) s

/-- No transaction on a line of the slice's region waits for the device, or serves a request of its own. -/
def State.sweepDone (s : State) (n dev : Nat) : Bool :=
  s.slices.all fun e => e.2.miss.all fun m => decide (lineDev m.1 ≠ s.pool.devnum) || decide (s.dirSet (ownNum m.1) / 2 ^ 20 ≠ n)
    || !(m.2.awaits dev || m.2.req.any fun r => r.fromDev dev)

/-- DIRECTORY_DEPARTURE_SWEEP (R236): slice `slice` sweeps for the departed device, and reports it complete once no transaction waits for
the device. -/
def execDirectoryDepartureSweep (slice dev : Nat) (s : State) : Res :=
  if s.pool.departed.contains dev then
    let s1 := s.dirSweep slice dev
    .next (if s1.sweepDone slice dev then
      { s1 with pool := { s1.pool with swept := if s1.pool.swept.contains (dev, slice) then s1.pool.swept else s1.pool.swept ++ [(dev, slice)] } }
    else s1)
  else .next s

/-! ### Snoops at the proxy (Table 08-4) -/

inductive SnpKind where
  | inv | data | cur
  deriving DecidableEq, Repr

/-- The way of a copy that an invalidation takes from an upgrade under way stays kept for its grant. -/
def State.keepWay (s : State) (n gl k : Nat) : State :=
  match (s.slice n).miss.find gl with
  | some m => if m.upgSent then s.putMiss n gl { m with way := some k } else s
  | none => s

/-- Table 08-4. A dirty copy that was lost with its die is answered by nothing, so that its home poisons the line (R235, R515). -/
def State.snooped (s : State) (msg : CohMsg) (kind : SnpKind) : State :=
  let gl := msg.line
  let n := s.proxySlice gl
  let rsp (op : CohOp) : CohMsg := { op := op, dev := msg.dev, line := gl, tag := msg.tag }
  let dat (op : CohOp) (f : Frame) : CohMsg := { rsp op with sec := f.d, data := f.data, pois := f.p &&& f.d }
  match (s.slice n).hit gl with
  | some (k, f) =>
    let dirty := decide (f.d ≠ 0)
    match kind, f.st with
    | .inv, _ => ((s.setFrame n k {}).keepWay n gl k).send (.coh (if dirty then dat .datI f else rsp .rspI))
    | .data, .re => (s.setFrame n k { f with st := .rs, d := 0 }).send (.coh (if dirty then dat .datS f else rsp .rspS))
    | .data, _ => s.send (.coh (rsp .rspS))
    | .cur, .re => (s.setFrame n k { f with d := 0 }).send (.coh (if dirty then dat .datE f else rsp .rspE))
    | .cur, _ => s.send (.coh (rsp .rspS))
  | none =>
    let wb := match (s.slice n).miss.find gl with | some m => decide (m.phase = .wb) | none => false
    if s.pool.lostCopies.contains gl then { s with pool := { s.pool with lostCopies := s.pool.lostCopies.erase gl } }
    else s.send (.coh { rsp .rspNp with wbPending := wb })

/-- A snoop for a line of the device that sent it. -/
def State.snoopCmd (s : State) (m : CohMsg) (kind : SnpKind) (pick : Nat) : Res :=
  if decide (lineDev m.line = m.dev) && decide (m.dev ≠ s.pool.devnum) then .next ((s.snooped m kind).wakeAll pick) else .next s

def execSnpInv (m : CohMsg) (pick : Nat) (s : State) : Res := s.snoopCmd m .inv pick
def execSnpData (m : CohMsg) (pick : Nat) (s : State) : Res := s.snoopCmd m .data pick
def execSnpCur (m : CohMsg) (pick : Nat) (s : State) : Res := s.snoopCmd m .cur pick

/-! ### Remote operations end (R460-R465) -/

/-- The first remote operation that a message answers. -/
def State.remoteAt (s : State) (f : RemoteOp → Bool) : Option (RemoteOp × State) :=
  match s.pool.remote.find? f with
  | none => none
  | some r => some (r, ({ s with pool := { s.pool with remote := s.pool.remote.erase r } }).gaugeEvent 0x06 r.dev (some r.who.vd) (s.now - r.sentAt))

/-- R172: the reply to an operation that a command of an old epoch made is discarded. -/
def State.oldReply (s : State) (r : RemoteOp) : Bool :=
  (decide (r.kind = .pen) || (r.who.cmd.isSome && !r.posted)) && decide (r.epoch ≠ (s.vd r.who.vd).epoch)

/-- R464, R465: the record of a posted write's outcome to the VD that it was made for. DESIGN CHOICE (notes/assumptions/52.md): ADDR is the
global address, as R464 names it, in the VD's ring too. -/
def State.postedRecord (s : State) (r : RemoteOp) (cls : RecClass) (st : Status) (x : Ext) : State :=
  let base : Rec := { cls := cls, status := st.code, device := some r.dev, addr := r.line * 128, vd := r.who.vd }
  let rec0 : Rec :=
    if r.tag = 0xFFFF then base
    else
      match s.pool.dep.find (r.tag % 4096) with
      | some e =>
        if e.gen.toNat = r.tag / 4096 ∧ e.vd = r.who.vd then
          if !e.earlier ∧ e.epoch = (s.vd e.vd).epoch then { base with tagged := true, tag := e.tag, stream := e.stream }
          else { base with earlier := true }
        else base
      | none => base
  let s1 := s.postVd r.who.vd rec0 x
  if r.tag = 0xFFFF then s1.event r.who.vd 2 { kind := .generalMedia, ty := .dataPath, trans := 2, dpa := r.who.va } else s1

/-- R179: an error record that the posted write was. -/
def State.recLost (s : State) (r : RemoteOp) : State := if r.who.errRec && decide (r.epoch = (s.vd r.who.vd).epoch) then s.recFailed r.who.vd r.who.va else s

/-- R464: a CMP reports that the home could not perform a posted write. -/
def State.deferredWrite (s : State) (r : RemoteOp) (st : Status) (x : Ext) : State :=
  let s1 := (s.recLost r).postedRecord r .deferredWrite st x
  { s1 with pool := { s1.pool with deferredCnt := s1.pool.deferredCnt + 1 } }

/-- R465: a posted write whose CMP will not arrive. -/
def State.unconfirmed (s : State) (r : RemoteOp) (x : Ext) : State :=
  let s1 := (s.recLost r).postedRecord r .writeUnconfirmed .deviceGone x
  { s1 with pool := { s1.pool with unconfirmedCnt := s1.pool.unconfirmedCnt + 1 } }

/-- The proxy's register of a line whose request got no copy: its request is answered, and its waiters are served. -/
def State.proxyFail (s : State) (gl pick : Nat) (st : Status) : State :=
  match s.register? gl with
  | none => s
  | some (n, m) =>
    match m.req, m.phase with
    | some r, .remote =>
      let s0 : State := match (s.slice n).hit gl with | some (k, _) => s.setFrame n k {} | none => s
      let s1 : State := match r.who with | some w => if r.op = ReqOp.read then { s0 with ends := s0.ends ++ [{ who := w, line := gl, st := st }] } else s0 | none => s0
      (State.settle n gl pick m.waiters (s1.answer gl r st 0 15 {}, none)).wakeAll pick
    | _, _ => s

/-- The register that a RD_NC held ends, and its line's waiters are served. -/
def State.ncDone (s : State) (r : RemoteOp) (pick : Nat) : State :=
  match s.register? r.line with
  | some (n, m) =>
    if m.phase = .remote ∧ (m.req.any fun q => decide (q.tag = r.rtag) && decide (q.src = r.src)) then
      (State.settle n r.line pick m.waiters (s, none)).wakeAll pick
    else s
  | none => s

/-- R461: a memory operation that timed out, was returned or whose device departed. The operation is off the list. -/
def State.remoteFailed (s : State) (r : RemoteOp) (x : Ext) : State :=
  match r.op with
  | .rdS => s.proxyFail r.line x.pick .deviceGone
  | .rdX => s.proxyFail r.line x.pick .deviceGone
  | .upg => s.proxyFail r.line x.pick .deviceGone
  | .wrNc => s.unconfirmed r x
  | .red => s.unconfirmed r x
  | _ =>
    (match r.src, r.who.cmd with
    | .host p, _ =>
      (s.hostAnswer p r.who.vd r.rtag r.era 0 15 .inv).event r.who.vd 2 { kind := .generalMedia, ty := .dataPath, trans := 1, dpa := r.who.va }
    | _, some _ => if s.oldReply r then s else s.whoFailed r.who .deviceGone
    | _, none => s.send (.rsp r.rtag .deviceGone 0 15)).ncDone r x.pick

/-- RD_DAT at the requester (R222): data of RD_NC, the old value of an ATOM, or the lost-home answer to a proxy (R517). -/
def execRdDat (m : CohMsg) (x : Ext) (s : State) : Res :=
  match s.remoteAt fun r => decide (r.kind = .mem) && decide (r.dev = m.dev) && decide (r.line = m.line) && decide (r.tag = m.tag)
      && !(decide (r.op = .wrNc) || decide (r.op = .red)) with
  | none => .next s
  | some (r, s1) =>
    match r.op with
    | .atom =>
      match r.who.cmd, r.who.slice with
      | some q, some n =>
        if s1.oldReply r then .next s1
        else
          let w := match s1.cmd? q with | some c => c.width | none => 32
          .next ((s1.whoAnswer r.who .atomic m.status (m.data.toNat % 2 ^ w)).atomTake q n w)
      | _, _ => .next (s1.send (.rsp r.rtag m.status m.data m.pois))
    | .rdNc =>
      .next ((match r.src with
        | .host p => s1.hostAnswer p r.who.vd r.rtag r.era m.data m.pois .inv
        | _ => if s1.oldReply r then s1 else s1.send (.rsp r.rtag (if m.pois = 0 then .ok else .poisoned) m.data m.pois)).ncDone r x.pick)
    | _ => .next (s1.proxyFail r.line x.pick .poisoned)

/-! ### Grants at the proxy (R224) -/

/-- Where a granted line goes: over the copy that an upgrade held, or into the way kept for it. -/
def State.install (s : State) (n gl pick : Nat) (way : Option Nat) (f : Frame) : Option Nat × State :=
  match (s.slice n).hit gl, way with
  | some (k, _), _ => (some k, s.setFrame n k f)
  | none, some k => (some k, s.setFrame n k f)
  | none, none =>
    match s.freeWay n gl pick with
    | some (k, s1) => (some k, s1.setFrame n k f)
    | none => (none, s)

/-- The proxy has its grant: GNT_ACK goes to the home, the line is installed, and its request and waiters are served. The request of an old
epoch ends without effect (R172). Without a way the copy is dropped again, written back at once if it is dirty. -/
def State.granted1 (s : State) (msg : CohMsg) (excl : Bool) (keepData : Bool) (pick : Nat) : State :=
  match s.register? msg.line, s.remoteAt fun r => decide (r.kind = .mem) && decide (r.line = msg.line) && decide (r.dev = msg.dev)
      && (if excl then decide (r.op = .rdX) || decide (r.op = .upg) else decide (r.op = .rdS)) with
  | some (n, m), some (o, s1) =>
    match m.phase, m.req with
    | .remote, some r =>
      let gl := msg.line
      let old := ((s1.slice n).hit gl).map (·.2)
      let f : Frame := { st := if excl then .re else .rs, line := gl, v := 15,
                         p := if keepData then (old.getD {}).p else msg.pois, data := if keepData then (old.getD {}).data else msg.data }
      let s2 := s1.send (.coh { op := .gntAck, dev := msg.dev, line := gl, tag := msg.tag })
      match s2.install n gl pick m.way f with
      | (some k, s3) => (State.settle n gl pick m.waiters (if s1.oldReply o then s3 else s3.proxyServe n gl r k f, none)).wakeAll pick
      | (none, s3) =>
        if s1.oldReply o then (State.settle n gl pick m.waiters (s3, none)).wakeAll pick
        else if r.op.changes then
          let g := f.merge r.bytes r.data r.pois
          (((s3.answer gl r .ok 0 0 {}).sendWb (wbMsg g)).putMiss n gl { phase := .wb, vd := m.vd, since := m.since, waiters := m.waiters })
        else
          let p := f.p &&& bytesSectors r.bytes
          (State.settle n gl pick m.waiters (s3.answer gl r (if p = 0 then .ok else .poisoned) f.data p {}, none)).wakeAll pick
    | _, _ => s
  | _, _ => s

/-- FILL_S (R224). -/
def execFillS (m : CohMsg) (pick : Nat) (s : State) : Res := .next (s.granted1 m false false pick)

/-- FILL_E (R224): the answer to RD_X, or to UPG. -/
def execFillE (m : CohMsg) (pick : Nat) (s : State) : Res := .next (s.granted1 m true false pick)

/-- CMP_E (R224): the upgrade of the copy held. Where an error has taken that copy meanwhile, the grant is acknowledged and the request is
made anew (R507). -/
def execCmpE (m : CohMsg) (pick : Nat) (s : State) : Res :=
  match s.register? m.line with
  | some (n, r) =>
    if !r.upgSent then .next s
    else if ((s.slice n).hit m.line).isSome then .next (s.granted1 m true true pick)
    else
      match r.req, s.remoteAt fun o => decide (o.kind = .mem) && decide (o.line = m.line) && decide (o.dev = m.dev) && decide (o.op = .upg) with
      | some q, some (_, s1) =>
        let s2 := s1.send (.coh { op := .gntAck, dev := m.dev, line := m.line, tag := m.tag })
        .next ((State.settle n m.line pick r.waiters (s2.serve n m.line pick q)).wakeAll pick)
      | _, _ => .next s
  | none => .next s

/-- WB_ACK (R224): the register and the credit (R223) are free, and the requests that waited are served. -/
def execWbAck (m : CohMsg) (pick : Nat) (s : State) : Res :=
  match s.register? m.line with
  | some (n, r) => if r.phase = .wb then .next ((State.drain n m.line pick r.waiters (s.wbCredit (lineDev m.line))).wakeAll pick) else .next s
  | none => .next s

/-! ### Fences (R239) -/

/-- RELEASE (R239): every earlier write of the task is performed or reported failed. A FULL fence is followed by ACQUIRE. -/
def execRelease (cmd slice : Nat) (full : Bool) (s : State) : Res :=
  match s.cmd? cmd with
  | some c =>
    match c.runningOn slice with
    | some _ =>
      if s.released cmd then
        let s1 := s.modTask cmd slice fun t => { t with relDue := false }
        .next (if full then s1.modSlice slice fun y => { y with l1 := [] } else s1)
      else .next s
    | none => .next s
  | none => .next s

end Sys2Proof.Machine
end

