-- ==== Sys2Proof/Machine/VdReset.lean ====
section
/-! DEFINITION. Epochs and the reset of a virtual device (R168-R174, Table 06-4), and its error ring's registers (R177-R179). -/
namespace Sys2Proof.Machine

/-! ### VD reset -/

/-- R281, R320: what ends at the epoch increment of a VD: the grants that it owns, and its attached entries. -/
def State.epochEnds (s : State) (v : Nat) : State :=
  (s.endGrants fun g => decide (g.vd = v)).revokeEntries fun k e => decide (k / 2 ^ 26 = v) && decide (e.kind = .foreign)

/-- Steps 1 and 2 of Table 06-4, and the merging of R173. Warm reset is trigger 1. -/
def State.vdTrigger (s : State) (v cause : Nat) : State :=
  let x := s.vd v
  if !s.vdExists v then s
  else if x.st = .resetting then
    if cause = 1 then s.setVd v { x with trigger := 1 }
    else if cause = 5 ∧ !x.memClr then s.setVd v { x with memClr := true, trigger := if x.trigger = 1 then 1 else 5, resetStep := min x.resetStep 4 }
    else s
  else
    (s.setVd v { x with st := .resetting, epoch := x.epoch + 1, bind := [], oldBind := x.bind, err := {}, trigger := cause, memClr := decide (cause = 5), resetStep := 2 }).epochEnds v

/-- Commands of a VD whose epoch has passed. -/
def State.oldCmds (s : State) (v : Nat) : List (Nat × Cmd) := s.dax.cmds.filter fun e => decide (e.2.vd = v) && !s.current e.2

/-- Commands whose tasks stop. Stores already performed stay, undrained tiles are discarded, no record is written; writes not yet
sent are dropped. -/
def State.stopCmds (s0 : State) (old : List (Nat × Cmd)) : State :=
  let gone (q : Nat) : Bool := old.any fun e => decide (e.1 = q)
  let s := { s0 with ends := s0.ends.filter fun e => !(match e.who.cmd with | some q => gone q | none => false) }
  let s1 := old.foldl (fun s e => e.2.tasks.foldl (fun s t => t.held.foldl (fun s h => s.unref (handleKey h)) s) s) s
  let s2 := { s1 with colls := s1.colls.filter fun c => !gone c.cmd
                      runners := s1.runners.keep fun _ r => !gone r.cmd
                      slu := { s1.slu with places := s1.slu.places.filter fun p => !gone p.cmd }
                      pool := { s1.pool with
                        remWait := s1.pool.remWait.filter fun r => !(match r.1.who.cmd with | some q => gone q | none => false)
                        depWait := s1.pool.depWait.filter fun r => !(match r.1.cmd with | some q => gone q | none => false) } }
  old.foldl (fun s e => s.modCmd e.1 fun c => { c with tasks := [], uncreated := [], engineFin := some { term := .cancelled, status := .cancelled } }) s2

/-- Step 3: the VD's tasks stop. -/
def State.vdStop (s : State) (v : Nat) : State := s.stopCmds (s.oldCmds v)

/-- R320: an IMPORT binding withdraws its registrations and gives its import place back. -/
def State.unimport (s : State) (v t : Nat) : State :=
  if ticketDev t = s.pool.devnum then
    match s.ticketPen t with
    | some (k, e) => { s with pen := { s.pen with exports := s.pen.exports.put k { e with imports := e.imports.erase (s.pool.devnum, v) } } }
    | none => s
  else
    s.sendRemote { kind := .pen, dev := ticketDev t, tag := 0, who := { vd := v }, epoch := (s.vd v).epoch, posted := true }
      (.penReq (ticketDev t) v 0 1 t 0)

/-- Step 4: the VD's pennants become ABANDONED, its registrations are withdrawn, and what the bindings of its old epoch held is given up. -/
def State.vdAbandon (s : State) (v : Nat) : State :=
  let s1 := (s.oldCmds v).foldl (fun s e =>
    let s2 := s.withdrawCmd e.1 e.2
    { s2 with dax := { s2.dax with cmds := s2.dax.cmds.del e.1 } }) s
  let held := (s1.vd v).oldBind
  let s2 := held.foldl (fun s b => match b.2 with | .imported t false => s.unimport v t | _ => s) s1
  let s3 := held.foldl (fun s b => match b.2 with | .lease p false => s.penAbandon p | _ => s) s2
  s3.modVd v fun x => { x with oldBind := [] }

/-- Step 5 but for Hopper's records: the sweep (R169, R172, R543); the VD counters of Hopper and the pennants become 0, Fantail's is kept
(R265, R294, R337, R589). -/
def State.vdClear (s : State) (v : Nat) : State :=
  let s1 := s.modVd v fun x =>
    { x with rings := [], rrRing := 0, errRing := {}, failedStreams := [], useTask := 0, staleCnt := 0, penDropCnt := 0 }
  let s1 := { s1 with gauges := s1.gauges.keep fun n _ => decide (n ≠ 128 + 2 * v) && decide (n ≠ 129 + 2 * v) }
  let s1 := [QueueId.tasks, .hopperCmds].foldl (fun s q => s.setQueue q { s.queue q with waiting := (s.queue q).waiting.filter fun w => decide (w.vd ≠ v) }) s1
  let s1 := { s1 with slu := { s1.slu with recWait := s1.slu.recWait.filter fun r => decide (r.1.vd ≠ v) } }
  let s2 := { s1 with pool := { s1.pool with dep := s1.pool.dep.mapVal fun _ e => if e.vd = v then { e with earlier := true } else e } }
  if (s.vd v).memClr then ((s2.freePages v fun _ => true).modVd v fun x => { x with usePage := 0 }).drawKey v else s2

/-- Step 5. -/
def State.vdSweep (s : State) (v : Nat) : State := (s.hopSweep v).vdClear v

/-- Step 6. -/
def State.vdReady (s : State) (v : Nat) : State :=
  let s1 := s.modVd v fun x => { x with st := if s.boot.memActive then .ready else .notActive, resetSeen := true, lastReset := x.trigger,
                                        trigger := 0, memClr := false, resetStep := 0 }
  let mine (r : MctpHdr × Nat) : Bool := decide (r.2 = v)
  (s.mgmt.resets.filter mine).foldl (fun s r => s.mgmtAnswer r.1 0x22 0 [])
    { s1 with mgmt := { s1.mgmt with resets := s1.mgmt.resets.filter fun r => !mine r } }

/-- A step of Table 06-4 follows the one before it. -/
def State.resetAt (s : State) (v step : Nat) : Bool := decide ((s.vd v).st = .resetting) && decide ((s.vd v).resetStep = step)
def State.resetTo (s : State) (v step : Nat) : State := s.modVd v fun x => { x with resetStep := step }

/-- VD_RESET_TRIGGER (R171, R173): `cause` is the LAST_RESET code of Table 06-3. -/
def execVdResetTrigger (vd cause : Nat) (s : State) : Res :=
  if 1 ≤ cause ∧ cause ≤ 7 then .next (s.vdTrigger vd cause) else .next s

/-- VD_RESET_TASK_STOP (R171, step 3). -/
def execVdResetTaskStop (vd : Nat) (s : State) : Res :=
  if s.resetAt vd 2 then .next ((s.vdStop vd).resetTo vd 3) else .next s

/-- VD_RESET_ABANDON (R171, step 4). -/
def execVdResetAbandon (vd : Nat) (s : State) : Res :=
  if s.resetAt vd 3 then .next ((s.vdAbandon vd).resetTo vd 4) else .next s

/-- VD_RESET_SWEEP (R169, R171, step 5). -/
def execVdResetSweep (vd : Nat) (x : Ext) (s : State) : Res :=
  .next (s.orWait x.pick fun s => if s.resetAt vd 4 then (s.vdSweep vd).resetTo vd 5 else s)

/-! ### The error ring (R177-R179) -/

/-- ERR_RING_CTRL_WRITE (R177, R179, R11): SIZE_LOG2 in [3:0], ENABLE in [4], VECTOR in [12:8]. -/
def State.errCtrl (s : State) (v w : Nat) : State :=
  let g := (s.vd v).errRing
  let size := field w 0 4
  let sizeOk := decide (6 ≤ size) && decide (size ≤ 12)
  if g.enable && sizeOk && decide (size ≠ g.sizeLog2) then s.modVd v fun x => { x with err := { x.err with liveWrite := true } }
  else
    let size1 := if sizeOk then size else g.sizeLog2
    let enOk := decide (6 ≤ size1) && decide (size1 ≤ 12)
    let en := bit w 4
    let bad := !sizeOk || (en && !enOk)
    let s1 := s.modVd v fun x => { x with errRing := { g with sizeLog2 := size1, enable := en && enOk, vector := field w 8 5 } }
    if bad then s1.rsvdEnc v else s1

def execErrRingCtrlWrite (vd : Nat) (value : Word) (s : State) : Res :=
  .next (s.winWrite { vd := vd, off := 0x21018, val := value.toNat } fun s => s.errCtrl vd value.toNat)

/-- ERR_RING_HEAD_WRITE (R177, R589): an index below the size, or 0 without one. -/
def State.errHead (s : State) (vd w : Nat) : State :=
  let g := (s.vd vd).errRing
  let n := if g.size = 0 then 1 else g.size
  let h := w % 65536
  if h < n then s.modVd vd fun x => { x with errRing := { x.errRing with head := h } } else s.rsvdEnc vd

def execErrRingHeadWrite (vd : Nat) (value : Word) (s : State) : Res :=
  .next (s.winWrite { vd := vd, off := 0x21020, val := value.toNat } fun s => s.errHead vd value.toNat)

/-- ERR_RING_BASE_WRITE (R177, R179): `hi` selects ERR_RING_BASE_HI; bits [11:0] are RSVD. -/
def State.errBase (s : State) (vd : Nat) (hi : Bool) (w : Nat) : State :=
  let g := (s.vd vd).errRing
  if g.enable then s.modVd vd fun x => { x with err := { x.err with liveWrite := true } }
  else
    let b : DWord := if hi then BitVec.ofNat 64 (w * 2 ^ 32 + g.base.toNat % 2 ^ 32)
                     else BitVec.ofNat 64 (g.base.toNat / 2 ^ 32 * 2 ^ 32 + w / 4096 * 4096)
    s.modVd vd fun x => { x with errRing := { x.errRing with base := b } }

def execErrRingBaseWrite (vd : Nat) (hi : Bool) (value : Word) (s : State) : Res :=
  .next (s.winWrite { vd := vd, off := if hi then 0x21014 else 0x21010, val := value.toNat } fun s => s.errBase vd hi value.toNat)

/-- ERROR_RECORD_WRITE_FAIL (R179). -/
def execErrorRecordWriteFail (vd : Nat) (s : State) : Res :=
  if (s.vd vd).errRing.enable then .next (s.errFault vd) else .next s

/-- ERR_RING_MSIX_DEFER (R178): the 1 us after a message has passed. -/
def execErrRingMsixDefer (vd : Nat) (s : State) : Res :=
  let g := (s.vd vd).errRing
  if !g.msixBusy then .next s
  else if g.msixHeld && decide (g.tail ≠ g.head) then
    .next ((s.send (.msix vd g.vector)).modVd vd fun x => { x with errRing := { x.errRing with msixHeld := false } })
  else .next (s.modVd vd fun x => { x with errRing := { x.errRing with msixBusy := false, msixHeld := false } })

end Sys2Proof.Machine
end

