-- ==== Sys2Proof/Machine/CxlMem.lean ====
section
/-!
DEFINITION. CXL.mem: acceptance and its bounds (R141-R144), translation for the ports (R270-R275), service at the home
(R138, R139, R231), back-invalidation (R139, R140, R233), and the ports' links (R123-R125, R150-R153).
Whether a request hits the port's translation cache is not architectural: an operand says so.
-/
namespace Sys2Proof.Machine

/-! ### Answers that touch no memory -/

def CxlReq.trans (r : CxlReq) : Nat := if r.op.changes then 2 else 1

/-- A read answered with poison; a write that is not performed and completes normally, or with the error indication. -/
def State.hostRefuse (s : State) (r : CxlReq) (err : Bool := false) : State :=
  s.hostAnswer r.port r.vd r.tag r.era 0 (if r.op.changes && !err then 0 else 15) .inv

/-- R134, R135: an access outside the extents or beyond the quota: one event per 2 MiB block and second, which names the access, or for
a quota its page. -/
def State.hostOutside (s : State) (r : CxlReq) (quota : Bool) : State :=
  match (s.hostRefuse r).limited 2 r.vd (r.dpa / 2097152) with
  | (true, s1) => s1.event r.vd 1 { kind := .generalMedia, ty := .invalidAddress, trans := r.trans, dpa := if quota then r.dpa / 65536 * 65536 else r.dpa, quota := quota }
  | (false, s1) => s1

/-! ### Service at the home -/

/-- R137, R138: the request lies in a range committed as HDM-DB. -/
def State.hdmDb (s : State) (v dpa : Nat) : Bool :=
  (s.img.ports.getD (v / 16) {}).hdmDbAllowed &&
    (s.vd v).decoders.any fun d => d.2.committed && d.2.bi && decide (d.2.base ≤ dpa) && decide (dpa < d.2.base + d.2.len)

/-- R232 for a write that meets a BISnp to its own port: the port's bit follows the MetaValue while the transaction goes on. -/
def State.metaUnderSnoop (s : State) (l p : Nat) (mv : Meta) : State :=
  let e := s.dirEntry l
  match mv with
  | .any => s
  | .shared => if e.st = .exclHost ∧ bit e.hosts.toNat p then s.setDir l (DirEntry.mk' .shared 0 (oneHot p)) else s
  | _ => s.dropHost l p

/-- R142: a request of the port for the line that was accepted earlier waits at the line's slice. -/
def State.earlierAt (s : State) (n p gl : Nat) (m : Miss) : Bool :=
  (m.req.toList ++ m.waiters ++ (s.slice n).inq).any fun q => decide (q.line = gl) && decide (q.src = .host p)

/-- A host write that meets a BISnp to its own port is performed at once, as the snoop's data; the transaction still waits for both halves
(Table 08-5). It completes behind the port's earlier requests for the line (R142). -/
def State.writeUnderSnoop (s : State) (p : Nat) (r : Req) (pick : Nat) : Option State :=
  match s.register? r.line with
  | some (n, m) =>
    if m.phase = .snoop ∧ r.op = .memWr ∧ (m.snpHost.any fun h => decide (h.1 = p)) then
      let s1 := ((s.mergeHome n r.line pick (bytesSectors r.bytes) r.data r.pois).metaUnderSnoop (ownNum r.line) p r.mv)
      some (if s.earlierAt n p r.line m then s1.homeAccept { r with performed := true } pick else s1.hostAnswer p r.vd r.tag r.era 0 0 .inv)
    else none
  | none => none

/-- A translated request is served at the home of its line, or through the proxy (R231). 64 bytes are a half of a line. -/
def State.hostServe (s : State) (r : CxlReq) (ga pick : Nat) : State :=
  let half := ga / 64 % 2
  let line := ga / 128
  let own := decide (lineDev line = s.pool.devnum)
  let q : Req := { op := r.op, src := .host r.port, vd := r.vd, tag := r.tag, dpa := r.dpa, line := line, era := r.era,
                   bytes := BitVec.ofNat 128 ((2 ^ 64 - 1) * 2 ^ (64 * half)), data := BitVec.ofNat 1024 (r.data.toNat * 2 ^ (512 * half)),
                   pois := if r.pois then BitVec.ofNat 4 (3 * 4 ^ half) else 0,
                   mv := if own && s.hdmDb r.vd r.dpa then r.mv else .inv }
  if own then
    match s.writeUnderSnoop r.port q pick with
    | some s1 => s1
    | none => s.homeAccept (s.withAttrs q) pick
  else
    let s1 := if s.gone (lineDev line) then s.event r.vd 2 { kind := .generalMedia, ty := .dataPath, trans := r.trans, dpa := r.dpa } else s
    s1.localReq q pick

/-- The line of a request whose page is mapped. -/
def State.hostLine (s : State) (r : CxlReq) : Option Nat :=
  match s.entry r.vd (r.dpa / 65536) with
  | some (p, e) => if e.kind = .revoked then none else some (e.gaddr p r.dpa / 128)
  | none => none

/-- R142: a request for the same line that was accepted earlier still waits for its translation. -/
def State.lineAhead (s : State) (r : CxlReq) : Bool :=
  (s.hostLine r).isSome && s.slu.walks.any fun w => w.acc.any fun q => decide (q.no < r.no) && decide (s.hostLine q = s.hostLine r)

/-- Table 10-3 for an entry that is not EMPTY: the request is served, which its port's cache has then translated (R286), or refused. A
MIGRATING entry keeps it waiting, and so does an earlier request for its line (R142). -/
def State.hostEntry (s : State) (r : CxlReq) (page : Nat) (e : PEntry) (pick : Nat) : Option State :=
  if s.lineAhead r then none
  else match e.kind with
    | .page => some ((s.sampleHeat r.port r.vd page).hostServe r (e.gaddr page r.dpa) pick)
    | .foreign => if r.op.changes && e.readOnly then some (s.hostOutside r false) else some ((s.sampleHeat r.port r.vd page).hostServe r (e.gaddr page r.dpa) pick)
    | .revoked => some (s.hostOutside r false)
    | .migrating => none

/-! ### Walks (R270-R275) -/

def State.setWalks (s : State) (f : List Walk → List Walk) : State := { s with slu := { s.slu with walks := f s.slu.walks } }

/-- R271: a request joins the walk of its page, or starts one, which takes a slot or waits for one. -/
def State.hostWalk (s : State) (r : CxlReq) : State :=
  let page := r.dpa / 65536
  match s.walkOf r.vd page with
  | some _ => s.setWalks fun ws => ws.map fun w => if w.vd = r.vd ∧ w.page = page then { w with acc := w.acc ++ [r] } else w
  | none =>
    s.setWalks fun ws => ws ++ [{ vd := r.vd, page := page, slot := s.walkRoom r.vd page, acc := [r], since := s.now }]

/-- A walk has completed (R294); its slot is free again. -/
def State.dropWalk (s : State) (v page : Nat) : State :=
  let s1 := match s.walkOf v page with | some w => s.walked.gaugeEvent 0x07 255 (some v) (s.now - w.since) | none => s
  s1.setWalks fun ws => ws.filter fun w => !(decide (w.vd = v) && decide (w.page = page))

/-- The requests of a walk, in the order in which they joined, at an entry that settled; those that must still wait start a walk anew. -/
def State.walkServe (s : State) (acc : List CxlReq) (page : Nat) (e : PEntry) (pick : Nat) : State :=
  acc.foldl (fun s r => (s.hostEntry r page e pick).getD (s.hostWalk r)) s

/-- SLUICE_WALK (R270, R273, R275): the walk for a page of a VD resolves. A walk whose 2 MiB block has a first touch under way waits
for it. -/
def State.sluiceWalk (s : State) (v page pick : Nat) : State :=
  match s.walkOf v page with
  | none => s
  | some w =>
    if !w.slot || w.zero.isSome then s
    else
      match s.entry v page with
      | some (ep, e) => if e.kind = .migrating then s else (s.dropWalk v page).walkServe w.acc ep e pick
      | none =>
        if !s.inExtent v (page * 65536) then w.acc.foldl (fun s r => s.hostOutside r false) (s.dropWalk v page)
        else if s.touchBusy v page then s
        else
          match s.touchFrames v page pick with
          | .error st => w.acc.foldl (fun s r => s.hostOutside r true) ((s.dropWalk v page).touchRefused st)
          | .ok (f, big) =>
            (s.touchTake v page f big).setWalks fun ws => ws.map fun y => if y.vd = v ∧ y.page = page then { y with zero := some (f, big) } else y

def execSluiceWalk (vd page pick : Nat) (s : State) : Res := .next ((s.sluiceWalk vd page pick).recFlush pick)

/-- PAGE_ZERO_DONE (R273): the walk's requests are served, and what else waited for the page goes on. -/
def execPageZeroDone (vd page pick : Nat) (s : State) : Res :=
  match s.walkOf vd page with
  | some w =>
    match w.zero with
    | some (f, big) =>
      let s1 := (s.dropWalk vd page).touchDone vd page f big
      match s1.entry vd page with
      | some (ep, e) => .next ((s1.walkServe w.acc ep e pick).placeResume vd page pick)
      | none => .next s1
    | none => .next s
  | none => .next s

/-! ### Acceptance (R129, R141, R142, R150, R154, R155) -/

def State.useCxl (s : State) (p v : Nat) : Nat := ((s.port p).outst.filter fun o => decide (o.vd = v)).length

/-- The port holds a request back under credits: before Memory Active, in a warm reset, in a reset under Mem Clr, and while IDE keys switch
(R149). -/
def State.hostHeld (s : State) (r : CxlReq) : Bool :=
  (s.port r.port).ideSwitch
    || (!s.boot.neverActive && (!s.boot.memActive || s.boot.warm != 0 || ((s.vd r.vd).memClr && decide ((s.vd r.vd).st = .resetting))))

/-- R150: the record of the first request after a link-up that meets inactive IDE. -/
def State.ideRecord (s : State) (p : Nat) : State :=
  if (s.port p).ideSeen then s else (s.post { cls := .protocol, unit := p, code := 2 }).modPort p fun x => { x with ideSeen := true }

/-- The port consumes a request's credit: from now on the request is outstanding (R142). -/
def State.hostTake (s : State) (r : CxlReq) : CxlReq × State :=
  let era := (s.port r.port).era
  let s1 := s.modPort r.port fun x => { x with outst := x.outst ++ [{ tag := r.tag, vd := r.vd, time := s.now, write := r.op.changes, era := era }], power := 0 }
  ({ r with era := era, no := s.slu.order }, { s1 with slu := { s1.slu with order := s1.slu.order + 1 } })

/-- A request that the port accepts is translated and served. `hit` says that the port's translation cache holds the entry. -/
def State.hostAccept (s : State) (r0 : CxlReq) (hit : Bool) (pick : Nat) : State :=
  match s.hostTake r0 with
  | (r, s0) =>
    if s0.boot.neverActive then s0.hostRefuse r
    else if (s.img.ports.getD r.port {}).ideMemRequired && !(s.port r.port).ideMem then (s0.ideRecord r.port).hostRefuse r
    else
      match hit, s0.walkOf r.vd (r.dpa / 65536), s0.entry r.vd (r.dpa / 65536) with
      | true, none, some (ep, e) => (s0.hostEntry r ep e pick).getD (s0.hostWalk r)
      | _, _, _ => s0.hostWalk r

/-- R129: a request whose LD-ID the port does not expose is answered at once, with an error and a management record. -/
def State.hostNoLd (s : State) (r0 : CxlReq) (ld : Nat) : State :=
  match s.hostTake r0 with
  | (r, s0) => (s0.hostRefuse r true).post { cls := .protocol, unit := r.port, code := 3, detail := ld }

/-- Table 05-5: the credits of a class that a partner still holds: 64 at link-up, less one for each request that waits to be accepted. -/
def CxlPort.credits (x : CxlPort) (write : Bool) : Nat := 64 - (x.held.filter fun r => decide (r.op = .memWr) == write).length

/-- A request arrives: it is accepted, or waits under its credit until the port consumes it. Without a credit the partner cannot send. -/
def State.hostArrive (s : State) (r0 : CxlReq) (ld : Nat) (hit : Bool) (pick : Nat) : State :=
  let p := r0.port
  let r := { r0 with vd := 16 * p + ld }
  let x := s.port p
  if 4 ≤ p ∨ x.link ≠ 2 ∨ !x.cxlOk ∨ x.credits (decide (r.op = .memWr)) = 0 then s
  else if 16 ≤ ld ∨ (s.img.applied ∧ !s.exposed p ld) then s.hostNoLd r ld
  else if s.hostHeld r || !s.mayEnter (.cxlMem p) (s.useCxl p) ((x.held.filter fun q => !s.hostHeld q).map CxlReq.vd) r.vd then
    s.modPort p fun x => { x with held := x.held ++ [r] }
  else s.hostAccept r hit pick

/-- Requests that a port held back and that may go on, in their order. -/
def State.releaseHeld (s : State) (p pick : Nat) : State :=
  if (s.port p).link ≠ 2 then s
  else
    let hs := (s.port p).held
    hs.foldl (fun s r => s.hostArrive r (r.vd % 16) false pick) (s.modPort p fun x => { x with held := [] })

/-- MEM_RD (R226, R138, R139): a read of the LD `ld` of its port. -/
def execMemRd (r : CxlReq) (ld : Nat) (hit : Bool) (pick : Nat) (s : State) : Res :=
  .next (s.hostArrive { r with op := .memRd } ld hit pick)

/-- MEM_WR (R226). -/
def execMemWr (r : CxlReq) (ld : Nat) (hit : Bool) (pick : Nat) (s : State) : Res :=
  .next (s.hostArrive { r with op := .memWr } ld hit pick)

/-- MEM_CLN_EVCT (R226). -/
def execMemClnEvct (r : CxlReq) (ld : Nat) (hit : Bool) (pick : Nat) (s : State) : Res :=
  .next (s.hostArrive { r with op := .memClnEvct } ld hit pick)

/-- R143: the hint fetches the two sectors, or in a BULK region the bulk line (R198), into the home's cache when a way is free and the
line is idle. -/
def State.prefetch (s0 : State) (ga pick : Nat) : State :=
  let gl := ga / 128
  let n := s0.sliceOf gl
  if lineDev gl ≠ s0.pool.devnum ∨ s0.offLimits gl ∨ s0.lostHome gl ∨ s0.promoted gl ∨ s0.asleep n ∨ (s0.slice n).stopped then s0
  else
    let bulk := (s0.attrs gl).1
    let sec : Sectors := if bulk then 15 else BitVec.ofNat 4 (3 * 4 ^ (ga / 64 % 2))
    if ((s0.slice n).missOf gl).isSome ∨ (bulk ∧ !s0.bulkFree n gl) then s0
    else
      let s := s0.stackFor (lineFrame gl)
      if ((s.slice n).hit gl).isSome then (if sec &&& ~~~ (s.view n gl).v = 0 then s else s.fillInto n gl pick none sec bulk)
      else match s.freeWay n gl pick with
        | some (k, s1) => s1.fillInto n gl pick (some k) sec bulk
        | none => s

/-- MEM_SPEC_RD (R124, R143): acted on below 1536 outstanding requests where the port's translation cache holds the page. -/
def execMemSpecRd (port ld dpa : Nat) (hit : Bool) (pick : Nat) (s : State) : Res :=
  if (s.port port).link = 2 ∧ (s.port port).cxlOk ∧ s.exposed port ld ∧ s.boot.memActive ∧ s.boot.warm = 0 ∧ hit ∧ (s.port port).outst.length < 1536 then
    match s.entry (16 * port + ld) (dpa / 65536) with
    | some (ep, e) => if e.kind = .page ∨ e.kind = .foreign then .next (s.prefetch (e.gaddr ep dpa) pick) else .next s
    | none => .next s
  else .next s

/-- Table 05-6. -/
def CxlPort.load (x : CxlPort) : Nat :=
  let n := x.outst.length
  if 1843 ≤ n ∨ !x.held.isEmpty then 3 else if 1536 ≤ n then 2 else if 512 ≤ n then 1 else 0

/-- DEVLOAD_UPDATE (R144). -/
def execDevloadUpdate (port : Nat) (s : State) : Res := .next (s.modPort port fun x => { x with devLoad := x.load })

/-! ### Back-invalidation -/

/-- Table 08-3: the last half of a port's answer is in and none of them kept a copy: the port leaves an entry that its own write has made
SHARED meanwhile (R232). -/
def State.hostAnswered (s : State) (l p : Nat) (m : Miss) : State :=
  if (m.snpHost.all fun h => decide (h.1 ≠ p)) && !m.keepHost.contains p && decide ((s.dirEntry l).st = .shared) then s.dropHost l p else s

/-- BIRSP (R139, R225): one half of an answer to a block snoop; a stray one is counted (R140). -/
def execBirsp (port line half : Nat) (rsp : BiRsp) (pick : Nat) (s : State) : Res :=
  match s.register? line with
  | some (n, m) =>
    if m.phase = .snoop ∧ m.snpHost.contains (port, half) then
      let keep := decide (rsp = .s) && !m.keepHost.contains port
      let m1 := { m with snpHost := m.snpHost.erase (port, half), keepHost := if keep then m.keepHost ++ [port] else m.keepHost }
      .next (((s.hostAnswered (ownNum line) port m1).answered n line pick m1).wakeAll pick)
    else .next (s.modPort port fun x => { x with biStray := x.biStray + 1 })
  | none => .next (s.modPort port fun x => { x with biStray := x.biStray + 1 })

/-- A host's outstanding answers for a line are taken as Invalid: its bit is cleared, and a line that it held exclusive is poisoned (R140,
R152). -/
def State.hostLost (s : State) (port gl pick : Nat) : State :=
  match s.register? gl with
  | some (n, m) =>
    let e := s.dirEntry (ownNum gl)
    let excl := decide (e.st = .exclHost) && bit e.hosts.toNat port
    let s1 := (if excl then s.poisonLine n gl else s).dropHost (ownNum gl) port
    (s1.answered n gl pick { m with snpHost := m.snpHost.filter fun h => decide (h.1 ≠ port), keepHost := m.keepHost.filter fun p => decide (p ≠ port) }).wakeAll pick
  | none => s

/-- BISNP_TIMEOUT (R140): 10 ms have passed for a line's snoop to a port. -/
def execBisnpTimeout (port line pick : Nat) (s : State) : Res :=
  match s.register? line with
  | some (_, m) =>
    if m.phase = .snoop ∧ (m.snpHost.any fun h => decide (h.1 = port)) then
      let s1 := s.lineEvent line 1 { kind := .generalMedia, ty := .dataPath }
      .next ((s1.post { cls := .correctable, code := 4, addr := line * 128, unit := port }).hostLost port line pick)
    else .next s
  | none => .next s

/-- BICONFLICT (R233): acknowledged after the completion of the conflicting request `tag`. -/
def execBiconflict (port line tag : Nat) (s : State) : Res :=
  if (s.port port).outst.any fun o => decide (o.tag = tag) then .next (s.modPort port fun x => { x with conflicts := x.conflicts ++ [(tag, line)] })
  else .next (s.send (.biConflictAck port line))

/-! ### Links -/

/-- R152: host bit `port` leaves every directory entry; a line that the host held exclusive is poisoned, with an event. -/
def State.clearHost (s : State) (port : Nat) : State :=
  (s.dir.filter fun e => bit e.2.hosts.toNat port).foldl (fun s e =>
    let gl := s.ownLine e.1
    let n := s.sliceOf gl
    let s1 := if e.2.st = DirState.exclHost then (s.poisonLine n gl).lineEvent gl 1 { kind := .generalMedia, ty := .dataPath } else s
    s1.setDir e.1 (DirEntry.mk' e.2.st e.2.sharers (e.2.hosts &&& ~~~ oneHot port))) s

/-- The lines with a BISnp outstanding to a port. -/
def State.biLines (s : State) (port : Nat) : List Nat :=
  s.slices.flatMap fun e => (e.2.miss.filter fun m => m.2.snpHost.any fun h => decide (h.1 = port)).map (·.1)

/-- R152: no transaction under way keeps a copy for a host whose link is down. -/
def State.forgetHost (s : State) (port : Nat) : State :=
  { s with slices := s.slices.mapVal fun _ x => { x with miss := x.miss.mapVal fun _ m => { m with keepHost := m.keepHost.filter fun p => decide (p ≠ port) } } }

/-- R152: what a link down does to requests and copies. Requests held back under credits or in a key switch were never accepted; answers
to accepted ones are discarded. The sessions that the port carries end (R556). -/
def State.linkDown (s : State) (port pick : Nat) : State :=
  let s1 := s.modPort port fun x => { x with link := if x.link = 3 then 3 else 0, era := x.era + 1, held := [], ideIo := false, ideMem := false,
                                             ideStreams := [], ideSwitch := false, power := 0, conflicts := [] }
  let s1 := { s1 with
    mgmt := { s1.mgmt with sessions := s1.mgmt.sessions.keep fun _ e => decide (e.1 ≠ some port) }
    boot := { s1.boot with held := s1.boot.held.filter fun r => !(s.port port).ideSwitch || decide (r.port ≠ port) } }
  let ls := s1.biLines port
  let s2 := ls.foldl (fun s gl =>
    let e := s.dirEntry (ownNum gl)
    let ev := decide (e.st = .exclHost) && bit e.hosts.toNat port
    let s3 := s.hostLost port gl pick
    if ev then s3.lineEvent gl 1 { kind := .generalMedia, ty := .dataPath } else s3) s1
  (s2.clearHost port).forgetHost port

/-- R151, R170: a port reset resets the VDs of the port. -/
def State.portVds (s : State) (port : Nat) : State := ((List.range 16).map fun i => 16 * port + i).foldl (fun s v => s.vdTrigger v 2) s

/-- Rates and widths of PORT_STATUS_n (Table 05-2) as the CXL record and Table 05-1 count them: GT/s rounded down, and lanes. -/
def rateGt (r : Nat) : Nat := match r with | 0 => 2 | 1 => 5 | 2 => 8 | 3 => 16 | 4 => 32 | _ => 64
def widthLanes (w : Nat) : Nat := match w with | 0 => 4 | 1 => 8 | _ => 16

/-- R120, Table 05-1: the highest rate of a variant, in GT/s. -/
def Fuses.maxRate (f : Fuses) : Nat := if f.prevGen then 32 else 64

/-- The highest code of `n` up to an offered one whose value is in a limit. -/
def codeUpTo (n : Nat) (val : Nat → Nat) (limit offered : Nat) : Nat :=
  (List.range n).foldl (fun a c => if c ≤ offered ∧ val c ≤ limit then max a c else a) 0

/-- R120-R122: the rate and the width that a link comes up at, when its partner offers some: those of the variant, and under an image those
of the port's record. -/
def State.trainedRate (s : State) (p offered : Nat) : Nat :=
  codeUpTo 6 rateGt (if s.img.applied then min s.fuses.maxRate (s.img.ports.getD p {}).maxRate else s.fuses.maxRate) offered
def State.trainedWidth (s : State) (p offered : Nat) : Nat :=
  codeUpTo 3 widthLanes (if s.img.applied then (s.img.ports.getD p {}).maxWidth else 16) offered

/-- R155: without Memory Active, each LD that is exposed logs one Media Status Change event. -/
def State.mediaError (s : State) : State :=
  (s.vdList.filter fun v => s.exposed (v / 16) (v % 16) && !(s.vd v).mediaLogged).foldl (fun s v =>
    (s.event v 2 { kind := .memoryModule, ty := .mediaStatusChange }).modVd v fun x => { x with mediaLogged := true }) s

/-- LINK_UP (R121-R124): what the port learned of its partner; SRIS only in SEPARATE mode where the partner advertises it. Requests that
waited through a retrain go on. -/
def execLinkUp (port rate width : Nat) (cxl mld : Bool) (s : State) (sris : Bool := false) (pick : Nat := 0) : Res :=
  if 4 ≤ port ∨ (s.port port).link = 3 ∨ (s.port port).link = 0 ∨ (s.port port).perst then .next s
  else
    let s1 := s.modPort port fun x => { x with link := 2, rate := s.trainedRate port rate, width := s.trainedWidth port width, cxlOk := cxl, mld := cxl && mld,
                                               sris := sris && decide (x.refMode = 1), ideSeen := false, power := 0 }
    .next ((if s.boot.neverActive then s1.mediaError else s1).releaseHeld port pick)

/-- L1_ENTRY_REQUEST (R125): to L0p (1) or L1 (2). In a warm reset the links stay in L0 (R68). -/
def execL1EntryRequest (port level : Nat) (s : State) : Res :=
  if (s.port port).link ≠ 2 then .next s
  else if decide (s.boot.warm ≠ 0) || (decide (level = 2) && !(s.biLines port).isEmpty) then .next (s.send (.l1Rsp port false))
  else .next ((s.modPort port fun x => { x with power := level }).send (.l1Rsp port true))

/-- A reset of an LD that its host asks for (Table 05-9); to a partner in MLD mode the device refuses an LD that is not exposed (R129). -/
def State.ldReset (s : State) (p ld cause : Nat) : State :=
  if ld < 16 ∧ s.exposed p ld then s.vdTrigger (16 * p + ld) cause else if (s.port p).mld then s.noLd p ld else s

/-- A reset request of a host: a port that is held back holds it behind what came before (R149). -/
def State.ldResetArrive (s : State) (p ld cause : Nat) : State :=
  if s.portStuck p then { s with boot := { s.boot with held := s.boot.held ++ [.reset p ld cause] } } else s.ldReset p ld cause

/-- FUNCTION_LEVEL_RESET (R129, R151). -/
def execFunctionLevelReset (port ld : Nat) (s : State) : Res := .next (s.ldResetArrive port ld 3)

/-- CXL_RESET (R129, R151): with Mem Clr every page of the VD is freed. -/
def execCxlReset (port ld : Nat) (memClr : Bool) (s : State) : Res := .next (s.ldResetArrive port ld (if memClr then 5 else 4))

/-- VD_RESET_COMPLETE (R171, step 6): requests held under Mem Clr go on. A reset that a warm reset has joined ends with it (R69, R173). -/
def execVdResetComplete (vd pick : Nat) (s : State) : Res :=
  if s.resetAt vd 5 ∧ s.boot.warm = 0 then .next ((s.vdReady vd).releaseHeld (vd / 16) pick) else .next s

/-! ### Shared entries (R164, R165) -/

/-- A free entry goes to a waiting request: at once to the oldest that finds one of its own reserved share free (R167), and a shared one as
the arbiter chooses (R165). -/
def State.arbGrant (s : State) (q : QueueId) (use : Nat → Nat) (xs : List Ask) (pick : Nat) : Option (Nat × State) :=
  let all := (List.range xs.length).zip xs
  match all.find? fun e => decide (use e.2.share < s.reserve q e.2.share) with
  | some e => some (e.1, s)
  | none =>
    let can := all.filter fun e => s.canTake q use e.2.share
    match (s.queue q).arb.choose (can.map (·.2)) pick with
    | none => none
    | some (i, a) =>
      match can[i]? with
      | some e => some (e.1, s.setQueue q { s.queue q with arb := a })
      | none => none

/-- A grant from a queue whose waiting requests it lists itself: the one chosen leaves the list. -/
def State.grantListed (s : State) (q : QueueId) (use : Nat → Nat) (pick : Nat) : Option (QWait × State) :=
  let ws := (s.queue q).waiting
  match s.arbGrant q use (ws.map fun w => s.ask w.vd) pick with
  | none => none
  | some (i, s1) =>
    match ws[i]? with
    | some w => some (w, s1.setQueue q { s1.queue q with waiting := dropAt ws i })
    | none => none

/-- One that waited leaves the list of a queue. -/
def State.unwaitOf (s : State) (q : QueueId) (w : QWait) : State := s.setQueue q { s.queue q with waiting := (s.queue q).waiting.erase w }

/-- A request that waited before a slice goes on; its home may have been lost meanwhile (R517). -/
def State.goOn (s : State) (n pick : Nat) (r : Req) : State := if s.lostHome r.line then s.lostAnswer r else s.enter n pick r

/-- The next request of a slice's input queues that needs an entry of the queue is tried; it stays in its place if what else it needs is
not free. -/
def State.grantSlice (s : State) (q : QueueId) (n : Nat) (use : Nat → Nat) (pick : Nat) (x : Ext) : State :=
  if (s.slice n).stopped || s.asleep n then s else
  let hs := (inqHeads (s.slice n).inq [] []).filter fun r => decide ((s.slice n).needs n r = q)
  match s.arbGrant q use (hs.map s.reqAsk) pick with
  | none => s
  | some (i, s1) =>
    match hs[i]? with
    | none => s1
    | some r =>
      let s2 := s1.modSlice n fun y => { y with inq := y.inq.erase r }
      let s3 := s2.goOn n x.pick r
      if (s3.slice n).inq.length = (s2.slice n).inq.length then s3 else s

/-- An entry of a shared queue goes to a waiting request. `pick` is the turn within a round. -/
def State.grantEntry (s : State) (q : QueueId) (pick : Nat) (x : Ext) : State :=
  match q with
  | .tasks =>
    let ws := (s.queue .tasks).waiting.filter s.stillWaits
    match (s.arbGrant .tasks s.useTask (ws.map fun w => s.ask w.vd) pick).bind fun g => ws[g.1]?.map fun w => (w, g.2.unwaitOf .tasks w) with
    | none => s
    | some (w, s1) =>
      if w.item < 16 then (if s1.mayRead w.vd && s1.nextRing w.vd == some w.item then s1.readEntry w.vd w.item x else s1)
      else
        match s1.cmd? (w.item - 16) with
        | some c => if s1.current c && !c.uncreated.isEmpty && decide (s1.useTask c.vd < s1.quotaTask c.vd) then s1.createTask (w.item - 16) c else s1
        | none => s1
  | .hopperCmds =>
    match s.grantListed .hopperCmds s.useHopper pick with
    | some (w, s1) => s1.modCmd w.item fun c => { c with admitted := true }
    | none => s
  | .penOverflow =>
    let ws := s.penWaiting
    match ws.find? fun r => s.penOwnFree r.pen with
    | some r => s.penTake r .own
    | none =>
      match s.arbGrant .penOverflow s.useOvf (ws.map s.penAsk) pick with
      | none => s
      | some (i, s1) =>
        match ws[i]? with
        | some r => s1.penTake r .overflow
        | none => s1
  | .remoteOps =>
    let ws := s.pool.remWait
    -- none passes an earlier one of its VD or of its line (R237)
    let heads := ((List.range ws.length).zip ws).filter fun e =>
      (ws.take e.1).all fun y => decide (y.1.who.vd ≠ e.2.1.who.vd) && (decide (y.1.kind ≠ e.2.1.kind) || decide (y.1.line ≠ e.2.1.line))
    match s.arbGrant .remoteOps s.useRemote (heads.map fun e => s.ask e.2.1.who.vd) pick with
    | none => s
    | some (k, s1) =>
      match heads[k]? with
      | some (i, r, m) => { s1.send m with pool := { s1.pool with remWait := dropAt s1.pool.remWait i, remote := s1.pool.remote ++ [{ r with sentAt := s.now }] } }
      | none => s1
  | .walks =>
    let ws := s.slu.walks.filter fun w => !w.slot
    match s.arbGrant .walks s.useWalks (ws.map fun w => s.ask w.vd) pick with
    | none => s
    | some (i, s1) =>
      match ws[i]? with
      | some w => s1.setWalks fun l => l.map fun y => if y.vd = w.vd ∧ y.page = w.page then { y with slot := true, since := s.now } else y
      | none => s1
  | .cxlMem p =>
    let ws := (s.port p).held.filter fun r => !s.hostHeld r
    match s.arbGrant (.cxlMem p) (s.useCxl p) (ws.map fun r => s.ask r.vd) pick with
    | none => s
    | some (i, s1) =>
      match ws[i]? with
      | some r => (s1.modPort p fun y => { y with held := y.held.erase r }).hostAccept r false x.pick
      | none => s1
  | .missRegs n => s.grantSlice (.missRegs n) n (s.slice n).useMiss pick x
  | .waiters n => s.grantSlice (.waiters n) n (s.slice n).useWait pick x

/-- SHARED_ENTRY_GRANT (R165). -/
def execSharedEntryGrant (q : QueueId) (pick : Nat) (x : Ext) (s : State) : Res := .next (s.orWait x.pick fun s => s.grantEntry q pick x)

end Sys2Proof.Machine
end

