-- ==== Sys2Proof/Machine/ImageRead.lean ====
section
/-! DEFINITION. The boot image as bytes: its header, section table and sections (R86-R98), and the records that they hold
(Tables 14-1, 14-2, 14-8, 15-2, 15-3, 18-2). -/
namespace Sys2Proof.Machine

/-- `n` bytes from an offset, little-endian. -/
def at' (b : List Byte) (o n : Nat) : Nat := leNat ((b.drop o).take n)

/-- The bytes of a range are all 0. -/
def zeroAt (b : List Byte) (o n : Nat) : Bool := ((b.drop o).take n).all fun x => decide (x = 0)

/-! ### Header and section table -/

/-- Table 04-4. -/
structure SecEntry where
  ty : Nat
  fmt : Nat
  off : Nat
  len : Nat
  crc : Nat
  deriving DecidableEq, Repr

def imgSize (b : List Byte) : Nat := at' b 0x08 4
def imgSig (b : List Byte) : Nat := at' b 0x0C 4
def imgCount (b : List Byte) : Nat := at' b 0x20 2
def imgCaps (b : List Byte) : Nat := at' b 0x18 8

def secTable (b : List Byte) : List SecEntry :=
  (List.range (imgCount b)).map fun i =>
    let o := 0x100 + 16 * i
    { ty := at' b o 2, fmt := at' b (o + 2) 2, off := at' b (o + 4) 4, len := at' b (o + 8) 4, crc := at' b (o + 12) 4 }

def SecEntry.bytes (e : SecEntry) (b : List Byte) : List Byte := (b.drop e.off).take e.len

/-- The bytes of a section, if the image has it. -/
def imgSection (b : List Byte) (ty : Nat) : Option (List Byte) := ((secTable b).find? fun e => decide (e.ty = ty)).map fun e => e.bytes b

def sectionD (b : List Byte) (ty : Nat) : List Byte := (imgSection b ty).getD []

/-! ### Indexed sections (R98) -/

/-- The offsets of the records of an indexed section. -/
def idxOffsets (b : List Byte) : List Nat := (List.range (at' b 0 4)).map fun i => at' b (16 + 4 * i) 4

/-- R98: the frame holds together; `most` is the largest COUNT. DESIGN CHOICE (notes/assumptions/52.md): nonzero bytes in [15:6] of the frame
are rejected with SECTION_LENGTH as the rest of it. -/
def frameOk (b : List Byte) (most : Option Nat) : Bool :=
  let n := at' b 0 4
  let os := idxOffsets b
  decide (16 ≤ b.length) && zeroAt b 6 10 && (match most with | some m => decide (n ≤ m) | none => true) && decide (16 + 4 * n ≤ b.length)
    && os.all (fun o => decide (o % 64 = 0) && decide (16 + 4 * n ≤ o) && decide (o ≤ b.length))
    && ((os.zip (os.drop 1)).all fun p => decide (p.1 < p.2))

/-- The records of an indexed section. -/
def idxRecords (b : List Byte) : List (List Byte) :=
  let os := idxOffsets b
  (os.zip (os.drop 1 ++ [b.length])).map fun p => (b.drop p.1).take (p.2 - p.1)

/-- RECORD_FORMAT of an indexed section. -/
def idxFormat (b : List Byte) : Nat := at' b 4 2

/-! ### Sections of fixed layout -/

def readDevice (b : List Byte) : ImgDevice :=
  let f := at' b 3 1
  { minDies := at' b 0 1, dieExclude := at' b 1 1, anchorSel := at' b 2 1, sscAllowed := bit f 0, testLock := bit f 1,
    dramEncrypt := bit f 2, hylEnable := at' b 4 1, policyVd := at' b 5 1 }

/-- R91: the options of a port whose LD_COUNT is 0 have no effect. -/
def readPort (b : List Byte) (p : Nat) : ImgPort :=
  let o := 8 * p
  let f := at' b (o + 4) 1
  if at' b o 1 = 0 then {}
  else { ldCount := at' b o 1, maxWidth := at' b (o + 1) 1, maxRate := at' b (o + 2) 1, refMode := at' b (o + 3) 1,
         ideIoRequired := bit f 0, ideMemRequired := bit f 1, hdmDbAllowed := bit f 2 }

def readBays (b : List Byte) (s : Nat) : ImgBays := { kind := at' b (8 * s) 5 % 2 ^ 36, retain := at' b (8 * s + 5) 3 % 2 ^ 18 }

def readVd (b : List Byte) (v : Nat) : ImgVd :=
  let o := 16 * v
  { quotaTask := at' b o 2, quotaPen := at' b (o + 2) 2, quotaBuf := at' b (o + 4) 2, streams := at' b (o + 6) 2,
    quotaPage := at' b (o + 8) 4, qos := at' b (o + 12) 1, encrypt := bit (at' b (o + 13) 1) 0 }

/-- The POLICY section with the quota and QoS fields of VDS (R93, R94). -/
def readPolicy (b vds : List Byte) : Policy :=
  { fmThresh := Tab.ofFn 10 0 fun k => at' b (4 * k) 4
    fmWscale := Tab.ofFn 10 0 fun k => at' b (0x28 + k) 1
    refreshCap := at' b 0x32 2, srMinIdle := at' b 0x34 4, pgMinIdle := at' b 0x38 4, spillMaxK := at' b 0x3C 4
    keepAwake := at' b 0x40 8, hylEqHold := at' b 0x48 1, fantailEnable := bit (at' b 0x49 1) 0
    regionPolicy := Tab.ofFn 16 0 fun n => at' b (0x4C + n) 1
    quotaTask := Tab.ofFn 64 0 fun v => (readVd vds v).quotaTask
    quotaBuf := Tab.ofFn 64 0 fun v => (readVd vds v).quotaBuf
    quotaPage := Tab.ofFn 64 0 fun v => (readVd vds v).quotaPage
    quotaPen := Tab.ofFn 64 0 fun v => (readVd vds v).quotaPen
    qos := Tab.ofFn 64 0 fun v => (readVd vds v).qos }

def readRegion (b : List Byte) (i : Nat) : Region :=
  let o := 24 * i
  let a := at' b (o + 1) 1
  { vd := at' b o 1, bulk := bit a 0, memAtomic := bit a 1, promotable := bit a 2, keepLocal := bit a 3,
    policyIndex := at' b (o + 2) 1, base := at' b (o + 8) 8, length := at' b (o + 16) 8 }

def readPool (b : List Byte) (p : Nat) : ImgPool :=
  let o := 16 * p
  if at' b o 1 = 0 then {}
  else { kind := at' b o 1, size := at' b (o + 4) 4, classes := (List.range (at' b (o + 1) 1)).map fun i => at' b (o + 8 + i) 1 }

def readPoolMap (b : List Byte) : PoolMap :=
  { mode := at' b 0 1, maxDevices := at' b 1 1, poolId := at' b 4 4
    entries := (List.range (at' b 2 2)).map fun i => (at' b (8 + 16 * i) 8, at' b (16 + 16 * i) 1) }

/-! ### Records -/

def readBucket (b : List Byte) (i : Nat) : Bucket :=
  let o := 0x40 + 64 * i
  { bm := at' b o 4, bn := at' b (o + 4) 2, bk := at' b (o + 8) 4, mt := at' b (o + 0xC) 1, nt := at' b (o + 0xD) 1,
    order := at' b (o + 0xE) 1, ml := at' b (o + 0x10) 4, nl := at' b (o + 0x14) 2, kl := at' b (o + 0x18) 4,
    mb := at' b (o + 0x1C) 4, nb := at' b (o + 0x20) 2 }

/-- Table 14-1. -/
def readPlan (b : List Byte) : Plan :=
  { kind := at' b 0 1, buckets := (List.range (at' b 1 1)).map (readBucket b)
    aFmt := at' b 2 1 % 16, xFmt := at' b 2 1 / 16
    xConv := field (at' b 3 1) 0 2, accMode := field (at' b 3 1) 2 2, maxRetry := field (at' b 3 1) 4 3, ovfSaturate := bit (at' b 3 1) 7
    scaleA := toSigned 8 (at' b 4 1), scaleX := toSigned 8 (at' b 5 1), frame := toSigned 8 (at' b 6 1)
    spillK := at' b 7 1 % 32, seed := at' b 8 4, outFmt := at' b 0xC 1 % 16, round := field (at' b 0xC 1) 4 2, stages := at' b 0xD 1
    func := at' b 0xE 2, scaleC := at' b 0x10 4, biasC := at' b 0x14 4, auxScale := at' b 0x18 4, auxBias := at' b 0x1C 4
    auxRes := at' b 0x20 4, auxHdr := at' b 0x24 4, padAOn := bit (at' b 0x28 1) 0, padXOn := bit (at' b 0x28 1) 1
    ksplit := at' b 0x29 1 % 4, flume := at' b 0x2A 2, padA := at' b 0x2C 4, padX := at' b 0x30 4, scratch := at' b 0x34 1
    acqBay := bit (at' b 0x35 1) 0, relBay := bit (at' b 0x35 1) 1, nFixed := at' b 0x36 2 }

/-- Table 15-3. -/
def readEntry (x : Nat) : FlumeEntry :=
  { cycle := field x 0 12, router := field x 12 3, inp := field x 15 3, out := field x 18 5, add := decide (field x 23 2 = 1) }

/-- Where variant `v` of a record with `n` entries begins (R393). -/
def variantAt (n v : Nat) : Nat := 16 + v * (8 + 8 * n)

def readFlume (b : List Byte) : FlumeRec :=
  let n := at' b 4 2
  { reduce := decide (at' b 0 1 = 1), period := at' b 2 2, fmt := at' b 6 1
    variants := (List.range (at' b 1 1)).map fun v =>
      let o := variantAt n v
      { participants := at' b o 1, dest := at' b (o + 1) 1 % 8, entries := (List.range n).map fun i => readEntry (at' b (o + 8 + 8 * i) 8) } }

/-- Table 18-2. -/
def readService (b : List Byte) : SvcRec :=
  { op := at' b 0 1, args := at' b 1 1
    maps := (List.range (at' b 1 1)).map fun i => (at' b (0x10 + 4 * i) 1, 2 ^ field (at' b (0x10 + 4 * i) 4) 8 2)
    template := BitVec.ofNat 512 (at' b 0x40 64) }

/-- Table 14-8. -/
def readFunc (b : List Byte) : FuncTable :=
  { lo := at' b 8 4, rscale := at' b 0xC 4, segs := (List.range (2 ^ at' b 0 1)).map fun i => (at' b (0x10 + 8 * i) 4, at' b (0x14 + 8 * i) 4) }

/-- Records under their numbers. -/
def numbered {α : Type} (xs : List α) : Tab α := (List.range xs.length).zip xs

/-- The image that the bytes spell; `limited` keeps the DEVICE and CXL sections alone (R100, R107). -/
def readImage (b : List Byte) (limited : Bool) : Image :=
  let cxl := sectionD b 2
  let base : Image := { applied := true, device := readDevice (sectionD b 1), ports := Tab.ofFn 4 {} (readPort cxl) }
  if limited then base
  else
    let vds := sectionD b 4
    let recs (ty : Nat) : List (List Byte) := idxRecords (sectionD b ty)
    { base with
      bays := Tab.ofFn 64 {} (readBays (sectionD b 3))
      vds := Tab.ofFn 64 {} (readVd vds)
      pol := readPolicy (sectionD b 5) vds
      regions := (List.range ((sectionD b 6).length / 24)).map (readRegion (sectionD b 6))
      pools := Tab.ofFn 16 {} (readPool (sectionD b 7))
      poolMap := (imgSection b 8).map readPoolMap
      mapDigest := match imgSection b 8 with | some x => (Config.sha384 x).toNat % 2 ^ 64 | none => 0
      plans := numbered ((recs 9).map readPlan)
      flumes := numbered ((recs 0xA).map readFlume)
      services := numbered ((recs 0xB).map readService)
      funcs := numbered ((recs 0xC).map readFunc) }

end Sys2Proof.Machine
end

