-- ==== Sys2Proof/Machine/ImageCheck.lean ====
section
/-! DEFINITION. The checks of a boot slot (R86-R99, R103, R104): its reason code, with the section type and record where one applies. -/
namespace Sys2Proof.Machine

/-- A rejection: the code of Table 04-13, the section type and the record. -/
structure Bad where
  code : Nat
  sec : Nat := 0
  idx : Nat := 0
  deriving DecidableEq, Repr

def need (ok : Bool) (code : Nat) (sec : Nat := 0) (idx : Nat := 0) : Option Bad :=
  if ok then none else some { code := code, sec := sec, idx := idx }

/-- The first failure (R99). -/
def firstBad : List (Option Bad) → Option Bad
  | [] => none
  | some b :: _ => some b
  | none :: t => firstBad t

/-! ### Checks 1 and 2 -/

def check1 (b : List Byte) : Option Bad :=
  firstBad [
    need (decide (at' b 0 4 = 0x4D495846)) 0x0101,
    need (decide (at' b 0xFC 4 = crc32 (b.take 0xFC))) 0x0102,
    need (decide (at' b 4 2 = 1) && decide (at' b 6 2 = 256)) 0x0103,
    need (decide (imgSize b ≤ 8388608) && decide (imgSig b % 64 = 0) && decide (0x100 ≤ imgSig b) && decide (imgSize b = imgSig b + 256)) 0x0104]

/-- R87, R101: the digest of the signed region. -/
def signedDigest (b : List Byte) : Nat := (Config.sha384 (b.take (imgSig b))).toNat

def check2 (f : Fuses) (b : List Byte) : Option Bad :=
  let g := b.drop (imgSig b)
  let k := at' b 0x16 1
  let slot : KeySlot := f.keys.getD k {}
  let pub := (g.drop 8).take 97
  firstBad [
    need (decide (at' g 0 4 = 0x47535846)) 0x0101,
    need (decide (k ≤ 3) && slot.provisioned) 0x0201,
    need (!slot.revoked) 0x0202,
    need (decide ((Config.sha384 pub).toNat = slot.digest)) 0x0203,
    need (Config.ecdsaP384 pub (BitVec.ofNat 384 (signedDigest b)) ((g.drop 0x70).take 48) ((g.drop 0xA0).take 48)) 0x0204,
    need (decide (f.minSecurity ≤ at' b 0x14 2)) 0x0205]

/-! ### Check 3 -/

/-- R88: count, order, alignment, bounds and overlap. A section of length zero strictly inside another overlaps it (DESIGN CHOICE,
notes/assumptions/45.md). -/
def tableChecks (b : List Byte) : List (Option Bad) :=
  let es := secTable b
  let stop := 0x100 + 16 * imgCount b
  [need (decide (5 ≤ imgCount b) && decide (imgCount b ≤ 12) && decide (stop ≤ imgSig b)) 0x0105]
    ++ (es.zip (es.drop 1)).map (fun p => need (decide (p.1.ty < p.2.ty)) 0x0105 p.2.ty)
    ++ es.map (fun e => need (decide (e.off % 64 = 0)) 0x0105 e.ty)
    ++ es.map (fun e => need (decide (stop ≤ e.off) && decide (e.off + e.len ≤ imgSig b)) 0x0105 e.ty)
    ++ es.map (fun e => need (es.all fun g => decide (e.ty = g.ty) || decide (g.off + g.len ≤ e.off) || decide (e.off + e.len ≤ g.off) || decide (e.off < g.off)) 0x0105 e.ty)

/-- Table 04-5, R97, R98: a section has a length that its type allows. -/
def lengthOk (e : SecEntry) (b : List Byte) : Bool :=
  let x := e.bytes b
  match e.ty with
  | 1 => e.len == 16 | 2 => e.len == 32 | 3 => e.len == 512 | 4 => e.len == 1024 | 5 => e.len == 96
  | 6 => decide (e.len % 24 = 0) && decide (e.len ≤ 24 * 256)
  | 7 => e.len == 256
  | 8 => decide (8 ≤ e.len) && decide (e.len = 8 + 16 * at' x 2 2) && decide (at' x 2 2 ≤ 128)
  | 9 => frameOk x (some 1024) | 0xA => frameOk x none | 0xB => frameOk x (some 256) | 0xC => frameOk x (some 64)
  | _ => true

/-- R90 to R97: reserved fields and encodings of the sections of fixed layout, record by record. -/
def reservedOk (b : List Byte) (e : SecEntry) : List Bool :=
  let x := e.bytes b
  let cxl := sectionD b 2
  match e.ty with
  | 1 => [decide (1 ≤ at' x 0 1) && decide (at' x 0 1 ≤ 8) && decide (at' x 2 1 ≤ 4) && decide (at' x 3 1 < 8) && zeroAt x 6 10]
  | 2 => (List.range 4).map fun p => decide (at' x (8 * p + 4) 1 < 8) && zeroAt x (8 * p + 5) 3
  | 3 => (List.range 64).map fun s =>
      let kind := at' x (8 * s) 5
      let ret := at' x (8 * s + 5) 3
      decide (kind < 2 ^ 36) && decide (ret < 2 ^ 18)
        && (List.range 18).all fun i => decide (kind / 4 ^ i % 4 ≠ 3) && (!bit ret i || decide (kind / 4 ^ i % 4 = 1))
  | 4 => (List.range 64).map fun v =>
      if v % 16 < at' cxl (8 * (v / 16)) 1 then
        let q := at' x (16 * v + 12) 1
        decide (q % 4 ≠ 3) && decide (1 ≤ q / 4) && decide (q / 4 ≤ 16) && decide (at' x (16 * v + 13) 1 < 2) && zeroAt x (16 * v + 14) 2
      else true
  | 5 => [zeroAt x 0x4A 2 && zeroAt x 0x5C 4]
  | 6 => (List.range (e.len / 24)).map fun i =>
      decide (at' x (24 * i + 1) 1 < 16) && (decide (at' x (24 * i + 2) 1 < 16) || decide (at' x (24 * i + 2) 1 = 255)) && zeroAt x (24 * i + 3) 5
  | 7 => (List.range 16).map fun p =>
      let o := 16 * p
      let n := at' x (o + 1) 1
      if at' x o 1 = 0 then zeroAt x o 16
      else decide (at' x o 1 < 3) && decide (1 ≤ n) && decide (n ≤ 8) && zeroAt x (o + 2) 2
        && (List.range 8).all fun i =>
          let c := at' x (o + 8 + i) 1
          if i < n then decide (6 ≤ c) && decide (c ≤ 21) else decide (c = 0)
  | 8 => (List.range (at' x 2 2)).map fun i => zeroAt x (17 + 16 * i) 7
  | _ => []

/-- `full` tells a slot kept whole from one of which only DEVICE and CXL are kept (R100). -/
def check3 (b : List Byte) (full : Bool) : Option Bad :=
  let es := secTable b
  let g := b.drop (imgSig b)
  let kept := if full then es else es.filter fun e => decide (e.ty = 1) || decide (e.ty = 2)
  firstBad ([
    need (zeroAt b 0x17 1 && zeroAt b 0x22 2 && zeroAt b 0x50 172 && zeroAt g 4 4 && zeroAt g 0x69 7 && zeroAt g 0xD0 48) 0x010A]
    ++ tableChecks b
    ++ es.map (fun e => need (decide (e.fmt = 1)) 0x0103 e.ty)
    ++ kept.map (fun e => need (lengthOk e b) 0x0106 e.ty)
    ++ kept.map (fun e => need (decide (crc32 (e.bytes b) = e.crc)) 0x0107 e.ty)
    ++ kept.map (fun e => need (decide (1 ≤ e.ty) && decide (e.ty ≤ 0xC)) 0x0108 e.ty)
    ++ [1, 2, 3, 4, 5].map (fun t => need (es.any fun e => decide (e.ty = t)) 0x0109 t)
    ++ kept.map (fun e => firstBad ((numbered (reservedOk b e)).map fun r => need r.2 0x010A e.ty r.1)))

/-! ### Plans (R366-R388) -/

/-- Table 13-4. -/
def pairingOk (a x : NumFmt) (acc : Nat) : Bool :=
  let eight (f : NumFmt) : Bool := f == .int8 || f == .lzb8
  let fp8 (f : NumFmt) : Bool := f == .e4m3 || f == .e5m2
  let half (f : NumFmt) : Bool := f == .bf16 || f == .fp16
  (eight a && eight x && decide (acc < 2)) || (fp8 a && fp8 x && decide (2 ≤ acc)) || (half a && half x && acc == 2)
    || (acc == 0 && ((a == .int16 && x == .int16) || (a == .int8 && x == .int16) || (a == .int16 && x == .int8)))
    || (a == .fp32 && x == .fp32 && acc == 2)

/-- R376. -/
def padOk (on : Bool) (f : NumFmt) (v : Nat) : Bool :=
  if on then f != .lzb8 && decide (v < 256 ^ f.bytes) else v == 0

/-- Table 14-2, R374, R382, R487 for one bucket. -/
def bucketOk (p : Plan) (b : List Byte) (i : Nat) : Bool :=
  let u := readBucket b i
  let o := 0x40 + 64 * i
  let d := if p.kind = 0x31 ∨ p.kind = 0x38 then 1 else p.depth
  let bound := (u.mt * u.nt + 63) / 64 * ((u.kl + d - 1) / d) + (u.kl + 31) / 32 * ((u.mt * u.nt + 31) / 32)
  (if p.kind = 0x30 then decide (1 ≤ u.bn) else u.bn == 0)
    && decide (1 ≤ u.mt) && decide (u.mt ≤ 64) && decide (1 ≤ u.nt) && decide (u.nt ≤ (if p.accMode % 2 = 0 then 32 else 64))
    && decide (u.order % 8 ≤ 5) && decide (u.order < 32)
    && decide (0 < u.ml) && decide (u.ml % u.mt = 0) && decide (0 < u.nl) && decide (u.nl % u.nt = 0)
    && decide (16 ≤ u.kl) && decide (u.kl ≤ 65536)
    && (p.kind != 0x30 || (decide (u.kl % p.depth = 0) && (!(p.a == .lzb8 || p.xc == .lzb8) || decide (u.kl % 16 = 0))))
    && decide (0 < u.mb) && decide (u.mb % u.ml = 0) && decide (0 < u.nb) && decide (u.nb % u.nl = 0)
    && zeroAt b (o + 6) 2 && zeroAt b (o + 0xF) 1 && zeroAt b (o + 0x16) 2 && zeroAt b (o + 0x22) 30
    && (p.kind == 0x39 || decide (bound ≤ 16384))
    && (p.out != .lzb8 || decide (u.mt % 16 = 0))
    && (p.kind != 0x3A || (u.mt == 32 && u.ml == 32 && u.mb == 32 && u.nt == 1 && u.nl == 1 && u.nb == 1 && decide (p.nFixed ≤ u.kl)))

/-- Tables 13-7 and 14-1 with the rules that name their fields (R344-R346, R353, R367, R369, R376, R383, R478, R487, R495). -/
def headOk (p : Plan) (b : List Byte) : Bool :=
  let k := p.kind
  let int8or16 (f : NumFmt) : Bool := f == .int8 || f == .int16
  let aux (used : Bool) (o : Nat) : Bool := if used then decide (o % 64 = 0) else decide (o = 0xFFFFFFFF)
  [0x30, 0x31, 0x38, 0x39, 0x3A].contains k
    && decide (p.aFmt ≤ 8) && decide (p.aFmt ≠ 7) && decide (p.xFmt ≤ 8) && decide (p.outFmt ≤ 8)
    && (p.xConv == 0 || p.xFmt == 0 || p.xFmt == 1 || p.xFmt == 2)
    && (int8or16 p.a || p.scaleA == 0) && (int8or16 p.x || p.scaleX == 0)
    && (p.intAcc || (p.frame == 0 && p.maxRetry == 0)) && decide (p.maxRetry ≤ 4)
    && decide (5 ≤ at' b 7 1) && decide (at' b 7 1 ≤ 16) && decide (p.round ≤ 2) && decide (at' b 0xC 1 < 64) && decide (p.stages < 128)
    && aux (p.scaleOn && p.scaleSrc) p.auxScale && aux (p.biasOn && p.biasSrc) p.auxBias && aux (p.resOn && !p.resSrc) p.auxRes && aux p.hdrOn p.auxHdr
    && decide (at' b 0x28 1 < 4) && decide (at' b 0x29 1 < 4) && decide (1 ≤ p.scratch) && decide (p.scratch ≤ 8) && decide (at' b 0x35 1 < 4)
    && (if k = 0x30 then p.nFixed == 0 else decide (1 ≤ p.nFixed)) && zeroAt b 0x38 8
    && padOk p.padAOn p.a p.padA && padOk p.padXOn p.x p.padX
    && (!(k == 0x30 || k == 0x3A) || pairingOk p.a p.xc p.accMode)
    && !(p.intAcc && p.out.isInt && p.fused) && !(p.intAcc && p.out.isInt && decide (0 < p.maxRetry) && !p.hdrOn)
    && (k == 0x30 || (!p.scaleSrc && !p.biasSrc && !(p.resOn && !p.resSrc) && !p.hdrOn && p.maxRetry == 0))
    && (k != 0x38 || (p.aFmt == 0 && p.xConv == 0 && p.scaleA == 0 && p.scaleX == 0 && p.frame == 0 && p.ksplit == 0 && p.accMode == 2))
    && (!(k == 0x39 || k == 0x3A) || (p.a != .lzb8 && decide (p.nFixed % 16 = 0) && decide (16 ≤ p.nFixed) && decide (p.nFixed ≤ 240) && p.accMode == 2))
    && (k != 0x39 || (p.outFmt == p.aFmt && !p.biasOn && !p.actOn && !p.resOn))
    && (k != 0x31 || (!p.fused && p.aFmt == 0))

/-- R377, R385, R397: what a plan names, by the later section's COUNT and the KIND and FMT bytes of the named record (R99). -/
def namesOk (p : Plan) (flumes : List (List Byte)) (nFunc : Nat) : Bool :=
  (if p.actOn then decide (p.func < nFunc) else p.func == 0xFFFF)
    && (if p.flume = 0xFFFF then p.ksplit == 0
        else match flumes[p.flume]? with
          | none => false
          | some f =>
            if p.ksplit = 0 then at' f 0 1 == 0 && p.buckets.all fun u => decide (u.bn ≠ 0) && decide (u.bn ≤ u.nb)
            else at' f 0 1 == 1 && at' f 6 1 == 0)

def planRecordOk (b : List Byte) (flumes : List (List Byte)) (nFunc : Nat) : Bool :=
  let p := readPlan b
  let n := at' b 1 1
  decide (1 ≤ n) && decide (n ≤ 8) && decide (64 + 64 * n ≤ b.length) && zeroAt b (64 + 64 * n) b.length
    && headOk p b && (List.range n).all (bucketOk p b) && namesOk p flumes nFunc

/-! ### Timetables (R393-R395) -/

/-- The router that a port of a router leads to: 1 N, 2 E, 3 S, 4 W (R391). -/
def meshNext (r port : Nat) : Option Nat :=
  match port with
  | 1 => if r / 4 = 1 then some (r - 4) else none
  | 2 => if r % 4 < 3 then some (r + 1) else none
  | 3 => if r / 4 = 0 then some (r + 4) else none
  | 4 => if 0 < r % 4 then some (r - 1) else none
  | _ => none

/-- The port on which a flit sent through a port arrives. -/
def meshBack (port : Nat) : Nat := match port with | 1 => 3 | 2 => 4 | 3 => 1 | _ => 2

/-- OUT bits of an entry as ports: 0 LOCAL, 1 N, 2 E, 3 S, 4 W. -/
def FlumeEntry.outs (e : FlumeEntry) : List Nat := bitsOf 5 e.out

def variantOk (r : FlumeRec) (v : FlumeVariant) : Bool :=
  let es := v.entries
  let rank (e : FlumeEntry) : Nat := e.cycle * 8 + e.router
  let arrives (e : FlumeEntry) (g : FlumeEntry) : Bool :=
    decide (g.cycle = e.cycle + 1) && e.outs.any fun o => meshNext e.router o == some g.router && meshBack o == g.inp
  ((es.zip (es.drop 1)).all fun p => decide (rank p.1 < rank p.2))
    && es.all fun e =>
      decide (e.cycle < r.period) && decide (e.inp ≤ 4) && decide (0 < e.out)
        && (e.inp == 0 || (meshNext e.router e.inp).isSome) && (e.outs.all fun o => o == 0 || (meshNext e.router o).isSome)
        && (!e.add || (e.inp != 0 && r.reduce)) && (!(e.inp == 0 || e.add) || bit v.participants e.router)
        && (e.outs.all fun o => o == 0 || (decide (e.cycle + 1 < r.period) && es.any fun g => decide (g.cycle = e.cycle + 1) && meshNext e.router o == some g.router && meshBack o == g.inp))
        && (e.inp == 0 || es.any fun g => arrives g e)
        && (!r.reduce || !bit e.out 0 || e.router == v.dest)

def flumeRecordOk (b : List Byte) : Bool :=
  let r := readFlume b
  let nv := at' b 1 1
  let ne := at' b 4 2
  let stop := variantAt ne nv
  decide (at' b 0 1 < 2) && (nv == 1 || nv == 8) && decide (1 ≤ r.period) && decide (r.period ≤ 4096) && decide (1 ≤ ne) && decide (ne ≤ 4096)
    && (if r.reduce then decide (r.fmt < 4) else r.fmt == 0) && zeroAt b 7 9 && decide (stop ≤ b.length) && zeroAt b stop b.length
    && ((List.range nv).all fun v =>
      let o := variantAt ne v
      decide (at' b (o + 1) 1 < 8) && zeroAt b (o + 2) 6 && (r.reduce || at' b (o + 1) 1 == 0)
        && (List.range ne).all fun i => decide (at' b (o + 8 + 8 * i) 8 < 2 ^ 24))
    && r.variants.all (variantOk r)

/-! ### Services (R497) and function tables (R385) -/

def serviceOps : List Nat := [0x10, 0x11, 0x12, 0x13, 0x14, 0x30, 0x31, 0x38, 0x39, 0x3A, 0x40]

/-- No argument replaces a byte of the range. -/
def unmapped (r : SvcRec) (o n : Nat) : Bool := r.maps.all fun m => decide (m.1 + m.2 ≤ o) || decide (o + n ≤ m.1)

def serviceRecordOk (b : List Byte) : Bool :=
  let r := readService b
  let t : Cmd := { vd := 0, ring := 0, epoch := 0, desc := r.template }
  let mapOk (i : Nat) : Bool :=
    let w := at' b (0x10 + 4 * i) 4
    let o := w % 256
    let n := 2 ^ field w 8 2
    decide (w < 1024) && decide (0x16 ≤ o) && decide (o + n ≤ 0x40) && decide (o % n = 0)
      && (List.range i).all fun j => let m := r.maps.getD j (0, 0); decide (m.1 + m.2 ≤ o) || decide (o + n ≤ m.1)
  decide (b.length = 128) && serviceOps.contains r.op && decide (r.args ≤ 5) && zeroAt b 2 14 && zeroAt b 0x24 28
    && ((List.range 5).all fun i => if i < r.args then mapOk i else zeroAt b (0x10 + 4 * i) 4)
    && (at' b 0x40 1 == r.op) && zeroAt b 0x41 0x15
    && (!unmapped r 0x16 2 || opxOk r.op t.opx)
    && ((List.range 40).all fun i => (bodyUsed r.op).any (fun u => decide (u.1 ≤ 0x18 + i) && decide (0x18 + i < u.1 + u.2))
        || !unmapped r (0x18 + i) 1 || at' b (0x58 + i) 1 == 0)
    && (refFields r.op).all fun o => !unmapped r o 8 || (opRef (t.f o 8)).isSome

/-- R497: the plan that a template names exists and serves the opcode (check 4, R99). -/
def servicePlanOk (b : List Byte) (plans : List (List Byte)) : Bool :=
  let r := readService b
  let t : Cmd := { vd := 0, ring := 0, epoch := 0, desc := r.template }
  !planOp r.op || !unmapped r 0x16 2 || (match plans[t.opx % 1024]? with | some p => at' p 0 1 == r.op | none => false)

/-- R497: the pools of a template's handles are used (check 6, R99). -/
def servicePoolsOk (r : SvcRec) (pools : Tab ImgPool) : Bool :=
  let t : Cmd := { vd := 0, ring := 0, epoch := 0, desc := r.template }
  let poolUsed (h : Nat) : Bool := h == 0xFFFFFFFF || decide ((pools.getD (field h 20 4) {}).kind ≠ 0)
  ((refFields r.op).all fun o => !unmapped r o 8 || (match opRef (t.f o 8) with | some (.blk h _) => poolUsed h | _ => true))
    && (r.op != 0x30 || !unmapped r 0x3C 4 || poolUsed (t.f 0x3C 4))

def funcRecordOk (b : List Byte) : Bool :=
  let n := at' b 0 1
  let stop := 16 + 8 * 2 ^ n
  decide (n ≤ 8) && zeroAt b 1 7 && fp32Finite (at' b 8 4) && fp32Finite (at' b 0xC 4)
    && decide (0 < at' b 0xC 4) && decide (at' b 0xC 4 < 2 ^ 31)
    && decide (stop ≤ b.length) && zeroAt b stop b.length && decide (b.length < stop + 64)

/-! ### Check 4 -/

/-- Table 04-17, the image ranges of POLICY (R94). -/
def policyOk (b : List Byte) : Bool :=
  let k := at' b 0x3C 4
  ((List.range 10).all fun i => decide (1 ≤ at' b (4 * i) 4) && decide (1 ≤ at' b (0x28 + i) 1))
    && decide (975 ≤ at' b 0x32 2) && decide (at' b 0x32 2 ≤ 3900) && decide (1 ≤ at' b 0x34 4) && decide (at' b 0x34 4 ≤ 1000000)
    && decide (10 ≤ at' b 0x38 4) && decide (at' b 0x38 4 ≤ 10000000) && decide (64 ≤ k) && decide (k ≤ 65536) && decide (2 ^ Nat.log2 k = k)
    && decide (at' b 0x49 1 < 2) && (List.range 16).all fun n => decide (at' b (0x4C + n) 1 < 8)

def exists' (ports : Tab ImgPort) (v : Nat) : Bool := decide (v < 64) && decide (v % 16 < (ports.getD (v / 16) {}).ldCount)

def vdRecordOk (d : ImgDevice) (ports : Tab ImgPort) (b : List Byte) (v : Nat) : Bool :=
  let x := readVd b v
  if exists' ports v then
    decide (x.quotaTask ≤ 4096) && decide (x.quotaPen ≤ 8192) && decide (1 ≤ x.streams) && decide (x.streams ≤ 2048)
      && decide (x.quotaPage ≤ 67108864) && (!x.encrypt || d.dramEncrypt)
  else zeroAt b (16 * v) 16

/-- R97: the map is legal, entry by entry. -/
def poolMapChecks (m : PoolMap) : List (Option Bad) :=
  [need ((m.mode == 1 || m.mode == 2) && decide (2 ≤ m.maxDevices) && decide (m.maxDevices ≤ 128)) 0x0406 8]
    ++ (numbered m.entries).map fun e => need (decide (e.2.2 < m.maxDevices)
      && (m.entries.take e.1).all fun g => decide (g.1 ≠ e.2.1) && decide (g.2 ≠ e.2.2)) 0x0406 8 e.1

/-- The records of an indexed section under a rule. -/
def recordsOk (b : List Byte) (ty : Nat) (ok : List Byte → Bool) (code : Nat) : List (Option Bad) :=
  (numbered (idxRecords (sectionD b ty))).map fun r => need (ok r.2) code ty r.1

/-- RECORD_FORMAT of an indexed section is 1. -/
def formatOk (b : List Byte) (ty : Nat) : Option Bad := need ((imgSection b ty).isNone || idxFormat (sectionD b ty) == 1) 0x0407 ty

/-- Check 4 (R99). Of the tests of DEVICE the clock's comes first, then HYL_ENABLE without POOL_MAP, then POLICY_VD (DESIGN CHOICE,
notes/assumptions/45.md). -/
def check4 (b : List Byte) (full : Bool) : Option Bad :=
  let d := readDevice (sectionD b 1)
  let cxl := sectionD b 2
  let ports : Tab ImgPort := Tab.ofFn 4 {} (readPort cxl)
  let vds := sectionD b 4
  let rs := (List.range ((sectionD b 6).length / 24)).map (readRegion (sectionD b 6))
  let anchor := ports.getD d.anchorSel {}
  let portOk (p : Nat) : Bool :=
    let x := ports.getD p {}
    x.ldCount == 0 || (decide (x.ldCount ≤ 16) && [4, 8, 16].contains x.maxWidth && [8, 16, 32, 64].contains x.maxRate && decide (x.refMode < 3))
  let flumes := idxRecords (sectionD b 0xA)
  let plans := idxRecords (sectionD b 9)
  firstBad ([
    need (d.anchorSel == 4 || (decide (anchor.ldCount ≠ 0) && decide (anchor.refMode ≠ 2))) 0x0401 1,
    need (d.hylEnable == 0 || (imgSection b 8).isSome) 0x0406 1,
    need (d.policyVd == 0xFF || exists' ports d.policyVd) 0x0403 1]
    ++ (List.range 4).map (fun p => need (portOk p) 0x0402 2 p)
    ++ (if full then
        (List.range 64).map (fun v => need (vdRecordOk d ports vds v) 0x0403 4 v)
        ++ [need (policyOk (sectionD b 5)) 0x0404 5]
        ++ (numbered rs).map (fun r => firstBad [
            need (exists' ports r.2.vd) 0x0403 6 r.1,
            need (decide (r.2.base % 2097152 = 0) && decide (0 < r.2.length) && decide (r.2.length % 2097152 = 0)
              && decide (r.2.base + r.2.length ≤ 2 ^ 42)
              && ((rs.take r.1).all fun g => decide (g.vd ≠ r.2.vd) || decide (g.base + g.length ≤ r.2.base) || decide (r.2.base + r.2.length ≤ g.base))) 0x0405 6 r.1])
        ++ (match imgSection b 8 with | some x => poolMapChecks (readPoolMap x) | none => [])
        ++ [formatOk b 9] ++ recordsOk b 9 (fun r => planRecordOk r flumes (idxRecords (sectionD b 0xC)).length) 0x0407
        ++ [formatOk b 0xA] ++ recordsOk b 0xA flumeRecordOk 0x0407
        ++ [formatOk b 0xB] ++ (numbered (idxRecords (sectionD b 0xB))).map (fun r => firstBad [
            need (serviceRecordOk r.2) 0x0407 0xB r.1, need (servicePlanOk r.2 plans) 0x0506 0xB r.1])
        ++ [formatOk b 0xC] ++ recordsOk b 0xC funcRecordOk 0x0407
      else []))

/-! ### Check 5 (R103) -/

/-- Table 04-12: the capability bits that the content of an image requires. -/
def Image.requires (i : Image) : Nat :=
  let on (f : ImgPort → Bool) : Bool := i.ports.any fun p => decide (p.2.ldCount ≠ 0) && f p.2
  let big := match i.poolMap with | some m => decide (16 < m.maxDevices) | none => false
  packBits 6 fun
    | 0 => on fun p => p.maxRate == 64
    | 1 => on fun p => p.ideMemRequired
    | 2 => decide (16 ≤ i.device.hylEnable) || decide (16 ≤ i.pol.hylEqHold)
    | 3 => big
    | 4 => big
    | _ => i.device.dramEncrypt

/-- A required capability that is absent, from bit 0 upward, then content that none declares. -/
def check5 (i : Image) (req caps : Nat) : Option Bad :=
  firstBad ((List.range 6).map (fun n => need (!bit req n || bit caps n) (0x0301 + n))
    ++ [need (decide (req < 64)) 0x0307, need ((List.range 6).all fun n => !bit i.requires n || bit req n) 0x0308])

/-! ### Check 6 -/

/-- R38: the capacity of an inventory of `s` ACTIVE dies with `f` failed channels. -/
def capacity38 (s f : Nat) : Nat := 2 ^ 35 * s - 1207959552 * (f - s)

/-- Table 14-5, R379: the bytes of each buffer, rounded up to whole KiB, and those of the A local tiles. -/
def kib (n : Nat) : Nat := (n + 1023) / 1024 * 1024

def Plan.aTiles (p : Plan) (u : Bucket) : Nat := kib (if p.kind = 0x38 then 2 * u.ml * u.kl * 4 else 2 * u.ml * rowBytes u.kl p.a)

/-- R379: the accumulator tiles that may be live at once. -/
def Plan.liveTiles (p : Plan) (u : Bucket) : Nat :=
  if u.bk ≠ 0 ∧ (u.bk + 2 ^ p.ksplit - 1) / 2 ^ p.ksplit ≤ u.kl then 1
  else
    let o := u.order % 8
    let mIn := o = 3 ∨ o = 4 ∨ o = 5
    let nIn := o = 1 ∨ o = 4 ∨ o = 5
    u.ml / u.mt * (u.nl / u.nt) * (if mIn then (u.mb + u.ml - 1) / u.ml else 1) * (if nIn then (u.nb + u.nl - 1) / u.nl else 1)

def Plan.spillBytes (p : Plan) (u : Bucket) : Nat :=
  let lv := p.liveTiles u
  if p.accMode = 2 then (if 1 < lv then kib (lv * u.mt * u.nt * 4) else 0)
  else kib ((lv + 1) * u.mt * u.nt * (if p.accMode = 0 then 8 else 4))

def Plan.fits (p : Plan) (cacheBays : Nat) (u : Bucket) : Bool :=
  let x := if p.kind = 0x38 then 0 else kib (2 * u.nl * rowBytes u.kl p.xc)
  decide (p.aTiles u + x + p.spillBytes u ≤ p.scratch * 65536) && decide (p.aTiles u ≤ (cacheBays - 1) * 262144)

/-- What an inventory offers the checks: ACTIVE dies as a mask and the failed channels on them. -/
structure Stock where
  active : Nat
  failed : Nat
  deriving DecidableEq, Repr

def bayCount (i : Image) (n kind : Nat) : Nat := ((List.range 18).filter fun b => decide ((i.bays.getD n {}).kind / 4 ^ b % 4 = kind)).length

/-- R396: the entries of the records named. -/
def timetableEntries (i : Image) (named : List Nat) : Nat :=
  named.eraseDups.foldl (fun (a f : Nat) => a + (match i.flumes.find f with
    | some r => r.variants.foldl (fun (a : Nat) v => a + v.entries.length) 0
    | none => 0)) 0

/-- R38, R96, R242, R243: the Hopper pools against the pinned bays and the DRAM units of an inventory. -/
def poolChecks (i : Image) (pinned units : Nat) : List (Option Bad) :=
  let used := i.pools.filter fun p => decide (p.2.kind ≠ 0)
  let upTo (k n : Nat) : Nat := (used.filter fun p => decide (p.2.kind = k) && decide (p.1 ≤ n)).foldl (fun a p => a + p.2.size) 0
  let rising (xs : List Nat) : Bool := (xs.zip (xs.drop 1)).all fun p => decide (p.1 < p.2)
  used.map fun p => need (rising p.2.classes && decide (0 < p.2.size) && (p.2.kind != 1 || decide (p.2.size % 4 = 0))
    && (if p.2.kind = 1 then decide (upTo 1 p.1 / 4 ≤ pinned) else decide (upTo 2 p.1 ≤ units))) 0x0503 7 p.1

/-- MIN_DIES, then bays, Hopper pools, plans, timetables and services. -/
def check6 (i : Image) (limited : Bool) (k : Stock) : Option Bad :=
  let dies := bitsOf 8 k.active
  let slices := (List.range 64).filter fun n => bit k.active (n / 8)
  let cap := capacity38 dies.length k.failed
  let c := slices.foldl (fun a n => min a (bayCount i n 0)) 18
  let named := (i.plans.map fun p => p.2.flume).filter fun f => decide (f ≠ 0xFFFF)
  firstBad ([need (decide (i.device.minDies ≤ dies.length)) 0x0501 1]
    ++ (if limited then [] else
      slices.map (fun n => need (decide (2 ≤ bayCount i n 0)) 0x0502 3 n)
      ++ dies.map (fun d => need (decide (2 ≤ ((List.range 8).foldl (fun a p => a + bayCount i (8 * d + p) 2) 0))) 0x0502 3 (8 * d))
      ++ poolChecks i (slices.foldl (fun a n => a + bayCount i n 1) 0) (cap / 65536)
      ++ i.plans.map (fun p => need (p.2.buckets.all (p.2.fits c)) 0x0504 9 p.1)
      ++ [need (decide (timetableEntries i named ≤ 65536)) 0x0505 0xA]
      ++ i.services.map (fun r => need (servicePoolsOk r.2 i.pools) 0x0506 0xB r.1)))

end Sys2Proof.Machine
end

