-- ==== Sys2Proof/Machine/Boot.lean ====
section
/-! DEFINITION. Cold reset and power-up (R64, R70, R586), discovery (R30-R44), boot slots and their selection (R82-R108), and the
application of the image (R102, R109, R122, R181). -/
namespace Sys2Proof.Machine

/-! ### Resets -/

/-- R586: a trigger sets its bit and writes LAST. -/
def Boot.note (b : Boot) (cause : Nat) : Boot := { b with cause := b.cause ||| BitVec.ofNat 11 (2 ^ cause), last := cause }

/-- What the panel keeps through a cold reset; the bridge goes on by itself (R563, R564). -/
def Panel.cold (p : Panel) : Panel := { p with fresh := [], waiting := false, bootDrawn := false, clearing := false, lastStart := none }

/-- The machine that a cold reset or a loss of power leaves: everything of Table 03-6 is lost; what is fused, strapped or on
the board stays, as do the panel, RESET_CAUSE and the post-package repairs of DRAM rows. -/
def State.blank (s : State) (boot : Boot) : State :=
  { pending := s.pending, freeCtr := s.freeCtr, out := s.out, fuses := s.fuses, straps := s.straps, board := s.board,
    panel := s.panel.cold, boot := boot, flt := { pprUsed := s.flt.pprUsed }
    ports := Tab.ofFn 4 {} fun p => { refMode := s.straps.refm.getD p 0, perst := (s.port p).perst } }

/-- R64: a cold reset by a trigger other than power-on; the power-up sequence runs again. `hold` keeps the device in reset (R81), with
FLASH_OWN low until it is released (DESIGN CHOICE, notes/assumptions/52.md). -/
def State.coldReset (s : State) (cause : Nat) (hold : Bool := false) : State :=
  s.blank (Boot.note { step := if hold then 0 else 1, thermalHold := hold, iodTemp := s.boot.iodTemp, flashOwn := !hold,
                       cause := s.boot.cause, last := s.boot.last } cause)

/-- The device runs: it has power and is not held. -/
def State.running (s : State) : Bool := s.board.pwrOk && decide (1 ≤ s.boot.step)

/-! ### Power-up (Table 03-8) -/

/-- R603, R604: nothing keeps PWR_OK low. -/
def State.mayPower (s : State) : Bool := s.board.vddIo && !s.board.pgmReq && (!s.straps.card || s.board.sense == some true)

/-- The reference mode that a strap gives a port (R121). -/
def Straps.mode (st : Straps) (p : Nat) : Nat := st.refm.getD p 0

/-- POWER_ON (R70, R87, R586, R597): the straps are sampled, and the fuses are those of the part that powers on. -/
def execPowerOn (straps : Straps) (fuses : Fuses) (s : State) : Res :=
  let s0 := { s with straps := straps, fuses := fuses }
  if s.board.pwrOk || !s0.mayPower then .next s
  else
    let s1 := s0.blank { step := 1, cause := 1, last := 0, flashOwn := true }
    .next { s1 with board := { s1.board with pwrOk := true } }

/-- A step of Table 03-8 follows the one before it. -/
def State.powerStep (s : State) (from_ : Nat) (f : State → State) : Res :=
  if s.board.pwrOk ∧ s.boot.step = from_ then .next (f { s with boot := { s.boot with step := from_ + 1 } }) else .next s

/-- MGMT_ISLAND_START (R70): the mask ROM runs, and the management interfaces are served from here on (R549). -/
def execMgmtIslandStart (s : State) : Res := s.powerStep 1 fun s => s

/-- QUIET_CLOCK_LOCK (R60, R70): SOURCE is 1 and the time base counts from 0. -/
def execQuietClockLock (s : State) : Res := s.powerStep 2 fun s => { s with clk := { s.clk with source := 1 }, timeBase := 0 }

/-! ### The inventory (R33, R36, R38, R44, R184, R580) -/

/-- The dies that count as ACTIVE when a mask is left out. -/
def State.activeMask (s : State) (exclude : Nat) : Nat := packBits 8 fun d => decide ((s.die d).st = .active) && !bit exclude d

/-- CH_LIST over a mask of dies (R184). -/
def State.usable (s : State) (active : Nat) : List Nat :=
  (bitsOf 8 active).flatMap fun d => ((List.range 32).filter fun c => !bit (s.die d).chFail c).map fun c => 32 * d + c

/-- F of R38. -/
def State.failedOn (s : State) (active : Nat) : Nat := (bitsOf 8 active).foldl (fun a d => a + popCount 32 (s.die d).chFail) 0

/-- The lowest level agreed with a die of a mask; 0 without one (Table 22-5). -/
def State.levelOf (s : State) (active : Nat) : Nat :=
  match bitsOf 8 active with
  | [] => 0
  | d :: ds => ds.foldl (fun a e => min a (s.die e).levelUsed) (s.die d).levelUsed

/-- DEV_CAPS_LO over a mask of ACTIVE dies (R44, Table 22-6, Table 22-10). DESIGN CHOICE (notes/assumptions/52.md): DRAM encryption, bit 5,
counts as no slice die function, and reads 1 with no ACTIVE die. -/
def State.capsOf (s : State) (active : Nat) : Nat :=
  let l2 := decide (s.levelOf active = 2)
  let b := !s.fuses.prevGen
  packBits 6 fun | 0 => b | 1 => b | 2 => b | 3 => l2 && b | 4 => l2 | _ => true

/-- R37, R49: dies out of use are switched off, but for the common domains that an open SIB holds on. -/
def State.holdCom (s : State) : State :=
  let held := (bitsOf 8 s.jtag.sibs).filter fun d => decide ((s.die d).st ≠ .active) && !s.power.testCom.contains d
  { s with power := { s.power with testCom := s.power.testCom ++ held } }

/-- R37, R49: the common domain of a die is on from discovery on while the die is in use, or where only test holds it. -/
def State.comOn (s : State) (d : Nat) : Bool :=
  (s.board.pwrOk && decide (5 ≤ s.boot.step) && decide (s.boot.step < 7)) || decide ((s.die d).st = .active) || s.power.testCom.contains d

/-- R37: the I/O die's endpoint of a Leat link; gated from step 8 on for a die that is not in use, and test access leaves it so. -/
def State.leatOn (s : State) (d : Nat) : Bool :=
  (s.board.pwrOk && decide (5 ≤ s.boot.step) && decide (s.boot.step < 7)) || decide ((s.die d).st = .active)

/-- The inventory that holds from now on, with a mask of excluded dies applied: they take EXCLUDED and are switched off. -/
def State.fixInventory (s : State) (exclude minDies : Nat) : State :=
  let act := s.activeMask exclude
  let caps := s.capsOf act
  let dies := (List.range 8).foldl (fun (t : Tab Die) d =>
    if bit exclude d && decide ((s.die d).st = .active) then t.setD d {} { s.die d with st := .excluded } else t) s.dies
  let s1 : State := { s with
    dies := dies
    inv := { fixed := true, active := act, chList := s.usable act, minDies := minDies, level := s.levelOf act, maxPool := if bit caps 3 then 128 else 16 }
    flt := { s.flt with failedAtBoot := s.failedOn act, spareLeft := popCount 8 act - s.failedOn act } }
  s1.holdCom

/-- DEV_CAPS_LO: 0 until the inventory is fixed. -/
def State.devCaps (s : State) : Nat := if s.inv.fixed then s.capsOf s.inv.active else 0

/-! ### The no-image state and the boot outcome -/

def State.slot (s : State) (n : Nat) : Slot := s.boot.slots.getD n {}
def State.modBootSlot (s : State) (n : Nat) (f : Slot → Slot) : State :=
  { s with boot := { s.boot with slots := s.boot.slots.setD n {} (f (s.slot n)) } }

/-- R104: a rejection: the slot's code, and the record. -/
def State.rejectSlot (s : State) (n : Nat) (b : Bad) : State :=
  (s.modBootSlot n fun x => { x with code := b.code, sound := false }).post
    { cls := .boot, meter := n + 1, unit := b.code, code := b.code, detail := b.sec + b.idx * 65536 }

/-- R85, R108: no slot can be used: ports in Detect, the outcome fixed, the bus released. -/
def State.noImage (s : State) : State :=
  let s1 := { s with
    boot := { s.boot with noImage := true, done := true, neverActive := true, flashOwn := false }
    ports := s.ports.mapVal fun _ x => { x with link := 0, held := [], outst := [], ideIo := false, ideMem := false, ideStreams := [], ideSwitch := false } }
  let s2 := if s1.boot.step = 7 then s1.fixInventory 0 0 else s1
  let codes := (List.range 3).map fun n => 0x0B000000 + (n + 1) * 65536 + (s.slot n).code
  { s2 with panel := { s2.panel with fresh := (codes ++ s2.panel.fresh).take 3 } }.bootDraw

/-- R108: every slot has been rejected at checks 1 to 4 or for the flash. -/
def State.outcomeCertain (s : State) : Bool := (List.range 3).all fun n => (s.slot n).staged && !(s.slot n).sound

/-- SFDP_PARSE (R82, R83): what the SFDP tables say: a signature, 512 Mib, 4-byte addressing, 8D-8D-8D and 1-4-4 reads. -/
def execSfdpParse (signature dense addr4 octal quad : Bool) (s : State) : Res :=
  s.powerStep 3 fun s =>
    if signature && dense && addr4 then
      { s with boot := { s.boot with flashOk := true, flashMode := if octal && s.straps.flashX8 then 3 else if quad then 2 else 1 } }
    else
      ((List.range 3).foldl (fun s n => (s.modBootSlot n fun x => { x with staged := true }).rejectSlot n { code := 0x0601 }) s).noImage

/-! ### Discovery (Table 02-3) -/

def State.modDie (s : State) (d : Nat) (f : Die → Die) : State := { s with dies := s.dies.setD d {} (f (s.die d)) }

/-- Discovery is under way, and the die is at a step and has not failed. -/
def State.dieAt (s : State) (d step : Nat) : Bool :=
  decide (s.boot.step = 5) && decide (d < 8) && decide ((s.die d).step = step) && (s.die d).fail.isNone

/-- DISCOVERY_START (R30, step 1): every slice die leaves reset. -/
def execDiscoveryStart (s : State) : Res := s.powerStep 4 fun s => { s with dies := Tab.ofFn 8 {} fun _ => { step := 1 } }

/-- SLICE_PLL_LOCK (R30, step 2). -/
def execSlicePllLock (die : Nat) (s : State) : Res :=
  if s.dieAt die 1 then .next (s.modDie die fun x => { x with step := 2 }) else .next s

/-- Wires of a group of Table 02-2 that are trained, data, check and spare alike: R31 does not say whether a spare counts among the
failing wires, and here it does (DESIGN CHOICE, notes/assumptions/45.md). -/
def groupWires : Nat := 139

/-- LEAT_WIRE_TRAINING (R31, Table 02-6): failing wires of each group, downward and upward. No wire aligned is ABSENT. SPARE_DN and
SPARE_UP of a LINK_FAIL die stay 0 (DESIGN CHOICE, notes/assumptions/45.md). -/
def execLeatWireTraining (die : Nat) (dn up : List Nat) (s : State) : Res :=
  if s.dieAt die 2 then
    let g (xs : List Nat) (i : Nat) : Nat := min groupWires (xs.getD i 0)
    let all (f : Nat → Bool) : Bool := (List.range 8).all f
    if (all fun i => g dn i == groupWires && g up i == groupWires) then .next (s.modDie die fun x => { x with fail := some .absent })
    else if (all fun i => decide (g dn i ≤ 2) && decide (g up i ≤ 2)) then
      let sum (xs : List Nat) : Nat := (List.range 8).foldl (fun a i => a + g xs i) 0
      .next (s.modDie die fun x => { x with step := 3, spareDn := sum dn, spareUp := sum up })
    else .next (s.modDie die fun x => { x with fail := some .linkFail })
  else .next s

/-- The highest interface level of the I/O die (R42). -/
def State.iodLevel (s : State) : Nat := if s.fuses.prevGen then 1 else 2

/-- IDENTITY_MESSAGE (R32, R34, R42; step 5 follows at once). `good` is the outcome of the check code. -/
def execIdentityMessage (die serial rev level : Nat) (good : Bool) (s : State) : Res :=
  if s.dieAt die 3 then
    let tries := (s.die die).idTries + 1
    if !good then .next (s.modDie die fun x => { x with idTries := tries })
    else
      let s1 := s.modDie die fun x => { x with idTries := tries, serial := serial % 2 ^ 32, rev := rev % 256, levelOffered := level % 256 }
      if tries ≤ 2 ∧ 1 ≤ level % 256 then .next (s1.modDie die fun x => { x with step := 6, levelUsed := min (level % 256) s.iodLevel })
      else .next (s1.modDie die fun x => { x with fail := some .idFail })
  else .next s

/-- CHANNEL_FAILURE_MASK_REPORT (R25, R30, step 7): CH_FAIL_n; more than 8 failed channels fail the stack. -/
def execChannelFailureMaskReport (die mask : Nat) (s : State) : Res :=
  if s.dieAt die 6 then
    let m := mask % 2 ^ 32
    .next (s.modDie die fun x => { x with chFail := m, step := 7, fail := if 8 < popCount 32 m then some .stackFail else none })
  else .next s

/-- Table 02-6: the state of a die that has not passed a step by its limit. A link of which step 3 reports nothing is LINK_FAIL
(DESIGN CHOICE, notes/assumptions/45.md). -/
def stepFailure (step : Nat) : DieSt :=
  match step with | 1 => .absent | 2 => .absent | 3 => .linkFail | 4 => .idFail | 5 => .idFail | _ => .stackFail

/-- R30: dies that have not passed a step by its limit fail it. -/
def State.deadline (s : State) (step : Nat) : State :=
  { s with dies := s.dies.mapVal fun _ x => if x.fail.isNone && decide (x.step < step) then { x with fail := some (stepFailure (x.step + 1)) } else x }

/-- DISCOVERY_DEADLINE (R30): the limit of a step from 2 to 7 passes. -/
def execDiscoveryDeadline (step : Nat) (s : State) : Res :=
  if s.boot.step = 5 ∧ 2 ≤ step ∧ step ≤ 7 then .next (s.deadline step) else .next s

/-- R69: a warm reset begins: Table 03-7, steps 1 and 2. Every SIB closes (R46), and moves that do not copy yet are abandoned
(R285); what a retirement moves is wanted again. -/
def State.startWarm (s : State) (cause : Nat) : State :=
  let again := (s.slu.wanted ++ (s.slu.moves.filter fun m => decide (m.step < 3)).map Move.asked).filter fun r => decide (r.by_ = MoveBy.retire) || decide (r.by_ = MoveBy.row)
  let s0 := s.abandonMoves fun _ => true
  let s1 := { s0 with slu := { s0.slu with wanted := again } }
  { s1 with boot := { s.boot.note cause with warm := 2, warmWait := none }, jtag := { s.jtag with sibs := 0 }, power := { s.power with testCom := [] } }

/-- INVENTORY_FIX (R33, R35, R36, R69, R578): die states are fixed; without an image the inventory is too. -/
def execInventoryFix (s : State) : Res :=
  if s.boot.step = 5 ∧ s.board.pwrOk then
    let s1 := s.deadline 7
    let s2 := { s1 with
      dies := s1.dies.mapVal fun _ x => { x with st := x.fail.getD .active }
      boot := { s1.boot with step := 7 } }
    let s3 := if s2.boot.noImage then s2.fixInventory 0 0 else s2.holdCom
    .next (match s3.boot.warmWait with | some c => s3.startWarm c | none => s3)
  else .next s

/-! ### Slots -/

/-- R100, Table 04-11: staging begins once a die is assigned, or once none can be. -/
def State.stagingOpen (s : State) : Bool :=
  (s.dies.any fun d => decide (6 ≤ d.2.step)) || (List.range 8).all fun d => (s.die d).fail.isSome

/-- SLOT_STAGE (R99, R100): a slot is read once, and checks 1 to 4 are made. Without a die that reached step 5 only DEVICE and
CXL are kept. -/
def execSlotStage (slot : Nat) (bytes : List Byte) (s : State) : Res :=
  if slot < 3 ∧ s.running ∧ 5 ≤ s.boot.step ∧ s.boot.flashOk ∧ !s.boot.done ∧ !(s.slot slot).staged ∧ s.stagingOpen then
    let full := s.dies.any fun d => decide (6 ≤ d.2.step)
    let verdict := firstBad [check1 bytes, (if (check1 bytes).isNone then check2 s.fuses bytes else none)]
    let deep := firstBad [check3 bytes full, (if (check3 bytes full).isNone then check4 bytes full else none)]
    let s1 := s.modBootSlot slot fun x => { x with staged := true }
    let s2 := match firstBad [verdict, if verdict.isNone then deep else none] with
      | some b => s1.rejectSlot slot b
      | none => s1.modBootSlot slot fun x =>
          { x with sound := true, seq := at' bytes 0x10 4, caps := imgCaps bytes, limited := !full, img := readImage bytes (!full), digest := signedDigest bytes }
    .next (if s2.outcomeCertain then s2.noImage else s2)
  else .next s

/-- R106: preference order. -/
def State.slotOrder (s : State) : List Nat := (if (s.slot 1).seq ≤ (s.slot 0).seq then [0, 1, 2] else [1, 0, 2]).filter fun n => (s.slot n).sound

/-- Checks 5 and 6 of a slot on the inventory that its own DIE_EXCLUDE gives (R36, R99). -/
def State.check56 (s : State) (n : Nat) : Option Bad :=
  let x := s.slot n
  let act := s.activeMask x.img.device.dieExclude
  firstBad [check5 x.img x.caps (s.capsOf act), check6 x.img x.limited { active := act, failed := s.failedOn act }]

/-- R106: in preference order, the first slot that fits; the slots after it record NOT_CHECKED. -/
def State.selectFrom : List Nat → State → Option Nat → State × Option Nat
  | [], s, got => (s, got)
  | n :: t, s, some g => State.selectFrom t (s.modBootSlot n fun x => { x with code := 0x0602 }) (some g)
  | n :: t, s, none =>
    match s.check56 n with
    | none => State.selectFrom t s (some n)
    | some b => State.selectFrom t ((s.rejectSlot n b).modBootSlot n fun x => { x with sound := true }) none

/-- SLOT_SELECTION (R36, R85, R105-R108). -/
def execSlotSelection (s : State) : Res :=
  if s.boot.step = 7 ∧ !s.boot.done ∧ ((List.range 3).all fun n => (s.slot n).staged) then
    let order := s.slotOrder
    let (s1, got) := State.selectFrom order s none
    let fix (s : State) (n sel : Nat) (short : Bool) : State :=
      let d := (s.slot n).img.device
      ({ s with boot := { s.boot with selected := sel, diesShort := short, done := true, flashOwn := false, digest := (s.slot n).digest
                                      fallback := !short && order.head? != some n } }).fixInventory d.dieExclude d.minDies
    match got with
    | some n => .next (fix s1 n (n + 1) false)
    | none =>
      match order.find? fun n => (s1.slot n).code == 0x0501 with
      | some n => .next (fix s1 n 0 true)
      | none => .next s1.noImage
  else .next s

/-! ### Application -/

/-- The slot whose sections are applied: the selected one, or the one used under R107. -/
def State.appliedSlot (s : State) : Option Nat :=
  if s.boot.selected ≠ 0 then some (s.boot.selected - 1)
  else if s.boot.diesShort then s.slotOrder.find? fun n => (s.slot n).code == 0x0501
  else none

/-- R122: a port applies its record. RATE and WIDTH of a port that goes to Disabled read 0 (DESIGN CHOICE, notes/assumptions/45.md). -/
def State.applyPort (s : State) (p : Nat) : State :=
  let r := s.img.ports.getD p {}
  let x := s.port p
  if r.ldCount = 0 then s.modPort p fun x => { x with link := 3, held := [], outst := [], rate := 0, width := 0, ideIo := false, ideMem := false }
  else
    let strap := s.straps.mode p
    let s1 := if strap ≠ r.refMode then
        (s.modPort p fun x => { x with strapMismatch := true }).post { cls := .correctable, code := 1, unit := p } else s
    let again := x.link = 2 ∧ (r.maxRate < rateGt x.rate ∨ r.maxWidth < widthLanes x.width ∨ strap ≠ r.refMode)
    s1.modPort p fun x => { x with refMode := r.refMode, link := if again then 1 else x.link }

/-- R71: the main PLL moves to a valid anchor; the quiet clock as anchor is QUIET_FIXED. -/
def State.toAnchor (s : State) : State :=
  if s.clk.source = 3 then s
  else if 4 ≤ s.img.device.anchorSel then { s with clk := { s.clk with source := 2 } }
  else if (s.clk.refs.getD s.img.device.anchorSel {}).valid then { s with clk := { s.clk with source := 0, switched := true } }
  else s

/-- R115: the image's policy values; KEEP_AWAKE bits of absent slices read 0. -/
def State.imagePol (s : State) (i : Image) : Policy :=
  { i.pol with keepAwake := packBits 64 fun n => bit i.pol.keepAwake n && s.inv.slices.contains n }

/-- R50: the instructions that the test lock closes are replaced, and every SIB closes. -/
def Jtag.lock (j : Jtag) : Jtag := { j with ir := if [0x00, 0x03, 0x08, 0x09, 0x20].contains j.ir then 0xFF else j.ir, sibs := 0 }

/-- R181: each VD's key is drawn. -/
def State.drawKeys (s : State) : State := s.vdList.foldl State.drawKey s


/-- Requests that the ports held back go on. -/
def State.releaseAll (s : State) (pick : Nat) : State := (List.range 4).foldl (fun s p => s.releaseHeld p pick) s

/-- R410, R445: enabled HyhanLink ports enter DETECT, and a device with a pool map becomes a candidate. -/
def State.startLinks (s : State) : State :=
  let on := bitsOf s.hylPorts s.img.device.hylEnable
  { s with hyl := on.foldl (fun t p => t.setD p {} { st := .detect }) []
           pool := { s.pool with st := if s.img.poolMap.isSome && !on.isEmpty then .joining else .standalone } }

/-- IMAGE_APPLY (R102, R109, R122, R154, R155, R260, step 7 of Table 04-11): Memory Active, or the state of R39. -/
def execImageApply (pick : Nat) (s : State) : Res :=
  match s.appliedSlot with
  | none => .next s
  | some n =>
    if s.img.applied ∨ s.boot.step ≠ 7 then .next s
    else
      let i := (s.slot n).img
      let img : Image := if s.boot.diesShort then { applied := true, device := i.device, ports := i.ports } else i
      -- R50, R107: a slot used with too few dies is not accepted, and locks nothing
      let lock := img.device.testLock && !s.boot.diesShort
      let s1 := { s with img := img, pol := s.imagePol img, boot := { s.boot with step := 8, testLock := lock, neverActive := s.boot.diesShort, memActive := !s.boot.diesShort }
                         jtag := if lock then s.jtag.lock else s.jtag
                         power := if lock then { s.power with testCom := [] } else s.power }
      let s2 := ((List.range 4).foldl State.applyPort s1).toAnchor
      if s.boot.diesShort then
        .next ((s2.mediaError.postAs { cls := .deviceFatal } (0x0DF30000 + popCount 8 s.inv.active)).releaseAll pick).bootDraw
      else
        let s3 := s2.drawKeys
        let s4 := s3.vdList.foldl (fun s v => s.modVd v fun x => { x with st := .ready }) s3
        .next (s4.hopStart.startLinks.releaseAll pick).bootDraw

/-! ### Pins, power and holds -/

/-- COLD_RST_N_ASSERT (R64): held low for at least 1 us. -/
def execColdRstNAssert (s : State) : Res := if s.running then .next (s.coldReset 1) else .next s

/-- R69: a warm reset is requested: held before discovery step 8, merged into one that runs. Of two held ones the later cause is kept
(DESIGN CHOICE, notes/assumptions/45.md). -/
def State.requestWarm (s : State) (cause : Nat) : State :=
  if s.boot.warm ≠ 0 then { s with boot := s.boot.note cause }
  else if s.boot.step < 7 then { s with boot := { s.boot with warmWait := some cause } }
  else s.startWarm cause

/-- WARM_RST_N_ASSERT (R67, R69). -/
def execWarmRstNAssert (s : State) : Res := if s.running then .next (s.requestWarm 5) else .next s

/-- POWER_LOSS (R600): PWR_OK low, or a core rail sagging, for 1 us. Nothing is kept; FLASH_OWN goes low. -/
def execPowerLoss (s : State) : Res :=
  if s.board.pwrOk then
    let s1 := s.blank {}
    .next { s1 with board := { s1.board with pwrOk := false } }
  else .next s

/-- IOD_THERMAL_TRIP (R81): the junction reaches 125 degrees. -/
def execIodThermalTrip (temp : Nat) (s : State) : Res :=
  if s.running ∧ 125 ≤ temp then
    let s1 := ({ s with boot := { s.boot with iodTemp := temp } }).coldReset 3 true
    .next { s1 with panel := { s1.panel with fresh := [0x0DF20000 + temp] } }.bootDraw
  else .next s

/-- THERMAL_HOLD_RELEASE (R81): the junction is below 100 degrees; the power-up sequence runs. -/
def execThermalHoldRelease (temp : Nat) (s : State) : Res :=
  if s.board.pwrOk ∧ s.boot.thermalHold ∧ temp < 100 then
    .next { s with boot := { s.boot with thermalHold := false, step := 1, iodTemp := temp, flashOwn := true } }
  else .next s

/-- VDD_IO_IN_TOLERANCE (R599): FLASH_OWN is low and the HEALTH LEDs are off; both follow from the power-up step. -/
def execVddIoInTolerance (s : State) : Res := .next { s with board := { s.board with vddIo := true } }

/-- CARD_POWER_SENSE (R77, R603): an FX288-C reads its pins before it has power. Both grounded is the 600 W configuration; the bridge
draws the fault otherwise. -/
def execCardPowerSense (sense0 sense1 : Bool) (s : State) : Res :=
  if !s.board.pwrOk then
    let ok := !sense0 && !sense1
    .next { s with board := { s.board with sense := some ok }, panel := { s.panel with connector := !ok } }
  else .next s

/-- PGM_REQ (R604): an external programmer asks for the flash, or lets it go; while it asks, PWR_OK is low. -/
def execPgmReq (low : Bool) (s : State) : Res :=
  let s1 := { s with board := { s.board with pgmReq := low } }
  if low && s.board.pwrOk then
    let s2 := s1.blank {}
    .next { s2 with board := { s2.board with pwrOk := false } }
  else .next s1

/-- QSFP_MODULE_DETECT (R605): a cage finds a cable or module and whether it is of the lowest class; a port is fed by its cage. -/
def execQsfpModuleDetect (cage : Nat) (present lowest : Bool) (s : State) : Res :=
  if cage < 8 then .next { s with board := { s.board with cages := s.board.cages.setD cage 0 (if !present then 0 else if lowest then 1 else 2) } } else .next s

end Sys2Proof.Machine
end

