-- ==== Sys2Proof/Machine/Flit.lean ====
section
/-! DEFINITION. The bytes of a HyhanLink flit: lanes and scrambler (R412), layout and header (R414, R415), FEC (R416), CRC (R417),
message slots (R418, R419). What the rules leave open of bit and byte order is notes/assumptions/44.md. -/
namespace Sys2Proof.Machine

/-! ### The field GF(2^8) of R416 -/

/-- The product with the root of x^8 + x^4 + x^3 + x^2 + 1. -/
def gfDouble (a : Byte) : Byte := if a.msb then (a <<< 1) ^^^ 0x1D else a <<< 1

def gfMulF : Nat → Byte → Byte → Byte
  | 0, _, _ => 0
  | n + 1, a, b => (if b.getLsbD 0 then a else 0) ^^^ gfMulF n (gfDouble a) (b >>> 1)

def gfMul (a b : Byte) : Byte := gfMulF 8 a b

def gfPow (a : Byte) : Nat → Byte
  | 0 => 1
  | n + 1 => gfMul a (gfPow a n)

/-- The inverse of a nonzero element, its power 254. -/
def gfInv (a : Byte) : Byte :=
  let a2 := gfMul a a
  let a4 := gfMul a2 a2
  let a8 := gfMul a4 a4
  let a16 := gfMul a8 a8
  let a32 := gfMul a16 a16
  let a64 := gfMul a32 a32
  let a128 := gfMul a64 a64
  gfMul a2 (gfMul a4 (gfMul a8 (gfMul a16 (gfMul a32 (gfMul a64 a128)))))

/-- `n` doublings: the product with the n-th power of the root. -/
def gfShift : Nat → Byte → Byte
  | 0, a => a
  | n + 1, a => gfShift n (gfDouble a)

/-- A polynomial, lowest coefficient first, at a point. -/
def gfEval (p : List Byte) (x : Byte) : Byte := p.foldr (fun c a => c ^^^ gfMul a x) 0

/-! ### RS(128,120) (R416) -/

/-- A codeword, its first byte the coefficient of the highest power, at the roots of the generator. -/
def rsSyndromes (c : List Byte) : List Byte := (List.range 8).map fun j => c.foldl (fun a b => gfShift j a ^^^ b) 0

/-- The generator polynomial, lowest coefficient first, without its leading 1. -/
def rsGenerator : List Byte :=
  ((List.range 8).foldl (fun g j => List.zipWith (· ^^^ ·) (0 :: g) ((g.map fun c => gfMul c (gfShift j 1)) ++ [0])) [1]).take 8

/-- The eight parity bytes of 120: the remainder on division by the generator, the highest coefficient first. -/
def rsParity (d : List Byte) : List Byte :=
  (d.foldl (fun (r : List Byte) b =>
    let q := b ^^^ r.getLastD 0
    List.zipWith (· ^^^ ·) (0 :: r.take 7) (rsGenerator.map (gfMul q))) (List.replicate 8 0)).reverse

/-- Berlekamp and Massey: the locator of the errors, from the syndromes. `l` is its length, `b` the last locator with discrepancy `e`,
`m` the steps since then. -/
def rsLocatorF (s : List Byte) : Nat → (n l m : Nat) → (c b : List Byte) → Byte → Nat × List Byte
  | 0, _, l, _, c, _, _ => (l, c)
  | k + 1, n, l, m, c, b, e =>
    let d := (List.range (l + 1)).foldl (fun a i => a ^^^ gfMul (c.getD i 0) (s.getD (n - i) 0)) 0
    if d = 0 then rsLocatorF s k (n + 1) l (m + 1) c b e
    else
      let q := gfMul d (gfInv e)
      let shifted := List.replicate m 0 ++ b.map (gfMul q)
      let len := max c.length shifted.length
      let c1 := (List.range len).map fun i => c.getD i 0 ^^^ shifted.getD i 0
      if 2 * l ≤ n then rsLocatorF s k (n + 1) (n + 1 - l) 1 c1 c d else rsLocatorF s k (n + 1) l (m + 1) c1 b e

/-- The corrections of a codeword of 128 bytes, at most four: place and value; none where it does not decode. -/
def rsFix (c : List Byte) : Option (List (Nat × Byte)) :=
  let s := rsSyndromes c
  if s.all (· == 0) then some []
  else
    let (l, loc) := rsLocatorF s 8 0 0 1 [1] [1] 1
    let omega := (List.range 8).map fun n => (List.range (n + 1)).foldl (fun a i => a ^^^ gfMul (loc.getD i 0) (s.getD (n - i) 0)) 0
    let slope := (List.range 8).map fun n => if n % 2 = 0 then loc.getD (n + 1) 0 else 0
    let fix := (List.range 128).filterMap fun i =>
      let x := gfShift (127 - i) 1
      let y := gfInv x
      if gfEval loc y = 0 then some (i, gfMul x (gfMul (gfEval omega y) (gfInv (gfEval slope y)))) else none
    if l ≤ 4 ∧ fix.length = l ∧ (rsSyndromes (fix.foldl (fun c e => c.set e.1 (c.getD e.1 0 ^^^ e.2)) c)).all (· == 0) then some fix else none

/-- R416: the places of a flit's bytes that belong to a codeword at width `w`. -/
def codeword (w k : Nat) : List Nat := (List.range 256).filter fun i => decide (i / w % 2 = k)

/-! ### CRC-64 of ECMA-182 (R417) -/

def crc64Step (c : BitVec 64) : BitVec 64 := if c.msb then (c <<< 1) ^^^ 0x42F0E1EBA9EA3693 else c <<< 1

def crc64Byte (c : BitVec 64) (b : Byte) : BitVec 64 :=
  crc64Step (crc64Step (crc64Step (crc64Step (crc64Step (crc64Step (crc64Step (crc64Step (c ^^^ (b.setWidth 64 <<< 56)))))))))

def crc64 (d : List Byte) : BitVec 64 := d.foldl crc64Byte 0

/-! ### Lanes and scrambler (R412) -/

/-- One bit of the scrambler x^31 + x^28 + 1. -/
def scrStep (r : BitVec 31) : BitVec 31 := (r <<< 1) ||| (if r.msb ^^ r.getLsbD 27 then 1 else 0)

/-- The scrambler over one byte, least significant bit first: the byte as it leaves, and the register after it. -/
def scrByteF : Nat → BitVec 31 → Byte → Byte × BitVec 31
  | 0, r, b => (b, r)
  | n + 1, r, b => scrByteF n (scrStep r) (b ^^^ (if r.msb then 1 <<< (7 - n) else 0))

/-- A lane's bytes through its scrambler, which is its own inverse. -/
def scramble : BitVec 31 → List Byte → List Byte
  | _, [] => []
  | r, b :: t => let (c, r1) := scrByteF 8 r b; c :: scramble r1 t

/-- The register after `n` bytes. -/
def scrAfter : Nat → BitVec 31 → BitVec 31
  | 0, r => r
  | n + 1, r => scrAfter n (scrByteF 8 r 0).2

/-- R412: the seeds of the lanes at an entry to L0. -/
def scrSeeds : Tab (BitVec 31) := (List.range 8).map fun l => (l, 0x5A5A5A5A ^^^ BitVec.ofNat 31 l)

/-- R412: the logical lanes of an active set. -/
def logicalLanes (active : Nat) : List Nat := bitsOf 8 active

/-- A flit's bytes on the lanes of a set, scrambled. -/
def toLanes (active : Nat) (scr : Tab (BitVec 31)) (bytes : List Byte) : FlitWire :=
  let ls := logicalLanes active
  (List.range ls.length).map fun j =>
    (ls.getD j 0, scramble (scr.getD (ls.getD j 0) 0) ((List.range (256 / ls.length)).map fun k => bytes.getD (j + k * ls.length) 0))

/-- The lanes' bytes as a flit, descrambled. A lane that brings nothing brings zeros. -/
def fromLanes (active : Nat) (scr : Tab (BitVec 31)) (wire : FlitWire) : List Byte :=
  let ls := logicalLanes active
  let cols := ls.map fun l => scramble (scr.getD l 0) ((List.range (256 / ls.length)).map fun k => ((wire.find l).getD []).getD k 0)
  (List.range 256).map fun i => (cols.getD (i % ls.length) []).getD (i / ls.length) 0

/-- R412: the scramblers of the active lanes advance over a flit. -/
def scrFlit (active : Nat) (scr : Tab (BitVec 31)) : Tab (BitVec 31) :=
  let ls := logicalLanes active
  scr.mapVal fun l r => if ls.contains l then scrAfter (256 / ls.length) r else r

/-! ### Layout (Tables 16-3, 16-4) -/

/-- The 256 bytes of a flit: header, 14 slots, CRC and parity at width `w`. -/
def flitBytes (w header : Nat) (slots : List (BitVec 128)) : List Byte :=
  let body := leBytes 8 header ++ ((List.range 14).map fun k => leBytes 16 (slots.getD k 0).toNat).flatten
  let d := body ++ leBytes 8 (crc64 body).toNat
  let par := (List.range 2).map fun k => rsParity (((codeword w k).filter fun i => decide (i < 240)).map fun i => d.getD i 0)
  d ++ ((List.range 16).map fun i => (par.getD ((240 + i) / w % 2) []).getD (((codeword w ((240 + i) / w % 2)).filter fun n => decide (240 ≤ n ∧ n < 240 + i)).length) 0)

/-- Table 16-4. -/
def flitHeader (kind seq ack : Nat) (nak : Bool) (first : Nat) (credit : List (Nat × Nat)) : Nat :=
  let cr (i : Nat) : Nat := (credit.getD i (0, 0)).1 % 8 + (credit.getD i (0, 0)).2 % 64 * 8
  seq % 4096 + ack % 4096 * 2 ^ 12 + b2n nak * 2 ^ 24 + kind % 4 * 2 ^ 25 + first % 16 * 2 ^ 27 + cr 0 * 2 ^ 32 + cr 1 * 2 ^ 41

/-- A receiver reads a flit: correction (R416), CRC (R417) and the header's fields. -/
def readFlit (active : Nat) (scr : Tab (BitVec 31)) (wire : FlitWire) : LinkFlit :=
  let ls := logicalLanes active
  let got := fromLanes active scr wire
  let words := (List.range 2).map fun k => (codeword ls.length k, rsFix ((codeword ls.length k).map fun i => got.getD i 0))
  let fixes := words.flatMap fun w => (w.2.getD []).map fun e => (w.1.getD e.1 0, e.2)
  let d := fixes.foldl (fun d e => d.set e.1 (d.getD e.1 0 ^^^ e.2)) got
  let h := leNat (d.take 8)
  { pass := words.all (·.2.isSome) && decide (crc64 (d.take 232) = BitVec.ofNat 64 (leNat ((d.drop 232).take 8))),
    fixed := fixes.map fun e => ls.getD (e.1 % ls.length) 0,
    seq := field h 0 12, ack := field h 12 12, nak := bit h 24, kind := field h 25 2, first := field h 27 4,
    credit := [(field h 32 3, field h 35 6), (field h 41 3, field h 44 6)],
    rsvd := bit h 31 || decide (field h 50 14 ≠ 0),
    slots := (List.range 14).map fun k => BitVec.ofNat 128 (leNat ((d.drop (8 + 16 * k)).take 16)) }

/-! ### Training blocks (R429) -/

/-- Bytes 0 to 231 of a block. -/
def TrainBlock.body (b : TrainBlock) : List Byte :=
  leBytes 4 0x48424C54 ++ leBytes 1 (b2n b.retrain) ++ leBytes 1 b.lane ++ leBytes 1 b.port ++ leBytes 1 b.attempt ++ leBytes 8 b.serial
    ++ leBytes 1 (match b.devnum with | some d => d % 128 + 128 | none => 0) ++ leBytes 1 b.usable ++ leBytes 1 b.active
    ++ leBytes 1 (b2n b.seen + 2 * b2n b.precode + 4 * b2n b.eqHeld) ++ leBytes 2 (b.nextRx % 4096) ++ leBytes 1 b.eqReq ++ leBytes 1 b.eqSts ++ List.replicate 208 0

/-- A block as it goes out on its lane, with the CRC of R417 and the FEC of R416 at W = 1. -/
def TrainBlock.bytes (b : TrainBlock) : List Byte :=
  let d := b.body ++ leBytes 8 (crc64 b.body).toNat
  let par := (List.range 2).map fun k => rsParity (((List.range 120).map fun i => d.getD (2 * i + k) 0))
  d ++ (List.range 16).map fun i => (par.getD (i % 2) []).getD (i / 2) 0

/-- The fields of a block whose checks have passed. -/
def TrainBlock.ofBytes (d : List Byte) (inverted : Bool) : TrainBlock :=
  let at_ (o n : Nat) : Nat := leNat ((d.drop o).take n)
  { retrain := decide (at_ 4 1 = 1), lane := at_ 5 1 % 8, port := at_ 6 1, attempt := at_ 7 1, serial := at_ 8 8,
    devnum := if bit (at_ 0x10 1) 7 then some (at_ 0x10 1 % 128) else none, usable := at_ 0x11 1, active := at_ 0x12 1, seen := bit (at_ 0x13 1) 0,
    precode := bit (at_ 0x13 1) 1, eqHeld := bit (at_ 0x13 1) 2, nextRx := at_ 0x14 2 % 4096, eqReq := at_ 0x16 1, eqSts := at_ 0x17 1, inverted := inverted }

/-- A lane's 256 bytes, corrected, if they pass FEC and CRC with W = 1 and begin with MARK. -/
def checkBlock (got : List Byte) : Option (List Byte) :=
  let words := (List.range 2).map fun k => (k, rsFix ((List.range 128).map fun i => got.getD (2 * i + k) 0))
  let d := words.foldl (fun d w => (w.2.getD []).foldl (fun d e => d.set (2 * e.1 + w.1) (d.getD (2 * e.1 + w.1) 0 ^^^ e.2)) d) got
  if words.all (·.2.isSome) && decide (crc64 (d.take 232) = BitVec.ofNat 64 (leNat ((d.drop 232).take 8))) && decide (leNat (d.take 4) = 0x48424C54)
  then some d else none

/-- R429, R430: the block that a lane brings, upright or inverted; none where it fails a check. -/
def readBlock (got : List Byte) : Option TrainBlock :=
  match checkBlock got with
  | some d => some (.ofBytes d false)
  | none => (checkBlock (got.map (~~~ ·))).map fun d => .ofBytes d true

/-- R430: the bytes of a flit with the polarity of the lanes corrected. -/
def fixPolarity (inverted : Nat) (wire : FlitWire) : FlitWire := wire.map fun e => (e.1, if bit inverted e.1 then e.2.map (~~~ ·) else e.2)

/-! ### Messages in slots (R418, R419) -/

/-- Table 16-5. -/
def LinkMsg.header (m : LinkMsg) : Nat :=
  m.mtype % 16 + m.op % 256 * 2 ^ 4 + m.cls % 8 * 2 ^ 12 + m.src % 128 * 2 ^ 16 + m.dst % 128 * 2 ^ 23 + m.tag % 2 ^ 16 * 2 ^ 32
    + m.addr % 2 ^ 48 * 2 ^ 48 + m.sect % 16 * 2 ^ 96 + m.pois % 16 * 2 ^ 100 + m.ovd % 64 * 2 ^ 104 + m.qcls % 4 * 2 ^ 110
    + m.qweight % 32 * 2 ^ 112 + m.data.length % 16 * 2 ^ 117 + m.flags % 128 * 2 ^ 121

/-- A message's slots: its header and its data. -/
def LinkMsg.slots (m : LinkMsg) : List (BitVec 128) := BitVec.ofNat 128 m.header :: m.data

def LinkMsg.ofHeader (h : Nat) : LinkMsg :=
  { mtype := field h 0 4, op := field h 4 8, cls := field h 12 3, src := field h 16 7, dst := field h 23 7, tag := field h 32 16,
    addr := field h 48 48, sect := field h 96 4, pois := field h 100 4, ovd := field h 104 6, qcls := field h 110 2, qweight := field h 112 5,
    flags := field h 121 7 }

/-- Table 08-2: the class of a coherence opcode; none for a reserved one. -/
def cohClass (op : Nat) : Option Nat :=
  if 0x01 ≤ op ∧ op ≤ 0x07 then some 0 else if 0x10 ≤ op ∧ op ≤ 0x12 then some 1
  else if 0x18 ≤ op ∧ op ≤ 0x1F then some 2 else if 0x20 ≤ op ∧ op ≤ 0x26 then some 3 else none

/-- Table 17-5: the pool opcodes. -/
def poolOpcode (op : Nat) : Bool :=
  (decide (1 ≤ op) && decide (op ≤ 9)) || (decide (0x10 ≤ op) && decide (op ≤ 0x14)) || (decide (0x18 ≤ op) && decide (op ≤ 0x1A))

/-- R419: a header slot that no message may have. -/
def headerBad (h : Nat) : Bool :=
  let op := field h 4 8
  decide (4 < field h 12 3) || decide (8 < field h 117 4) || bit h 15 || decide (field h 30 2 ≠ 0) ||
    (match field h 0 4 with
     | 1 => decide (cohClass op ≠ some (field h 12 3))
     | 2 => !poolOpcode op
     | _ => true)

/-- What a flit's slots bring: messages that are complete, one that goes on in the next flit, and whether a header was bad. -/
structure SlotRead where
  msgs : List LinkMsg := []
  part : Option MsgPart := none
  bad : Bool := false
  deriving DecidableEq, Repr

/-- Slots from one in which a header may start; an empty one ends them. -/
def readSlots : Option MsgPart → List (BitVec 128) → SlotRead
  | p, [] => { part := p }
  | some p, d :: t =>
    let m := { p.msg with data := p.msg.data ++ [d] }
    if p.left ≤ 1 then let r := readSlots none t; { r with msgs := m :: r.msgs } else readSlots (some { msg := m, left := p.left - 1 }) t
  | none, h :: t =>
    if h = 0 then {}
    else if headerBad h.toNat then { bad := true }
    else
      let m := LinkMsg.ofHeader h.toNat
      let n := field h.toNat 117 4
      if n = 0 then let r := readSlots none t; { r with msgs := m :: r.msgs } else readSlots (some { msg := m, left := n }) t

/-- R418, R419: the messages of an accepted PAYLOAD flit after a message that may have begun before it. FIRST finds the first header
whatever came before; a begun message whose data does not end there is dropped. -/
def LinkFlit.read (f : LinkFlit) (part : Option MsgPart) : SlotRead :=
  let before : SlotRead := match part with
    | none => {}
    | some p =>
      if f.first = 15 then
        (if p.left ≤ f.slots.length then { msgs := [{ p.msg with data := p.msg.data ++ f.slots.take p.left }] }
         else { part := some { msg := { p.msg with data := p.msg.data ++ f.slots }, left := p.left - f.slots.length } })
      else if p.left = f.first then { msgs := [{ p.msg with data := p.msg.data ++ f.slots.take f.first }] }
      else {}
  if f.first = 15 then { before with bad := f.rsvd }
  else
    let after := readSlots none (f.slots.drop f.first)
    { msgs := before.msgs ++ after.msgs, part := after.part, bad := after.bad || f.rsvd }

/-- R419: what such a flit delivers; nothing of one that carries what is reserved. -/
def LinkFlit.deliveries (f : LinkFlit) (part : Option MsgPart) : SlotRead :=
  let r := f.read part
  if r.bad then { bad := true } else r

end Sys2Proof.Machine
end

