-- ==== Sys2Proof/Machine/Hyl.lean ====
section
/-! DEFINITION. HyhanLink ports: flits, credits and replay (R412-R425), the paths of messages (R447, R448, R456, R457), width changes
(R430, R434, R435) and what a port that goes down discards (R437). Each PAYLOAD flit of this device carries one message
(notes/assumptions/14.md). -/
namespace Sys2Proof.Machine

def State.hylPort (s : State) (p : Nat) : HylPort := s.hyl.getD p {}
def State.modHyl (s : State) (p : Nat) (f : HylPort → HylPort) : State := { s with hyl := s.hyl.setD p {} (f (s.hylPort p)) }

/-! ### Classes and destinations (Tables 08-2, 16-5, 17-5) -/

def CohOp.cls (o : CohOp) : Nat := if o.code < 0x10 then 0 else if o.code < 0x18 then 1 else if o.code < 0x20 then 2 else 3

/-- SL_REQ 0x13 or SL_RSP 0x14. -/
def SlMsg.op : SlMsg → Nat
  | .attach _ _ _ _ _ _ => 0x13 | .revoke _ => 0x13 | .take _ _ => 0x13 | .giveBack _ _ => 0x13 | .fetch _ _ _ => 0x13
  | .attached _ _ => 0x14 | .taken _ _ _ => 0x14 | .page _ _ _ => 0x14

/-- Classes of collective messages (Table 17-5); what answers COLL_DATA is the CMP of Table 08-2. -/
def collCls (op : Nat) : Nat := if op = 0x19 then 3 else if op = CohOp.code .cmp then 2 else 4
/-- Their MTYPE (Table 16-5). -/
def collType (op : Nat) : Nat := if op = CohOp.code .cmp then 1 else 2

/-- A routed message: its destination, class, opcode and tag. -/
def OutMsg.route : OutMsg → Option LinkMsg
  | .coh m => some { cls := m.op.cls, dst := m.dev, src := 0, op := m.op.code, tag := m.tag }
  | .penReq dev _ tag _ _ _ => some { cls := 0, dst := dev, src := 0, op := 0x11, tag := tag }
  | .penWake dev _ tag _ _ => some { cls := 2, dst := dev, src := 0, op := 0x12, tag := tag }
  | .penAnswer dev _ tag _ => some { cls := 2, dst := dev, src := 0, op := 0x12, tag := tag }
  | .penRevoke dev _ _ => some { cls := 2, dst := dev, src := 0, op := 0x12 }
  | .sl dev m => some { cls := if m.op = 0x13 then 0 else 2, dst := dev, src := 0, op := m.op }
  | .unreach dev op tag => some { cls := 2, dst := dev, src := 0, op := 0x10, tag := tag + op * 65536 }
  | .coll dev false op _ _ => some { mtype := collType op, cls := collCls op, dst := dev, src := 0, op := op }
  | .forward m => some m
  | _ => none

/-! ### Sending -/

/-- Table 16-6. -/
def fullCredits : Tab Nat := [(0, 128), (1, 128), (2, 256), (3, 128), (4, 64)]

/-- R415: at most two classes of credit returned in one flit, at most 63 of each; from step 2 of a warm reset on (`hold`) none for
requests (R67). -/
def HylPort.giveBack (x : HylPort) (hold : Bool := false) : List (Nat × Nat) × HylPort :=
  let cr := ((x.owed.filter fun e => !(hold && decide (e.1 = 0))).take 2).map fun e => (e.1, min 63 e.2)
  (cr, { x with owed := cr.foldl (fun t c => t.setD c.1 0 (t.getD c.1 0 - c.2)) x.owed })

/-- ACK: the last sequence number accepted in order (Table 16-4). -/
def HylPort.ack (x : HylPort) : Nat := (x.nextRx + 4095) % 4096

/-- R67: a warm reset withholds the credits of requests. -/
def State.holdsCredit (s : State) : Bool := decide (2 ≤ s.boot.warm)

/-- Table 08-2: a message that carries a line. -/
def CohOp.hasLine : CohOp → Bool
  | .wrNc => true | .red => true | o => decide (o.cls = 3)

/-- A message as its header and data slots (Table 16-5): a line is eight slots, a HELLO's data is Table 17-2, and what no rule lays out is
free. Link-local and flooded messages carry SRC and DST of 0 (R459). -/
def State.linkMsg (s : State) (o : OutMsg) : LinkMsg :=
  let line (l : Line) : List (BitVec 128) := (List.range 8).map fun i => l.extractLsb' (128 * i) 128
  let rest (m : LinkMsg) : LinkMsg :=
    { m with addr := (Config.msgAddr o).toNat, flags := (Config.msgFlags o).toNat, data := (Config.msgData o).take 8 }
  match o with
  | .forward m => m
  | .coh m =>
    { mtype := 1, op := m.op.code, cls := m.op.cls, src := s.pool.devnum, dst := m.dev, tag := m.tag, addr := m.line * 128, sect := m.sec.toNat,
      pois := m.pois.toNat, ovd := m.vd, qcls := s.qosClass m.vd, qweight := s.qosWeight m.vd,
      flags := if m.op = .rspNp then b2n m.wbPending else (Config.msgFlags o).toNat,
      -- an ATOM's operands lie in no place that a rule gives; every other message without a line has no data
      data := if m.op.hasLine then line m.data else if m.op = .atom then (Config.msgData o).take 8 else [] }
  | .link _ 1 v =>
    let bytes := leBytes 8 (v.getD 0 0) ++ leBytes 8 (v.getD 1 0) ++ leBytes 8 (v.getD 2 0) ++ leBytes 4 (v.getD 3 0) ++ leBytes 1 (v.getD 4 0)
      ++ leBytes 1 (v.getD 5 0) ++ leBytes 1 (v.getD 6 0) ++ leBytes 1 (v.getD 7 0) ++ leBytes 8 (v.getD 8 0) ++ leBytes 2 (v.getD 9 0) ++ leBytes 6 0
    rest { cls := 4, dst := 0, src := 0, op := 1 } |> fun m =>
      { m with data := (List.range 3).map fun i => BitVec.ofNat 128 (leNat ((bytes.drop (16 * i)).take 16)) }
  | .link _ op _ => rest { cls := 4, dst := 0, src := 0, op := op }
  | .flood op _ _ _ _ => rest { cls := 4, dst := 0, src := 0, op := op }
  | .coll dev bridge op _ data =>
    let m := rest { mtype := collType op, cls := collCls op, dst := if bridge then 0 else dev, src := s.pool.devnum, op := op }
    if op = 0x19 then { m with data := line data } else if collType op = 1 then { m with data := [] } else m
  | _ => match o.route with | some m => rest { m with src := s.pool.devnum } | none => { cls := 4, dst := 0, src := 0 }

/-- The slots of the message at a place of those sent. -/
def State.slotsAt (s : State) (i : Nat) : List (BitVec 128) :=
  match s.out[i]? with | some o => (s.linkMsg o).slots | none => []

/-- The bytes of a flit leave on the port's lanes, and the scramblers advance (R412, R414). -/
def State.putBytes (s : State) (p header : Nat) (slots : List (BitVec 128)) : State :=
  s.modHyl p fun x =>
    { x with txScr := scrFlit x.active x.txScr
             lanesOut := x.lanesOut ++ [toLanes x.active x.txScr (flitBytes (logicalLanes x.active).length header slots)] }

/-- A flit is sent. A PAYLOAD flit carries the message at its place in its first slots. -/
def State.putFlit (s : State) (p kind seq ack : Nat) (nak : Bool) (cr : List (Nat × Nat)) (msg : Option Nat) : State :=
  let slots := match msg with | some i => s.slotsAt i | none => []
  (s.putBytes p (flitHeader kind seq ack nak (if msg.isSome then 0 else 15) cr) slots).send (.flit p kind seq ack nak cr msg)

/-- A CONTROL flit is sent (Table 16-12). -/
def State.putControl (s : State) (p op lanes : Nat) : State :=
  let me := s.pool.devnum % 128 + b2n (decide (s.pool.st = .member)) * 128
  let slot := BitVec.ofNat 128 (op % 256 + lanes % 256 * 2 ^ 8 + me * 2 ^ 16 + s.fuses.serial % 2 ^ 64 * 2 ^ 24)
  (s.putBytes p (flitHeader 2 0 (s.hylPort p).ack false 15 []) [slot]).send (.control p op lanes)

/-- A flit without a message: an ACK, with NAK if asked, and credits (R415). -/
def State.idleFlit (s : State) (p : Nat) (nak : Bool) : State :=
  let x := s.hylPort p
  if x.st = .l0 then
    let (cr, x1) := x.giveBack s.holdsCredit
    (s.modHyl p fun _ => x1).putFlit p 0 0 x.ack nak cr none
  else s

/-- R420-R423: messages leave as their class's credits and the replay buffer allow, in order within a class. -/
def State.pumpF (p : Nat) : Nat → State → State
  | 0, s => s
  | k + 1, s =>
    let x := s.hylPort p
    if x.st = .l0 ∧ x.held.length < 1024 then
      match x.tx.find? fun e => decide (0 < x.credits.getD e.2 0) with
      | none => s
      | some e =>
        let (cr, x1) := x.giveBack s.holdsCredit
        let x2 := { x1 with tx := x1.tx.erase e, held := x1.held ++ [{ seq := x.nextTx, msg := e.1, cls := e.2 }],
                            nextTx := (x.nextTx + 1) % 4096, credits := x1.credits.setD e.2 0 (x1.credits.getD e.2 0 - 1) }
        State.pumpF p k ((s.modHyl p fun _ => x2).putFlit p 1 x.nextTx x.ack false cr (some e.1))
    else s

def State.pump (s : State) (p : Nat) : State := State.pumpF p (s.hylPort p).tx.length s

/-- R425: every held flit is sent again, in order. -/
def State.resend (s : State) (p : Nat) : State :=
  let x := s.hylPort p
  x.held.foldl (fun s f => s.putFlit p 1 f.seq x.ack false [] (some f.msg)) s

/-! ### Paths -/

/-- R445: the number of dimensions. -/
def Image.dims (i : Image) : Nat :=
  match i.poolMap with
  | none => 0
  | some m => ((List.range 8).find? fun d => decide (m.maxDevices ≤ 2 ^ d)).getD 7

/-- R445: the image makes the device one of a pool. -/
def Image.pooled (i : Image) : Bool := i.poolMap.isSome && decide (i.device.hylEnable ≠ 0)

/-- Table 17-3: a link's kind while its port can hold a link. -/
def State.kindOf (s : State) (p : Nat) : Nat :=
  if [HylSt.l0, .recovery, .widthChange, .l1, .l1d].contains (s.hylPort p).st then s.pool.linkKind.getD p 0 else 0

/-- The partner's device number, as its last HELLO gives it. -/
def HylPort.partner (x : HylPort) : Option Nat := x.hello.bind (·.devnum)

/-- Port 7 is the spare of a dimension (Table 17-1). -/
def State.spareOf (s : State) (d : Nat) : Bool := decide (s.kindOf 7 = 4) && (s.hylPort 7).partner == some (s.pool.devnum ^^^ 2 ^ d)

/-- R448: the port that carries a dimension's traffic. -/
def State.dimPort (s : State) (d : Nat) : Nat :=
  let gone := [HylSt.down, .disabled, .retired].contains (s.hylPort d).st
  let back := decide ((s.hylPort d).st = .l0) && (s.hylPort 7).held.isEmpty
  if s.spareOf d && (gone || (s.pool.onSpare.contains d && !back)) then 7 else d

def State.isMember (s : State) (d : Nat) : Bool := bit s.pool.members.toNat d

/-- R456, R457: the next hop to a device, over the lowest dimension that still differs, if it is usable. -/
def State.nextHop (s : State) (dst : Nat) : Option (Nat × Nat) :=
  match (List.range s.img.dims).find? fun d => bit (s.pool.devnum ^^^ dst) d with
  | none => none
  | some d =>
    let p := s.dimPort d
    if (s.kindOf p = 4 ∨ s.kindOf p = 5) ∧ s.isMember (s.pool.devnum ^^^ 2 ^ d) then some (d, p) else none

/-- R457: a message that cannot go on is discarded, and its originator is told. -/
def State.unreachable (s : State) (m : LinkMsg) : State :=
  let s1 := { s with pool := { s.pool with unreachCnt := s.pool.unreachCnt + 1 } }
  let s2 := match s1.limited 7 m.dst 0 with
    | (true, s2) => s2.post { cls := .deviceGone, device := some m.dst, code := m.op }
    | (false, s2) => s2
  if m.op = 0x10 then s2 else s2.send (.unreach m.src m.op (m.tag % 65536))

/-- A message joins a port's queue. -/
def State.enqueue (s : State) (p i cls : Nat) : State := (s.modHyl p fun x => { x with tx := x.tx ++ [(i, cls)] }).pump p

/-- Ports whose links carry floods (R451). -/
def State.floodPorts (s : State) : List Nat := (List.range 8).filter fun p => decide (s.kindOf p = 4) || decide (s.kindOf p = 5)

/-- The message at place `i` of those sent takes its port (R448, R449, R456). -/
def State.routeOne (s : State) (i : Nat) : State :=
  match s.out[i]? with
  | none => s
  | some (.link p _ _) => s.enqueue p i 4
  | some (.flood _ _ _ _ but) => (s.floodPorts.filter fun p => decide (but ≠ some p)).foldl (fun s p => s.enqueue p i 4) s
  | some (.coll _ true op _ _) => if s.kindOf 7 = 2 then s.enqueue 7 i (collCls op) else s
  | some o =>
    match o.route with
    | none => s
    | some m0 =>
      let m := match o with | .forward _ => m0 | _ => { m0 with src := s.pool.devnum }
      if m.dst = s.pool.devnum then s
      else
        match s.nextHop m.dst with
        | none => s.unreachable m
        | some (d, p) =>
          let sp := if p = d then s.pool.onSpare.erase d else if s.pool.onSpare.contains d then s.pool.onSpare else s.pool.onSpare ++ [d]
          { s with pool := { s.pool with onSpare := sp } }.enqueue p i m.cls

/-- Messages that the device has sent since the last time take their ports. -/
def State.linkSync (s : State) : State :=
  let n := s.out.length
  let s1 := ((List.range (n - s.pool.routed)).map fun k => s.pool.routed + k).foldl State.routeOne s
  { s1 with pool := { s1.pool with routed := n } }

/-! ### Floods -/

/-- A flood of this device's own (R451). -/
def State.floodOut (s : State) (op : Nat) (vals : List Nat) : State :=
  let q := s.pool.floodSeq
  { s with pool := { s.pool with floodSeq := (q + 1) % 65536, seen := s.pool.seen ++ [(s.fuses.serial, q)] } }.send (.flood op s.fuses.serial q vals none)

/-- A flood arrives: it goes on once, on every other link; none when it has been here before. -/
def State.floodIn (s : State) (op : Nat) (f : Flood) (vals : List Nat) : Option State :=
  if s.pool.seen.contains (f.origin, f.seq) ∨ !s.img.pooled ∨ !(s.floodPorts.contains f.port) then none
  else some ({ s with pool := { s.pool with seen := s.pool.seen ++ [(f.origin, f.seq)] } }.send (.flood op f.origin f.seq vals (some f.port)))

/-! ### Links come and go -/

/-- R467: a link to a member becomes usable or unusable; its neighbours report it. -/
def State.noteLink (s : State) (p : Nat) (ok : Bool) : State :=
  match (s.hylPort p).partner with
  | some d =>
    let was := s.pool.usable.contains (s.pool.devnum, d)
    if s.pool.st ≠ .member ∨ was = ok then s
    else
      let u := if ok then s.pool.usable ++ [(s.pool.devnum, d)] else s.pool.usable.erase (s.pool.devnum, d)
      { s with pool := { s.pool with usable := u } }.floodOut 5 [s.pool.devnum, p, d, b2n ok]
  | none => s

/-- The end of a recovery (Table 20-1, source 0x32). -/
def State.recoveryDone (s : State) (p : Nat) : State :=
  let x := s.hylPort p
  if x.st = .recovery then
    (s.gaugeEvent 0x32 p none (s.now - x.recFrom)).modHyl p fun x => { x with recEnd := some s.now, lastAttempt := x.attempt, attempt := 0, own := false }
  else s

/-- R437: held flits and credits are discarded and lost; what had not left takes another path, or none. -/
def State.hylDrop (s : State) (p : Nat) (st : HylSt) : State :=
  let s0 := s.linkSync.recoveryDone p
  let x := s0.hylPort p
  let s1 := s0.noteLink p false
  let s2 := { s1.modHyl p fun x => { x with st := st, tx := [], held := [], credits := [], owed := [], active := 0, own := false, want := none,
                                            pmWait := false, hello := none, attempt := 0, peerPort := none, peerNext := none, seen := [], sentSeen := [], part := none } with
    pool := { s1.pool with
      linkKind := s1.pool.linkKind.setD p 0 0, lostMsgCnt := s1.pool.lostMsgCnt + BitVec.ofNat 32 x.held.length
      -- R448: the spare takes the dimension's traffic until the port is in L0 again
      onSpare := if p < s1.img.dims ∧ s1.spareOf p ∧ ¬ s1.pool.onSpare.contains p then s1.pool.onSpare ++ [p] else s1.pool.onSpare } }
  x.tx.foldl (fun s e => s.routeOne e.1) s2

/-- A port leaves service until a cold reset (R436). -/
def State.hylRetire (s : State) (p : Nat) : State := s.hylDrop p .retired

/-! ### Width (R430, R434, R436) -/

/-- R430: the candidate active sets in order of preference. -/
def candidateSets : List Nat := [0xFF, 0x0F, 0xF0, 0x03, 0x0C, 0x30, 0xC0]

/-- The first candidate within a set of lanes and one of usable lanes. -/
def chooseSet (within ok : Nat) : Option Nat := candidateSets.find? fun c => decide (c &&& within = c) && decide (c &&& ok = c)

/-- R434, R436: an active lane that is retired asks for the next set; with none left the port retires. -/
def State.hylWant (s : State) (p : Nat) : State :=
  let x := s.hylPort p
  if x.active &&& x.retired = 0 then s
  else
    match chooseSet x.active (255 ^^^ (x.retired &&& 255)) with
    | none => s.hylRetire p
    | some c => if x.st = .l0 then (s.modHyl p fun x => { x with want := some c, wantAt := s.now, own := true, pmWait := false }).putControl p 1 c else s

/-- R434: a WREQ that has no answer is sent again every 1 us. -/
def State.askAgain (s : State) (p : Nat) : State :=
  let x := s.hylPort p
  match x.want with
  | some c =>
    if x.st = .l0 ∧ x.own ∧ x.wantAt + 1000 ≤ s.now then (s.modHyl p fun x => { x with wantAt := s.now }).putControl p 1 c else s
  | none => s

/-- R436: a lane meter has crossed. -/
def State.laneRetire (s : State) (p lane : Nat) : State :=
  (s.modHyl p fun x => { x with retired := x.retired ||| 2 ^ lane }).hylWant p

/-- R422: a port enters L0 as a fresh link. -/
def State.freshLink (s : State) (p active : Nat) : State :=
  (s.modHyl p fun x => { x with st := .l0, active := active, nextTx := 0, nextRx := 0, held := [], tx := x.tx, credits := fullCredits, owed := [],
                                nakSent := false, hello := none, noted := false, want := none, own := false, pmWait := false, seen := [], sentSeen := [], peerNext := none, part := none,
                                txScr := scrSeeds, rxScr := scrSeeds })

/-- R432: NEXT_RX lies between the oldest held flit and the next flit to be sent. -/
def HylPort.inRange (x : HylPort) (n : Nat) : Bool := (n + 4096 - (x.nextTx + 4096 - x.held.length) % 4096) % 4096 ≤ x.held.length

/-- R432: L0 again: what the partner has is dropped, the rest goes again, and waiting messages follow. -/
def State.resume (s : State) (p n : Nat) : State :=
  let s1 := s.recoveryDone p
  let x := s1.hylPort p
  let k := (n + 4096 - (x.nextTx + 4096 - x.held.length) % 4096) % 4096
  let y := { x with st := .l0, held := x.held.drop k, own := false, want := none, seen := [], sentSeen := [], peerNext := none }
  let s2 := s1.modHyl p fun _ => { y with txScr := scrSeeds, rxScr := scrSeeds }
  ((s2.resend p).pump p).hylWant p

/-- R432: the partner has lost its link state; CONFIG as a fresh link, held flits lost. -/
def State.reconfigure (s : State) (p : Nat) : State :=
  let s1 := s.recoveryDone p
  let n := (s1.hylPort p).held.length
  { s1.modHyl p fun x => { x with st := .config, held := [], credits := [], owed := [], own := false, want := none, seen := [], sentSeen := [], peerNext := none } with
    pool := { s1.pool with lostMsgCnt := s1.pool.lostMsgCnt + BitVec.ofNat 32 n } }

end Sys2Proof.Machine
end

