-- ==== Sys2Proof/Machine/Faults.lean ====
section
/-! DEFINITION. Fault meters (R502-R506), what a crossing starts (R504, R508-R521), and the loss of capacity (R136, R522). -/
namespace Sys2Proof.Machine

/-! ### Capacity (R38, R136, R522) -/

/-- A and F of R522. -/
def State.activeDies (s : State) : List Nat := (List.range 8).filter fun d => decide ((s.die d).st = .active)
def State.failedChannels (s : State) : Nat :=
  s.activeDies.foldl (fun a d => a + popCount 32 (s.die d).chFail + (s.flt.chRetired.filter fun c => decide (c / 32 = d)).length) 0

/-- The host-visible capacity in bytes. -/
def State.capacity (s : State) : Nat :=
  let a := s.activeDies.length
  (256 * a - 9 * (s.failedChannels - a)) * 2 ^ 27

/-- R134: bytes of a VD's accepted extents, and of its offers. -/
def Vd.accepted (x : Vd) : Nat := x.extents.foldl (fun a e => a + e.2) 0
def Vd.pending (x : Vd) : Nat := x.offers.foldl (fun a o => a + o.2.1) 0
def State.exposedBytes (s : State) : Nat := s.vdList.foldl (fun a v => a + (s.vd v).accepted + (s.vd v).pending) 0

/-- The highest-addressed extent of a list, and the rest. -/
def topExtent (xs : List (Nat × Nat)) : Option (Nat × Nat) :=
  xs.foldl (fun a e => match a with | none => some e | some b => if b.1 < e.1 then some e else some b) none

/-- R136: the VD with the largest accepted total, the lowest number on a tie. -/
def largestVd (t : List (Nat × List (Nat × Nat))) : Option (Nat × List (Nat × Nat)) :=
  let sum (xs : List (Nat × Nat)) : Nat := xs.foldl (fun a e => a + e.2) 0
  t.foldl (fun a e => match a with | none => some e | some b => if sum b.2 < sum e.2 then some e else some b) none

/-- R136: Release Capacity requests until they cover an excess. -/
def State.askRelease : Nat → List (Nat × List (Nat × Nat)) → Nat → State → State
  | 0, _, _, s => s
  | k + 1, t, excess, s =>
    if excess = 0 then s
    else
      match largestVd t with
      | none => s
      | some (v, xs) =>
        match topExtent xs with
        | none => s
        | some e =>
          let n := min e.2 ((excess + 2097151) / 2097152 * 2097152)
          let rest := (xs.erase e) ++ (if n < e.2 then [(e.1, e.2 - n)] else [])
          State.askRelease k (t.map fun y => if y.1 = v then (v, rest) else y) (excess - n)
            (s.event v 4 { kind := .dynamicCapacity, ty := .releaseRequested, dpa := e.1 + e.2 - n, len := n })

/-- R136, Table 05-7: the capacity has shrunk. `log` is 3 (Fatal) for a trip, 2 (Failure) otherwise. -/
def State.shrunk (s : State) (log : Nat) : State :=
  let s1 := s.eventAll log { kind := .memoryModule, ty := .mediaStatusChange }
  let t := s1.vdList.map fun v => (v, (s1.vd v).extents)
  State.askRelease (t.foldl (fun a e => a + e.2.length) 0 + 64) t (s1.exposedBytes - s1.capacity) s1

/-! ### Meters -/

def meterKey (cls inst : Nat) : Nat := cls * 65536 + inst
def State.meter (s : State) (cls inst : Nat) : Meter := s.flt.meters.getD (meterKey cls inst) {}

/-- The die that holds an instance (8: the I/O die). A row meter is its channel times 16 plus its slot. -/
def meterDie (cls inst : Nat) : Nat :=
  match cls with | 0 => inst / 512 | 1 => inst / 32 | 2 => inst | 3 => inst / 144 | 4 => inst / 8 | 5 => inst | _ => 8

def State.setMeter (s : State) (cls inst : Nat) (m : Meter) : State :=
  { s with flt := { s.flt with meters := s.flt.meters.setD (meterKey cls inst) {} m } }

def State.row (s : State) (i : Nat) : RowSlot := s.flt.rows.getD i {}
def State.setRow (s : State) (i : Nat) (r : RowSlot) : State := { s with flt := { s.flt with rows := s.flt.rows.setD i {} r } }

/-- R502: the weight that the policy gives an event. -/
def State.scaled (s : State) (cls b : Nat) : Nat := (b * s.pol.fmWscale.getD cls 0 + 15) / 16
def State.threshold (s : State) (cls : Nat) : Nat := s.pol.fmThresh.getD cls 0

/-- R503, R505: the level and freezing of an instance, whatever holds it. -/
def State.level (s : State) (cls inst : Nat) : Meter :=
  if cls = 0 then { level := (s.row inst).level, frozen := (s.row inst).frozen } else s.meter cls inst
def State.setLevel (s : State) (cls inst : Nat) (m : Meter) : State :=
  if cls = 0 then s.setRow inst { s.row inst with level := m.level, frozen := m.frozen } else s.setMeter cls inst m

/-- R503: an instance is retired or retiring: what it produces is no longer counted. -/
def State.outOfUse (s : State) (cls inst : Nat) : Bool :=
  (s.flt.retiring.any fun r => decide (r.cls = cls) && decide (r.inst = inst)) || (match cls with
    | 1 => s.flt.chRetired.contains inst
    | 3 => s.flt.bayRetired.contains inst
    | 4 => (s.slice inst).retired
    | 6 => s.flt.cxlLaneRetired.contains inst
    | 7 => decide ((s.port inst).link = 3)
    | 9 => decide ((s.hylPort inst).st = .retired)
    | _ => false)

/-- R503: an instance has a meter that counts. -/
def State.metered (s : State) (cls inst : Nat) : Bool :=
  (decide (6 ≤ cls) || decide ((s.die (meterDie cls inst)).st = .active)) && !s.outOfUse cls inst

/-- R503: an event of base weight `b`; the answer says whether the meter crosses. The policy holds once an image is applied. -/
def State.addLevel (s : State) (cls inst b : Nat) : State × Bool :=
  let m := s.level cls inst
  if m.frozen || !s.metered cls inst then (s, false)
  else
    let l := min (2 ^ 32 - 1) (m.level.toNat + s.scaled cls b)
    let cross := s.boot.memActive && decide (s.threshold cls ≤ l)
    (s.setLevel cls inst { level := BitVec.ofNat 32 l, frozen := cross }, cross)

/-! ### Retirements: what holds of them all (R504, R508) -/

def State.endRetire (s : State) (cls inst : Nat) : State :=
  { s with flt := { s.flt with retiring := s.flt.retiring.filter fun r => !(decide (r.cls = cls) && decide (r.inst = inst)) } }
def State.retireAt (s : State) (cls inst : Nat) : Nat :=
  match s.flt.retiring.find? fun r => decide (r.cls = cls) && decide (r.inst = inst) with | some r => r.step | none => 0
def State.retireTo (s : State) (cls inst step : Nat) : State :=
  { (s.endRetire cls inst) with flt := { (s.endRetire cls inst).flt with retiring := (s.endRetire cls inst).flt.retiring ++ [{ cls := cls, inst := inst, step := step }] } }

/-- R504: a retirement of the class runs on the die. -/
def State.retireBusy (s : State) (cls die : Nat) : Bool :=
  s.flt.retiring.any fun r => decide (r.cls = cls) && decide (meterDie cls r.inst = die) && decide (0 < r.step)

/-- R504: retirements of resources inside a larger one are absorbed. -/
def State.absorb (s : State) (f : Retire → Bool) : State := { s with flt := { s.flt with retiring := s.flt.retiring.filter fun r => !f r } }

/-! ### Tasks of slices that stop (R313, R514, R515) -/

/-- A task that its slice cannot run ends FAULTED with RETIRED. -/
def Task.retired (t : Task) : Task := if t.fin.isSome then t else { t with fin := some { term := .faulted, status := .retired } }

/-- The RUNNING tasks of a slice, and with `all` those that wait for it too, end. -/
def State.stopTasks (s : State) (n : Nat) (all : Bool) : State :=
  { s with runners := s.runners.del n
           dax := { s.dax with cmds := s.dax.cmds.mapVal fun _ c => { c with tasks := c.tasks.map fun t =>
             if t.slice = n ∧ (all ∨ t.st = .running) then t.retired else t } } }

/-- R313: the waiting tasks of a slice go to its buddy, where a task of the same command that has not ended takes up their units. -/
def Cmd.moveTasks (c : Cmd) (n m : Nat) : Cmd :=
  let here := c.tasks.filter fun t => decide (t.slice = n) && t.fin.isNone && decide (t.st ≠ .running)
  let units := here.flatMap (·.units)
  let unc := c.uncreated.map fun u => if u.1 = n then (m, u.2) else u
  match here with
  | [] => { c with uncreated := unc }
  | t :: _ =>
    if c.tasks.any fun t => decide (t.slice = m) && t.fin.isNone then
      { c with uncreated := unc, tasks := (c.tasks.filter fun t => !here.contains t).map fun t => if t.slice = m ∧ t.fin.isNone then { t with units := t.units ++ units } else t }
    else { c with uncreated := unc, tasks := (c.tasks.filter fun t => !here.contains t) ++ [{ t with slice := m, st := .ready, units := units }] }

/-- R224: the register of a write-back stands at the slice that serves its line now. -/
def State.holdWb (s : State) (gl : Nat) : State :=
  s.modSlice (s.proxySlice gl) fun x => if (x.miss.find gl).isSome then x else { x with miss := x.miss.put gl { phase := .wb, vd := wbShare } }

/-- Requests in progress at a slice whose home is lost are answered by the lost-home responder (R517); write-backs that are not
acknowledged yet are awaited where their lines are served now. -/
def State.answerLost (s : State) (n : Nat) : State :=
  let x := s.slice n
  let rs := (x.miss.flatMap fun e => e.2.req.toList ++ e.2.waiters) ++ x.inq
  let s1 := s.setSlice n { x with miss := [], inq := [], stopped := true, l1 := [], ro := {}, busyAt := [] }
  let s2 := rs.foldl (fun s r => if lineDev r.line = s.pool.devnum then s.lostAnswer r else s.answer r.line r .deviceGone 0 15 {}) s1
  (x.miss.filter fun e => decide (e.2.phase = .wb)).foldl (fun s e => s.holdWb e.1) s2

/-! ### Dies (R80, R515, R516) -/

/-- R515 steps 1, 2, 4 and 5: a die leaves service. `keep` says that its dirty RE lines can still be written back (step 3). -/
def State.dieRetire (s : State) (d : Nat) (keep trip : Bool) : State :=
  if (s.die d).st ≠ .active then s
  else
    let ns := (List.range 8).map fun i => 8 * d + i
    let s1 := (s.modDie d fun x => { x with st := .retired }).holdCom
    let s2 := ns.foldl (fun s n => (s.stopTasks n true).answerLost n) s1
    let dirty := (ns.flatMap fun n => (s2.slice n).frames.filterMap fun e => if e.2.st = LineState.re ∧ e.2.d ≠ 0 then some e.2.line else none)
    let s3a := ns.foldl (fun s n => s.modSlice n fun x => { x with frames := x.frames.keep fun _ f => keep && decide (f.st = .re) && decide (f.d ≠ 0) }) s2
    let s3 := if keep then dirty.foldl State.holdWb s3a else { s3a with pool := { s3a.pool with lostCopies := s3a.pool.lostCopies ++ dirty } }
    let s4 := s3.absorb fun r => decide (r.cls < 6) && decide (meterDie r.cls r.inst = d)
    let onDie (g : Nat) : Bool := decide (gfDev g = s.pool.devnum) && decide (s.inv.chanOf (gfLocal g) / 32 = d)
    let s5 := (s4.slu.moves.filter fun m => decide (m.step < 3) && (onDie m.src || onDie m.dst)).foldl State.moveAbandon
      { s4 with flt := { s4.flt with chDraining := s4.flt.chDraining.filter fun c => decide (c / 32 ≠ d) } }
    let s6 := (s5.pen.pens.filter fun e => decide (e.1 / 1024 = d) && decide (e.2.st = .leased)).foldl (fun s e => s.penAbandon e.1) s5
    let s6 := (s6.slu.promo.filter fun e => decide (e.1 / 4 / 144 = d)).foldl (fun s p => match s.slu.pt.find (ptKey p.2.vd p.2.page) with
      | some e => s.setEntry p.2.vd p.2.page { e with promoted := false }
      | none => s) s6
    let s7 := { s6 with slu := { s6.slu with promo := s6.slu.promo.keep fun k _ => decide (k / 4 / 144 ≠ d) }
                        flume := s6.flume.mapVal fun k f => if k = d then f.cut else f
                        flt := { s6.flt with spareLeft := s6.activeDies.length - s6.failedChannels, singleCopy := decide (s6.activeDies.length = 1) || s6.flt.singleCopy } }
    let s8 := s7.post { cls := .fatal, meter := if trip then 0xFF else 2, unit := d }
    let s8 := match (s.flumeOf d).run with | some g => s8.gaugeEvent 0x31 d none g.slips | none => s8
    let s9 := s8.shrunk (if trip then 3 else 2)
    let s10 := if keep then s9.retireTo 2 d 3 else s9.retireTo 2 d 6
    if s10.activeDies.isEmpty then
      ({ s10 with boot := { s10.boot with memActive := false, neverActive := true }, vds := s10.vds.mapVal fun _ x => { x with st := .notActive } }).post { cls := .deviceFatal }
    else s10

/-! ### CXL lanes and ports (R521) -/

/-- What a link down without a disable before it does (R152, R153). -/
def State.linkLost (s : State) (port pick : Nat) : State :=
  ((s.linkDown port pick).modPort port fun x => { x with surpriseDown := true }).portVds port

/-- R64, R151, R170: the port and its VDs reset; RESET_CAUSE records the trigger (R586). -/
def State.portReset (s : State) (port pick : Nat) : State :=
  let s1 := { s with boot := s.boot.note (7 + port) }
  ((s1.linkDown port pick).modPort port fun x => { x with surpriseDown := false }).portVds port

/-- The port retires: Disabled, with a port reset of its VDs. -/
def State.cxlRetire (s : State) (p : Nat) : State :=
  (((s.linkDown p 0).modPort p fun x => { x with link := 3 }).portVds p).post { cls := .fatal, meter := 7, unit := p }

/-- The widest of x8 and x4 from lane 0 without a retired lane: its code in PORT_STATUS_n. -/
def State.cxlWidth (s : State) (p : Nat) : Option Nat :=
  let ok (n : Nat) : Bool := (List.range n).all fun l => !s.flt.cxlLaneRetired.contains (16 * p + l)
  if ok 8 then some 1 else if ok 4 then some 0 else none

/-! ### Slices and bays (R196, R512-R514) -/

/-- Bays of a kind of the device that have not retired. -/
def State.baysOf (s : State) (kind : Nat) : List Nat :=
  s.inv.slices.flatMap fun n => ((List.range 18).filter fun b => decide (s.bayKind n b = kind) && !s.flt.bayRetired.contains (n * 18 + b)).map fun b => n * 18 + b

/-- R513: free rescue bays: those that stand in for no pinned bay, on live dies. -/
def State.freeRescue (s : State) : List Nat :=
  (s.baysOf 2).filter fun b => !(s.hop.bayMap.any fun e => decide (e.2 = b)) && decide ((s.die (b / 144)).st = .active) && !(s.slice (b / 18)).retired

/-- R513: a copy that is staged through a rescue bay finds none free, and waits. -/
def State.noStaging (s : State) : Bool := s.freeRescue.isEmpty

/-- R513: the bay that replaces one: on its die, or the lowest of the device; never the last. -/
def State.rescueFor (s : State) (b : Nat) : Option Nat :=
  let free := s.freeRescue.filter fun r => decide (r ≠ b)
  if free.length ≤ 1 then none else match free.find? fun r => decide (r / 144 = b / 144) with | some r => some r | none => free.head?

/-- R513: every byte of a pinned bay that nothing replaces is poison. -/
def State.poisonBay (s : State) (b : Nat) : State :=
  { s with bayPoison := (List.range 8192).foldl (fun t i => t.setD (b * 8192 + i) false true) s.bayPoison }

/-- The pool bay that a device bay stands as: its key in `Hopper.bayMap`. -/
def State.poolBayOf (s : State) (b : Nat) : Option Nat :=
  match s.hop.bayMap.find? fun e => decide (e.2 = b) with
  | some e => some e.1
  | none =>
    ((List.range 16).flatMap fun p => if (s.hpool p).kind = 1 then (List.range ((s.hpool p).size / 4)).map fun j => (p, j) else []).findSome? fun y =>
      if (s.hop.bayMap.find (y.1 * 2 ^ 16 + y.2)).isNone ∧ s.poolBay y.1 y.2 = b then some (y.1 * 2 ^ 16 + y.2) else none

/-- R512: the contents of a pool bay go to the bay that replaces it, or are poisoned. -/
def State.replaceBay (s : State) (b : Nat) : State :=
  match s.poolBayOf b with
  | none => s
  | some key =>
    match s.rescueFor b with
    | none => s.poisonBay b
    | some r =>
      let lo := b * bayBytes
      let inBay (x : Nat) : Bool := decide (x / bayBytes = b)
      let cells := (Tab.keep s.bays fun a _ => inBay a).map fun c => (c.1 - lo + r * bayBytes, c.2)
      let pois := (s.bayPoison.keep fun k _ => inBay (k * 32)).map fun c => (c.1 - lo / 32 + r * (bayBytes / 32), c.2)
      { s with bays := cells.foldl (fun t c => Tab.setD t c.1 0 c.2) (Tab.keep s.bays fun a _ => !inBay a && decide (a / bayBytes ≠ r))
               bayPoison := pois.foldl (fun t c => t.setD c.1 false c.2) (s.bayPoison.keep fun k _ => !inBay (k * 32) && decide (k * 32 / bayBytes ≠ r))
               hop := { s.hop with bayMap := s.hop.bayMap.put key r } }

/-- R289: the promotion slots of a bay are written back and given up; one whose page is still coming holds nothing yet. -/
def State.demoteBay (s : State) (b : Nat) : State :=
  let here (k : Nat) : Bool := decide (k / 4 = b)
  (s.slu.promo.filter fun e => here e.1 && decide (e.2.st ≠ .coming)).foldl (fun s e =>
    (s.setPromo e.1 { e.2 with st := .going, fantail := false, next := none }).demoteDone e.1)
    { s with slu := { s.slu with promo := s.slu.promo.keep fun k p => !here k || decide (p.st ≠ .coming) } }

/-- R196: the lines of a cache bay are written back and its way leaves every set; a fill that was to take it takes another. -/
def State.dropWay (s : State) (b : Nat) : State :=
  let n := b / 18
  let here (k : Nat) : Bool := decide (k % 32 = b % 18)
  let s1 := ((s.slice n).frames.filter fun e => here e.1).foldl (fun s e => s.evict n e.1) s
  s1.modSlice n fun x => { x with miss := x.miss.mapVal fun _ m => { m with way := m.way.filter fun k => !here k } }

def State.bayGone (s : State) (b : Nat) : State := { s with flt := { s.flt with bayRetired := s.flt.bayRetired ++ [b] } }

/-- The channels that a slice homes with its buddy's, and that are in service. -/
def State.pairChannels (s : State) (n : Nat) : List Nat :=
  s.inv.chList.filter fun c => (decide (c / 4 = n) || decide (c / 4 = buddy n)) && !s.flt.chRetired.contains c

/-- R514 step 1: a slice stops, its RUNNING task ends and its waiting tasks move. With its buddy retired the eight channels that it homes
retire instead, one after the other, and it with the last of them (R187): step 3. -/
def State.sliceStart (s : State) (n : Nat) : State :=
  if (s.slice (buddy n)).retired then
    ((s.pairChannels n).filter fun c => !s.flt.chDraining.contains c && s.flt.retiring.all fun r => decide (r.cls ≠ 1) || decide (r.inst ≠ c)).foldl
      (fun s c => s.retireTo 1 c 0) (s.retireTo 4 n 3)
  else
    let s1 := (s.modSlice n fun x => { x with stopped := true }).stopTasks n false
    s1.dax.cmds.foldl (fun s e =>
      let c := e.2.moveTasks n (buddy n)
      let freed := max 1 e.2.tasks.length - max 1 c.tasks.length
      (s.setCmd e.1 c).modVd c.vd fun x => { x with useTask := x.useTask - freed }) s1

/-! ### Rows and channels (R509, R510) -/

/-- R506: what a row slot names: its channel, DRAM die and bank. -/
def State.sparesKey (s : State) (i : Nat) : Nat := (i / 16 * 12 + (s.row i).r % 12) * 16 + (s.row i).bank

/-- The device frame that lies at channel-local frame `r` of a channel (R186). -/
def Inventory.frameAt (i : Inventory) (c r : Nat) : Option Nat :=
  if i.chList.contains c then some (i.rowFrame c r) else none

/-- The page of this device that holds a frame: its VD, its first page, and its size. -/
def State.pageOf (s : State) (f : Nat) : Option (Nat × Nat × PEntry) :=
  match s.slu.frames.find f with
  | none => none
  | some t => match s.entry t.vd t.page with | some (p, e) => some (t.vd, p, e) | none => none

/-- R510: a 2 MiB page is split in place, where the Sluice area has room for its L3 table. -/
def State.splitPage (s : State) (v page : Nat) (e : PEntry) : Option State :=
  ((s.delEntry v page).withTables v page false).map fun s1 =>
    (List.range 32).foldl (fun s i => s.setEntry v (page + i) { e with big := false, gframe := e.gframe + i }) s1

/-- R509, R510: the page that holds a frame is to move within the device; of a 2 MiB page that can be split only the frame's 64 KiB. -/
def State.moveOff (s : State) (by_ : MoveBy) (f : Nat) : State :=
  match s.pageOf f with
  | none => s
  | some (v, p, e) =>
    let ask (s : State) (page : Nat) : State := s.want { vd := v, page := page, dev := s.pool.devnum, by_ := by_ }
    match (if e.big && decide (e.kind = .page) then s.splitPage v p e else none) with
    | some s1 => ask s1 (p + (f - gfLocal e.gframe))
    | none => ask s p

/-! ### Crossing -/

/-- What starts when the meter of an instance crosses; `ch` charges another meter. -/
def State.startRetire (ch : Nat → Nat → Nat → State → State) (cls inst : Nat) (s : State) : State :=
  match cls with
  | 0 =>
    let c := inst / 16
    if s.chClosed c then s.endRetire 0 inst
    else if s.flt.pprUsed.getD (s.sparesKey inst) 0 < 2 then s
    else
      let s1 := ch 1 c 512 s
      if s1.chClosed c then s1.endRetire 0 inst
      else match s1.inv.frameAt c (s1.row inst).r with | some f => (s1.moveOff .row f).retireTo 0 inst 2 | none => s1.endRetire 0 inst
  | 1 =>
    { (s.absorb fun r => decide (r.cls = 0) && decide (r.inst / 16 = inst)) with flt := { (s.absorb fun r => decide (r.cls = 0) && decide (r.inst / 16 = inst)).flt with chDraining := s.flt.chDraining ++ [inst] } }
  | 2 => s.dieRetire inst true false
  | 3 =>
    if s.flt.retiring.any fun r => decide (r.cls = 4) && decide (r.inst = inst / 18) then s.endRetire 3 inst
    else match s.bayKind (inst / 18) (inst % 18) with
    | 0 =>
      let s1 := ch 4 (inst / 18) 256 (((s.dropWay inst).bayGone inst).endRetire 3 inst)
      if (s1.cacheBays (inst / 18)).isEmpty ∧ s1.retireAt 4 (inst / 18) = 0 ∧ !(s1.slice (inst / 18)).retired then
        ((s1.retireTo 4 (inst / 18) 1).absorb fun r => decide (r.cls = 3) && decide (r.inst / 18 = inst / 18)).sliceStart (inst / 18) else s1
    | 2 =>
      if s.hop.bayMap.any fun e => decide (e.2 = inst) then s.demoteBay inst
      else ch 4 (inst / 18) 256 ((s.bayGone inst).endRetire 3 inst)
    | _ => s.demoteBay inst
  | 4 => (s.absorb fun r => decide (r.cls = 3) && decide (r.inst / 18 = inst)).sliceStart inst
  | 5 => s.dieRetire inst false false
  | 6 =>
    let p := inst / 16
    let s1 := ch 7 p 256 { s with flt := { s.flt with cxlLaneRetired := s.flt.cxlLaneRetired ++ [inst] } }
    if (s1.port p).link = 3 then s1
    else match s1.cxlWidth p with
      | some w => s1.modPort p fun x => { x with width := min x.width w }
      | none => s1.cxlRetire p
  | 7 => s.cxlRetire inst
  | 8 => ch 9 (inst / 8) 512 (s.laneRetire (inst / 8) (inst % 8))
  | _ => s.hylRetire inst

/-- R503, R504: a meter has crossed: a record, and the retirement starts or waits. Links wait for nothing. -/
def State.crossed (ch : Nat → Nat → Nat → State → State) (cls inst : Nat) (s : State) : State :=
  let s1 := s.post { cls := .retirement, meter := cls, unit := inst, level := (s.level cls inst).level.toNat }
  if 6 ≤ cls then s1.startRetire ch cls inst
  else if s1.retireBusy cls (meterDie cls inst) then s1.retireTo cls inst 0
  else (s1.retireTo cls inst 1).startRetire ch cls inst

/-- An event is charged to a meter. A retirement charges only meters of larger resources, so `k` bounds the chain. -/
def State.chargeF : Nat → Nat → Nat → Nat → State → State
  | 0, cls, inst, b, s => (s.addLevel cls inst b).1
  | k + 1, cls, inst, b, s =>
    match s.addLevel cls inst b with
    | (s1, true) => s1.crossed (State.chargeF k) cls inst
    | (s1, false) => s1

def State.charge (s : State) (cls inst b : Nat) : State := State.chargeF 8 cls inst b s

/-- R116: meters at or above a threshold that has just changed cross, in ascending instance number. -/
def State.recheck (s : State) (cls : Nat) : State :=
  let ks := if cls = 0 then s.flt.rows.map (·.1) else (s.flt.meters.filter fun e => decide (e.1 / 65536 = cls)).map fun e => e.1 % 65536
  ks.foldl (fun s i => s.charge cls i 0) s

/-- R505: the slot of a row's meter. A row keeps its slot while it is being retired. -/
def State.rowSlot (s : State) (c r bank : Nat) : Nat × State :=
  let all := (List.range 16).map fun j => 16 * c + j
  let idle := all.filter fun i => !(s.flt.retiring.any fun r => decide (r.cls = 0) && decide (r.inst = i))
  let slots := if idle.isEmpty then all else idle
  match all.find? fun i => (s.row i).used && decide ((s.row i).r = r) && decide ((s.row i).bank = bank) with
  | some i => (i, s)
  | none =>
    match slots.find? fun i => decide ((s.row i).level = 0) with
    | some i => (i, s.setRow i { used := true, r := r, bank := bank })
    | none =>
      let i := slots.foldl (fun a i => if (s.row i).level < (s.row a).level then i else a) (slots.headD (16 * c))
      (i, { s.setRow i { used := true, r := r, bank := bank } with flt := { (s.setRow i { used := true, r := r, bank := bank }).flt with rowEvict := s.flt.rowEvict + 1 } })

/-- An event of the row that holds a line of this device. -/
def State.chargeRow (s : State) (gl b : Nat) : State :=
  let p := s.inv.place (lineOff gl)
  if (s.die (p.ch / 32)).st ≠ .active ∨ s.flt.chRetired.contains p.ch then s
  else let (i, s1) := s.rowSlot p.ch p.r p.bank; s1.charge 0 i b

end Sys2Proof.Machine
end

