-- ==== Sys2Proof/Machine/Retire.lean ====
section
/-! DEFINITION. Events that meters count (R26, R502-R507), thermal samples (R78-R80), and the steps of retirements
(R504, R509-R519). Which event happens is an operand. -/
namespace Sys2Proof.Machine

/-! ### Leaks and events -/

/-- Table 19-2: the leak amount of a class. -/
def leakAmount (cls : Nat) : Nat := if cls = 8 then 2 else 1

def Meter.leak (m : Meter) (n : Nat) : Meter := if m.frozen then m else { m with level := BitVec.ofNat 32 (m.level.toNat - n) }

/-- METER_LEAK (R503): a leak period of a class ends. -/
def execMeterLeak (cls : Nat) (s : State) : Res :=
  if cls = 0 then
    .next { s with flt := { s.flt with rows := s.flt.rows.mapVal fun _ r => if r.frozen then r else { r with level := BitVec.ofNat 32 (r.level.toNat - 1) } } }
  else
    .next { s with flt := { s.flt with meters := s.flt.meters.foldl (fun t e =>
      if e.1 / 65536 = cls then t.setD e.1 {} (e.2.leak (leakAmount cls)) else t) s.flt.meters } }

/-- A corrected event: a CORRECTABLE record with its meter (R526). -/
def State.corrected (s : State) (cls inst : Nat) : State :=
  s.post { cls := .correctable, meter := cls, unit := inst, level := (s.level cls inst).level.toNat }

/-- Sectors of a line of this device become poison where they are read (R145). -/
def State.poisonSectors (s : State) (gl : Nat) (sec : Sectors) : State :=
  let n := s.sliceOf gl
  match (s.slice n).hit gl with
  | some (k, f) =>
    let s1 := s.setFrame n k { f with p := f.p ||| (sec &&& f.v) }
    { s1 with memPoison := setPoison s1.memPoison (lineOff gl) (sec &&& ~~~ f.v) 15 }
  | none => { s with memPoison := setPoison s.memPoison (lineOff gl) sec 15 }

/-- LEAT_ECC_ERROR (R26, R507): a beat with a single or double bit error in a group; the data of a double one is poison. A gated link
carries no beat (R37). -/
def execLeatEccError (die : Nat) (double : Bool) (line : Option Nat) (sec : Sectors) (s : State) : Res :=
  if !s.leatOn die then .next s else
  let s1 := s.charge 5 die (if double then 64 else 1)
  if double then
    match line with
    | some gl => .next ((s1.poisonSectors gl sec).post { cls := .poisoned, meter := 5, unit := die, addr := gl * 128, detail := sec.toNat * 16 + sec.toNat })
    | none => .next s1
  else .next (s1.corrected 5 die)

/-- PATROL_SCRUB (R502, R507): a sector of a line is read; `found` is 0 clean, 1 a corrected bit, 2 a corrected symbol, 3 a command
or address parity error of the channel, 4 a TSV repair of the stack that failed (notes/assumptions/24.md). -/
def execPatrolScrub (line found : Nat) (s : State) : Res :=
  let ch := (s.inv.place (lineOff line)).ch
  if found = 0 ∨ 4 < found ∨ s.lostHome line then .next s
  else if found = 3 then .next ((s.corrected 1 ch).charge 1 ch 16)
  else if found = 4 then .next (s.charge 2 (ch / 32) 256)
  else
    let s1 := s.chargeRow line (if found = 1 then 1 else 16)
    .next (s1.post { cls := .correctable, meter := 0, unit := (s.inv.place (lineOff line)).ch, addr := line * 128 })

/-- Table 19-3, an uncorrectable bay sector: a clean cache line is invalidated, a dirty cache sector or a pinned sector becomes
poison at its home. A clean sector of a line that must stay is refetched from DRAM, and of a remote line that is dirty elsewhere the
dirty sectors are written back with the copy given up, so that a frame keeps to Table 07-4. -/
def State.sramBad (s : State) (n bay off : Nat) : State :=
  let b := n * 18 + bay
  let note (s : State) : State := s.post { cls := .poisoned, meter := 3, unit := b, slice := n }
  if s.bayKind n bay = 0 then
    let key := off % bayBytes / 128 * 32 + bay
    let f := (s.slice n).frames.getD key {}
    let sec : Sectors := BitVec.ofNat 4 (2 ^ (off % 128 / 32))
    if f.st = .i ∨ s.flt.bayRetired.contains b ∨ f.v &&& sec = 0 then s
    else if f.d &&& sec ≠ 0 then note (s.setFrame n key { f with p := f.p ||| sec })
    else if f.st = .h ∧ (f.d ≠ 0 ∨ ((s.slice n).missOf f.line).isSome) then
      s.setFrame n key { f with data := mergeLine (sectorBytes sec) f.data (readLine s.mem (lineOff f.line)),
                                p := (f.p &&& ~~~ sec) ||| (poisonAt s.memPoison (lineOff f.line) &&& sec) }
    else if f.d = 0 then (s.setFrame n key {}).keepWay n f.line key
    else s.evict n key
  else note { s with bayPoison := s.bayPoison.setD (b * (bayBytes / 32) + off % bayBytes / 32) false true }

/-- R502, R507: an error of a slice's arrays or logic is charged to its meter, and its outcome takes place. -/
def State.sramError (s : State) (n : Nat) : SramErr → State
  | .corrected bay => if bay < 18 then (s.corrected 3 (n * 18 + bay)).charge 3 (n * 18 + bay) 1 else s
  | .bad bay off => if bay < 18 then (s.sramBad n bay off).charge 3 (n * 18 + bay) 256 else s
  | .logic => s.charge 4 n 64

/-- LOCAL_READ (R199, R507): a read by an agent of this device; `err` is what its slice found while it served it
(notes/assumptions/24.md). -/
def execLocalRead (r : Req) (pick : Nat) (err : Option SramErr) (s : State) : Res :=
  let s1 := s.localReq { r with op := .read, src := .loc } pick
  .next (match err with | some e => s1.sramError (s.sliceOf r.line) e | none => s1)

/-- RUNNER_TILE_ATTEMPT (R351, R507): an error in the Runner's SRAM or accumulators is charged to the slice. -/
def execRunnerTileAttempt (slice : Nat) (err : Bool) (x : Ext) (s : State) : Res :=
  .next (s.orWait x.pick fun s =>
    match s.runnerOn slice 0x30 with
    | some (r, c, t) =>
      let s1 := s.tileAttempt slice r c t x
      if err then (s1.tileError slice).charge 4 slice 64 else s1
    | none => s)

/-- Channels of a DRAM die with an uncorrectable error within 1 ms of now; the fourth is DIE_WIDE (Table 19-2). -/
def State.dieWide (s : State) (gl : Nat) : State :=
  let p := s.inv.place (lineOff gl)
  let key := p.ch / 32 * 12 + p.dramDie
  let old := (s.flt.dieWide.getD key []).filter fun e => decide (s.now < e.2 + 10 ^ 6) && decide (e.1 ≠ p.ch)
  let now := old ++ [(p.ch, s.now)]
  let s1 := { s with flt := { s.flt with dieWide := s.flt.dieWide.setD key [] (if 4 ≤ now.length then [] else now) } }
  if 4 ≤ now.length then s1.charge 2 (p.ch / 32) 512 else s1

/-- DRAM_UE_REREAD (R145, R507): the reread of an uncorrectable sector, and whether one row explains it. -/
def execDramUeReread (line sector : Nat) (bad oneRow : Bool) (s : State) : Res :=
  if s.lostHome line then .next s
  else
    let ch := (s.inv.place (lineOff line)).ch
    if !bad then .next (s.post { cls := .correctable, meter := 0, unit := ch, addr := line * 128 })
    else
      let m : Sectors := BitVec.ofNat 4 (2 ^ (sector % 4))
      let s1 := { s with memPoison := setPoison s.memPoison (lineOff line) m m }
      let s2 := s1.post { cls := .poisoned, meter := 0, unit := ch, addr := line * 128, slice := s.sliceOf line, detail := m.toNat * 16 + m.toNat }
      let s3 := s2.lineEvent line 2 { kind := .generalMedia, ty := .mediaEcc, trans := 1 }
      let s4 := if oneRow then s3.chargeRow line 256 else s3.charge 1 ch 128
      .next (s4.dieWide line)

/-- CXL_RECEIVER_ERROR (R502): on a lane, or a link-layer replay of the port. -/
def execCxlReceiverError (port : Nat) (lane : Option Nat) (s : State) : Res :=
  match lane with
  | some l => .next ((s.corrected 6 (16 * port + l)).charge 6 (16 * port + l) 4)
  | none => .next ((s.corrected 7 port).charge 7 port 1)

/-- CXL_LINK_RECOVERY (R507). -/
def execCxlLinkRecovery (port : Nat) (s : State) : Res := .next ((s.corrected 7 port).charge 7 port 16)

/-- LINK_DOWN (R151-R153, R502): `surprise` says that no link disable or PERST_N_n came first; a link disable resets the port. -/
def execLinkDown (port : Nat) (surprise : Bool) (pick : Nat) (s : State) : Res :=
  if (s.port port).link = 0 ∨ (s.port port).link = 3 then .next s
  else if surprise then .next ((s.linkLost port pick).charge 7 port 256)
  else .next (s.portReset port pick)

/-- IDE_INTEGRITY_FAILURE (R150): the link goes down. -/
def execIdeIntegrityFailure (port pick : Nat) (s : State) : Res :=
  if (s.port port).link = 0 ∨ (s.port port).link = 3 then .next s
  else .next ((s.linkLost port pick).charge 7 port 256)

/-! ### Temperature (R78-R80) -/

/-- R78: the highest reading of a stack; a sensor that has failed counts as 125 degrees (R607). -/
def stackTemp (readings : List (Option Nat)) : Nat := readings.foldl (fun a r => max a (r.getD 125)) 0

/-- THERMAL_SAMPLE (R78-R80, R147): the sensors of a stack's twelve DRAM dies and of its eight slices. -/
def execThermalSample (die : Nat) (readings : List (Option Nat)) (s : State) : Res :=
  if (s.die die).st ≠ .active then .next s
  else
    let t := stackTemp readings
    let x := s.die die
    let hot := decide (95 ≤ t) || (x.hot && decide (92 ≤ t))
    let thr := decide (105 ≤ t) || (x.throttle && decide (102 ≤ t))
    let s1 := s.modDie die fun x => { x with temp := t, hot := hot, throttle := thr }
    let s2 := if (hot && !x.hot) || (thr && !x.throttle) then s1.eventAll 1 { kind := .memoryModule, ty := .temperatureChange } else s1
    if 115 ≤ t then .next (s2.dieRetire die false true) else .next s2

/-! ### Retirements go on -/

/-- WAITING_RETIREMENT_START (R504): the waiting retirement of the lowest instance starts when none of its class runs on its die. -/
def execWaitingRetirementStart (cls inst : Nat) (s : State) : Res :=
  let waits := s.flt.retiring.filter fun r => decide (r.cls = cls) && decide (meterDie cls r.inst = meterDie cls inst) && decide (r.step = 0)
  if (waits.any fun r => decide (r.inst = inst)) ∧ (waits.all fun r => decide (inst ≤ r.inst)) ∧ !s.retireBusy cls (meterDie cls inst) then
    .next ((s.retireTo cls inst 1).startRetire (State.chargeF 8) cls inst)
  else .next s

/-- ROW_PPR_DONE (R509): a row's repair ends, or its frame is free of pages and leaves the data frames. The copy of the repair waits for
a free rescue bay (R513). -/
def execRowPprDone (channel slot : Nat) (s : State) : Res :=
  let i := 16 * channel + slot
  match s.retireAt 0 i with
  | 1 =>
    if s.noStaging then .next s else
    let k := s.sparesKey i
    let s1 := { s with flt := { s.flt with pprUsed := s.flt.pprUsed.setD k 0 (s.flt.pprUsed.getD k 0 + 1) } }
    .next (((s1.endRetire 0 i).eventAll 0 { kind := .dram, ty := .maintenanceCleared }).charge 1 channel 64)
  | 2 =>
    match s.inv.frameAt channel (s.row i).r with
    | some f =>
      if (s.slu.frames.find f).isNone then
        .next ({ s with flt := { s.flt with frameRetired := s.flt.frameRetired ++ [f] } }.endRetire 0 i)
      else .next s
    | none => .next (s.endRetire 0 i)
  | _ => .next s

/-- R519: a directory set is lost: entries that the directory cache holds are known; an empty set is simply rebuilt. -/
def State.loseSet (s : State) (key : Nat) (known : List Nat) : State :=
  let mine := s.dir.filter fun e => decide (s.dirSet e.1 = key)
  if mine.isEmpty then s
  else
    let s1 := { s with dir := s.dir.keep fun l _ => decide (s.dirSet l ≠ key) || known.contains l }
    s1.modSlice (key / 2 ^ 20) fun x =>
      let ls := if x.lostSets.contains (key % 2 ^ 20) then x.lostSets else x.lostSets ++ [key % 2 ^ 20]
      { x with lostSets := ls, dirLostSets := BitVec.ofNat 32 ls.length, lostKnown := x.lostKnown ++ ((mine.map (·.1)).filter known.contains) }

/-- R185, R217: where a metadata frame lies now (R510). -/
def State.metaFrame (s : State) (f : Nat) : Nat := s.flt.metaMap.getD f f

/-- The metadata frame that holds a directory set. -/
def State.setFrameOf (s : State) (key : Nat) : Nat :=
  s.metaFrame (s.inv.metaBase + 4096 * s.inv.virtSlice (key / 2 ^ 20) + key % 2 ^ 20 / 256)

/-- The metadata frames that lie on a channel now, by the frames they stand for (R185, R510). -/
def State.metaOn (s : State) (c : Nat) : List Nat :=
  let lo := s.inv.metaBase / s.inv.u
  let home := ((List.range (framesPerChannel - lo)).map fun i => s.inv.rowFrame c (lo + i)).filter fun f =>
    decide (s.inv.metaBase ≤ f) && (s.flt.metaMap.find f).isNone
  home ++ (s.flt.metaMap.filter fun e => decide (s.inv.chanOf e.2 = c)).map (·.1)

/-- CHANNEL_METADATA_COPY_DONE (R510 step 3): metadata frames of the channel move, then its pages are to move. `lost` are the
directory sets that could not be read, `known` the cached entries. The copies wait for a free rescue bay (R513). -/
def execChannelMetadataCopyDone (channel : Nat) (lost known : List Nat) (s : State) : Res :=
  if s.retireAt 1 channel ≠ 1 ∨ s.noStaging then .next s
  else
    let s1 := (s.metaOn channel).foldl (fun s f =>
      match s.chooseFrames 1 0 true with
      | some g => { s with flt := { s.flt with metaMap := s.flt.metaMap.put f g } }
      | none => s) s
    let s2 := lost.foldl (fun s k => s.loseSet k known) s1
    let held := (s2.slu.frames.filter fun e => decide (s2.inv.chanOf e.1 = channel)).map (·.1)
    .next ((held.foldl (fun s f => s.moveOff .retire f) s2).retireTo 1 channel 2)

/-- R510 step 4: frames of the DRAM pools on a channel are copied and remapped (R243), once a rescue bay is free (R513). -/
def State.movePools (s : State) (channel : Nat) : State :=
  if s.noStaging then s else
  ((List.range 16).flatMap fun p => if (s.hpool p).kind = 2 then (List.range (s.hpool p).size).map fun k => (p, k) else []).foldl (fun s y =>
    let f := s.poolFrame y.1 y.2
    if s.inv.chanOf f ≠ channel then s
    else match s.chooseFrames 1 0 true with
      | none => s
      | some g =>
        let s1 := (s.takeBackFrames f 1 ownShare).copyFrames f g 1
        { s1 with hop := { s1.hop with frameMap := s1.hop.frameMap.put (y.1 * 2 ^ 32 + y.2) g } }) s

/-- R187, R514: both slices of a pair are retired once their eight channels are. -/
def State.pairDone (s : State) (n : Nat) : State :=
  [n, buddy n].foldl (fun s m =>
    if s.retireAt 4 m = 3 ∧ (s.pairChannels m).isEmpty then
      let s1 := ((s.stopTasks m true).modSlice m fun x => { x with retired := true }).endRetire 4 m
      { s1 with power := { s1.power with slices := s1.power.slices.setD m 0 2 } }
    else s) s

/-- R510 steps 4 and 5, R522. -/
def State.pageMovesDone (s : State) (channel : Nat) : State :=
  if s.retireAt 1 channel ≠ 2 ∨ (s.slu.frames.any fun e => decide (s.inv.chanOf e.1 = channel)) then s
  else
    let s1 := s.movePools channel
    let left := ((List.range 16).any fun p => decide ((s1.hpool p).kind = 2) && (List.range (s1.hpool p).size).any fun k => decide (s1.inv.chanOf (s1.poolFrame p k) = channel))
      || !(s1.metaOn channel).isEmpty
    if left then s1
    else
      let spare := s1.flt.spareLeft
      let s2 := { s1 with flt := { s1.flt with chDraining := s1.flt.chDraining.filter fun c => decide (c ≠ channel)
                                               chRetired := s1.flt.chRetired ++ [channel], spareLeft := spare - 1 } }
      let s3 := (s2.endRetire 1 channel).eventAll 1 { kind := .dram, ty := .channelRetired }
      let s4 := if spare = 0 then s3.shrunk 2 else s3
      (s4.charge 2 (channel / 32) 1024).pairDone (channel / 4)

/-- CHANNEL_PAGE_MOVES_DONE (R510). -/
def execChannelPageMovesDone (channel pick : Nat) (s : State) : Res := .next (s.orWait pick fun s => s.pageMovesDone channel)

/-- BAY_COPY_DONE (R512, R513): a pinned bay is replaced, or poisoned for want of a rescue bay. -/
def execBayCopyDone (bay : Nat) (s : State) : Res :=
  if s.retireAt 3 bay = 1 then
    .next ((((s.replaceBay bay).bayGone bay).endRetire 3 bay).charge 4 (bay / 18) 256)
  else .next s

/-- SLICE_DRAIN_DONE (R514 steps 2 and 3): no transaction is left, the caches are written back, pinned bays are replaced. `lost` are
directory sets of the slice with a dirty cached entry that could not be read, `known` the cached entries that could (R519). -/
def execSliceDrainDone (slice : Nat) (s : State) (lost : List Nat := []) (known : List Nat := []) : Res :=
  if s.retireAt 4 slice = 1 ∧ (s.slice slice).miss.isEmpty then
    let s1 := ((s.slice slice).frames.map (·.1)).foldl (fun s k => s.evict slice k) s
    let bs := (List.range 18).map fun b => 18 * slice + b
    let s2 := bs.foldl (fun s b => (s.demoteBay b).replaceBay b) s1
    .next (((lost.filter fun k => decide (k / 2 ^ 20 = slice)).foldl (fun s k => s.loseSet k known) s2).retireTo 4 slice 2)
  else .next s

/-- SLICE_RETIRED (R187, R514 step 4): the buddy serves what waited. -/
def execSliceRetired (slice pick : Nat) (s : State) : Res :=
  if s.retireAt 4 slice = 2 ∧ (s.slice slice).miss.isEmpty then
    let rs := (s.slice slice).inq
    let s1 := (s.modSlice slice fun x => { x with retired := true, inq := [] }).endRetire 4 slice
    let s2 := { s1 with power := { s1.power with slices := s1.power.slices.setD slice 0 2 } }
    .next (rs.foldl (fun s r => s.arrive (s.sliceOf r.line) pick r) s2)
  else .next s

/-- DIE_PROXY_WRITEBACK_DONE (R515 step 3): dirty RE lines of the die's proxies go to their homes; their registers wait for WB_ACK since
the die left service (R224). -/
def execDieProxyWritebackDone (die : Nat) (s : State) : Res :=
  if s.retireAt 2 die = 3 then
    let ns := (List.range 8).map fun i => 8 * die + i
    .next ((ns.foldl (fun s n =>
      ((s.slice n).frames.foldl (fun s e => s.sendWb (wbMsg e.2)) s).modSlice n fun x => { x with frames := [] }) s).retireTo 2 die 6)
  else .next s

/-- DIE_METADATA_RESTORE_DONE (R515 step 6, R518, R519): second copies are made anew; directory sets that lay on the die are
lost, but for the entries that directory caches hold. The copies wait for a free rescue bay of a die in service (R513). -/
def execDieMetadataRestoreDone (die : Nat) (known : List Nat) (s : State) : Res :=
  if s.retireAt 2 die = 6 ∧ (!s.noStaging ∨ s.activeDies.isEmpty) then
    let keys := ((s.dir.map fun e => s.dirSet e.1).eraseDups).filter fun k =>
      decide ((s.die (k / 2 ^ 20 / 8)).st ≠ .retired) && decide (s.inv.chanOf (s.setFrameOf k) / 32 = die)
    let s1 := keys.foldl (fun s k => s.loseSet k known) s
    .next ({ s1 with flt := { s1.flt with singleCopy := decide (s1.activeDies.length ≤ 1) } }.endRetire 2 die)
  else .next s

/-- The lines of this device that map to a directory set (R186, R217). -/
def State.setLines (s : State) (key : Nat) : List Nat :=
  (List.range 4).flatMap fun j =>
    let c := key / 2 ^ 20 * 4 + j
    (List.range 9).filterMap fun h =>
      let l := ((key % 2 ^ 20) ^^^ (j * 2 ^ 18)) + h * 2 ^ 20
      match s.inv.frameAt c (l / 512) with | some f => some (f * 512 + l % 512) | none => none

/-- R519: a directory set is written, rebuilt, to a relocated frame, where its own lies out of service. -/
def State.relocate (s : State) (key : Nat) : State :=
  if s.chOpen (s.inv.chanOf (s.setFrameOf key)) then s
  else match s.chooseFrames 1 0 true with
    | some g => { s with flt := { s.flt with metaMap := s.flt.metaMap.put (s.inv.metaBase + 4096 * s.inv.virtSlice (key / 2 ^ 20) + key % 2 ^ 20 / 256) g } }
    | none => s

/-- LOST_SET_SWEEP (R519): the background sweep recalls the lines of a LOST set that are not yet recalled; when none is left,
the set is whole again. -/
def execLostSetSweep (slice set : Nat) (s : State) : Res :=
  if (s.slice slice).lostSets.contains set then
    let key := slice * 2 ^ 20 + set
    let ls := s.setLines key
    let s1 := ls.foldl (fun s l =>
      if (s.slice slice).lostKnown.contains l || ((s.slice (s.liveSlice slice)).missOf (s.ownLine l)).isSome then s else (s.recall (s.liveSlice slice) l ownShare).getD s) s
    if ls.all fun l => (s1.slice slice).lostKnown.contains l then
      .next ((s1.modSlice slice fun x =>
        let rest := x.lostSets.filter fun y => decide (y ≠ set)
        { x with lostSets := rest, dirLostSets := BitVec.ofNat 32 rest.length, lostKnown := x.lostKnown.filter fun l => !ls.contains l }).relocate key)
    else .next s1
  else .next s

/-- LOG_COALESCE_TIMER (R528): the second of a class, code and unit ends. -/
def execLogCoalesceTimer (cls : RecClass) (code unit : Nat) (s : State) : Res :=
  let same (c : Coalesce) : Bool := decide (c.cls = cls) && decide (c.code = code) && decide (c.unit = unit)
  match s.flt.coalesce.find? same with
  | none => .next s
  | some c =>
    let s1 := { s with flt := { s.flt with coalesce := s.flt.coalesce.filter fun c => !same c } }
    if c.withheld = 0 then .next s1 else .next (s1.post { cls := cls, code := code, unit := unit, count := c.withheld })

/-- R79, R116: the refresh interval of a channel in ps: the loop's choice (3900 ns until its first decision), at most REFRESH_CAP, and then
half of that on a hot stack. -/
def State.refreshInterval (s : State) (channel : Nat) : Nat :=
  let c := min (s.power.interval.getD channel 3900) s.pol.refreshCap
  if (s.die (channel / 32)).hot then c * 500 else c * 1000

/-- REFRESH_LOOP_DECISION (R293): the loop's choice for a channel, from 975 to 3900 ns. -/
def execRefreshLoopDecision (channel choice : Nat) (s : State) : Res :=
  let c := max 975 (min 3900 choice)
  let cap := s.pol.refreshCap
  let s1 := { s with power := { s.power with interval := s.power.interval.setD channel 3900 c } }
  if cap < c then .next { s1 with slu := { s1.slu with loopTug := countAt s1.slu.loopTug 0 } } else .next s1

end Sys2Proof.Machine
end

