-- ==== Sys2Proof/Machine/HylLink.lean ====
section
/-! DEFINITION. What happens on a HyhanLink port (R419-R441): training, flits, replay, recovery, width changes and low power.
How many lanes detect or train, and what a partner sends, are operands. -/
namespace Sys2Proof.Machine

/-! ### Training (R428-R430) -/

/-- HYL_DETECT_POLL (R428): receivers found, by lane. -/
def execHylDetectPoll (port lanes : Nat) (s : State) : Res :=
  if (s.hylPort port).st = .detect ∧ 2 ≤ popCount 8 lanes then
    .next (s.modHyl port fun x => { x with
      st := .train, trained := 0, seen := [], sentSeen := [], peerNext := none, peerUsable := 0, peerPort := none
      reversed := false, inverted := 0, precodeRx := 0, precodeTx := 0, taps := [], eqReq := [], eqSts := [] })
  else .next s

/-- R429: eight blocks with SEEN have come on a lane, and eight have gone out. -/
def HylPort.laneSeen (x : HylPort) (l : Nat) : Bool := decide (8 ≤ x.seen.getD l 0) && decide (8 ≤ x.sentSeen.getD l 0)

/-- R429: so they have on every lane of a set. -/
def HylPort.blocksSeen (x : HylPort) (set : Nat) : Bool := (bitsOf 8 set).all x.laneSeen

/-- HYL_TRAIN_DONE (R428, R429, R433): the lanes that have trained and exchanged their blocks go on; `expired` says that the 10 ms are over, and
`precode` for which lanes this end asks for precoding. In attempt 3 of a recovery the lanes that have not trained are left out and charged. -/
def execHylTrainDone (port lanes : Nat) (expired : Bool) (precode : Nat) (s : State) : Res :=
  let s0 := s.linkSync
  let x := s0.hylPort port
  let ok := lanes % 256 &&& (255 ^^^ (x.retired &&& 255))
  if x.st = .train then
    let up := packBits 8 fun l => bit ok l && x.laneSeen l
    if 2 ≤ popCount 8 up then
      .next (s0.modHyl port fun x => { x with st := .config, trained := up, precodeRx := precode % 256, seen := [], sentSeen := [] })
    else if expired then .next (s0.modHyl port fun x => { x with st := .detect, trained := up })
    else .next s0
  else if x.st = .recovery ∧ x.attempt = 3 ∧ !bit s0.pol.hylEqHold port then
    let bad := bitsOf 8 (x.active &&& (255 ^^^ (ok &&& 255)))
    .next (bad.foldl (fun s l => s.charge 8 (8 * port + l) 1) (s0.modHyl port fun x => { x with trained := x.trained &&& ok }))
  else .next s0

/-- R435: this end leads a conflict. -/
def State.leads (s : State) (port : Nat) (dev : Option Nat) (serial pport : Nat) : Bool :=
  let me := s.fuses.serial
  match dev, decide (s.pool.st = .member) with
  | some d, true => if s.pool.devnum ≠ d then decide (s.pool.devnum < d) else if me ≠ serial then decide (me < serial) else decide (port ≤ pport)
  | _, _ => if me ≠ serial then decide (me < serial) else decide (port ≤ pport)

/-- R425, R431, R433: RECOVERY begins or goes on to its next attempt; after the third the port goes down. -/
def State.attempt (s : State) (p n : Nat) : State :=
  if 3 < n then s.hylDrop p .down
  else
    -- attempt 3 equalises anew, unless that is held (R433, R441)
    let s1 := s.modHyl p fun x => { x with
      st := .recovery, attempt := n, own := true, recovery := x.recovery + 1, want := none, pmWait := false
      taps := if n = 3 ∧ ¬ bit s.pol.hylEqHold p then [] else x.taps
      seen := [], sentSeen := [], peerNext := none, recFrom := if x.st = .recovery then x.recFrom else s.now }
    s1.charge 9 p 256

/-- R433: a recovery that begins within 1 ms of the last one's end goes on with its count. -/
def State.recover (s : State) (p : Nat) : State :=
  let s0 := s.linkSync
  let x := s0.hylPort p
  match x.recEnd with
  | some t => s0.attempt p (if s0.now < t + 10 ^ 6 then x.lastAttempt + 1 else 1)
  | none => s0.attempt p 1

/-- R432, R433: the blocks of a recovery are complete. -/
def State.recoveryBlocks (s : State) (p : Nat) : State :=
  let x := s.hylPort p
  match chooseSet x.active (x.trained &&& x.peerUsable &&& (255 ^^^ (x.retired &&& 255))), x.peerNext with
  | some set, some n =>
    if x.blocksSeen set then
      let s1 := s.modHyl p fun x => { x with active := set }
      if x.inRange n then s1.resume p n else s1.reconfigure p
    else s
  | _, _ => s

/-- R411, R429, R441: the partner asks for a step of a transmitter's tap on a lane; the answer goes with the lane's next block. -/
def HylPort.tapStep (x : HylPort) (hold : Bool) (lane req : Nat) : HylPort :=
  let tap := req % 8
  let dir := req / 8 % 4
  let pos := x.taps.getD (lane * 8 + tap) 0
  if tap = 0 ∨ 4 < tap ∨ (dir ≠ 1 ∧ dir ≠ 2) then { x with eqSts := x.eqSts.setD lane 0 0 }
  else if hold then { x with eqSts := x.eqSts.setD lane 0 2 }
  else if Config.tapAtLimit tap (decide (dir = 1)) pos then { x with eqSts := x.eqSts.setD lane 0 1 }
  else { x with eqSts := x.eqSts.setD lane 0 0, taps := x.taps.setD (lane * 8 + tap) 0 (if dir = 1 then pos + 1 else pos - 1) }

/-- What a valid block on a lane tells (Table 16-10): the partner, its lanes, the lane's reversal, polarity and precoding, and its equalisation. -/
def HylPort.heard (x : HylPort) (hold : Bool) (lane : Nat) (b : TrainBlock) : HylPort :=
  let flag (m l : Nat) (on : Bool) : Nat := if on then m ||| 2 ^ l else m &&& (255 ^^^ 2 ^ l)
  { x.tapStep hold lane b.eqReq with
    peerPort := some b.port, peerSerial := b.serial, peerDev := b.devnum, peerUsable := b.usable, peerActive := b.active, peerHeld := b.eqHeld
    peerNext := if b.retrain then some b.nextRx else x.peerNext
    reversed := decide (b.lane ≠ lane), inverted := flag x.inverted b.lane b.inverted, precodeTx := flag x.precodeTx lane b.precode
    seen := x.seen.setD b.lane 0 (if b.seen then x.seen.getD b.lane 0 + 1 else 0) }

/-- R429: the block that this end sends on a lane; `seen` says that the lane has brought a valid one. -/
def State.blockOut (s : State) (port lane : Nat) (seen : Bool) : TrainBlock :=
  let x := s.hylPort port
  let re := decide (x.st = .recovery) || decide (x.st = .widthChange)
  { retrain := re, lane := lane, port := port, attempt := if x.st = .recovery then x.attempt else if re then 1 else 0, serial := s.fuses.serial % 2 ^ 64,
    devnum := if s.pool.st = .member then some s.pool.devnum else none, usable := x.trained &&& (255 ^^^ (x.retired &&& 255)), active := x.active,
    seen := seen, precode := bit x.precodeRx lane, eqHeld := bit s.pol.hylEqHold port, nextRx := x.nextRx, eqReq := x.eqReq.getD lane 0, eqSts := x.eqSts.getD lane 0 }

/-- R429: while a port trains, every lane carries blocks both ways: with each that comes one goes out, which counts under the
partner's number of the lane (notes/assumptions/55.md). -/
def State.sendBlock (s : State) (port lane num : Nat) (seen : Bool) : State :=
  if [HylSt.train, .config, .recovery, .widthChange].contains (s.hylPort port).st then
    s.modHyl port fun x => { x with
      lanesOut := x.lanesOut ++ [[(lane, (s.blockOut port lane seen).bytes)]], eqReq := x.eqReq.del lane
      sentSeen := if seen then x.sentSeen.setD num 0 (x.sentSeen.getD num 0 + 1) else x.sentSeen }
  else s

/-- TRAINING_BLOCK_RECEIVE (R429, R430, R432, R435): 256 bytes arrive on a lane; what fails a check is ignored. -/
def execTrainingBlockReceive (port lane : Nat) (bytes : List Byte) (s : State) : Res :=
  match readBlock bytes with
  | none => .next (s.linkSync.sendBlock port lane lane false)
  | some b =>
    let s0 := s.linkSync.sendBlock port lane b.lane true
    let x := s0.hylPort port
    let note (s : State) : State := s.modHyl port fun x => x.heard (bit s.pol.hylEqHold port) lane b
    match x.st with
    | .train => .next (note s0)
    | .config => .next (note s0)
    | .l0 =>
      if b.retrain && x.own then
        if s0.leads port b.devnum b.serial b.port then .next s0
        else .next ((note ((s0.attempt port b.attempt).modHyl port fun x => { x with own := false, tieYield := x.tieYield + 1 })))
      else if b.retrain then .next (s0.modHyl port fun x => { x with pmWait := false })
      else .next s0
    | .recovery =>
      if !b.retrain then .next (note (s0.reconfigure port))
      else
        let s1 := if !x.own then s0
          else if s0.leads port b.devnum b.serial b.port then s0.modHyl port fun x => { x with own := false }
          else s0.modHyl port fun x => { x with own := false, tieYield := x.tieYield + 1, attempt := b.attempt }
        .next ((note s1).recoveryBlocks port)
    | .widthChange =>
      if !b.retrain then .next (note (s0.reconfigure port))
      else .next (note (s0.modHyl port fun x => { x with retired := x.retired ||| (x.trained &&& (255 ^^^ (b.usable &&& 255))) }))
    | _ => .next s0

/-- R410, R72: the IOD_HYL domain is off when the image enables no HyhanLink port. -/
def State.iodHylOn (s : State) : Bool := (List.range s.hylPorts).any fun p => decide ((s.hylPort p).st ≠ .disabled)

/-- HYL_CONFIG_DONE (R430): the active set is agreed, or there is none. -/
def execHylConfigDone (port : Nat) (s : State) : Res :=
  let s0 := s.linkSync
  let x := s0.hylPort port
  if x.st ≠ .config then .next s0
  else match chooseSet 255 (x.trained &&& x.peerUsable &&& (255 ^^^ (x.retired &&& 255))) with
    | none => .next (s0.modHyl port fun x => { x with st := .detect })
    | some set => if x.blocksSeen set then .next ((s0.freshLink port set).pump port) else .next s0

/-! ### Recovery -/

/-- LANE_LOCK_LOSS (R431). -/
def execLaneLockLoss (port lane : Nat) (s : State) : Res :=
  if (s.hylPort port).st = .l0 ∧ bit (s.hylPort port).active lane then .next (s.recover port) else .next s

/-- NO_FLIT_TIMEOUT (R431). -/
def execNoFlitTimeout (port : Nat) (s : State) : Res := if (s.hylPort port).st = .l0 then .next (s.recover port) else .next s

/-- RECOVERY_ATTEMPT_TIMEOUT (R433). -/
def execRecoveryAttemptTimeout (port : Nat) (s : State) : Res :=
  if (s.hylPort port).st = .recovery then .next (s.linkSync.attempt port ((s.hylPort port).attempt + 1)) else .next s

/-- RELOCK_FAIL (R428). -/
def execRelockFail (port : Nat) (s : State) : Res :=
  if [HylSt.widthChange, .l1, .l1d].contains (s.hylPort port).st then .next (s.linkSync.attempt port 1) else .next s

/-- HYL_DOWN_TIMER (R428, R437). -/
def execHylDownTimer (port : Nat) (s : State) : Res :=
  if (s.hylPort port).st = .down then .next (s.modHyl port fun x => { x with st := .detect, trained := 0 }) else .next s

/-! ### Flits -/

/-- R425: held flits are replayed; the oldest of them at most eight times. -/
def State.replayNow (s : State) (p : Nat) : State :=
  match (s.hylPort p).held with
  | [] => s
  | f :: t =>
    if 8 ≤ f.replays then s.recover p
    else (s.modHyl p fun x => { x with held := { f with replays := f.replays + 1 } :: t, replay := x.replay + 1 }).resend p

/-- REPLAY_TIMEOUT (R425): the ACK has not advanced for 2 us. -/
def execReplayTimeout (port : Nat) (s : State) : Res :=
  if (s.hylPort port).st = .l0 then .next (s.linkSync.replayNow port) else .next s

/-- R422: an ACK covers every held flit up to it; one that names none covers none. -/
def HylPort.acked (x : HylPort) (a : Nat) : List HeldFlit :=
  match x.held.findIdx? fun f => decide (f.seq = a) with
  | some i => x.held.drop (i + 1)
  | none => x.held

/-- R425: a flit is discarded: NAK unless one has been sent since the last acceptance. -/
def State.discard (s : State) (p : Nat) : State :=
  if (s.hylPort p).nakSent then s else (s.modHyl p fun x => { x with nakSent := true }).idleFlit p true

/-- R420, R457: a message that has arrived goes to the central Race, here or onward; its credit is owed. -/
def State.deliver (s : State) (p : Nat) (m : LinkMsg) : State :=
  let s1 := s.modHyl p fun x => { x with owed := x.owed.setD m.cls 0 (x.owed.getD m.cls 0 + 1) }
  if m.dst = s.pool.devnum ∨ (m.cls = 4 ∧ m.src = m.dst) then s1 else s1.send (.forward m)

/-- R424: a PAYLOAD flit that passed, by its sequence number. -/
def State.payload (s : State) (p : Nat) (f : LinkFlit) : State :=
  let d := (f.seq + 4096 - (s.hylPort p).nextRx) % 4096
  if d = 0 then
    let r := f.deliveries (s.hylPort p).part
    let s1 := s.modHyl p fun x => { x with nextRx := (x.nextRx + 1) % 4096, nakSent := false, part := r.part }
    let s2 := if r.bad then (s1.modHyl p fun x => { x with badFlit := x.badFlit + 1 }).post { cls := .protocol, unit := p }
      else r.msgs.foldl (fun s m => s.deliver p m) s1
    s2.idleFlit p false
  else if d < 1024 then s.discard p
  else if d < 3072 then s.recover p
  else s.idleFlit p false

/-- R426: bytes that FEC corrected are counted at their lanes and charged to them. -/
def State.fecFixed (s : State) (p : Nat) (lanes : List Nat) : State :=
  lanes.foldl (fun s l => (s.modHyl p fun x => { x with fecSym := countAt x.fecSym l }).charge 8 (8 * p + l) 1) s

/-- R415: what every flit that passed brings: its ACK and its credits. -/
def State.flitAck (s : State) (p : Nat) (f : LinkFlit) : State :=
  s.modHyl p fun x =>
    { x with held := x.acked f.ack,
             credits := f.credit.foldl (fun t c => if c.1 < 5 then t.setD c.1 0 (min (fullCredits.getD c.1 0) (t.getD c.1 0 + c.2)) else t) x.credits }

/-- A flit in L0 (R415-R426, R438). KIND 3 and FIRST 14 are as a failed CRC (R419). -/
def State.flitTaken (s : State) (port : Nat) (f : LinkFlit) : State :=
  let s1 := s.fecFixed port f.fixed
  if (s1.hylPort port).st ≠ .l0 then s1
  else if !f.pass ∨ f.kind = 3 ∨ f.first = 14 then
    let s2 := (s1.modHyl port fun x => { x with crcErr := x.crcErr + 1 }).charge 9 port 16
    if (s2.hylPort port).st = .l0 then s2.discard port else s2
  else
    let s2 := s1.flitAck port f
    let s3 := if f.nak then s2.replayNow port else s2
    if (s3.hylPort port).st ≠ .l0 then s3
    else
      let s4 := s3.pump port
      match f.kind with
      | 0 => s4
      | 2 => if f.op = 0 ∨ 5 < f.op then s4.modHyl port fun x => { x with badFlit := x.badFlit + 1 } else s4
      | _ => s4.payload port f

/-- FLIT_RECEIVE (R412-R426, R438): the bytes on the lanes. What a message or a command for this device does is its own row. -/
def execFlitReceive (port : Nat) (wire : FlitWire) (s : State) : Res :=
  let s0 := s.linkSync
  let x := s0.hylPort port
  if x.st ≠ .l0 then .next s0
  else .next ((s0.modHyl port fun x => { x with rxScr := scrFlit x.active x.rxScr }).flitTaken port (readFlit x.active x.rxScr (fixPolarity x.inverted wire)))

/-! ### Width changes (R434, R435) -/

/-- WIDTH_CHANGE is entered on the lanes of a set. -/
def State.enterWidth (s : State) (p set : Nat) : State :=
  s.modHyl p fun x => { x with st := .widthChange, active := set, want := none, own := false, pmWait := false, seen := [], sentSeen := [], peerNext := none, widthCnt := x.widthCnt + 1 }

/-- WREQ (R434, R435): the partner asks for a set. -/
def execWreq (port lanes : Nat) (devnum : Option Nat) (serial : Nat) (s : State) : Res :=
  let s0 := s.linkSync
  let x := s0.hylPort port
  let named := candidateSets.contains lanes && decide (lanes &&& x.active = lanes)
  let lead := s0.leads port devnum serial (x.peerPort.getD 8)
  if !named then .next s0
  else match x.st with
    | .l0 =>
      if x.own then
        if lead then .next s0
        else .next (((s0.putControl port 2 lanes).modHyl port fun x => { x with tieYield := x.tieYield + 1 }).enterWidth port lanes)
      else .next ((s0.putControl port 2 lanes).enterWidth port lanes)
    | .recovery =>
      if x.own && !lead then
        .next ((((s0.recoveryDone port).putControl port 2 lanes).modHyl port fun x => { x with tieYield := x.tieYield + 1 }).enterWidth port lanes)
      else .next s0
    | _ => .next s0

/-- WACK (R434). -/
def execWack (port lanes : Nat) (s : State) : Res :=
  if (s.hylPort port).st = .l0 ∧ (s.hylPort port).want = some lanes then .next (s.linkSync.enterWidth port lanes) else .next s

/-- WIDTH_CHANGE_DONE (R428, R434): the new lanes have locked and the blocks are exchanged. -/
def execWidthChangeDone (port : Nat) (s : State) : Res :=
  let s0 := s.linkSync
  let x := s0.hylPort port
  if x.st = .widthChange ∧ x.blocksSeen x.active then
    match x.peerNext with
    | some n => if x.inRange n then .next (s0.resume port n) else .next (s0.reconfigure port)
    | none => .next s0
  else .next s0

/-! ### Low power (R439, R440) -/

/-- R439: the port is idle in both directions. -/
def State.hylIdle (s : State) (p : Nat) : Bool :=
  let x := s.hylPort p
  decide (x.st = .l0) && x.held.isEmpty && x.tx.isEmpty && decide (x.credits = fullCredits) && x.owed.isEmpty && !x.own
    && !(s.pool.remote.any fun r => (s.nextHop r.dev).map (·.2) == some p)

def State.enterL1 (s : State) (p : Nat) : State := s.modHyl p fun x => { x with st := .l1, pmWait := false, l1Cnt := x.l1Cnt + 1 }

/-- HYL_IDLE_TIMER (R439): the port has been idle for 10 us. -/
def execHylIdleTimer (port : Nat) (s : State) : Res :=
  let s0 := s.linkSync
  if s0.hylIdle port then .next ((s0.modHyl port fun x => { x with pmWait := true }).putControl port 3 0) else .next s0

/-- PM_REQ (R439, R440). -/
def execPmReq (port : Nat) (s : State) : Res :=
  let s0 := s.linkSync
  if (s0.hylPort port).st ≠ .l0 then .next s0
  else if (s0.hylPort port).pmWait then .next (s0.enterL1 port)
  else if s0.hylIdle port then .next ((s0.putControl port 4 0).enterL1 port)
  else .next (s0.putControl port 5 0)

/-- PM_ACK (R439). -/
def execPmAck (port : Nat) (s : State) : Res :=
  if (s.hylPort port).st = .l0 ∧ (s.hylPort port).pmWait then .next (s.linkSync.enterL1 port) else .next s

/-- PM_NAK (R440). -/
def execPmNak (port : Nat) (s : State) : Res := .next (s.modHyl port fun x => { x with pmWait := false })

/-- L1_TO_L1D (R428). -/
def execL1ToL1d (port : Nat) (s : State) : Res :=
  if (s.hylPort port).st = .l1 then .next (s.modHyl port fun x => { x with st := .l1d }) else .next s

/-- HYL_WAKE (R428, R439): both ends have relocked. -/
def execHylWake (port : Nat) (s : State) : Res :=
  if [HylSt.l1, .l1d].contains (s.hylPort port).st then
    .next (((s.linkSync.modHyl port fun x => { x with st := .l0, txScr := scrSeeds, rxScr := scrSeeds }).pump port).hylWant port)
  else .next s

/-- EQUALISATION_DECISION (R293, R441): the margin of a lane asks for adaptation, or does not. A loop that is not held adapts the lane, at most once in 1 ms, and
asks for a tap of the partner's transmitter. -/
def execEqualisationDecision (port : Nat) (asks : Bool) (s : State) (lane : Nat := 0) (req : Nat := 0) : Res :=
  if !asks then .next s
  else if bit s.pol.hylEqHold port then .next { s with slu := { s.slu with loopTug := countAt s.slu.loopTug 1 } }
  else if ((s.hylPort port).eqAt.find lane).elim false fun t => decide (s.now < t + 10 ^ 6) then .next s
  else .next (s.modHyl port fun x => { x with eqReq := x.eqReq.setD lane 0 (req % 32), eqAt := x.eqAt.put lane s.now })

end Sys2Proof.Machine
end

