-- ==== Sys2Proof/Machine/Pool.lean ====
section
/-! DEFINITION. The pool (R445-R471): neighbours, coordinator and numbers, departures, isolation and time; remote operations that
fail (R460, R461), and requests from peers for pennants (R333-R336) and pages (R280-R285). -/
namespace Sys2Proof.Machine

def PoolSt.code : PoolSt → Nat
  | .standalone => 0 | .joining => 1 | .member => 2 | .isolated => 3

/-! ### Remote operations that end without an answer (R460, R461) -/

/-- A pennant operation ends with its device gone (R335, R460). The device's departure has ended a WAIT_PEN with ABANDONED. -/
def State.penFailed (s : State) (r : RemoteOp) : State :=
  if r.posted then s
  else
    match r.who.cmd with
    | none => s
    | some q =>
      match s.cmd? q with
      | none => s
      | some c =>
        if c.opcode = 3 ∧ c.st ≠ .queued then s.armEnd q .deviceGone 0
        else if c.wait = .abandoned then s else s.endEarly q .faulted .deviceGone

/-- A peer gives no frames: a first touch of 2 MiB tries 64 KiB (R273); an SL_PLACE that waits ends. -/
def State.takeFailed (s : State) (key : Nat) (st : Status) (pick : Nat) : State :=
  let v := key / 2 ^ 26
  let page := key % 2 ^ 26
  match s.moveOf v page with
  | none => s
  | some m =>
    if m.step ≠ 0 then s
    else
      let s1 := if st = .noSpace ∧ !m.fresh then s.dropMove v page else s.moveAbandon m
      match m.by_ with
      | .place q =>
        match s1.slu.places.find? fun p => decide (p.cmd = q) with
        | some p =>
          if st ≠ .noSpace ∨ !m.fresh then s1.placeEnd p st
          else match (if m.big then s1.freshTake p false else none) with
            | some s2 => s2
            | none => (s1.touchRefused .noSpace).placeEnd p .noSpace
        | none => s1
      | _ => s1

def State.slFailed (s : State) (r : RemoteOp) (pick : Nat) : State :=
  match r.who.cmd with
  | some q =>
    match s.cmd? q with
    | some c => if c.opcode = 0x2E then s.engineDone q .deviceGone else s.takeFailed r.tag .deviceGone pick
    | none => s.takeFailed r.tag .deviceGone pick
  | none => s.takeFailed r.tag .deviceGone pick

/-- A collective that fails: its tasks end, and BUF stays as it is (R473, R475). -/
def State.collEnd (s : State) (q : Nat) (term : Term) (st : Status) (addr : Nat := 0) : State :=
  let s1 := { s with
    colls := s.colls.filter fun c => decide (c.cmd ≠ q)
    pool := { s.pool with remWait := s.pool.remWait.filter fun r => decide (r.1.kind ≠ RemKind.coll) || decide (r.1.who.cmd ≠ some q) } }
  s1.modCmd q fun c => { c with
    uncreated := [], unitsSum := if st = .ok then c.unitsSum + c.uncreated.foldl (fun a u => a + u.2.length) 0 else c.unitsSum
    tasks := c.tasks.map fun t => if t.fin.isSome then t else
      { t with st := .running, done := if st = .ok then t.done + t.units.length else t.done, units := [], fin := some { term := term, status := if st = .ok ∧ t.poison then .poisoned else st, addr := addr } } }

/-- R461: an operation, off the list already, ends as for a timeout. -/
def State.opFailed (s : State) (r : RemoteOp) (x : Ext) : State :=
  match r.kind with
  | .mem => s.remoteFailed r x
  | .pen => s.penFailed r
  | .sl => s.slFailed r x.pick
  | .coll => match r.who.cmd with
    | some q => if s.colls.any fun c => decide (c.cmd = q) then s.collEnd q .faulted .deviceGone else s
    | none => s

def State.dropRemote (s : State) (r : RemoteOp) : State := { s with pool := { s.pool with remote := s.pool.remote.erase r } }

/-- REMOTE_OP_TIMEOUT (R460): the `i`-th outstanding operation has waited 50 ms. -/
def execRemoteOpTimeout (i : Nat) (x : Ext) (s : State) : Res :=
  match s.pool.remote[i]? with
  | none => .next s
  | some r =>
    let s1 := s.dropRemote r
    .next ({ s1 with pool := { s1.pool with timeoutCnt := s1.pool.timeoutCnt + 1 } }.opFailed r x)

/-- The pool devices of a collective's group, this one left out (R472). -/
def Coll.group (c : Coll) (own : Nat) : List Nat :=
  (List.range 128).filter fun d => decide (d ≠ own) && (List.range 7).all fun b => !bit (own ^^^ d) b || c.dims.contains b

/-! ### Departures (R335, R467-R469) -/

/-- R335: bindings to a departed owner are abandoned; a departed importer leaves its places and registrations. -/
def State.pennantsGone (s : State) (d : Nat) : State :=
  let through (c : Cmd) : Bool := match c.waitsOn.bind (s.bindingIn c.vd c.epoch) with | some (.imported t false) => decide (ticketDev t = d) | _ => false
  let inFlight (q : Nat) : Bool := (s.pool.remote ++ s.pool.remWait.map (·.1)).any fun r => decide (r.kind = .pen) && decide (r.who.cmd = some q)
  let f (q : Nat) (c : Cmd) : Cmd :=
    if !through c then c
    else if c.st = .queued then { c with wait := .abandoned }
    else if inFlight q then c
    else { c with wait := .met, engineFin := some { term := .cancelled, status := .abandoned } }
  let s1 := { s with dax := { s.dax with cmds := s.dax.cmds.mapVal f } }
  let s2 := { s1 with vds := s1.vds.mapVal fun _ x => x.mapBind fun b => match b with | .imported t false => if ticketDev t = d then .imported t true else b | _ => b }
  let s3 := s2.withdraw fun r => match r.who with | .peer e _ _ => decide (e = d) | .cmd _ => false
  { s3 with pen := { s3.pen with exports := s3.pen.exports.mapVal fun _ e => { e with imports := e.imports.filter fun i => decide (i.1 ≠ d) } } }

/-- R468: proxy copies of lines homed on a departed device are dropped and counted. -/
def State.dropProxies (s : State) (d : Nat) : State :=
  let gone (f : Frame) : Bool := decide (lineDev f.line = d) && (decide (f.st = .rs) || decide (f.st = .re))
  let n := s.slices.foldl (fun a e => a + (e.2.frames.filter fun f => gone f.2).length) 0
  { s with slices := s.slices.mapVal fun _ x => { x with frames := x.frames.keep fun _ f => !gone f, miss := x.miss.keep fun gl m => !(decide (lineDev gl = d) && decide (m.phase = .wb)) }
           pool := { s.pool with lostLineCnt := s.pool.lostLineCnt + BitVec.ofNat 32 n } }

/-- R452: this device may be coordinator. -/
def State.eligible (s : State) : Bool :=
  !s.pool.leaving && (match s.img.poolMap with | none => false | some m => decide (m.mode ≠ 1) || m.entries.any fun e => decide (e.1 = s.fuses.serial))

/-- R452: the lowest eligible serial that the device knows, flooded. -/
def State.elect (s : State) (l : Option Nat) : State :=
  let own := if s.eligible then some s.fuses.serial else none
  let low := match l, own with | some a, some b => some (min a b) | some a, none => some a | none, b => b
  let s1 := { s with pool := { s.pool with lowest := low, coord := s.pool.coord && low == own } }
  match low with | some a => s1.floodOut 2 [a] | none => s1

/-- R236: requests of a departed device for copies and data, which nothing waits for any more, leave the slices' queues. -/
def State.dropPeer (s : State) (d : Nat) : State :=
  let dead (r : Req) : Bool := r.fromDev d && [ReqOp.rdS, .rdX, .upg, .rdNc].contains r.op
  { s with slices := s.slices.mapVal fun _ x =>
      { x with inq := x.inq.filter fun r => !dead r, miss := x.miss.mapVal fun _ m => { m with waiters := m.waiters.filter fun r => !dead r } }
           pool := { s.pool with heldReqs := s.pool.heldReqs.filter fun h => decide (h.dev ≠ d) } }

/-- R468: the departure of a device reaches this one. -/
def State.depart (s : State) (d : Nat) (x : Ext) : State :=
  if s.pool.departed.contains d ∨ !s.isMember d then s
  else
    let serial := s.pool.serials.find d
    let s0 := s.linkSync
    let s1 := { s0 with pool := { s0.pool with departed := s0.pool.departed ++ [d], members := s0.pool.members &&& ~~~ oneHot d,
                                               serials := s0.pool.serials.del d, departCnt := s0.pool.departCnt + 1,
                                               usable := s0.pool.usable.filter fun u => decide (u.1 ≠ d) && decide (u.2 ≠ d) } }
    let s2 := ((s1.dropPeer d).dropProxies d).pennantsGone d
    let s3 := s2.abandonMoves fun r => decide (r.dev = d)
    let mine := s3.pool.remote.filter fun r => decide (r.dev = d)
    let late := s3.pool.remWait.filter fun r => decide (r.1.dev = d)
    let s4 := { s3 with pool := { s3.pool with remote := s3.pool.remote.filter fun r => decide (r.dev ≠ d), remWait := s3.pool.remWait.filter fun r => decide (r.1.dev ≠ d),
                                               depWait := s3.pool.depWait.filter fun r => decide (r.2.dev ≠ d)
                                               wbOut := s3.pool.wbOut.del d, wbHold := s3.pool.wbHold.filter fun m => decide (m.dev ≠ d) } }
    let s5 := (mine ++ late.map (·.1)).foldl (fun s r => s.opFailed r x) s4
    let s5 := (s5.slu.places.filter fun p => decide (p.dev = d)).foldl (fun s p => s.placeGo p x.pick) s5
    let s6 := (s5.colls.filter fun c => (c.group s5.pool.devnum).contains d).foldl (fun s c => s.collEnd c.cmd .faulted .deviceGone) s5
    if serial.isSome && serial == s6.pool.lowest then s6.elect none else s6

/-- R469: every other member counts as departed, and the device is a candidate again once a link returns. -/
def State.isolate (s : State) (x : Ext) : State :=
  let s1 := ((bitsOf 128 s.pool.members.toNat).filter fun d => decide (d ≠ s.pool.devnum)).foldl (fun s d => s.depart d x) s
  { s1 with pool := { s1.pool with st := .isolated, members := 0, serials := [], coord := false, aligned := false, lowest := none, candidates := [], usable := [] } }.panelAsk

/-! ### Joining (R453, R454, R466) -/

def reLine (a b gl : Nat) : Nat := if lineDev gl = a then gl % 2 ^ 34 + b * 2 ^ 34 else gl
def reFrame (a b g : Nat) : Nat := if gfDev g = a then gfLocal g + b * 2 ^ 25 else g

/-- The device's own addresses take its new number (R445; notes/assumptions/17.md). -/
def State.renumber (s : State) (b : Nat) : State :=
  let a := s.pool.devnum
  let q (r : Req) : Req := { r with line := reLine a b r.line }
  let mv (m : Move) : Move := { m with src := reFrame a b m.src, dst := reFrame a b m.dst }
  { s with
    pool := { s.pool with devnum := b }
    slices := s.slices.mapVal fun _ x => { x with
      frames := x.frames.mapVal fun _ f => { f with line := reLine a b f.line }
      miss := x.miss.foldl (fun t e => t.put (reLine a b e.1) { e.2 with req := e.2.req.map q, waiters := e.2.waiters.map q }) []
      inq := x.inq.map q
      busyAt := x.busyAt.foldl (fun t e => t.put (reLine a b e.1) e.2) [] }
    slu := { s.slu with pt := s.slu.pt.mapVal fun _ e => { e with gframe := reFrame a b e.gframe, owner := if e.owner = a then b else e.owner }, moves := s.slu.moves.map mv } }

/-- R535, R542: gauges on pool time see it change. -/
def State.cutGauges (s : State) (old new : Nat) : State := { s with gauges := s.gauges.mapVal fun _ g => if g.poolClock then g.cut old new else g }

/-- R466: a MEMBER flood names a device's number; `offset` is what makes this device's pool time its upstream neighbour's. At interface
level 1 no number above 15 exists (R43). -/
def State.joined (s : State) (serial d : Nat) (offset : Int) : State :=
  if s.pool.serials.find d = some serial ∨ !s.poolNumber d then s
  else
    let s1 := { s with pool := { s.pool with departed := s.pool.departed.filter fun e => decide (e ≠ d), swept := s.pool.swept.filter fun e => decide (e.1 ≠ d),
                                             reported := s.pool.reported.filter fun e => decide (e.2 ≠ d), serials := s.pool.serials.put d serial,
                                             members := s.pool.members ||| oneHot d, candidates := s.pool.candidates.del serial, joinCnt := s.pool.joinCnt + 1 } }
    if serial ≠ s.fuses.serial then s1
    else
      let old := s1.poolTime
      let s2 := s1.renumber d
      let s3 := { s2 with pool := { s2.pool with st := .member, offset := offset } }
      let s4 := s3.cutGauges old s3.poolTime
      ((s4.floodPorts).foldl (fun s p => s.noteLink p true) s4).panelAsk

/-! ### The coordinator (R452, R453, R470) -/

/-- R470: every member has reported its sweep for a departed number. -/
def State.readmits (s : State) (d : Nat) : Bool :=
  !s.pool.departed.contains d || (bitsOf 128 s.pool.members.toNat).all fun m => s.pool.reported.contains (m, d)

/-- R453: the number that a candidate receives now. -/
def State.numberFor (s : State) (m : PoolMap) (serial : Nat) (links : List (Nat × Option Nat)) : Option Nat :=
  let free (n : Nat) : Bool := !s.isMember n && s.readmits n && s.poolNumber n
  let near := links.filterMap fun l => match l.2 with | some n => if s.isMember n then some (n ^^^ 2 ^ l.1) else none | none => none
  match m.entries.find? fun e => decide (e.1 = serial) with
  | some e => if (near.all fun n => decide (n = e.2)) && free e.2 then some e.2 else none
  | none =>
    if m.mode ≠ 2 then none
    else
      match near with
      | n :: t => if (t.all fun k => decide (k = n)) && decide (n < m.maxDevices) && free n && !(m.entries.any fun e => decide (e.2 = n)) then some n else none
      | [] =>
        if serial = s.fuses.serial ∧ s.pool.members = 0 ∧ !(s.pool.candidates.any fun c => m.entries.any fun e => decide (e.1 = c.1)) then some 0 else none

/-- R453: one pass over the candidates in ascending serial order; the pass is repeated while a candidate is numbered. -/
def State.numberPass : Nat → State → State
  | 0, s => s
  | k + 1, s =>
    match s.img.poolMap with
    | none => s
    | some m =>
      match s.pool.candidates.findSome? fun c => (s.numberFor m c.1 c.2).map fun n => (c.1, n) with
      | none => s
      | some (serial, n) =>
        let s1 := s.joined serial n 0
        State.numberPass k ((s1.pool.serials).foldl (fun s e => s.floodOut 4 [e.2, e.1, 1]) s1)

/-- R453: this device's POOL links: port and the partner's number. -/
def State.poolLinks (s : State) : List (Nat × Option Nat) :=
  ((List.range 8).filter fun p => decide (s.kindOf p = 5)).map fun p => (p, (s.hylPort p).partner)

/-- A coordinator numbers whom it can, itself among them. -/
def State.coordinate (s : State) : State :=
  if !s.pool.coord then s
  else
    let s1 := if s.pool.st = .member then s else { s with pool := { s.pool with candidates := s.pool.candidates.put s.fuses.serial s.poolLinks } }
    State.numberPass (s1.pool.candidates.length + 1) s1

/-! ### HELLO (R450, R451) -/

/-- R451: the kind of a link by its partner's HELLO (Table 17-3). -/
def State.linkKindOf (s : State) (p : Nat) (h : Hello) : Nat :=
  match s.img.poolMap with
  | none => 1
  | some m =>
    let me := if s.pool.st = .member then some s.pool.devnum else none
    let d := s.img.dims
    let alike := decide (h.maxDevices = m.maxDevices) && decide (h.mode = m.mode)
    if alike && decide (h.poolId = m.poolId) && decide (h.mapDigest = s.img.mapDigest) then
      match me, h.devnum with
      | some a, some b =>
        if p < d then (if h.port = p ∧ b = a ^^^ 2 ^ p then 5 else 3)
        else if p = 7 then (if h.port = 7 ∧ (List.range d).any (fun e => decide (b = a ^^^ 2 ^ e)) then 4 else 3)
        else 0
      | _, _ => if p < d ∧ h.port = p then 5 else 0
    else if p = 7 ∧ h.port = 7 ∧ h.poolId ≠ m.poolId ∧ alike ∧ me.isSome ∧ me = h.devnum then 2
    else 1

/-- R450: a HELLO leaves a port: Table 17-2 by its fields. -/
def State.sendHello (s : State) (port : Nat) : State :=
  let m := s.img.poolMap.getD { mode := 0, maxDevices := 0, poolId := 0, entries := [] }
  s.send (.link port 1 [s.fuses.serial, s.boot.digest % 2 ^ 64, s.img.mapDigest, m.poolId, m.maxDevices, m.mode, port,
    if s.pool.st = .member then s.pool.devnum + 128 else 0, s.pool.lowest.getD 0,
    b2n (decide (s.inv.level = 2)) + 2 * b2n (!s.fuses.prevGen) + 4 * b2n (decide (s.pool.st = .member)) + 8 * b2n s.pool.leaving])

/-- HELLO (R451, R452): the link is evaluated anew, and a lower coordinator is adopted. -/
def execHello (port : Nat) (h : Hello) (s : State) : Res :=
  if (s.hylPort port).st ≠ .l0 then .next s
  else
    let s0 := s.linkSync
    let was := s0.kindOf port
    let first := (s0.hylPort port).hello.isNone
    let k := s0.linkKindOf port h
    let s1 := { s0.modHyl port fun x => { x with hello := some h } with pool := { s0.pool with linkKind := s0.pool.linkKind.setD port 0 k } }
    let s2 := if (k = 1 ∨ k = 3) ∧ !(s1.hylPort port).noted then
        (s1.modHyl port fun x => { x with noted := true }).post { cls := .protocol, unit := port, code := k } else s1
    let s3 := if first then s2.sendHello port else s2
    let ok := decide (k = 4) || decide (k = 5)
    let s4 : State := if ok then s3.noteLink port true else if was = 4 ∨ was = 5 then s3.noteLink port false else s3
    let s5 : State := if ok && decide (s4.pool.st = .isolated) then { s4 with pool := { s4.pool with st := .joining } } else s4
    let lower := match s5.pool.lowest with | some a => decide (h.coordSerial < a) | none => true
    if ok && (lower || !(decide (was = 4) || decide (was = 5))) then
      .next (s5.elect (if h.coordSerial = 0 then s5.pool.lowest else match s5.pool.lowest with | some a => some (min a h.coordSerial) | none => some h.coordSerial))
    else .next s5

/-- HELLO_TIMER (R450). -/
def execHelloTimer (port : Nat) (s : State) : Res :=
  if (s.hylPort port).st = .l0 then .next (s.sendHello port).linkSync else .next s

/-! ### Floods -/

/-- ELECT (R452). -/
def execElect (f : Flood) (serial : Nat) (s : State) : Res :=
  match s.linkSync.floodIn 2 f [serial] with
  | none => .next s
  | some s1 =>
    match s1.pool.lowest with
    | some a => if serial < a then .next (s1.elect (some serial)) else .next s1
    | none => .next (s1.elect (some serial))

/-- ELECT_TIMEOUT (R452): this device's serial has stood unchallenged for 5 ms. -/
def execElectTimeout (s : State) : Res :=
  if s.eligible && s.img.pooled && (match s.pool.lowest with | some a => decide (s.fuses.serial ≤ a) | none => true) && !s.pool.coord then
    .next ({ s with pool := { s.pool with coord := true, lowest := some s.fuses.serial } }.coordinate)
  else .next s

/-- JOIN_REQ (R453): a candidate's serial and its POOL links. -/
def execJoinReq (f : Flood) (serial : Nat) (links : List (Nat × Option Nat)) (s : State) : Res :=
  match s.linkSync.floodIn 3 f [serial] with
  | none => .next s
  | some s1 => .next ({ s1 with pool := { s1.pool with candidates := s1.pool.candidates.put serial links } }.coordinate)

/-- JOIN_REQ_TIMER (R453). -/
def execJoinReqTimer (s : State) : Res :=
  if s.pool.st = .joining ∧ !s.floodPorts.isEmpty ∧ !s.pool.leaving then
    .next (s.floodOut 3 (s.fuses.serial :: s.poolLinks.map (·.1))).linkSync
  else .next s

/-- MEMBER (R454, R466, R468, R469). -/
def execPoolMember (f : Flood) (serial number : Nat) (isIn : Bool) (offset : Int) (x : Ext) (s : State) : Res :=
  match s.linkSync.floodIn 4 f [serial, number, b2n isIn] with
  | none => .next s
  | some s1 =>
    let me := decide (s1.pool.st = .member) && decide (s1.pool.devnum = number)
    if isIn then
      if me ∧ serial ≠ s1.fuses.serial then
        let s2 := s1.isolate x
        .next ({ s2 with pool := { s2.pool with st := .joining } }.joined serial number 0)
      else .next (s1.joined serial number offset)
    else if me then .next (s1.isolate x)
    else .next (s1.depart number x)

/-- The coordinator declares a device departed (R467). -/
def State.declareGone (s : State) (d : Nat) (x : Ext) : State :=
  match s.pool.serials.find d with
  | some serial => if s.pool.coord ∧ s.isMember d then (s.floodOut 4 [serial, d, 0]).depart d x else s
  | none => s

/-- LINK_STATE (R467): a neighbour reports its link to a device. -/
def execLinkState (f : Flood) (reporter device : Nat) (ok : Bool) (s : State) : Res :=
  match s.linkSync.floodIn 5 f [reporter, device, b2n ok] with
  | none => .next s
  | some s1 =>
    let rest := s1.pool.usable.filter fun u => decide (u ≠ (reporter, device))
    .next { s1 with pool := { s1.pool with usable := if ok then rest ++ [(reporter, device)] else rest } }

/-- DEPARTURE_TIMER (R467): for 5 ms no neighbour has had a usable link to a device. -/
def execDepartureTimer (device : Nat) (x : Ext) (s : State) : Res :=
  if (s.pool.usable.any fun u => decide (u.2 = device)) ∨ device = s.pool.devnum then .next s else .next (s.linkSync.declareGone device x)

/-- LEAVE (R467). -/
def execLeave (f : Flood) (device : Nat) (x : Ext) (s : State) : Res :=
  match s.linkSync.floodIn 6 f [device] with
  | none => .next s
  | some s1 => .next (s1.declareGone device x)

/-- R468: the Sluice sweep for a departed device. -/
def State.sluiceSweep (s : State) (d : Nat) : State :=
  let hit (e : PEntry) : Bool := decide (gfDev e.gframe = d) && (decide (e.kind = .page) || decide (e.kind = .foreign))
  let s1 := s.revokeEntries fun _ e => hit e
  { s1 with slu := { s1.slu with foreignFrames := s1.slu.foreignFrames.keep fun _ e => decide (e ≠ d) } }

/-- DEPARTURE_SWEEP_DONE (R236, R468): with every slice's report in, the Sluice sweep ends and SWEEP_DONE is flooded. -/
def execDepartureSweepDone (device : Nat) (s : State) : Res :=
  let slices := s.inv.slices.filter fun n => decide ((s.die (n / 8)).st ≠ .retired)
  if s.pool.departed.contains device ∧ (slices.all fun n => s.pool.swept.contains (device, n)) ∧ !s.pool.reported.contains (s.pool.devnum, device) then
    let s1 := s.sluiceSweep device
    .next ({ s1 with pool := { s1.pool with reported := s1.pool.reported ++ [(s.pool.devnum, device)] } }.floodOut 7 [s.pool.devnum, device]).coordinate
  else .next s

/-- SWEEP_DONE (R470). -/
def execSweepDone (f : Flood) (reporter device : Nat) (s : State) : Res :=
  match s.linkSync.floodIn 7 f [reporter, device] with
  | none => .next s
  | some s1 =>
    let r := s1.pool.reported
    .next ({ s1 with pool := { s1.pool with reported := if r.contains (reporter, device) then r else r ++ [(reporter, device)] } }.coordinate)

/-- ISOLATION_TIMER (R469): the device has had no usable pool link for 5 ms. -/
def execIsolationTimer (x : Ext) (s : State) : Res :=
  if s.pool.st = .member ∧ s.floodPorts.isEmpty then .next (s.isolate x) else .next s

/-! ### Pool time (R471) -/

/-- TIME_SYNC_TIMER. -/
def execTimeSyncTimer (s : State) : Res := .next (s.floodPorts.foldl (fun s p => s.send (.link p 8 [])) s).linkSync

/-- TIME_REQ. -/
def execTimeReq (port : Nat) (s : State) : Res :=
  if s.floodPorts.contains port then .next (s.send (.link port 9 [s.poolTime])).linkSync else .next s

/-- TIME_RSP: `delta` is how far the partner's pool time leads, as the exchange measures it; `upstream` names the neighbour
nearest to the coordinator. The rate is slewed so that 1 ms takes the difference up, within 1000 ppm. -/
def execTimeRsp (port : Nat) (delta : Int) (upstream : Bool) (s : State) : Res :=
  if s.floodPorts.contains port && upstream && decide (s.pool.st = .member) then
    .next { s with pool := { s.pool with slew := clampInt (-1000) 1000 delta, aligned := s.pool.aligned || (decide (-20 ≤ delta) && decide (delta ≤ 20)) } }
  else .next s

/-! ### UNREACH (R461) -/

/-- UNREACH: the device that was not reached, the opcode and tag of the message, and for a coherence message its line. -/
def execUnreach (device op tag line : Nat) (x : Ext) (s : State) : Res :=
  if 0x10 ≤ op ∧ op ≤ 0x12 ∧ line ≠ 0 then .next (s.snoopLost line device x.pick)
  else if 0x18 ≤ op ∧ line = 0 then
    .next ((s.colls.filter fun c => (c.group s.pool.devnum).contains device).foldl (fun s c => s.collEnd c.cmd .faulted .deviceGone) s)
  else
    let hit (r : RemoteOp) : Bool := decide (r.dev = device) && decide (r.tag % 65536 = tag % 65536) && (match r.kind with
      | .mem => decide (r.op.code = op) && decide (r.line = line)
      | .pen => decide (op = 0x11)
      | .sl => decide (op = 0x13)
      | .coll => false)
    match s.pool.remote.find? hit with
    | some r => .next ((s.dropRemote r).opFailed r x)
    | none => .next s

/-- DEPARTED_WRITE_ENTRY_AGE (R315, R462): the oldest entry is more than 1 s old, and a write that waited takes its place. -/
def execDepartedWriteEntryAge (s : State) : Res :=
  match s.pool.depWait with
  | [] => .next s
  | (w, m) :: t =>
    .next (({ s with pool := { s.pool with depWait := t } }.postNow w m).getD s)

/-! ### Pennant requests and answers (R333-R336) -/

/-- An operation of Table 12-3 (16 a termination signal, 17 the withdrawal of a wait) at the owner's device. -/
def State.penServe (s : State) (dev vd tag op ticket value : Nat) (qos : Nat := 0) : State :=
  let ans (s : State) (a : PenAns) : State := s.send (.penAnswer dev vd tag a)
  if op = 7 then
    match s.importCheck ticket dev vd with
    | (some n, s1) => ans s1 (.answer .ok n)
    | (none, s1) => ans s1 (.answer .notGranted 0)
  else
    match s.ticketPen ticket with
    | none =>
      let s1 := { s with pen := { s.pen with dropCnt := s.pen.dropCnt + 1 } }
      ans s1 (if op = 16 then .dropped else .answer .abandoned 0)
    | some (k, e) =>
      match op with
      | 1 =>
        let s1 := s.withdraw fun r => decide (r.pen = e.pen) && (match r.who with | .peer d v _ => decide (d = dev) && decide (v = vd) | .cmd _ => false)
        ans { s1 with pen := { s1.pen with exports := s1.pen.exports.put k { e with imports := e.imports.erase (dev, vd) } } } (.answer .ok 0)
      | 2 => let s1 := s.penAdd e.pen value; ans s1 (.answer .ok (s1.penn e.pen).count.toNat)
      | 4 => ans s (.answer .ok (s.penn e.pen).count.toNat)
      | 5 =>
        if value ≤ (s.penn e.pen).count.toNat then ans s (.wake .ok (s.penn e.pen).count.toNat)
        else s.register e.pen vd value (.peer dev vd tag) qos
      | 16 => ans (s.penAdd e.pen value) (.answer .ok 0)
      | 17 => ans (s.withdraw fun r => decide (r.pen = e.pen) && decide (r.who = .peer dev vd tag)) (.answer .ok 0)
      | 18 => ans { s with pen := { s.pen with exports := s.pen.exports.put k { e with imports := e.imports.erase (dev, vd) } } } (.answer .ok 0)
      | _ => ans s (.answer .invalidField 0)

/-- PEN_REQ (R68, R333-R336). -/
def execPenReq (dev vd tag op ticket value : Nat) (s : State) (qos : Nat := 0) : Res :=
  .next (if s.peersWait then s.holdReq (.pen dev vd tag op ticket value qos) else s.penServe dev vd tag op ticket value qos)

/-- The remote operation that an answer from a device ends. -/
def State.penOp (s : State) (dev tag vd : Nat) : Option (RemoteOp × State) :=
  s.remoteAt fun r => decide (r.kind = .pen) && decide (r.dev = dev) && decide (r.tag = tag) && decide (r.who.vd = vd)

/-- A wait through a binding is met or abandoned (R323, R335). -/
def State.woken (s : State) (vd q : Nat) (st : Status) (value : Nat) : State :=
  match s.cmd? q with
  | none => s
  | some c =>
    if c.vd ≠ vd then s
    else if c.opcode = 3 ∧ c.st ≠ .queued then s.armEnd q st value
    else s.setCmd q { c with wait := if st = .ok then .met else .abandoned }

/-- The owner has taken an IMPORT: the number is bound, unless the second check finds it bound meanwhile or the quota full (R319, R322);
then the place at the owner is given back. -/
def State.imported (s : State) (q : Nat) (c : Cmd) (dev n : Nat) : State :=
  let back (s : State) : State :=
    s.sendRemote { kind := .pen, dev := dev, tag := q, who := c.who q, epoch := c.epoch, posted := true } (.penReq dev c.vd q 18 c.value 0)
  if (s.binding c.vd c.pen).isSome then (back s).penDone q .inUse
  else if s.quotaPen c.vd ≤ (s.vd c.vd).bind.length then (back s).penDone q .quota
  else (s.setBinding c.vd c.pen (.imported c.value false)).penDone q .ok n

/-- PEN_RSP: answers, wakes, revocations and notices at the importer. -/
def execPenRsp (dev vd tag : Nat) (ans : PenAns) (s : State) : Res :=
  match ans with
  | .revoke t =>
    let through (c : Cmd) : Bool := decide (c.vd = vd) && decide (c.waitsOn.bind (s.bindingIn vd c.epoch) = some (.imported t false))
    .next ((s.dax.cmds.filter fun e => through e.2).foldl (fun s e => s.woken vd e.1 .abandoned 0)
      (s.modVd vd fun x => x.mapBind fun b => if b = .imported t false then .imported t true else b))
  | .wake st n => .next (match s.penOp dev tag vd with | some (r, s1) => if s.oldReply r then s1 else s1.woken vd tag st n | none => s.woken vd tag st n)
  | .recorded =>
    match s.penOp dev tag vd with
    | some (_, s1) => .next (match s1.cmd? tag with | some c => if c.wait = .registered then s1.armRecorded tag c else s1 | none => s1)
    | none => .next s
  | .dropped =>
    match s.penOp dev tag vd with
    | some (r, s1) => .next (if s.oldReply r then s1 else s1.modVd vd fun x => { x with penDropCnt := x.penDropCnt + 1 })
    | none => .next s
  | .answer st n =>
    match s.penOp dev tag vd with
    | none => .next s
    | some (r, s1) =>
      if r.posted ∨ s.oldReply r then .next s1
      else
        match s1.cmd? tag with
        | none => .next s1
        | some c =>
          if c.opcode = 3 ∧ c.st ≠ .queued then
            if c.opx = 7 ∧ st = .ok then .next (s1.imported tag c dev n)
            else .next ((s1.penDone tag st n).modCmd tag fun c => { c with wait := .met })
          else .next (s1.woken vd tag st n)

/-! ### Sluice requests and answers (R280-R285) -/

/-- A request of a peer's Sluice: attaches, revocations and move control. -/
def State.slServe (s : State) (dev : Nat) (m : SlMsg) (pick : Nat) : State :=
  match m with
  | .attach vd tag slot len key ro =>
    let (fs, s1) := s.attachCheck dev vd slot len key ro 0
    s1.send (.sl dev (.attached tag fs))
  | .revoke slot => s.revokeGrant dev slot
  | .take tag k =>
    match s.chooseFrames k pick with
    | none => s.send (.sl dev (.taken tag none k))
    | some f =>
      let s1 := s.zeroFrames f k
      let s2 := { s1 with slu := { s1.slu with foreignFrames := (List.range k).foldl (fun t i => t.put (f + i) dev) s1.slu.foreignFrames } }
      s2.send (.sl dev (.taken tag (some (s.ownFrame f)) k))
  | .giveBack f k =>
    let s := s.takeBackFrames f k peerVd
    { s with slu := { s.slu with foreignFrames := (List.range k).foldl (fun t i => t.del (f + i)) s.slu.foreignFrames } }
  | .fetch f k dst =>
    let s1 := s.takeBackFrames f k peerVd
    s1.send (.sl (gfDev dst) (.page (gfLocal dst) k (s1.rawLines f k)))
  | _ => s

/-- SL_REQ (R68, R280-R285). -/
def execSlReq (dev : Nat) (m : SlMsg) (x : Ext) (s : State) : Res :=
  .next (if s.peersWait then s.holdReq (.sl dev m) else s.orWait x.pick fun s => s.slServe dev m x.pick)

/-- A peer's frames are there: a first touch is done (R273), or the move begins, unless something forbids it by now. -/
def State.taken (s : State) (m : Move) (dev g pick : Nat) : State :=
  let k := pageFrames m.big
  let back (s : State) : State := s.send (.sl dev (.giveBack (gfLocal g) k))
  if m.fresh then
    let s1 := (s.dropMove m.vd m.page).setEntry m.vd m.page { kind := .page, big := m.big, gframe := g, moved := s.movedNow }
    { s1 with slu := { s1.slu with firstTouch := s1.slu.firstTouch + 1 } }.placeResume m.vd m.page pick
  else
    match s.slu.pt.find (ptKey m.vd m.page) with
    | none => back (s.dropMove m.vd m.page)
    | some e =>
      if e.kind ≠ .page then back ((s.dropMove m.vd m.page).placeResume m.vd m.page pick)
      else if !s.mayMove m.by_ m.vd m.page e then back ((s.dropMove m.vd m.page).moveRefused m.by_)
      else s.moveBegin { m with dst := g } e

/-- SL_RSP. -/
def execSlRsp (dev : Nat) (m : SlMsg) (x : Ext) (s : State) : Res :=
  let op (tag : Nat) : Option (RemoteOp × State) := s.remoteAt fun r => decide (r.kind = .sl) && decide (r.dev = dev) && decide (r.tag = tag)
  match m with
  | .attached tag fs =>
    match op tag with
    | none => .next s
    | some (r, s1) =>
      if s.oldReply r then .next s1 else
      match s1.cmd? tag, fs with
      | some c, some fs => .next (s1.attachEnd tag c.vd dev (c.f 0x2A 2) (bit c.opx 0) (c.addr / 65536) fs)
      | some _, none => .next (s1.engineDone tag .notGranted)
      | none, _ => .next s1
  | .taken tag g k =>
    let back (s : State) : State := match g with | some g => s.send (.sl dev (.giveBack (gfLocal g) k)) | none => s
    match op tag with
    | none => .next (back s)
    | some (r, s1) =>
      match s1.moveOf (tag / 2 ^ 26) (tag % 2 ^ 26), g with
      | none, _ => .next (back s1)
      | some _, none => .next (s1.takeFailed tag .noSpace x.pick)
      | some m, some g => .next (if m.step ≠ 0 then back s1 else if s.oldReply r then back ((s1.moveAbandon m).placeResume m.vd m.page x.pick) else s1.taken m dev g x.pick)
  | .page f k lines => .next (s.pageLands f k lines)
  | _ => .next s

end Sys2Proof.Machine
end

