-- ==== Sys2Proof/Machine/Coll.lean ====
section
/-! DEFINITION. Pool collectives (R472-R475). A message names its COLL_SEQ, part and step; `step` counts the steps of the whole
operation, so an all-reduce's gather follows its reduce-scatter. -/
namespace Sys2Proof.Machine

/-- Steps over the group (R472). -/
def Coll.g (c : Coll) : Nat := c.dims.length + b2n c.plane
def Coll.steps (c : Coll) : Nat := if c.kind = 2 then 2 * c.g else c.g
/-- The rule's step number i, and whether it reduces (R474). -/
def Coll.phase (c : Coll) (t : Nat) : Nat × Bool :=
  if c.kind = 0 then (t, true) else if c.kind = 1 then (c.g - 1 - t, false) else if t < c.g then (t, true) else (2 * c.g - 1 - t, false)
/-- The dimension of a part's step i; none for the plane step. -/
def Coll.dim (c : Coll) (j i : Nat) : Option Nat := c.dims[(j + i) % c.g]?
def Coll.elem (c : Coll) : Nat := redSize c.fmt
/-- Bytes of a part. -/
def Coll.partSize (c : Coll) : Nat := c.count * c.elem / c.g

/-- The partner of a part's step, and whether the bridge leads to it. -/
def State.collPeer (s : State) (c : Coll) (j t : Nat) : Nat × Bool :=
  match c.dim j (c.phase t).1 with
  | some e => (s.pool.devnum ^^^ 2 ^ e, false)
  | none => (s.pool.devnum, true)

/-- This device's bit in a dimension; for the plane step, whether its POOL_ID is the higher. -/
def State.collBit (s : State) (d : Option Nat) : Bool :=
  match d with
  | some e => bit s.pool.devnum e
  | none => match s.img.poolMap, (s.hylPort 7).hello with | some m, some h => decide (h.poolId < m.poolId) | _, _ => false

/-- The range of a part that is left after `i` splits: its offset in BUF and its bytes. -/
def State.collRange (s : State) (c : Coll) (j : Nat) : Nat → Nat × Nat
  | 0 => (j * c.partSize, c.partSize)
  | i + 1 =>
    let (o, n) := s.collRange c j i
    if s.collBit (c.dim j i) then (o + n / 2, n / 2) else (o, n / 2)

/-- What a part sends in a step: the half given up, or the whole range held (R474). -/
def State.collSends (s : State) (c : Coll) (j t : Nat) : Nat × Nat :=
  let (i, red) := c.phase t
  let (k, n) := s.collRange c j (i + 1)
  if red then (2 * (s.collRange c j i).1 + n - k, n) else (k, n)

def State.coll? (s : State) (q : Nat) : Option Coll := s.colls.find? fun c => decide (c.cmd = q)
def State.setColl (s : State) (c : Coll) : State := { s with colls := s.colls.map fun d => if d.cmd = c.cmd then c else d }
def Coll.part (c : Coll) (j : Nat) : CollPart := c.parts.getD j {}
def Coll.setPart (c : Coll) (j : Nat) (p : CollPart) : Coll := { c with parts := c.parts.set j p }

/-- Poison that a collective meets marks its tasks. -/
def State.collPoison (s : State) (q : Nat) : State :=
  s.modCmd q fun c => { c with anyPoisoned := c.anyPoisoned || !c.uncreated.isEmpty, tasks := c.tasks.map fun t => if t.fin.isSome then t else { t with poison := true } }

/-- The slice through which a command's accesses are translated. -/
def Cmd.port (c : Cmd) : Port := { slice := match c.tasks with | t :: _ => t.slice | [] => 0 }

/-- COLL_DATA: the lines of `[o, o + 128 k)` go to the partner, each as a remote operation until its CMP (R461, R474); the fault that stops
them. `vals` is COLL_SEQ, the part and the step. -/
def State.collLines (q : Nat) (c : Cmd) (vals : List Nat) (dev : Nat) (bridge : Bool) (x : Ext) : Nat → Nat → State → Block × State
  | 0, _, s => ({}, s)
  | k + 1, o, s =>
    match State.readMarked c.vd c.port x 6 ((c.ref 0x18).add o) 128 s with
    | (.error f, s1) => ({ fault := some f }, s1)
    | (.ok bs, s1) =>
      let p := poisonOf bs 0
      let op : RemoteOp := { kind := .coll, op := .red, dev := dev, line := vals.getD 1 0, tag := vals.getD 0 0, who := c.who q, epoch := c.epoch }
      match State.collLines q c vals dev bridge x k (o + 128) (s1.sendRemote op (.coll dev bridge 0x19 (vals ++ [o / 128, p.toNat]) (bytesLine (bs.map (·.1))))) with
      | (b, s2) => ({ b with poison := b.poison || p != 0 }, s2)

/-- The data of a part's step, once both ends are ready (R473), and the COLL_STEP that counts it. -/
def State.collData (s : State) (q j : Nat) (x : Ext) : State :=
  match s.coll? q, s.cmd? q with
  | some c, some m =>
    let p := c.part j
    let (dev, bridge) := s.collPeer c j p.step
    let (o, n) := s.collSends c j p.step
    let vals := [c.seq, j, p.step]
    match State.collLines q m vals dev bridge x (n / 128) o s with
    | (b, s1) =>
      match b.fault with
      | some f => s1.collEnd q .faulted f.1 f.2
      | none =>
        let s2 := if b.poison then s1.collPoison q else s1
        (s2.setColl (c.setPart j { p with sent := n / 128 })).send (.coll dev bridge 0x1A (vals ++ [n / 128]) 0)
  | _, _ => { s with colls := s.colls.filter fun c => decide (c.cmd ≠ q) }

/-- R473: a partner's COLL_READY meets this device's part: the data follows, or both commands end. -/
def State.collMeet (s : State) (q j : Nat) (r : CollReady) (x : Ext) : State :=
  match s.coll? q with
  | none => s
  | some c =>
    if r.kind = c.kind ∧ r.fmt = c.fmt ∧ r.count = c.count then
      (s.setColl (c.setPart j { c.part j with partner := true })).collData q j x
    else s.collEnd q .faulted .invalidField

/-- COLL_READYs that arrived early are kept for 1 s. -/
def State.collFresh (s : State) : List (CollReady × Nat) := s.collHeld.filter fun h => decide (s.now ≤ h.2 + 10 ^ 9)

/-- A part begins a step: its COLL_READY goes out, and one that is held meets it. -/
def State.collBegin (s : State) (q j : Nat) (x : Ext) : State :=
  match s.coll? q with
  | none => s
  | some c =>
    let t := (c.part j).step
    let (dev, bridge) := s.collPeer c j t
    if (!bridge && s.gone dev) || (bridge && decide (s.kindOf 7 ≠ 2)) then s.collEnd q .faulted .deviceGone
    else
      let s1 := (s.setColl (c.setPart j { step := t, ready := true })).send (.coll dev bridge 0x18 [c.seq, c.kind, c.fmt, c.count, t] 0)
      let held := s1.collFresh
      match held.find? fun h => decide (h.1.dev = dev ∧ h.1.bridge = bridge ∧ h.1.seq = c.seq ∧ h.1.step = t) with
      | none => { s1 with collHeld := held }
      | some h => { s1 with collHeld := held.erase h }.collMeet q j h.1 x

/-- COLLECTIVE (R472, R475): a command of this opcode whose first task runs begins the first step of each part. -/
def execCollective (cmd : Nat) (x : Ext) (s : State) : Res :=
  match s.cmd? cmd with
  | none => .next s
  | some m =>
    if decide (m.opcode = 0x40) && (s.coll? cmd).isNone && m.tasks.any (fun t => decide (t.st = .running) && t.fin.isNone) then
      let g := m.f 0x28 2
      let c : Coll := { cmd := cmd, seq := m.f 0x2C 4, kind := m.opx % 4, fmt := m.opx / 4, count := m.f 0x20 8,
                        dims := bitsOf 7 g, plane := bit g 7, parts := [] }
      .next (s.orWait x.pick fun s =>
        (List.range c.g).foldl (fun s j => s.collBegin cmd j x) { s with colls := s.colls ++ [{ c with parts := List.replicate c.g {} }] })
    else .next s

/-- The collective and part that a message of a partner belongs to. -/
def State.collOf (s : State) (seq dev : Nat) (bridge : Bool) (t : Nat) : Option (Coll × Nat) :=
  (s.colls.filter fun c => decide (c.seq = seq)).findSome? fun c =>
    ((List.range c.g).find? fun j => decide ((c.part j).step = t) && (c.part j).ready && s.collPeer c j t == (dev, bridge)).map fun j => (c, j)

/-- COLL_READY (R473). -/
def execCollReady (r : CollReady) (x : Ext) (s : State) : Res :=
  match s.collOf r.seq r.dev r.bridge r.step with
  | some (c, j) => if (c.part j).partner then .next s else .next (s.orWait x.pick fun s => s.collMeet c.cmd j r x)
  | none => .next { s with collHeld := s.collFresh ++ [(r, s.now)] }

/-- The end of a part's step, of the operation with its last (R474). -/
def State.collCheck (s : State) (q j : Nat) (x : Ext) : State :=
  match s.coll? q with
  | none => s
  | some c =>
    let p := c.part j
    if p.partner ∧ p.acked = p.sent ∧ p.announced = some p.applied then
      let c1 := c.setPart j { step := p.step + 1 }
      if p.step + 1 < c.steps then (s.setColl c1).collBegin q j x
      else if (List.range c.g).all fun k => decide (c.steps ≤ (c1.part k).step) then (s.setColl c1).collEnd q .done .ok
      else s.setColl c1
    else s

/-- The home slice of an operand's first byte, of this device's slices; slice 0 for a line that a peer homes. -/
def State.refHome (s : State) (v : Nat) (r : OpRef) : Nat :=
  match r with
  | .va a =>
    match s.entry v (a / 65536) with
    | some (p, e) => if lineDev (e.gaddr p a / 128) = s.pool.devnum then s.sliceOf (e.gaddr p a / 128) else 0
    | none => 0
  | .blk h o => s.poolSlice (handlePool h) (s.blkOff h o)

/-- A message whose place in BUF begins `k` bytes into a line: its elements of that line, then those of the next, each an add-to-line at its
home (R206). -/
def State.addSplit (s : State) (c : Coll) (q : Nat) (m : Cmd) (r : OpRef) (k : Nat) (d : Line) (p : Sectors) (x : Ext) : Block × State :=
  let bs : PBytes := (List.range 128).map fun i => (lineByte d i, bit p.toNat (i / 32))
  let first := allElems c.fmt <<< (k / c.elem) &&& allElems c.fmt
  match s.addLine (m.who q) c.fmt m.port r (d <<< (8 * k)) (poisonOf (bs.take (128 - k)) k) x first (128 - k) with
  | (b, s1) =>
    if b.fault.isSome then (b, s1)
    else
      match s1.addLine (m.who q) c.fmt m.port (r.add (128 - k)) (d >>> (8 * (128 - k))) (poisonOf (bs.drop (128 - k)) 0) x (allElems c.fmt &&& ~~~ first) k with
      | (b2, s2) => ({ b2 with poison := b.poison || b2.poison }, s2)

/-- One message is added, or written, at its place in BUF (R474, R475); where its elements are not aligned to their size they are read,
changed and written back, and counted at the home of the first (notes/assumptions/52.md). -/
def State.collApply (s : State) (c : Coll) (q : Nat) (m : Cmd) (red : Bool) (o : Nat) (d : Line) (p : Sectors) (x : Ext) : Block × State :=
  let r := (m.ref 0x18).add o
  let put (s : State) (bs : PBytes) : Block × State :=
    match s.opWrite (m.who q) m.port r bs x with | (f, s1) => ({ fault := f, poison := p != 0 }, s1)
  if !red then put s ((List.range 128).map fun i => (lineByte d i, bit p.toNat (i / 32)))
  else if s.refMod r = 0 then s.addLine (m.who q) c.fmt m.port r d p x
  else if s.refMod r % c.elem = 0 then s.addSplit c q m r (s.refMod r) d p x
  else
    match State.readMarked m.vd m.port x 6 r 128 s with
    | (.error f, s1) => ({ fault := some f }, s1)
    | (.ok bs, s1) =>
      let po := poisonOf bs 0 ||| p
      let (new, nan, sat) := redLine c.fmt (allElems c.fmt) po (bytesLine (bs.map (·.1))) d
      let home := s1.refHome m.vd r
      put ((s1.countNan home nan).countSat home sat) ((List.range 128).map fun i => (lineByte new i, bit po.toNat (i / 32)))

/-- COLL_DATA (R474): `line` counts 128 B from the start of BUF. -/
def execCollData (dev : Nat) (bridge : Bool) (seq part step line : Nat) (data : Line) (pois : Sectors) (x : Ext) (s : State) : Res :=
  let cmp (s : State) (st : Status) : State := s.send (.coll dev bridge (CohOp.code .cmp) [seq, part, step, st.code] 0)
  match s.collOf seq dev bridge step with
  | none => .next s
  | some (c, j) =>
    match s.cmd? c.cmd with
    | none => .next s
    | some m =>
      if j ≠ part then .next s
      else
        .next (s.orWait x.pick fun s =>
          match s.collApply c c.cmd m (c.phase step).2 (128 * line) data pois x with
          | (b, s1) =>
            match b.fault with
            | some f => (cmp s1 f.1).collEnd c.cmd .faulted f.1 f.2
            | none =>
              let s2 := (if b.poison then s1.collPoison c.cmd else s1).finishWrites c.cmd m.vd
              let p := c.part j
              (cmp (s2.setColl (c.setPart j { p with applied := p.applied + 1 })) .ok).collCheck c.cmd j x)

/-- COLL_STEP (R474): the partner announces how many messages it has sent. -/
def execCollStep (dev : Nat) (bridge : Bool) (seq part step count : Nat) (x : Ext) (s : State) : Res :=
  match s.collOf seq dev bridge step with
  | none => .next s
  | some (c, j) =>
    if j ≠ part then .next s
    else .next (s.orWait x.pick fun s => (s.setColl (c.setPart j { c.part j with announced := some count })).collCheck c.cmd j x)

/-- COLL_READY_TIMEOUT (R473): a command has had no matching COLL_READY for 1 s. -/
def execCollReadyTimeout (cmd : Nat) (s : State) : Res :=
  match s.coll? cmd with
  | none => .next s
  | some c => if c.parts.any fun p => p.ready && !p.partner then .next (s.collEnd cmd .faulted .deviceGone) else .next s

/-- CMP for a COLL_DATA message: its remote operation ends. -/
def State.collAck (s : State) (m : CohMsg) (x : Ext) : State :=
  let s1 := match s.remoteAt fun r => decide (r.kind = .coll) && decide (r.dev = m.dev) && decide (r.tag = m.line) && decide (r.line = m.tag) with
    | some (_, s1) => s1
    | none => s
  match s1.collOf m.line m.dev (decide (m.dev = s1.pool.devnum)) m.epoch with
  | none => s1
  | some (c, j) =>
    if j ≠ m.tag then s1
    else if m.status ≠ .ok then s1.collEnd c.cmd .faulted m.status
    else (s1.setColl (c.setPart j { c.part j with acked := (c.part j).acked + 1 })).collCheck c.cmd j x

/-- CMP at the requester (R237, R464, R517): a posted write is confirmed or failed, an atomic was not performed, and a line of a
collective has been applied (R474). -/
def execCmp (m : CohMsg) (x : Ext) (s : State) : Res :=
  if m.coll then .next (s.orWait x.pick fun s => s.collAck m x)
  else
    match s.remoteAt fun r => decide (r.kind = .mem) && decide (r.dev = m.dev) && decide (r.line = m.line) && decide (r.tag = m.tag)
        && (decide (r.op = .wrNc) || decide (r.op = .red) || decide (r.op = .atom)) with
    | none => .next s
    | some (r, s1) =>
      if r.op = .atom then
        match r.who.cmd with
        | some _ => .next (if s1.oldReply r then s1 else s1.whoFailed r.who m.status)
        | none => .next (s1.send (.rsp r.rtag m.status 0 0))
      else if m.status = .ok then .next (if r.who.errRec && decide (r.epoch = (s1.vd r.who.vd).epoch) then s1.recDone r.who.vd r.who.va else s1) else .next (s1.deferredWrite r m.status x)

end Sys2Proof.Machine
end

