-- ==== Sys2Proof/Machine/Clock.lean ====
section
/-! DEFINITION. The clock monitor (R55-R63), port resets (R64, R151), the start of CXL training (R71), and self-gating
(R73-R75). -/
namespace Sys2Proof.Machine

/-! ### References -/

def State.refMon (s : State) (r : Nat) : RefMon := s.clk.refs.getD r {}
def State.setRef (s : State) (r : Nat) (m : RefMon) : State := { s with clk := { s.clk with refs := s.clk.refs.setD r {} m } }

/-- The anchor that the applied image names; none for the quiet clock (Table 03-4), whose ANCHOR_VALID reads 0
(notes/assumptions/45.md). -/
def State.anchor (s : State) : Option Nat := if s.img.applied ∧ s.img.device.anchorSel < 4 then some s.img.device.anchorSel else none

/-- The monitor runs once the quiet clock does (Table 03-8, step 3). -/
def State.monitored (s : State) (ref : Nat) : Bool := s.board.pwrOk && decide (3 ≤ s.boot.step) && decide (ref < 4)

/-- A port whose reference is lost: link down, unless it is down already (R58, R152). -/
def State.portLost (s : State) (port pick : Nat) : State :=
  match (s.port port).link with
  | 2 => (s.linkLost port pick).charge 7 port 256
  | 1 => s.modPort port fun x => { x with link := 0 }
  | _ => s

/-- R61: the main PLL free-runs, and every CXL and HyhanLink port goes link down. -/
def State.freeRun (s : State) (pick : Nat) : State :=
  if s.clk.source = 3 then s
  else
    let s1 := { s with clk := { s.clk with source := 3 } }.postAs { cls := .deviceFatal } 0x0DF40000
    let s2 := (List.range 4).foldl (fun s p => s.portLost p pick) s1
    (List.range 8).foldl (fun s p => match (s.hylPort p).st with
      | .disabled => s | .retired => s | .down => s
      | _ => s.hylDrop p .down) s2

/-- R56-R58, R61: a reference is lost. -/
def State.refLost (s : State) (ref pick : Nat) : State :=
  let s1 := s.setRef ref { s.refMon ref with valid := false, counting := false }
  let s2 := if s.anchor = some ref then
      let s2 := { s1 with clk := { s1.clk with lossCnt := s1.clk.lossCnt + 1 } }
      if s2.clk.source = 3 then s2 else if s2.clk.quietBad then s2.freeRun pick else { s2 with clk := { s2.clk with source := 1 } }
    else s1
  if (s2.port ref).refMode ≤ 1 then s2.portLost ref pick else s2

/-- REF_GLITCH (R56, R59): a disturbance of less than 100 ns; `ns` is its duration. A return count restarts. -/
def execRefGlitch (ref ns : Nat) (s : State) : Res :=
  if s.monitored ref && decide (ns < 100) && s.anchor == some ref then
    .next ({ s with clk := { s.clk with glitchCnt := s.clk.glitchCnt + 1 } }.gaugeEvent 0x30 0xFF none ns)
  else .next s

/-- REF_LOSS (R56-R58). A reference that is neither valid nor returning is lost already. -/
def execRefLoss (ref pick : Nat) (s : State) : Res :=
  if s.monitored ref && ((s.refMon ref).valid || (s.refMon ref).counting) then .next (s.refLost ref pick) else .next s

/-- R57: the band, in hertz. -/
def State.inBand (s : State) (hz : Nat) : Bool :=
  decide ((if s.img.device.sscAllowed then 99000000 else 99500000) ≤ hz) && decide (hz ≤ 100500000)

/-- FREQ_WINDOW_END (R56, R57, R59): the mean frequency of a window. The second window outside the band in a row is a loss; a
window inside it begins the return count of a lost reference. -/
def execFreqWindowEnd (ref hz pick : Nat) (s : State) : Res :=
  if !s.monitored ref then .next s
  else
    let m := s.refMon ref
    if s.inBand hz then .next (s.setRef ref { m with out := false, counting := m.counting || !m.valid })
    else
      let s1 := s.setRef ref { m with out := true, counting := false }
      if m.out && m.valid then .next (s1.refLost ref pick) else .next s1

/-- REF_RETURN (R59, R71): 100 us without a disturbance, every window inside the band. -/
def execRefReturn (ref : Nat) (s : State) : Res :=
  let m := s.refMon ref
  if s.monitored ref && !m.valid && !m.out then
    let s1 := s.setRef ref { m with valid := true, counting := false }
    if s1.anchor = some ref ∧ s1.clk.source = 1 then .next { s1 with clk := { s1.clk with source := 0, switched := true } } else .next s1
  else .next s

/-- QUIET_CLOCK_FAIL (R54, R61). -/
def execQuietClockFail (pick : Nat) (s : State) : Res :=
  if !s.monitored 0 || s.clk.quietBad then .next s
  else
    let s1 := { s with clk := { s.clk with quietFail := true, quietBad := true } }
    if s.clk.source = 0 then .next (s1.post { cls := .correctable, code := 5 }) else .next (s1.freeRun pick)

/-! ### CXL ports -/

/-- CXL_TRAINING_START (R71, R108, R121): a port in Detect may train. -/
def execCxlTrainingStart (port : Nat) (s : State) : Res :=
  let x := s.port port
  if s.board.pwrOk && decide (5 ≤ s.boot.step) && decide (port < 4) && decide (x.link = 0) && !x.perst && !s.boot.noImage
      && decide (s.clk.source ≠ 3) && decide (x.refMode ≠ 3) && (decide (x.refMode = 2) || (s.refMon port).valid) then
    .next (s.modPort port fun x => { x with link := 1 })
  else .next s

/-- PORT_RESET (R64, R151): `perst` is what PERST_N_n does: it asserts, or deasserts; none is a hot reset or a link disable. -/
def execPortReset (port : Nat) (perst : Option Bool) (pick : Nat) (s : State) : Res :=
  if 4 ≤ port ∨ !s.board.pwrOk then .next s
  else
    match perst with
    | some false => .next (s.modPort port fun x => { x with perst := false })
    | some true => .next (((if s.running then s.portReset port pick else s)).modPort port fun x => { x with perst := true })
    | none => if s.running ∧ (s.port port).link = 2 then .next (s.portReset port pick) else .next s

/-! ### Gating (R73-R75, R293) -/

def State.gateSt (s : State) (n : Nat) : Nat := s.power.slices.getD n 0
def State.setGate (s : State) (n g : Nat) : State := { s with power := { s.power with slices := s.power.slices.setD n 0 g } }

/-- A slice of the device that is on. -/
def State.sliceOn (s : State) (n : Nat) : Bool := s.inv.slices.contains n && !(s.slice n).retired && decide ((s.die (n / 8)).st = .active)

def State.hasTask (s : State) (n : Nat) : Bool := s.dax.cmds.any fun e => e.2.tasks.any fun t => decide (t.slice = n)

/-- Nothing keeps a slice at work: request, task or miss register. -/
def State.sliceIdle (s : State) (n : Nat) : Bool :=
  let x := s.slice n
  x.inq.isEmpty && x.miss.isEmpty && !s.hasTask n && !x.stopped

/-- SLICE_CLOCK_GATE: 1 us idle (Table 03-10). -/
def execSliceClockGate (slice : Nat) (s : State) : Res :=
  if s.sliceOn slice && decide (s.gateSt slice = 0) && s.sliceIdle slice then .next (s.setGate slice 1) else .next s

/-- A bay of the slice holds a pinned buffer, a promoted page, or stands in for a pinned bay (R74). -/
def State.baysUsed (s : State) (n : Nat) : Bool :=
  let here (b : Nat) : Bool := decide (b / 18 = n)
  (s.slu.promo.any fun e => here (e.1 / 4)) || (s.hop.bayMap.any fun e => here e.2)
    || (List.range 16).any fun p => decide ((s.hpool p).kind = 1) && (s.heldBlocks p).any fun b =>
        (List.range ((b.2.1 + bayBytes - 1) / bayBytes)).any fun i => here (s.poolBay p (b.1 / bayBytes + i))

/-- R75, R293: the interval that the gating loop's choice gives, and the count of a choice below the policy minimum (both in ns). -/
def State.gateBound (s : State) (choice bound : Nat) : Nat × State :=
  if choice < bound then (bound, { s with slu := { s.slu with loopTug := countAt s.slu.loopTug 2 } }) else (choice, s)

/-- SLICE_POWER_GATE (R74, R75): `choice` is the loop's interval and `idle` how long the slice has been idle. Every dirty line is
written back first; while a write-back is unacknowledged the slice stays on. -/
def execSlicePowerGate (slice choice idle : Nat) (s : State) : Res :=
  if s.sliceOn slice && decide (s.gateSt slice ≠ 2) && s.sliceIdle slice && !s.baysUsed slice && !bit s.pol.keepAwake slice then
    match s.gateBound choice (s.pol.pgMinIdle * 1000) with
    | (i, s1) =>
      if idle < i then .next s1
      else
        let s2 := ((s1.slice slice).frames.map (·.1)).foldl (fun s k => s.evict slice k) s1
        if (s2.slice slice).miss.isEmpty then
          .next ((s2.modSlice slice fun x => { x with frames := [], l1 := [], ro := {} }).setGate slice 2)
        else .next s2
  else .next s

/-- A gated slice wakes, and what waited for it goes on in order (R73). -/
def State.wakeSlice (s : State) (n pick : Nat) : State :=
  if s.gateSt n = 0 ∨ (s.slice n).retired then s
  else
    let rs := (s.slice n).inq
    let s1 := (s.setGate n 0).modSlice n fun x => { x with inq := [] }
    rs.foldl (fun s r => s.arrive n pick r) s1

/-- R75: gated slices that the keep-awake mask names wake. -/
def State.keepAwake (s : State) (pick : Nat) : State :=
  (s.inv.slices.filter fun n => bit s.pol.keepAwake n && decide (s.gateSt n ≠ 0)).foldl (fun s n => s.wakeSlice n pick) s

/-- SLICE_WAKE. -/
def execSliceWake (slice pick : Nat) (s : State) : Res := .next (s.wakeSlice slice pick)

/-- RUNNER_GATE: 2 us without a task. -/
def execRunnerGate (slice : Nat) (s : State) : Res :=
  if s.sliceOn slice && !s.hasTask slice && !s.power.runners.contains slice then
    .next { s with power := { s.power with runners := s.power.runners ++ [slice] } }
  else .next s

/-- The slices of a die have no request of their own or waiting. -/
def State.dieIdle (s : State) (d : Nat) : Bool := (List.range 8).all fun i => (s.slice (8 * d + i)).inq.isEmpty && (s.slice (8 * d + i)).miss.isEmpty

/-- STACK_SELF_REFRESH (R73, R75). -/
def execStackSelfRefresh (die choice idle : Nat) (s : State) : Res :=
  if decide ((s.die die).st = .active) && s.dieIdle die && !s.power.refresh.contains die then
    match s.gateBound choice (s.pol.srMinIdle * 1000) with
    | (i, s1) => if idle < i then .next s1 else .next { s1 with power := { s1.power with refresh := s1.power.refresh ++ [die] } }
  else .next s

/-- FLUME_RACE_CLOCK_GATE: no timetable runs. The gate opens by itself when work arrives. -/
def execFlumeRaceClockGate (die : Nat) (s : State) : Res :=
  let f := s.flume.getD die {}
  if decide ((s.die die).st = .active) && f.run.isNone && f.waiting.isEmpty && (s.races.getD die {}).waiting.isEmpty
      && !s.power.flumes.contains die then
    .next { s with power := { s.power with flumes := s.power.flumes ++ [die] } }
  else .next s

end Sys2Proof.Machine
end

