-- ==== Sys2Proof/Machine/Jtag.lean ====
section
/-! DEFINITION. The test access port (R45-R50). A row that selects a data register with a defined content shifts it out. -/
namespace Sys2Proof.Machine

/-- R50: with the test lock set, an instruction of the closed set behaves as BYPASS. -/
def State.tapLoad (s : State) (code : Nat) : State :=
  let shut := s.boot.testLock && [0x00, 0x03, 0x08, 0x09, 0x20].contains code
  { s with jtag := { s.jtag with ir := if shut then 0xFF else code } }

def State.tapOk (s : State) : Bool := s.board.pwrOk

/-- The register's bits, bit 0 first. -/
def bitList (n x : Nat) : List Bool := (List.range n).map (bit x)

/-- IDCODE (Table 22-11). -/
def State.idcode (s : State) : Nat :=
  s.fuses.iodRev % 16 * 2 ^ 28 + (if s.fuses.prevGen then 0x2881 else 0x2882) * 2 ^ 12 + 0x6E5 * 2 + 1

/-- TEST_LOGIC_RESET (R45, R46): IDCODE is selected and every SIB closes; domains that only test held on switch off (R49). -/
def execTestLogicReset (s : State) : Res :=
  if s.tapOk then .next { s with jtag := { s.jtag with ir := 1, sibs := 0 }, power := { s.power with testCom := [] } } else .next s

/-- EXTEST: the boundary-scan register captures the pins and shifts them out, is loaded with `bits`, and drives the package outputs;
under the test lock BYPASS is selected and the register keeps its content. -/
def execExtest (s : State) (pins : List Bool := []) (bits : List Bool := []) : Res :=
  let s1 := s.tapLoad 0x00
  if !s.tapOk then .next s
  else if s1.jtag.ir = 0x00 then .next ({ s1 with jtag := { s1.jtag with bsr := bits } }.send (.tdo pins)) else .next s1

/-- IDCODE. -/
def execIdcode (s : State) : Res := if s.tapOk then .next ((s.tapLoad 0x01).send (.tdo (bitList 32 s.idcode))) else .next s

/-- SAMPLE: the boundary-scan register captures the pins. -/
def execSample (pins : List Bool) (s : State) : Res :=
  if s.tapOk then .next ({ s.tapLoad 0x02 with jtag := { (s.tapLoad 0x02).jtag with bsr := pins } }.send (.tdo pins)) else .next s

/-- PRELOAD: the boundary-scan register is loaded; under the test lock BYPASS is selected and nothing is loaded. -/
def execPreload (bits : List Bool) (s : State) : Res :=
  let s1 := s.tapLoad 0x03
  if !s.tapOk then .next s
  else if s1.jtag.ir = 0x03 then .next { s1 with jtag := { s1.jtag with bsr := bits } } else .next s1

/-- CLAMP. -/
def execClamp (s : State) : Res := if s.tapOk then .next (s.tapLoad 0x08) else .next s
/-- HIGHZ. -/
def execHighz (s : State) : Res := if s.tapOk then .next (s.tapLoad 0x09) else .next s
/-- BYPASS; an encoding that is not listed selects the same register (R45). -/
def execBypass (s : State) : Res := if s.tapOk then .next (s.tapLoad 0xFF) else .next s

/-- What drives the package outputs: none the device itself, `some false` the boundary-scan register, `some true` nothing
(high impedance) (Table 02-7). -/
def State.pinsHeld (s : State) : Option Bool :=
  if s.jtag.ir = 0x00 ∨ s.jtag.ir = 0x08 then some false else if s.jtag.ir = 0x09 then some true else none

/-- R46-R48: the scan path from TDI to TDO: each SIB, which captures 1 when it is open (notes/assumptions/45.md), and behind an open one the
one bit of the wrapper in bypass, whose content the spec does not give. -/
def State.scanF : List Nat → State → List Bool × State
  | [], s => ([], s)
  | n :: t, s =>
    if bit s.jtag.sibs n then
      let (v, s1) := s.draw
      let (bs, s2) := State.scanF t s1
      (true :: v.getLsbD 0 :: bs, s2)
    else
      let (bs, s1) := State.scanF t s
      (false :: bs, s1)

/-- IJTAG_ACCESS: the end of the path at TDO leaves first. -/
def execIjtagAccess (s : State) : Res :=
  let s1 := s.tapLoad 0x20
  if !s.tapOk then .next s
  else if s1.jtag.ir = 0x20 then
    let (bs, s2) := State.scanF (List.range 8) s1
    .next (s2.send (.tdo bs.reverse))
  else .next s1

/-- DIE_SUMMARY: all zero before discovery step 8, which is what makes a die ACTIVE or EXCLUDED (R33). -/
def execDieSummary (s : State) : Res :=
  if s.tapOk then .next ((s.tapLoad 0x21).send (.tdo ((List.range 8).map fun d => decide ((s.die d).st = .active) || decide ((s.die d).st = .excluded))))
  else .next s

/-- SIB_UPDATE (R46, R49): Update-DR of the SIB chain; a segment that closes lets go of its die's common domain. -/
def execSibUpdate (sibs : Nat) (s : State) : Res :=
  if s.tapOk && decide (s.jtag.ir = 0x20) then
    .next { s with jtag := { s.jtag with sibs := sibs % 256 }, power := { s.power with testCom := s.power.testCom.filter fun d => bit sibs d } }
  else .next s

/-- DIE_COM_POWERED (R49): the common domain of a die that is off is powered while its SIB is open. -/
def execDieComPowered (die : Nat) (s : State) : Res :=
  if s.tapOk && bit s.jtag.sibs die && decide (die < 8) && !s.comOn die then
    .next { s with power := { s.power with testCom := s.power.testCom ++ [die] } }
  else .next s

end Sys2Proof.Machine
end

