-- ==== Sys2Proof/Machine/PolicyWin.lean ====
section
/-! DEFINITION. The policy window (R111-R118, Tables 04-16, 04-17 and 22-14): its registers, and the arrival of writes. -/
namespace Sys2Proof.Machine

/-- Table 22-14: the offset of a register. -/
def PolReg.off : PolReg → Nat
  | .fmThresh k => 4 * k | .fmWscale k => 0x40 + 4 * k | .refreshCap => 0x80 | .srMinIdle => 0x84 | .pgMinIdle => 0x88
  | .spillMaxK => 0x8C | .keepAwake => 0x90 | .keepLo => 0x90 | .keepHi => 0x94 | .hylEqHold => 0x98 | .fantailCtrl => 0x9C
  | .regionPolicy n => 0xA0 + 4 * n | .quotaTask v => 0x100 + 4 * v | .quotaBuf v => 0x200 + 4 * v | .quotaPage v => 0x300 + 4 * v
  | .quotaPen v => 0x400 + 4 * v | .qos v => 0x500 + 4 * v

/-- The 32-bit register at an offset. -/
def polRegAt (o : Nat) : Option PolReg :=
  if o % 4 ≠ 0 then none
  else if o < 0x28 then some (.fmThresh (o / 4))
  else if 0x40 ≤ o ∧ o < 0x68 then some (.fmWscale ((o - 0x40) / 4))
  else if o = 0x80 then some .refreshCap
  else if o = 0x84 then some .srMinIdle
  else if o = 0x88 then some .pgMinIdle
  else if o = 0x8C then some .spillMaxK
  else if o = 0x90 then some .keepLo
  else if o = 0x94 then some .keepHi
  else if o = 0x98 then some .hylEqHold
  else if o = 0x9C then some .fantailCtrl
  else if 0xA0 ≤ o ∧ o < 0xE0 then some (.regionPolicy ((o - 0xA0) / 4))
  else if 0x100 ≤ o ∧ o < 0x200 then some (.quotaTask ((o - 0x100) / 4))
  else if 0x200 ≤ o ∧ o < 0x300 then some (.quotaBuf ((o - 0x200) / 4))
  else if 0x300 ≤ o ∧ o < 0x400 then some (.quotaPage ((o - 0x300) / 4))
  else if 0x400 ≤ o ∧ o < 0x500 then some (.quotaPen ((o - 0x400) / 4))
  else if 0x500 ≤ o ∧ o < 0x600 then some (.qos ((o - 0x500) / 4))
  else none

/-- The bits of each register. -/
def PolReg.bits : PolReg → Nat
  | .fmThresh _ => 32 | .fmWscale _ => 8 | .refreshCap => 12 | .srMinIdle => 20 | .pgMinIdle => 24 | .spillMaxK => 17
  | .keepAwake => 64 | .keepLo => 32 | .keepHi => 32 | .hylEqHold => 8 | .fantailCtrl => 1 | .regionPolicy _ => 3
  | .quotaTask _ => 13 | .quotaBuf _ => 16 | .quotaPage _ => 27 | .quotaPen _ => 14 | .qos _ => 8

def Policy.get (p : Policy) : PolReg → Nat
  | .fmThresh k => p.fmThresh.getD k 0 | .fmWscale k => p.fmWscale.getD k 0
  | .refreshCap => p.refreshCap | .srMinIdle => p.srMinIdle | .pgMinIdle => p.pgMinIdle | .spillMaxK => p.spillMaxK
  | .keepAwake => p.keepAwake | .keepLo => p.keepAwake % 2 ^ 32 | .keepHi => p.keepAwake / 2 ^ 32
  | .hylEqHold => p.hylEqHold | .fantailCtrl => b2n p.fantailEnable | .regionPolicy n => p.regionPolicy.getD n 0
  | .quotaTask v => p.quotaTask.getD v 0 | .quotaBuf v => p.quotaBuf.getD v 0 | .quotaPage v => p.quotaPage.getD v 0
  | .quotaPen v => p.quotaPen.getD v 0 | .qos v => p.qos.getD v 0

def Policy.set (p : Policy) (r : PolReg) (x : Nat) : Policy :=
  match r with
  | .fmThresh k => { p with fmThresh := p.fmThresh.setD k 0 x }
  | .fmWscale k => { p with fmWscale := p.fmWscale.setD k 0 x }
  | .refreshCap => { p with refreshCap := x }
  | .srMinIdle => { p with srMinIdle := x }
  | .pgMinIdle => { p with pgMinIdle := x }
  | .spillMaxK => { p with spillMaxK := x }
  | .keepAwake => { p with keepAwake := x }
  | .keepLo => { p with keepAwake := p.keepAwake / 2 ^ 32 * 2 ^ 32 + x }
  | .keepHi => { p with keepAwake := p.keepAwake % 2 ^ 32 + x * 2 ^ 32 }
  | .hylEqHold => { p with hylEqHold := x }
  | .fantailCtrl => { p with fantailEnable := decide (x = 1) }
  | .regionPolicy n => { p with regionPolicy := p.regionPolicy.setD n 0 x }
  | .quotaTask v => { p with quotaTask := p.quotaTask.setD v 0 x }
  | .quotaBuf v => { p with quotaBuf := p.quotaBuf.setD v 0 x }
  | .quotaPage v => { p with quotaPage := p.quotaPage.setD v 0 x }
  | .quotaPen v => { p with quotaPen := p.quotaPen.setD v 0 x }
  | .qos v => { p with qos := p.qos.setD v 0 x }

/-- R166: no reserved encoding of CLASS or WEIGHT; bit 7 of the byte is 0. -/
def qosOk (x : Nat) : Bool := decide (x % 4 ≠ 3) && decide (1 ≤ x / 4) && decide (x / 4 ≤ 16)

/-- Table 04-17: the run-time range. -/
def State.polInRange (s : State) (r : PolReg) (x : Nat) : Bool :=
  let i := s.img.pol.get r
  match r with
  | .fmThresh _ => decide (1 ≤ x) && decide (x ≤ i)
  | .fmWscale _ => decide (i ≤ x) && decide (x ≤ 255)
  | .refreshCap => decide (975 ≤ x) && decide (x ≤ i)
  | .srMinIdle => decide (1 ≤ x) && decide (x ≤ 1000000)
  | .pgMinIdle => decide (10 ≤ x) && decide (x ≤ 10000000)
  | .spillMaxK => (List.range 11).any fun k => decide (x = 64 * 2 ^ k)
  | .hylEqHold => decide (x < 16) || bit s.devCaps 2
  | .quotaTask _ => decide (x ≤ 4096)
  | .quotaBuf _ => decide (x ≤ 65535)
  | .quotaPage _ => decide (x ≤ 67108864)
  | .quotaPen _ => decide (x ≤ 8192)
  | .qos _ => qosOk x
  | .keepAwake => true | .keepLo => true | .keepHi => true | .fantailCtrl => true | .regionPolicy _ => true

/-- The present slices as a mask. -/
def State.sliceMask (s : State) : Nat := packBits 64 fun n => s.inv.slices.contains n

/-- The value that a register reads. -/
def State.polRead (s : State) (r : PolReg) : Nat := s.pol.get r

/-- POLICY_STATUS (Table 04-16). -/
def State.polStatus (s : State) : Nat :=
  s.polq.doneSeq.toNat + b2n (s.polq.cur.isSome || !s.polq.queue.isEmpty) * 2 ^ 16 + s.polq.result * 2 ^ 17 + s.polq.queue.length * 2 ^ 19

/-- R112: a write waits in the queue of 16, or is held before it. -/
def State.polArrive (s : State) (w : PolWrite) : State :=
  let q := s.polq
  if q.queue.length < 16 ∧ q.held.isEmpty then { s with polq := { q with queue := q.queue ++ [w] } }
  else { s with polq := { q with held := q.held ++ [w] } }

/-- Held writes enter the queue as entries free. -/
def PolicyQ.refill (q : PolicyQ) : PolicyQ :=
  let n := 16 - q.queue.length
  { q with queue := q.queue ++ q.held.take n, held := q.held.drop n }

end Sys2Proof.Machine
end

