-- ==== Sys2Proof/Machine/Flags.lean ====
section
/-! DEFINITION. The status words that software reads whole: each field at its bits (Tables 02-4, 02-5, 03-4, 04-14, 05-2, 06-6, 06-7,
11-5, 11-6, 16-13, 17-4, 19-9, 20-2 to 20-4, 22-5 to 22-12). -/
namespace Sys2Proof.Machine

/-- One half of a 64-bit register: `hi` is the register at the higher address. -/
def half (x : Nat) (hi : Bool) : Nat := if hi then x / 2 ^ 32 % 2 ^ 32 else x % 2 ^ 32

/-- Table 02-6. -/
def DieSt.code : DieSt → Nat
  | .notRun => 0 | .absent => 1 | .linkFail => 2 | .idFail => 3 | .stackFail => 4 | .excluded => 5 | .active => 6 | .retired => 7

/-- DIE_ID_LO_n and DIE_ID_HI_n (Table 02-4, R34): the fields that IDENTITY_MESSAGE writes. -/
def Die.idLo (d : Die) : Nat := d.serial
def Die.idHi (d : Die) : Nat := d.rev + d.levelOffered * 2 ^ 8 + d.levelUsed * 2 ^ 16
/-- DIE_STATE_n (Table 02-5). -/
def Die.word (d : Die) : Nat := d.st.code + d.spareDn * 2 ^ 8 + d.spareUp * 2 ^ 13 + popCount 32 d.chFail * 2 ^ 18

/-- CLK_STATUS (Table 03-4). DESIGN CHOICE (notes/assumptions/52.md): STABLE_WAIT shows the return count of the anchor's reference, and
reads 0 while no reference is the anchor. -/
def State.clkStatus (s : State) : Nat :=
  let a := match s.anchor with | some r => s.refMon r | none => {}
  s.clk.source + b2n a.valid * 2 ^ 2 + b2n a.counting * 2 ^ 3
    + packBits 4 (fun n => (s.refMon n).valid && decide ((s.port n).refMode ≠ 2)) * 2 ^ 4
    + (if s.img.applied then s.img.device.anchorSel * 2 ^ 8 + b2n s.img.device.sscAllowed * 2 ^ 11 else 0) + b2n s.clk.quietFail * 2 ^ 12

/-- BOOT_STATUS and BOOT_REASON (Table 04-14, R105): all but FLASH_OK are written together. -/
def State.bootStatus (s : State) : Nat :=
  b2n s.boot.flashOk * 2 ^ 2 + (if s.boot.done then s.boot.selected + b2n s.boot.fallback * 2 ^ 3 + b2n s.boot.diesShort * 2 ^ 4 + 2 ^ 5 + (s.slot 2).code * 2 ^ 16 else 0)
def State.bootReason (s : State) : Nat := if s.boot.done then (s.slot 0).code + (s.slot 1).code * 2 ^ 16 else 0

/-- The image fingerprint (R101, R105). -/
def State.imageFp (s : State) : Nat := if s.boot.done ∧ !s.boot.noImage then s.boot.digest % 2 ^ 64 else 0

/-- PORT_STATUS_n (Table 05-2). -/
def CxlPort.word (x : CxlPort) : Nat :=
  x.link + x.rate * 2 ^ 2 + x.width * 2 ^ 5 + b2n x.mld * 2 ^ 7 + b2n x.cxlOk * 2 ^ 8 + b2n x.strapMismatch * 2 ^ 9
    + b2n x.ideIo * 2 ^ 10 + b2n x.ideMem * 2 ^ 11 + b2n x.surpriseDown * 2 ^ 12

/-- VD_STATE (Table 06-6). -/
def VdSt.code : VdSt → Nat
  | .notActive => 0 | .resetting => 1 | .ready => 2
def Vd.stateWord (x : Vd) : Nat := x.st.code + b2n x.resetSeen * 2 ^ 2 + x.lastReset * 2 ^ 4

/-- VD_ERR_STATUS (Table 06-7). -/
def ErrStatus.word (e : ErrStatus) : Nat :=
  b2n e.accessSize + b2n e.rsvdEnc * 2 + b2n e.unaligned * 4 + b2n e.liveWrite * 8 + b2n e.ringOverflow * 16 + b2n e.ringFault * 32
/-- Writing 1 to a bit clears it. -/
def ErrStatus.clear (e : ErrStatus) (w : Nat) : ErrStatus :=
  { accessSize := e.accessSize && !bit w 0, rsvdEnc := e.rsvdEnc && !bit w 1, unaligned := e.unaligned && !bit w 2,
    liveWrite := e.liveWrite && !bit w 3, ringOverflow := e.ringOverflow && !bit w 4, ringFault := e.ringFault && !bit w 5 }

/-- ERR_RING_CTRL (Table 22-15). -/
def ErrRing.ctrlWord (g : ErrRing) : Nat := g.sizeLog2 + b2n g.enable * 2 ^ 4 + g.vector * 2 ^ 8

/-- RING_CTRL_i and RING_STATUS_i (Tables 11-5, 11-6). -/
def Ring.ctrlWord (r : Ring) : Nat := r.sizeLog2 + b2n r.enable * 2 ^ 4 + r.vector * 2 ^ 8
def Ring.statusWord (r : Ring) : Nat :=
  b2n r.idle + b2n r.liveWrite * 2 + b2n r.badDoorbell * 4 + b2n r.ringFault * 8 + b2n r.cqFault * 16 + r.inFlight * 2 ^ 16
def Ring.clear (r : Ring) (w : Nat) : Ring :=
  { r with liveWrite := r.liveWrite && !bit w 1, badDoorbell := r.badDoorbell && !bit w 2, ringFault := r.ringFault && !bit w 3, cqFault := r.cqFault && !bit w 4 }

/-- HYL_STATUS_n (Table 16-13). -/
def HylPort.word (x : HylPort) : Nat :=
  let w := match popCount 8 x.active with | 2 => 1 | 4 => 2 | 8 => 3 | _ => 0
  x.st.code + w * 2 ^ 4 + x.active * 2 ^ 6 + x.retired * 2 ^ 14 + b2n x.reversed * 2 ^ 22 + b2n (decide (x.precodeRx ||| x.precodeTx ≠ 0)) * 2 ^ 23 + x.attempt * 2 ^ 24
    + (match x.peerPort with | some p => p % 8 * 2 ^ 26 + 2 ^ 29 | none => 0)

/-- POOL_STATUS (Table 17-4). -/
def State.poolStatus (s : State) : Nat :=
  s.pool.st.code + b2n s.pool.coord * 2 ^ 2 + b2n s.pool.aligned * 2 ^ 3 + s.pool.devnum % 128 * 2 ^ 4 + s.img.dims % 8 * 2 ^ 11
    + popCount 128 s.pool.members.toNat * 2 ^ 14

/-- FAULT_SUMMARY (Table 19-9). -/
def State.faultSummary (s : State) : Nat :=
  s.flt.spareLeft + b2n (!s.flt.retiring.isEmpty) * 2 ^ 4 + b2n (s.slices.any fun e => !e.2.lostSets.isEmpty) * 2 ^ 5 + b2n s.flt.singleCopy * 2 ^ 6
    + s.flt.chRetired.length * 2 ^ 7 + s.flt.bayRetired.length * 2 ^ 16

/-- GAUGE_CTRL_g (Table 20-4). -/
def Gauge.ctrlWord (g : Gauge) : Nat :=
  b2n g.enable + b2n g.oneShot * 2 + b2n g.pow2 * 4 + b2n g.poolClock * 8 + b2n g.done * 16 + b2n g.missed * 32 + b2n g.cfgIgnored * 64

/-- DEV_INFO (Table 22-5). -/
def State.devInfo (s : State) : Nat :=
  s.fuses.iodRev % 256 + s.hylPorts * 2 ^ 8 + (if s.fuses.prevGen then 4 else 5) * 2 ^ 12 + s.inv.maxPool * 2 ^ 16 + s.inv.level * 2 ^ 24

/-- INV_DIES and INV_COUNTS (Tables 22-7, 22-8). -/
def State.invDies (s : State) : Nat :=
  if s.inv.fixed then s.inv.active + s.inv.s * 2 ^ 8 + s.inv.minDies * 2 ^ 12 + s.inv.u * 2 ^ 16 else 0
def State.invCounts (s : State) : Nat := if s.inv.fixed then s.inv.n + 18 * s.inv.n * 2 ^ 7 + 128 * s.inv.n * 2 ^ 18 else 0

/-- RESET_CAUSE (Table 22-12). -/
def Boot.causeWord (b : Boot) : Nat := b.cause.toNat + b.last * 2 ^ 12

end Sys2Proof.Machine
end

