-- ==== Sys2Proof/Machine/Registers.lean ====
section
/-! DEFINITION. Register spaces (R569-R594): what each offset of management space and of a VD's window reads, the increase of a
counter that a gauge follows (R532), gauge programming (R534, R540-R542), and writes to the windows (R573-R577). -/
namespace Sys2Proof.Machine

/-! ### Reads of management space (Tables 22-2 to 22-19) -/

/-- An entry of a short list of registers, 4 bytes apart. -/
def regList (xs : List Nat) (o : Nat) : Option Nat := if o % 4 = 0 then xs[o / 4]? else none

/-- Table 22-4. -/
def State.identReg (s : State) (o : Nat) : Option Nat :=
  let serial := s.fuses.serial
  let cap := if s.inv.fixed then s.capacity else 0
  let sl := if s.inv.fixed then s.sliceMask else 0
  match o with
  | 0x00 => some (half serial false) | 0x04 => some (half serial true)
  | 0x08 => some s.idcode | 0x0C => some s.devInfo | 0x10 => some s.devCaps | 0x14 => some 0
  | 0x18 => some s.invDies | 0x1C => some s.invCounts
  | 0x20 => some (half sl false) | 0x24 => some (half sl true)
  | 0x28 => some (half cap false) | 0x2C => some (half cap true)
  | _ => if 0x40 ≤ o ∧ o < 0x60 then some (packBits 32 fun b => s.inv.chList.contains (32 * ((o - 0x40) / 4) + b)) else none

/-- Block 0x1000 of Table 22-13. -/
def State.bootReg (s : State) (o : Nat) : Option Nat :=
  let ret := packBits 64 fun n => (s.slice n).retired
  match o with
  | 0x00 => some s.bootStatus | 0x04 => some s.bootReason
  | 0x08 => some (half s.imageFp false) | 0x0C => some (half s.imageFp true)
  | 0x10 => some s.boot.causeWord | 0x14 => some s.mgmt.health | 0x18 => some s.faultSummary
  | 0x1C => some ((s.flt.logFirst + s.flt.log.length) % 2 ^ 32)
  | 0xF0 => some (half ret false) | 0xF4 => some (half ret true)
  | _ =>
    if 0x40 ≤ o ∧ o < 0x60 then some (packBits 32 fun b => s.flt.chRetired.contains (32 * ((o - 0x40) / 4) + b))
    else if 0x60 ≤ o ∧ o < 0xF0 then some (packBits 32 fun b => s.flt.bayRetired.contains (32 * ((o - 0x60) / 4) + b))
    else none

def State.clkReg (s : State) (o : Nat) : Option Nat :=
  match o with
  | 0x00 => some s.clkStatus | 0x04 => some s.clk.glitchCnt.toNat | 0x08 => some s.clk.lossCnt.toNat
  | 0x10 => some (half s.clk.holdover.toNat false) | 0x14 => some (half s.clk.holdover.toNat true)
  | 0x18 => some (half s.timeBase.toNat false) | 0x1C => some (half s.timeBase.toNat true)
  | _ => none

def State.dieReg (s : State) (n o : Nat) : Option Nat :=
  let d := s.die n
  match o with
  | 0x0 => some d.idLo | 0x4 => some d.idHi | 0x8 => some d.word | 0xC => some d.chFail | _ => none

def State.portReg (s : State) (n o : Nat) : Option Nat :=
  match o with
  | 0x00 => some (s.port n).word | 0x04 => some (s.port n).biStray.toNat | _ => none

/-- A port of HyhanLink; ports 4 to 7 of an FX288-A are undefined offsets (R443). -/
def State.hylReg (s : State) (n o : Nat) : Option Nat :=
  let x := s.hylPort n
  let serial := match x.hello with | some h => h.serial | none => 0
  if s.hylPorts ≤ n then none
  else
    match o with
    | 0x00 => some x.word | 0x04 => some (s.kindOf n) | 0x08 => some (half serial false) | 0x0C => some (half serial true)
    | _ =>
      if 0x10 ≤ o ∧ o < 0x30 then
        regList [x.crcErr.toNat, x.replay.toNat, x.stall.toNat, x.recovery.toNat, x.badFlit.toNat, x.tieYield.toNat, x.widthCnt.toNat, x.l1Cnt.toNat] (o - 0x10)
      else if 0x40 ≤ o ∧ o < 0x60 then some (x.fecSym.getD ((o - 0x40) / 4) 0).toNat
      else none

/-- POOL_OFFSET as a register: a signed 64-bit number. -/
def State.poolOffset (s : State) : Nat := (BitVec.ofInt 64 s.pool.offset).toNat

def State.poolReg (s : State) (o : Nat) : Option Nat :=
  match o with
  | 0x00 => some s.poolStatus
  | 0x20 => some (half s.poolOffset false) | 0x24 => some (half s.poolOffset true)
  | 0x28 => some (half s.poolTime false) | 0x2C => some (half s.poolTime true)
  | _ => if 0x10 ≤ o ∧ o < 0x20 then some (s.pool.members.toNat / 2 ^ (32 * ((o - 0x10) / 4)) % 2 ^ 32) else none

/-- The slice blocks of Table 22-18. -/
def State.sliceReg (s : State) (n o : Nat) : Option Nat :=
  let x := s.slice n
  if !s.inv.slices.contains n then none
  else if o < 0x14 then regList [x.mrFull.toNat, x.waitFull.toNat, x.redNan.toNat, x.redSat.toNat, x.memAtomic.toNat] o
  else if 0x20 ≤ o ∧ o < 0x34 then regList [x.dirRecall.toNat, x.dirStaleSnp.toNat, x.dirStaleWb.toNat, x.dirTimeout.toNat, x.lostSets.length] (o - 0x20)
  else if 0x40 ≤ o ∧ o < 0x60 then
    regList [x.runRetry.toNat, x.runExhaust.toNat, x.runSat.toNat, x.runFpOvf.toNat, x.runCvtSat.toNat, x.runNan.toNat, x.runSpill.toNat, x.runDrainWait.toNat] (o - 0x40)
  else none

/-- The records of a pool in a state (R247): those listed, and with them every index that has no record of its own. -/
def State.hopCount (s : State) (p : Nat) (st : HopState) : Nat :=
  let mine := s.hop.recs.filter fun e => decide (e.1 / 2 ^ 20 = p)
  (mine.filter fun e => decide (e.2.st = st)).length + (if s.hop.rest.st = st ∧ (s.hpool p).kind ≠ 0 then 2 ^ 20 - 1 - mine.length else 0)

/-- Table 22-19. -/
def State.devCounter (s : State) (o : Nat) : Option Nat :=
  let u := s.slu
  let p := s.pool
  let q := o % 0x40 / 4
  let f (n : Nat) : Flume := s.flume.getD n {}
  if o < 0x140 then
    if o / 0x40 = 0 then some (s.hop.allocCnt.getD q 0).toNat
    else if o / 0x40 = 1 then some (s.hop.freeCnt.getD q 0).toNat
    else if o / 0x40 = 2 then some (s.hop.noSpaceCnt.getD q 0).toNat
    else if o / 0x40 = 3 then some (s.hopCount q .live)
    else some (s.hopCount q .quarantine)
  else if 0x200 ≤ o ∧ o < 0x230 then
    regList [u.walkCnt.toNat, u.shootdown.toNat, u.firstTouch.toNat, u.quotaCnt.toNat, u.noSpaceCnt.toNat, u.localise.toNat, u.promote.toNat, u.demote.toNat,
             u.abandon.toNat, u.dwellSkip.toNat, u.noSlot.toNat, u.sampleDrop.toNat] (o - 0x200)
  else if 0x240 ≤ o ∧ o < 0x250 then some (u.loopTug.getD ((o - 0x240) / 4) 0).toNat
  else if 0x300 ≤ o ∧ o < 0x314 then
    regList [(s.pen.pens.filter fun e => decide (e.2.st = .leased)).length, (s.pen.regs.filter fun r => decide (r.place = .overflow)).length,
             s.pen.ovfWaitCnt.toNat, s.pen.abandonCnt.toNat, s.pen.dropCnt.toNat] (o - 0x300)
  else if 0x400 ≤ o ∧ o < 0x480 then
    let d := f (o % 0x20 / 4)
    if o < 0x420 then some d.slip.toNat else if o < 0x440 then some d.wait.toNat else if o < 0x460 then some d.runs.toNat else some d.ended.toNat
  else if 0x480 ≤ o ∧ o < 0x4A4 then some (s.races.getD ((o - 0x480) / 4) {}).low.toNat
  else if 0x500 ≤ o ∧ o < 0x520 then
    regList [p.unreachCnt.toNat, p.lostMsgCnt.toNat, p.timeoutCnt.toNat, p.deferredCnt.toNat, p.unconfirmedCnt.toNat, p.lostLineCnt.toNat, p.joinCnt.toNat, p.departCnt.toNat] (o - 0x500)
  else if 0x600 ≤ o ∧ o < 0x610 then regList [s.mgmt.drop.toNat, s.mgmt.evtLost.toNat, s.flt.logLost.toNat, s.flt.rowEvict.toNat] (o - 0x600)
  else none

/-- FM_ROW_c_j (R506). -/
def State.rowWord (s : State) (c j : Nat) : Nat :=
  let r := s.row (c * 16 + j)
  if r.used then r.level.toNat + r.r * 2 ^ 32 + r.bank * 2 ^ 47 else 0

/-- Instances of a meter class (R506). -/
def meterCount : Nat → Nat
  | 1 => 256 | 2 => 8 | 3 => 1152 | 4 => 64 | 5 => 8 | 6 => 64 | 7 => 4 | 8 => 64 | 9 => 8 | _ => 0

/-! ### Gauge blocks (Table 22-17) -/

/-- A gauge's registers as its clock stands now: windows that have ended are in its snapshot (R539). -/
def Gauge.reg (g : Gauge) (o : Nat) : Option Nat :=
  match o with
  | 0x00 => some g.ctrlWord | 0x04 => some g.src | 0x08 => some g.base | 0x0C => some g.step
  | 0x10 => some (half g.wstart false) | 0x14 => some (half g.wstart true) | 0x18 => some g.wlen | 0x1C => some g.period
  | 0x20 => some g.seq.toNat | 0x24 => some g.snap.count | 0x28 => some (b2n g.snap.sat + b2n g.snap.short * 2)
  | 0x30 => some (half g.snap.start false) | 0x34 => some (half g.snap.start true)
  | 0x38 => some (half g.snap.min false) | 0x3C => some (half g.snap.min true)
  | 0x40 => some (half g.snap.max false) | 0x44 => some (half g.snap.max true)
  | 0x48 => some (half g.snap.sum false) | 0x4C => some (half g.snap.sum true)
  | _ => if 0x80 ≤ o ∧ o < 0x100 then some (g.snap.bins.getD ((o - 0x80) / 4) 0) else none

/-- Up to when a gauge's windows have ended: a rate sample of `[t, t + PERIOD)` is still to come at `t + PERIOD`, so a rate gauge's
window closes after its last sample (R531, R536). -/
def State.gaugeEdge (s : State) (g : Gauge) : Nat := if gRate g.src then s.gaugeNow g - 1 else s.gaugeNow g

def State.gaugeReg (s : State) (n o : Nat) : Option Nat := ((s.gauge n).roll (s.gaugeEdge (s.gauge n))).reg o

/-! ### A VD's window (Tables 22-9, 22-15, 22-16) -/

/-- The policy block at an offset of its window. -/
def State.policyReg (s : State) (o : Nat) : Option Nat := if o = 0xE0 then some s.polStatus else (polRegAt o).map s.polRead

/-- The register at `0x20000 + x` of VD `v`. -/
def State.winReg (s : State) (v x : Nat) : Option Nat :=
  let d := s.vd v
  let ring (i : Nat) : Ring := s.ring v i
  if x % 4 ≠ 0 then none
  else if x < 0x100 then
    match x with
    | 0x00 => some (half s.fuses.serial false) | 0x04 => some (half s.fuses.serial true)
    | 0x08 => some s.devInfo | 0x10 => some s.devCaps | 0x14 => some 0
    | 0x18 => some (s.inv.n + (s.img.vds.getD v {}).streams * 2 ^ 7) | 0x1C => some (128 * s.inv.n)
    | 0x20 => some (half s.imageFp false) | 0x24 => some (half s.imageFp true)
    | 0x28 => some s.clkStatus | 0x2C => some s.poolStatus
    | 0x30 => some (half s.timeBase.toNat false) | 0x34 => some (half s.timeBase.toNat true)
    | 0x38 => some (half s.poolTime false) | 0x3C => some (half s.poolTime true)
    | 0x40 => if s.img.device.policyVd = v then some s.bootStatus else none
    | 0x44 => if s.img.device.policyVd = v then some s.bootReason else none
    | _ => none
  else if 0x1000 ≤ x ∧ x < 0x1100 then
    match x - 0x1000 with
    | 0x00 => some d.stateWord | 0x04 => some d.err.word | 0x08 => some 0 | 0x0C => some 0
    | 0x10 => some (half d.errRing.base.toNat false) | 0x14 => some (half d.errRing.base.toNat true)
    | 0x18 => some d.errRing.ctrlWord | 0x1C => some d.errRing.tail | 0x20 => some d.errRing.head | 0x24 => some d.errRing.lost.toNat
    | 0x40 => some d.useBuf | 0x44 => some d.staleCnt.toNat | 0x48 => some d.usePage | 0x4C => some d.tugCnt.toNat
    | 0x50 => some d.bind.length | 0x54 => some d.penDropCnt.toNat
    | _ => none
  else if 0x2000 ≤ x ∧ x < 0x2400 then
    let r := ring ((x - 0x2000) / 0x40)
    match x % 0x40 with
    | 0x00 => some r.ctrlWord | 0x04 => some r.statusWord
    | 0x08 => some (half r.base.toNat false) | 0x0C => some (half r.base.toNat true)
    | 0x10 => some (half r.cqBase.toNat false) | 0x14 => some (half r.cqBase.toNat true)
    | 0x18 => some r.head.toNat | 0x1C => some r.tail.toNat | 0x20 => some r.cqTail.toNat | 0x24 => some r.cqHead.toNat
    | _ => none
  else if 0x3000 ≤ x ∧ x < 0x3200 then s.gaugeReg (128 + 2 * v + (x - 0x3000) / 0x100) (x % 0x100)
  else if 0x4000 ≤ x ∧ x < 0x4600 then if s.img.device.policyVd = v then s.policyReg (x - 0x4000) else none
  else none

/-- The value that the window's register takes at a reset: what a read returns before Memory Active and during a VD reset (R174,
R577): the Cold column, with a field of the image at the image's value (R12). VD_INFO and VD_PEN_INFO keep theirs once they have it
(Table 22-9). -/
def State.winReset (s : State) (v x : Nat) : Option Nat :=
  (s.winReg v x).map fun y =>
    if x = 0x00 then half s.fuses.serial false
    else if x = 0x04 then half s.fuses.serial true
    else if x = 0x08 then s.devInfo % 2 ^ 15
    else if x = 0x18 ∨ x = 0x1C then (if s.boot.memActive then y else 0)
    else if x = 0x28 then 1 + (if s.img.applied then s.img.device.anchorSel * 2 ^ 8 + b2n s.img.device.sscAllowed * 2 ^ 11 else 0)
    else if x = 0x2C then s.img.dims % 8 * 2 ^ 11
    else if 0x2000 ≤ x ∧ x < 0x2400 ∧ x % 0x40 = 4 then 1
    else if 0x3000 ≤ x ∧ x < 0x3200 ∧ (x % 0x100 = 0x38 ∨ x % 0x100 = 0x3C) then 2 ^ 32 - 1
    else if 0x4000 ≤ x then (match polRegAt (x - 0x4000) with | some r => (s.imagePol s.img).get r | none => 0)
    else 0

/-- What a read of the window returns (R174, R577). -/
def State.winRead (s : State) (v x : Nat) : Nat :=
  ((if s.boot.memActive && decide ((s.vd v).st ≠ .resetting) then s.winReg v x
    else if s.boot.memActive && decide (x = 0x1000) then s.winReg v x
    else s.winReset v x).getD 0)

/-- What a host reads at an offset of a VD's register window, or of its doorbell window, which reads 0 (R300); none where the window does not
answer. -/
def State.hostRead (s : State) (v x : Nat) (door : Bool := false) : Option Nat :=
  match s.windowShut { vd := v, door := door, off := if door then x else 0x20000 + x } with
  | some _ => none
  | none => some (if door then 0 else s.winRead v x)

/-! ### Management space -/

/-- The 32-bit register at an offset of management space, and whether it is an event counter; none at an undefined offset. The
mirror is read through the window (R594). -/
def State.mgmtReg (s : State) (o : Nat) : Option Nat :=
  if o % 4 ≠ 0 then none
  else if o < 0x1000 then s.identReg o
  else if o < 0x2000 then s.bootReg (o - 0x1000)
  else if o < 0x3000 then s.clkReg (o - 0x2000)
  else if o < 0x3080 then s.dieReg ((o - 0x3000) / 16) (o % 16)
  else if 0x4000 ≤ o ∧ o < 0x5000 then s.policyReg (o - 0x4000)
  else if 0x5000 ≤ o ∧ o < 0x5100 then s.portReg ((o - 0x5000) / 0x40) (o % 0x40)
  else if 0x6000 ≤ o ∧ o < 0x6800 then s.hylReg ((o - 0x6000) / 0x100) (o % 0x100)
  else if 0x7000 ≤ o ∧ o < 0x7100 then s.poolReg (o - 0x7000)
  else if 0x8000 ≤ o ∧ o < 0x8100 then
    if s.vdExists ((o - 0x8000) / 4) then some (s.vd ((o - 0x8000) / 4)).epoch.toNat else none
  else if 0x8100 ≤ o ∧ o < 0x8200 then
    if s.vdExists ((o - 0x8100) / 4) then some (s.hop.misuse.getD ((o - 0x8100) / 4) 0).toNat else none
  else if 0x10000 ≤ o ∧ o < 0x14000 then s.sliceReg ((o - 0x10000) / 0x100) (o % 0x100)
  else if 0x20000 ≤ o ∧ o < 0x21000 then s.devCounter (o - 0x20000)
  else if 0x30000 ≤ o ∧ o < 0x30404 then some (s.slu.tug.getD ((o - 0x30000) / 4) 0).toNat
  else if 0x31000 ≤ o ∧ o < 0x31808 then some (half (s.slu.tugLast.getD ((o - 0x31000) / 8) 0).toNat (decide (o % 8 = 4)))
  else if 0x42000 ≤ o ∧ o < 0x54000 then
    let k := (o - 0x40000) / 0x2000
    let i := (o - 0x40000) % 0x2000 / 4
    if i < meterCount k then some (s.meter k i).level.toNat else none
  else if 0x60000 ≤ o ∧ o < 0x68000 then some (half (s.rowWord ((o - 0x60000) / 0x80) (o % 0x80 / 8)) (decide (o % 8 = 4)))
  else if 0x80000 ≤ o ∧ o < 0x90000 then
    let p := (o - 0x80000) / 8
    if s.inv.slices.contains (p / 128) then some (half (s.penWord p).toNat (decide (o % 8 = 4))) else none
  else if 0xA0000 ≤ o ∧ o < 0xA8000 then s.gaugeReg ((o - 0xA0000) / 0x100) (o % 0x100)
  else none

/-- R544: the offsets of event counters (SOURCE 0x40, R532). -/
def State.counterOff (s : State) (o : Nat) : Bool :=
  (s.mgmtReg o).isSome &&
    (decide (o = 0x2004) || decide (o = 0x2008) || (decide (0x5000 ≤ o) && decide (o < 0x5100) && decide (o % 0x40 = 4))
      || (decide (0x6000 ≤ o) && decide (o < 0x6800) && decide (0x10 ≤ o % 0x100)) || (decide (0x8100 ≤ o) && decide (o < 0x8200))
      || (decide (0x10000 ≤ o) && decide (o < 0x14000) && decide (o % 0x100 ≠ 0x30))
      || (decide (0x20000 ≤ o) && decide (o < 0x21000) && !((decide (0x200C0 ≤ o) && decide (o < 0x20140)) || decide (o = 0x20300) || decide (o = 0x20304)))
      || (decide (0x30000 ≤ o) && decide (o < 0x30404)))

/-- A mirror offset: the VD and the offset in its window. -/
def mirrorOf (o : Nat) : Option (Nat × Nat) :=
  if 0x400000 ≤ o ∧ o < 0x600000 ∧ (o - 0x400000) % 0x8000 < 0x4000 then some ((o - 0x400000) / 0x8000, (o - 0x400000) % 0x8000) else none

/-- A 32-bit management read (R551, R575, R594). -/
def State.mgmtRead (s : State) (o : Nat) : Nat :=
  match mirrorOf o with
  | some (v, x) => if s.vdExists v then s.winRead v x else 0
  | none => (s.mgmtReg o).getD 0

/-! ### Programming a gauge -/

/-- R530, Table 20-1: a source and instance that a gauge can select. -/
def State.srcOk (s : State) (n src : Nat) : Bool :=
  let view := (viewVd n).isSome
  let i := gInst src
  let slice := if view then decide (i < s.inv.n) else decide (i < 64)
  let port := if view then decide (i = 0) else decide (i < 4)
  let hyl := decide (i < s.hylPorts)
  match gSource src with
  | 0x00 => true
  | 0x01 => port | 0x02 => port | 0x13 => port | 0x23 => port
  | 0x03 => decide (i < 16) || decide (i = 255)
  | 0x04 => slice || decide (i = 255)
  | 0x05 => slice | 0x10 => slice | 0x11 => slice | 0x21 => slice
  | 0x06 => decide (i < 128) || decide (i = 255)
  | 0x07 => decide (i = 255) | 0x12 => decide (i = 255) | 0x14 => decide (i = 255) | 0x15 => decide (i = 255)
  | 0x16 => decide (i < 8)
  | 0x08 => !view && slice
  | 0x20 => !view
  | 0x22 => !view && hyl | 0x32 => !view && hyl
  | 0x30 => !view && decide (i = 255)
  | 0x31 => !view && decide (i < 8)
  | 0x40 => !view && s.counterOff (src / 256 * 4)
  | _ => false

/-- GAUGE_SRC: SOURCE and INST are taken together or not at all; VD and VD_ALL act, and views have no VD_ALL (Table 20-2). A source
0x40 that is refused is the whole word's, whose upper bits are its offset. -/
def State.gaugeSrc (s : State) (n w : Nat) : Nat × Bool :=
  let old := (s.gauge n).src
  let view := (viewVd n).isSome
  let w1 := if view then w % 2 ^ 22 else if gSource w = 0x40 then w % 2 ^ 32 else w % 2 ^ 23
  if s.srcOk n w1 then (w1, true)
  else if gSource old = 0x40 ∨ (gSource w = 0x40 ∧ !view) then (old, false)
  else (old % 2 ^ 16 + w1 / 2 ^ 16 * 2 ^ 16, false)

/-- A configuration register of a gauge; false when a reserved encoding was written (R11, R540). `wide` writes the WSTART pair. Any other
offset of the block holds read-only registers or none (R8). -/
def State.gaugeConfig (s : State) (n o w : Nat) (wide : Bool) : State × Bool :=
  let s0 := s.modGauge n fun g => g.roll (s.gaugeEdge g)
  let g := s0.gauge n
  if !([0x04, 0x08, 0x0C, 0x10, 0x14, 0x18, 0x1C].contains o) then (s, true)
  else if g.enable then (s0.modGauge n fun g => { g with cfgIgnored := true }, true)
  else
    let x := w % 2 ^ 32
    match o with
    | 0x04 => (s0.modGauge n fun g => { g with src := (s0.gaugeSrc n x).1 }, (s0.gaugeSrc n x).2)
    | 0x08 => (s0.modGauge n fun g => { g with base := x }, true)
    | 0x0C => (s0.modGauge n fun g => { g with step := x }, true)
    | 0x10 => (s0.modGauge n fun g => { g with wstart := if wide then w % 2 ^ 64 else g.wstart / 2 ^ 32 * 2 ^ 32 + x }, true)
    | 0x14 => (s0.modGauge n fun g => { g with wstart := g.wstart % 2 ^ 32 + x * 2 ^ 32 }, true)
    | 0x18 => (s0.modGauge n fun g => { g with wlen := x }, true)
    | 0x1C => (s0.modGauge n fun g => { g with period := x }, true)
    | _ => (s, true)

/-- GAUGE_CTRL (R534, R540, R541); false when the setting is refused. -/
def State.gaugeCtrl (s : State) (n w : Nat) : State × Bool :=
  let s0 := s.modGauge n fun g => g.roll (s.gaugeEdge g)
  let g := s0.gauge n
  let modes (g : Gauge) : Gauge := { g with oneShot := bit w 1, pow2 := bit w 2, poolClock := bit w 3 }
  let g1 := { g with cfgIgnored := g.cfgIgnored && !bit w 6 }
  if g.enable then
    let g2 := if modes g = g then g1 else { g1 with cfgIgnored := true }
    (s0.modGauge n fun _ => if bit w 0 then g2 else { g2 with enable := false, cur := {} }, true)
  else
    let g2 := modes g1
    if !bit w 0 then (s0.modGauge n fun _ => g2, true)
    else if g2.settingOk then (s0.modGauge n fun _ => g2.start (s0.gaugeNow g2), true)
    else (s0.modGauge n fun _ => g2, false)

/-! ### Writes to a window -/

/-- A gauge write of a view: a reserved encoding sets RSVD_ENC. -/
def State.viewWrite (_ : State) (v : Nat) (r : State × Bool) : State := if r.2 then r.1 else State.rsvdEnc r.1 v

/-- One 32-bit write of a register of the window at `0x20000 + x`. -/
def State.winWrite32 (s : State) (v x w : Nat) : State :=
  if x = 0x1000 then (if bit w 2 then s.modVd v fun d => { d with resetSeen := false } else s)
  else if x = 0x1004 then s.modVd v fun d => { d with err := d.err.clear w }
  else if x = 0x1008 ∨ x = 0x100C then s.modVd v fun d => { d with err := { d.err with accessSize := true } }
  else if x = 0x1010 then s.errBase v false w
  else if x = 0x1014 then s.errBase v true w
  else if x = 0x1018 then s.errCtrl v w
  else if x = 0x1020 then s.errHead v w
  else if 0x2000 ≤ x ∧ x < 0x2400 then
    let i := (x - 0x2000) / 0x40
    match x % 0x40 with
    | 0x00 => s.ringCtrl v i (BitVec.ofNat 32 w)
    | 0x04 => s.modRing v i fun r => r.clear w
    | 0x08 => s.ringBase v i 0 (BitVec.ofNat 32 w)
    | 0x0C => s.ringBase v i 1 (BitVec.ofNat 32 w)
    | 0x10 => s.ringBase v i 2 (BitVec.ofNat 32 w)
    | 0x14 => s.ringBase v i 3 (BitVec.ofNat 32 w)
    | _ => s
  else if 0x3000 ≤ x ∧ x < 0x3200 then
    let n := 128 + 2 * v + (x - 0x3000) / 0x100
    s.viewWrite v (if x % 0x100 = 0 then s.gaugeCtrl n w else s.gaugeConfig n (x % 0x100) w false)
  else if 0x4000 ≤ x ∧ x < 0x4600 ∧ s.img.device.policyVd = v then
    match polRegAt (x - 0x4000) with
    | some r => s.polArrive { reg := r, val := w % 2 ^ r.bits, vd := some v }
    | none => s
  else s

/-- One aligned 64-bit write: CANCEL and the pairs are one register (R299, R572). -/
def State.winWrite64 (s : State) (v x w : Nat) : State :=
  let lo := w % 2 ^ 32
  let hi := w / 2 ^ 32
  if x = 0x1008 then s.cancelWrite v (BitVec.ofNat 64 w)
  else if x = 0x1010 then
    if (s.vd v).errRing.enable then s.errBase v false lo else (s.errBase v false lo).errBase v true hi
  else if 0x2000 ≤ x ∧ x < 0x2400 ∧ (x % 0x40 = 0x08 ∨ x % 0x40 = 0x10) then
    let i := (x - 0x2000) / 0x40
    let r := s.ring v i
    let k := if x % 0x40 = 0x08 then 0 else 2
    if r.enable || !r.idle then s.ringBase v i k 0 else (s.ringBase v i k (BitVec.ofNat 32 lo)).ringBase v i (k + 1) (BitVec.ofNat 32 hi)
  else if 0x3000 ≤ x ∧ x < 0x3200 ∧ x % 0x100 = 0x10 then s.viewWrite v (s.gaugeConfig (128 + 2 * v + (x - 0x3000) / 0x100) 0x10 w true)
  else if x = 0x4090 ∧ s.img.device.policyVd = v then s.polArrive { reg := .keepAwake, val := w, vd := some v }
  else (s.winWrite32 v x lo).winWrite32 v (x + 4) hi

/-- A register of a doorbell window at an offset (R570). -/
def doorReg (o : Nat) : Option (Nat × Bool) :=
  if o < 0x10000 ∧ o % 0x1000 = 0 then some (o / 0x1000, false)
  else if o < 0x10000 ∧ o % 0x1000 = 8 then some (o / 0x1000, true)
  else none

/-- The bytes that an access enables: their first offset and their number; none when they are not contiguous. -/
def Mmio.span (m : Mmio) : Option (Nat × Nat) :=
  let on := (List.range m.len).filter (bit m.be)
  match on with
  | [] => some (m.off, 0)
  | f :: _ => if on = (List.range on.length).map (· + f) then some (m.off + f, on.length) else none

/-- Table 22-3, first row: the access is refused. -/
def Mmio.bad (m : Mmio) : Bool :=
  decide (8 < m.len) || (match m.span with
    | none => true
    | some (o, n) => if n = 0 then decide (m.len ≠ 4) else !([1, 2, 4, 8].contains n && decide (o % n = 0)))

/-- An access that completes with Unsupported Request: its record, and UNALIGNED while the VD is READY (R573, R577). R150 applies first. -/
def State.refuseAccess (s : State) (m : Mmio) : State :=
  match s.windowShut m with
  | some s1 => s1
  | none =>
    let s1 := (s.unsupported m).post { cls := .protocol, vd := m.vd, addr := m.off }
    if (s1.vd m.vd).st = .ready then s1.modVd m.vd fun d => { d with err := { d.err with unaligned := true } } else s1

/-- A write that the window takes, by the rows of Table 22-3. -/
def State.applyWrite (s : State) (m : Mmio) : State :=
  match m.span with
  | none => s
  | some (o, n) =>
    let w := m.val / 256 ^ (o - m.off) % 256 ^ n
    let narrow (s : State) : State := s.modVd m.vd fun d => { d with err := { d.err with accessSize := true } }
    if n = 0 then s
    else if m.door then
      match doorReg (o / 4 * 4) with
      | none => s
      | some (i, cq) =>
        if n < 4 then narrow s
        else if cq then s.cqDb m.vd i (BitVec.ofNat 32 w) else s.ringDb m.vd i (BitVec.ofNat 32 w)
    else if o < 0x20000 ∨ 0x30000 ≤ o then s
    else if n < 4 then if (s.winReg m.vd (o / 4 * 4 - 0x20000)).isSome then narrow s else s
    else if n = 4 then s.winWrite32 m.vd (o - 0x20000) w
    else s.winWrite64 m.vd (o - 0x20000) w

/-- R137: a decoder is written and committed, or fails its commit. -/
def State.commitDecoder (s : State) (v i base len ways gran : Nat) (bi : Bool) : State :=
  let ok := [1, 2, 4, 8, 16].contains ways && [256, 512, 1024, 2048, 4096, 8192, 16384].contains gran
  let b := bi && (s.img.ports.getD (v / 16) {}).hdmDbAllowed
  s.modVd v fun d => { d with decoders := d.decoders.setD i {} { base := base, len := len, ways := ways, gran := gran, bi := b, committed := ok, error := !ok } }

/-! ### Rows -/

/-- The port's CXL.io streams that are secure change; IDE_IO_ACTIVE says whether one is. -/
def CxlPort.ioStreams (x : CxlPort) (xs : List Nat) : CxlPort := { x with ideStreams := xs, ideIo := !xs.isEmpty }

/-- GAUGE_CTRL_WRITE (R540, R541): a management gauge, or a view through its VD's window. -/
def execGaugeCtrlWrite (gauge : Nat) (value : Word) (s : State) : Res :=
  match viewVd gauge with
  | none => .next (s.gaugeCtrl gauge value.toNat).1
  | some v =>
    if 256 ≤ gauge then .next s
    else .next (s.winWrite { vd := v, off := 0x23000 + 0x100 * (gauge % 2), val := value.toNat } fun s => s.viewWrite v (s.gaugeCtrl gauge value.toNat))

/-- GAUGE_CONFIG_WRITE (R540): the register at an offset of the gauge's block; `wide` is a 64-bit write of WSTART. -/
def execGaugeConfigWrite (gauge off : Nat) (wide : Bool) (value : DWord) (s : State) : Res :=
  match viewVd gauge with
  | none => .next (s.gaugeConfig gauge off value.toNat wide).1
  | some v =>
    if 256 ≤ gauge then .next s
    else .next (s.winWrite { vd := v, off := 0x23000 + 0x100 * (gauge % 2) + off, len := if wide then 8 else 4, val := value.toNat }
      fun s => s.viewWrite v (s.gaugeConfig gauge off value.toNat wide))

/-- GAUGE_WINDOW_END (R539). -/
def execGaugeWindowEnd (gauge : Nat) (s : State) : Res := .next (s.modGauge gauge fun g => g.roll (s.gaugeEdge g))

/-- A level source's value at an instance (Table 20-1). -/
def State.gaugeLevel (s : State) (n : Nat) (g : Gauge) : Nat :=
  let i := s.gaugeInst n g
  let mine (v : Nat) : Bool := g.wants n (some v)
  match gSource g.src with
  | 0x10 => ((s.slice i).miss.filter fun m => mine m.2.vd).length
  | 0x11 => (s.slice i).miss.foldl (fun a m => a + (m.2.waiters.filter fun r => mine r.share).length) 0
  | 0x12 => (List.range 64).foldl (fun a v => if mine v then a + s.useTask v else a) 0
  | 0x13 => ((s.port i).outst.filter fun o => mine o.vd).length
  | 0x14 => (s.pool.remote.filter fun r => mine r.who.vd).length
  | 0x15 => (s.pen.regs.filter fun r => decide (r.place = .overflow) && mine r.vd).length
  | 0x16 => ((s.die i).temp + 64) * 8
  | _ => 0

/-- GAUGE_SAMPLE_INSTANT (R531, R536): a level is the state's; `units` is what a rate source counted since the last instant, but
for the increase of a counter, which is the state's too. -/
def execGaugeSampleInstant (gauge units : Nat) (s : State) : Res :=
  let g := s.gauge gauge
  let t := s.gaugeNow g
  if !g.enable || decide (g.period = 0) || decide (((t : Int) - g.wstart) % g.period ≠ 0) then .next s
  else if gLevel g.src then .next (s.modGauge gauge fun g => g.capture t (s.gaugeLevel gauge g))
  else if gRate g.src then
    let cnt := if gSource g.src = 0x40 then s.mgmtRead (g.src / 256 * 4) else 0
    let v := if gSource g.src = 0x40 then (cnt + 2 ^ 32 - g.last) % 2 ^ 32 else units
    .next (s.modGauge gauge fun g => { (if g.period ≤ t then g.capture (t - g.period) v else g) with last := cnt })
  else .next s

end Sys2Proof.Machine
end

