-- ==== Sys2Proof/Machine/Mailbox.lean ====
section
/-! DEFINITION. Dynamic capacity (R131-R133), the FM API (R130, R559) and the mailbox of each LD (R146, R148). -/
namespace Sys2Proof.Machine

/-! ### Extents -/

/-- R131: 2 MiB aligned and long, inside one region. -/
def extentOk (e : Nat × Nat) : Bool :=
  decide (0 < e.2) && decide (e.1 % 2097152 = 0) && decide (e.2 % 2097152 = 0) && decide (e.1 + e.2 ≤ 2 ^ 42)
    && decide (e.1 / 2 ^ 39 = (e.1 + e.2 - 1) / 2 ^ 39)

def extOverlap (a b : Nat × Nat) : Bool := decide (a.1 < b.1 + b.2) && decide (b.1 < a.1 + a.2)

/-- No two extents of a list overlap. -/
def extDisjoint : List (Nat × Nat) → Bool
  | [] => true
  | e :: t => !t.any (extOverlap e) && extDisjoint t

/-- The bytes of `e` that a list of extDisjoint extents covers. -/
def covered (xs : List (Nat × Nat)) (e : Nat × Nat) : Nat :=
  xs.foldl (fun a x => a + (min (x.1 + x.2) (e.1 + e.2) - max x.1 e.1)) 0

/-- A list of extents with a range cut out. -/
def cutExtents (xs : List (Nat × Nat)) (e : Nat × Nat) : List (Nat × Nat) :=
  xs.flatMap fun x =>
    if !extOverlap x e then [x]
    else (if x.1 < e.1 then [(x.1, e.1 - x.1)] else []) ++ (if e.1 + e.2 < x.1 + x.2 then [(e.1 + e.2, x.1 + x.2 - (e.1 + e.2))] else [])

/-- Accepted and offered extents of a VD. -/
def Vd.allExtents (x : Vd) : List (Nat × Nat) := x.extents ++ x.offers.map fun o => (o.1, o.2.1)

/-- R132: what an Add answers. DESIGN CHOICE (notes/assumptions/52.md): one that lists no extent is Invalid Input. -/
def State.addCheck (s : State) (v : Nat) (xs : List (Nat × Nat)) (shared : Bool) : RetCode :=
  let mine := (s.vd v).allExtents ++ xs
  if !s.vdExists v || shared || xs.isEmpty || !xs.all extentOk || !extDisjoint mine || decide (256 < mine.length) then .invalidInput
  else if s.capacity < xs.foldl (fun a e => a + e.2) s.exposedBytes then .resourcesExhausted
  else .success

/-- R132: extents are offered to the VD's host, with their events. -/
def State.offerExtents (s : State) (v : Nat) (xs : List (Nat × Nat)) : State :=
  let s1 := s.modVd v fun x => { x with offers := x.offers ++ xs.map fun e => (e.1, e.2, s.now) }
  xs.foldl (fun s e => s.event v 4 { kind := .dynamicCapacity, ty := .offered, dpa := e.1, len := e.2 }) s1

/-- Ranges that lie in accepted extents, and whose release leaves no more extents than R131 allows. -/
def State.releaseCheck (s : State) (v : Nat) (xs : List (Nat × Nat)) : RetCode :=
  let x := s.vd v
  if xs.isEmpty || !xs.all extentOk || !extDisjoint xs || !xs.all fun e => decide (covered x.extents e = e.2) then .invalidInput
  else if 256 < (xs.foldl cutExtents x.extents).length + x.offers.length then .resourcesExhausted
  else .success

/-- R133: released ranges leave the accepted extents, and their pages are freed. -/
def State.dropExtents (s : State) (v : Nat) (ty : EvType) (xs : List (Nat × Nat)) : State :=
  xs.foldl (fun s e =>
    ((s.modVd v fun x => { x with extents := cutExtents x.extents e }).releaseExtent v e.1 e.2).event v 4
      { kind := .dynamicCapacity, ty := ty, dpa := e.1, len := e.2 }) s

/-- R132: an offer is withdrawn; its capacity returns. -/
def State.withdrawOffer (s : State) (v : Nat) (o : Nat × Nat × Nat) : State :=
  (s.modVd v fun x => { x with offers := x.offers.erase o }).event v 4 { kind := .dynamicCapacity, ty := .withdrawn, dpa := o.1, len := o.2.1 }

/-- EXTENT_OFFER_TIMEOUT (R132): the offer of the VD that starts at `base`. -/
def execExtentOfferTimeout (vd base : Nat) (s : State) : Res :=
  match (s.vd vd).offers.find? fun o => decide (o.1 = base) with
  | some o => .next (s.withdrawOffer vd o)
  | none => .next s

/-! ### The FM API (Table 05-4) -/

/-- The request is served: from power-up step 2 on (R549) it is at the front of the buffers and not under way, of an MCTP type, plain
or secured (R548). -/
def State.served (s : State) (h : MctpHdr) (ty : Nat) : Bool :=
  s.board.pwrOk && decide (2 ≤ s.boot.step) && decide (s.mgmt.bufs.head? = some h) && !s.mgmt.busy && (decide (h.ty = ty) || (decide (h.ty = 6) && h.secured))

/-- An FM API request is answered over the binding that carried it; over PCIe it is addressed to the FM-owned LD (R559), and the
answer frees its buffer. -/
def State.fmServe (s : State) (h : MctpHdr) (op : Nat) (f : State → RetCode × List Nat × State) : State :=
  if !s.served h 7 then s
  else if h.port.isSome && !h.fm then s.mgmtFree h
  else match f s with | (rc, vals, s1) => (s1.mgmtFree h).send (.fm h op rc vals)

/-- A command that only reports. -/
def State.fmTell (s : State) (h : MctpHdr) (op : Nat) (vals : List Nat) : State := s.fmServe h op fun s => (.success, vals, s)

/-- The LDs of a port. -/
def State.ldsOf (s : State) (p : Nat) : List Nat := (List.range 16).filter fun l => s.vdExists (16 * p + l)

/-- R38: the device capacity, once the inventory is fixed. -/
def State.totalCapacity (s : State) : Nat := if s.inv.fixed then s.capacity else 0

/-- GET_LD_INFO: the capacity of R38 and the LD count of a port. -/
def execGetLdInfo (h : MctpHdr) (port : Nat) (s : State) : Res := .next (s.fmTell h 0x5400 [s.totalCapacity, (s.ldsOf port).length])

/-- GET_LD_ALLOCATIONS: each LD's accepted total. -/
def execGetLdAllocations (h : MctpHdr) (port : Nat) (s : State) : Res :=
  .next (s.fmTell h 0x5401 ((s.ldsOf port).map fun l => (s.vd (16 * port + l)).accepted))

/-- SET_LD_ALLOCATIONS. -/
def execSetLdAllocations (h : MctpHdr) (s : State) : Res := .next (s.fmServe h 0x5402 fun s => (.unsupported, [], s))

/-- GET_QOS_CONTROL: VD_QOS_v of each LD. -/
def execGetQosControl (h : MctpHdr) (port : Nat) (s : State) : Res :=
  .next (s.fmTell h 0x5403 ((s.ldsOf port).map fun l => s.pol.get (.qos (16 * port + l))))

/-- SET_QOS_CONTROL. -/
def execSetQosControl (h : MctpHdr) (s : State) : Res := .next (s.fmServe h 0x5404 fun s => (.unsupported, [], s))

/-- GET_QOS_STATUS: the port's DevLoad. -/
def execGetQosStatus (h : MctpHdr) (port : Nat) (s : State) : Res := .next (s.fmTell h 0x5405 [(s.port port).devLoad])

/-- GET_QOS_ALLOCATED_BW: each LD's weight share in 1/256 units, rounded down (notes/assumptions/23.md). -/
def execGetQosAllocatedBw (h : MctpHdr) (port : Nat) (s : State) : Res :=
  let w (l : Nat) : Nat := s.qosWeight (16 * port + l)
  let sum := (s.ldsOf port).foldl (fun a l => a + w l) 0
  .next (s.fmTell h 0x5406 ((s.ldsOf port).map fun l => 256 * w l / sum))

/-- GET_DCD_INFO: 8 regions, the block size and the capacity of R38. -/
def execGetDcdInfo (h : MctpHdr) (s : State) : Res := .next (s.fmTell h 0x5600 [8, 2097152, s.totalCapacity])

/-- R131: base, length and block size of the eight regions. -/
def dcRegions : List Nat := (List.range 8).flatMap fun r => [r * 2 ^ 39, 2 ^ 39, 2097152]

/-- GET_HOST_DC_REGION_CONFIGURATION. -/
def execGetHostDcRegionConfiguration (h : MctpHdr) (vd : Nat) (s : State) : Res :=
  .next (s.fmServe h 0x5601 fun s => if s.vdExists vd then (.success, dcRegions, s) else (.invalidInput, [], s))

/-- SET_DC_REGION_CONFIGURATION: accepted only where the values equal the fixed region. -/
def execSetDcRegionConfiguration (h : MctpHdr) (vd region base len block : Nat) (s : State) : Res :=
  .next (s.fmServe h 0x5602 fun s =>
    (if s.vdExists vd && decide (region < 8) && decide ([base, len, block] = [region * 2 ^ 39, 2 ^ 39, 2097152]) then .success else .invalidInput, [], s))

/-- The accepted extents and the pending ones, each a count and its bases and lengths. -/
def Vd.extentList (x : Vd) : List Nat :=
  x.extents.length :: (x.extents.flatMap fun e => [e.1, e.2]) ++ x.offers.length :: x.offers.flatMap fun o => [o.1, o.2.1]

/-- GET_DC_REGION_EXTENT_LISTS. -/
def execGetDcRegionExtentLists (h : MctpHdr) (vd : Nat) (s : State) : Res :=
  .next (s.fmServe h 0x5603 fun s => if s.vdExists vd then (.success, (s.vd vd).extentList, s) else (.invalidInput, [], s))

/-- INITIATE_DYNAMIC_CAPACITY_ADD (R131, R132): `shared` stands for sharing attributes or a shared sequence that is not zero. -/
def execInitiateDynamicCapacityAdd (h : MctpHdr) (vd : Nat) (extents : List (Nat × Nat)) (shared : Bool) (s : State) : Res :=
  .next (s.fmServe h 0x5604 fun s =>
    match s.addCheck vd extents shared with
    | .success => (.success, [], s.offerExtents vd extents)
    | rc => (rc, [], s))

/-- INITIATE_DYNAMIC_CAPACITY_RELEASE (R133). -/
def execInitiateDynamicCapacityRelease (h : MctpHdr) (vd : Nat) (extents : List (Nat × Nat)) (forced : Bool) (pick : Nat) (s : State) : Res :=
  .next (s.orWait pick fun s => s.fmServe h 0x5605 fun s =>
    if !s.vdExists vd then (.invalidInput, [], s)
    else match s.releaseCheck vd extents with
      | .success =>
        (.success, [], if forced then s.dropExtents vd .forcedRelease extents
          else extents.foldl (fun s e => s.event vd 4 { kind := .dynamicCapacity, ty := .releaseRequested, dpa := e.1, len := e.2 }) s)
      | rc => (rc, [], s))

/-- FM_API_UNSUPPORTED (R130): any opcode that Table 05-4 does not list. -/
def execFmApiUnsupported (h : MctpHdr) (op : Nat) (s : State) : Res :=
  if [0x5400, 0x5401, 0x5402, 0x5403, 0x5404, 0x5405, 0x5406, 0x5600, 0x5601, 0x5602, 0x5603, 0x5604, 0x5605].contains op then .next s
  else .next (s.fmServe h op fun s => (.unsupported, [], s))

/-! ### The mailbox -/

/-- A host reaches the mailbox of an LD through its window: its port is up and the LD exposed, LD 0 before the image (Table 05-10), and
CXL.io IDE is active where the image asks for it (R150). -/
def State.mbReach (s : State) (v : Nat) : Bool := decide (v < 64) && (s.windowShut { vd := v, off := 0 }).isNone

/-- A mailbox that is not reached is a window access refused. The mailbox reports busy in a warm reset, and until the image is applied but for `early` commands (R68, R154). -/
def State.mbServe (s : State) (v op : Nat) (early : Bool) (f : State → RetCode × List Nat × State) : State :=
  if !s.mbReach v then (if v < 64 then (s.windowShut { vd := v, off := 0 }).getD s else s)
  else if s.boot.warm ≠ 0 ∨ (!early ∧ !s.boot.memActive ∧ !s.boot.neverActive) then s.send (.mb v op .busy [])
  else match f s with | (rc, vals, s1) => s1.send (.mb v op rc vals)

def State.mbTell (s : State) (v op : Nat) (early : Bool) (vals : List Nat) : State := s.mbServe v op early fun s => (.success, vals, s)

/-- The opcodes of Table 05-8. -/
def BgKind.opcode : BgKind → Nat
  | .scan => 0x4304 | .sanitize => 0x4400 | .erase => 0x4401

def EvKind.code : EvKind → Nat
  | .generalMedia => 0 | .dram => 1 | .memoryModule => 2 | .dynamicCapacity => 3
def EvType.code : EvType → Nat
  | .mediaEcc => 0 | .dataPath => 1 | .invalidAddress => 2 | .maintenanceCleared => 3 | .channelRetired => 4 | .mediaStatusChange => 5
  | .temperatureChange => 6 | .offered => 7 | .releaseRequested => 8 | .released => 9 | .forcedRelease => 10 | .withdrawn => 11

/-- A record as the numbers of its fields (notes/assumptions/23.md). -/
def EvRec.vals (r : EvRec) : List Nat := [r.handle, r.kind.code, r.ty.code, r.trans, r.dpa, r.len, b2n r.quota, r.time]

/-- The opcodes of Table 05-8: the Command Effects Log names them. -/
def mbOpcodes : List Nat :=
  [0x0001, 0x0002, 0x0100, 0x0101, 0x0102, 0x0103, 0x0300, 0x0301, 0x0400, 0x0401, 0x4000, 0x4200, 0x4201, 0x4202, 0x4300, 0x4301, 0x4302,
   0x4303, 0x4304, 0x4305, 0x4400, 0x4401, 0x4800, 0x4801, 0x4802, 0x4803]

/-- The highest stack temperature (R78). -/
def State.hottest (s : State) : Nat := s.activeDies.foldl (fun a d => max a (s.die d).temp) 0

/-- R154, R155: media status: 0 Not Ready, 1 Ready, 2 Error. -/
def State.mediaStatus (s : State) : Nat := if s.boot.memActive then 1 else if s.boot.neverActive then 2 else 0

/-- R145: the poisoned 64-byte halves of a VD's touched pages on this device, ascending, from `lo` to below `hi`. -/
def State.poisonList (s : State) (v lo hi : Nat) : List Nat :=
  (s.slu.pt.filter fun e => decide (e.1 / 2 ^ 26 = v) && decide (gfDev e.2.gframe = s.pool.devnum) && decide (e.2.kind ≠ .foreign) && decide (e.2.kind ≠ .revoked)).flatMap fun e =>
    let dpa (i : Nat) : Nat := e.1 % 2 ^ 26 * 65536 + 64 * i
    ((List.range (1024 * pageFrames e.2.big)).filter fun i =>
      decide (lo ≤ dpa i) && decide (dpa i < hi) &&
        (let gl := e.2.gframe * 512 + i / 2
         ((s.lineNow (s.sliceOf gl) gl).2 &&& BitVec.ofNat 4 (3 * 4 ^ (i % 2))) != 0)).map dpa

/-- 64 bytes of a VD are written with their poison; the page is touched (R273). Without `data` they keep their bytes. -/
def State.writeHalf (s : State) (v dpa : Nat) (data : Option (BitVec 512)) (x : Ext) : RetCode × List Nat × State :=
  if dpa % 64 ≠ 0 ∨ !s.inExtent v dpa then (.invalidInput, [], s)
  else
    match s.translate v dpa true x with
    | (.error _, s1) => (.invalidInput, [], s1)
    | (.ok ga, s1) =>
      let half := ga / 64 % 2
      let mask := BitVec.ofNat 128 ((2 ^ 64 - 1) * 2 ^ (64 * half))
      let sec := BitVec.ofNat 4 (3 * 4 ^ half)
      let w : Who := { vd := v, va := dpa }
      match data with
      | some d => (.success, [], (s1.lineWrite (ga / 128) mask (BitVec.ofNat 1024 (d.toNat * 2 ^ (512 * half))) 0 w x.pick).2)
      | none =>
        let (r, s2) := s1.lineRead (ga / 128) sec w x.pick
        (.success, [], (s2.lineWrite (ga / 128) mask r.data sec w x.pick).2)

/-- A background operation starts, one at a time in each VD. -/
def State.startBackground (s : State) (v : Nat) (b : BgKind) : RetCode × List Nat × State :=
  if (s.vd v).background.isSome then (.busy, [], s) else (.backgroundStarted, [], s.modVd v fun x => { x with background := some b })

/-- R148: the records of `size` bytes that a reply holds after `head` bytes of its own, in a payload of 4 KiB (CXL 3.1 gives both sizes,
notes/assumptions/23.md). -/
def mbFit (head size : Nat) : Nat := (4096 - head) / size

/-- Sanitize and Secure Erase need every extent of the VD released. -/
def State.startErase (s : State) (v : Nat) (b : BgKind) : RetCode × List Nat × State :=
  if (s.vd v).extents.isEmpty then s.startBackground v b else (.refused, [], s)

/-- What a mailbox command does when it is served (R148). -/
def State.mbDo (s : State) (vd : Nat) (c : MbCmd) : State :=
  match c with
  | .identify =>
    s.mbTell vd 0x0001 true [s.fuses.serial, 12]
  | .backgroundStatus =>
    s.mbTell vd 0x0002 true (match (s.vd vd).background with | some b => [1, b.opcode] | none => [0, 0])
  | .getEvents log =>
    s.mbServe vd 0x0100 false fun s =>
      let g := (s.vd vd).logs.getD log {}
      if log < 5 then (.success, b2n g.overflow :: g.lost :: g.recs.length :: (g.recs.take 31).flatMap EvRec.vals, s) else (.invalidInput, [], s)
  | .clearEvents log all handles =>
    s.mbServe vd 0x0101 false fun s =>
      let g := (s.vd vd).logs.getD log {}
      if 5 ≤ log ∨ (!all ∧ (handles.any fun k => !g.recs.any fun r => decide (r.handle = k))) then (.invalidInput, [], s)
      else
        let g1 : EvLog := { g with recs := if all then [] else g.recs.filter fun r => !handles.contains r.handle, overflow := false, lost := 0 }
        (.success, [], s.modVd vd fun x => { x with logs := x.logs.setD log {} g1 })
  | .getEventInterrupt =>
    s.mbTell vd 0x0102 false ((List.range 5).flatMap fun i => match ((s.vd vd).logs.getD i {}).msix with | some m => [m, 1] | none => [0, 0])
  | .setEventInterrupt log vector =>
    s.mbServe vd 0x0103 false fun s =>
      if 5 ≤ log ∨ vector.any (32 ≤ ·) then (.invalidInput, [], s)
      else (.success, [], s.modVd vd fun x => { x with logs := x.logs.setD log {} { x.logs.getD log {} with msix := vector } })
  | .getTimestamp =>
    s.mbTell vd 0x0300 false [(s.vd vd).hostTime + (s.now - (s.vd vd).hostTimeAt)]
  | .setTimestamp value =>
    s.mbServe vd 0x0301 false fun s => (.success, [], s.modVd vd fun x => { x with hostTime := value.toNat, hostTimeAt := s.now })
  | .supportedLogs =>
    s.mbTell vd 0x0400 false [0]
  | .getLog log =>
    s.mbServe vd 0x0401 true fun s => if log = 0 then (.success, mbOpcodes, s) else (.invalidInput, [], s)
  | .identifyMemory =>
    s.mbTell vd 0x4000 false [0, 0, 0]
  | .healthInfo =>
    s.mbTell vd 0x4200 false [s.mediaStatus, s.hottest]
  | .getAlerts =>
    s.mbTell vd 0x4201 false [(s.vd vd).alerts]
  | .setAlerts value =>
    s.mbServe vd 0x4202 false fun s => (.success, [], s.modVd vd fun x => { x with alerts := value })
  | .poisonList lo len =>
    s.mbServe vd 0x4300 false fun s =>
      let xs := s.poisonList vd lo (lo + len)
      (.success, b2n (decide (256 < xs.length)) :: xs.take 256, s)
  | .injectPoison dpa x =>
    s.mbServe vd 0x4301 false fun s => if s.boot.memActive then s.writeHalf vd dpa none x else (.refused, [], s)
  | .clearPoison dpa data x =>
    s.mbServe vd 0x4302 false fun s => s.writeHalf vd dpa (some data) x
  | .scanCapabilities lo len =>
    s.mbTell vd 0x4303 false [lo, len]
  | .scanMedia lo len =>
    s.mbServe vd 0x4304 false fun s =>
      match s.startBackground vd .scan with
      | (.backgroundStarted, vals, s1) => (.backgroundStarted, vals, s1.modVd vd fun x => { x with scanRange := (lo, len), scanFound := [] })
      | r => r
  | .scanResults =>
    s.mbServe vd 0x4305 false fun s =>
      let xs := (s.vd vd).scanFound
      let n := mbFit 32 16
      (.success, b2n (decide (n < xs.length)) :: xs.take n, s.modVd vd fun x => { x with scanFound := xs.drop n })
  | .sanitize =>
    s.mbServe vd 0x4400 false fun s => s.startErase vd .sanitize
  | .secureErase =>
    s.mbServe vd 0x4401 false fun s => s.startErase vd .erase
  | .dcConfiguration =>
    s.mbTell vd 0x4800 false dcRegions
  | .dcExtentList start =>
    s.mbTell vd 0x4801 false
      ((s.vd vd).extents.length :: (((s.vd vd).extents.drop start).take (mbFit 16 40)).flatMap fun e => [e.1, e.2])
  | .dcAddResponse extents =>
    s.mbServe vd 0x4802 false fun s =>
      let x := s.vd vd
      let offered (e : Nat × Nat) : Bool := x.offers.any fun o => decide ((o.1, o.2.1) = e)
      match extents with
      | [] => (match x.offers with | o :: _ => (.success, [], s.withdrawOffer vd o) | [] => (.invalidInput, [], s))
      | _ =>
        if !extents.all offered || !extDisjoint extents then (.invalidInput, [], s)
        else (.success, [], s.modVd vd fun x =>
          { x with offers := x.offers.filter fun o => !extents.contains (o.1, o.2.1), extents := x.extents ++ extents })
  | .dcRelease extents =>
    s.mbServe vd 0x4803 false fun s =>
      match s.releaseCheck vd extents with
      | .success => (.success, [], s.dropExtents vd .released extents)
      | rc => (rc, [], s)
  | .unsupported op => s.mbServe vd op false fun s => (.unsupported, [], s)

/-- The commands that write a line or free pages, and so may have to wait for copies and sleeping bays. -/
def MbCmd.stalls (c : MbCmd) : Bool := match c with | .injectPoison _ _ | .clearPoison _ _ _ | .dcRelease _ => true | _ => false

/-- A mailbox command arrives: its port holds it during a key switch or behind held requests (R149); in a warm reset it is answered busy. -/
def State.mailbox (s : State) (vd : Nat) (c : MbCmd) (pick : Nat := 0) : State :=
  if s.mbReach vd && decide (s.boot.warm = 0) && s.portStuck (vd / 16) then
    { s with boot := { s.boot with held := s.boot.held ++ [.mailbox vd c] } }
  else if c.stalls then s.orWait pick fun s => s.mbDo vd c
  else s.mbDo vd c

/-! ### Rows of the mailbox -/

/-- MB_IDENTIFY: the device serial and the payload of 4 KiB, as its power of two. -/
def execMbIdentify (vd : Nat) (s : State) : Res := .next (s.mailbox vd .identify)

/-- BACKGROUND_OPERATION_STATUS: whether one runs, and its opcode. -/
def execBackgroundOperationStatus (vd : Nat) (s : State) : Res := .next (s.mailbox vd .backgroundStatus)

/-- GET_EVENT_RECORDS (R146): the oldest records that the payload holds, the overflow flag and the number lost. -/
def execGetEventRecords (vd log : Nat) (s : State) : Res := .next (s.mailbox vd (.getEvents log))

/-- CLEAR_EVENT_RECORDS (R146): all records, or those with the handles. -/
def execClearEventRecords (vd log : Nat) (all : Bool) (handles : List Nat) (s : State) : Res := .next (s.mailbox vd (.clearEvents log all handles))

/-- GET_EVENT_INTERRUPT_POLICY: each log's vector and 1, or 0 and 0 for none. -/
def execGetEventInterruptPolicy (vd : Nat) (s : State) : Res := .next (s.mailbox vd .getEventInterrupt)

/-- SET_EVENT_INTERRUPT_POLICY (R127, R146): one of the function's 32 vectors, or none. -/
def execSetEventInterruptPolicy (vd log : Nat) (vector : Option Nat) (s : State) : Res := .next (s.mailbox vd (.setEventInterrupt log vector))

/-- GET_TIMESTAMP: the VD's host time. -/
def execGetTimestamp (vd : Nat) (s : State) : Res := .next (s.mailbox vd .getTimestamp)

/-- SET_TIMESTAMP: the time base is not changed (R60). -/
def execSetTimestamp (vd : Nat) (value : DWord) (s : State) : Res := .next (s.mailbox vd (.setTimestamp value))

/-- GET_SUPPORTED_LOGS: the Command Effects Log only, as log 0. -/
def execGetSupportedLogs (vd : Nat) (s : State) : Res := .next (s.mailbox vd .supportedLogs)

/-- GET_LOG. -/
def execGetLog (vd log : Nat) (s : State) : Res := .next (s.mailbox vd (.getLog log))

/-- IDENTIFY_MEMORY_DEVICE: total, volatile and persistent capacity. -/
def execIdentifyMemoryDevice (vd : Nat) (s : State) : Res := .next (s.mailbox vd .identifyMemory)

/-- GET_HEALTH_INFO. -/
def execGetHealthInfo (vd : Nat) (s : State) : Res := .next (s.mailbox vd .healthInfo)

/-- GET_ALERT_CONFIGURATION. -/
def execGetAlertConfiguration (vd : Nat) (s : State) : Res := .next (s.mailbox vd .getAlerts)

/-- SET_ALERT_CONFIGURATION. -/
def execSetAlertConfiguration (vd value : Nat) (s : State) : Res := .next (s.mailbox vd (.setAlerts value))

/-- GET_POISON_LIST: at most 256 addresses, after whether more follow. -/
def execGetPoisonList (vd lo len : Nat) (s : State) : Res := .next (s.mailbox vd (.poisonList lo len))

/-- INJECT_POISON: refused without Memory Active. -/
def execInjectPoison (vd dpa : Nat) (x : Ext) (s : State) : Res := .next (s.mailbox vd (.injectPoison dpa x) (pick := x.pick))

/-- CLEAR_POISON: the half takes the data of the command. -/
def execClearPoison (vd dpa : Nat) (data : BitVec 512) (x : Ext) (s : State) : Res := .next (s.mailbox vd (.clearPoison dpa data x) (pick := x.pick))

/-- GET_SCAN_MEDIA_CAPABILITIES: any range of the VD can be scanned. -/
def execGetScanMediaCapabilities (vd lo len : Nat) (s : State) : Res := .next (s.mailbox vd (.scanCapabilities lo len))

/-- SCAN_MEDIA: the VD's touched pages in a range. -/
def execScanMedia (vd lo len : Nat) (s : State) : Res := .next (s.mailbox vd (.scanMedia lo len))

/-- GET_SCAN_MEDIA_RESULTS: the addresses that the last scan found and that no reply has held yet, as many as the payload takes, after
whether more follow. -/
def execGetScanMediaResults (vd : Nat) (s : State) : Res := .next (s.mailbox vd .scanResults)

/-- SANITIZE. -/
def execSanitize (vd : Nat) (s : State) : Res := .next (s.mailbox vd .sanitize)

/-- SECURE_ERASE. -/
def execSecureErase (vd : Nat) (s : State) : Res := .next (s.mailbox vd .secureErase)

/-- BACKGROUND_OPERATION_DONE: the scan reports what it finds; a sanitized or erased VD holds no page and has a new key (R181). -/
def execBackgroundOperationDone (vd pick : Nat) (s : State) : Res :=
  .next (s.orWait pick fun s =>
    let x := s.vd vd
    let s1 := s.modVd vd fun x => { x with background := none }
    match x.background with
    | none => s
    | some .scan => s1.modVd vd fun y => { y with scanFound := s.poisonList vd x.scanRange.1 (x.scanRange.1 + x.scanRange.2) }
    | some .sanitize => (s1.freePages vd fun _ => true).drawKey vd
    | some .erase => (s1.freePages vd fun _ => true).drawKey vd)

/-- GET_DYNAMIC_CAPACITY_CONFIGURATION (R131). -/
def execGetDynamicCapacityConfiguration (vd : Nat) (s : State) : Res := .next (s.mailbox vd .dcConfiguration)

/-- GET_DYNAMIC_CAPACITY_EXTENT_LIST: how many accepted extents there are, and those from `start` on that the payload takes. -/
def execGetDynamicCapacityExtentList (vd : Nat) (s : State) (start : Nat := 0) : Res := .next (s.mailbox vd (.dcExtentList start))

/-- ADD_DYNAMIC_CAPACITY_RESPONSE (R132): offered extents are accepted; an empty list rejects the oldest offer. -/
def execAddDynamicCapacityResponse (vd : Nat) (extents : List (Nat × Nat)) (s : State) : Res := .next (s.mailbox vd (.dcAddResponse extents))

/-- RELEASE_DYNAMIC_CAPACITY (R133). -/
def execReleaseDynamicCapacity (vd : Nat) (extents : List (Nat × Nat)) (pick : Nat) (s : State) : Res := .next (s.mailbox vd (.dcRelease extents) (pick := pick))

/-- MAILBOX_UNSUPPORTED (R148): any opcode that Table 05-8 does not list. -/
def execMailboxUnsupported (vd op : Nat) (s : State) : Res :=
  if mbOpcodes.contains op then .next s else .next (s.mailbox vd (.unsupported op))

end Sys2Proof.Machine
end

