-- ==== Sys2Proof/Machine/Window.lean ====
section
/-! DEFINITION. CXL.io requests of a host: register writes, what a port holds, and IDE (R68, R112, R137, R149, R573). -/
namespace Sys2Proof.Machine

/-- A register write of a host: to its window, or to an HDM decoder, a CXL register that no state of the VD shuts (R574). A warm reset and
a port that is held back hold it (R68, R112, R149). -/
def State.hostWrite (s : State) (w : RegWrite) : State :=
  match w with
  | .window m => if m.bad then s.refuseAccess m else s.winWrite m fun s => s.applyWrite m
  | .decoder v i base len ways gran bi =>
    match s.windowShut { vd := v, off := 0 } with
    | some s1 => s1
    | none =>
      if decide (s.boot.warm ≠ 0) || s.portStuck (v / 16) then { s with boot := { s.boot with held := s.boot.held ++ [.write w] } }
      else if decide (v < 64) && decide (i < 2) then s.commitDecoder v i base len ways gran bi else s

/-- A held request goes on. -/
def State.hostDo (s : State) (r : HostReq) : State :=
  match r with
  | .write w => s.hostWrite w
  | .reset p ld cause => s.ldResetArrive p ld cause
  | .mailbox v c => if s.mbReach v && s.portStuck (v / 16) then { s with boot := { s.boot with held := s.boot.held ++ [r] } } else s.mbDo v c

/-- Requests that were held go on, in order (R68, R112, R149). -/
def State.flushHeld (s : State) : State :=
  s.boot.held.foldl State.hostDo { s with boot := { s.boot with held := [] } }

/-- UNSUPPORTED_ACCESS (R573). -/
def execUnsupportedAccess (m : Mmio) (s : State) : Res :=
  if m.bad && s.running then .next (s.refuseAccess m) else .next s

/-- REGISTER_WRITE (R137, R573, R577): a write to a window, or the commit of one of a VD's two HDM decoders. -/
def execRegisterWrite (w : RegWrite) (s : State) : Res := if s.running then .next (s.hostWrite w) else .next s

/-- IDE_KM (R149, R556): inside an established session that the port carries, keys of a stream begin to switch, the stream is secure, or
it no longer is. `stream` is the CXL.io stream, 16 the link's; with `mem` it is the CXL.mem stream, in skid mode or containment. What
arrived during a switch goes on at its end. -/
def execIdeKm (port session : Nat) (mem : Bool) (op : IdeOp) (s : State) (stream : Nat := 16) (skid : Bool := false) (pick : Nat := 0) : Res :=
  if s.mgmt.sessions.find session ≠ some (some port, true) ∨ (s.port port).link ≠ 2 ∨ (mem ∧ s.fuses.prevGen) then .next s
  else
    let goOn (s : State) : State := s.orWait pick fun s => ((s.modPort port fun x => { x with ideSwitch := false }).flushHeld).releaseHeld port pick
    match op with
    | .switch => .next (s.modPort port fun x => { x with ideSwitch := true })
    | .on =>
      if mem then .next (goOn (s.modPort port fun x => { x with ideMem := true, ideSkid := skid }))
      else .next (goOn (s.modPort port fun x => x.ioStreams (x.ideStreams.filter (· ≠ stream) ++ [stream])))
    | .off =>
      if mem then .next (goOn (s.modPort port fun x => { x with ideMem := false }))
      else .next (goOn (s.modPort port fun x => x.ioStreams (x.ideStreams.filter (· ≠ stream))))

end Sys2Proof.Machine
end

