-- ==== Sys2Proof/Machine/PolicyRows.lean ====
section
/-! DEFINITION. The processing of policy writes, one at a time (R112-R118). -/
namespace Sys2Proof.Machine

/-- R112, R115, R551: a write is complete. `bad` says that it was refused. -/
def State.polComplete (s : State) (w : PolWrite) (bad : Bool) : State :=
  let s1 := { s with polq := { s.polq with doneSeq := s.polq.doneSeq + 1, firstBad := w.first && bad } }
  match w.hdr with
  | none => s1
  | some h => if w.first then s1 else s1.mgmtAnswer h w.cmd (if bad || s.polq.firstBad then 5 else 0) []

/-- KEEP_AWAKE: bits of absent slices are ignored (Table 04-17). -/
def State.polValue (s : State) (w : PolWrite) : Nat :=
  let m := s.sliceMask
  match w.reg with
  | .keepAwake => w.val &&& m
  | .keepLo => w.val &&& (m % 2 ^ 32)
  | .keepHi => w.val &&& (m / 2 ^ 32)
  | _ => w.val

/-- Writes are taken outside a warm reset, and inside one until step 5 (R118). -/
def State.polOpen (s : State) : Bool := s.img.applied && decide (s.boot.warm ≤ 3)

/-- R112, R115: the head of the queue is taken, if it is a write of the rows's register; an entry frees. `effect` is what follows
the change of the value (R116). -/
def State.polTake (s : State) (is : PolReg → Bool) (effect : State → PolReg → State) : State :=
  match s.polq.queue with
  | [] => s
  | w :: t =>
    if s.polq.cur.isSome || !is w.reg || !s.polOpen then s
    else
      let s1 := { s with polq := { s.polq with queue := t }.refill }
      let x := s.polValue w
      let s2 :=
        if s.polInRange w.reg x then
          effect { s1 with pol := s1.pol.set w.reg x, polq := { s1.polq with cur := some w, result := 0 } } w.reg
        else
          let s2 := { s1 with polq := { s1.polq with result := 1 } }
          (match w.vd with | some v => s2.rsvdEnc v | none => s2).polComplete w true
      if s2.boot.warm ≠ 0 ∨ s2.boot.held.isEmpty then s2
      else s.orWait 0 fun f => ({ s2 with stall := f.stall } : State).flushHeld

/-- POLICY_WRITE_ARRIVE (R111-R113): from the POLICY_VD's window, or from management. -/
def execPolicyWriteArrive (reg : PolReg) (val : Nat) (vd : Option Nat) (s : State) : Res :=
  let w : PolWrite := { reg := reg, val := val % 2 ^ reg.bits, vd := vd }
  match vd with
  | none => if s.img.applied then .next (s.polArrive w) else .next s
  | some v =>
    if s.img.device.policyVd = v then
      .next (s.winWrite { vd := v, off := 0x24000 + reg.off, len := if reg = .keepAwake then 8 else 4, val := val } fun s => s.polArrive w)
    else .next s

/-- FM_THRESH_WRITE: meters at or above the new threshold cross. -/
def execFmThreshWrite (s : State) : Res :=
  .next (s.polTake (fun | .fmThresh _ => true | _ => false) fun s r => match r with | .fmThresh k => s.recheck k | _ => s)

/-- FM_WSCALE_WRITE. -/
def execFmWscaleWrite (s : State) : Res := .next (s.polTake (fun | .fmWscale _ => true | _ => false) fun s _ => s)

/-- REFRESH_CAP_WRITE: every channel's next interval keeps to the cap (`State.refreshInterval`). -/
def execRefreshCapWrite (s : State) : Res :=
  .next (s.polTake (fun | .refreshCap => true | _ => false) fun s _ => s)

/-- SR_MIN_IDLE_WRITE. -/
def execSrMinIdleWrite (s : State) : Res := .next (s.polTake (fun | .srMinIdle => true | _ => false) fun s _ => s)
/-- PG_MIN_IDLE_WRITE. -/
def execPgMinIdleWrite (s : State) : Res := .next (s.polTake (fun | .pgMinIdle => true | _ => false) fun s _ => s)

/-- KEEP_AWAKE_WRITE: gated slices of the mask wake. -/
def execKeepAwakeWrite (pick : Nat) (s : State) : Res :=
  .next (s.polTake (fun | .keepAwake => true | .keepLo => true | .keepHi => true | _ => false) fun s _ =>
    s.keepAwake pick)

/-- SPILL_MAX_K_WRITE: from the next task launch. -/
def execSpillMaxKWrite (s : State) : Res := .next (s.polTake (fun | .spillMaxK => true | _ => false) fun s _ => s)
/-- HYL_EQ_HOLD_WRITE. -/
def execHylEqHoldWrite (s : State) : Res := .next (s.polTake (fun | .hylEqHold => true | _ => false) fun s _ => s)

/-- FANTAIL_CTRL_WRITE: with ENABLE 0, Fantail's moves that are not yet copying are abandoned. -/
def execFantailCtrlWrite (s : State) : Res :=
  .next (s.polTake (fun | .fantailCtrl => true | _ => false) fun s _ =>
    if s.pol.fantailEnable then s else s.abandonMoves fun m => decide (m.by_ = .fantail))

/-- REGION_POLICY_WRITE: Fantail's moves of pages that may no longer migrate are abandoned before they copy. -/
def execRegionPolicyWrite (s : State) : Res :=
  .next (s.polTake (fun | .regionPolicy _ => true | _ => false) fun s _ =>
    s.abandonMoves fun m => decide (m.by_ = .fantail) && bit (s.regionPolicy m.vd (m.page * 65536)) 2)

/-- VD_QUOTA_TASK_WRITE. -/
def execVdQuotaTaskWrite (s : State) : Res := .next (s.polTake (fun | .quotaTask _ => true | _ => false) fun s _ => s)
/-- VD_QUOTA_BUF_WRITE. -/
def execVdQuotaBufWrite (s : State) : Res := .next (s.polTake (fun | .quotaBuf _ => true | _ => false) fun s _ => s)
/-- VD_QUOTA_PAGE_WRITE. -/
def execVdQuotaPageWrite (s : State) : Res := .next (s.polTake (fun | .quotaPage _ => true | _ => false) fun s _ => s)
/-- VD_QUOTA_PEN_WRITE. -/
def execVdQuotaPenWrite (s : State) : Res := .next (s.polTake (fun | .quotaPen _ => true | _ => false) fun s _ => s)
/-- VD_QOS_WRITE (R166). -/
def execVdQosWrite (s : State) : Res := .next (s.polTake (fun | .qos _ => true | _ => false) fun s _ => s)

/-- POLICY_WRITE_COMPLETE (R112). -/
def execPolicyWriteComplete (s : State) : Res :=
  match s.polq.cur with
  | none => .next s
  | some w => .next ({ s with polq := { s.polq with cur := none } }.polComplete w false)

end Sys2Proof.Machine
end

