-- ==== Sys2Proof/Machine/Warm.lean ====
section
/-! DEFINITION. Warm reset (R65, R67-R69, R110, R118, R264, R285, R289, R318, R543, R594): Table 03-7 from step 3 on. -/
namespace Sys2Proof.Machine

/-- WARM_RESET_TASK_STOP (step 3): every running task stops; stores already performed stay, and no record is written. -/
def execWarmResetTaskStop (s : State) : Res :=
  if s.boot.warm = 2 then
    let s1 := s.stopCmds s.dax.cmds
    .next { s1 with boot := { s1.boot with warm := 3 } }
  else .next s

/-- Every accepted request has completed: no slice serves one but for its own write-backs, no port waits for one. -/
def State.requestsDone (s : State) : Bool :=
  (s.slices.all fun e => e.2.inq.isEmpty && e.2.miss.all fun m => decide (m.2.phase = .wb))
    && (s.slu.walks.all fun w => w.acc.isEmpty) && (s.ports.all fun p => p.2.outst.isEmpty)

/-- R289: every promoted page is demoted. -/
def State.demoteAll (s : State) : State :=
  let s1 := s.slu.promo.foldl (fun s e => (s.setPromo e.1 { e.2 with st := .going, fantail := false, next := none }).demoteDone e.1)
    { s with slu := { s.slu with promo := s.slu.promo.keep fun _ p => decide (p.st ≠ .coming) } }
  s1

/-- R67, R200: dirty lines of every slice are written back, and the caches are empty. -/
def State.flushCaches (s : State) : State :=
  let s1 := s.slices.foldl (fun s e => e.2.frames.foldl (fun s f => s.evict e.1 f.1) s) s
  { s1 with slices := s1.slices.mapVal fun _ x => { x with frames := [], l1 := [], ro := {}, busyAt := [] } }

/-- R68: write-backs to peers that are not acknowledged by the end of step 4 are abandoned and reported as failed posted writes
(R465). `acked` are the lines whose WB_ACK arrived. -/
def State.abandonWb (s : State) (acked : List Nat) : State :=
  let lines := s.slices.flatMap fun e => (e.2.miss.filter fun m => decide (m.2.phase = .wb)).map (·.1)
  let s1 := { s with slices := s.slices.mapVal fun _ x => { x with miss := x.miss.keep fun _ m => decide (m.phase ≠ .wb) }, pool := { s.pool with wbOut := [], wbHold := [] } }
  (lines.filter fun l => !acked.contains l).foldl (fun s l =>
    let s1 := s.post { cls := .writeUnconfirmed, status := Status.deviceGone.code, device := some (lineDev l), addr := l * 128 }
    { s1 with pool := { s1.pool with unconfirmedCnt := s1.pool.unconfirmedCnt + 1 } }) s1

/-- R285: a move between devices that has not reached step 5 is abandoned at step 4. -/
def State.abandonCopies (s : State) : State :=
  (s.slu.moves.filter fun m => decide (m.step < 5) && decide (gfDev m.src ≠ gfDev m.dst)).foldl State.moveAbandon s

/-- Pinned bays without RETAIN, and rescue bays, become zero (Table 03-6). -/
def State.clearBays (s : State) : State :=
  { s with bays := Tab.keep s.bays fun a _ => s.bayRetain (a / bayBytes)
           bayPoison := s.bayPoison.keep fun k _ => s.bayRetain (k * 32 / bayBytes) }

/-- The VD reset that step 5 makes of every VD, merged into one in progress (R69, R171), of which nothing is done twice. What becomes of
Hopper's records is R264's, not the sweep's. -/
def State.warmVd (s : State) (v : Nat) : State :=
  if s.resetAt v 5 then s.modVd v fun x => { x with trigger := 1, useBuf := 0 }
  else (((((s.vdTrigger v 1).vdStop v).vdAbandon v).vdClear v).modVd v fun x => { x with useBuf := 0 }).resetTo v 5

/-- R118: policy writes in the queue are discarded; those held outside it enter it. A discarded management write is not answered. -/
def State.dropPolicy (s : State) : State :=
  let q := s.polq
  let s1 := { s with polq := { q with queue := [], doneSeq := 0, result := 0, firstBad := false }.refill }
  q.queue.foldl (fun s w => match w.hdr with | some h => s.mgmtFree h | none => s) s1

/-- Step 5: engines and gauges take their image values. -/
def State.warmUnits (s : State) : State :=
  { s with
    pen := { s.pen with pens := [], regs := [], exports := [] }
    gauges := [], spill := [], runners := [], colls := [], collHeld := [], queues := []
    flume := s.flume.mapVal fun _ f => f.cut
    slu := { s.slu with heat := [] }
    dax := { s.dax with cmds := [], arb := [] }
    ends := []
    power := { s.power with refresh := s.activeDies } }

/-- WARM_RESET_FLUSH (steps 4 and 5). -/
def execWarmResetFlush (acked : List Nat) (pick : Nat) (s : State) : Res :=
  .next (s.orWait pick fun s =>
    if s.boot.warm = 3 ∧ s.requestsDone then
      let s1 := s.demoteAll.abandonCopies.flushCaches.abandonWb acked
      let s2 := s1.vdList.foldl State.warmVd s1
      let s3 := s2.hopWarm.clearBays.warmUnits.dropPolicy
      { s3 with boot := { s3.boot with warm := 5 } }
    else s)

/-- WARM_IMAGE_REAPPLY (step 6, R110, R118): `ok` says that the copy's digest matches. Gated slices whose keep-awake bit the image sets
wake (R75, R116). -/
def execWarmImageReapply (ok : Bool) (s : State) : Res :=
  if s.boot.warm = 5 then
    if ok then .next (({ s with pol := s.imagePol s.img, boot := { s.boot with warm := 6 } } : State).keepAwake 0) else .next (s.coldReset 4)
  else .next s

/-- R594: mirror reads that were held are answered as the windows answer now. -/
def State.answerReads (s : State) : State :=
  s.mgmt.reads.foldl (fun s r =>
    let v := if r.2.2 then [s.mgmtRead r.2.1 + s.mgmtRead (r.2.1 + 4) * 2 ^ 32] else [s.mgmtRead r.2.1]
    s.mgmtAnswer r.1 (if r.2.2 then 3 else 1) 0 v) { s with mgmt := { s.mgmt with reads := [] } }

/-- R68: a request of a peer that the warm reset held. -/
def State.heldServe (s : State) (h : HeldReq) (pick : Nat) : State :=
  match h with
  | .coh m op => s.peerServe m op pick
  | .pen dev vd tag op ticket value qos => s.penServe dev vd tag op ticket value qos
  | .sl dev m => s.slServe dev m pick

/-- Held requests of peers go on, in order. -/
def State.releasePeers (s : State) (pick : Nat) : State :=
  s.pool.heldReqs.foldl (fun s h => s.heldServe h pick) { s with pool := { s.pool with heldReqs := [] } }

/-- WARM_RESET_COMPLETE (step 7, R68): the VDs are READY, held accesses complete in order, and held requests go on. -/
def execWarmResetComplete (pick : Nat) (s : State) : Res :=
  .next (s.orWait pick fun s =>
    if s.boot.warm = 6 then
      let vs := s.vdList.filter fun v => s.resetAt v 5
      let s1 := vs.foldl State.vdReady { s with boot := { s.boot with warm := 0 }, power := { s.power with refresh := [] } }
      (s1.flushHeld.answerReads.releaseAll pick).releasePeers pick
    else s)

end Sys2Proof.Machine
end

