-- ==== Sys2Proof/Machine/Mgmt.lean ====
section
/-! DEFINITION. The management island: MCTP (R546-R549) and Lomzon's management commands (R550-R552, R575). -/
namespace Sys2Proof.Machine

/-! ### MCTP -/

/-- Table 21-1. -/
def mctpTypes : List Nat := [0x00, 0x01, 0x05, 0x06, 0x07, 0x7E]

/-- R548: the same request is outstanding. -/
def State.duplicate (s : State) (h : MctpHdr) : Bool :=
  (s.mgmt.bufs ++ s.mgmt.held).any fun b => decide (b.port = h.port) && decide (b.who = h.who) && decide (b.ty = h.ty) && decide (b.tag = h.tag)

/-- A message that claims a secured session comes over one that is established (R556). -/
def State.sessionOk (s : State) (h : MctpHdr) : Bool :=
  !h.secured || (decide (h.ty = 6) && s.mgmt.sessions.any fun e => decide (e.2 = (h.port, true)))

/-- R549: the binding carries messages: from power-up step 2 on, and over PCIe on a port whose link is up. -/
def State.mctpUp (s : State) (h : MctpHdr) : Bool :=
  s.board.pwrOk && decide (2 ≤ s.boot.step) && (match h.port with | some p => decide ((s.port p).link = 2) | none => true)

/-- MCTP_MESSAGE_RECEIVE (R547, R548): the message takes a buffer, waits under posted flow control on PCIe, or is not taken (SMBus). -/
def execMctpMessageReceive (h : MctpHdr) (s : State) : Res :=
  let m := s.mgmt
  if !s.mctpUp h then .next s
  else if !mctpTypes.contains h.ty then .next { s with mgmt := { m with drop := m.drop + 1 } }
  else if s.duplicate h || !s.sessionOk h then .next s
  else if m.bufs.length < 8 ∧ m.held.isEmpty then .next { s with mgmt := { m with bufs := m.bufs ++ [h] } }
  else if h.port.isSome then .next { s with mgmt := { m with held := m.held ++ [h] } }
  else .next s

/-- SET_ENDPOINT_ID (R546): each binding has its own; 0 and 255 are no endpoint identifiers. -/
def execSetEndpointId (h : MctpHdr) (eid : Nat) (s : State) : Res :=
  if !s.served h 0 then .next s
  else if eid % 256 = 0 ∨ eid % 256 = 255 then .next (s.mgmtAnswer h 1 2 [])
  else
    let s1 := { s with mgmt := { s.mgmt with eids := s.mgmt.eids.setD (if h.port.isSome then 1 else 0) 0 (eid % 256) } }
    .next (s1.mgmtAnswer h 1 0 [eid % 256])

/-! ### Commands -/

/-- R549-R551: the checks of every command: reserved flags, the secured session, and the image. -/
def State.mgmtServe (s : State) (h : MctpHdr) (cmd flags : Nat) (secured early : Bool) (f : State → State) : State :=
  if !s.served h 0x7E then s
  else if flags ≠ 0 then s.mgmtAnswer h cmd 2 []
  else if secured && h.port.isSome && !h.secured then s.mgmtAnswer h cmd 3 []
  else if !early && !s.img.applied then s.mgmtAnswer h cmd 4 []
  else f s

/-- The request is under way; its answer comes later. -/
def State.mgmtHold (s : State) : State := { s with mgmt := { s.mgmt with busy := true } }

/-- R549: what is served before an image is applied. -/
def earlyOff (o : Nat) : Bool := decide (o < 0x60) || [0x1000, 0x1004, 0x1008, 0x100C, 0x1014, 0x101C].contains o

/-- A mirror offset during a warm reset: its read waits for step 7 (R594). -/
def State.readWaits (s : State) (o : Nat) : Bool := decide (s.boot.warm ≠ 0) && (mirrorOf o).isSome

/-- READ32. -/
def execRead32 (h : MctpHdr) (flags off : Nat) (s : State) : Res :=
  .next (s.mgmtServe h 1 flags false (earlyOff off) fun s =>
    if off % 4 ≠ 0 then s.mgmtAnswer h 1 1 []
    else if s.readWaits off then { s with mgmt := { s.mgmt with reads := s.mgmt.reads ++ [(h, off, false)] } }.mgmtHold
    else s.mgmtAnswer h 1 0 [s.mgmtRead off])

/-- READ64: one atomic read of two registers (R551, R575). -/
def execRead64 (h : MctpHdr) (flags off : Nat) (s : State) : Res :=
  .next (s.mgmtServe h 3 flags false (earlyOff off && earlyOff (off + 4)) fun s =>
    if off % 8 ≠ 0 then s.mgmtAnswer h 3 1 []
    else if s.readWaits off then { s with mgmt := { s.mgmt with reads := s.mgmt.reads ++ [(h, off, true)] } }.mgmtHold
    else s.mgmtAnswer h 3 0 [s.mgmtRead off + s.mgmtRead (off + 4) * 2 ^ 32])

/-- A management gauge's register. -/
def gaugeAt (o : Nat) : Option (Nat × Nat) := if 0xA0000 ≤ o ∧ o < 0xA8000 then some ((o - 0xA0000) / 0x100, o % 0x100) else none

/-- One 32-bit write outside the policy window, and whether it was accepted (R575). -/
def State.mgmtWrite (s : State) (o w : Nat) : State × Bool :=
  if o = 0x1010 then ({ s with boot := { s.boot with cause := s.boot.cause &&& ~~~ BitVec.ofNat 11 w } }, true)
  else if o = 0x2000 then ({ s with clk := { s.clk with quietFail := s.clk.quietFail && !bit w 12 } }, true)
  else if 0x5000 ≤ o ∧ o < 0x5100 ∧ o % 0x40 = 0 then
    (s.modPort ((o - 0x5000) / 0x40) fun x => { x with strapMismatch := x.strapMismatch && !bit w 9, surpriseDown := x.surpriseDown && !bit w 12 }, true)
  else
    match gaugeAt o with
    | some (g, x) => if x = 0 then s.gaugeCtrl g w else s.gaugeConfig g x w false
    | none => (s, true)

/-- The policy register at an offset of management space. -/
def polAt (o : Nat) : Option PolReg := if 0x4000 ≤ o ∧ o < 0x5000 then polRegAt (o - 0x4000) else none

/-- A policy write that management makes; it is answered when it is complete (R551). -/
def State.polFrom (s : State) (h : MctpHdr) (cmd : Nat) (r : PolReg) (w : Nat) (first : Bool) : State :=
  s.polArrive { reg := r, val := w % 2 ^ r.bits, hdr := some h, cmd := cmd, first := first }

/-- WRITE32. -/
def execWrite32 (h : MctpHdr) (flags off : Nat) (value : Word) (s : State) : Res :=
  .next (s.mgmtServe h 2 flags true false fun s =>
    if off % 4 ≠ 0 then s.mgmtAnswer h 2 1 []
    else match polAt off with
      | some r => (s.polFrom h 2 r value.toNat false).mgmtHold
      | none => match s.mgmtWrite off value.toNat with | (s1, ok) => s1.mgmtAnswer h 2 (if ok then 0 else 2) [])

/-- WRITE64 (R113, R551, R572, R575). -/
def execWrite64 (h : MctpHdr) (flags off : Nat) (value : DWord) (s : State) : Res :=
  let lo := value.toNat % 2 ^ 32
  let hi := value.toNat / 2 ^ 32
  .next (s.mgmtServe h 4 flags true false fun s =>
    if off % 8 ≠ 0 then s.mgmtAnswer h 4 1 []
    else if off = 0x4090 then (s.polFrom h 4 .keepAwake value.toNat false).mgmtHold
    else match polAt off, polAt (off + 4) with
      | some a, some b => ((s.polFrom h 4 a lo true).polFrom h 4 b hi false).mgmtHold
      | some a, none => (s.polFrom h 4 a lo false).mgmtHold
      | none, some b => (s.polFrom h 4 b hi false).mgmtHold
      | none, none =>
        match gaugeAt off with
        | some (g, 0x10) => (match s.gaugeConfig g 0x10 value.toNat true with | (s1, ok) => s1.mgmtAnswer h 4 (if ok then 0 else 2) [])
        | _ =>
          match s.mgmtWrite off lo with
          | (s1, ok1) => match s1.mgmtWrite (off + 4) hi with | (s2, ok2) => s2.mgmtAnswer h 4 (if ok1 && ok2 then 0 else 2) [])

/-- R552: the first place in the log that a sequence number names: an older one names the oldest record. -/
def State.logPlace (s : State) (seq : Nat) : Nat :=
  let d := (seq + 2 ^ 32 - s.flt.logFirst % 2 ^ 32) % 2 ^ 32
  if d < 2 ^ 31 then d else 0

/-- LOG_READ. -/
def execLogRead (h : MctpHdr) (flags seq count : Nat) (s : State) : Res :=
  .next (s.mgmtServe h 0x10 flags false true fun s =>
    if count = 0 ∨ 60 < count then s.mgmtAnswer h 0x10 2 []
    else (s.mgmtFree h).send (.mgmtLog h ((s.flt.logFirst + s.logPlace seq) % 2 ^ 32) ((s.flt.log.drop (s.logPlace seq)).take count)))

/-- FATAL_LOG_READ. -/
def execFatalLogRead (h : MctpHdr) (flags index count : Nat) (s : State) : Res :=
  .next (s.mgmtServe h 0x11 flags false true fun s =>
    if count = 0 ∨ 60 < count then s.mgmtAnswer h 0x11 2 []
    else (s.mgmtFree h).send (.mgmtLog h (index % 256) ((s.flt.fatal.drop (index % 256)).take count)))

/-- COLD_RESET: answered before the reset takes effect. -/
def execColdReset (h : MctpHdr) (flags : Nat) (s : State) : Res :=
  .next (s.mgmtServe h 0x20 flags true false fun s => (s.mgmtAnswer h 0x20 0 []).coldReset 2)

/-- WARM_RESET (R69). -/
def execWarmReset (h : MctpHdr) (flags : Nat) (s : State) : Res :=
  .next (s.mgmtServe h 0x21 flags true false fun s =>
    (s.mgmtAnswer h 0x21 (if s.boot.warm ≠ 0 ∨ s.boot.warmWait.isSome then 6 else 0) []).requestWarm 6)

/-- VD_RESET: trigger 6 of Table 06-3, answered when step 6 of Table 06-4 completes; one that is merged answers BUSY. -/
def execVdReset (h : MctpHdr) (flags vd : Nat) (s : State) : Res :=
  .next (s.mgmtServe h 0x22 flags true false fun s =>
    if !s.vdExists vd then s.mgmtAnswer h 0x22 2 []
    else if (s.vd vd).st = .resetting then (s.vdTrigger vd 6).mgmtAnswer h 0x22 6 []
    else
      let s1 := s.vdTrigger vd 6
      { s1 with mgmt := { s1.mgmt with resets := s1.mgmt.resets ++ [(h, vd)] } }.mgmtHold)

/-- R467: RE dirty lines are written back, then LEAVE is flooded and new remote operations are refused. -/
def State.poolLeave (s : State) : State :=
  let s1 := s.slices.foldl (fun s e =>
    (e.2.frames.filter fun f => decide (f.2.st = .re) && decide (f.2.d ≠ 0)).foldl (fun s f => s.evict e.1 f.1) s) s
  { s1 with pool := { s1.pool with leaving := true } }.floodOut 6 [s.pool.devnum]

/-- POOL_LEAVE. -/
def execPoolLeave (h : MctpHdr) (flags : Nat) (s : State) : Res :=
  .next (s.mgmtServe h 0x23 flags true false fun s => (if s.pool.st = .member then s.poolLeave else s).mgmtAnswer h 0x23 0 [])

/-- IDENTIFY (R568). -/
def execIdentify (h : MctpHdr) (flags value : Nat) (s : State) : Res :=
  .next (s.mgmtServe h 0x30 flags false false fun s =>
    if 1 < value then s.mgmtAnswer h 0x30 2 []
    else { s with mgmt := { s.mgmt with identify := decide (value = 1) } }.mgmtAnswer h 0x30 0 [])

/-- R564: seconds until an update can start, rounded up. -/
def State.panelSeconds (s : State) : Nat :=
  match s.panel.lastStart with
  | some t => (t + 60 * 10 ^ 9 - s.now + 10 ^ 9 - 1) / 10 ^ 9
  | none => 0

/-- PANEL_UPDATE. -/
def execPanelUpdate (h : MctpHdr) (flags : Nat) (s : State) : Res :=
  .next (s.mgmtServe h 0x31 flags false false fun s => s.panelAsk.mgmtAnswer h 0x31 0 [s.panelSeconds])

end Sys2Proof.Machine
end

