-- ==== Sys2Proof/Machine/Attest.lean ====
section
/-! DEFINITION. Attestation by SPDM 1.2 (R553-R556) and the PLDM sensors (R557, R558). -/
namespace Sys2Proof.Machine

/-! ### SPDM -/

/-- An SPDM request over MCTP (types 5 and 6), or over LD 0's DOE (R553). -/
def State.spdmServed (s : State) (h : MctpHdr) : Bool :=
  (decide (s.mgmt.bufs.head? = some h) && !s.mgmt.busy && (decide (h.ty = 5) || decide (h.ty = 6)))
    || (decide (h.ty = 0x100) && h.port.isSome && s.mctpUp h)

/-- A request that the responder's state allows is answered, with 0 and its values or with 1, an error. `need` is how far the
negotiation has come. -/
def State.spdmServe (s : State) (h : MctpHdr) (code need : Nat) (f : State → Option (List Nat × State)) : State :=
  if !s.spdmServed h then s
  else if s.mgmt.spdm < need then s.mgmtAnswer h code 1 []
  else match f s with
    | some (vals, s1) => s1.mgmtAnswer h code 0 vals
    | none => s.mgmtAnswer h code 1 []

def State.setSpdm (s : State) (n : Nat) : State := { s with mgmt := { s.mgmt with spdm := n } }

/-- GET_VERSION: 1.2 only. -/
def execGetVersion (h : MctpHdr) (s : State) : Res := .next (s.spdmServe h 0x84 0 fun s => some ([0x12], s.setSpdm 1))

/-- GET_CAPABILITIES: CERT, CHAL, MEAS with signature, KEY_EX, ENCRYPT and MAC, one bit each in this order. -/
def execGetCapabilities (h : MctpHdr) (s : State) : Res := .next (s.spdmServe h 0xE1 1 fun s => some ([0x3F], s.setSpdm 2))

/-- NEGOTIATE_ALGORITHMS: the fixed algorithms, 1 each: ECDSA P-384, SHA-384, secp384r1, AES-256-GCM. -/
def execNegotiateAlgorithms (h : MctpHdr) (s : State) : Res := .next (s.spdmServe h 0xE3 2 fun s => some ([1, 1, 1, 1], s.setSpdm 3))

/-- GET_DIGESTS: slot 0 alone holds a chain. -/
def execGetDigests (h : MctpHdr) (s : State) : Res :=
  .next (s.spdmServe h 0x81 3 fun s => some ([1, (Config.sha384 s.fuses.chain).toNat], s))

/-- GET_CERTIFICATE (R554). -/
def execGetCertificate (h : MctpHdr) (slot : Nat) (s : State) : Res :=
  .next (s.spdmServe h 0x82 3 fun s => if slot = 0 then some (s.fuses.chain.map BitVec.toNat, s) else none)

/-- CHALLENGE: signed with the device identity key; the spec gives no value of a signature. -/
def execChallenge (h : MctpHdr) (slot : Nat) (s : State) : Res :=
  .next (s.spdmServe h 0x83 3 fun s => if slot = 0 then some ([(Config.sha384 s.fuses.chain).toNat, s.draw.1.toNat], s.draw.2) else none)

/-- R555, Table 21-4: the content that a block digests, its fields little-endian in the order named. -/
def State.measured (s : State) (i : Nat) : List Byte :=
  let w (x : Nat) : List Byte := leBytes 4 x
  match i with
  | 2 => leBytes 1 s.fuses.iodRev ++ ((List.range 8).flatMap fun d => w (s.die d).idLo ++ w (s.die d).idHi) ++ w s.fuses.minSecurity
          ++ (List.range 4).flatMap fun k => leBytes 48 (s.fuses.keys.getD k {}).digest ++ leBytes 1 (b2n (s.fuses.keys.getD k {}).revoked)
  | 4 => w s.bootStatus ++ w s.bootReason
  | 5 => ((List.range 8).flatMap fun d => w (s.die d).word) ++ ((List.range 8).flatMap fun d => w (s.die d).chFail)
          ++ leBytes 1 (s.clkStatus / 2 ^ 8 % 8) ++ leBytes 1 (b2n s.boot.testLock)
  | _ => w s.faultSummary ++ w s.mgmt.health

/-- The digest of a block. Block 3 is the signed region's own, zeros without one (R107). -/
def State.measurement (s : State) (i : Nat) : Nat :=
  if i = 1 then Config.romDigest.toNat
  else if i = 3 then (if s.boot.done ∧ !s.boot.noImage then s.boot.digest else 0)
  else (Config.sha384 (s.measured i)).toNat

/-- GET_MEASUREMENTS (R555): 0 asks for their number, 255 for all. -/
def execGetMeasurements (h : MctpHdr) (index : Nat) (s : State) : Res :=
  .next (s.spdmServe h 0xE0 3 fun s =>
    if index = 0 then some ([6], s)
    else if index = 255 then some ([1, 2, 3, 4, 5, 6].map s.measurement, s)
    else if index ≤ 6 then some ([s.measurement index], s)
    else none)

/-- KEY_EXCHANGE (R556): a session opens, unless four are open. -/
def execKeyExchange (h : MctpHdr) (s : State) : Res :=
  .next (s.spdmServe h 0xE4 3 fun s =>
    match (List.range 4).find? fun k => (s.mgmt.sessions.find k).isNone with
    | some k => some ([k], { s with mgmt := { s.mgmt with sessions := s.mgmt.sessions.put k (h.port, false) } })
    | none => none)

/-- FINISH: the session is established. -/
def execFinish (h : MctpHdr) (session : Nat) (s : State) : Res :=
  .next (s.spdmServe h 0xE5 3 fun s =>
    if s.mgmt.sessions.find session = some (h.port, false) then
      some ([], { s with mgmt := { s.mgmt with sessions := s.mgmt.sessions.put session (h.port, true) } })
    else none)

/-- END_SESSION. -/
def execEndSession (h : MctpHdr) (session : Nat) (s : State) : Res :=
  .next (s.spdmServe h 0xEC 3 fun s =>
    if s.mgmt.sessions.find session = some (h.port, true) then
      some ([], { s with mgmt := { s.mgmt with sessions := s.mgmt.sessions.del session } })
    else none)

/-! ### PLDM -/

/-- A PLDM request is answered with a completion code and values. -/
def State.pldmServe (s : State) (h : MctpHdr) (cmd : Nat) (f : State → Nat × List Nat × State) : State :=
  if s.served h 1 then (match f s with | (code, vals, s1) => s1.mgmtAnswer h cmd code vals) else s

def State.pldmTell (s : State) (h : MctpHdr) (cmd : Nat) (vals : List Nat) : State := s.pldmServe h cmd fun s => (0, vals, s)

/-- GET_TID and SET_TID: 0 and 255 are no terminus identifiers. -/
def execGetTid (h : MctpHdr) (s : State) : Res := .next (s.pldmTell h 0x02 [s.mgmt.tid])
def execSetTid (h : MctpHdr) (tid : Nat) (s : State) : Res :=
  .next (s.pldmServe h 0x01 fun s =>
    if tid = 0 ∨ 255 ≤ tid then (2, [], s) else (0, [], { s with mgmt := { s.mgmt with tid := tid } }))

/-- GET_PLDM_VERSION: the types are 0 and 2; the spec names the standards and no version number. -/
def execGetPldmVersion (h : MctpHdr) (ty : Nat) (s : State) : Res :=
  .next (s.pldmServe h 0x03 fun s => if ty = 0 ∨ ty = 2 then (0, [s.draw.1.toNat % 2 ^ 32], s.draw.2) else (2, [], s))

/-- GET_PLDM_TYPES. -/
def execGetPldmTypes (h : MctpHdr) (s : State) : Res := .next (s.pldmTell h 0x04 [0, 2])

/-- R557, by the numbers of DSP0240 and DSP0248. -/
def pldmCommands (ty : Nat) : List Nat :=
  if ty = 0 then [0x01, 0x02, 0x03, 0x04, 0x05] else if ty = 2 then [0x04, 0x11, 0x12, 0x21, 0x50, 0x51] else []

/-- GET_PLDM_COMMANDS. -/
def execGetPldmCommands (h : MctpHdr) (ty : Nat) (s : State) : Res :=
  .next (s.pldmServe h 0x05 fun s => if ty = 0 ∨ ty = 2 then (0, pldmCommands ty, s) else (2, [], s))

/-- SET_EVENT_RECEIVER. -/
def execSetEventReceiver (h : MctpHdr) (receiver : Option Nat) (s : State) : Res :=
  .next (s.pldmServe h 0x04 fun s => (0, [], { s with mgmt := { s.mgmt with receiver := receiver } }))

/-- Table 21-5: a sensor reports, unless its die is not ACTIVE or there is no card's power stage. -/
def State.sensorOn (s : State) (n : Nat) : Bool :=
  if n ≤ 8 then decide ((s.die (n - 1)).st = .active) else if n = 10 then s.straps.card else true

/-- The latest reading of a numeric sensor. -/
def State.sensorValue (s : State) (n : Nat) : Nat :=
  if n ≤ 8 then (s.die (n - 1)).temp else if n = 9 then s.boot.iodTemp else if n = 10 then s.mgmt.cardPower else s.flt.spareLeft

/-- Table 21-5: upper warning, critical and fatal. -/
def sensorLimits (n : Nat) : List Nat :=
  if 1 ≤ n ∧ n ≤ 8 then [95, 105, 115] else if n = 9 then [110, 120, 125] else if n = 10 then [560, 600] else []

/-- How many thresholds a reading has reached. -/
def sensorLevel (n v : Nat) : Nat := ((sensorLimits n).filter fun l => decide (l ≤ v)).length

/-- GET_SENSOR_READING: 0 enabled or 1 disabled, the reading, the level. 128 is an invalid sensor. -/
def execGetSensorReading (h : MctpHdr) (sensor : Nat) (s : State) : Res :=
  .next (s.pldmServe h 0x11 fun s =>
    if sensor = 0 ∨ 11 < sensor then (128, [], s)
    else if s.sensorOn sensor then (0, [0, s.sensorValue sensor, sensorLevel sensor (s.sensorValue sensor)], s)
    else (0, [1], s))

/-- GET_STATE_SENSOR_READINGS: the health state. -/
def execGetStateSensorReadings (h : MctpHdr) (sensor : Nat) (s : State) : Res :=
  .next (s.pldmServe h 0x21 fun s => if sensor = 12 then (0, [s.mgmt.health], s) else (128, [], s))

/-- GET_SENSOR_THRESHOLDS: they are fixed (R78). -/
def execGetSensorThresholds (h : MctpHdr) (sensor : Nat) (s : State) : Res :=
  .next (s.pldmServe h 0x12 fun s => if sensor = 0 ∨ 11 < sensor then (128, [], s) else (0, sensorLimits sensor, s))

/-- GET_PDR_REPOSITORY_INFO: the sensors of Table 21-5, once the inventory is fixed. -/
def execGetPdrRepositoryInfo (h : MctpHdr) (s : State) : Res := .next (s.pldmTell h 0x50 [if s.inv.fixed then 12 else 0])

/-- GET_PDR: the record of a sensor: its number, its unit (0 degrees, 1 watts, 2 a count, 3 a state) and its thresholds. -/
def execGetPdr (h : MctpHdr) (record : Nat) (s : State) : Res :=
  .next (s.pldmServe h 0x51 fun s =>
    if !s.inv.fixed || decide (record = 0) || decide (12 < record) then (130, [], s)
    else (0, [record, if record ≤ 9 then 0 else record - 9] ++ sensorLimits record, s))

/-- PLDM_UNSUPPORTED: ERROR_UNSUPPORTED_PLDM_CMD. -/
def execPldmUnsupported (h : MctpHdr) (ty cmd : Nat) (s : State) : Res :=
  if (pldmCommands ty).contains cmd then .next s else .next (s.pldmServe h cmd fun s => (5, [], s))

/-! ### Events -/

/-- R558: an event is queued and sent, or lost, when a receiver is set. -/
def State.platformEvent (s : State) (sensor value : Nat) : State :=
  match s.mgmt.receiver with
  | none => s
  | some r =>
    if s.mgmt.events.length < 32 then
      { s with mgmt := { s.mgmt with events := s.mgmt.events ++ [({ sensor := sensor, value := value, sent := 1 } : PldmEvent)] } }.send (.platformEvent r sensor value)
    else { s with mgmt := { s.mgmt with evtLost := s.mgmt.evtLost + 1 } }

/-- PLATFORM_EVENT_RESEND (R558): 1 s after an event was sent: acknowledged, or sent again, up to three times. -/
def execPlatformEventResend (i : Nat) (acked : Bool) (s : State) : Res :=
  match s.mgmt.events[i]? with
  | none => .next s
  | some e =>
    if acked || decide (4 ≤ e.sent) then .next { s with mgmt := { s.mgmt with events := s.mgmt.events.eraseIdx i } }
    else
      let s1 := { s with mgmt := { s.mgmt with events := s.mgmt.events.set i { e with sent := e.sent + 1 } } }
      match s.mgmt.receiver with
      | some r => .next (s1.send (.platformEvent r e.sensor e.value))
      | none => .next s1

end Sys2Proof.Machine
end

