-- ==== Sys2Proof/Machine/Panel.lean ====
section
/-! DEFINITION. The health state (R560) and the status panel (R561-R567). -/
namespace Sys2Proof.Machine

/-! ### Health -/

/-- Table 21-6: something was retired at run time, or a retirement is on record. -/
def State.retiredSome (s : State) : Bool :=
  !s.flt.chRetired.isEmpty || !s.flt.bayRetired.isEmpty || !s.flt.frameRetired.isEmpty || !s.flt.cxlLaneRetired.isEmpty || !s.flt.pprUsed.isEmpty
    || (s.slices.any fun e => e.2.retired) || (s.dies.any fun e => decide (e.2.st = .retired))
    || (s.hyl.any fun e => decide (e.2.st = .retired) || decide (e.2.retired ≠ 0)) || (s.flt.log.any fun r => decide (r.cls = .retirement))

/-- Table 21-6. `waited`: the device has been a candidate for 10 s or more. -/
def State.healthNow (s : State) (waited : Bool) : Nat :=
  if s.boot.neverActive || decide (s.clk.source = 3) || (s.flt.fatal.any fun r => decide (r.cls = .deviceFatal)) || (s.flt.log.any fun r => decide (r.cls = .deviceFatal))
    || s.panel.connector || s.boot.thermalHold then 4
  else if !s.boot.memActive then 0
  else if (s.flt.fatal.any fun r => decide (r.cls = .fatal)) || (s.flt.log.any fun r => decide (r.cls = .fatal)) then 3
  else if s.retiredSome || (s.slices.any fun e => !e.2.lostSets.isEmpty) || s.flt.singleCopy || decide (s.flt.spareLeft = 0)
    || (s.dies.any fun e => e.2.hot) || decide (s.clk.source = 1) || decide (s.pool.st = .isolated)
    || (decide (s.pool.st = .joining) && waited && decide (s.img.device.hylEnable ≠ 0)) then 2
  else 1

/-- The levels that a reading passes on its way from `a` to `b`, one for each threshold it crosses. -/
def levelsCrossed (a b : Nat) : List Nat := if a ≤ b then (List.range (b - a)).map fun i => a + i + 1 else (List.range (a - b)).map fun i => a - i - 1

/-- Threshold crossings of sensors 1 to 10 since they were last reported: an event for each (R558). -/
def State.sensorEvents (s : State) : State :=
  (List.range 10).foldl (fun s i =>
    let n := i + 1
    let l := if s.sensorOn n then sensorLevel n (s.sensorValue n) else 0
    (levelsCrossed (s.mgmt.levels.getD n 0) l).foldl (fun s k => s.platformEvent n k) { s with mgmt := { s.mgmt with levels := s.mgmt.levels.setD n 0 l } }) s

/-- HEALTH.STATE takes a value: a change is reported by sensor 12 and drawn. -/
def State.setHealth (s : State) (h : Nat) : State :=
  if h = s.mgmt.health then s else ({ s with mgmt := { s.mgmt with health := h } }.platformEvent 12 h).panelAsk

/-- The readings of the I/O die's temperature and the card's input power. -/
def State.setReadings (s : State) (iodTemp power : Nat) : State :=
  { s with boot := { s.boot with iodTemp := iodTemp }, mgmt := { s.mgmt with cardPower := power } }

/-- The evaluation of the sensors, then of the health state. -/
def State.evaluate (s : State) (waited : Bool) : State := s.setHealth (s.healthNow waited)

/-- HEALTH_EVALUATE (R558, R560, R564): the island reads the sensors that no other command gives, the I/O die's temperature and
the card's input power. -/
def execHealthEvaluate (iodTemp power : Nat) (waited : Bool) (s : State) : Res :=
  if !s.board.pwrOk || decide (s.boot.step < 2) then .next s
  else .next ((s.setReadings iodTemp power).sensorEvents.evaluate waited)

/-! ### The panel -/

/-- PANEL_INTERVAL_END (R564). -/
def execPanelIntervalEnd (s : State) : Res := .next { s with panel := { s.panel with lastStart := none } }

/-- PANEL_CLEARING_WAVEFORM (R565): before the boot draw, with IN_PROGRESS found set; the panel ends white. -/
def execPanelClearingWaveform (s : State) : Res :=
  let p := s.panel
  if p.waiting && !p.bootDrawn && p.inProgress && !p.clearing && decide (p.step = 0) && !p.comparator then
    .next { s with panel := { p with clearing := true, shown := none, hatched := false, partly := false } }
  else .next s

/-- R562, R565: the codes that a frame shows: those of this cold reset, then those carried over. -/
def Panel.nextCodes (p : Panel) : List (Nat × Bool) :=
  let old := if p.bootDrawn then p.codes.filter fun c => c.2 else p.codes.map fun c => (c.1, true)
  ((p.fresh.map fun c => (c, false)) ++ old).take 3

/-- R564, R565, R567: an update may start. -/
def Panel.mayStart (p : Panel) : Bool :=
  p.waiting && decide (p.step = 0) && !p.comparator && (if p.bootDrawn then p.lastStart.isNone else !p.inProgress || p.clearing)

/-- PANEL_UPDATE_START (Table 21-9, step 1): the state is drawn as it stands now. -/
def execPanelUpdateStart (s : State) : Res :=
  let p := s.panel
  if s.straps.panel && s.board.pwrOk && p.mayStart then
    let frame : PanelFrame := { devnum := if s.pool.st = .member then some s.pool.devnum else none, health := if s.boot.step < 2 then s.healthNow false else s.mgmt.health, codes := p.nextCodes }
    .next { s with panel := { p with codes := p.nextCodes, inProgress := true, next := some frame, step := 1, waiting := false, bootDrawn := true,
                                     clearing := false, lastStart := some s.now } }
  else .next s

/-- A step of Table 21-9 follows the one before it; the bridge goes on without the FX288. -/
def State.panelStep (s : State) (from_ : Nat) (f : Panel → Panel) : Res :=
  if s.panel.step = from_ then .next { s with panel := f s.panel } else .next s

/-- PANEL_BAND_HATCHED (step 2). -/
def execPanelBandHatched (s : State) : Res := s.panelStep 1 fun p => { p with step := 2, hatched := true }

/-- PANEL_FULL_REFRESH_DONE (step 3). -/
def execPanelFullRefreshDone (s : State) : Res := s.panelStep 2 fun p => { p with step := 3, shown := p.next, partly := false }

/-- PANEL_BAND_WHITE (steps 4 and 5). -/
def execPanelBandWhite (s : State) : Res := s.panelStep 3 fun p => { p with step := 0, hatched := false, inProgress := false, next := none }

/-- POWER_FAIL_COMPARATOR (R567): 12 V is below 10.8 V. -/
def execPowerFailComparator (s : State) : Res := .next { s with panel := { s.panel with comparator := true } }

/-- COMPARATOR_DEASSERT (R567): 12 V has been above 11.4 V for 100 ms. -/
def execComparatorDeassert (s : State) : Res := .next { s with panel := { s.panel with comparator := false } }

/-- PANEL_HOLD_UP_FAIL (R567): the update stops where it is; IN_PROGRESS stays set, and so does a band. -/
def execPanelHoldUpFail (s : State) : Res :=
  let p := s.panel
  if p.comparator && decide (p.step ≠ 0) then
    .next { s with panel := { p with step := 0, next := none, partly := p.partly || decide (p.step = 2) } }
  else .next s

end Sys2Proof.Machine
end

