-- ==== Sys2Proof/Machine/Dispatch.lean ====
section
/-! DEFINITION. One arm per command, in the order of spec/opcode_table.json; each calls its meaning. -/
namespace Sys2Proof.Machine

def exec (i : Instr) (s : State) : Host.Outcome State Fault Refusal :=
  match i with
  | .powerOn straps fuses => Sys2Proof.Machine.execPowerOn straps fuses s
  | .mgmtIslandStart => Sys2Proof.Machine.execMgmtIslandStart s
  | .quietClockLock => Sys2Proof.Machine.execQuietClockLock s
  | .sfdpParse signature dense addr4 octal quad => Sys2Proof.Machine.execSfdpParse signature dense addr4 octal quad s
  | .discoveryStart => Sys2Proof.Machine.execDiscoveryStart s
  | .slicePllLock die => Sys2Proof.Machine.execSlicePllLock die s
  | .leatWireTraining die dn up => Sys2Proof.Machine.execLeatWireTraining die dn up s
  | .identityMessage die serial rev level good => Sys2Proof.Machine.execIdentityMessage die serial rev level good s
  | .channelFailureMaskReport die mask => Sys2Proof.Machine.execChannelFailureMaskReport die mask s
  | .discoveryDeadline step => Sys2Proof.Machine.execDiscoveryDeadline step s
  | .inventoryFix => Sys2Proof.Machine.execInventoryFix s
  | .cxlTrainingStart port => Sys2Proof.Machine.execCxlTrainingStart port s
  | .slotStage slot bytes => Sys2Proof.Machine.execSlotStage slot bytes s
  | .slotSelection => Sys2Proof.Machine.execSlotSelection s
  | .imageApply pick => Sys2Proof.Machine.execImageApply pick s
  | .coldRstNAssert => Sys2Proof.Machine.execColdRstNAssert s
  | .warmRstNAssert => Sys2Proof.Machine.execWarmRstNAssert s
  | .warmResetTaskStop => Sys2Proof.Machine.execWarmResetTaskStop s
  | .warmResetFlush acked pick => Sys2Proof.Machine.execWarmResetFlush acked pick s
  | .warmImageReapply ok => Sys2Proof.Machine.execWarmImageReapply ok s
  | .warmResetComplete pick => Sys2Proof.Machine.execWarmResetComplete pick s
  | .portReset port perst pick => Sys2Proof.Machine.execPortReset port perst pick s
  | .powerLoss => Sys2Proof.Machine.execPowerLoss s
  | .refGlitch ref ns => Sys2Proof.Machine.execRefGlitch ref ns s
  | .refLoss ref pick => Sys2Proof.Machine.execRefLoss ref pick s
  | .freqWindowEnd ref hz pick => Sys2Proof.Machine.execFreqWindowEnd ref hz pick s
  | .refReturn ref => Sys2Proof.Machine.execRefReturn ref s
  | .quietClockFail pick => Sys2Proof.Machine.execQuietClockFail pick s
  | .thermalSample die readings => Sys2Proof.Machine.execThermalSample die readings s
  | .iodThermalTrip temp => Sys2Proof.Machine.execIodThermalTrip temp s
  | .sliceClockGate slice => Sys2Proof.Machine.execSliceClockGate slice s
  | .slicePowerGate slice choice idle => Sys2Proof.Machine.execSlicePowerGate slice choice idle s
  | .sliceWake slice pick => Sys2Proof.Machine.execSliceWake slice pick s
  | .runnerGate slice => Sys2Proof.Machine.execRunnerGate slice s
  | .stackSelfRefresh die choice idle => Sys2Proof.Machine.execStackSelfRefresh die choice idle s
  | .cardPowerSense sense0 sense1 => Sys2Proof.Machine.execCardPowerSense sense0 sense1 s
  | .leatEccError die double line sec => Sys2Proof.Machine.execLeatEccError die double line sec s
  | .testLogicReset => Sys2Proof.Machine.execTestLogicReset s
  | .extest pins bits => Sys2Proof.Machine.execExtest s pins bits
  | .idcode => Sys2Proof.Machine.execIdcode s
  | .sample pins => Sys2Proof.Machine.execSample pins s
  | .preload bits => Sys2Proof.Machine.execPreload bits s
  | .clamp => Sys2Proof.Machine.execClamp s
  | .highz => Sys2Proof.Machine.execHighz s
  | .ijtagAccess => Sys2Proof.Machine.execIjtagAccess s
  | .dieSummary => Sys2Proof.Machine.execDieSummary s
  | .bypass => Sys2Proof.Machine.execBypass s
  | .sibUpdate sibs => Sys2Proof.Machine.execSibUpdate sibs s
  | .dieComPowered die => Sys2Proof.Machine.execDieComPowered die s
  | .policyWriteArrive reg val vd => Sys2Proof.Machine.execPolicyWriteArrive reg val vd s
  | .fmThreshWrite => Sys2Proof.Machine.execFmThreshWrite s
  | .fmWscaleWrite => Sys2Proof.Machine.execFmWscaleWrite s
  | .refreshCapWrite => Sys2Proof.Machine.execRefreshCapWrite s
  | .srMinIdleWrite => Sys2Proof.Machine.execSrMinIdleWrite s
  | .pgMinIdleWrite => Sys2Proof.Machine.execPgMinIdleWrite s
  | .keepAwakeWrite pick => Sys2Proof.Machine.execKeepAwakeWrite pick s
  | .spillMaxKWrite => Sys2Proof.Machine.execSpillMaxKWrite s
  | .hylEqHoldWrite => Sys2Proof.Machine.execHylEqHoldWrite s
  | .fantailCtrlWrite => Sys2Proof.Machine.execFantailCtrlWrite s
  | .regionPolicyWrite => Sys2Proof.Machine.execRegionPolicyWrite s
  | .vdQuotaTaskWrite => Sys2Proof.Machine.execVdQuotaTaskWrite s
  | .vdQuotaBufWrite => Sys2Proof.Machine.execVdQuotaBufWrite s
  | .vdQuotaPageWrite => Sys2Proof.Machine.execVdQuotaPageWrite s
  | .vdQuotaPenWrite => Sys2Proof.Machine.execVdQuotaPenWrite s
  | .vdQosWrite => Sys2Proof.Machine.execVdQosWrite s
  | .policyWriteComplete => Sys2Proof.Machine.execPolicyWriteComplete s
  | .linkUp port rate width cxl mld sris pick => Sys2Proof.Machine.execLinkUp port rate width cxl mld s sris pick
  | .linkDown port surprise pick => Sys2Proof.Machine.execLinkDown port surprise pick s
  | .l1EntryRequest port level => Sys2Proof.Machine.execL1EntryRequest port level s
  | .ideIntegrityFailure port pick => Sys2Proof.Machine.execIdeIntegrityFailure port pick s
  | .functionLevelReset port ld => Sys2Proof.Machine.execFunctionLevelReset port ld s
  | .cxlReset port ld memClr => Sys2Proof.Machine.execCxlReset port ld memClr s
  | .memRd r ld hit pick => Sys2Proof.Machine.execMemRd r ld hit pick s
  | .memWr r ld hit pick => Sys2Proof.Machine.execMemWr r ld hit pick s
  | .memClnEvct r ld hit pick => Sys2Proof.Machine.execMemClnEvct r ld hit pick s
  | .memSpecRd port ld dpa hit pick => Sys2Proof.Machine.execMemSpecRd port ld dpa hit pick s
  | .birsp port line half rsp pick => Sys2Proof.Machine.execBirsp port line half rsp pick s
  | .bisnpTimeout port line pick => Sys2Proof.Machine.execBisnpTimeout port line pick s
  | .biconflict port line tag => Sys2Proof.Machine.execBiconflict port line tag s
  | .devloadUpdate port => Sys2Proof.Machine.execDevloadUpdate port s
  | .getLdInfo h port => Sys2Proof.Machine.execGetLdInfo h port s
  | .getLdAllocations h port => Sys2Proof.Machine.execGetLdAllocations h port s
  | .setLdAllocations h => Sys2Proof.Machine.execSetLdAllocations h s
  | .getQosControl h port => Sys2Proof.Machine.execGetQosControl h port s
  | .setQosControl h => Sys2Proof.Machine.execSetQosControl h s
  | .getQosStatus h port => Sys2Proof.Machine.execGetQosStatus h port s
  | .getQosAllocatedBw h port => Sys2Proof.Machine.execGetQosAllocatedBw h port s
  | .getDcdInfo h => Sys2Proof.Machine.execGetDcdInfo h s
  | .getHostDcRegionConfiguration h vd => Sys2Proof.Machine.execGetHostDcRegionConfiguration h vd s
  | .setDcRegionConfiguration h vd region base len block => Sys2Proof.Machine.execSetDcRegionConfiguration h vd region base len block s
  | .getDcRegionExtentLists h vd => Sys2Proof.Machine.execGetDcRegionExtentLists h vd s
  | .initiateDynamicCapacityAdd h vd extents shared => Sys2Proof.Machine.execInitiateDynamicCapacityAdd h vd extents shared s
  | .initiateDynamicCapacityRelease h vd extents forced pick => Sys2Proof.Machine.execInitiateDynamicCapacityRelease h vd extents forced pick s
  | .fmApiUnsupported h op => Sys2Proof.Machine.execFmApiUnsupported h op s
  | .extentOfferTimeout vd base => Sys2Proof.Machine.execExtentOfferTimeout vd base s
  | .mbIdentify vd => Sys2Proof.Machine.execMbIdentify vd s
  | .backgroundOperationStatus vd => Sys2Proof.Machine.execBackgroundOperationStatus vd s
  | .getEventRecords vd log => Sys2Proof.Machine.execGetEventRecords vd log s
  | .clearEventRecords vd log all handles => Sys2Proof.Machine.execClearEventRecords vd log all handles s
  | .getEventInterruptPolicy vd => Sys2Proof.Machine.execGetEventInterruptPolicy vd s
  | .setEventInterruptPolicy vd log vector => Sys2Proof.Machine.execSetEventInterruptPolicy vd log vector s
  | .getTimestamp vd => Sys2Proof.Machine.execGetTimestamp vd s
  | .setTimestamp vd value => Sys2Proof.Machine.execSetTimestamp vd value s
  | .getSupportedLogs vd => Sys2Proof.Machine.execGetSupportedLogs vd s
  | .getLog vd log => Sys2Proof.Machine.execGetLog vd log s
  | .identifyMemoryDevice vd => Sys2Proof.Machine.execIdentifyMemoryDevice vd s
  | .getHealthInfo vd => Sys2Proof.Machine.execGetHealthInfo vd s
  | .getAlertConfiguration vd => Sys2Proof.Machine.execGetAlertConfiguration vd s
  | .setAlertConfiguration vd value => Sys2Proof.Machine.execSetAlertConfiguration vd value s
  | .getPoisonList vd lo len => Sys2Proof.Machine.execGetPoisonList vd lo len s
  | .injectPoison vd dpa x => Sys2Proof.Machine.execInjectPoison vd dpa x s
  | .clearPoison vd dpa data x => Sys2Proof.Machine.execClearPoison vd dpa data x s
  | .getScanMediaCapabilities vd lo len => Sys2Proof.Machine.execGetScanMediaCapabilities vd lo len s
  | .scanMedia vd lo len => Sys2Proof.Machine.execScanMedia vd lo len s
  | .getScanMediaResults vd => Sys2Proof.Machine.execGetScanMediaResults vd s
  | .sanitize vd => Sys2Proof.Machine.execSanitize vd s
  | .secureErase vd => Sys2Proof.Machine.execSecureErase vd s
  | .backgroundOperationDone vd pick => Sys2Proof.Machine.execBackgroundOperationDone vd pick s
  | .getDynamicCapacityConfiguration vd => Sys2Proof.Machine.execGetDynamicCapacityConfiguration vd s
  | .getDynamicCapacityExtentList vd start => Sys2Proof.Machine.execGetDynamicCapacityExtentList vd s start
  | .addDynamicCapacityResponse vd extents => Sys2Proof.Machine.execAddDynamicCapacityResponse vd extents s
  | .releaseDynamicCapacity vd extents pick => Sys2Proof.Machine.execReleaseDynamicCapacity vd extents pick s
  | .mailboxUnsupported vd op => Sys2Proof.Machine.execMailboxUnsupported vd op s
  | .vdResetTrigger vd cause => Sys2Proof.Machine.execVdResetTrigger vd cause s
  | .vdResetTaskStop vd => Sys2Proof.Machine.execVdResetTaskStop vd s
  | .vdResetAbandon vd => Sys2Proof.Machine.execVdResetAbandon vd s
  | .vdResetSweep vd x => Sys2Proof.Machine.execVdResetSweep vd x s
  | .vdResetComplete vd pick => Sys2Proof.Machine.execVdResetComplete vd pick s
  | .errRingCtrlWrite vd value => Sys2Proof.Machine.execErrRingCtrlWrite vd value s
  | .errRingHeadWrite vd value => Sys2Proof.Machine.execErrRingHeadWrite vd value s
  | .errRingBaseWrite vd hi value => Sys2Proof.Machine.execErrRingBaseWrite vd hi value s
  | .errorRecordWriteFail vd => Sys2Proof.Machine.execErrorRecordWriteFail vd s
  | .errRingMsixDefer vd => Sys2Proof.Machine.execErrRingMsixDefer vd s
  | .sharedEntryGrant q pick x => Sys2Proof.Machine.execSharedEntryGrant q pick x s
  | .localRead r pick err => Sys2Proof.Machine.execLocalRead r pick err s
  | .localWrite r pick => Sys2Proof.Machine.execLocalWrite r pick s
  | .dramFillReturn line pick => Sys2Proof.Machine.execDramFillReturn line pick s
  | .localReduction r pick => Sys2Proof.Machine.execLocalReduction r pick s
  | .sliceAtomic r pick => Sys2Proof.Machine.execSliceAtomic r pick s
  | .memSideAtomicDone line pick => Sys2Proof.Machine.execMemSideAtomicDone line pick s
  | .rdS m pick => Sys2Proof.Machine.execRdS m pick s
  | .rdX m pick => Sys2Proof.Machine.execRdX m pick s
  | .upg m pick => Sys2Proof.Machine.execUpg m pick s
  | .rdNc m pick => Sys2Proof.Machine.execRdNc m pick s
  | .wrNc m pick => Sys2Proof.Machine.execWrNc m pick s
  | .red m pick => Sys2Proof.Machine.execRed m pick s
  | .atom m pick => Sys2Proof.Machine.execAtom m pick s
  | .snpInv m pick => Sys2Proof.Machine.execSnpInv m pick s
  | .snpData m pick => Sys2Proof.Machine.execSnpData m pick s
  | .snpCur m pick => Sys2Proof.Machine.execSnpCur m pick s
  | .rspI m pick => Sys2Proof.Machine.execRspI m pick s
  | .rspS m pick => Sys2Proof.Machine.execRspS m pick s
  | .rspE m pick => Sys2Proof.Machine.execRspE m pick s
  | .rspNp m pick => Sys2Proof.Machine.execRspNp m pick s
  | .gntAck m pick => Sys2Proof.Machine.execGntAck m pick s
  | .cmp m x => Sys2Proof.Machine.execCmp m x s
  | .cmpE m pick => Sys2Proof.Machine.execCmpE m pick s
  | .wbAck m pick => Sys2Proof.Machine.execWbAck m pick s
  | .fillS m pick => Sys2Proof.Machine.execFillS m pick s
  | .fillE m pick => Sys2Proof.Machine.execFillE m pick s
  | .rdDat m x => Sys2Proof.Machine.execRdDat m x s
  | .datI m pick => Sys2Proof.Machine.execDatI m pick s
  | .datS m pick => Sys2Proof.Machine.execDatS m pick s
  | .datE m pick => Sys2Proof.Machine.execDatE m pick s
  | .wb m pick => Sys2Proof.Machine.execWb m pick s
  | .snoopTimeout line dev pick => Sys2Proof.Machine.execSnoopTimeout line dev pick s
  | .directoryDepartureSweep slice dev => Sys2Proof.Machine.execDirectoryDepartureSweep slice dev s
  | .release cmd slice full => Sys2Proof.Machine.execRelease cmd slice full s
  | .hopAlloc cmd pick => Sys2Proof.Machine.execHopAlloc cmd pick s
  | .hopAdopt cmd pick => Sys2Proof.Machine.execHopAdopt cmd pick s
  | .hopFree cmd => Sys2Proof.Machine.execHopFree cmd s
  | .hopQuery cmd x => Sys2Proof.Machine.execHopQuery cmd x s
  | .hopTransfer cmd pick => Sys2Proof.Machine.execHopTransfer cmd pick s
  | .transferSwitch cmd x => Sys2Proof.Machine.execTransferSwitch cmd x s
  | .quarantineEnd pool index => Sys2Proof.Machine.execQuarantineEnd pool index s
  | .hopperBackgroundPass => Sys2Proof.Machine.execHopperBackgroundPass s
  | .sluiceWalk vd page pick => Sys2Proof.Machine.execSluiceWalk vd page pick s
  | .pageZeroDone vd page pick => Sys2Proof.Machine.execPageZeroDone vd page pick s
  | .pageMoveStart place pick => Sys2Proof.Machine.execPageMoveStart place pick s
  | .moveAckComplete vd page => Sys2Proof.Machine.execMoveAckComplete vd page s
  | .moveCopyDone vd page x => Sys2Proof.Machine.execMoveCopyDone vd page x s
  | .moveSourceFree vd page => Sys2Proof.Machine.execMoveSourceFree vd page s
  | .moveDeadline vd page pick => Sys2Proof.Machine.execMoveDeadline vd page pick s
  | .fantailEvaluation => Sys2Proof.Machine.execFantailEvaluation s
  | .promoteDone slot => Sys2Proof.Machine.execPromoteDone slot s
  | .demoteDone slot => Sys2Proof.Machine.execDemoteDone slot s
  | .slPlace cmd pick => Sys2Proof.Machine.execSlPlace cmd pick s
  | .slPin cmd => Sys2Proof.Machine.execSlPin cmd s
  | .slUnpin cmd => Sys2Proof.Machine.execSlUnpin cmd s
  | .slQuery cmd x => Sys2Proof.Machine.execSlQuery cmd x s
  | .slGrant cmd pick => Sys2Proof.Machine.execSlGrant cmd pick s
  | .slRevoke cmd => Sys2Proof.Machine.execSlRevoke cmd s
  | .slAttach cmd => Sys2Proof.Machine.execSlAttach cmd s
  | .slDetach cmd => Sys2Proof.Machine.execSlDetach cmd s
  | .grantRevocation dev slot => Sys2Proof.Machine.execGrantRevocation dev slot s
  | .refreshLoopDecision channel choice => Sys2Proof.Machine.execRefreshLoopDecision channel choice s
  | .equalisationDecision port asks lane req => Sys2Proof.Machine.execEqualisationDecision port asks s lane req
  | .ringDb vd ring value => Sys2Proof.Machine.execRingDb vd ring value s
  | .cqDb vd ring value => Sys2Proof.Machine.execCqDb vd ring value s
  | .ringCtrlWrite vd ring value => Sys2Proof.Machine.execRingCtrlWrite vd ring value s
  | .ringBaseWrite vd ring reg value => Sys2Proof.Machine.execRingBaseWrite vd ring reg value s
  | .descriptorRead vd ring x => Sys2Proof.Machine.execDescriptorRead vd ring x s
  | .cancelTag vd value => Sys2Proof.Machine.execCancelTag vd value s
  | .cancelStream vd value => Sys2Proof.Machine.execCancelStream vd value s
  | .cancelRing vd value => Sys2Proof.Machine.execCancelRing vd value s
  | .cancelAllRings vd value => Sys2Proof.Machine.execCancelAllRings vd value s
  | .capturedEntryRead vd ring x => Sys2Proof.Machine.execCapturedEntryRead vd ring x s
  | .commandDecode cmd => Sys2Proof.Machine.execCommandDecode cmd s
  | .commandReady cmd x => Sys2Proof.Machine.execCommandReady cmd x s
  | .taskCreate cmd => Sys2Proof.Machine.execTaskCreate cmd s
  | .taskLaunch slice pick => Sys2Proof.Machine.execTaskLaunch slice pick s
  | .taskTerminate cmd slice x => Sys2Proof.Machine.execTaskTerminate cmd slice x s
  | .completionWriteFail vd ring x => Sys2Proof.Machine.execCompletionWriteFail vd ring x s
  | .ringMsixDefer vd ring => Sys2Proof.Machine.execRingMsixDefer vd ring s
  | .nop cmd => Sys2Proof.Machine.execNop cmd s
  | .fence cmd => Sys2Proof.Machine.execFence cmd s
  | .copy cmd slice x => Sys2Proof.Machine.execCopy cmd slice x s
  | .fill cmd slice x => Sys2Proof.Machine.execFill cmd slice x s
  | .compare cmd slice x => Sys2Proof.Machine.execCompare cmd slice x s
  | .atomic cmd slice x => Sys2Proof.Machine.execAtomic cmd slice x s
  | .reduce cmd slice x => Sys2Proof.Machine.execReduce cmd slice x s
  | .matmul cmd slice => Sys2Proof.Machine.execMatmul cmd slice s
  | .paramUpdate cmd slice x => Sys2Proof.Machine.execParamUpdate cmd slice x s
  | .embGather cmd slice x => Sys2Proof.Machine.execEmbGather cmd slice x s
  | .kvAppend cmd slice x => Sys2Proof.Machine.execKvAppend cmd slice x s
  | .attnDecode cmd slice x => Sys2Proof.Machine.execAttnDecode cmd slice x s
  | .collective cmd x => Sys2Proof.Machine.execCollective cmd x s
  | .serviceCall cmd => Sys2Proof.Machine.execServiceCall cmd s
  | .penLease cmd pick => Sys2Proof.Machine.execPenLease cmd pick s
  | .penDrop cmd => Sys2Proof.Machine.execPenDrop cmd s
  | .penSignal cmd => Sys2Proof.Machine.execPenSignal cmd s
  | .penReset cmd => Sys2Proof.Machine.execPenReset cmd s
  | .penRead cmd => Sys2Proof.Machine.execPenRead cmd s
  | .penArm cmd => Sys2Proof.Machine.execPenArm cmd s
  | .penExport cmd pick => Sys2Proof.Machine.execPenExport cmd pick s
  | .penImport cmd => Sys2Proof.Machine.execPenImport cmd s
  | .penUnexport cmd => Sys2Proof.Machine.execPenUnexport cmd s
  | .runnerTileAttempt slice err x => Sys2Proof.Machine.execRunnerTileAttempt slice err x s
  | .spill slice => Sys2Proof.Machine.execSpill slice s
  | .localTileLoaded slice x => Sys2Proof.Machine.execLocalTileLoaded slice x s
  | .accSetSwap slice wait => Sys2Proof.Machine.execAccSetSwap slice wait s
  | .drainDone slice x => Sys2Proof.Machine.execDrainDone slice x s
  | .flumeRunGrant die pick => Sys2Proof.Machine.execFlumeRunGrant die pick s
  | .flumePeriodStart die wait slips => Sys2Proof.Machine.execFlumePeriodStart die wait slips s
  | .flumeRunEnd die wait => Sys2Proof.Machine.execFlumeRunEnd die s wait
  | .raceGrant race out arrived credits => Sys2Proof.Machine.execRaceGrant race out arrived s credits
  | .hylDetectPoll port lanes => Sys2Proof.Machine.execHylDetectPoll port lanes s
  | .hylTrainDone port lanes expired precode => Sys2Proof.Machine.execHylTrainDone port lanes expired precode s
  | .trainingBlockReceive port lane bytes => Sys2Proof.Machine.execTrainingBlockReceive port lane bytes s
  | .hylConfigDone port => Sys2Proof.Machine.execHylConfigDone port s
  | .flitReceive port wire => Sys2Proof.Machine.execFlitReceive port wire s
  | .replayTimeout port => Sys2Proof.Machine.execReplayTimeout port s
  | .laneLockLoss port lane => Sys2Proof.Machine.execLaneLockLoss port lane s
  | .noFlitTimeout port => Sys2Proof.Machine.execNoFlitTimeout port s
  | .recoveryAttemptTimeout port => Sys2Proof.Machine.execRecoveryAttemptTimeout port s
  | .wreq port lanes devnum serial => Sys2Proof.Machine.execWreq port lanes devnum serial s
  | .wack port lanes => Sys2Proof.Machine.execWack port lanes s
  | .widthChangeDone port => Sys2Proof.Machine.execWidthChangeDone port s
  | .hylIdleTimer port => Sys2Proof.Machine.execHylIdleTimer port s
  | .pmReq port => Sys2Proof.Machine.execPmReq port s
  | .pmAck port => Sys2Proof.Machine.execPmAck port s
  | .pmNak port => Sys2Proof.Machine.execPmNak port s
  | .l1ToL1d port => Sys2Proof.Machine.execL1ToL1d port s
  | .hylWake port => Sys2Proof.Machine.execHylWake port s
  | .hylDownTimer port => Sys2Proof.Machine.execHylDownTimer port s
  | .qsfpModuleDetect cage present lowest => Sys2Proof.Machine.execQsfpModuleDetect cage present lowest s
  | .hello port h => Sys2Proof.Machine.execHello port h s
  | .helloTimer port => Sys2Proof.Machine.execHelloTimer port s
  | .elect f serial => Sys2Proof.Machine.execElect f serial s
  | .electTimeout => Sys2Proof.Machine.execElectTimeout s
  | .joinReq f serial links => Sys2Proof.Machine.execJoinReq f serial links s
  | .joinReqTimer => Sys2Proof.Machine.execJoinReqTimer s
  | .poolMember f serial number isIn offset x => Sys2Proof.Machine.execPoolMember f serial number isIn offset x s
  | .departureSweepDone device => Sys2Proof.Machine.execDepartureSweepDone device s
  | .linkState f reporter device ok => Sys2Proof.Machine.execLinkState f reporter device ok s
  | .departureTimer device x => Sys2Proof.Machine.execDepartureTimer device x s
  | .leave f device x => Sys2Proof.Machine.execLeave f device x s
  | .sweepDone f reporter device => Sys2Proof.Machine.execSweepDone f reporter device s
  | .isolationTimer x => Sys2Proof.Machine.execIsolationTimer x s
  | .timeSyncTimer => Sys2Proof.Machine.execTimeSyncTimer s
  | .timeReq port => Sys2Proof.Machine.execTimeReq port s
  | .timeRsp port delta upstream => Sys2Proof.Machine.execTimeRsp port delta upstream s
  | .unreach device op tag line x => Sys2Proof.Machine.execUnreach device op tag line x s
  | .penReq dev vd tag op ticket value qos => Sys2Proof.Machine.execPenReq dev vd tag op ticket value s qos
  | .penRsp dev vd tag ans => Sys2Proof.Machine.execPenRsp dev vd tag ans s
  | .slReq dev m x => Sys2Proof.Machine.execSlReq dev m x s
  | .slRsp dev m x => Sys2Proof.Machine.execSlRsp dev m x s
  | .collReady r x => Sys2Proof.Machine.execCollReady r x s
  | .collData dev bridge seq part step line data pois x => Sys2Proof.Machine.execCollData dev bridge seq part step line data pois x s
  | .collStep dev bridge seq part step count x => Sys2Proof.Machine.execCollStep dev bridge seq part step count x s
  | .collReadyTimeout cmd => Sys2Proof.Machine.execCollReadyTimeout cmd s
  | .remoteOpTimeout place x => Sys2Proof.Machine.execRemoteOpTimeout place x s
  | .meterLeak cls => Sys2Proof.Machine.execMeterLeak cls s
  | .dramUeReread line sector bad oneRow => Sys2Proof.Machine.execDramUeReread line sector bad oneRow s
  | .patrolScrub line found => Sys2Proof.Machine.execPatrolScrub line found s
  | .waitingRetirementStart cls inst => Sys2Proof.Machine.execWaitingRetirementStart cls inst s
  | .rowPprDone channel slot => Sys2Proof.Machine.execRowPprDone channel slot s
  | .channelMetadataCopyDone channel lost known => Sys2Proof.Machine.execChannelMetadataCopyDone channel lost known s
  | .channelPageMovesDone channel pick => Sys2Proof.Machine.execChannelPageMovesDone channel pick s
  | .bayCopyDone bay => Sys2Proof.Machine.execBayCopyDone bay s
  | .sliceDrainDone slice lost known => Sys2Proof.Machine.execSliceDrainDone slice s lost known
  | .sliceRetired slice pick => Sys2Proof.Machine.execSliceRetired slice pick s
  | .dieProxyWritebackDone die => Sys2Proof.Machine.execDieProxyWritebackDone die s
  | .dieMetadataRestoreDone die known => Sys2Proof.Machine.execDieMetadataRestoreDone die known s
  | .lostSetSweep slice set => Sys2Proof.Machine.execLostSetSweep slice set s
  | .logCoalesceTimer cls code unit => Sys2Proof.Machine.execLogCoalesceTimer cls code unit s
  | .gaugeCtrlWrite gauge value => Sys2Proof.Machine.execGaugeCtrlWrite gauge value s
  | .gaugeConfigWrite gauge off wide value => Sys2Proof.Machine.execGaugeConfigWrite gauge off wide value s
  | .gaugeWindowEnd gauge => Sys2Proof.Machine.execGaugeWindowEnd gauge s
  | .gaugeSampleInstant gauge units => Sys2Proof.Machine.execGaugeSampleInstant gauge units s
  | .mctpMessageReceive h => Sys2Proof.Machine.execMctpMessageReceive h s
  | .setEndpointId h eid => Sys2Proof.Machine.execSetEndpointId h eid s
  | .read32 h flags off => Sys2Proof.Machine.execRead32 h flags off s
  | .write32 h flags off value => Sys2Proof.Machine.execWrite32 h flags off value s
  | .read64 h flags off => Sys2Proof.Machine.execRead64 h flags off s
  | .write64 h flags off value => Sys2Proof.Machine.execWrite64 h flags off value s
  | .logRead h flags seq count => Sys2Proof.Machine.execLogRead h flags seq count s
  | .fatalLogRead h flags index count => Sys2Proof.Machine.execFatalLogRead h flags index count s
  | .coldReset h flags => Sys2Proof.Machine.execColdReset h flags s
  | .warmReset h flags => Sys2Proof.Machine.execWarmReset h flags s
  | .vdReset h flags vd => Sys2Proof.Machine.execVdReset h flags vd s
  | .poolLeave h flags => Sys2Proof.Machine.execPoolLeave h flags s
  | .identify h flags value => Sys2Proof.Machine.execIdentify h flags value s
  | .panelUpdate h flags => Sys2Proof.Machine.execPanelUpdate h flags s
  | .getVersion h => Sys2Proof.Machine.execGetVersion h s
  | .getCapabilities h => Sys2Proof.Machine.execGetCapabilities h s
  | .negotiateAlgorithms h => Sys2Proof.Machine.execNegotiateAlgorithms h s
  | .getDigests h => Sys2Proof.Machine.execGetDigests h s
  | .getCertificate h slot => Sys2Proof.Machine.execGetCertificate h slot s
  | .challenge h slot => Sys2Proof.Machine.execChallenge h slot s
  | .getMeasurements h index => Sys2Proof.Machine.execGetMeasurements h index s
  | .keyExchange h => Sys2Proof.Machine.execKeyExchange h s
  | .finish h session => Sys2Proof.Machine.execFinish h session s
  | .endSession h session => Sys2Proof.Machine.execEndSession h session s
  | .getTid h => Sys2Proof.Machine.execGetTid h s
  | .setTid h tid => Sys2Proof.Machine.execSetTid h tid s
  | .getPldmVersion h ty => Sys2Proof.Machine.execGetPldmVersion h ty s
  | .getPldmTypes h => Sys2Proof.Machine.execGetPldmTypes h s
  | .getPldmCommands h ty => Sys2Proof.Machine.execGetPldmCommands h ty s
  | .setEventReceiver h receiver => Sys2Proof.Machine.execSetEventReceiver h receiver s
  | .getSensorReading h sensor => Sys2Proof.Machine.execGetSensorReading h sensor s
  | .getStateSensorReadings h sensor => Sys2Proof.Machine.execGetStateSensorReadings h sensor s
  | .getSensorThresholds h sensor => Sys2Proof.Machine.execGetSensorThresholds h sensor s
  | .getPdrRepositoryInfo h => Sys2Proof.Machine.execGetPdrRepositoryInfo h s
  | .getPdr h record => Sys2Proof.Machine.execGetPdr h record s
  | .pldmUnsupported h ty cmd => Sys2Proof.Machine.execPldmUnsupported h ty cmd s
  | .platformEventResend place acked => Sys2Proof.Machine.execPlatformEventResend place acked s
  | .healthEvaluate iodTemp power waited => Sys2Proof.Machine.execHealthEvaluate iodTemp power waited s
  | .panelIntervalEnd => Sys2Proof.Machine.execPanelIntervalEnd s
  | .panelClearingWaveform => Sys2Proof.Machine.execPanelClearingWaveform s
  | .panelUpdateStart => Sys2Proof.Machine.execPanelUpdateStart s
  | .panelBandHatched => Sys2Proof.Machine.execPanelBandHatched s
  | .panelFullRefreshDone => Sys2Proof.Machine.execPanelFullRefreshDone s
  | .panelBandWhite => Sys2Proof.Machine.execPanelBandWhite s
  | .powerFailComparator => Sys2Proof.Machine.execPowerFailComparator s
  | .comparatorDeassert => Sys2Proof.Machine.execComparatorDeassert s
  | .pgmReq low => Sys2Proof.Machine.execPgmReq low s
  | .unsupportedAccess m => Sys2Proof.Machine.execUnsupportedAccess m s
  | .registerWrite w => Sys2Proof.Machine.execRegisterWrite w s
  | .ideKm port session mem op stream skid pick => Sys2Proof.Machine.execIdeKm port session mem op s stream skid pick
  | .thermalHoldRelease temp => Sys2Proof.Machine.execThermalHoldRelease temp s
  | .panelHoldUpFail => Sys2Proof.Machine.execPanelHoldUpFail s
  | .vddIoInTolerance => Sys2Proof.Machine.execVddIoInTolerance s
  | .flumeRaceClockGate die => Sys2Proof.Machine.execFlumeRaceClockGate die s
  | .cxlReceiverError port lane => Sys2Proof.Machine.execCxlReceiverError port lane s
  | .cxlLinkRecovery port => Sys2Proof.Machine.execCxlLinkRecovery port s
  | .relockFail port => Sys2Proof.Machine.execRelockFail port s
  | .departedWriteEntryAge => Sys2Proof.Machine.execDepartedWriteEntryAge s

end Sys2Proof.Machine
end

