-- ==== Sys2Proof/Machine/Tick.lean ====
section
/-! DEFINITION. One nanosecond of the time base (R12, R60), and what the spec counts by time (notes/assumptions/2.md). -/
namespace Sys2Proof.Machine

/-- R205: what keeps the first request of a VD's input queue waiting: a miss register, or a waiter entry of its line's register. -/
def Slice.starved (x : Slice) (waiter : Bool) : Bool := (inqHeads x.inq [] []).any fun r => (x.missOf r.line).isSome == waiter

/-- Slice cycles (1.5 GHz, R51) that end in the nanosecond from `t` on. -/
def cyclesIn (t : Nat) : Nat := 3 * (t + 1) / 2 - 3 * t / 2

/-- SLC_MR_FULL_CNT and SLC_WAIT_FULL_CNT count cycles (Table 07-6). -/
def Slice.tick (x : Slice) (k : Nat) : Slice :=
  if x.stopped then x
  else { x with mrFull := if x.starved false then x.mrFull + BitVec.ofNat 32 k else x.mrFull
                waitFull := if x.starved true then x.waitFull + BitVec.ofNat 32 k else x.waitFull }

/-- Flit times that end in the nanosecond from `t` on, by the link's width: 16/7 ns at x8 (Table 16-2). -/
def flitsIn (t w : Nat) : Nat := 7 * w * (t + 1) / 128 - 7 * w * t / 128

/-- HYL_STALL_CNT_n (R423): flit times in L0 with 1024 flits held. -/
def HylPort.tick (p : HylPort) (t : Nat) : HylPort :=
  if p.st = .l0 ∧ 1024 ≤ p.held.length then { p with stall := p.stall + BitVec.ofNat 32 (flitsIn t (popCount 8 p.active)) } else p

/-- R60, R63: 1 ns passes, once the time base counts (step 3 of Table 03-8). -/
def State.tickNs (s : State) : State :=
  if s.boot.step < 3 then s
  else
    let s := (List.range 8).foldl State.askAgain s.linkSync
    { s with timeBase := s.timeBase + 1
             slices := s.slices.mapVal fun n x => if s.asleep n then x else x.tick (cyclesIn s.now)
             hyl := s.hyl.mapVal fun _ p => p.tick s.now
             clk := if s.clk.source = 1 ∧ s.clk.switched then { s.clk with holdover := s.clk.holdover + 1 } else s.clk }

end Sys2Proof.Machine
end

