-- ==== Sys2Proof/Machine/Step.lean ====
section
/-! DEFINITION. One step: the command at the front of the queue, or one tick of the time base (notes/assumptions/2.md). -/
namespace Sys2Proof.Machine

/-- The command at the front of the queue has its effect on the rest of the machine. On an empty queue 1 ns passes (R60). -/
def step (s : State) : Host.Outcome State Fault Refusal :=
  match s.pending with
  | c :: rest => exec c { s with pending := rest }
  | [] => .next s.tickNs

/-- The command that a word spells goes to the front of the queue; no row of the table gives bits, so none does. -/
def State.withFetchWord (s : State) (nbits w : Nat) : State :=
  match decodeTableWord nbits w with
  | some c => { s with pending := c :: s.pending }
  | none => s

end Sys2Proof.Machine
end

