-- ==== Sys2Proof/Safety.lean ====
section
/-! DEFINITION. What counts as a safe run, and the invariants that claims use. -/
namespace Sys2Proof.Machine

/-- The power-up sequence, warm reset and Memory Active agree (Tables 03-7 and 03-8, R70, R81, R154): nothing runs without power
or in the hold of R81, a warm reset runs only after discovery, and Memory Active is reported only after the image. -/
def State.BootOrder (s : State) : Prop :=
  s.boot.step ≤ 8 ∧ (s.board.pwrOk = false → s.boot.step = 0) ∧ (s.boot.thermalHold = true → s.boot.step = 0)
    ∧ (s.boot.warm ≠ 0 → 7 ≤ s.boot.step) ∧ (s.boot.memActive = true → s.boot.step = 8)

/-- DRAM and the pinned bays are in canonical form (notes/assumptions/4.md). -/
def State.MemCanonical (s : State) : Prop := Memory.wf s.mem ∧ Memory.wf s.bays

/-- A run of `k` steps that no step stops: what this block promises of every run (R23). -/
def State.SafeFor (s : State) (k : Nat) : Prop := ∃ t, Sys2Proof.core.run k s = .next t

/-- The state in which a row begins: it waits for nothing yet (notes/assumptions/26.md). -/
def State.fresh (s : State) : State := { s with stall := [] }

/-- A write to a window of a VD takes effect at once (R112, R124, R149, R150, R174, R301, R577). -/
def State.WindowOpen (s : State) (v : Nat) : Prop :=
  s.vdExists v = true ∧ (s.port (v / 16)).link = 2 ∧ s.exposed (v / 16) (v % 16) = true ∧ s.ideBlocks (v / 16) = false ∧ s.boot.warm = 0 ∧ s.portStuck (v / 16) = false ∧ s.boot.memActive = true
    ∧ (s.vd v).st = .ready

/-- A host reaches the mailbox of an LD, its port carries requests, and it is not busy (Table 05-10, R68, R149, R154). -/
def State.MailboxOpen (s : State) (v : Nat) : Prop :=
  s.mbReach v = true ∧ s.boot.warm = 0 ∧ s.portStuck (v / 16) = false ∧ s.boot.memActive = true

/-- An FM API request is at the front of the island's buffers and addressed to it (R548, R559). -/
def State.FmOpen (s : State) (h : MctpHdr) : Prop := s.served h 7 = true ∧ (h.port = none ∨ h.fm = true)

/-- A management request is at the front of the buffers, in a secured session where PCIe carries it, with an image applied
(R548-R551). -/
def State.MgmtOpen (s : State) (h : MctpHdr) : Prop :=
  s.served h 0x7E = true ∧ s.img.applied = true ∧ (h.port = none ∨ h.secured = true)

/-- Line `gl` of this device is idle at its home slice `n` and held there, all of it, in frame `f`; nothing is shared, and nothing
waits at the slice (Table 08-3, column HOME). -/
def State.HomeIdle (s : State) (n gl k : Nat) (f : Frame) : Prop :=
  lineDev gl = s.pool.devnum ∧ s.offLimits gl = false ∧ s.lostHome gl = false ∧ s.sliceOf gl = n ∧ s.power.refresh = []
    ∧ (s.slice n).stopped = false ∧ s.asleep n = false ∧ (s.slice n).inq = [] ∧ (s.slice n).miss = [] ∧ (s.slice n).busyAt = []
    ∧ s.promoted gl = false ∧ (s.slice n).hit gl = some (k, f) ∧ f.st = .h ∧ f.v = 15 ∧ f.busy = false ∧ s.attrs gl = (false, false)
    ∧ s.dirEntry (ownNum gl) = {} ∧ (s.dirWays (ownNum gl)).length + s.dirComing (ownNum gl) < 8 ∧ (s.slice (s.dirSet (ownNum gl) / 2 ^ 20)).lostSets = []

/-- No register of a slice waits for a way or for room to snoop (R195, R221). -/
def State.NoWaiters (s : State) : Prop :=
  Tab.wf s.slices = true ∧ ∀ n, ∀ e ∈ (s.slice n).miss, e.2.phase ≠ .way ∧ e.2.phase ≠ .dirFull

/-- A line's snoops are out at slice `n`, under register `m` (R225). -/
def State.Snooping (s : State) (n gl : Nat) (m : Miss) : Prop := s.NoWaiters ∧ s.register? gl = some (n, m) ∧ m.phase = .snoop

end Sys2Proof.Machine
end

