-- ==== Sys2Proof/Certificates/Slice0/Obligations.lean ====
section
/-!
DEFINITION. Statements about the FX288 for the provers. Each docstring names the rules of spec/ that its statement formalises;
OBLIGATIONS.json says how far.
-/
open Sys2Proof Sys2Proof.Machine

/-- R64, R66, R70, R586, R600, R604 (Tables 03-6, 03-8 and 22-12). -/
def Obligations.ResetsKeepOnlyFusesStrapsAndBoard : Prop :=
  (∀ (s : State) (st : Straps) (f : Fuses), s.board.pwrOk = false → s.board.vddIo = true → s.board.pgmReq = false →
    (st.card = false ∨ s.board.sense = some true) →
    exec (.powerOn st f) s = .next
      { pending := s.pending, freeCtr := s.freeCtr, out := s.out, fuses := f, straps := st
        board := { s.board with pwrOk := true }, panel := s.panel.cold, boot := { step := 1, cause := 1, last := 0, flashOwn := true }
        flt := { pprUsed := s.flt.pprUsed }
        ports := Tab.ofFn 4 {} fun p => { refMode := st.refm.getD p 0, perst := (s.port p).perst } }) ∧
  (∀ s : State, s.board.pwrOk = true →
    exec .powerLoss s = .next
      { pending := s.pending, freeCtr := s.freeCtr, out := s.out, fuses := s.fuses, straps := s.straps
        board := { s.board with pwrOk := false }, panel := s.panel.cold, flt := { pprUsed := s.flt.pprUsed }
        ports := Tab.ofFn 4 {} fun p => { refMode := s.straps.refm.getD p 0, perst := (s.port p).perst } }) ∧
  (∀ s : State, s.board.pwrOk = true → 1 ≤ s.boot.step →
    exec .coldRstNAssert s = .next
      { pending := s.pending, freeCtr := s.freeCtr, out := s.out, fuses := s.fuses, straps := s.straps, board := s.board
        panel := s.panel.cold, flt := { pprUsed := s.flt.pprUsed }
        boot := { step := 1, iodTemp := s.boot.iodTemp, flashOwn := true, cause := s.boot.cause ||| 2, last := 1 }
        ports := Tab.ofFn 4 {} fun p => { refMode := s.straps.refm.getD p 0, perst := (s.port p).perst } }) ∧
  (∀ s : State, s.board.pwrOk = true →
    exec (.pgmReq true) s = .next
      { pending := s.pending, freeCtr := s.freeCtr, out := s.out, fuses := s.fuses, straps := s.straps
        board := { s.board with pgmReq := true, pwrOk := false }, panel := s.panel.cold, flt := { pprUsed := s.flt.pprUsed }
        ports := Tab.ofFn 4 {} fun p => { refMode := s.straps.refm.getD p 0, perst := (s.port p).perst } }) ∧
  (∀ s : State, exec (.pgmReq false) s = .next { s with board := { s.board with pgmReq := false } })

/-- R81, whole. -/
def Obligations.JunctionTripHoldsTheDeviceInReset : Prop :=
  (∀ (s : State) (temp : Nat), s.board.pwrOk = true → 1 ≤ s.boot.step → 125 ≤ temp →
    ∃ t, exec (.iodThermalTrip temp) s = .next t
      ∧ t = { pending := s.pending, freeCtr := s.freeCtr, out := s.out, fuses := s.fuses, straps := s.straps, board := s.board
              panel := t.panel, boot := t.boot, flt := { pprUsed := s.flt.pprUsed }
              ports := Tab.ofFn 4 {} fun p => { refMode := s.straps.refm.getD p 0, perst := (s.port p).perst } }
      ∧ t.boot = { thermalHold := true, iodTemp := temp, cause := s.boot.cause ||| 8, last := 3 }) ∧
  (∀ (s : State) (temp : Nat), 100 ≤ temp → exec (.thermalHoldRelease temp) s = .next s) ∧
  (∀ (s : State) (temp : Nat), s.board.pwrOk = true → s.boot.thermalHold = true → temp < 100 →
    exec (.thermalHoldRelease temp) s
      = .next { s with boot := { s.boot with thermalHold := false, step := 1, iodTemp := temp, flashOwn := true } }) ∧
  (∀ s : State, s.boot.step = 0 →
    exec .mgmtIslandStart s = .next s ∧ exec .quietClockLock s = .next s ∧ exec .discoveryStart s = .next s
      ∧ (∀ a b c d e : Bool, exec (.sfdpParse a b c d e) s = .next s)
      ∧ (s.pending = [] → step s = .next s))

/-- R70 (Table 03-8), R83, R85, R30, R33 and R36. -/
def Obligations.PowerUpStepsRunInOrder : Prop :=
  (∀ s : State, s.board.pwrOk = true → s.boot.step = 1 →
    exec .mgmtIslandStart s = .next { s with boot := { s.boot with step := 2 } }) ∧
  (∀ s : State, s.board.pwrOk = true → s.boot.step = 2 →
    exec .quietClockLock s
      = .next { s with boot := { s.boot with step := 3 }, clk := { s.clk with source := 1 }, timeBase := 0 }) ∧
  (∀ (s : State) (octal quad : Bool), s.board.pwrOk = true → s.boot.step = 3 →
    exec (.sfdpParse true true true octal quad) s
      = .next { s with boot := { s.boot with step := 4, flashOk := true
                                             flashMode := if octal && s.straps.flashX8 then 3 else if quad then 2 else 1 } }) ∧
  (∀ (s : State) (a b c octal quad : Bool), s.board.pwrOk = true → s.boot.step = 3 → (a && b && c) = false →
    ∃ t, exec (.sfdpParse a b c octal quad) s = .next t ∧ t.boot.step = 4 ∧ t.boot.noImage = true ∧ t.boot.flashOwn = false
      ∧ (t.slot 0).code = 0x0601 ∧ (t.slot 1).code = 0x0601 ∧ (t.slot 2).code = 0x0601
      ∧ t = { s with boot := t.boot, ports := t.ports, panel := t.panel, flt := t.flt }) ∧
  (∀ s : State, s.board.pwrOk = true → s.boot.step = 4 →
    exec .discoveryStart s
      = .next { s with boot := { s.boot with step := 5 }, dies := Tab.ofFn 8 {} fun _ => { step := 1 } }) ∧
  (∀ s : State, s.board.pwrOk = true → s.boot.step = 5 → s.boot.noImage = false → s.boot.warmWait = none →
    ∃ t, exec .inventoryFix s = .next t ∧ t = { s with
        boot := { s.boot with step := 7 }
        power := { s.power with testCom := t.power.testCom }
        dies := s.dies.map fun e => (e.1, if e.2.fail.isNone && decide (e.2.step < 7)
          then { e.2 with fail := some (stepFailure (e.2.step + 1)), st := stepFailure (e.2.step + 1) }
          else { e.2 with st := e.2.fail.getD .active }) }
      ∧ (s.jtag.sibs = 0 → t.power = s.power)
      ∧ ∀ d < 8, bit s.jtag.sibs d = true → (t.die d).st ≠ .active → d ∈ t.power.testCom)

/-- R30, R31, R32, R36, R42 and R25 (Tables 02-3 and 02-6). -/
def Obligations.DiscoveryRecordsWhatEachDieReports : Prop :=
  (∀ (s : State) (d : Nat), s.dieAt d 1 = true →
    exec (.slicePllLock d) s = .next { s with dies := s.dies.setD d {} { s.die d with step := 2 } }) ∧
  (∀ (s : State) (d : Nat) (dn up : List Nat), s.dieAt d 2 = true → (∀ i < 8, dn.getD i 0 ≤ 2 ∧ up.getD i 0 ≤ 2) →
    exec (.leatWireTraining d dn up) s = .next { s with dies := s.dies.setD d {} { s.die d with
      step := 3
      spareDn := dn.getD 0 0 + dn.getD 1 0 + dn.getD 2 0 + dn.getD 3 0 + dn.getD 4 0 + dn.getD 5 0 + dn.getD 6 0 + dn.getD 7 0
      spareUp := up.getD 0 0 + up.getD 1 0 + up.getD 2 0 + up.getD 3 0 + up.getD 4 0 + up.getD 5 0 + up.getD 6 0 + up.getD 7 0 } }) ∧
  (∀ (s : State) (d i : Nat) (dn up : List Nat), s.dieAt d 2 = true → i < 8 → 3 ≤ dn.getD i 0 → dn.getD i 0 < 139 →
    exec (.leatWireTraining d dn up) s = .next { s with dies := s.dies.setD d {} { s.die d with fail := some .linkFail } }) ∧
  (∀ (s : State) (d serial rev level : Nat), s.dieAt d 3 = true → (s.die d).idTries ≤ 1 → 1 ≤ level → level < 256 →
    exec (.identityMessage d serial rev level true) s = .next { s with dies := s.dies.setD d {} ({ s.die d with
      idTries := (s.die d).idTries + 1, serial := serial % 2 ^ 32, rev := rev % 256, levelOffered := level, step := 6
      levelUsed := min level (if s.fuses.prevGen then 1 else 2) }) }) ∧
  (∀ (s : State) (d mask : Nat), s.dieAt d 6 = true → mask < 2 ^ 32 →
    exec (.channelFailureMaskReport d mask) s = .next { s with dies := s.dies.setD d {} { s.die d with
      chFail := mask, step := 7, fail := if 8 < popCount 32 mask then some .stackFail else none } }) ∧
  (∀ (s : State) (n : Nat), s.boot.step = 5 → 2 ≤ n → n ≤ 7 →
    exec (.discoveryDeadline n) s = .next { s with dies := s.dies.map fun e => (e.1,
      if e.2.fail.isNone && decide (e.2.step < n) then { e.2 with fail := some (stepFailure (e.2.step + 1)) } else e.2) })

/-- R599, R603 with R77, and R605. -/
def Obligations.BoardAndCardPinsAreRecorded : Prop :=
  (∀ s : State, exec .vddIoInTolerance s = .next { s with board := { s.board with vddIo := true } }) ∧
  (∀ (s : State) (a b : Bool), s.board.pwrOk = false →
    exec (.cardPowerSense a b) s = .next { s with board := { s.board with sense := some (!a && !b) }, panel := { s.panel with connector := a || b } }) ∧
  (∀ (s : State) (c : Nat) (l : Bool), c < 8 →
    exec (.qsfpModuleDetect c true true) s = .next { s with board := { s.board with cages := s.board.cages.setD c 0 1 } }
      ∧ exec (.qsfpModuleDetect c true false) s = .next { s with board := { s.board with cages := s.board.cages.setD c 0 2 } }
      ∧ exec (.qsfpModuleDetect c false l) s = .next { s with board := { s.board with cages := s.board.cages.setD c 0 0 } })

/-- R99, R100, R104, R101, R106, R102, R109 and R154. -/
def Obligations.SlotsAreCheckedAndOneIsApplied : Prop :=
  (∀ (s : State) (n : Nat) (bytes : List Byte), n < 3 → s.running = true → 5 ≤ s.boot.step → s.boot.flashOk = true →
    s.boot.done = false → (s.slot n).staged = false → s.stagingOpen = true →
    ∃ t full, exec (.slotStage n bytes) s = .next t ∧ full = s.dies.any (fun d => decide (6 ≤ d.2.step))
      ∧ match firstBad [check1 bytes, check2 s.fuses bytes, check3 bytes full, check4 bytes full] with
        | none => t = { s with boot := { s.boot with slots := (s.boot.slots.setD n {} { s.slot n with
            staged := true, sound := true, seq := at' bytes 0x10 4, caps := imgCaps bytes, limited := !full
            img := readImage bytes (!full), digest := signedDigest bytes }) } }
        | some b => (t.slot n).staged = true ∧ (t.slot n).sound = false ∧ (t.slot n).code = b.code ∧ t.mem = s.mem ∧ t.bays = s.bays
            ∧ t.vds = s.vds ∧ t.img = s.img) ∧
  (∀ (s : State) (n : Nat), s.boot.step = 7 → s.boot.done = false → (∀ i < 3, (s.slot i).staged = true) →
    n < 3 → (∀ i < 3, (s.slot i).sound = decide (i = n)) → s.check56 n = none →
    ∃ t, exec .slotSelection s = .next t ∧ t.boot.selected = n + 1 ∧ t.boot.done = true ∧ t.boot.flashOwn = false
      ∧ t.boot.digest = (s.slot n).digest ∧ t.inv.fixed = true ∧ t.inv.active = s.activeMask (s.slot n).img.device.dieExclude
      ∧ t = { s with boot := t.boot, inv := t.inv, dies := t.dies, flt := t.flt, power := { s.power with testCom := t.power.testCom } }) ∧
  (∀ (s : State) (n pick : Nat), s.boot.step = 7 → s.boot.diesShort = false → s.boot.selected = n + 1 → s.img.applied = false →
    Tab.wf s.ports = true → (∀ p, (s.port p).held = []) →
    ∃ t, exec (.imageApply pick) s = .next t ∧ t.boot.step = 8 ∧ t.boot.memActive = true ∧ t.boot.neverActive = false
      ∧ t.img = (s.slot n).img ∧ t.pol = s.imagePol (s.slot n).img ∧ t.boot.testLock = (s.slot n).img.device.testLock
      ∧ t.mem = s.mem ∧ t.bays = s.bays ∧ t.slices = s.slices ∧ t.dir = s.dir ∧ t.dies = s.dies ∧ t.inv = s.inv)

/-- R65, R67 (Table 03-7), R68, R69, R110 and R118. -/
def Obligations.WarmResetKeepsMemoryAndReappliesTheImage : Prop :=
  (∀ s : State, s.running = true → s.boot.warm = 0 → s.boot.step < 7 →
    exec .warmRstNAssert s = .next { s with boot := { s.boot with warmWait := some 5 } }) ∧
  (∀ s : State, s.running = true → s.boot.warm ≠ 0 →
    exec .warmRstNAssert s = .next { s with boot := { s.boot with cause := s.boot.cause ||| 32, last := 5 } }) ∧
  (∀ s : State, s.running = true → s.boot.warm = 0 → 7 ≤ s.boot.step → s.slu.moves = [] →
    ∃ t, exec .warmRstNAssert s = .next t
      ∧ t = { s with slu := { s.slu with wanted := s.slu.wanted.filter fun r => decide (r.by_ = .retire) }
                     boot := { s.boot with warm := 2, warmWait := none, cause := s.boot.cause ||| 32, last := 5 }
                     jtag := { s.jtag with sibs := 0 }, power := { s.power with testCom := [] } }) ∧
  (∀ s : State, s.boot.warm = 2 → Tab.wf s.dax.cmds = true →
    ∃ t, exec .warmResetTaskStop s = .next t ∧ t.boot = { s.boot with warm := 3 } ∧ t.mem = s.mem ∧ t.bays = s.bays ∧ t.vds = s.vds
      ∧ t.slices = s.slices ∧ t.dir = s.dir ∧ t.out = s.out ∧ (s.dax.cmds = [] → t.dax = s.dax)
      ∧ ∀ q c, t.cmd? q = some c → c.tasks = [] ∧ c.uncreated = [] ∧ c.engineFin = some { term := .cancelled, status := .cancelled }) ∧
  (∀ (s : State) (acked : List Nat) (pick : Nat), s.boot.warm = 3 → s.requestsDone = true → s.slu.promo = [] → s.slu.moves = [] →
    (∀ e ∈ s.slices, e.2.frames = []) → (∀ v, (s.vd v).memClr = false) →
    ∃ t, exec (.warmResetFlush acked pick) s = .next t ∧ t.boot.warm = 5 ∧ t.dax.cmds = [] ∧ t.pen.pens = [] ∧ t.pen.regs = []
      ∧ t.runners = [] ∧ t.colls = [] ∧ t.queues = [] ∧ t.gauges = [] ∧ t.spill = [] ∧ t.mem = s.mem) ∧
  (∀ s : State, s.boot.warm = 5 →
    exec (.warmImageReapply true) s = .next (({ s with pol := s.imagePol s.img, boot := { s.boot with warm := 6 } } : State).keepAwake 0)) ∧
  (∀ s : State, s.boot.warm = 5 → ∃ t, exec (.warmImageReapply false) s = .next t ∧ t.boot.step = 1 ∧ t.boot.warm = 0
      ∧ t.boot.cause = s.boot.cause ||| 16 ∧ t.mem = [] ∧ t.vds = [] ∧ t.img = {}) ∧
  (∀ (s : State) (pick : Nat), s.boot.warm = 6 → s.boot.held = [] → s.mgmt.reads = [] → Tab.wf s.ports = true →
    (∀ p, (s.port p).held = []) → s.pool.heldReqs = [] →
    ∃ t, exec (.warmResetComplete pick) s = .next t ∧ t.boot = { s.boot with warm := 0 } ∧ t.power = { s.power with refresh := [] }
      ∧ (∀ v, s.vdExists v = true → s.resetAt v 5 = true →
          (t.vd v).st = (if s.boot.memActive then VdSt.ready else VdSt.notActive) ∧ (t.vd v).resetSeen = true ∧ (t.vd v).lastReset = (s.vd v).trigger)
      ∧ t.mem = s.mem ∧ t.bays = s.bays ∧ t.img = s.img ∧ t.dir = s.dir ∧ t.slices = s.slices)

/-- R56, R57, R58, R59 and R61 (Tables 03-3 and 03-4). -/
def Obligations.ClockMonitorFollowsTheReferences : Prop :=
  (∀ (s : State) (r ns : Nat), s.monitored r = true → ns < 100 → s.anchor = some r →
    ∃ t, exec (.refGlitch r ns) s = .next t
      ∧ t = { s with clk := { s.clk with glitchCnt := s.clk.glitchCnt + 1 }, gauges := t.gauges }) ∧
  (∀ (s : State) (r pick : Nat), s.monitored r = true → (s.refMon r).valid = true → s.anchor = some r → s.clk.source ≠ 3 →
    s.clk.quietBad = false → (2 ≤ (s.port r).refMode ∨ ((s.port r).link ≠ 1 ∧ (s.port r).link ≠ 2)) →
    exec (.refLoss r pick) s = .next { s with clk := { s.clk with
      source := 1, lossCnt := s.clk.lossCnt + 1
      refs := s.clk.refs.setD r {} { s.refMon r with valid := false, counting := false } } }) ∧
  (∀ (s : State) (r pick : Nat), s.monitored r = true → (s.refMon r).valid = true → s.anchor ≠ some r →
    (s.port r).refMode ≤ 1 → (s.port r).link = 1 →
    exec (.refLoss r pick) s = .next { s with
      ports := s.ports.setD r {} { s.port r with link := 0 }
      clk := { s.clk with refs := s.clk.refs.setD r {} { s.refMon r with valid := false, counting := false } } }) ∧
  (∀ (s : State) (r hz pick : Nat), s.monitored r = true → s.inBand hz = true →
    exec (.freqWindowEnd r hz pick) s = .next { s with clk := { s.clk with
      refs := s.clk.refs.setD r {} { s.refMon r with out := false, counting := (s.refMon r).counting || !(s.refMon r).valid } } }) ∧
  (∀ (s : State) (r hz pick : Nat), s.monitored r = true → s.inBand hz = false → ((s.refMon r).out && (s.refMon r).valid) = false →
    exec (.freqWindowEnd r hz pick) s = .next { s with clk := { s.clk with
      refs := s.clk.refs.setD r {} { s.refMon r with out := true, counting := false } } }) ∧
  (∀ (s : State) (r hz pick : Nat), s.monitored r = true → s.inBand hz = false → (s.refMon r).out = true → (s.refMon r).valid = true →
    s.anchor = some r → s.clk.source = 0 → s.clk.quietBad = false → 2 ≤ (s.port r).refMode →
    ∃ t, exec (.freqWindowEnd r hz pick) s = .next t ∧ t.clk.source = 1 ∧ (t.refMon r).valid = false
      ∧ t.clk.lossCnt = s.clk.lossCnt + 1 ∧ t = { s with clk := t.clk }) ∧
  (∀ (s : State) (r : Nat), s.monitored r = true → (s.refMon r).valid = false → (s.refMon r).out = false →
    s.anchor = some r → s.clk.source = 1 →
    exec (.refReturn r) s = .next { s with clk := { s.clk with
      source := 0, switched := true, refs := s.clk.refs.setD r {} { s.refMon r with valid := true, counting := false } } }) ∧
  (∀ (s : State) (pick : Nat), s.monitored 0 = true → s.clk.quietBad = false → s.clk.source = 0 →
    ∃ t, exec (.quietClockFail pick) s = .next t
      ∧ t = { s with clk := { s.clk with quietFail := true, quietBad := true }, flt := t.flt })

/-- R73 (Table 03-10), R74 and R75. -/
def Obligations.IdleBlocksGateThemselves : Prop :=
  (∀ (s : State) (n : Nat), s.sliceOn n = true → s.gateSt n = 0 → s.sliceIdle n = true →
    exec (.sliceClockGate n) s = .next { s with power := { s.power with slices := s.power.slices.setD n 0 1 } }) ∧
  (∀ (s : State) (n choice idle : Nat), s.sliceOn n = true → s.gateSt n ≠ 2 → s.sliceIdle n = true → s.baysUsed n = false →
    bit s.pol.keepAwake n = false → s.pol.pgMinIdle * 1000 ≤ choice → choice ≤ idle → (s.slice n).frames = [] →
    exec (.slicePowerGate n choice idle) s = .next { s with
      slices := s.slices.setD n {} { s.slice n with frames := [], l1 := [], ro := {} }
      power := { s.power with slices := s.power.slices.setD n 0 2 } }) ∧
  (∀ (s : State) (n choice idle : Nat), s.sliceOn n = true → s.gateSt n ≠ 2 → s.sliceIdle n = true → s.baysUsed n = false →
    bit s.pol.keepAwake n = false → s.pol.pgMinIdle * 1000 ≤ choice → idle < choice →
    exec (.slicePowerGate n choice idle) s = .next s) ∧
  (∀ (s : State) (n choice idle : Nat), s.sliceOn n = true → s.gateSt n ≠ 2 → s.sliceIdle n = true → s.baysUsed n = false →
    bit s.pol.keepAwake n = false → choice < s.pol.pgMinIdle * 1000 → idle < s.pol.pgMinIdle * 1000 →
    exec (.slicePowerGate n choice idle) s = .next { s with slu := { s.slu with loopTug := s.slu.loopTug.setD 2 0 (s.slu.loopTug.getD 2 0 + 1) } }) ∧
  (∀ (s : State) (n pick : Nat), s.gateSt n ≠ 0 → (s.slice n).retired = false → (s.slice n).inq = [] →
    exec (.sliceWake n pick) s = .next { s with
      slices := s.slices.setD n {} { s.slice n with inq := [] }, power := { s.power with slices := s.power.slices.setD n 0 0 } }) ∧
  (∀ (s : State) (n : Nat), s.sliceOn n = true → s.hasTask n = false → s.power.runners.contains n = false →
    exec (.runnerGate n) s = .next { s with power := { s.power with runners := s.power.runners ++ [n] } }) ∧
  (∀ (s : State) (d choice idle : Nat), (s.die d).st = .active → s.dieIdle d = true → s.power.refresh.contains d = false →
    s.pol.srMinIdle * 1000 ≤ choice → choice ≤ idle →
    exec (.stackSelfRefresh d choice idle) s = .next { s with power := { s.power with refresh := s.power.refresh ++ [d] } }) ∧
  (∀ (s : State) (d : Nat), (s.die d).st = .active → (s.flume.getD d {}).run = none → (s.flume.getD d {}).waiting = [] →
    (s.races.getD d {}).waiting = [] → s.power.flumes.contains d = false →
    exec (.flumeRaceClockGate d) s = .next { s with power := { s.power with flumes := s.power.flumes ++ [d] } })

/-- R78, R79 (Table 03-11) and R293. -/
def Obligations.StackTemperatureDrivesItsActions : Prop :=
  (∀ (s : State) (d : Nat) (rs : List (Option Nat)), (s.die d).st = .active → stackTemp rs < 115 →
    ∃ t, exec (.thermalSample d rs) s = .next t ∧ t.dies = s.dies.setD d {} { s.die d with
        temp := stackTemp rs
        hot := decide (95 ≤ stackTemp rs) || ((s.die d).hot && decide (92 ≤ stackTemp rs))
        throttle := decide (105 ≤ stackTemp rs) || ((s.die d).throttle && decide (102 ≤ stackTemp rs)) }
      ∧ t = { s with dies := t.dies, vds := t.vds, out := t.out }
      ∧ (stackTemp rs < 95 → t = { s with dies := t.dies })) ∧
  (∀ r : Option Nat, ∀ rs : List (Option Nat), r.getD 125 ≤ stackTemp (r :: rs)) ∧
  (∀ (s : State) (c choice : Nat), Tab.wf s.power.interval = true →
    ∃ t, exec (.refreshLoopDecision c choice) s = .next t
      ∧ t.refreshInterval c = min (max 975 (min 3900 choice)) s.pol.refreshCap * (if (s.die (c / 32)).hot then 500 else 1000)
      ∧ (∀ k, k ≠ c → t.refreshInterval k = s.refreshInterval k)
      ∧ t = { s with power := { s.power with interval := t.power.interval }, slu := { s.slu with loopTug := t.slu.loopTug } }
      ∧ (max 975 (min 3900 choice) ≤ s.pol.refreshCap → t.slu = s.slu)
      ∧ (s.pol.refreshCap < max 975 (min 3900 choice) → t.slu.loopTug = s.slu.loopTug.setD 0 0 (s.slu.loopTug.getD 0 0 + 1)))

/-- R45, R46, R48, R49 and R50 (Table 02-7). -/
def Obligations.TapInstructionsSelectTheirRegisters : Prop :=
  (∀ (s : State) (pins bits : List Bool), s.board.pwrOk = true → s.boot.testLock = false →
    exec (.extest pins bits) s = .next { s with jtag := { s.jtag with ir := 0x00, bsr := bits }, out := s.out ++ [.tdo pins] }
    ∧ exec .idcode s = .next { s with jtag := { s.jtag with ir := 0x01 }, out := s.out ++ [.tdo (bitList 32 s.idcode)] }
    ∧ exec (.sample pins) s = .next { s with jtag := { s.jtag with ir := 0x02, bsr := pins }, out := s.out ++ [.tdo pins] }
    ∧ exec (.preload bits) s = .next { s with jtag := { s.jtag with ir := 0x03, bsr := bits } }
    ∧ exec .clamp s = .next { s with jtag := { s.jtag with ir := 0x08 } }
    ∧ exec .highz s = .next { s with jtag := { s.jtag with ir := 0x09 } }
    ∧ exec .bypass s = .next { s with jtag := { s.jtag with ir := 0xFF } }) ∧
  (∀ s : State, s.board.pwrOk = true →
    ∃ bits : List Bool, exec .dieSummary s = .next { s with jtag := { s.jtag with ir := 0x21 }, out := s.out ++ [.tdo bits] }
      ∧ bits.length = 8
      ∧ ∀ d < 8, bits.getD d false = (decide ((s.die d).st = .active) || decide ((s.die d).st = .excluded))) ∧
  (∀ s : State, s.board.pwrOk = true → s.boot.testLock = false → s.jtag.sibs = 0 →
    exec .ijtagAccess s = .next { s with jtag := { s.jtag with ir := 0x20 }, out := s.out ++ [.tdo (List.replicate 8 false)] }) ∧
  (∀ s : State, s.board.pwrOk = true → s.boot.testLock = false →
    ∃ t bits, exec .ijtagAccess s = .next t ∧ bits.length = 8 + popCount 8 s.jtag.sibs
      ∧ t = { s with freeCtr := t.freeCtr, jtag := { s.jtag with ir := 0x20 }, out := s.out ++ [.tdo bits] }) ∧
  (∀ (s : State) (pins bits : List Bool), s.board.pwrOk = true → s.boot.testLock = true →
    exec (.extest pins bits) s = .next { s with jtag := { s.jtag with ir := 0xFF } }
    ∧ exec (.preload bits) s = .next { s with jtag := { s.jtag with ir := 0xFF } }
    ∧ exec .clamp s = .next { s with jtag := { s.jtag with ir := 0xFF } }
    ∧ exec .highz s = .next { s with jtag := { s.jtag with ir := 0xFF } }
    ∧ exec .ijtagAccess s = .next { s with jtag := { s.jtag with ir := 0xFF } }) ∧
  (∀ s : State, s.board.pwrOk = true →
    exec .testLogicReset s = .next { s with jtag := { s.jtag with ir := 1, sibs := 0 }, power := { s.power with testCom := [] } }) ∧
  (∀ (s : State) (n : Nat), s.board.pwrOk = true → s.jtag.ir = 0x20 →
    exec (.sibUpdate n) s = .next { s with
      jtag := { s.jtag with sibs := n % 256 }, power := { s.power with testCom := s.power.testCom.filter fun d => bit n d } }) ∧
  (∀ (s : State) (d : Nat), s.board.pwrOk = true → d < 8 → bit s.jtag.sibs d = true → (s.die d).st ≠ .active →
    (s.boot.step < 5 ∨ 7 ≤ s.boot.step) → s.power.testCom.contains d = false →
    exec (.dieComPowered d) s = .next { s with power := { s.power with testCom := s.power.testCom ++ [d] } })

/-- R71, R121, R123, R124, R125, R144 (Table 05-6), R149, R152 and R556. -/
def Obligations.CxlPortsTrainComeUpAndGoDown : Prop :=
  (∀ (s : State) (p : Nat), s.board.pwrOk = true → 5 ≤ s.boot.step → p < 4 → (s.port p).link = 0 → (s.port p).perst = false →
    s.boot.noImage = false → s.clk.source ≠ 3 → (s.port p).refMode ≤ 1 → (s.refMon p).valid = true →
    exec (.cxlTrainingStart p) s = .next { s with ports := s.ports.setD p {} { s.port p with link := 1 } }) ∧
  (∀ (s : State) (p rate width pick : Nat) (cxl mld sris : Bool), p < 4 → ((s.port p).link = 1 ∨ (s.port p).link = 2) → (s.port p).perst = false →
    (s.port p).held = [] →
    ∀ t, t = { s with ports := s.ports.setD p {} { s.port p with
      link := 2, rate := s.trainedRate p rate, width := s.trainedWidth p width, cxlOk := cxl, mld := cxl && mld,
      sris := sris && decide ((s.port p).refMode = 1), ideSeen := false, power := 0 } } →
    (s.boot.neverActive = false → exec (.linkUp p rate width cxl mld sris pick) s = .next t) ∧
    (s.boot.neverActive = true → ∃ u, exec (.linkUp p rate width cxl mld sris pick) s = .next u ∧ u.port p = t.port p
      ∧ u = { t.mediaError with ports := u.ports })) ∧
  (∀ (s : State) (p rate width : Nat), s.trainedRate p rate ≤ min rate 5 ∧ s.trainedWidth p width ≤ min width 2
    ∧ rateGt (s.trainedRate p rate) ≤ s.fuses.maxRate
    ∧ (rate ≤ 5 → rateGt rate ≤ s.fuses.maxRate → s.img.applied = false → s.trainedRate p rate = rate)) ∧
  (∀ (s : State) (p n stream pick : Nat) (mem skid : Bool), s.mgmt.sessions.find n = some (some p, true) → (s.port p).link = 2 →
    (mem = false ∨ s.fuses.prevGen = false) →
    exec (.ideKm p n mem .switch stream skid pick) s = .next { s with ports := s.ports.setD p {} { s.port p with ideSwitch := true } }) ∧
  (∀ (s : State) (p n stream pick : Nat) (skid : Bool), s.mgmt.sessions.find n = some (some p, true) → (s.port p).link = 2 →
    (s.port p).held = [] → s.boot.held = [] →
    exec (.ideKm p n false .on stream skid pick) s = .next { s.fresh with ports := s.ports.setD p {} { s.port p with
        ideSwitch := false, ideIo := true, ideStreams := (s.port p).ideStreams.filter (· ≠ stream) ++ [stream] } }
      ∧ exec (.ideKm p n false .off stream skid pick) s = .next { s.fresh with ports := s.ports.setD p {} { s.port p with
        ideSwitch := false, ideIo := (s.port p).ideStreams.any (· ≠ stream), ideStreams := (s.port p).ideStreams.filter (· ≠ stream) } }
      ∧ (s.fuses.prevGen = false →
        exec (.ideKm p n true .on stream skid pick) s = .next { s.fresh with ports := s.ports.setD p {} { s.port p with
          ideSwitch := false, ideMem := true, ideSkid := skid } }
        ∧ exec (.ideKm p n true .off stream skid pick) s = .next { s.fresh with ports := s.ports.setD p {} { s.port p with
          ideSwitch := false, ideMem := false } })) ∧
  (∀ (s : State) (p n stream pick : Nat) (skid : Bool) (op : IdeOp), s.fuses.prevGen = true → exec (.ideKm p n true op stream skid pick) s = .next s) ∧
  (∀ (s : State) (p level : Nat), (s.port p).link = 2 → s.boot.warm = 0 → (level ≠ 2 ∨ s.biLines p = []) →
    exec (.l1EntryRequest p level) s = .next { s with
      ports := s.ports.setD p {} { s.port p with power := level }, out := s.out ++ [.l1Rsp p true] }) ∧
  (∀ (s : State) (p : Nat), (s.port p).link = 2 → s.biLines p ≠ [] →
    exec (.l1EntryRequest p 2) s = .next { s with out := s.out ++ [.l1Rsp p false] }) ∧
  (∀ (s : State) (p level : Nat), (s.port p).link = 2 → s.boot.warm ≠ 0 →
    exec (.l1EntryRequest p level) s = .next { s with out := s.out ++ [.l1Rsp p false] }) ∧
  (∀ (s : State) (p : Nat),
    exec (.devloadUpdate p) s = .next { s with ports := s.ports.setD p {} { s.port p with
      devLoad := if (s.port p).held ≠ [] then 3 else if (s.port p).outst.length < 512 then 0 else if (s.port p).outst.length < 1536 then 1
                 else if (s.port p).outst.length < 1843 then 2 else 3 } }) ∧
  (∀ (s : State) (p pick : Nat), p < 4 → ((s.port p).link = 1 ∨ (s.port p).link = 2) → s.biLines p = [] →
    (s.dir.all fun e => !bit e.2.hosts.toNat p) = true → Tab.wf s.ports = true →
    ∃ t, exec (.linkDown p false pick) s = .next t
      ∧ t.port p = { s.port p with
          link := 0, era := (s.port p).era + 1, held := [], ideIo := false, ideMem := false, ideStreams := [], ideSwitch := false
          power := 0, conflicts := [], surpriseDown := false }
      ∧ (∀ k, k ≠ p → t.port k = s.port k)
      ∧ t.mgmt.sessions = s.mgmt.sessions.filter (fun e => decide (e.2.1 ≠ some p)) ∧ t.mem = s.mem ∧ t.dir = s.dir
      ∧ (∀ gl n m, s.register? gl = some (n, m) → t.register? gl = some (n, { m with keepHost := m.keepHost.filter fun h => decide (h ≠ p) }))
      ∧ ∀ v, v / 16 = p → s.vdExists v = true → (s.vd v).st ≠ .resetting →
          (t.vd v).st = .resetting ∧ (t.vd v).epoch = (s.vd v).epoch + 1 ∧ (t.vd v).trigger = 2) ∧
  (∀ (s : State) (p pick : Nat), p < 4 → s.board.pwrOk = true →
    exec (.portReset p (some false) pick) s = .next { s with ports := s.ports.setD p {} { s.port p with perst := false } })

/-- R151, R168, R171 (Table 06-4, steps 1 and 2) and R173. -/
def Obligations.PortEventsResetTheirVirtualDevices : Prop :=
  (∀ (s : State) (p ld : Nat), s.exposed p ld = true → ld < 16 → s.portStuck p = false → s.vdExists (16 * p + ld) = true → (s.vd (16 * p + ld)).st ≠ .resetting →
    (∃ t, exec (.functionLevelReset p ld) s = .next t
      ∧ t.vds = s.vds.setD (16 * p + ld) {} { s.vd (16 * p + ld) with
          st := .resetting, epoch := (s.vd (16 * p + ld)).epoch + 1, bind := [], oldBind := (s.vd (16 * p + ld)).bind, err := {}, trigger := 3, memClr := false, resetStep := 2 }
      ∧ t.mem = s.mem ∧ t.bays = s.bays ∧ t.slices = s.slices ∧ t.dir = s.dir ∧ t.dax = s.dax ∧ t.hop = s.hop) ∧
    (∃ t, exec (.cxlReset p ld false) s = .next t
      ∧ t.vds = s.vds.setD (16 * p + ld) {} { s.vd (16 * p + ld) with
          st := .resetting, epoch := (s.vd (16 * p + ld)).epoch + 1, bind := [], oldBind := (s.vd (16 * p + ld)).bind, err := {}, trigger := 4, memClr := false, resetStep := 2 }
      ∧ t.mem = s.mem ∧ t.bays = s.bays ∧ t.slices = s.slices ∧ t.dir = s.dir ∧ t.dax = s.dax ∧ t.hop = s.hop) ∧
    (∃ t, exec (.cxlReset p ld true) s = .next t
      ∧ t.vds = s.vds.setD (16 * p + ld) {} { s.vd (16 * p + ld) with
          st := .resetting, epoch := (s.vd (16 * p + ld)).epoch + 1, bind := [], oldBind := (s.vd (16 * p + ld)).bind, err := {}, trigger := 5, memClr := true, resetStep := 2 }
      ∧ t.mem = s.mem ∧ t.bays = s.bays ∧ t.slices = s.slices ∧ t.dir = s.dir ∧ t.dax = s.dax ∧ t.hop = s.hop)) ∧
  (∀ (s : State) (p ld : Nat),
    (s.portStuck p = true → exec (.functionLevelReset p ld) s = .next { s with boot := { s.boot with held := s.boot.held ++ [.reset p ld 3] } } ∧
      exec (.cxlReset p ld false) s = .next { s with boot := { s.boot with held := s.boot.held ++ [.reset p ld 4] } } ∧
      exec (.cxlReset p ld true) s = .next { s with boot := { s.boot with held := s.boot.held ++ [.reset p ld 5] } }) ∧
    (s.portStuck p = false → (16 ≤ ld ∨ s.exposed p ld = false) → (s.port p).mld = true →
      exec (.functionLevelReset p ld) s = .next ((s.send (.noLd p ld)).post { cls := .protocol, unit := p, code := 3, detail := ld }) ∧
      exec (.cxlReset p ld false) s = .next ((s.send (.noLd p ld)).post { cls := .protocol, unit := p, code := 3, detail := ld })) ∧
    (s.portStuck p = false → (16 ≤ ld ∨ s.exposed p ld = false) → (s.port p).mld = false →
      exec (.functionLevelReset p ld) s = .next s ∧ exec (.cxlReset p ld false) s = .next s)) ∧
  (∀ (s : State) (v c : Nat), 1 ≤ c → c ≤ 7 → s.vdExists v = true → (s.vd v).st ≠ .resetting →
    ∃ t, exec (.vdResetTrigger v c) s = .next t
      ∧ t.vds = s.vds.setD v {} { s.vd v with
          st := .resetting, epoch := (s.vd v).epoch + 1, bind := [], oldBind := (s.vd v).bind, err := {}, trigger := c, memClr := decide (c = 5), resetStep := 2 }
      ∧ t.mem = s.mem ∧ t.bays = s.bays ∧ t.slices = s.slices ∧ t.dir = s.dir ∧ t.dax = s.dax ∧ t.hop = s.hop) ∧
  (∀ (s : State) (v c : Nat), 2 ≤ c → c ≤ 7 → c ≠ 5 → s.vdExists v = true → (s.vd v).st = .resetting →
    exec (.vdResetTrigger v c) s = .next s) ∧
  (∀ (s : State) (v : Nat), s.vdExists v = true → (s.vd v).st = .resetting →
    exec (.vdResetTrigger v 1) s = .next { s with vds := s.vds.setD v {} { s.vd v with trigger := 1 } }) ∧
  (∀ (s : State) (p pick : Nat), p < 4 → ((s.port p).link = 1 ∨ (s.port p).link = 2) → (s.dir.all fun e => !bit e.2.hosts.toNat p) = true →
    s.biLines p = [] → (s.addLevel 7 p 256).2 = false →
    (∃ t, exec (.ideIntegrityFailure p pick) s = .next t ∧ (t.port p).link = 0 ∧ (t.port p).surpriseDown = true ∧ t.mem = s.mem
      ∧ ∀ v, v / 16 = p → s.vdExists v = true → (s.vd v).st ≠ .resetting →
          (t.vd v).st = .resetting ∧ (t.vd v).epoch = (s.vd v).epoch + 1 ∧ (t.vd v).trigger = 2) ∧
    (∃ t, exec (.linkDown p true pick) s = .next t ∧ (t.port p).link = 0 ∧ (t.port p).surpriseDown = true ∧ t.mem = s.mem
      ∧ ∀ v, v / 16 = p → s.vdExists v = true → (s.vd v).st ≠ .resetting →
          (t.vd v).st = .resetting ∧ (t.vd v).epoch = (s.vd v).epoch + 1 ∧ (t.vd v).trigger = 2)) ∧
  (∀ (s : State) (p pick : Nat), p < 4 → s.running = true → (s.port p).link = 2 → s.biLines p = [] →
    (s.dir.all fun e => !bit e.2.hosts.toNat p) = true → Tab.wf s.ports = true →
    ∃ t, exec (.portReset p none pick) s = .next t ∧ (t.port p).link = 0 ∧ (t.port p).surpriseDown = false ∧ t.boot.last = 7 + p
      ∧ t.boot.cause = s.boot.cause ||| BitVec.ofNat 11 (2 ^ (7 + p)) ∧ t.mem = s.mem
      ∧ ∀ v, v / 16 = p → s.vdExists v = true → (s.vd v).st ≠ .resetting →
          (t.vd v).st = .resetting ∧ (t.vd v).epoch = (s.vd v).epoch + 1 ∧ (t.vd v).trigger = 2)

/-- R111, R112, R113 and R115. -/
def Obligations.PolicyWritesWaitInOrder : Prop :=
  (∀ (s : State) (r : PolReg) (x : Nat), s.img.applied = true → s.polq.queue.length < 16 → s.polq.held = [] →
    exec (.policyWriteArrive r x none) s
      = .next { s with polq := { s.polq with queue := s.polq.queue ++ [{ reg := r, val := x % 2 ^ r.bits }] } }) ∧
  (∀ (s : State) (r : PolReg) (x : Nat), s.img.applied = true → (16 ≤ s.polq.queue.length ∨ s.polq.held ≠ []) →
    exec (.policyWriteArrive r x none) s
      = .next { s with polq := { s.polq with held := s.polq.held ++ [{ reg := r, val := x % 2 ^ r.bits }] } }) ∧
  (∀ (s : State) (r : PolReg) (x v : Nat), s.img.device.policyVd = v → s.WindowOpen v → s.polq.queue.length < 16 → s.polq.held = [] →
    exec (.policyWriteArrive r x (some v)) s
      = .next { s with polq := { s.polq with queue := s.polq.queue ++ [{ reg := r, val := x % 2 ^ r.bits, vd := some v }] } }) ∧
  (∀ (s : State) (r : PolReg) (x v : Nat), s.img.device.policyVd ≠ v → exec (.policyWriteArrive r x (some v)) s = .next s) ∧
  (∀ (s : State) (w : PolWrite) (ws : List PolWrite) (v : Nat), s.polq.queue = w :: ws → s.polq.held = [] → s.polq.cur = none →
    s.polOpen = true → s.boot.held = [] → w.vd = some v → w.hdr = none → w.first = false → w.reg = .srMinIdle →
    s.polInRange w.reg w.val = false →
    exec .srMinIdleWrite s = .next { s with
      polq := { s.polq with queue := ws, result := 1, doneSeq := s.polq.doneSeq + 1, firstBad := false }
      vds := s.vds.setD v {} { s.vd v with err := { (s.vd v).err with rsvdEnc := true } } }) ∧
  (∀ (s : State) (w : PolWrite), s.polq.cur = some w → w.hdr = none →
    exec .policyWriteComplete s = .next { s with polq := { s.polq with cur := none, doneSeq := s.polq.doneSeq + 1, firstBad := false } })

/-- R112, R115 and R116 (Table 04-17), R75, R166 and R441. -/
def Obligations.PolicyWritesGiveTheirRegisterTheValue : Prop :=
  ∀ (s t : State) (w : PolWrite) (ws : List PolWrite), s.polq.queue = w :: ws → s.polq.held = [] → s.polq.cur = none →
    s.polOpen = true → s.boot.held = [] → s.polInRange w.reg (s.polValue w) = true →
    t = { s with pol := s.pol.set w.reg (s.polValue w), polq := { s.polq with queue := ws, cur := some w, result := 0 } } →
    (∀ k, w.reg = .fmThresh k → s.flt.meters = [] → s.flt.rows = [] → exec .fmThreshWrite s = .next t) ∧
    (∀ k, w.reg = .fmWscale k → exec .fmWscaleWrite s = .next t) ∧
    (w.reg = .refreshCap → exec .refreshCapWrite s = .next t ∧ ∀ c, t.refreshInterval c ≤ w.val * 1000) ∧
    (w.reg = .srMinIdle → exec .srMinIdleWrite s = .next t) ∧
    (w.reg = .pgMinIdle → exec .pgMinIdleWrite s = .next t) ∧
    (∀ pick, w.reg = .keepAwake ∨ w.reg = .keepLo ∨ w.reg = .keepHi →
      (∀ n, bit t.pol.keepAwake n = true → s.gateSt n = 0) → exec (.keepAwakeWrite pick) s = .next t) ∧
    (w.reg = .spillMaxK → exec .spillMaxKWrite s = .next t) ∧
    (w.reg = .hylEqHold → exec .hylEqHoldWrite s = .next t) ∧
    (w.reg = .fantailCtrl → (w.val = 1 → exec .fantailCtrlWrite s = .next t)
      ∧ (w.val = 0 → exec .fantailCtrlWrite s = .next (t.abandonMoves fun m => decide (m.by_ = .fantail)))) ∧
    (∀ n, w.reg = .regionPolicy n → exec .regionPolicyWrite s = .next (t.abandonMoves fun m =>
      decide (m.by_ = .fantail) && bit (t.regionPolicy m.vd (m.page * 65536)) 2)) ∧
    (∀ v, w.reg = .quotaTask v → exec .vdQuotaTaskWrite s = .next t) ∧
    (∀ v, w.reg = .quotaBuf v → exec .vdQuotaBufWrite s = .next t) ∧
    (∀ v, w.reg = .quotaPage v → exec .vdQuotaPageWrite s = .next t) ∧
    (∀ v, w.reg = .quotaPen v → exec .vdQuotaPenWrite s = .next t) ∧
    (∀ v, w.reg = .qos v → exec .vdQosWrite s = .next t)

/-- R130 (Table 05-4), R131 and R559. -/
def Obligations.FmApiReportsTheDevice : Prop :=
  ∀ (s : State) (h : MctpHdr), s.FmOpen h →
    (∀ p, exec (.getLdInfo h p) s = .next ((s.mgmtFree h).send (.fm h 0x5400 .success
      [if s.inv.fixed then s.capacity else 0, ((List.range 16).filter fun l => s.vdExists (16 * p + l)).length]))) ∧
    (∀ p, exec (.getLdAllocations h p) s = .next ((s.mgmtFree h).send (.fm h 0x5401 .success
      (((List.range 16).filter fun l => s.vdExists (16 * p + l)).map fun l => (s.vd (16 * p + l)).accepted)))) ∧
    exec (.setLdAllocations h) s = .next ((s.mgmtFree h).send (.fm h 0x5402 .unsupported [])) ∧
    (∀ p, exec (.getQosControl h p) s = .next ((s.mgmtFree h).send (.fm h 0x5403 .success
      (((List.range 16).filter fun l => s.vdExists (16 * p + l)).map fun l => s.pol.qos.getD (16 * p + l) 0)))) ∧
    exec (.setQosControl h) s = .next ((s.mgmtFree h).send (.fm h 0x5404 .unsupported [])) ∧
    (∀ p, exec (.getQosStatus h p) s = .next ((s.mgmtFree h).send (.fm h 0x5405 .success [(s.port p).devLoad]))) ∧
    (∀ p ws, ((List.range 16).filter fun l => s.vdExists (16 * p + l)).map (fun l => s.pol.qos.getD (16 * p + l) 0 / 4 % 32) = ws →
      exec (.getQosAllocatedBw h p) s = .next ((s.mgmtFree h).send (.fm h 0x5406 .success (ws.map fun w => 256 * w / ws.sum)))) ∧
    exec (.getDcdInfo h) s = .next ((s.mgmtFree h).send (.fm h 0x5600 .success [8, 2 ^ 21, if s.inv.fixed then s.capacity else 0])) ∧
    (∀ v, s.vdExists v = true → exec (.getHostDcRegionConfiguration h v) s = .next ((s.mgmtFree h).send (.fm h 0x5601 .success
      ((List.range 8).flatMap fun r => [r * 2 ^ 39, 2 ^ 39, 2 ^ 21])))) ∧
    (∀ v r, s.vdExists v = true → r < 8 → exec (.setDcRegionConfiguration h v r (r * 2 ^ 39) (2 ^ 39) (2 ^ 21)) s
      = .next ((s.mgmtFree h).send (.fm h 0x5602 .success []))) ∧
    (∀ v r base len block, (base ≠ r * 2 ^ 39 ∨ len ≠ 2 ^ 39 ∨ block ≠ 2 ^ 21) →
      exec (.setDcRegionConfiguration h v r base len block) s = .next ((s.mgmtFree h).send (.fm h 0x5602 .invalidInput []))) ∧
    (∀ v, s.vdExists v = true → exec (.getDcRegionExtentLists h v) s
      = .next ((s.mgmtFree h).send (.fm h 0x5603 .success (s.vd v).extentList))) ∧
    (∀ op, op < 0x5400 → exec (.fmApiUnsupported h op) s = .next ((s.mgmtFree h).send (.fm h op .unsupported [])))

/-- R131, R132, R133 and R134. -/
def Obligations.CapacityIsOfferedAcceptedAndReleased : Prop :=
  (∀ (s : State) (h : MctpHdr) (v base len : Nat), s.FmOpen h → s.addCheck v [(base, len)] false = .success →
    ∃ t, exec (.initiateDynamicCapacityAdd h v [(base, len)] false) s = .next t
      ∧ (t.vd v).offers = (s.vd v).offers ++ [(base, len, s.now)] ∧ (t.vd v).extents = (s.vd v).extents
      ∧ t = { s with vds := t.vds, out := t.out, mgmt := t.mgmt } ∧ t.out.getLast? = some (.fm h 0x5604 .success [])) ∧
  (∀ (s : State) (h : MctpHdr) (v : Nat) (xs : List (Nat × Nat)) (sh : Bool), s.FmOpen h → s.addCheck v xs sh ≠ .success →
    exec (.initiateDynamicCapacityAdd h v xs sh) s = .next ((s.mgmtFree h).send (.fm h 0x5604 (s.addCheck v xs sh) []))) ∧
  (∀ (s : State) (h : MctpHdr) (v base len pick : Nat), s.FmOpen h → s.vdExists v = true →
    s.releaseCheck v [(base, len)] = .success →
    ∃ t, exec (.initiateDynamicCapacityRelease h v [(base, len)] false pick) s = .next t
      ∧ (t.vd v).extents = (s.vd v).extents ∧ (t.vd v).offers = (s.vd v).offers
      ∧ t = { s with vds := t.vds, out := t.out, mgmt := t.mgmt, stall := [] } ∧ t.out.getLast? = some (.fm h 0x5605 .success [])) ∧
  (∀ (s : State) (v base len time : Nat), s.MailboxOpen v → (s.vd v).offers = [(base, len, time)] →
    exec (.addDynamicCapacityResponse v [(base, len)]) s = .next { s with
      vds := s.vds.setD v {} { s.vd v with offers := [], extents := (s.vd v).extents ++ [(base, len)] }
      out := s.out ++ [.mb v 0x4802 .success []] }) ∧
  (∀ (s : State) (v base len time : Nat), (s.vd v).offers = [(base, len, time)] →
    ∃ t, exec (.extentOfferTimeout v base) s = .next t ∧ (t.vd v).offers = [] ∧ (t.vd v).extents = (s.vd v).extents
      ∧ t = { s with vds := t.vds, out := t.out }) ∧
  (∀ (s : State) (v base len pick : Nat), s.MailboxOpen v → (s.vd v).extents = [(base, len)] →
    s.releaseCheck v [(base, len)] = .success → Tab.wf s.vds = true →
    (∀ e ∈ s.slu.pt, e.1 / 2 ^ 26 ≠ v) → (∀ w ∈ s.slu.walks, w.vd ≠ v) → (∀ m ∈ s.slu.moves, m.vd ≠ v) → s.slu.places = [] →
    ∃ t, exec (.releaseDynamicCapacity v [(base, len)] pick) s = .next t ∧ (t.vd v).extents = []
      ∧ (t.vd v).offers = (s.vd v).offers ∧ t.out.getLast? = some (.mb v 0x4803 .success []))

/-- R148 (Table 05-8), R146, R131 and R155. -/
def Obligations.MailboxReportsTheLogicalDevice : Prop :=
  ∀ (s : State) (v : Nat), s.MailboxOpen v →
    exec (.mbIdentify v) s = .next (s.send (.mb v 0x0001 .success [s.fuses.serial, 12])) ∧
    ((s.vd v).background = none → exec (.backgroundOperationStatus v) s = .next (s.send (.mb v 0x0002 .success [0, 0]))) ∧
    ((s.vd v).background = some .sanitize → exec (.backgroundOperationStatus v) s = .next (s.send (.mb v 0x0002 .success [1, 0x4400]))) ∧
    (∀ log, log < 5 → exec (.getEventRecords v log) s = .next (s.send (.mb v 0x0100 .success
      (b2n ((s.vd v).logs.getD log {}).overflow :: ((s.vd v).logs.getD log {}).lost :: ((s.vd v).logs.getD log {}).recs.length
        :: (((s.vd v).logs.getD log {}).recs.take 31).flatMap EvRec.vals)))) ∧
    (∀ log, log < 5 → exec (.clearEventRecords v log true []) s = .next ({ s with vds := s.vds.setD v {} { s.vd v with
      logs := (s.vd v).logs.setD log {} { (s.vd v).logs.getD log {} with recs := [], overflow := false, lost := 0 } } }.send
        (.mb v 0x0101 .success []))) ∧
    (∀ vals : List Nat, vals = (List.range 5).flatMap (fun i => match ((s.vd v).logs.getD i {}).msix with | some m => [m, 1] | none => [0, 0]) →
      exec (.getEventInterruptPolicy v) s = .next (s.send (.mb v 0x0102 .success vals))) ∧
    (∀ log m, log < 5 → m < 32 → exec (.setEventInterruptPolicy v log (some m)) s = .next ({ s with vds := s.vds.setD v {} { s.vd v with
      logs := (s.vd v).logs.setD log {} { (s.vd v).logs.getD log {} with msix := some m } } }.send (.mb v 0x0103 .success []))) ∧
    exec (.getTimestamp v) s = .next (s.send (.mb v 0x0300 .success [(s.vd v).hostTime + (s.now - (s.vd v).hostTimeAt)])) ∧
    (∀ x : DWord, exec (.setTimestamp v x) s = .next ({ s with vds := s.vds.setD v {} { s.vd v with
      hostTime := x.toNat, hostTimeAt := s.now } }.send (.mb v 0x0301 .success []))) ∧
    exec (.getSupportedLogs v) s = .next (s.send (.mb v 0x0400 .success [0])) ∧
    exec (.getLog v 0) s = .next (s.send (.mb v 0x0401 .success mbOpcodes)) ∧
    exec (.identifyMemoryDevice v) s = .next (s.send (.mb v 0x4000 .success [0, 0, 0])) ∧
    exec (.getHealthInfo v) s = .next (s.send (.mb v 0x4200 .success [1, s.hottest])) ∧
    exec (.getAlertConfiguration v) s = .next (s.send (.mb v 0x4201 .success [(s.vd v).alerts])) ∧
    (∀ x, exec (.setAlertConfiguration v x) s = .next ({ s with vds := s.vds.setD v {} { s.vd v with alerts := x } }.send (.mb v 0x4202 .success []))) ∧
    exec (.getDynamicCapacityConfiguration v) s = .next (s.send (.mb v 0x4800 .success
      ((List.range 8).flatMap fun r => [r * 2 ^ 39, 2 ^ 39, 2 ^ 21]))) ∧
    (∀ start, exec (.getDynamicCapacityExtentList v start) s = .next (s.send (.mb v 0x4801 .success
      ((s.vd v).extents.length :: (((s.vd v).extents.drop start).take 102).flatMap fun e => [e.1, e.2])))) ∧
    (∀ op, 0x0302 ≤ op → op < 0x0400 → exec (.mailboxUnsupported v op) s = .next (s.send (.mb v op .unsupported [])))

/-- R148 (Table 05-8) and R145. -/
def Obligations.MailboxMediaCommandsActOnTheLd : Prop :=
  ∀ (s : State) (v : Nat), s.MailboxOpen v →
    (∀ lo len, exec (.getPoisonList v lo len) s = .next (s.send (.mb v 0x4300 .success
      (b2n (decide (256 < (s.poisonList v lo (lo + len)).length)) :: (s.poisonList v lo (lo + len)).take 256)))) ∧
    (∀ dpa x, s.inExtent v dpa = false → exec (.injectPoison v dpa x) s = .next (s.fresh.send (.mb v 0x4301 .invalidInput []))) ∧
    (∀ dpa d x, s.inExtent v dpa = false → exec (.clearPoison v dpa d x) s = .next (s.fresh.send (.mb v 0x4302 .invalidInput []))) ∧
    (∀ dpa x e n k f, dpa % 64 = 0 → s.inExtent v dpa = true → s.entry v (dpa / 65536) = some (dpa / 65536, e) → e.kind = .page →
      x.via = 255 → s.ends = [] → s.HomeIdle n (e.gaddr (dpa / 65536) dpa / 128) k f →
      ∃ t g, exec (.injectPoison v dpa x) s = .next t ∧ t.out = s.out ++ [.mb v 0x4301 .success []] ∧ t.vds = s.vds ∧ t.mem = s.mem
        ∧ (t.slice n).frames.find k = some g ∧ g.p = f.p ||| BitVec.ofNat 4 (3 * 4 ^ (e.gaddr (dpa / 65536) dpa / 64 % 2))) ∧
    (∀ dpa d x e n k f, dpa % 64 = 0 → s.inExtent v dpa = true → s.entry v (dpa / 65536) = some (dpa / 65536, e) → e.kind = .page →
      x.via = 255 → s.HomeIdle n (e.gaddr (dpa / 65536) dpa / 128) k f →
      ∃ t g, exec (.clearPoison v dpa d x) s = .next t ∧ t.out = s.out ++ [.mb v 0x4302 .success []] ∧ t.vds = s.vds ∧ t.mem = s.mem
        ∧ (t.slice n).frames.find k = some g ∧ g.data.extractLsb' (512 * (e.gaddr (dpa / 65536) dpa / 64 % 2)) 512 = d
        ∧ g.p &&& BitVec.ofNat 4 (3 * 4 ^ (e.gaddr (dpa / 65536) dpa / 64 % 2)) = 0) ∧
    (∀ lo len, exec (.getScanMediaCapabilities v lo len) s = .next (s.send (.mb v 0x4303 .success [lo, len]))) ∧
    (∀ lo len, (s.vd v).background = none → ∃ t, exec (.scanMedia v lo len) s = .next t
      ∧ t.out = s.out ++ [.mb v 0x4304 .backgroundStarted []] ∧ (t.vd v).background = some .scan ∧ (t.vd v).scanRange = (lo, len)
      ∧ (t.vd v).scanFound = [] ∧ t = { s with vds := t.vds, out := t.out }) ∧
    (∀ lo len, (s.vd v).background ≠ none → exec (.scanMedia v lo len) s = .next (s.send (.mb v 0x4304 .busy []))) ∧
    exec (.getScanMediaResults v) s = .next ({ s with vds := s.vds.setD v {} { s.vd v with scanFound := (s.vd v).scanFound.drop 254 } }.send
      (.mb v 0x4305 .success (b2n (decide (254 < (s.vd v).scanFound.length)) :: (s.vd v).scanFound.take 254))) ∧
    ((s.vd v).background = none → (s.vd v).extents = [] →
      exec (.sanitize v) s = .next ({ s with vds := s.vds.setD v {} { s.vd v with background := some .sanitize } }.send (.mb v 0x4400 .backgroundStarted []))
      ∧ exec (.secureErase v) s = .next ({ s with vds := s.vds.setD v {} { s.vd v with background := some .erase } }.send (.mb v 0x4401 .backgroundStarted []))) ∧
    (∀ lo len pick, (s.vd v).background = some .scan → (s.vd v).scanRange = (lo, len) → Tab.wf s.vds = true →
      exec (.backgroundOperationDone v pick) s = .next { s with stall := [], vds := s.vds.setD v {} { s.vd v with
        background := none, scanFound := s.poisonList v lo (lo + len) } }) ∧
    (∀ pick, ((s.vd v).background = some .sanitize ∨ (s.vd v).background = some .erase) → (∀ e ∈ s.slu.pt, e.1 / 2 ^ 26 ≠ v) →
      (∀ w ∈ s.slu.walks, w.vd ≠ v) → (∀ m ∈ s.slu.moves, m.vd ≠ v) → s.slu.places = [] →
      exec (.backgroundOperationDone v pick) s = .next
        ({ s with stall := [], vds := s.vds.setD v {} { s.vd v with background := none } }.drawKey v))

/-- R169, R171 (Table 06-4), R172, R173 and R174. -/
def Obligations.VdResetFollowsItsSteps : Prop :=
  (∀ (s : State) (v : Nat), s.resetAt v 2 = true → Tab.wf s.dax.cmds = true →
    ∃ t, exec (.vdResetTaskStop v) s = .next t ∧ (t.vd v).resetStep = 3 ∧ t.mem = s.mem ∧ t.bays = s.bays
      ∧ ∀ q c, s.cmd? q = some c → c.vd = v → s.current c = false → ∃ d, t.cmd? q = some d ∧ d.tasks = [] ∧ d.uncreated = []
          ∧ d.engineFin = some { term := .cancelled, status := .cancelled }) ∧
  (∀ (s : State) (v : Nat), s.resetAt v 3 = true →
    ∃ t, exec (.vdResetAbandon v) s = .next t ∧ (t.vd v).oldBind = [] ∧ (t.vd v).resetStep = 4 ∧ t.mem = s.mem ∧ t.bays = s.bays) ∧
  (∀ (s : State) (v : Nat) (x : Ext), s.resetAt v 4 = true → (s.vd v).memClr = false →
    ∃ t, exec (.vdResetSweep v x) s = .next t ∧ (t.vd v).resetStep = 5 ∧ (t.vd v).rings = [] ∧ (t.vd v).errRing = {}
      ∧ (t.vd v).failedStreams = [] ∧ (t.vd v).useTask = 0 ∧ (t.vd v).staleCnt = 0 ∧ (t.vd v).penDropCnt = 0) ∧
  (∀ (s : State) (v pick : Nat), s.resetAt v 5 = true → s.boot.warm = 0 → (s.port (v / 16)).held = [] → (s.mgmt.resets.all fun r => decide (r.2 ≠ v)) = true →
    ∃ t, exec (.vdResetComplete v pick) s = .next t
      ∧ t.vds = s.vds.setD v {} { s.vd v with
          st := if s.boot.memActive then .ready else .notActive, resetSeen := true, lastReset := (s.vd v).trigger, trigger := 0
          memClr := false, resetStep := 0 }
      ∧ t = { s with vds := t.vds, ports := t.ports })

/-- R177, R178, R179 and R11. -/
def Obligations.ErrorRingRegistersFollowTheirRules : Prop :=
  (∀ (s : State) (v : Nat), s.WindowOpen v →
    (∀ (w : Word), (s.vd v).errRing.enable = false → 6 ≤ w.toNat % 16 → w.toNat % 16 ≤ 12 →
      exec (.errRingCtrlWrite v w) s = .next { s with vds := s.vds.setD v {} { s.vd v with errRing := { (s.vd v).errRing with
        sizeLog2 := w.toNat % 16, enable := bit w.toNat 4, vector := w.toNat / 256 % 32 } } }) ∧
    (∀ (w : Word), (s.vd v).errRing.enable = true → 6 ≤ w.toNat % 16 → w.toNat % 16 ≤ 12 → w.toNat % 16 ≠ (s.vd v).errRing.sizeLog2 →
      exec (.errRingCtrlWrite v w) s = .next { s with vds := s.vds.setD v {} { s.vd v with err := { (s.vd v).err with liveWrite := true } } }) ∧
    (∀ (w : Word), w.toNat % 65536 < (s.vd v).errRing.size →
      exec (.errRingHeadWrite v w) s = .next { s with vds := s.vds.setD v {} { s.vd v with errRing := { (s.vd v).errRing with head := w.toNat % 65536 } } }) ∧
    (∀ (w : Word), (s.vd v).errRing.size ≤ w.toNat % 65536 → w.toNat % 65536 ≠ 0 →
      exec (.errRingHeadWrite v w) s = .next { s with vds := s.vds.setD v {} { s.vd v with err := { (s.vd v).err with rsvdEnc := true } } }) ∧
    (∀ (w : Word), (s.vd v).errRing.enable = false →
      exec (.errRingBaseWrite v true w) s = .next { s with vds := s.vds.setD v {} { s.vd v with errRing := { (s.vd v).errRing with
        base := BitVec.ofNat 64 (w.toNat * 2 ^ 32 + (s.vd v).errRing.base.toNat % 2 ^ 32) } } }
      ∧ exec (.errRingBaseWrite v false w) s = .next { s with vds := s.vds.setD v {} { s.vd v with errRing := { (s.vd v).errRing with
        base := BitVec.ofNat 64 ((s.vd v).errRing.base.toNat / 2 ^ 32 * 2 ^ 32 + w.toNat / 4096 * 4096) } } }) ∧
    (∀ (w : Word) (hi : Bool), (s.vd v).errRing.enable = true →
      exec (.errRingBaseWrite v hi w) s = .next { s with vds := s.vds.setD v {} { s.vd v with err := { (s.vd v).err with liveWrite := true } } })) ∧
  (∀ (s : State) (v : Nat), (s.vd v).errRing.enable = true →
    exec (.errorRecordWriteFail v) s = .next { s with vds := s.vds.setD v {} { s.vd v with
      err := { (s.vd v).err with ringFault := true }
      errRing := { (s.vd v).errRing with enable := false, lost := (s.vd v).errRing.lost + 1 } } }) ∧
  (∀ (s : State) (v : Nat), (s.vd v).errRing.msixBusy = true → (s.vd v).errRing.msixHeld = true →
    (s.vd v).errRing.tail ≠ (s.vd v).errRing.head →
    exec (.errRingMsixDefer v) s = .next { s with
      out := s.out ++ [.msix v (s.vd v).errRing.vector]
      vds := s.vds.setD v {} { s.vd v with errRing := { (s.vd v).errRing with msixHeld := false } } }) ∧
  (∀ (s : State) (v : Nat), (s.vd v).errRing.msixBusy = true →
    ((s.vd v).errRing.msixHeld = false ∨ (s.vd v).errRing.tail = (s.vd v).errRing.head) →
    exec (.errRingMsixDefer v) s = .next { s with
      vds := s.vds.setD v {} { s.vd v with errRing := { (s.vd v).errRing with msixBusy := false, msixHeld := false } } })

/-- R299 (Tables 11-5, 11-6), R300 and R304. -/
def Obligations.RingRegistersAndDoorbellsFollowTheirRules : Prop :=
  (∀ (s : State) (v i : Nat) (w : Word), s.WindowOpen v → i < 16 →
    ((s.ring v i).enable = true → w.toNat < 65536 → (w.setWidth 16 - (s.ring v i).head).toNat ≤ (s.ring v i).size →
      exec (.ringDb v i w) s = .next (s.modRing v i fun r => { r with tail := w.setWidth 16 })) ∧
    (((s.ring v i).enable = false ∨ 65536 ≤ w.toNat ∨ (s.ring v i).size < (w.setWidth 16 - (s.ring v i).head).toNat) →
      exec (.ringDb v i w) s = .next (s.modRing v i fun r => { r with badDoorbell := true })) ∧
    ((s.ring v i).enable = true → w.toNat < 65536 → ((s.ring v i).cqTail - w.setWidth 16).toNat ≤ (s.ring v i).size →
      exec (.cqDb v i w) s = .next (s.modRing v i fun r => { r with cqHead := w.setWidth 16 })) ∧
    (((s.ring v i).enable = false ∨ 65536 ≤ w.toNat ∨ (s.ring v i).size < ((s.ring v i).cqTail - w.setWidth 16).toNat) →
      exec (.cqDb v i w) s = .next (s.modRing v i fun r => { r with badDoorbell := true })) ∧
    ((s.ring v i).idle = true → 4 ≤ w.toNat % 16 → w.toNat % 16 ≤ 12 → bit w.toNat 4 = true →
      exec (.ringCtrlWrite v i w) s = .next (s.modRing v i fun r => { r with
        sizeLog2 := w.toNat % 16, enable := true, vector := w.toNat / 256 % 32, head := 0, tail := 0, cqTail := 0, cqHead := 0
        discard := false })) ∧
    ((s.ring v i).enable = true → 4 ≤ w.toNat % 16 → w.toNat % 16 ≤ 12 → w.toNat % 16 ≠ (s.ring v i).sizeLog2 →
      exec (.ringCtrlWrite v i w) s = .next (s.modRing v i fun r => { r with liveWrite := true })) ∧
    ((s.ring v i).idle = true →
      exec (.ringBaseWrite v i 0 w) s = .next (s.modRing v i fun r => { r with
        base := BitVec.ofNat 64 (r.base.toNat / 2 ^ 32 * 2 ^ 32 + w.toNat / 4096 * 4096) })
      ∧ exec (.ringBaseWrite v i 1 w) s = .next (s.modRing v i fun r => { r with
        base := BitVec.ofNat 64 (r.base.toNat % 2 ^ 32 + w.toNat * 2 ^ 32) })
      ∧ exec (.ringBaseWrite v i 2 w) s = .next (s.modRing v i fun r => { r with
        cqBase := BitVec.ofNat 64 (r.cqBase.toNat / 2 ^ 32 * 2 ^ 32 + w.toNat / 4096 * 4096) })
      ∧ exec (.ringBaseWrite v i 3 w) s = .next (s.modRing v i fun r => { r with
        cqBase := BitVec.ofNat 64 (r.cqBase.toNat % 2 ^ 32 + w.toNat * 2 ^ 32) })) ∧
    (∀ reg, reg < 4 → (s.ring v i).enable = true →
      exec (.ringBaseWrite v i reg w) s = .next (s.modRing v i fun r => { r with liveWrite := true }))) ∧
  (∀ (s : State) (v i : Nat), (s.ring v i).msixHeld = true → (s.ring v i).cqHead ≠ (s.ring v i).cqTail →
    exec (.ringMsixDefer v i) s = .next ((s.send (.msix v (s.ring v i).vector)).modRing v i fun r => { r with msixBusy := true, msixHeld := false })) ∧
  (∀ (s : State) (v i : Nat), ((s.ring v i).msixHeld = false ∨ (s.ring v i).cqHead = (s.ring v i).cqTail) →
    exec (.ringMsixDefer v i) s = .next (s.modRing v i fun r => { r with msixBusy := false, msixHeld := false }))

/-- R301, R302, R303, R308 and R309. -/
def Obligations.DescriptorsAreReadAndFaultsStopTheRing : Prop :=
  (∀ (s s1 : State) (v i : Nat) (x : Ext) (bs : List Byte), s.mayRead v = true → s.nextRing v = some i → s.slotNow v = true → s1.stall = [] →
    s.fresh.vdRead v ((s.ring v i).base.toNat + 64 * ((s.ring v i).head.toNat % (s.ring v i).size)) 64 x = ({ bytes := bs }, s1) →
    exec (.descriptorRead v i x) s = .next
      (let s2 := (s1.modRing v i fun r => { r with head := r.head + 1, reserved := r.reserved + 1, inFlight := r.inFlight + 1 }).modVd v
          fun y => { y with useTask := y.useTask + 1, rrRing := (i + 1) % 16 };
       { s2 with dax := { s2.dax with seq := s2.dax.seq + 1, cmds := (s2.dax.cmds.put s2.dax.seq
          { vd := v, ring := i, epoch := (s1.vd v).epoch, desc := BitVec.ofNat 512 (leNat bs), readAt := s.now }) } })) ∧
  (∀ (s : State) (v i : Nat) (x : Ext), s.mayRead v = true → s.nextRing v = some i → s.slotNow v = false →
    ((s.queue .tasks).waiting.any fun w => decide (w.vd = v) && decide (w.item = i)) = false →
    exec (.descriptorRead v i x) s = .next { s with
      queues := s.queues.setD 8 {} { s.queue .tasks with waiting := (s.queue .tasks).waiting ++ [{ vd := v, item := i }] } }) ∧
  (∀ (s s1 : State) (v i : Nat) (x : Ext) (bs : List Byte), 0 < (s.ring v i).captured → (s.ring v i).cqFree = true → (s.vd v).st = .ready →
    s.boot.warm = 0 →
    s.fresh.vdRead v ((s.ring v i).base.toNat + 64 * ((s.ring v i).head.toNat % (s.ring v i).size)) 64 x = ({ bytes := bs }, s1) →
    bit (dfield (BitVec.ofNat 512 (leNat bs)) 1 1) 3 = false →
    ∀ t, t =
      (let s2 := (s1.modRing v i fun r => { r with head := r.head + 1, captured := r.captured - 1 }).streamFailed v
          (dfield (BitVec.ofNat 512 (leNat bs)) 2 2) s1.dax.seq;
       { s2 with dax := { s2.dax with seq := s2.dax.seq + 1 } }.putRecord v i (bit (dfield (BitVec.ofNat 512 (leNat bs)) 1 1) 0)
          (dfield (BitVec.ofNat 512 (leNat bs)) 4 4) (dfield (BitVec.ofNat 512 (leNat bs)) 0 1) (dfield (BitVec.ofNat 512 (leNat bs)) 2 2)
          { term := .cancelled, status := .cancelled } x) →
      t.stall = [] → exec (.capturedEntryRead v i x) s = .next t) ∧
  (∀ (s : State) (v i : Nat) (x : Ext), 0 < (s.ring v i).reserved → (s.vd v).errRing.enable = false → Tab.wf s.vds = true →
    Tab.wf (s.vd v).rings = true →
    ∃ t, exec (.completionWriteFail v i x) s = .next t ∧ (t.ring v i).enable = false ∧ (t.ring v i).cqFault = true
      ∧ (t.ring v i).discard = true ∧ t.mem = s.mem ∧ t.dax = s.dax)

/-- R307 (Table 11-10), R311, R312, R313, R297, R308, R323 and R498. -/
def Obligations.CommandsAreDecodedMadeReadyAndSplit : Prop :=
  (∀ (s : State) (q : Nat) (c : Cmd), s.cmd? q = some c → c.queued = true → c.decoded = false → s.startOk q c = true → c.opcode ≠ 0x48 →
    (s.decodeStatus c = none → (c.waitPen = 0xFFFF ∨ c.waitVal = 0) →
      exec (.commandDecode q) s = .next (s.setCmd q { c with decoded := true, wait := .met })) ∧
    (∀ st, s.decodeStatus c = some st →
      exec (.commandDecode q) s = .next (s.setCmd q { c with engineFin := some { term := .faulted, status := st } }))) ∧
  (∀ (s : State) (q : Nat) (c : Cmd) (d : BitVec 512), s.cmd? q = some c → c.queued = true → c.decoded = false → s.startOk q c = true →
    c.opcode = 0x48 → s.headerOk c = true → opxOk 0x48 c.opx = true → s.expand c = some d →
    s.decodeStatus { c with desc := d, svc := true } = none →
    (dfield d 8 2 = 0xFFFF ∨ dfield d 0x10 6 = 0) →
    exec (.serviceCall q) s = .next (s.setCmd q { c with desc := d, svc := true, decoded := true, wait := .met })) ∧
  (∀ (s : State) (q : Nat) (c : Cmd) (x : Ext), s.cmd? q = some c → c.queued = true → c.decoded = true → s.current c = true →
    s.predFailed q c = false → s.readyNow q c = true → engineOp c.opcode = true → hopperOp c.opcode = false →
    exec (.commandReady q x) s = .next { s with stall := [], dax := { s.dax with
      cmds := s.dax.cmds.put q { c with st := .ready, readySeq := s.dax.readySeq, admitted := true }, readySeq := s.dax.readySeq + 1 } }) ∧
  (∀ (s : State) (q : Nat) (c : Cmd),
    (s.engineCmd q 1 = some c → exec (.nop q) s = .next (s.setCmd q { c with st := .running, engineFin := some {}, result := 0 })) ∧
    (s.engineCmd q 2 = some c → exec (.fence q) s = .next (s.setCmd q { c with st := .running, engineFin := some {}, result := 0 }))) ∧
  (∀ (s t : State) (q n : Nat) (c : Cmd) (us : List Nat) (rest : List (Nat × List Nat)), s.cmd? q = some c → s.current c = true →
    c.uncreated = (n, us) :: rest → rest ≠ [] → (c.tasks.any fun t => decide (t.slice = s.liveSlice n) && t.fin.isNone) = false →
    c.ownSlot = false → s.createFirst q c = true → s.useTask c.vd < s.quotaTask c.vd → s.slotNow c.vd = true →
    t = s.setCmd q { c with tasks := c.tasks ++ [{ slice := s.liveSlice n, units := us, readySeq := s.dax.readySeq, readyAt := s.now }], uncreated := rest } →
    exec (.taskCreate q) s = .next ({ t with dax := { t.dax with readySeq := t.dax.readySeq + 1 } }.modVd c.vd fun x => { x with useTask := x.useTask + 1 })) ∧
  (∀ (s : State) (q n pick : Nat) (c : Cmd) (t0 : Task), s.sliceUp n = true → s.tasksAt n .running = [] → s.tasksAt n .staged = [(q, t0)] →
    s.cmd? q = some c → c.handles = [] → planOp c.opcode = false → Tab.wf s.slices = true →
    ∃ t, exec (.taskLaunch n pick) s = .next t
      ∧ t.cmd? q = some { c with st := .running, tasks := c.tasks.map fun k => if k.slice = n ∧ k.fin = none then { k with st := .running, held := [], interval := 5 } else k }
      ∧ (t.slice n).l1 = [] ∧ (t.slice n).ro = {} ∧ (t.slice n).l1Cap = s.l1Lines c ∧ t.power = { s.power with runners := s.power.runners.erase n } ∧ t.mem = s.mem ∧ t.bays = s.bays
      ∧ t.vds = s.vds) ∧
  (∀ (s t : State) (q : Nat) (c : Cmd) (f : Fin) (x : Ext), s.cmd? q = some c → c.engineFin = some f → c.tasks = [] → c.uncreated = [] →
    s.boot.warm ≤ 2 → s.released q = true → t = s.fresh.cmdEnd q c x → t.stall = [] →
    exec (.taskTerminate q 255 x) s = .next t) ∧
  (∀ (s : State) (q n : Nat) (x : Ext), 3 ≤ s.boot.warm → exec (.taskTerminate q n x) s = .next s.fresh) ∧
  (∀ (s : State) (q : Nat) (c : Cmd) (f : Fin) (x : Ext), s.cmd? q = some c → c.engineFin = some f → f.status = .ok → f.term = .done →
    c.tasks = [] → c.uncreated = [] → c.quiet = true → c.signalPen = 0xFFFF → c.epoch = (s.vd c.vd).epoch → c.wait = .none →
    c.opcode = 1 → Tab.wf s.dax.cmds = true → s.boot.warm ≤ 2 → s.released q = true →
    ∃ t, exec (.taskTerminate q 255 x) s = .next t ∧ t.cmd? q = none ∧ t.mem = s.mem ∧ t.out = s.out)

/-- R309 (Table 11-11) and R11. -/
def Obligations.CancelEndsTheCommandsItNames : Prop :=
  (∀ (s : State) (v : Nat) (w : DWord), s.WindowOpen v → w.toNat / 2 ^ 43 % 32 = 0 → w.toNat / 2 ^ 50 % 4 = 0 → w.toNat / 2 ^ 56 = 0 →
    (w.toNat / 2 ^ 48 % 4 = 0 → exec (.cancelTag v w) s = .next (s.cancelAll fun _ c =>
      decide (c.vd = v) && decide (c.epoch = (s.vd v).epoch) && decide (c.stream = w.toNat / 2 ^ 32 % 2 ^ 11) && decide (c.tag = w.toNat % 2 ^ 32))) ∧
    (w.toNat / 2 ^ 48 % 4 = 1 → exec (.cancelStream v w) s = .next (s.cancelAll fun _ c =>
      decide (c.vd = v) && decide (c.epoch = (s.vd v).epoch) && decide (c.stream = w.toNat / 2 ^ 32 % 2 ^ 11))) ∧
    (w.toNat / 2 ^ 48 % 4 = 2 → exec (.cancelRing v w) s = .next ((s.cancelAll fun _ c =>
      decide (c.vd = v) && decide (c.epoch = (s.vd v).epoch) && decide (c.ring = w.toNat / 2 ^ 52 % 16)).modRing v (w.toNat / 2 ^ 52 % 16)
        fun r => { r with captured := (r.tail - r.head).toNat })) ∧
    (w.toNat / 2 ^ 48 % 4 = 3 → s.dax.cmds = [] → ∃ t, exec (.cancelAllRings v w) s = .next t
      ∧ t = { s with vds := t.vds }
      ∧ ∀ i < 16, (t.ring v i).captured = ((s.ring v i).tail - (s.ring v i).head).toNat ∨ Tab.wf (s.vd v).rings = false) ∧
    (w.toNat / 2 ^ 48 % 4 = 0 → s.dax.cmds = [] → exec (.cancelTag v w) s = .next s)) ∧
  (∀ (s : State) (v q : Nat) (c : Cmd) (w : DWord), s.WindowOpen v → w.toNat / 2 ^ 43 % 32 = 0 → w.toNat / 2 ^ 48 % 16 = 0 → w.toNat / 2 ^ 56 = 0 →
    s.dax.cmds = [(q, c)] → c.vd = v → c.epoch = (s.vd v).epoch → c.stream = w.toNat / 2 ^ 32 % 2 ^ 11 → c.tag = w.toNat % 2 ^ 32 →
    c.st = .queued → c.engineFin = none → c.wait = .none → s.pen.regs = [] →
    ∃ t, exec (.cancelTag v w) s = .next t
      ∧ t.cmd? q = some { c with engineFin := some { term := .cancelled, status := .cancelled } } ∧ t.mem = s.mem ∧ t.vds = s.vds) ∧
  (∀ (s : State) (v : Nat) (w : DWord), s.WindowOpen v → w.toNat / 2 ^ 48 % 4 = 0 → w.toNat / 2 ^ 56 ≠ 0 →
    exec (.cancelTag v w) s = .next { s with vds := s.vds.setD v {} { s.vd v with err := { (s.vd v).err with rsvdEnc := true } } })

/-- R199, R206, R208, R211, R212 and R226. -/
def Obligations.LocalRequestsOnAHeldLineAreServedAtOnce : Prop :=
  (∀ (s : State) (n k pick : Nat) (f : Frame) (r : Req), s.HomeIdle n r.line k f → r.l1 = none → r.who = none →
    (∃ t, exec (.localRead r pick none) s = .next t
      ∧ t.out = s.out ++ [.rsp r.tag (if f.p &&& bytesSectors r.bytes = 0 then .ok else .poisoned) f.data (f.p &&& bytesSectors r.bytes)]
      ∧ (t.slice n).frames.find k = some f ∧ t = { s with out := t.out, slices := t.slices, dir := t.dir }) ∧
    (∃ t, exec (.localWrite r pick) s = .next t
      ∧ t.out = s.out ++ [.rsp r.tag (if partialSectors r.bytes &&& f.p = 0 then .ok else .poisoned) 0 0]
      ∧ (t.slice n).frames.find k = some (f.merge r.bytes r.data r.pois)
      ∧ t = { s with out := t.out, slices := t.slices, dir := t.dir }) ∧
    (r.fmt < 4 → ∃ t, exec (.localReduction r pick) s = .next t ∧ t.out = s.out ++ [.rsp r.tag .ok 0 0]
      ∧ (t.slice n).frames.find k = some ((f.merge (redBytes r.fmt r.emask &&& sectorBytes (~~~ (f.p ||| r.pois)))
          (redLine r.fmt r.emask (f.p ||| r.pois) f.data r.data).1 0).merge (sectorBytes r.pois) 0 r.pois)
      ∧ (t.slice n).redNan = (s.slice n).redNan + BitVec.ofNat 32 (redLine r.fmt r.emask (f.p ||| r.pois) f.data r.data).2.1
      ∧ (t.slice n).redSat = (s.slice n).redSat + BitVec.ofNat 32 (redLine r.fmt r.emask (f.p ||| r.pois) f.data r.data).2.2
      ∧ t = { s with out := t.out, slices := t.slices, dir := t.dir }) ∧
    (atomicOk r.atop r.width r.off = true → bit f.p.toNat (r.off / 32) = false → ∃ t, exec (.sliceAtomic r pick) s = .next t
      ∧ t.out = s.out ++ [.rsp r.tag .ok (BitVec.ofNat 1024 (f.data.extractLsb' (8 * r.off) r.width).toNat) 0]
      ∧ (t.slice n).frames.find k = some (f.merge (BitVec.ofNat 128 ((2 ^ (r.width / 8) - 1) * 2 ^ r.off))
          (putField 0 (8 * r.off) r.width (atomicNew r.atop r.width (f.data.extractLsb' (8 * r.off) r.width).toNat r.opA r.opB)) 0)
      ∧ t = { s with out := t.out, slices := t.slices, dir := t.dir })) ∧
  (∀ (s : State) (r : Req) (pick : Nat),
    (4 ≤ r.fmt → exec (.localReduction r pick) s = .next (s.send (.rsp r.tag .invalidField 0 0))) ∧
    (atomicOk r.atop r.width r.off = false → exec (.sliceAtomic r pick) s = .next (s.send (.rsp r.tag .invalidField 0 0)))) ∧
  (∀ (s : State) (die : Nat) (line : Option Nat) (sec : Sectors),
    s.leatOn die = true → exec (.leatEccError die false line sec) s = .next ((s.charge 5 die 1).corrected 5 die)) ∧
  (∀ (s : State) (die : Nat) (double : Bool) (line : Option Nat) (sec : Sectors),
    s.leatOn die = false → exec (.leatEccError die double line sec) s = .next s)

/-- Table 08-3, column HOME: R222, R224, R225, R226 and R230. -/
def Obligations.PeerRequestsFollowTheHomeColumn : Prop :=
  (∀ (s : State) (pick : Nat) (m : CohMsg), s.atHome m = true → s.poolNumber m.dev = true → s.boot.warm < 2 →
    (4 ≤ m.fmt → exec (.red m pick) s = .next (s.refusePeer m .red)) ∧
    (atomicOk m.atop m.width m.off = false → exec (.atom m pick) s = .next (s.send (.coh
      { op := .cmp, dev := m.dev, line := m.line, tag := m.tag, vd := m.vd, status := .invalidField })))) ∧
  ∀ (s : State) (n k pick : Nat) (f : Frame) (m : CohMsg), s.HomeIdle n m.line k f → m.dev ≠ s.pool.devnum → s.poolNumber m.dev = true →
    s.boot.warm < 2 → s.canTake (.missRegs n) (s.slice n).useMiss peerVd = true → s.pool.departed.contains m.dev = false →
    (∃ t, exec (.rdS m pick) s = .next t
      ∧ t.out = s.out ++ [.coh { op := .fillS, dev := m.dev, line := m.line, tag := m.tag, vd := m.vd, sec := 15, bytes := m.bytes, data := f.data
                                 pois := f.p &&& 15, status := if f.p &&& 15 = 0 then .ok else .poisoned }]
      ∧ t.dir = s.dir.setD (ownNum m.line) {} (DirEntry.mk' .shared (oneHot m.dev) 0)
      ∧ (t.slice n).miss.find m.line = some { phase := .grant, vd := peerVd, gnt := [m.dev], since := s.now }
      ∧ t = { s with out := t.out, slices := t.slices, dir := t.dir }) ∧
    (∃ t, exec (.rdX m pick) s = .next t
      ∧ t.out = s.out ++ [.coh { op := .fillE, dev := m.dev, line := m.line, tag := m.tag, vd := m.vd, sec := 15, bytes := m.bytes, data := f.data
                                 pois := f.p &&& 15, status := if f.p &&& 15 = 0 then .ok else .poisoned }]
      ∧ t.dir = s.dir.setD (ownNum m.line) {} (DirEntry.mk' .exclRemote (oneHot m.dev) 0)
      ∧ (t.slice n).miss.find m.line = some { phase := .grant, vd := peerVd, gnt := [m.dev], since := s.now }
      ∧ t = { s with out := t.out, slices := t.slices, dir := t.dir }) ∧
    (∃ t, exec (.upg m pick) s = .next t
      ∧ t.out = s.out ++ [.coh { op := .fillE, dev := m.dev, line := m.line, tag := m.tag, vd := m.vd, sec := 15, bytes := m.bytes, data := f.data
                                 pois := f.p &&& 15, status := if f.p &&& 15 = 0 then .ok else .poisoned }]
      ∧ t.dir = s.dir.setD (ownNum m.line) {} (DirEntry.mk' .exclRemote (oneHot m.dev) 0)
      ∧ (t.slice n).miss.find m.line = some { phase := .grant, vd := peerVd, gnt := [m.dev], since := s.now }
      ∧ t = { s with out := t.out, slices := t.slices, dir := t.dir }) ∧
    (∃ t, exec (.rdNc m pick) s = .next t
      ∧ t.out = s.out ++ [.coh { op := .rdDat, dev := m.dev, line := m.line, tag := m.tag, vd := m.vd, sec := bytesSectors m.bytes, bytes := m.bytes
                                 data := f.data, pois := f.p &&& bytesSectors m.bytes
                                 status := if f.p &&& bytesSectors m.bytes = 0 then .ok else .poisoned }]
      ∧ t.dir = s.dir.setD (ownNum m.line) {} {} ∧ (t.slice n).miss = []
      ∧ t = { s with out := t.out, slices := t.slices, dir := t.dir }) ∧
    (partialSectors m.bytes &&& f.p = 0 → ∃ t, exec (.wrNc m pick) s = .next t
      ∧ t.out = s.out ++ [.coh { op := .cmp, dev := m.dev, line := m.line, tag := m.tag, vd := m.vd, sec := bytesSectors m.bytes, bytes := m.bytes }]
      ∧ (t.slice n).frames.find k = some (f.merge m.bytes m.data m.pois) ∧ (t.slice n).miss = []
      ∧ t.dir = s.dir.setD (ownNum m.line) {} {} ∧ t = { s with out := t.out, slices := t.slices, dir := t.dir }) ∧
    (m.fmt < 4 → ∃ t, exec (.red m pick) s = .next t
      ∧ t.out = s.out ++ [.coh { op := .cmp, dev := m.dev, line := m.line, tag := m.tag, vd := m.vd, sec := bytesSectors m.bytes, bytes := m.bytes }]
      ∧ (t.slice n).frames.find k = some ((f.merge (redBytes m.fmt m.emask &&& sectorBytes (~~~ (f.p ||| m.pois)))
          (redLine m.fmt m.emask (f.p ||| m.pois) f.data m.data).1 0).merge (sectorBytes m.pois) 0 m.pois)
      ∧ (t.slice n).miss = [] ∧ t.dir = s.dir.setD (ownNum m.line) {} {} ∧ t = { s with out := t.out, slices := t.slices, dir := t.dir }) ∧
    (atomicOk m.atop m.width m.off = true → bit f.p.toNat (m.off / 32) = false → ∃ t, exec (.atom m pick) s = .next t
      ∧ t.out = s.out ++ [.coh { op := .rdDat, dev := m.dev, line := m.line, tag := m.tag, vd := m.vd, sec := bytesSectors m.bytes, bytes := m.bytes
                                 data := BitVec.ofNat 1024 (f.data.extractLsb' (8 * m.off) m.width).toNat }]
      ∧ (t.slice n).frames.find k = some (f.merge (BitVec.ofNat 128 ((2 ^ (m.width / 8) - 1) * 2 ^ m.off))
          (putField 0 (8 * m.off) m.width (atomicNew m.atop m.width (f.data.extractLsb' (8 * m.off) m.width).toNat m.opA m.opB)) 0)
      ∧ (t.slice n).miss = [] ∧ t.dir = s.dir.setD (ownNum m.line) {} {} ∧ t = { s with out := t.out, slices := t.slices, dir := t.dir })

/-- Table 08-4: R228 and R229. -/
def Obligations.SnoopsAtTheProxyFollowTheirTable : Prop :=
  ∀ (s : State) (pick : Nat) (m : CohMsg), lineDev m.line = m.dev → m.dev ≠ s.pool.devnum → s.NoWaiters →
    (∀ (k : Nat) (f : Frame), (s.slice (s.proxySlice m.line)).hit m.line = some (k, f) →
      exec (.snpInv m pick) s = .next (((s.setFrame (s.proxySlice m.line) k {}).keepWay (s.proxySlice m.line) m.line k).send (.coh
        (if f.d ≠ 0 then { op := .datI, dev := m.dev, line := m.line, tag := m.tag, sec := f.d, data := f.data, pois := f.p &&& f.d }
         else { op := .rspI, dev := m.dev, line := m.line, tag := m.tag }))) ∧
      (f.st = .re →
        exec (.snpData m pick) s = .next ((s.setFrame (s.proxySlice m.line) k { f with st := .rs, d := 0 }).send (.coh
          (if f.d ≠ 0 then { op := .datS, dev := m.dev, line := m.line, tag := m.tag, sec := f.d, data := f.data, pois := f.p &&& f.d }
           else { op := .rspS, dev := m.dev, line := m.line, tag := m.tag }))) ∧
        exec (.snpCur m pick) s = .next ((s.setFrame (s.proxySlice m.line) k { f with d := 0 }).send (.coh
          (if f.d ≠ 0 then { op := .datE, dev := m.dev, line := m.line, tag := m.tag, sec := f.d, data := f.data, pois := f.p &&& f.d }
           else { op := .rspE, dev := m.dev, line := m.line, tag := m.tag })))) ∧
      (f.st = .rs →
        exec (.snpData m pick) s = .next (s.send (.coh { op := .rspS, dev := m.dev, line := m.line, tag := m.tag })) ∧
        exec (.snpCur m pick) s = .next (s.send (.coh { op := .rspS, dev := m.dev, line := m.line, tag := m.tag })))) ∧
    ((s.slice (s.proxySlice m.line)).hit m.line = none → s.pool.lostCopies.contains m.line = true → ∀ t,
      t = { s with pool := { s.pool with lostCopies := s.pool.lostCopies.erase m.line } } →
      exec (.snpInv m pick) s = .next t ∧ exec (.snpData m pick) s = .next t ∧ exec (.snpCur m pick) s = .next t) ∧
    ((s.slice (s.proxySlice m.line)).hit m.line = none → s.pool.lostCopies.contains m.line = false → ∀ t,
      t = s.send (.coh { op := .rspNp, dev := m.dev, line := m.line, tag := m.tag,
                         wbPending := match (s.slice (s.proxySlice m.line)).miss.find m.line with | some r => decide (r.phase = .wb) | none => false }) →
      exec (.snpInv m pick) s = .next t ∧ exec (.snpData m pick) s = .next t ∧ exec (.snpCur m pick) s = .next t)

/-- R225, R228, R230, R235, R139 and R140. -/
def Obligations.SnoopAnswersAreGatheredAtTheHome : Prop :=
  (∀ (s : State) (n pick : Nat) (r : Miss) (m : CohMsg), s.Snooping n m.line r → r.snpDev.contains m.dev = true →
    ((r.snpDev.erase m.dev) ≠ [] ∨ r.snpHost ≠ []) →
    exec (.rspI m pick) s = .next (s.putMiss n m.line { r with snpDev := r.snpDev.erase m.dev }) ∧
    exec (.rspS m pick) s = .next (s.putMiss n m.line { r with snpDev := r.snpDev.erase m.dev, keepDev := r.keepDev ++ [m.dev] }) ∧
    exec (.rspE m pick) s = .next (s.putMiss n m.line { r with snpDev := r.snpDev.erase m.dev, keepDev := r.keepDev ++ [m.dev] }) ∧
    (m.wbPending = true → r.wbSeen.contains m.dev = false →
      exec (.rspNp m pick) s = .next (((s.modSlice n fun x => { x with dirStaleSnp := x.dirStaleSnp + 1 }).dropHolder (ownNum m.line) m.dev).putMiss
        n m.line { r with snpDev := r.snpDev.erase m.dev, wbDev := r.wbDev ++ [m.dev] })) ∧
    (m.wbPending = false →
      exec (.rspNp m pick) s = .next (((s.modSlice n fun x => { x with dirStaleSnp := x.dirStaleSnp + 1 }).dropHolder (ownNum m.line) m.dev).putMiss
        n m.line { r with snpDev := r.snpDev.erase m.dev })) ∧
    (∀ (k : Nat) (f : Frame), s.promoted m.line = false → (s.slice n).hit m.line = some (k, f) →
      exec (.datI m pick) s = .next ((s.setFrame n k (f.merge (sectorBytes m.sec) m.data m.pois)).putMiss n m.line
        { r with snpDev := r.snpDev.erase m.dev }) ∧
      exec (.datS m pick) s = .next ((s.setFrame n k (f.merge (sectorBytes m.sec) m.data m.pois)).putMiss n m.line
        { r with snpDev := r.snpDev.erase m.dev, keepDev := r.keepDev ++ [m.dev] }) ∧
      exec (.datE m pick) s = .next ((s.setFrame n k (f.merge (sectorBytes m.sec) m.data m.pois)).putMiss n m.line
        { r with snpDev := r.snpDev.erase m.dev, keepDev := r.keepDev ++ [m.dev] })) ∧
    ((s.dirEntry (ownNum m.line)).st ≠ .exclRemote → r.wbDev.contains m.dev = false →
      exec (.snoopTimeout m.line m.dev pick) s = .next ((((s.post { cls := .correctable, code := 1, addr := m.line * 128, device := some m.dev
                                                                    slice := n }).modSlice n fun x => { x with dirTimeout := x.dirTimeout + 1 }).dropHolder
        (ownNum m.line) m.dev).putMiss n m.line { r with snpDev := r.snpDev.erase m.dev, wbDev := r.wbDev.erase m.dev }))) ∧
  (∀ (s : State) (n port line half pick : Nat) (r : Miss), s.Snooping n line r → r.snpHost.contains (port, half) = true →
    (r.snpDev ≠ [] ∨ (r.snpHost.erase (port, half)) ≠ []) → ∀ ri rs, ri = { r with snpHost := r.snpHost.erase (port, half) } →
    rs = { r with snpHost := r.snpHost.erase (port, half), keepHost := r.keepHost ++ [port] } →
    exec (.birsp port line half .i pick) s = .next ((s.hostAnswered (ownNum line) port ri).putMiss n line ri) ∧
    (r.keepHost.contains port = false →
      exec (.birsp port line half .s pick) s = .next (s.putMiss n line rs)) ∧
    (s.hostAnswered (ownNum line) port ri = if (r.snpHost.erase (port, half)).any (fun h => decide (h.1 = port)) ∨ r.keepHost.contains port ∨ (s.dirEntry (ownNum line)).st ≠ .shared
      then s else s.dropHost (ownNum line) port)) ∧
  (∀ (s : State) (port line half pick : Nat) (rsp : BiRsp), s.register? line = none →
    exec (.birsp port line half rsp pick) s = .next (s.modPort port fun x => { x with biStray := x.biStray + 1 })) ∧
  (∀ (s : State) (n port line pick : Nat) (r : Miss), s.Snooping n line r → (r.snpHost.any fun h => decide (h.1 = port)) = true →
    r.snpDev ≠ [] → s.lineOwner line = none → (s.dirEntry (ownNum line)).st ≠ .exclHost →
    exec (.bisnpTimeout port line pick) s = .next (((s.post { cls := .correctable, code := 4, addr := line * 128, unit := port }).dropHost
      (ownNum line) port).putMiss n line { r with snpHost := r.snpHost.filter fun h => decide (h.1 ≠ port), keepHost := r.keepHost.filter fun p => decide (p ≠ port) })) ∧
  (∀ (s : State) (n pick : Nat) (r : Miss) (m : CohMsg), s.NoWaiters → s.register? m.line = some (n, r) → r.phase = .grant → r.gnt = [m.dev] →
    r.waiters = [] →
    exec (.gntAck m pick) s = .next ((s.setBusy n m.line false).modSlice n fun x => { x with miss := x.miss.del m.line })) ∧
  (∀ (s : State) (k pick : Nat) (f : Frame) (m : CohMsg), s.NoWaiters → s.atHome m = true → s.lostHome m.line = false →
    (s.slice (s.sliceOf m.line)).miss.find m.line = none → s.promoted m.line = false → (s.slice (s.sliceOf m.line)).hit m.line = some (k, f) →
    ((s.dirEntry (ownNum m.line)).st = .exclRemote → bit (s.dirEntry (ownNum m.line)).sharers.toNat m.dev = true →
      exec (.wb m pick) s = .next (((s.setFrame (s.sliceOf m.line) k (f.merge (sectorBytes m.sec) m.data m.pois)).send
        (.coh { op := .wbAck, dev := m.dev, line := m.line, tag := m.tag })).setDir (ownNum m.line) {})) ∧
    ((s.dirEntry (ownNum m.line)).st ≠ .exclRemote →
      exec (.wb m pick) s = .next ((s.modSlice (s.sliceOf m.line) fun x => { x with dirStaleWb := x.dirStaleWb + 1 }).send
        (.coh { op := .wbAck, dev := m.dev, line := m.line, tag := m.tag })))) ∧
  (∀ (s : State) (slice dev : Nat), s.pool.departed.contains dev = true → (∀ e ∈ s.dir, bit e.2.sharers.toNat dev = false) →
    (∀ e ∈ s.slices, ∀ y ∈ e.2.miss, y.2.awaits dev = false ∧ (y.2.req.any fun r => r.fromDev dev) = false) → s.pool.swept.contains (dev, slice) = false →
    exec (.directoryDepartureSweep slice dev) s = .next { s with pool := { s.pool with swept := s.pool.swept ++ [(dev, slice)] } })

/-- R198, R213, R214, R222, R224, R237 and R464. -/
def Obligations.GrantsAndFillsAnswerTheWaitingRequest : Prop :=
  (∀ (s : State) (n b pick : Nat) (g : Miss) (r : Req) (ro : RemoteOp) (m : CohMsg), s.NoWaiters → s.register? m.line = some (n, g) →
    g.phase = .remote → g.req = some r → g.waiters = [] → r.line = m.line → r.op = .read → r.src = .loc → r.who = none → r.l1 = none → s.pool.remote = [ro] →
    s.oldReply ro = false → ro.kind = .mem → ro.line = m.line → ro.dev = m.dev → ro.op = .rdS → (s.slice n).hit m.line = none → (s.slice n).busyAt = [] →
    Tab.wf (s.slice n).miss = true → Tab.wf (s.slice n).frames = true →
    g.way = some b →
    ∃ t, exec (.fillS m pick) s = .next t
      ∧ t.out = s.out ++ [.coh { op := .gntAck, dev := m.dev, line := m.line, tag := m.tag },
          .rsp r.tag (if m.pois &&& bytesSectors r.bytes = 0 then .ok else .poisoned) m.data (m.pois &&& bytesSectors r.bytes)]
      ∧ t.pool = { s.pool with remote := [] } ∧ (t.slice n).miss.find m.line = none
      ∧ (t.slice n).frames.find b = some { st := .rs, line := m.line, v := 15, p := m.pois, data := m.data }
      ∧ t = { s with out := t.out, pool := t.pool, slices := t.slices, gauges := t.gauges }) ∧
  (∀ (s : State) (n k pick : Nat) (f : Frame) (g : Miss) (r : Req) (ro : RemoteOp) (m : CohMsg), s.NoWaiters → s.register? m.line = some (n, g) →
    g.phase = .remote → g.req = some r → g.waiters = [] → g.upgSent = true → r.line = m.line → r.op = .write → r.src = .loc → r.who = none → r.l1 = none →
    s.pool.remote = [ro] → s.oldReply ro = false → ro.kind = .mem → ro.line = m.line → ro.dev = m.dev → ro.op = .upg → (s.slice n).hit m.line = some (k, f) →
    f.st = .rs → (s.slice n).busyAt = [] → Tab.wf (s.slice n).miss = true → Tab.wf (s.slice n).frames = true →
    (∃ t, exec (.fillE m pick) s = .next t
      ∧ t.out = s.out ++ [.coh { op := .gntAck, dev := m.dev, line := m.line, tag := m.tag }, .rsp r.tag (if partialSectors r.bytes &&& m.pois = 0 then .ok else .poisoned) 0 0]
      ∧ t.pool = { s.pool with remote := [] } ∧ (t.slice n).miss.find m.line = none
      ∧ (t.slice n).frames.find k
          = some (Frame.merge { st := .re, line := m.line, v := 15, p := m.pois, data := m.data } r.bytes r.data r.pois)
      ∧ t = { s with out := t.out, pool := t.pool, slices := t.slices, gauges := t.gauges }) ∧
    (∃ t, exec (.cmpE m pick) s = .next t
      ∧ t.out = s.out ++ [.coh { op := .gntAck, dev := m.dev, line := m.line, tag := m.tag }, .rsp r.tag (if partialSectors r.bytes &&& f.p = 0 then .ok else .poisoned) 0 0]
      ∧ t.pool = { s.pool with remote := [] } ∧ (t.slice n).miss.find m.line = none
      ∧ (t.slice n).frames.find k
          = some (Frame.merge { st := .re, line := m.line, v := 15, p := f.p, data := f.data } r.bytes r.data r.pois)
      ∧ t = { s with out := t.out, pool := t.pool, slices := t.slices, gauges := t.gauges })) ∧
  (∀ (s : State) (ro : RemoteOp) (m : CohMsg) (x : Ext), s.pool.remote = [ro] → ro.kind = .mem → ro.line = m.line → ro.dev = m.dev → ro.tag = m.tag →
    (ro.op = .rdNc → ro.src = .loc → s.oldReply ro = false → s.NoWaiters → ∀ n g r, s.register? m.line = some (n, g) → g.phase = .remote → g.waiters = [] →
      g.req = some r → r.tag = ro.rtag → r.src = .loc → (s.slice n).busyAt = [] → (s.slice n).hit m.line = none → Tab.wf (s.slice n).miss = true →
      ∃ t, exec (.rdDat m x) s = .next t
      ∧ t.out = s.out ++ [.rsp ro.rtag (if m.pois = 0 then .ok else .poisoned) m.data m.pois] ∧ (t.slice n).miss.find m.line = none
      ∧ t = { s with out := t.out, pool := { s.pool with remote := [] }, slices := t.slices, gauges := t.gauges }) ∧
    ((ro.op = .wrNc ∨ ro.op = .red) → m.coll = false → m.status = .ok → ro.who.errRec = false → ∃ t, exec (.cmp m x) s = .next t
      ∧ t = { s with pool := { s.pool with remote := [] }, gauges := t.gauges }) ∧
    ((ro.op = .wrNc ∨ ro.op = .red) → m.coll = false → m.status ≠ .ok → ro.who.errRec = false → (s.vd ro.who.vd).errRing.enable = false →
      ∃ t, exec (.cmp m x) s = .next t ∧ t.pool = { s.pool with remote := [], deferredCnt := s.pool.deferredCnt + 1 } ∧ t.mem = s.mem)) ∧
  (∀ (s : State) (n pick : Nat) (r : Miss) (m : CohMsg), s.NoWaiters → s.register? m.line = some (n, r) → r.phase = .wb → r.waiters = [] →
    exec (.wbAck m pick) s = .next (((s.wbCredit (lineDev m.line)).setBusy n m.line false).modSlice n fun x => { x with miss := x.miss.del m.line })) ∧
  (∀ (s : State) (n k pick : Nat) (f : Frame) (g : Miss) (r : Req), s.NoWaiters → s.register? r.line = some (n, g) → g.phase = .fill → g.bulk = false →
    g.req = some r → g.waiters = [] → g.keepDev = [] → g.keepHost = [] → r.op = .read → r.src = .loc → r.who = none → r.l1 = none → s.promoted r.line = false →
    (s.slice n).hit r.line = some (k, f) → f.st = .h → f.v ||| g.fill = 15 → (s.slice n).busyAt = [] → s.dirEntry (ownNum r.line) = {} →
    ∃ t, exec (.dramFillReturn r.line pick) s = .next t ∧ t.mem = s.mem ∧ t.memPoison = s.memPoison ∧ t.vds = s.vds ∧ t.pool = s.pool
      ∧ ∃ p, t.out = s.out ++ [.rsp r.tag (if p &&& bytesSectors r.bytes = 0 then .ok else .poisoned)
          (mergeLine (sectorBytes (g.fill &&& ~~~ f.v)) f.data (readLine s.mem (lineOff r.line))) (p &&& bytesSectors r.bytes)]
        ∧ p = (f.p &&& ~~~ (g.fill &&& ~~~ f.v)) ||| (poisonAt s.memPoison (lineOff r.line) &&& (g.fill &&& ~~~ f.v))) ∧
  (∀ (s : State) (n pick : Nat) (g : Miss) (r : Req), s.NoWaiters → s.register? r.line = some (n, g) → g.phase = .controller →
    g.req = some r → g.waiters = [] → r.op = .atomic → r.src = .loc → r.who = none → (poisonAt s.memPoison (lineOff r.line)) = 0 →
    ∃ t, exec (.memSideAtomicDone r.line pick) s = .next t
      ∧ t.out = s.out ++ [.rsp r.tag .ok (BitVec.ofNat 1024 ((readLine s.mem (lineOff r.line)).extractLsb' (8 * r.off) r.width).toNat) 0]
      ∧ t.mem = writeLine s.mem (lineOff r.line) (mergeMask (BitVec.ofNat 128 ((2 ^ (r.width / 8) - 1) * 2 ^ r.off)) 0 0).1
          (putField 0 (8 * r.off) r.width (atomicNew r.atop r.width
            ((readLine s.mem (lineOff r.line)).extractLsb' (8 * r.off) r.width).toNat r.opA r.opB))
      ∧ t.dir = s.dir.setD (ownNum r.line) {} {} ∧ t.vds = s.vds ∧ t.pool = s.pool)

/-- R141, R142, R138, R139, R226, R270, R271, R273, R134, R143 and R233. -/
def Obligations.HostRequestsAreAcceptedTranslatedAndServed : Prop :=
  (∀ (s : State) (r r1 : CxlReq) (ld pick : Nat), r.port < 4 → (s.port r.port).link = 2 → (s.port r.port).cxlOk = true → s.img.applied = true →
    s.exposed r.port ld = true → s.boot.neverActive = false → s.boot.memActive = true → s.boot.warm = 0 →
    (s.vd (16 * r.port + ld)).memClr = false → (s.img.ports.getD r.port {}).ideMemRequired = false → (s.port r.port).ideSwitch = false → ld < 16 →
    s.mayEnter (.cxlMem r.port) (s.useCxl r.port) (((s.port r.port).held.filter fun q => !s.hostHeld q).map CxlReq.vd) (16 * r.port + ld) = true →
    r1.era = (s.port r.port).era → r1.no = s.slu.order → r1.port = r.port → r1.vd = 16 * r.port + ld → r1.tag = r.tag → r1.dpa = r.dpa → r1.mv = r.mv → r1.data = r.data → r1.pois = r.pois →
    (s.port r.port).credits (decide (r1.op = .memWr)) ≠ 0 →
    ∀ s1, s1 = (({ s with slu := { s.slu with order := s.slu.order + 1 } } : State).modPort r.port fun x => { x with
        outst := x.outst ++ [{ tag := r.tag, vd := r1.vd, time := s.now, write := r1.op.changes, era := r1.era }], power := 0 }) →
    ((∀ hit, hit = false ∨ s.walkOf r1.vd (r.dpa / 65536) ≠ none ∨ s.entry r1.vd (r.dpa / 65536) = none →
      (r1.op = .memRd → exec (.memRd r ld hit pick) s = .next (s1.hostWalk r1)) ∧
      (r1.op = .memWr → exec (.memWr r ld hit pick) s = .next (s1.hostWalk r1)) ∧
      (r1.op = .memClnEvct → exec (.memClnEvct r ld hit pick) s = .next (s1.hostWalk r1))) ∧
     (∀ (ep : Nat) (e : PEntry), s.walkOf r1.vd (r.dpa / 65536) = none → s.entry r1.vd (r.dpa / 65536) = some (ep, e) → e.kind = .page →
      s1.lineAhead r1 = false →
      (r1.op = .memRd → exec (.memRd r ld true pick) s = .next ((s1.sampleHeat r1.port r1.vd ep).hostServe r1 (e.gaddr ep r.dpa) pick)) ∧
      (r1.op = .memWr → exec (.memWr r ld true pick) s = .next ((s1.sampleHeat r1.port r1.vd ep).hostServe r1 (e.gaddr ep r.dpa) pick)) ∧
      (r1.op = .memClnEvct → exec (.memClnEvct r ld true pick) s = .next ((s1.sampleHeat r1.port r1.vd ep).hostServe r1 (e.gaddr ep r.dpa) pick))))) ∧
  (∀ (s : State) (r : CxlReq) (n k ga pick : Nat) (f : Frame), s.HomeIdle n (ga / 128) k f → (s.port r.port).link = 2 → (s.port r.port).conflicts = [] → r.era = (s.port r.port).era →
    (r.op = .memRd → r.mv = .none → ∃ t, s.hostServe r ga pick = t ∧ t.mem = s.mem ∧ t.vds = s.vds
      ∧ t.out = s.out ++ [.s2m r.port r.tag f.data (f.p &&& bytesSectors (BitVec.ofNat 128 ((2 ^ 64 - 1) * 2 ^ (64 * (ga / 64 % 2))))) .inv
          (s.port r.port).devLoad]) ∧
    (r.op = .memWr → r.mv = .none → ∃ t, s.hostServe r ga pick = t ∧ t.mem = s.mem ∧ t.vds = s.vds
      ∧ t.out = s.out ++ [.s2m r.port r.tag 0 0 .inv (s.port r.port).devLoad]
      ∧ (t.slice n).frames.find k = some (f.merge (BitVec.ofNat 128 ((2 ^ 64 - 1) * 2 ^ (64 * (ga / 64 % 2))))
          (BitVec.ofNat 1024 (r.data.toNat * 2 ^ (512 * (ga / 64 % 2)))) (if r.pois then BitVec.ofNat 4 (3 * 4 ^ (ga / 64 % 2)) else 0))) ∧
    (r.op = .memClnEvct → ∃ t, s.hostServe r ga pick = t ∧ t.mem = s.mem ∧ t.vds = s.vds
      ∧ t.out = s.out ++ [.s2m r.port r.tag 0 0 .inv (s.port r.port).devLoad])) ∧
  (∀ (s : State) (v page pick : Nat) (w : Walk), s.walkOf v page = some w → w.slot = true → w.zero = none →
    (∀ (ep : Nat) (e : PEntry), s.entry v page = some (ep, e) → e.kind ≠ .migrating →
      exec (.sluiceWalk v page pick) s = .next (((s.dropWalk v page).walkServe w.acc ep e pick).recFlush pick)) ∧
    (s.entry v page = none → s.inExtent v (page * 65536) = false →
      exec (.sluiceWalk v page pick) s = .next ((w.acc.foldl (fun s r => s.hostOutside r false) (s.dropWalk v page)).recFlush pick)) ∧
    (∀ f big, s.entry v page = none → s.inExtent v (page * 65536) = true →
      s.touchBusy v page = false → s.touchFrames v page pick = .ok (f, big) →
      exec (.sluiceWalk v page pick) s = .next (((s.touchTake v page f big).setWalks fun ws =>
        ws.map fun y => if y.vd = v ∧ y.page = page then { y with zero := some (f, big) } else y).recFlush pick))) ∧
  (∀ (s : State) (v page pick f : Nat) (w : Walk), s.walkOf v page = some w → w.zero = some (f, false) → page < 2 ^ 26 →
    exec (.pageZeroDone v page pick) s = .next (((s.dropWalk v page).touchDone v page f false).walkServe w.acc page
      { kind := .page, gframe := s.pool.devnum * 2 ^ 25 + f, moved := s.movedNow } pick |>.placeResume v page pick)) ∧
  (∀ (s : State) (r : CxlReq) (quota : Bool), (s.port r.port).link = 2 → (s.port r.port).conflicts = [] → r.era = (s.port r.port).era →
    (s.limits.any fun l => decide (l.kind = 2) && decide (l.who = r.vd) && decide (l.place = r.dpa / 2097152)
      && decide (s.now < l.time + 10 ^ 9)) = true →
    (s.hostOutside r quota).mem = s.mem ∧ (s.hostOutside r quota).out
      = s.out ++ [.s2m r.port r.tag 0 (if r.op.changes then 0 else 15) .inv (s.port r.port).devLoad]) ∧
  (∀ (s : State) (port ld dpa pick : Nat), exec (.memSpecRd port ld dpa false pick) s = .next s) ∧
  (∀ (s : State) (port ld dpa pick ep : Nat) (e : PEntry), (s.port port).link = 2 → (s.port port).cxlOk = true → s.exposed port ld = true → s.boot.memActive = true →
    s.boot.warm = 0 → (s.port port).outst.length < 1536 → s.entry (16 * port + ld) (dpa / 65536) = some (ep, e) → e.kind = .page →
    exec (.memSpecRd port ld dpa true pick) s = .next (s.prefetch (e.gaddr ep dpa) pick)) ∧
  (∀ (s : State) (port line tag : Nat),
    ((s.port port).outst.any fun o => decide (o.tag = tag)) = false → exec (.biconflict port line tag) s = .next (s.send (.biConflictAck port line))) ∧
  (∀ (s : State) (port line tag : Nat),
    ((s.port port).outst.any fun o => decide (o.tag = tag)) = true →
      exec (.biconflict port line tag) s = .next (s.modPort port fun x => { x with conflicts := x.conflicts ++ [(tag, line)] })) ∧
  (∀ (s : State) (v q pick : Nat) (c : Cmd) (x : Ext), (s.queue .hopperCmds).waiting = [{ vd := v, item := q }] →
    (s.queue .hopperCmds).arb = {} → s.canTake .hopperCmds s.useHopper v = true → s.cmd? q = some c →
    ∃ t, exec (.sharedEntryGrant .hopperCmds pick x) s = .next t ∧ t.cmd? q = some { c with admitted := true } ∧ t.mem = s.mem ∧ t.out = s.out)

/-- R250, R253 to R258, R260, R263 and R265. -/
def Obligations.HopperCommandsAllocateFreeAndMove : Prop :=
  (∀ (s : State) (q pick cl o i : Nat) (c : Cmd), s.engineCmd q 0x20 = some c → bit (c.f 0x1D 1) 1 = false →
    s.allocFieldsOk (c.opx % 16) (c.f 0x1C 1) (c.f 0x1D 1) true = true → c.f 0x18 4 ≠ 0 → s.classFor (c.opx % 16) (c.f 0x18 4) = some cl →
    s.poolBusy (c.opx % 16) = false → Tab.wf s.hop.recs = true →
    ((s.vd c.vd).useBuf < s.quotaBuf c.vd →
      s.allocPlace (c.opx % 16) (c.f 0x18 4) (bit (c.f 0x1D 1) 0) (nearSlice s (c.f 0x1C 1)) pick = .ok (cl, o, i) →
      s.blockAsleep (c.opx % 16) o (s.classSize (c.opx % 16) cl) = false → (s.fresh.zeroBlock (c.opx % 16) o (s.classSize (c.opx % 16) cl)).stall = [] →
      ∃ t, exec (.hopAlloc q pick) s = .next t
        ∧ (t.hrec (hopKey (c.opx % 16) i)).st = .live ∧ (t.hrec (hopKey (c.opx % 16) i)).owner = c.vd
        ∧ (t.hrec (hopKey (c.opx % 16) i)).epoch = (s.vd c.vd).epoch ∧ (t.hrec (hopKey (c.opx % 16) i)).refs = 0
        ∧ (t.hrec (hopKey (c.opx % 16) i)).base = o / 64 ∧ (t.hrec (hopKey (c.opx % 16) i)).held = true
        ∧ (t.hrec (hopKey (c.opx % 16) i)).gen = (s.hrec (hopKey (c.opx % 16) i)).gen
        ∧ ((s.hpool (c.opx % 16)).kind = 1 → ∀ a, s.inBlock (c.opx % 16) o (s.classSize (c.opx % 16) cl) a = true → readByte t.bays a = 0)
        ∧ ((s.hpool (c.opx % 16)).kind ≠ 1 → ∀ a, s.inBlock (c.opx % 16) o (s.classSize (c.opx % 16) cl) a = true → readByte t.mem a = 0)
        ∧ t.cmd? q = some { c with
            st := .running, engineFin := some {}, result := handle (hopKey (c.opx % 16) i) (s.hrec (hopKey (c.opx % 16) i)).gen }
        ∧ t.out = s.out) ∧
    (s.quotaBuf c.vd ≤ (s.vd c.vd).useBuf → exec (.hopAlloc q pick) s = .next (s.fresh.engineDone q .quota))) ∧
  (∀ (s : State) (q pick k : Nat) (c : Cmd), s.engineCmd q 0x20 = some c → bit (c.f 0x1D 1) 1 = true →
    s.allocFieldsOk (c.opx % 16) 0xFF (c.f 0x1D 1) true = true → k = handleKey (c.f 0x20 4) → handlePool (c.f 0x20 4) = c.opx % 16 →
    c.f 0x20 4 % 2 ^ 20 ≠ 0xFFFFF → (s.hrec k).st = .retained → (s.hrec k).owner = c.vd → (s.hrec k).gen = handleGen (c.f 0x20 4) + 1 →
    (s.vd c.vd).useBuf < s.quotaBuf c.vd → s.poolBusy (c.opx % 16) = false → s.poolBusy (handlePool (c.f 0x20 4)) = false → Tab.wf s.hop.recs = true →
    ∃ t, exec (.hopAdopt q pick) s = .next t ∧ t.hrec k = { s.hrec k with st := .live, epoch := (s.vd c.vd).epoch } ∧ t.mem = s.mem
      ∧ t.bays = s.bays ∧ t.cmd? q = some { c with st := .running, engineFin := some {}, result := handle k (s.hrec k).gen }) ∧
  (∀ (s : State) (q : Nat) (c : Cmd), s.engineCmd q 0x21 = some c → s.poolBusy (handlePool (c.f 0x18 4)) = false →
    ((s.hpool (handlePool (c.f 0x18 4))).kind = 0 → exec (.hopFree q) s = .next (s.engineDone q .invalidField)) ∧
    (c.f 0x18 4 = nullHandle → (s.hpool 15).kind ≠ 0 → exec (.hopFree q) s = .next (s.engineDone q .ok)) ∧
    (c.f 0x18 4 ≠ nullHandle → (s.hpool (handlePool (c.f 0x18 4))).kind ≠ 0 → s.handleIs c.vd (c.f 0x18 4) = .live →
      exec (.hopFree q) s = .next
        (let s1 := (s.setHrec (handleKey (c.f 0x18 4)) (s.nameDies (s.hrec (handleKey (c.f 0x18 4)))
            (decide (0 < (s.hrec (handleKey (c.f 0x18 4))).refs)))).modVd c.vd fun x => { x with useBuf := x.useBuf - 1 };
         { s1 with hop := { s1.hop with freeCnt := countAt s1.hop.freeCnt (handlePool (c.f 0x18 4)) } }.engineDone q .ok)) ∧
    (∀ o, c.f 0x18 4 ≠ nullHandle → (s.hpool (handlePool (c.f 0x18 4))).kind ≠ 0 → s.handleIs c.vd (c.f 0x18 4) = .other o →
      exec (.hopFree q) s = .next ((s.misused o c.vd).engineDone q .notOwner)) ∧
    (c.f 0x18 4 ≠ nullHandle → (s.hpool (handlePool (c.f 0x18 4))).kind ≠ 0 → s.handleIs c.vd (c.f 0x18 4) = .stale →
      (s.hrec (handleKey (c.f 0x18 4))).st ≠ .retained →
      exec (.hopFree q) s = .next (s.engineDone q .staleHandle))) ∧
  (∀ (s : State) (r : HopRec), r.gen ≠ 0xFF →
    s.nameDies r true = { r with st := .dying, gen := r.gen + 1, held := true } ∧
    s.nameDies r false = { r with st := .free, gen := r.gen + 1, held := false }) ∧
  (∀ (s s1 : State) (q : Nat) (c : Cmd) (x : Ext), s.engineCmd q 0x22 = some c → s.poolBusy (handlePool (c.f 0x18 4)) = false → (s.hpool (handlePool (c.f 0x18 4))).kind ≠ 0 →
    c.f 0x20 8 % 64 = 0 →
    (c.f 0x18 4 % 2 ^ 20 = 0xFFFFF →
      s.fresh.vdWrite c.vd (c.f 0x20 8) (s.fresh.queryPool c.vd (handlePool (c.f 0x18 4))) false (c.who q) x = (none, s1) → s1.stall = [] →
      exec (.hopQuery q x) s = .next (s1.engineDone q .ok)) ∧
    (s.handleIs c.vd (c.f 0x18 4) = .live → c.f 0x18 4 % 2 ^ 20 ≠ 0xFFFFF →
      s.fresh.vdWrite c.vd (c.f 0x20 8) (s.fresh.queryBuf (c.f 0x18 4)) false (c.who q) x = (none, s1) → s1.stall = [] →
      exec (.hopQuery q x) s = .next (s1.engineDone q .ok))) ∧
  (∀ (s : State) (q pick cl o i : Nat) (c : Cmd), s.engineCmd q 0x23 = some c → s.poolBusy (c.opx % 16) = false → s.poolBusy (handlePool (c.f 0x18 4)) = false → (s.hpool (handlePool (c.f 0x18 4))).kind ≠ 0 →
    s.handleIs c.vd (c.f 0x18 4) = .live → s.allocFieldsOk (c.opx % 16) (c.f 0x1C 1) (c.f 0x1D 1) false = true →
    s.allocPlace (c.opx % 16) (s.classSize (handlePool (c.f 0x18 4)) (s.hrec (handleKey (c.f 0x18 4))).cls) (bit (c.f 0x1D 1) 0)
      (nearSlice s (c.f 0x1C 1)) pick = .ok (cl, o, i) →
    ((s.hrec (handleKey (c.f 0x18 4))).refs = 0 → ∃ t, exec (.hopTransfer q pick) s = .next t
      ∧ (∃ b, t.hop.transfers = s.hop.transfers ++ [{
          cmd := q, vd := c.vd, epoch := c.epoch, src := handleKey (c.f 0x18 4), dst := hopKey (c.opx % 16) i, cls := cl, base := o / 64
          inRetain := b }])
      ∧ t.cmd? q = some { c with st := .running } ∧ t.mem = s.mem ∧ t.bays = s.bays) ∧
    (0 < (s.hrec (handleKey (c.f 0x18 4))).refs → exec (.hopTransfer q pick) s = .next (s.engineDone q .inUse))) ∧
  (∀ (s : State) (q : Nat) (x : Ext), (s.fresh.transferSwitch q x.pick).stall = [] →
    exec (.transferSwitch q x) s = .next (s.fresh.transferSwitch q x.pick)) ∧
  (∀ (s : State) (q : Nat) (t0 : Transfer) (c : Cmd) (x : Ext), s.hop.transfers = [t0] → t0.cmd = q → (s.vd t0.vd).epoch = t0.epoch →
    s.cmd? q = some c → t0.src ≠ t0.dst → Tab.wf s.hop.recs = true → (s.hpool (t0.src / 2 ^ 20)).kind = 1 → (s.hpool (t0.dst / 2 ^ 20)).kind = 1 →
    ∃ t, exec (.transferSwitch q x) s = .next t ∧ t.hop.transfers = [] ∧ (t.hrec t0.dst).st = .live ∧ (t.hrec t0.dst).owner = t0.vd
      ∧ (t.hrec t0.dst).base = t0.base ∧ (t.hrec t0.dst).gen = (s.hrec t0.dst).gen ∧ (t.hrec t0.src).st ≠ .live
      ∧ t.cmd? q = some { c with st := .running, engineFin := some {}, result := handle t0.dst (s.hrec t0.dst).gen }) ∧
  (∀ (s : State) (pool index : Nat), (s.hrec (hopKey pool index)).st = .quarantine → (s.hrec (hopKey pool index)).held = false →
    (s.stampNow - (s.hrec (hopKey pool index)).stamp).toNat < 2 ^ 31 →
    exec (.quarantineEnd pool index) s = .next (s.setHrec (hopKey pool index)
      { s.hrec (hopKey pool index) with st := .free, gen := 0, long := false, stamp := s.stampNow })) ∧
  (∀ (s : State), Tab.wf s.hop.recs = true → ∃ t, exec .hopperBackgroundPass s = .next t
    ∧ t = { s with hop := { s.hop with recs := t.hop.recs, rest := t.hop.rest } }
    ∧ ∀ k r, s.hrec k = r → t.hrec k = if r.st ≠ .quarantine ∧ 60000000 ≤ (s.stampNow - r.stamp).toNat then { r with long := true } else r)

/-- R278 to R281. -/
def Obligations.SluiceCommandsPlacePinGrantAndAttach : Prop :=
  (∀ (s : State) (q pick : Nat) (c : Cmd) (e : PEntry), s.engineCmd q 0x28 = some c → c.addr % 65536 = 0 → c.len = 65536 → s.splits c = false →
    c.f 0x28 1 < 128 → c.f 0x29 1 = 2 → c.addr < 2 ^ 42 → s.inExtent c.vd c.addr = true → s.slu.pt.find (ptKey c.vd (c.addr / 65536)) = some e → e.kind = .page →
    e.big = false → s.granted c.vd (c.addr / 65536) 1 = false → gfDev e.gframe = c.f 0x28 1 → s.slu.places = [] →
    exec (.slPlace q pick) s = .next ((s.setEntry c.vd (c.addr / 65536) { e with pin := true }).engineDone q .ok)) ∧
  (∀ (s s1 : State) (q : Nat) (c : Cmd), rangeOk c 65536 = true → s.splits c = false →
    (s.engineCmd q 0x29 = some c → State.pinRun c.vd true (c.len / 65536) (c.addr / 65536) s = (true, s1) →
      exec (.slPin q) s = .next (s1.engineDone q .ok)) ∧
    (s.engineCmd q 0x2A = some c → State.pinRun c.vd false (c.len / 65536) (c.addr / 65536) s = (true, s1) →
      exec (.slUnpin q) s = .next (s1.engineDone q .ok))) ∧
  (∀ (s : State) (v page : Nat) (on : Bool) (e : PEntry), s.inExtent v (page * 65536) = true → s.slu.pt.find (ptKey v page) = some e →
    e.kind = .page → State.pinRun v on 1 page s = (true, s.setEntry v page { e with pin := on })) ∧
  (∀ (s s1 : State) (q : Nat) (c : Cmd) (bs : List Byte) (bad : Bool) (x : Ext), s.engineCmd q 0x2B = some c → rangeOk c 65536 = true → s.splits c = false →
    s.fresh.pagesIn c.vd 65 (c.addr / 65536) ((c.addr + c.len) / 65536) ≤ 64 →
    s.fresh.queryRun c.vd 65 (c.addr / 65536) ((c.addr + c.len) / 65536) = (bs, bad) →
    s.fresh.vdWrite c.vd (c.f 0x28 8) bs false (c.who q) x = (none, s1) → s1.stall = [] →
    exec (.slQuery q x) s = .next (s1.engineDone q (if bad then .badAddress else .ok))) ∧
  (∀ (s s1 : State) (q pick k : Nat) (c : Cmd), s.engineCmd q 0x2C = some c → rangeOk c 2097152 = true → 2 ^ 30 ≤ c.len → c.len ≤ 2 ^ 32 →
    (s.slu.pt.any fun e => decide (e.1 / 2 ^ 26 = c.vd) && decide (c.addr / 65536 ≤ e.1 % 2 ^ 26)
      && decide (e.1 % 2 ^ 26 < (c.addr + c.len) / 65536) && decide (e.2.kind = .migrating)) = false →
    State.grantTouch c.vd pick (c.len / 65536) (c.addr / 65536) s.fresh = (none, s1) → s1.stall = [] →
    ((List.range 1024).find? fun j => (s1.slu.grants.find j).isNone) = some k →
    ∃ t key, exec (.slGrant q pick) s = .next t ∧ key = (Config.freeValue s1.freeCtr).setWidth 32
      ∧ t = { s1 with freeCtr := s1.freeCtr + 1, slu := { s1.slu with grants := (s1.slu.grants.put k
          { vd := c.vd, epoch := (s.vd c.vd).epoch, va := c.addr, len := c.len, readOnly := bit c.opx 0, key := key }) } }.engineDone
            q .ok (k + key.toNat * 2 ^ 32)) ∧
  (∀ (s : State) (q : Nat) (c : Cmd), s.engineCmd q 0x2D = some c →
    (∀ g, s.slu.grants.find (c.f 0x18 2) = some g → g.vd = c.vd → g.attach = [] →
      exec (.slRevoke q) s = .next ({ s with slu := { s.slu with grants := s.slu.grants.del (c.f 0x18 2) } }.engineDone q .ok)) ∧
    (s.slu.grants.find (c.f 0x18 2) = none → exec (.slRevoke q) s = .next (s.engineDone q .notGranted))) ∧
  (∀ (s : State) (q : Nat) (c : Cmd) (g : Grant), s.engineCmd q 0x2E = some c → rangeOk c 2097152 = true → c.f 0x28 1 < 128 →
    (((List.range (c.len / 65536)).map fun i => c.addr / 65536 + i).any fun p => !s.inExtent c.vd (p * 65536) || (s.entry c.vd p).isSome) = false →
    c.f 0x28 1 = s.pool.devnum → s.slu.grants.find (c.f 0x2A 2) = some g → g.key = BitVec.ofNat 32 (c.f 0x2C 4) → g.len = c.len →
    (g.readOnly = true → bit c.opx 0 = true) → g.attach.length < 16 →
    ∃ s1 fs, s1 = { s with slu := { s.slu with grants := s.slu.grants.put (c.f 0x2A 2) { g with
        attach := g.attach ++ [({ device := c.f 0x28 1, vd := c.vd, va := c.addr } : Attach)] } } } ∧
      (fs = (List.range (c.len / 65536)).filterMap fun i =>
        match s.slu.pt.find (ptKey g.vd (g.va / 65536 + i)) with | some e => some (e.gframe, e.big) | none => none) ∧
      exec (.slAttach q) s = .next (s1.attachEnd q c.vd (c.f 0x28 1) (c.f 0x2A 2) (bit c.opx 0) (c.addr / 65536) fs)) ∧
  (∀ (s s1 : State) (q : Nat) (c : Cmd), s.engineCmd q 0x2F = some c → rangeOk c 2097152 = true →
    State.detachRun c.vd (c.len / 65536) (c.addr / 65536) s = (true, s1) → exec (.slDetach q) s = .next (s1.engineDone q .ok)) ∧
  (∀ (s : State) (v page : Nat) (e : PEntry), s.inExtent v (page * 65536) = true → s.slu.pt.find (ptKey v page) = some e → e.kind = .foreign →
    State.detachRun v 1 page s = (true, s.delEntry v page) ∧ (s.delEntry v page).slu.shootdown = s.slu.shootdown + 1) ∧
  (∀ (s : State) (dev slot : Nat), ∃ t, exec (.grantRevocation dev slot) s = .next t
    ∧ t = { s with slu := { s.slu with pt := t.slu.pt, shootdown := t.slu.shootdown } }
    ∧ ∀ k e, s.slu.pt.find k = some e → t.slu.pt.find k
        = some (if e.kind = .foreign ∧ e.grant = slot ∧ e.owner = dev then { e with kind := .revoked } else e))

/-- R284 (Table 10-7), R285 to R289 and R291. -/
def Obligations.PagesMoveInSteps : Prop :=
  (∀ (s : State) (i pick f : Nat) (r : MoveReq) (e : PEntry), s.boot.warm = 0 → s.slu.wanted[i]? = some r →
    s.slu.pt.find (ptKey r.vd r.page) = some e → e.kind = .page → e.promoted = false → r.dev = s.pool.devnum →
    s.mayMove r.by_ r.vd r.page e = true → s.chooseFrames (pageFrames e.big) pick (decide (r.by_ = .retire)) = some f →
    ∃ t, exec (.pageMoveStart i pick) s = .next t ∧ t.slu.pt.find (ptKey r.vd r.page) = some { e with kind := .migrating }
      ∧ t.slu.shootdown = s.slu.shootdown + 1 ∧ t.mem = s.mem
      ∧ t.slu.wanted = s.slu.wanted.filter (fun w => decide (w ≠ r))
      ∧ t.moveOf r.vd r.page = some { vd := r.vd, page := r.page, big := e.big, src := e.gframe, dst := s.ownFrame f, step := 1, by_ := r.by_ }) ∧
  (∀ (s : State) (v page : Nat) (m : Move), s.moveOf v page = some m → m.step = 1 → s.framesQuiet m.src (pageFrames m.big) = true →
    gfDev m.src = s.pool.devnum → exec (.moveAckComplete v page) s = .next (s.putMove { m with step := 3 })) ∧
  (∀ (s s2 : State) (v page : Nat) (m : Move) (e : PEntry) (x : Ext), s.moveOf v page = some m → m.step = 3 → gfDev m.src = s.pool.devnum →
    gfDev m.dst = s.pool.devnum →
    s2 = (s.fresh.takeBackFrames (gfLocal m.src) (pageFrames m.big) v).copyFrames (gfLocal m.src) (gfLocal m.dst) (pageFrames m.big) →
    s2.stall = [] → s2.slu.pt.find (ptKey v page) = some e → s2.slu.places = [] → s2.slu.recWait = [] → m.by_ = .retire →
    exec (.moveCopyDone v page x) s = .next ((s2.setEntry v page { e with kind := .page, gframe := m.dst, moved := s2.movedNow }).putMove
      { m with step := 5 })) ∧
  (∀ (s : State) (f g k i : Nat), Tab.wf s.mem = true → (f + k ≤ g ∨ g + k ≤ f) → i < k * 65536 →
    readByte (s.copyFrames f g k).mem (g * 65536 + i) = readByte s.mem (f * 65536 + i)) ∧
  (∀ (s : State) (f g k a : Nat), Tab.wf s.mem = true → (a < g * 65536 ∨ (g + k) * 65536 ≤ a) →
    readByte (s.copyFrames f g k).mem a = readByte s.mem a) ∧
  (∀ (s : State) (v page : Nat) (m : Move), s.moveOf v page = some m → m.step = 5 → gfDev m.src = s.pool.devnum →
    exec (.moveSourceFree v page) s = .next ((s.untagFrames (gfLocal m.src) (pageFrames m.big)).dropMove v page)) ∧
  (∀ (s : State) (v page pick : Nat) (m : Move) (e : PEntry), s.moveOf v page = some m → m.vd = v → m.page = page → m.step = 1 →
    gfDev m.src = s.pool.devnum → gfDev m.dst ≠ s.pool.devnum → m.fresh = false → s.slu.pt.find (ptKey v page) = some e → e.kind = .migrating →
    s.slu.places = [] → s.slu.recWait = [] →
    ∃ t, exec (.moveDeadline v page pick) s = .next t ∧ t.slu.pt.find (ptKey v page) = some { e with kind := .page }
      ∧ t.moveOf v page = none ∧ t.slu.abandon = s.slu.abandon + 1
      ∧ t.out = s.out ++ [.sl (gfDev m.dst) (.giveBack (gfLocal m.dst) (pageFrames m.big))] ∧ t.mem = s.mem) ∧
  (∀ (s : State) (k : Nat) (p : Promo) (e : PEntry), s.slu.promo.find k = some p → p.st = .coming → s.slu.pt.find (ptKey p.vd p.page) = some e →
    e.kind = .page → e.gframe = s.ownFrame p.frame → (∀ m ∈ s.slu.moves, m.vd ≠ p.vd ∨ m.page ≠ p.page) → (s.slices.any fun y => y.2.miss.any fun m => s.inFrames p.frame 1 m.1) = false →
    ∃ t, exec (.promoteDone k) s = .next t ∧ t.slu.promo.find k = some { p with st := .held }
      ∧ t.bays = ((s.evictFrames p.frame 1).slotIn p.frame k).bays
      ∧ t.slu.pt.find (ptKey p.vd p.page) = some { e with promoted := true, moved := s.movedNow } ∧ t.slu.promote = s.slu.promote + 1
      ∧ t.vds = s.vds ∧ t.pool = s.pool) ∧
  (∀ (s : State) (k : Nat) (p : Promo) (e : PEntry), s.slu.promo.find k = some p → p.st = .going → p.next = none → p.fantail = true →
    Tab.wf s.slu.promo = true → s.slu.pt.find (ptKey p.vd p.page) = some e →
    ∃ t, exec (.demoteDone k) s = .next t ∧ t.slu.promo.find k = none
      ∧ t.slu.pt.find (ptKey p.vd p.page) = some { e with promoted := false, moved := s.movedNow } ∧ t.slu.demote = s.slu.demote + 1
      ∧ t = { s.slotOut p.frame k with slu := t.slu }) ∧
  (∀ (s : State), s.pol.fantailEnable = false → ∃ t, exec .fantailEvaluation s = .next t
    ∧ t.slu.heat = (s.slu.heat.mapVal fun _ h => h / 2).keep (fun _ h => decide (h ≠ 0))
    ∧ t.slu.wanted = s.slu.wanted.filter (fun w => decide (w.by_ ≠ .fantail))
    ∧ t = { s with slu := { s.slu with heat := t.slu.heat, wanted := t.slu.wanted } }) ∧
  (∀ (s : State) (key : Nat) (e : PEntry), s.pol.fantailEnable = true → s.slu.pt = [(key, e)] → s.slu.wanted = [] → s.slu.moves = [] →
    s.slu.promo = [] → e.kind = .page → s.granted (key / 2 ^ 26) (key % 2 ^ 26) (pageFrames e.big) = false → gfDev e.gframe ≠ s.pool.devnum →
    128 ≤ s.slu.heat.getD key 0 → e.pin = false → bit (s.regionPolicy (key / 2 ^ 26) (key % 2 ^ 26 * 65536)) 2 = false → s.dwells e = false →
    ∃ t, exec .fantailEvaluation s = .next t
      ∧ t.slu.wanted = [{ vd := key / 2 ^ 26, page := key % 2 ^ 26, dev := s.pool.devnum, by_ := .fantail }])

/-- R328: 'An add that would take COUNT above 2^48 − 1 leaves COUNT at 2^48 − 1 and sets SATURATED. The counter never wraps. A RESET
sets COUNT to any value, including a value below the targets of registered waits, which then keep waiting. It clears SATURATED.' -/
def Obligations.CountersSaturateAndAResetSetsAnyValue : Prop :=
  (∀ (s : State) (p n : Nat), (s.penn p).st = .leased →
    ((s.penAdd p n).penn p).count.toNat = min (2 ^ 48 - 1) ((s.penn p).count.toNat + n) ∧
    (s.penn p).count.toNat ≤ ((s.penAdd p n).penn p).count.toNat ∧
    (2 ^ 48 - 1 < (s.penn p).count.toNat + n → ((s.penAdd p n).penn p).saturated = true)) ∧
  (∀ (s : State) (q p : Nat) (c : Cmd), s.penCmd q 2 = some c → s.binding c.vd c.pen = some (.lease p false) → (s.penn p).st = .leased →
    exec (.penSignal q) s = .next ((s.penAdd p c.value).penDone q .ok ((s.penAdd p c.value).penn p).count.toNat)) ∧
  (∀ (s : State) (q p : Nat) (c : Cmd), s.penCmd q 3 = some c → s.binding c.vd c.pen = some (.lease p false) → (s.penn p).st = .leased →
    ∃ t, exec (.penReset q) s = .next t ∧ (t.penn p).count.toNat = c.value ∧ (t.penn p).saturated = false
      ∧ ∀ r ∈ s.pen.regs, r.pen = p → c.value < r.target → r ∈ t.pen.regs)

/-- R317, R319, R321, R323, R326, R330, R332, R333 and R335. -/
def Obligations.PennantsAreLeasedWaitedOnAndShared : Prop :=
  (∀ (s : State) (q pick : Nat) (c : Cmd), s.penCmd q 0 = some c →
    (s.binding c.vd c.pen = none → (s.vd c.vd).bind.length < s.quotaPen c.vd → s.penPresent pick = true → (s.penn pick).st = .free →
      exec (.penLease q pick) s = .next (((s.setPenn pick { count := BitVec.ofNat 48 c.value, owner := c.vd, st := .leased
                                                            epochPar := (s.vd c.vd).epoch.getLsbD 0 }).setBinding c.vd c.pen
        (.lease pick false)).penDone q .ok c.value)) ∧
    (∀ b, s.binding c.vd c.pen = some b → exec (.penLease q pick) s = .next (s.penDone q .inUse))) ∧
  (∀ (s : State) (q p : Nat) (c : Cmd), s.penCmd q 1 = some c → s.binding c.vd c.pen = some (.lease p false) → (∀ r ∈ s.pen.regs, r.pen ≠ p) →
    s.exportOf p = none → (s.penn p).owner = c.vd →
    ∃ t, exec (.penDrop q) s = .next t ∧ t.pen.pens = s.pen.pens.setD p {} {} ∧ t.pen.abandonCnt = s.pen.abandonCnt + 1
      ∧ t.pen.regs = s.pen.regs ∧ t.pen.exports = s.pen.exports
      ∧ t.cmd? q = some { c with st := .running, engineFin := some {}, result := 0 } ∧ t.mem = s.mem ∧ t.out = s.out) ∧
  (∀ (s : State) (q p : Nat) (c : Cmd), s.penCmd q 4 = some c → s.binding c.vd c.pen = some (.lease p false) →
    exec (.penRead q) s = .next (s.penDone q .ok (s.penn p).count.toNat)) ∧
  (∀ (s : State) (q p : Nat) (c : Cmd), s.penCmd q 4 = some c → s.binding c.vd c.pen = some (.lease p true) →
    exec (.penRead q) s = .next (s.penDone q .ok (2 ^ 48))) ∧
  (∀ (s : State) (q p : Nat) (c : Cmd), s.penCmd q 5 = some c → s.binding c.vd c.pen = some (.lease p false) →
    (c.value ≤ (s.penn p).count.toNat → exec (.penArm q) s = .next (s.penDone q .ok (s.penn p).count.toNat)) ∧
    ((s.penn p).count.toNat < c.value → (s.pen.regs.filter fun r => decide (r.pen = p) && decide (r.place = .own)).length < 32 →
      ∃ t, exec (.penArm q) s = .next t ∧ t.pen.regs = s.pen.regs ++ [{ pen := p, who := .cmd q, vd := c.vd, target := c.value, place := .own }]
        ∧ t.cmd? q = some { c with st := .running, slot := false, wait := .registered } ∧ t.mem = s.mem ∧ t.out = s.out)) ∧
  (∀ (s : State) (q pick p : Nat) (c : Cmd), s.penCmd q 6 = some c → s.binding c.vd c.pen = some (.lease p false) →
    (∀ k e, s.exportOf p = some (k, e) → exec (.penExport q pick) s = .next (s.penDone q .ok (ticketOf k s.ticketOwn e.key))) ∧
    (∀ k, s.exportOf p = none → pickFrom ((List.range 1024).filter fun k => (s.pen.exports.find k).isNone) pick = some k →
      ∃ key, key = (Config.freeValue s.freeCtr).setWidth 31 ∧ exec (.penExport q pick) s = .next
        ({ s with freeCtr := s.freeCtr + 1, pen := { s.pen with exports := s.pen.exports.put k { pen := p, key := key } } }.penDone q .ok
          (ticketOf k s.ticketOwn key)))) ∧
  (∀ (s : State) (q : Nat) (c : Cmd), s.penCmd q 7 = some c → s.binding c.vd c.pen = none → (s.vd c.vd).bind.length < s.quotaPen c.vd →
    ticketDev c.value = s.pool.devnum →
    (∀ k e, s.ticketPen c.value = some (k, e) → e.imports.length < 16 →
      exec (.penImport q) s = .next (({ s with pen := { s.pen with exports := (s.pen.exports.put k { e with
          imports := e.imports ++ [(s.pool.devnum, c.vd)] }) } }.setBinding c.vd c.pen (.imported c.value false)).penDone q .ok
        (s.penn e.pen).count.toNat)) ∧
    (s.ticketPen c.value = none →
      exec (.penImport q) s = .next ((s.post { cls := .protocol, device := some s.pool.devnum }).penDone q .notGranted))) ∧
  (∀ (s : State) (q p k : Nat) (c : Cmd) (e : Export), s.penCmd q 8 = some c → s.binding c.vd c.pen = some (.lease p false) →
    s.exportOf p = some (k, e) → e.imports = [] → (∀ r ∈ s.pen.regs, r.pen = p → s.importWait r = false) →
    exec (.penUnexport q) s = .next ({ s with pen := { s.pen with exports := s.pen.exports.del k } }.penDone q .ok)) ∧
  (∀ (s : State) (q q2 p : Nat) (c d : Cmd), s.penCmd q 2 = some c → s.binding c.vd c.pen = some (.lease p false) → (s.penn p).st = .leased →
    s.pen.regs = [{ pen := p, who := .cmd q2, vd := c.vd, target := (s.penn p).count.toNat + 1, place := .own }] → 1 ≤ c.value → q2 ≠ q →
    (s.penn p).count.toNat + 1 < 2 ^ 48 → s.cmd? q2 = some d → d.st = .queued →
    ∃ t, exec (.penSignal q) s = .next t ∧ t.pen.regs = [] ∧ t.cmd? q2 = some { d with wait := .met }) ∧
  (∀ (s : State) (q : Nat) (c : Cmd), s.binding c.vd c.pen = none →
    (s.penCmd q 1 = some c → exec (.penDrop q) s = .next (s.penDone q .noPennant)) ∧
    (s.penCmd q 2 = some c → exec (.penSignal q) s = .next (s.penDone q .noPennant)) ∧
    (s.penCmd q 3 = some c → exec (.penReset q) s = .next (s.penDone q .noPennant)) ∧
    (s.penCmd q 4 = some c → exec (.penRead q) s = .next (s.penDone q .noPennant)))

/-- R310, R479 to R481, R206, R210, R211, R213, R488, R489, R495 and R239. -/
def Obligations.BlockServicesAdvanceByTheirBlocks : Prop :=
  (∀ (s : State) (q n : Nat) (c : Cmd) (t : Task) (x : Ext), s.cmd? q = some c → s.taskOn q c n = some t → t.cancel = true →
    (c.opcode = 0x10 → exec (.copy q n x) s = .next (s.fresh.modTask q n fun t => { t with fin := some { term := .cancelled, status := .cancelled } })) ∧
    (c.opcode = 0x11 → exec (.fill q n x) s = .next (s.fresh.modTask q n fun t => { t with fin := some { term := .cancelled, status := .cancelled } })) ∧
    (c.opcode = 0x12 → exec (.compare q n x) s = .next (s.fresh.modTask q n fun t => { t with fin := some { term := .cancelled, status := .cancelled } })) ∧
    (c.opcode = 0x14 → exec (.reduce q n x) s = .next (s.fresh.modTask q n fun t => { t with fin := some { term := .cancelled, status := .cancelled } })) ∧
    (c.opcode = 0x31 → exec (.paramUpdate q n x) s = .next (s.fresh.modTask q n fun t => { t with fin := some { term := .cancelled, status := .cancelled } })) ∧
    (c.opcode = 0x39 → exec (.kvAppend q n x) s = .next (s.fresh.modTask q n fun t => { t with fin := some { term := .cancelled, status := .cancelled } })) ∧
    (c.opcode = 0x3A → exec (.attnDecode q n x) s = .next (s.fresh.modTask q n fun t => { t with fin := some { term := .cancelled, status := .cancelled } }))) ∧
  (∀ (s s1 : State) (q n o k total : Nat) (c : Cmd) (t : Task) (x : Ext) (b : Block), s.cmd? q = some c → s.taskOn q c n = some t → t.cancel = false →
    s1.stall = [] →
    (c.opcode = 0x10 → s.nextBlock t (c.ref 0x20) c.len3 = (o, k, total) →
      State.copyF (c.who q) { slice := n } x (k / 32 + 2) ((c.ref 0x18).add o) ((c.ref 0x20).add o) k s.fresh = (b, s1) →
      (b.fault = none → exec (.copy q n x) s = .next ((s1.modTask q n fun t => t.advance k total b.poison 1).readDescs q n c)) ∧
      (∀ st a, b.fault = some (st, a) → exec (.copy q n x) s = .next ((s1.modTask q n fun t => { t with fin := some { term := .faulted, status := st, addr := a } }).readDescs q n c))) ∧
    (c.opcode = 0x11 → s.nextBlock t (c.ref 0x18) (c.f 0x20 8) = (o, k, total) →
      s.fresh.opWrite (c.who q) { slice := n } ((c.ref 0x18).add o) (pbytes (fillBytes (c.f 0x28 8) o k) false) x = (none, s1) →
      exec (.fill q n x) s = .next ((s1.modTask q n fun t => t.advance k total false 1).readDescs q n c)) ∧
    (∀ s2 xs ys, c.opcode = 0x12 → s.nextBlock t (c.ref 0x18) c.len3 = (o, k, total) →
      State.readMarked c.vd { slice := n } x (k / 32 + 2) ((c.ref 0x18).add o) k s.fresh = (.ok xs, s1) →
      State.readMarked c.vd { slice := n } x (k / 32 + 2) ((c.ref 0x20).add o) k s1 = (.ok ys, s2) → s2.stall = [] →
      (s2.compareKey (c.ref 0x18) (c.ref 0x20) o xs ys = none →
        exec (.compare q n x) s = .next ((s2.modTask q n fun t => t.advance k total false 0).readDescs q n c)) ∧
      (∀ key, s2.compareKey (c.ref 0x18) (c.ref 0x20) o xs ys = some key →
        exec (.compare q n x) s = .next (((s2.modCmd q fun c => { c with result := min c.result key }).modTask q n fun t => t.advance total total false 0).readDescs q n c))) ∧
    (c.opcode = 0x14 → c.len3 = 0 → exec (.reduce q n x) s = .next ((s.fresh.modTask q n fun t => t.finish false 0).readDescs q n c)) ∧
    (c.opcode = 0x14 → c.len3 ≠ 0 → s.nextBlock t (c.ref 0x20) c.len3 = (o, k, total) →
      State.reduceF c q { slice := n } x (k / 128) o s.fresh = (b, s1) → b.fault = none →
      exec (.reduce q n x) s = .next ((s1.modTask q n fun t => t.advance k total b.poison 1).readDescs q n c)) ∧
    (∀ s0 : State, c.opcode = 0x31 → t.relDue = false → s.nextBlock t (c.ref 0x18) (c.updateBytes (s.planOf c)) = (o, k, total) →
      s0 = (if (s.planOf c).acqBay = true ∧ t.pos = 0 then s.fresh.modSlice n fun y => { y with l1 := [] } else s.fresh) →
      State.updateF c q { slice := n } (s.planOf c) x ((s.planOf c).groupsIn o (o + k)).2 ((s.planOf c).groupsIn o (o + k)).1 s0 = (b, s1) →
      b.fault = none → exec (.paramUpdate q n x) s = .next (((s1.modTask q n fun t => t.advance k total b.poison 1).modTask q n fun u =>
        if u.units.length < t.units.length ∧ u.units ≠ [] then { u with relDue := (s.planOf c).relBay } else u).readDescs q n c)) ∧
    (∀ s2 b2 base slot, c.opcode = 0x39 → base = c.kv.getLast?.getD 0 + c.pos / 2 ^ 24 * (s.planOf c).headBytes → slot = c.pos % 2 ^ 24 % 32 →
      s.fresh.kvRow c q { slice := n } (s.planOf c) 0 (base + slot * ((s.planOf c).nFixed * (s.planOf c).a.bytes)) x = (b, s1) → b.fault = none →
      s1.kvRow c q { slice := n } (s.planOf c) (rowBytes (s.planOf c).nFixed (s.planOf c).x)
        (base + (32 + slot) * ((s.planOf c).nFixed * (s.planOf c).a.bytes)) x = (b2, s2) → b2.fault = none → s2.stall = [] →
      exec (.kvAppend q n x) s = .next ((s2.modTask q n fun t => t.advance 1 1 (b.poison || b2.poison) 1).readDescs q n c)) ∧
    (∀ s0 : State, c.opcode = 0x3A → t.relDue = false →
      s0 = (if (s.planOf c).acqBay = true ∧ t.pos = 0 then s.fresh.modSlice n fun y => { y with l1 := [] } else s.fresh) →
      s0.attnPage c q n (t.units.headD 0) x = (b, s1) → b.fault = none →
      exec (.attnDecode q n x) s = .next (((s1.modTask q n fun t => t.advance 1 1 b.poison 0).modTask q n fun u =>
        if u.units.length < t.units.length ∧ u.units ≠ [] then { u with relDue := (s.planOf c).relBay } else u).readDescs q n c))) ∧
  (∀ (s s1 : State) (q n a ga : Nat) (c : Cmd) (t : Task) (x : Ext), s.cmd? q = some c → s.taskOn q c n = some t → t.cancel = false →
    c.opcode = 0x13 →
    (∀ v, c.old = some v → exec (.atomic q n x) s = .next (((s.fresh.setCmd q { c with old := none }).atomDone q n v c.width).readDescs q n c)) ∧
    (∀ u : State, c.old = none → s.atomOut q = false → c.ref 0x18 = .va a → s.fresh.translate c.vd a (decide (c.atop ≠ 0)) { x with via := 8 + n } = (.ok ga, s1) →
      u = (s1.lineAtom (ga / 128) (ga % 128) c { c.who q with va := a, slice := some n } x.pick).atomTake q n c.width → u.stall = [] →
      exec (.atomic q n x) s = .next (u.readDescs q n c))) ∧
  (∀ (s : State) (q n n' k gl off pick : Nat) (f : Frame) (c : Cmd) (w : Who), s.HomeIdle n' gl k f → s.cmd? q = some c → w.cmd = some q →
    w.errRec = false → c.old = none → bit f.p.toNat (off / 32) = false →
    ∃ t, s.lineAtom gl off c w pick = t ∧ t.mem = s.mem
      ∧ t.cmd? q = some { c with old := some (some (f.data.extractLsb' (8 * off) c.width).toNat) }
      ∧ (t.slice n').frames.find k = some (f.merge (BitVec.ofNat 128 ((2 ^ (c.width / 8) - 1) * 2 ^ off))
          (putField 0 (8 * off) c.width (atomicNew c.atop c.width (f.data.extractLsb' (8 * off) c.width).toNat (c.f 0x20 16) (c.f 0x30 16))) 0)) ∧
  (∀ (s : State) (q n v w : Nat) (c : Cmd), s.cmd? q = some c →
    s.atomDone q n (some v) w = (s.setCmd q { c with result := v }).modTask q n (fun t => t.finish false 0) ∧
    ∃ v, s.atomDone q n none w = (({ s with freeCtr := s.freeCtr + 2 } : State).setCmd q { c with result := v }).modTask q n fun t => t.finish true 0) ∧
  (∀ (s : State) (w : Who) (t : Port) (h o i a : Nat) (bs : List Byte) (x : Ext), o + bs.length ≤ s.blkSize h → s.blkOff h o % 128 + bs.length ≤ 128 →
    (s.hpool (handlePool h)).kind = 1 → a = s.poolByte (handlePool h) (s.blkOff h o / 128 * 128) → a % 128 = 0 → poisonAt s.bayPoison a = 0 →
    s.blockAsleep (handlePool h) (s.blkOff h o) 1 = false → Tab.wf s.bays = true →
    (i < bs.length → readByte (s.opPut w t (.blk h o) (pbytes bs false) x).2.bays (a + s.blkOff h o % 128 + i) = bs.getD i 0) ∧
    (∀ e, (e < a + s.blkOff h o % 128 ∨ a + s.blkOff h o % 128 + bs.length ≤ e) →
      readByte (s.opPut w t (.blk h o) (pbytes bs false) x).2.bays e = readByte s.bays e) ∧
    (s.opPut w t (.blk h o) (pbytes bs false) x).1 = none ∧ (s.opPut w t (.blk h o) (pbytes bs false) x).2.mem = s.mem) ∧
  (∀ (p o n i : Nat), i < n → (fillBytes p o n).getD i 0 = BitVec.ofNat 8 (p / 256 ^ ((o + i) % 8))) ∧
  (∀ (s : State) (q n : Nat) (c : Cmd) (t : Task) (x : Ext), s.cmd? q = some c → s.taskOn q c n = some t → t.cancel = false → t.relDue = true →
    (c.opcode = 0x31 → exec (.paramUpdate q n x) s = .next (s.fresh.readDescs q n c)) ∧
    (c.opcode = 0x3A → exec (.attnDecode q n x) s = .next (s.fresh.readDescs q n c))) ∧
  (∀ (s : State) (q n : Nat) (c : Cmd) (t : Task), s.cmd? q = some c → c.runningOn n = some t → s.released q = true →
    exec (.release q n false) s = .next (s.modTask q n fun t => { t with relDue := false }) ∧
    exec (.release q n true) s = .next ((s.modTask q n fun t => { t with relDue := false }).modSlice n fun y => { y with l1 := [] }))

/-- R346, R349, R351, R356, R358, R360, R371, R373, R387, R482 and R494. -/
def Obligations.RunnersLoadAccumulateSpillAndDrainTiles : Prop :=
  (∀ (s : State) (q n : Nat) (c : Cmd) (t : Task) (x : Ext), s.runners.find n = none → s.cmd? q = some c → s.taskOn q c n = some t → t.cancel = false →
    t.relDue = false →
    (c.opcode = 0x30 → exec (.matmul q n) s = .next (((if (s.planOf c).acqBay then s.modSlice n fun y => { y with l1 := [] } else s).setRunner n
      { cmd := q, bay := t.pos }).readDescs q n c)) ∧
    (c.opcode = 0x38 → exec (.embGather q n x) s = .next (((if (s.planOf c).acqBay then s.modSlice n fun y => { y with l1 := [] } else s).setRunner n
      { cmd := q, bay := t.pos }).readDescs q n c))) ∧
  (∀ (s : State) (q n : Nat) (c : Cmd) (t : Task), s.runners.find n = none → s.cmd? q = some c → s.taskOn q c n = some t → t.cancel = false →
    t.relDue = true → c.opcode = 0x30 → exec (.matmul q n) s = .next (s.readDescs q n c)) ∧
  (∀ (s s1 s2 : State) (n : Nat) (r : Runner) (c : Cmd) (t : Task) (y : BayTile) (l : LocTile) (as xs : List RdOut) (x : Ext),
    s.runnerOn n 0x30 = some (r, c, t) → (s.bayTiles c t)[r.bay]? = some y → r.next = 0 → r.loaded = [] → r.xin = [] →
    ((s.bucketOf c).locTiles y)[0]? = some l → s.xFrom r.cmd n = .mem → s.fresh.loadA c (s.planOf c) n l.m0 l.rows l.k0 l.kEnd x = (as, s1) →
    s1.loadXs c (s.planOf c) n l.n0 l.cols l.k0 l.kEnd x = (xs, s2) → s2.stall = [] →
    exec (.localTileLoaded n x) s = .next (s2.setRunner n { r with loaded := [{ loc := 0, a := as, x := xs }], next := 1 })) ∧
  (∀ (s : State) (n : Nat) (r : Runner) (c : Cmd) (t : Task) (y : BayTile) (l : LocTile) (lt : LocalTile) (v : Visit) (x : Ext),
    s.runnerOn n 0x30 = some (r, c, t) → t.cancel = false → r.cur = none → (s.stepsOf r c t)[r.visit]? = some v → (s.bayTiles c t)[r.bay]? = some y →
    r.loaded = [lt] → lt.loc = v.loc → ((s.bucketOf c).locTiles y)[v.loc]? = some l →
    ((lt.operands l v).fault = none → r.live.find (tileKey v.m0 v.n0) = none →
      exec (.runnerTileAttempt n false x) s = .next ((if (lt.operands l v).poison then s.fresh else s.fresh.beginAttempt n (s.planOf c) 0).runActive n r c t
        { m0 := v.m0, n0 := v.n0, rows := v.rows, cols := v.cols, k := v.k0, kEnd := v.kEnd, acc := zeros (v.rows * v.cols)
          poison := (lt.operands l v).poison } (lt.operands l v) v (s.stepsOf r c t)[r.visit + 1]? y.k0)) ∧
    (∀ st a, (lt.operands l v).fault = some (st, a) → r.shadow = none →
      exec (.runnerTileAttempt n false x) s = .next ((s.fresh.dropRunner n).modTask r.cmd n fun t =>
        { t with fin := some { term := .faulted, status := st, addr := a } }))) ∧
  (∀ (s : State) (n : Nat) (r : Runner) (c : Cmd) (t : Task) (y : Active), s.runnerOn n 0x30 = some (r, c, t) → r.cur = some y →
    y.phase = .spill false → y.spilled = false → (s.planOf c).intAcc = true → (s.planOf c).ovfSaturate = false →
    exec (.spill n) s = .next ((s.modSlice n fun z => { z with runSpill := z.runSpill + 1 }).setRunner n { r with cur := some { y with
      spill := y.acc, spilled := true, acc := zeros y.acc.length, since := 0, phase := if y.k < y.kEnd then .run else .step } })) ∧
  (∀ (s : State) (n wait : Nat) (r : Runner) (c : Cmd) (t : Task) (y : Active), s.runnerOn n 0x30 = some (r, c, t) → r.cur = some y →
    y.phase = .swap → r.shadow = none → t.cancel = false → y.poison = true →
    exec (.accSetSwap n wait) s = .next ((s.modSlice n fun z => { z with runDrainWait := z.runDrainWait + BitVec.ofNat 32 wait }).setRunner n { r with
      cur := none, visit := r.visit + 1, live := r.live.del (tileKey y.m0 y.n0)
      shadow := some { m0 := y.m0, n0 := y.n0, rows := y.rows, cols := y.cols, vals := (List.range y.acc.length).map ((s.planOf c).total y)
                       adj := y.adj, sat := false, poison := true } })) ∧
  (∀ (s s1 : State) (n : Nat) (r : Runner) (c : Cmd) (t : Task) (sh : Shadow) (b : Block) (x : Ext), s.runners.find n = some r →
    s.cmd? r.cmd = some c → r.shadow = some sh → s.taskOn r.cmd c n = some t → (s.planOf c).ksplit = 0 → s.fresh.drainTile c r.cmd n sh x = (b, s1) →
    s1.stall = [] → b.fault = none → r.stop = none → r.cur ≠ none →
    exec (.drainDone n x) s = .next ((s1.modTask r.cmd n fun t => { t with
      done := t.done + 1, poison := t.poison || b.poison || sh.poison }).setRunner n { r with shadow := none })) ∧
  (∀ (p : Plan) (o : Operands) (adj kk i j k : Nat) (acc : Int), p.intAcc = true →
    (p.groupElem o adj kk false i j k acc).val
      = acc + ((List.range (p.depth / p.sub)).map fun g => p.contrib o adj kk i j (k + g * p.sub)).sum)

/-- R398, R399, R401, R404, R407 and R408. -/
def Obligations.FlumesAndRacesGrantInOrder : Prop :=
  (∀ (s : State) (die pick : Nat) (g : FlumeRun), (s.flumeOf die).run = none → (s.flumeOf die).waiting = [g] → (s.flumeOf die).arb = {} →
    s.runAlive g = true →
    ∃ t a, exec (.flumeRunGrant die pick) s = .next t
      ∧ t = (s.dieClockOn die).setFlume die { s.flumeOf die with run := some g, waiting := [], arb := a }) ∧
  (∀ (s s1 : State) (die wait slips : Nat) (g : FlumeRun) (c : Cmd) (fr : FlumeRec), (s.flumeOf die).run = some g → s.cmd? g.cmd = some c →
    s.img.flumes.find (s.planOf c).flume = some fr → s.runStarted g c = true → s.runBroken die g = false →
    ((g.reduce = true ∧ ((List.range ((s.planOf c).parts (s.bucketOf c) c.mK)).all fun i => (s.supplyOf die g c i).isSome) = true
        ∧ s1 = s.reducePeriod die g c fr.fmt (fr.variant g.anchor)) ∨
     (g.reduce = false ∧ g.supply ≠ [] ∧ ((s.receivers die g).any fun n => decide (s.wantsX c n = some false)) = false
        ∧ s1 = s.multicastPeriod die g c (fr.variant g.anchor))) →
    exec (.flumePeriodStart die wait slips) s = .next (s1.setFlume die { s1.flumeOf die with
      run := (s1.flumeOf die).run.map fun h => { h with
        periods := h.periods + 1, total := if g.periods = 0 then s.runPeriods die g c else g.total, slips := h.slips + slips }
      slip := (s1.flumeOf die).slip + BitVec.ofNat 32 slips
      wait := (s1.flumeOf die).wait + BitVec.ofNat 32 wait })) ∧
  (∀ (s : State) (die wait : Nat) (g : FlumeRun), (s.flumeOf die).run = some g → 0 < g.periods → g.total ≤ g.periods →
    exec (.flumeRunEnd die wait) s = .next ((s.setFlume die { s.flumeOf die with run := none, runs := (s.flumeOf die).runs + 1 }).gaugeEvent 0x31 die none
      g.slips)) ∧
  (∀ (s : State) (race out : Nat) (m : RaceMsg), s.races.getD race {} = {} → (8 ≤ race ∨ (s.die race).st = .active) → s.racePort race out = true → s.racePort race m.inp = true →
      m.carried race = true → m.cls < 5 → m.out = out →
    ∃ (t : State) (r1 : Race), exec (.raceGrant race out [m]) s = .next t ∧ t = (s.dieClockOn race).setRace race { r1 with waiting := [] }) ∧
  (∀ (r r1 : Race) (out : Nat) (ms : List RaceMsg) (m : RaceMsg), (∀ c, r.higher.getD (out * 8 + c) 0 < 16) → r.choose out ms = some (m, r1) →
    m ∈ ms ∧ ∀ k ∈ ms, m.cls ≤ k.cls)

/-- R428 to R433, R436, R437, R441 and R293; the 1 ms rule is this model's reading (notes/assumptions/25.md). -/
def Obligations.HyhanLinksTrainRecoverAndFall : Prop :=
  (∀ (s : State) (p lanes : Nat), (s.hylPort p).st = .detect → 2 ≤ popCount 8 lanes →
    exec (.hylDetectPoll p lanes) s = .next (s.modHyl p fun x => { x with
      st := .train, trained := 0, seen := [], sentSeen := [], peerNext := none, peerUsable := 0, peerPort := none
      reversed := false, inverted := 0, precodeRx := 0, precodeTx := 0, taps := [], eqReq := [], eqSts := [] })) ∧
  (∀ (s s0 : State) (p lanes up pre : Nat) (late : Bool), s0 = s.linkSync → (s0.hylPort p).st = .train →
    up = packBits 8 (fun l => bit (lanes % 256 &&& (255 ^^^ ((s0.hylPort p).retired &&& 255))) l && (s0.hylPort p).laneSeen l) →
    (2 ≤ popCount 8 up → exec (.hylTrainDone p lanes late pre) s = .next (s0.modHyl p fun x => { x with
      st := .config, trained := up, precodeRx := pre % 256, seen := [], sentSeen := [] })) ∧
    (popCount 8 up < 2 → exec (.hylTrainDone p lanes true pre) s = .next (s0.modHyl p fun x => { x with st := .detect, trained := up })) ∧
    (popCount 8 up < 2 → exec (.hylTrainDone p lanes false pre) s = .next s0)) ∧
  (∀ (s s0 : State) (p lane : Nat) (bs : List Byte) (b : TrainBlock), readBlock bs = some b → s0 = s.linkSync.sendBlock p lane b.lane true →
    ((s0.hylPort p).st = .train ∨ (s0.hylPort p).st = .config) →
    exec (.trainingBlockReceive p lane bs) s = .next (s0.modHyl p fun x => x.heard (bit s0.pol.hylEqHold p) lane b)) ∧
  (∀ (s : State) (p lane : Nat) (bs : List Byte), readBlock bs = none →
    exec (.trainingBlockReceive p lane bs) s = .next (s.linkSync.sendBlock p lane lane false)) ∧
  (∀ (s t : State) (p lane num : Nat) (seen : Bool), t = s.sendBlock p lane num seen →
    ((s.hylPort p).st = .train ∨ (s.hylPort p).st = .config ∨ (s.hylPort p).st = .recovery ∨ (s.hylPort p).st = .widthChange) →
    (t.hylPort p).lanesOut = (s.hylPort p).lanesOut ++ [[(lane, (s.blockOut p lane seen).bytes)]] ∧ (t.hylPort p).seen = (s.hylPort p).seen ∧
    (Tab.wf (s.hylPort p).eqReq = true → (t.hylPort p).eqReq.getD lane 0 = 0) ∧ t = { s with hyl := t.hyl }) ∧
  (∀ (x : HylPort) (hold : Bool) (lane : Nat) (b : TrainBlock),
    (x.heard hold lane b).peerSerial = b.serial ∧ (x.heard hold lane b).peerDev = b.devnum ∧ (x.heard hold lane b).peerPort = some b.port ∧
    (x.heard hold lane b).peerUsable = b.usable ∧ (x.heard hold lane b).reversed = decide (b.lane ≠ lane) ∧
    (x.heard hold lane b).peerNext = (if b.retrain then some b.nextRx else x.peerNext) ∧
    (x.heard hold lane b).seen = x.seen.setD b.lane 0 (if b.seen then x.seen.getD b.lane 0 + 1 else 0) ∧
    (hold = true → (x.heard hold lane b).taps = x.taps)) ∧
  (∀ (s s0 : State) (p set : Nat), s0 = s.linkSync → (s0.hylPort p).st = .config → (s0.hylPort p).tx = [] →
    chooseSet 255 ((s0.hylPort p).trained &&& (s0.hylPort p).peerUsable &&& (255 ^^^ ((s0.hylPort p).retired &&& 255))) = some set →
    (s0.hylPort p).blocksSeen set = true →
    ∃ t, exec (.hylConfigDone p) s = .next t ∧ t = s0.freshLink p set ∧ (t.hylPort p).st = .l0 ∧ (t.hylPort p).active = set
      ∧ (t.hylPort p).credits = fullCredits ∧ (t.hylPort p).held = [] ∧ (t.hylPort p).nextTx = 0 ∧ (t.hylPort p).nextRx = 0) ∧
  (∀ (s s0 : State) (p lane : Nat), s0 = s.linkSync → (s.hylPort p).st = .l0 →
    ((s0.hylPort p).recEnd = none →
      exec (.noFlitTimeout p) s = .next (s0.attempt p 1) ∧
      (bit (s.hylPort p).active lane = true → exec (.laneLockLoss p lane) s = .next (s0.attempt p 1))) ∧
    (∀ e, (s0.hylPort p).recEnd = some e → s0.now < e + 10 ^ 6 → (s0.hylPort p).lastAttempt = 3 →
      exec (.noFlitTimeout p) s = .next (s0.hylDrop p .down) ∧
      (bit (s.hylPort p).active lane = true → exec (.laneLockLoss p lane) s = .next (s0.hylDrop p .down)))) ∧
  (∀ (s : State) (p : Nat), (s.hylPort p).st = .recovery →
    ((s.hylPort p).attempt < 3 → exec (.recoveryAttemptTimeout p) s = .next (s.linkSync.attempt p ((s.hylPort p).attempt + 1))) ∧
    ((s.hylPort p).attempt = 3 → exec (.recoveryAttemptTimeout p) s = .next (s.linkSync.hylDrop p .down))) ∧
  (∀ (s : State) (p n : Nat), n ≤ 3 → ∃ t : State, s.attempt p n = t.charge 9 p 256 ∧ (t.hylPort p).st = .recovery ∧ (t.hylPort p).attempt = n
    ∧ (t.hylPort p).recovery = (s.hylPort p).recovery + 1 ∧ t = { s with hyl := t.hyl }) ∧
  (∀ (s : State) (p : Nat), ((s.hylPort p).st = .widthChange ∨ (s.hylPort p).st = .l1 ∨ (s.hylPort p).st = .l1d) →
    exec (.relockFail p) s = .next (s.linkSync.attempt p 1)) ∧
  (∀ (s s0 s1 : State) (p lane n : Nat) (bs : List Byte) (b : TrainBlock), readBlock bs = some b → s0 = s.linkSync.sendBlock p lane b.lane true →
    (s0.hylPort p).st = .recovery → s1 = s0.modHyl p (fun x => x.heard (bit s0.pol.hylEqHold p) lane b) →
    (b.retrain = true → (s0.hylPort p).own = false → (s1.hylPort p).peerNext = some n → ∀ set,
      chooseSet (s1.hylPort p).active ((s1.hylPort p).trained &&& (s1.hylPort p).peerUsable &&& (255 ^^^ ((s1.hylPort p).retired &&& 255))) = some set →
      (s1.hylPort p).blocksSeen set = true →
      ((s1.hylPort p).inRange n = true →
        exec (.trainingBlockReceive p lane bs) s = .next ((s1.modHyl p fun x => { x with active := set }).resume p n)) ∧
      ((s1.hylPort p).inRange n = false →
        exec (.trainingBlockReceive p lane bs) s = .next ((s1.modHyl p fun x => { x with active := set }).reconfigure p)))) ∧
  (∀ (s : State) (p : Nat), (s.hylPort p).st = .down →
    exec (.hylDownTimer p) s = .next (s.modHyl p fun x => { x with st := .detect, trained := 0 })) ∧
  (∀ (s : State) (p : Nat) (x : HylPort), s.linkSync = s → x = s.hylPort p → x.st = .l0 → x.tx = [] → x.hello = none →
    (s.hylDrop p .down).pool.lostMsgCnt = s.pool.lostMsgCnt + BitVec.ofNat 32 x.held.length
      ∧ ((s.hylDrop p .down).hylPort p).st = .down ∧ ((s.hylDrop p .down).hylPort p).held = []) ∧
  (∀ (s : State) (p lane req : Nat) (asks : Bool),
    (asks = true → bit s.pol.hylEqHold p = true →
      exec (.equalisationDecision p asks lane req) s = .next { s with slu := { s.slu with loopTug := countAt s.slu.loopTug 1 } }) ∧
    (asks = true → bit s.pol.hylEqHold p = false → (s.hylPort p).eqAt.find lane = none →
      exec (.equalisationDecision p asks lane req) s = .next (s.modHyl p fun x => { x with
        eqReq := x.eqReq.setD lane 0 (req % 32), eqAt := x.eqAt.put lane s.now })) ∧
    (∀ t, asks = true → bit s.pol.hylEqHold p = false → (s.hylPort p).eqAt.find lane = some t → s.now < t + 10 ^ 6 →
      exec (.equalisationDecision p asks lane req) s = .next s) ∧
    (asks = false → exec (.equalisationDecision p asks lane req) s = .next s))

/-- R415, R420, R422, R424 to R426, R434, R435 and R438 to R440. -/
def Obligations.FlitsReplaysWidthsAndLowPower : Prop :=
  (∀ (s s0 s1 s4 : State) (p d : Nat) (w : FlitWire) (f : LinkFlit) (g : SlotRead), s0 = s.linkSync → (s0.hylPort p).st = .l0 →
    s1 = s0.modHyl p (fun x => { x with rxScr := scrFlit x.active x.rxScr }) → f = readFlit (s0.hylPort p).active (s0.hylPort p).rxScr (fixPolarity (s0.hylPort p).inverted w) →
    exec (.flitReceive p w) s = .next (s1.flitTaken p f) ∧
    (f.fixed = [] → f.pass = true → f.kind = 1 → f.first ≠ 14 → f.nak = false →
      s4 = (s1.modHyl p fun x => { x with
        held := x.acked f.ack,
        credits := f.credit.foldl (fun t c => if c.1 < 5 then t.setD c.1 0 (min (fullCredits.getD c.1 0) (t.getD c.1 0 + c.2)) else t) x.credits }).pump p →
      d = (f.seq + 4096 - (s4.hylPort p).nextRx) % 4096 → g = f.deliveries (s4.hylPort p).part →
      (d = 0 → g.bad = false → exec (.flitReceive p w) s = .next ((g.msgs.foldl (fun s m => s.deliver p m)
        (s4.modHyl p fun x => { x with nextRx := (x.nextRx + 1) % 4096, nakSent := false, part := g.part })).idleFlit p false)) ∧
      (d = 0 → g.bad = true → exec (.flitReceive p w) s = .next ((((s4.modHyl p fun x => { x with
        nextRx := (x.nextRx + 1) % 4096, nakSent := false, part := g.part }).modHyl p fun x => { x with badFlit := x.badFlit + 1 }).post
          { cls := .protocol, unit := p }).idleFlit p false)) ∧
      (0 < d → d < 1024 → exec (.flitReceive p w) s = .next (s4.discard p)) ∧
      (1024 ≤ d → d < 3072 → exec (.flitReceive p w) s = .next (s4.recover p)) ∧
      (3072 ≤ d → exec (.flitReceive p w) s = .next (s4.idleFlit p false)))) ∧
  (∀ (s s0 s1 s2 : State) (p : Nat) (w : FlitWire) (f : LinkFlit), s0 = s.linkSync → (s0.hylPort p).st = .l0 →
    s1 = s0.modHyl p (fun x => { x with rxScr := scrFlit x.active x.rxScr }) → f = readFlit (s0.hylPort p).active (s0.hylPort p).rxScr (fixPolarity (s0.hylPort p).inverted w) →
    f.fixed = [] → (f.pass = false ∨ f.kind = 3 ∨ f.first = 14) →
    s2 = (s1.modHyl p fun x => { x with crcErr := x.crcErr + 1 }).charge 9 p 16 → (s2.hylPort p).st = .l0 →
    ((s2.hylPort p).nakSent = true → exec (.flitReceive p w) s = .next s2) ∧
    ((s2.hylPort p).nakSent = false → exec (.flitReceive p w) s = .next ((s2.modHyl p fun x => { x with nakSent := true }).idleFlit p true))) ∧
  (∀ (set : Nat) (scr : Tab (BitVec 31)) (bytes : List Byte), set ∈ candidateSets → bytes.length = 256 →
    fromLanes set scr (toLanes set scr bytes) = bytes) ∧
  (∀ (w header : Nat) (slots : List (BitVec 128)), (flitBytes w header slots).length = 256) ∧
  (∀ (m : LinkMsg), m.mtype < 16 → m.op < 256 → m.cls < 8 → m.src < 128 → m.dst < 128 → m.tag < 2 ^ 16 → m.addr < 2 ^ 48 → m.sect < 16 → m.pois < 16 →
    m.ovd < 64 → m.qcls < 4 → m.qweight < 32 → m.flags < 128 → m.data.length ≤ 8 → headerBad m.header = false →
    readSlots none m.slots = { msgs := [m] }) ∧
  (∀ (x : HylPort) (pre post : List HeldFlit) (f : HeldFlit), x.held = pre ++ f :: post → (∀ g ∈ pre, g.seq ≠ f.seq) → x.acked f.seq = post) ∧
  (∀ (s : State) (p : Nat), (s.resend p).out = s.out ++ (s.hylPort p).held.map fun f => .flit p 1 f.seq (s.hylPort p).ack false [] (some f.msg)) ∧
  (∀ (s s0 : State) (p : Nat) (f : HeldFlit) (t : List HeldFlit), s0 = s.linkSync → (s.hylPort p).st = .l0 → (s0.hylPort p).held = f :: t →
    (f.replays < 8 → exec (.replayTimeout p) s = .next ((s0.modHyl p fun x => { x with
      held := { f with replays := f.replays + 1 } :: t, replay := x.replay + 1 }).resend p)) ∧
    (8 ≤ f.replays → exec (.replayTimeout p) s = .next (s0.recover p))) ∧
  (∀ (s s0 : State) (p lanes serial : Nat) (dev : Option Nat), s0 = s.linkSync → (s0.hylPort p).st = .l0 → (s0.hylPort p).own = false →
    lanes ∈ candidateSets → lanes &&& (s0.hylPort p).active = lanes →
    ∃ t, exec (.wreq p lanes dev serial) s = .next t ∧ (t.hylPort p).st = .widthChange ∧ (t.hylPort p).active = lanes
      ∧ (t.hylPort p).widthCnt = (s0.hylPort p).widthCnt + 1 ∧ t.out = s0.out ++ [.control p 2 lanes]
      ∧ t = { s0 with out := t.out, hyl := t.hyl }) ∧
  (∀ (s : State) (p lanes : Nat), (s.hylPort p).st = .l0 → (s.hylPort p).want = some lanes →
    ∃ t, exec (.wack p lanes) s = .next t ∧ t = s.linkSync.enterWidth p lanes ∧ (t.hylPort p).st = .widthChange ∧ (t.hylPort p).active = lanes) ∧
  (∀ (s s0 : State) (p n : Nat), s0 = s.linkSync → (s0.hylPort p).st = .widthChange → (s0.hylPort p).blocksSeen (s0.hylPort p).active = true →
    (s0.hylPort p).peerNext = some n →
    ((s0.hylPort p).inRange n = true → exec (.widthChangeDone p) s = .next (s0.resume p n)) ∧
    ((s0.hylPort p).inRange n = false → exec (.widthChangeDone p) s = .next (s0.reconfigure p))) ∧
  (∀ (s s0 : State) (p : Nat), s0 = s.linkSync → s0.hylIdle p = true →
    ∃ t, exec (.hylIdleTimer p) s = .next t ∧ (t.hylPort p).pmWait = true ∧ t.out = s0.out ++ [.control p 3 0] ∧ t = { s0 with out := t.out, hyl := t.hyl }) ∧
  (∀ (s s0 : State) (p : Nat), s0 = s.linkSync → (s0.hylPort p).st = .l0 →
    ((s0.hylPort p).pmWait = true → exec (.pmReq p) s = .next (s0.enterL1 p)) ∧
    ((s0.hylPort p).pmWait = false → s0.hylIdle p = true → exec (.pmReq p) s = .next ((s0.putControl p 4 0).enterL1 p)) ∧
    ((s0.hylPort p).pmWait = false → s0.hylIdle p = false → exec (.pmReq p) s = .next (s0.putControl p 5 0))) ∧
  (∀ (s : State) (p : Nat),
    ((s.hylPort p).st = .l0 → (s.hylPort p).pmWait = true →
      exec (.pmAck p) s = .next (s.linkSync.enterL1 p) ∧ ((s.linkSync.enterL1 p).hylPort p).st = .l1) ∧
    exec (.pmNak p) s = .next (s.modHyl p fun x => { x with pmWait := false }) ∧
    ((s.hylPort p).st = .l1 → exec (.l1ToL1d p) s = .next (s.modHyl p fun x => { x with st := .l1d })) ∧
    (((s.hylPort p).st = .l1 ∨ (s.hylPort p).st = .l1d) → (s.linkSync.hylPort p).tx = [] →
      (s.linkSync.hylPort p).active &&& (s.linkSync.hylPort p).retired = 0 →
      exec (.hylWake p) s = .next (s.linkSync.modHyl p fun x => { x with st := .l0, txScr := scrSeeds, rxScr := scrSeeds }))) ∧
  (∀ (x : HylPort) (hold : Bool), (x.giveBack hold).1.length ≤ 2 ∧ (∀ e ∈ (x.giveBack hold).1, e.2 ≤ 63) ∧ ∀ e ∈ (x.giveBack true).1, e.1 ≠ 0)

/-- R451 to R454, R466 to R469 and R236. -/
def Obligations.MembersJoinLeaveAndAreIsolated : Prop :=
  (∀ (s : State) (f : Flood) (a b : Nat) (l : List (Nat × Option Nat)) (isIn ok : Bool) (off : Int) (x : Ext),
    ((f.origin, f.seq) ∈ s.linkSync.pool.seen ∨ f.port ∉ s.linkSync.floodPorts) →
    exec (.elect f a) s = .next s ∧ exec (.joinReq f a l) s = .next s ∧ exec (.poolMember f a b isIn off x) s = .next s
      ∧ exec (.linkState f a b ok) s = .next s ∧ exec (.leave f a x) s = .next s ∧ exec (.sweepDone f a b) s = .next s) ∧
  (∀ (s s1 : State) (op : Nat) (f : Flood) (vals : List Nat), s.floodIn op f vals = some s1 →
    (f.origin, f.seq) ∉ s.pool.seen ∧ (f.origin, f.seq) ∈ s1.pool.seen ∧ s1.out = s.out ++ [.flood op f.origin f.seq vals (some f.port)]
      ∧ s1 = { s with out := s1.out, pool := { s.pool with seen := s1.pool.seen } }) ∧
  (∀ (s s0 s1 : State) (p k a : Nat) (h : Hello), s0 = s.linkSync → (s.hylPort p).st = .l0 → k = s0.linkKindOf p h → s0.pool.lowest = some a →
    s1 = { s0.modHyl p (fun x => { x with hello := some h }) with pool := { s0.pool with linkKind := s0.pool.linkKind.setD p 0 k } } →
    ((k = 4 ∨ k = 5) → (s0.kindOf p = 4 ∨ s0.kindOf p = 5) → (s0.hylPort p).hello ≠ none → s0.pool.st = .member →
      ((∃ d, h.devnum = some d ∧ (s0.pool.devnum, d) ∈ s0.pool.usable) ∨ h.devnum = none) → a ≤ h.coordSerial →
      exec (.hello p h) s = .next s1) ∧
    ((k = 1 ∨ k = 3) → (s0.kindOf p ≠ 4 ∧ s0.kindOf p ≠ 5) → (s0.hylPort p).hello = none → (s0.hylPort p).noted = false →
      exec (.hello p h) s = .next (((s1.modHyl p fun x => { x with noted := true }).post { cls := .protocol, unit := p, code := k }).sendHello p)) ∧
    ((k = 4 ∨ k = 5) → (s0.hylPort p).hello ≠ none → s0.pool.st = .isolated → h.coordSerial < a → 0 < h.coordSerial →
      exec (.hello p h) s = .next ({ s1 with pool := { s1.pool with st := .joining } }.elect (some h.coordSerial)))) ∧
  (∀ (s s1 : State) (f : Flood) (serial a : Nat), s.linkSync.floodIn 2 f [serial] = some s1 → s1.pool.lowest = some a →
    (serial < a → exec (.elect f serial) s = .next (s1.elect (some serial))) ∧ (a ≤ serial → exec (.elect f serial) s = .next s1)) ∧
  (∀ (s : State), s.eligible = true → s.img.pooled = true → s.pool.coord = false →
    (s.pool.lowest = none ∨ ∃ a, s.pool.lowest = some a ∧ s.fuses.serial ≤ a) →
    exec .electTimeout s = .next ({ s with pool := { s.pool with coord := true, lowest := some s.fuses.serial } }.coordinate)) ∧
  (∀ (s s1 : State) (f : Flood) (serial : Nat) (l : List (Nat × Option Nat)), s.linkSync.floodIn 3 f [serial] = some s1 →
    exec (.joinReq f serial l) s = .next ({ s1 with pool := { s1.pool with candidates := s1.pool.candidates.put serial l } }.coordinate)) ∧
  (∀ (s : State), s.pool.st = .joining → s.floodPorts ≠ [] → s.pool.leaving = false →
    exec .joinReqTimer s = .next (s.floodOut 3 (s.fuses.serial :: s.poolLinks.map (·.1))).linkSync) ∧
  (∀ (s s1 : State) (f : Flood) (serial n : Nat) (isIn : Bool) (off : Int) (x : Ext), s.linkSync.floodIn 4 f [serial, n, b2n isIn] = some s1 →
    ((s1.pool.st ≠ .member ∨ s1.pool.devnum ≠ n) →
      (isIn = true → exec (.poolMember f serial n isIn off x) s = .next (s1.joined serial n off)) ∧
      (isIn = false → exec (.poolMember f serial n isIn off x) s = .next (s1.depart n x))) ∧
    (s1.pool.st = .member → s1.pool.devnum = n →
      (isIn = false → exec (.poolMember f serial n isIn off x) s = .next (s1.isolate x)) ∧
      (isIn = true → serial ≠ s1.fuses.serial → exec (.poolMember f serial n isIn off x) s = .next
        ({ s1.isolate x with pool := { (s1.isolate x).pool with st := .joining } }.joined serial n 0)))) ∧
  (∀ (s s1 : State) (f : Flood) (r d : Nat) (ok : Bool), s.linkSync.floodIn 5 f [r, d, b2n ok] = some s1 →
    ∃ t, exec (.linkState f r d ok) s = .next t ∧ t = { s1 with pool := { s1.pool with usable := t.pool.usable } }
      ∧ ((r, d) ∈ t.pool.usable ↔ ok = true) ∧ ∀ u, u ≠ (r, d) → (u ∈ t.pool.usable ↔ u ∈ s1.pool.usable)) ∧
  (∀ (s : State) (d : Nat) (x : Ext), d ≠ s.pool.devnum → (∀ u ∈ s.pool.usable, u.2 ≠ d) →
    exec (.departureTimer d x) s = .next (s.linkSync.declareGone d x)) ∧
  (∀ (s s1 : State) (f : Flood) (d : Nat) (x : Ext), s.linkSync.floodIn 6 f [d] = some s1 → exec (.leave f d x) s = .next (s1.declareGone d x)) ∧
  (∀ (s : State) (d serial : Nat) (x : Ext), s.pool.coord = true → s.isMember d = true → s.pool.serials.find d = some serial →
    s.declareGone d x = (s.floodOut 4 [serial, d, 0]).depart d x) ∧
  (∀ (s : State) (d : Nat), d ∈ s.pool.departed → (s.pool.devnum, d) ∉ s.pool.reported →
    (∀ n ∈ s.inv.slices, (s.die (n / 8)).st ≠ .retired → (d, n) ∈ s.pool.swept) →
    exec (.departureSweepDone d) s = .next ({ s.sluiceSweep d with
      pool := { (s.sluiceSweep d).pool with reported := s.pool.reported ++ [(s.pool.devnum, d)] } }.floodOut 7 [s.pool.devnum, d]).coordinate) ∧
  (∀ (s s1 : State) (f : Flood) (r d : Nat), s.linkSync.floodIn 7 f [r, d] = some s1 → (r, d) ∉ s1.pool.reported →
    exec (.sweepDone f r d) s = .next ({ s1 with pool := { s1.pool with reported := s1.pool.reported ++ [(r, d)] } }.coordinate)) ∧
  (∀ (s : State) (x : Ext), s.pool.st = .member → s.floodPorts = [] →
    ∃ t, exec (.isolationTimer x) s = .next t ∧ t = s.isolate x ∧ t.pool.st = .isolated ∧ t.pool.members = 0 ∧ t.pool.serials = []
      ∧ t.pool.coord = false ∧ t.pool.aligned = false) ∧
  (∀ (s : State) (d n k : Nat) (y : Slice) (f : Frame), (s.dropProxies d).slices.find n = some y → y.frames.find k = some f →
    lineDev f.line = d → f.st ≠ .rs ∧ f.st ≠ .re)

/-- R470. -/
def Obligations.DepartedNumbersWaitForEverySweep : Prop :=
  (∀ (s : State) (d k : Nat), d ∈ s.pool.departed → s.isMember d = false → k < 128 → s.isMember k = true → (k, d) ∉ s.pool.reported →
    s.coordinate.isMember d = false ∧
    (∀ m serial, s.img.poolMap = some m → (m.entries.find? fun e => decide (e.1 = serial)) = some (serial, d) →
      (s.pool.candidates.find serial).isSome = true → (s.coordinate.pool.candidates.find serial).isSome = true)) ∧
  (∀ (s s1 : State) (f : Flood) (m : PoolMap) (serial d k : Nat) (l : List (Nat × Option Nat)), s.linkSync.floodIn 3 f [serial] = some s1 →
    s1.img.poolMap = some m → (m.entries.find? fun e => decide (e.1 = serial)) = some (serial, d) →
    d ∈ s1.pool.departed → s1.isMember d = false → k < 128 → s1.isMember k = true → (k, d) ∉ s1.pool.reported →
    ∃ t, exec (.joinReq f serial l) s = .next t ∧ t.isMember d = false ∧ (t.pool.candidates.find serial).isSome = true) ∧
  (∀ (s s1 : State) (f : Flood) (r d k : Nat), s.linkSync.floodIn 7 f [r, d] = some s1 →
    d ∈ s1.pool.departed → s1.isMember d = false → k < 128 → s1.isMember k = true → (k, d) ∉ s1.pool.reported → r ≠ k →
    ∃ t, exec (.sweepDone f r d) s = .next t ∧ t.isMember d = false)

/-- R280, R281, R284, R333, R334, R336, R450, R456, R460 to R462 and R471. -/
def Obligations.PoolMessagesAreAnsweredRoutedAndTimedOut : Prop :=
  (∀ (s : State) (p : Nat), (s.hylPort p).st = .l0 →
    ∃ t vals, exec (.helloTimer p) s = .next t ∧ t = (s.send (.link p 1 vals)).linkSync ∧ vals.length = 10 ∧ vals.headD 0 = s.fuses.serial) ∧
  (∀ (s : State) (p : Nat), exec .timeSyncTimer s = .next (s.floodPorts.foldl (fun s p => s.send (.link p 8 [])) s).linkSync ∧
    (p ∈ s.floodPorts → exec (.timeReq p) s = .next (s.send (.link p 9 [s.poolTime])).linkSync)) ∧
  (∀ (s : State) (p : Nat) (d : Int), p ∈ s.floodPorts → s.pool.st = .member →
    ∃ t, exec (.timeRsp p d true) s = .next t ∧ -1000 ≤ t.pool.slew ∧ t.pool.slew ≤ 1000 ∧ (-1000 ≤ d → d ≤ 1000 → t.pool.slew = d)
      ∧ (t.pool.aligned = true ↔ s.pool.aligned = true ∨ (-20 ≤ d ∧ d ≤ 20))
      ∧ t = { s with pool := { s.pool with slew := t.pool.slew, aligned := t.pool.aligned } }) ∧
  (∀ (s : State) (i : Nat) (r : RemoteOp) (x : Ext), s.pool.remote[i]? = some r →
    exec (.remoteOpTimeout i x) s = .next ({ s with pool := { s.pool with
      remote := s.pool.remote.erase r, timeoutCnt := s.pool.timeoutCnt + 1 } }.opFailed r x)) ∧
  (∀ (s : State) (d line : Nat) (r : RemoteOp) (x : Ext), s.pool.remote = [r] → r.dev = d → r.kind = .mem → r.line = line →
    (r.op.code < 0x10 → exec (.unreach d r.op.code (r.tag % 65536) line x) s = .next ({ s with pool := { s.pool with remote := [] } }.remoteFailed r x))) ∧
  (∀ (s : State) (d tag : Nat) (r : RemoteOp) (x : Ext), s.pool.remote = [r] → r.dev = d → r.tag % 65536 = tag →
    (r.kind = .pen → exec (.unreach d 0x11 tag 0 x) s = .next ({ s with pool := { s.pool with remote := [] } }.penFailed r)) ∧
    (r.kind = .sl → exec (.unreach d 0x13 tag 0 x) s = .next ({ s with pool := { s.pool with remote := [] } }.slFailed r x.pick))) ∧
  (∀ (s : State) (w : Who) (m : CohMsg) (t : List (Who × CohMsg)), s.pool.depWait = (w, m) :: t →
    (∀ s1, { s with pool := { s.pool with depWait := t } }.postNow w m = some s1 → exec .departedWriteEntryAge s = .next s1) ∧
    (w.cmd ≠ none → s.depChoose w = none → exec .departedWriteEntryAge s = .next s) ∧
    (w.cmd = none ∨ s.depChoose w ≠ none → ∃ s1, { s with pool := { s.pool with depWait := t } }.postNow w m = some s1)) ∧
  (∀ (s : State) (dev vd tag ticket v k qos : Nat) (e : Export), s.ticketPen ticket = some (k, e) → s.boot.warm < 2 →
    exec (.penReq dev vd tag 2 ticket v) s = .next ((s.penAdd e.pen v).send (.penAnswer dev vd tag (.answer .ok ((s.penAdd e.pen v).penn e.pen).count.toNat))) ∧
    exec (.penReq dev vd tag 4 ticket v) s = .next (s.send (.penAnswer dev vd tag (.answer .ok (s.penn e.pen).count.toNat))) ∧
    (v ≤ (s.penn e.pen).count.toNat →
      exec (.penReq dev vd tag 5 ticket v) s = .next (s.send (.penAnswer dev vd tag (.wake .ok (s.penn e.pen).count.toNat)))) ∧
    ((s.penn e.pen).count.toNat < v →
      exec (.penReq dev vd tag 5 ticket v qos) s = .next (s.register e.pen vd v (.peer dev vd tag) qos)) ∧
    exec (.penReq dev vd tag 16 ticket v) s = .next ((s.penAdd e.pen v).send (.penAnswer dev vd tag (.answer .ok 0)))) ∧
  (∀ (s : State) (dev vd tag ticket v : Nat), s.ticketPen ticket = none → s.boot.warm < 2 →
    exec (.penReq dev vd tag 2 ticket v) s = .next ({ s with pen := { s.pen with dropCnt := s.pen.dropCnt + 1 } }.send (.penAnswer dev vd tag (.answer .abandoned 0))) ∧
    exec (.penReq dev vd tag 16 ticket v) s = .next ({ s with pen := { s.pen with dropCnt := s.pen.dropCnt + 1 } }.send (.penAnswer dev vd tag .dropped))) ∧
  (∀ (s s1 : State) (r : RemoteOp) (c : Cmd) (dev vd tag n : Nat), s.penOp dev tag vd = some (r, s1) → s.oldReply r = false →
    (s1.cmd? tag = some c → c.wait = .registered → exec (.penRsp dev vd tag .recorded) s = .next (s1.armRecorded tag c)) ∧
    (s1.cmd? tag = some c → c.wait ≠ .registered → exec (.penRsp dev vd tag .recorded) s = .next s1) ∧
    exec (.penRsp dev vd tag .dropped) s = .next (s1.modVd vd fun x => { x with penDropCnt := x.penDropCnt + 1 }) ∧
    exec (.penRsp dev vd tag (.wake .ok n)) s = .next (s1.woken vd tag .ok n) ∧
    (s1.cmd? tag = some c → r.posted = false → c.opcode = 3 → c.st ≠ .queued → c.opx ≠ 7 →
      exec (.penRsp dev vd tag (.answer .ok n)) s = .next ((s1.penDone tag .ok n).modCmd tag fun c => { c with wait := .met }))) ∧
  (∀ (s : State) (dev tag k f : Nat) (x : Ext), s.boot.warm < 2 →
    (s.chooseFrames k x.pick = none → exec (.slReq dev (.take tag k) x) s = .next (s.fresh.send (.sl dev (.taken tag none k)))) ∧
    (s.chooseFrames k x.pick = some f → ∃ t, exec (.slReq dev (.take tag k) x) s = .next t
      ∧ t.out = s.out ++ [.sl dev (.taken tag (some (s.ownFrame f)) k)] ∧ t.mem = (s.zeroFrames f k).mem
      ∧ ∀ i, i < k → t.slu.foreignFrames.find (f + i) = some dev) ∧
    (∀ s1, s1 = s.fresh.takeBackFrames f k peerVd → s1.stall = [] → ∃ t, exec (.slReq dev (.giveBack f k) x) s = .next t ∧
      (Tab.wf s1.slu.foreignFrames = true → ∀ i, i < k → t.slu.foreignFrames.find (f + i) = none)
      ∧ t = { s1 with slu := { s1.slu with foreignFrames := t.slu.foreignFrames } }) ∧
    (∀ slot, exec (.slReq dev (.revoke slot) x) s = .next (s.fresh.revokeGrant dev slot)) ∧
    (∀ dst s1, s1 = s.fresh.takeBackFrames f k peerVd → s1.stall = [] → exec (.slReq dev (.fetch f k dst) x) s = .next (s1.send
      (.sl (gfDev dst) (.page (gfLocal dst) k (s1.rawLines f k)))))) ∧
  (∀ (s s1 : State) (dev tag f k : Nat) (r : RemoteOp) (lines : List RemLine) (x : Ext),
    ((s.remoteAt fun r => decide (r.kind = .sl) && decide (r.dev = dev) && decide (r.tag = tag)) = some (r, s1) →
      s1.moveOf (tag / 2 ^ 26) (tag % 2 ^ 26) ≠ none →
      exec (.slRsp dev (.taken tag none k) x) s = .next (s1.takeFailed tag .noSpace x.pick)) ∧
    ((s.slu.moves.find? fun m => decide (m.dst = s.ownFrame f) && decide (m.step = 3) && decide (gfDev m.src ≠ s.pool.devnum)) = none →
      s.slu.foreignFrames.find f ≠ none → exec (.slRsp dev (.page f k lines) x) s = .next (s.landLines 0 f k lines)) ∧
    (∀ m, (s.slu.moves.find? fun m => decide (m.dst = s.ownFrame f) && decide (m.step = 3) && decide (gfDev m.src ≠ s.pool.devnum)) = some m →
      exec (.slRsp dev (.page f k lines) x) s = .next ((s.landLines 0 f k lines).putMove { m with step := 4 }))) ∧
  (∀ (s : State) (dst d p : Nat), s.nextHop dst = some (d, p) →
    bit (s.pool.devnum ^^^ dst) d = true ∧ (∀ e, e < d → bit (s.pool.devnum ^^^ dst) e = false) ∧ p = s.dimPort d
      ∧ s.isMember (s.pool.devnum ^^^ 2 ^ d) = true)

/-- R472 to R475. -/
def Obligations.CollectivesPairReadyPartnersAndCount : Prop :=
  (∀ (s : State) (q g : Nat) (c : Cmd) (t : Task) (x : Ext), s.cmd? q = some c → c.opcode = 0x40 → s.coll? q = none → t ∈ c.tasks →
    t.st = .running → t.fin = none → g = c.f 0x28 2 →
    ∃ k : Coll, (∀ u, u = (List.range k.g).foldl (fun (s : State) j => s.collBegin q j x) { s.fresh with colls := s.colls ++ [k] } → u.stall = [] →
        exec (.collective q x) s = .next u)
      ∧ k.cmd = q ∧ k.seq = c.f 0x2C 4 ∧ k.kind = c.opx % 4 ∧ k.fmt = c.opx / 4 ∧ k.count = c.f 0x20 8 ∧ k.dims = bitsOf 7 g
      ∧ k.plane = bit g 7 ∧ k.parts = List.replicate k.g {}) ∧
  (∀ (c : Coll) (i j k : Nat), c.dims.Nodup → j < c.g → k < c.g → j ≠ k → c.dim j i ≠ c.dim k i) ∧
  (∀ (s : State) (r : CollReady) (c : Coll) (j : Nat) (x : Ext), s.collOf r.seq r.dev r.bridge r.step = some (c, j) → (c.part j).partner = false →
    s.coll? c.cmd = some c →
    (r.kind = c.kind → r.fmt = c.fmt → r.count = c.count → ∀ t, t = (s.fresh.setColl (c.setPart j { c.part j with partner := true })).collData c.cmd j x →
      t.stall = [] → exec (.collReady r x) s = .next t) ∧
    ((r.kind ≠ c.kind ∨ r.fmt ≠ c.fmt ∨ r.count ≠ c.count) → exec (.collReady r x) s = .next (s.fresh.collEnd c.cmd .faulted .invalidField))) ∧
  (∀ (s : State) (r : CollReady) (x : Ext), s.collOf r.seq r.dev r.bridge r.step = none →
    ∃ t, exec (.collReady r x) s = .next t ∧ (r, s.now) ∈ t.collHeld ∧ (∀ h ∈ t.collHeld, s.now ≤ h.2 + 10 ^ 9) ∧ t = { s with collHeld := t.collHeld }) ∧
  (∀ (s s1 : State) (c : Coll) (m : Cmd) (j dev seq step line : Nat) (bridge : Bool) (d : Line) (p : Sectors) (b : Block) (x : Ext),
    s.collOf seq dev bridge step = some (c, j) → s.cmd? c.cmd = some m →
    s.fresh.collApply c c.cmd m (c.phase step).2 (128 * line) d p x = (b, s1) → s1.stall = [] →
    (b.fault = none → b.poison = false → ∀ t, t = (((s1.finishWrites c.cmd m.vd).setColl (c.setPart j { c.part j with
        applied := (c.part j).applied + 1 })).send (.coll dev bridge 0x1D [seq, j, step, 0] 0)).collCheck c.cmd j x → t.stall = [] →
      exec (.collData dev bridge seq j step line d p x) s = .next t) ∧
    (∀ st a, b.fault = some (st, a) → exec (.collData dev bridge seq j step line d p x) s = .next
      ((s1.send (.coll dev bridge 0x1D [seq, j, step, st.code] 0)).collEnd c.cmd .faulted st a))) ∧
  (∀ (s : State) (c : Coll) (j dev seq step n : Nat) (bridge : Bool) (x : Ext), s.collOf seq dev bridge step = some (c, j) →
    ∀ t, t = (s.fresh.setColl (c.setPart j { c.part j with announced := some n })).collCheck c.cmd j x → t.stall = [] →
      exec (.collStep dev bridge seq j step n x) s = .next t) ∧
  (∀ (s : State) (q j : Nat) (c : Coll), s.coll? q = some c → j < c.parts.length → (c.part j).ready = true → (c.part j).partner = false →
    exec (.collReadyTimeout q) s = .next (s.collEnd q .faulted .deviceGone)) ∧
  (∀ (s : State) (q : Nat) (m : Cmd) (st : Status) (a : Nat), s.cmd? q = some m → st ≠ .ok →
    ∃ n, (s.collEnd q .faulted st a).cmd? q = some n ∧ n.uncreated = [] ∧ (s.collEnd q .faulted st a).coll? q = none ∧ n.tasks.length = m.tasks.length
      ∧ ∀ t ∈ n.tasks, t ∈ m.tasks ∨ t.fin = some { term := .faulted, status := st, addr := a })

/-- R26, R145, R502 to R504, R507, R519 and R528. -/
def Obligations.MetersLeakSaturateAndCross : Prop :=
  (∀ (s : State) (cls : Nat), 0 < cls → Tab.wf s.flt.meters = true →
    ∃ t, exec (.meterLeak cls) s = .next t ∧ t = { s with flt := { s.flt with meters := t.flt.meters } } ∧ ∀ k i, i < 65536 →
      (k = cls → t.meter k i = if (s.meter k i).frozen then s.meter k i else
        { s.meter k i with level := BitVec.ofNat 32 ((s.meter k i).level.toNat - if cls = 8 then 2 else 1) }) ∧
      (k ≠ cls → t.meter k i = s.meter k i)) ∧
  (∀ (s : State), ∃ t, exec (.meterLeak 0) s = .next t ∧ t = { s with flt := { s.flt with rows := t.flt.rows } } ∧ ∀ i,
    t.row i = if (s.row i).frozen then s.row i else { s.row i with level := BitVec.ofNat 32 ((s.row i).level.toNat - 1) }) ∧
  (∀ (s : State) (cls i b l : Nat), 0 < cls → s.metered cls i = true → (s.meter cls i).frozen = false →
    l = (s.meter cls i).level.toNat + s.scaled cls b → l < 2 ^ 32 →
    (l < s.threshold cls → s.charge cls i b = s.setMeter cls i { level := BitVec.ofNat 32 l, frozen := false }) ∧
    (s.threshold cls ≤ l → s.boot.memActive = true →
      ∃ ch, s.charge cls i b = (s.setMeter cls i { level := BitVec.ofNat 32 l, frozen := true }).crossed ch cls i)) ∧
  (∀ (s : State) (cls i b : Nat), 0 < cls → (s.meter cls i).frozen = true → s.charge cls i b = s) ∧
  (∀ (s : State) (p l : Nat),
    exec (.cxlReceiverError p (some l)) s = .next ((s.corrected 6 (16 * p + l)).charge 6 (16 * p + l) 4) ∧
    exec (.cxlReceiverError p none) s = .next ((s.corrected 7 p).charge 7 p 1) ∧
    exec (.cxlLinkRecovery p) s = .next ((s.corrected 7 p).charge 7 p 16)) ∧
  (∀ (s : State) (line ch : Nat), s.lostHome line = false → ch = (s.inv.place (lineOff line)).ch →
    exec (.patrolScrub line 0) s = .next s ∧
    exec (.patrolScrub line 1) s = .next ((s.chargeRow line 1).post { cls := .correctable, meter := 0, unit := ch, addr := line * 128 }) ∧
    exec (.patrolScrub line 2) s = .next ((s.chargeRow line 16).post { cls := .correctable, meter := 0, unit := ch, addr := line * 128 }) ∧
    exec (.patrolScrub line 3) s = .next ((s.corrected 1 ch).charge 1 ch 16) ∧
    exec (.patrolScrub line 4) s = .next (s.charge 2 (ch / 32) 256)) ∧
  (∀ (s s1 : State) (line sector ch : Nat) (oneRow : Bool) (m : Sectors), s.lostHome line = false → ch = (s.inv.place (lineOff line)).ch →
    m = BitVec.ofNat 4 (2 ^ (sector % 4)) → s1 = { s with memPoison := setPoison s.memPoison (lineOff line) m m } →
    exec (.dramUeReread line sector false oneRow) s = .next (s.post { cls := .correctable, meter := 0, unit := ch, addr := line * 128 }) ∧
    (∀ s3, s3 = (s1.post { cls := .poisoned, meter := 0, unit := ch, addr := line * 128, slice := s.sliceOf line, detail := m.toNat * 16 + m.toNat }).lineEvent
        line 2 { kind := .generalMedia, ty := .mediaEcc, trans := 1 } →
      exec (.dramUeReread line sector true true) s = .next ((s3.chargeRow line 256).dieWide line) ∧
      exec (.dramUeReread line sector true false) s = .next ((s3.charge 1 ch 128).dieWide line))) ∧
  (∀ (s : State) (cls : RecClass) (code unit : Nat) (c : Coalesce), s.flt.coalesce = [c] → c.cls = cls → c.code = code → c.unit = unit →
    (c.withheld = 0 → exec (.logCoalesceTimer cls code unit) s = .next { s with flt := { s.flt with coalesce := [] } }) ∧
    (c.withheld ≠ 0 → exec (.logCoalesceTimer cls code unit) s = .next
      ({ s with flt := { s.flt with coalesce := [] } }.post { cls := cls, code := code, unit := unit, count := c.withheld }))) ∧
  (∀ (s : State) (n set : Nat), set ∈ (s.slice n).lostSets → (∀ l ∈ s.setLines (n * 2 ^ 20 + set), l ∈ (s.slice n).lostKnown) →
    exec (.lostSetSweep n set) s = .next ((s.modSlice n fun x => { x with
      lostSets := x.lostSets.filter fun y => decide (y ≠ set),
      dirLostSets := BitVec.ofNat 32 (x.lostSets.filter fun y => decide (y ≠ set)).length,
      lostKnown := x.lostKnown.filter fun l => !(s.setLines (n * 2 ^ 20 + set)).contains l }).relocate (n * 2 ^ 20 + set)))

/-- R187, R504, R509, R510, R512 to R515, R519 and R522. -/
def Obligations.RetirementsGoThroughTheirSteps : Prop :=
  (∀ (s : State) (cls i : Nat), ({ cls := cls, inst := i, step := 0 } : Retire) ∈ s.flt.retiring →
    (∀ r ∈ s.flt.retiring, r.cls = cls → meterDie cls r.inst = meterDie cls i → r.step = 0 ∧ i ≤ r.inst) →
    exec (.waitingRetirementStart cls i) s = .next ((s.retireTo cls i 1).startRetire (State.chargeF 8) cls i)) ∧
  (∀ (s : State) (ch slot f : Nat),
    (s.retireAt 0 (16 * ch + slot) = 1 → s.noStaging = true → exec (.rowPprDone ch slot) s = .next s) ∧
    (s.retireAt 0 (16 * ch + slot) = 1 → s.noStaging = false → exec (.rowPprDone ch slot) s = .next
      ((({ s with flt := { s.flt with pprUsed := (s.flt.pprUsed.setD (s.sparesKey (16 * ch + slot)) 0 (s.flt.pprUsed.getD (s.sparesKey (16 * ch + slot)) 0 + 1)) } }.endRetire 0 (16 * ch + slot)).eventAll 0
          { kind := .dram, ty := .maintenanceCleared }).charge 1 ch 64)) ∧
    (s.retireAt 0 (16 * ch + slot) = 2 → s.inv.frameAt ch (s.row (16 * ch + slot)).r = some f →
      (s.slu.frames.find f = none →
        exec (.rowPprDone ch slot) s = .next ({ s with flt := { s.flt with frameRetired := s.flt.frameRetired ++ [f] } }.endRetire 0 (16 * ch + slot))) ∧
      (s.slu.frames.find f ≠ none → exec (.rowPprDone ch slot) s = .next s))) ∧
  (∀ (s : State) (ch : Nat) (lost known : List Nat), s.retireAt 1 ch = 1 → s.noStaging = true →
    exec (.channelMetadataCopyDone ch lost known) s = .next s) ∧
  (∀ (s : State) (ch : Nat) (lost known : List Nat), s.retireAt 1 ch = 1 → s.noStaging = false →
    ∃ t : State, exec (.channelMetadataCopyDone ch lost known) s = .next (t.retireTo 1 ch 2)) ∧
  (∀ (s s1 : State) (ch pick : Nat), s.retireAt 1 ch = 2 → (∀ e ∈ s.slu.frames, s.inv.chanOf e.1 ≠ ch) → s1 = s.fresh.movePools ch → s1.stall = [] →
    s1.metaOn ch = [] → (∀ p < 16, (s1.hpool p).kind = 2 → ∀ k < (s1.hpool p).size, s1.inv.chanOf (s1.poolFrame p k) ≠ ch) →
    ∃ s3, s3 = (State.endRetire { s1 with flt := { s1.flt with chDraining := s1.flt.chDraining.filter fun c => decide (c ≠ ch), chRetired := s1.flt.chRetired ++ [ch], spareLeft := s1.flt.spareLeft - 1 } } 1 ch).eventAll 1
        { kind := .dram, ty := .channelRetired } ∧
      (s1.flt.spareLeft ≠ 0 → exec (.channelPageMovesDone ch pick) s = .next ((s3.charge 2 (ch / 32) 1024).pairDone (ch / 4))) ∧
      (s1.flt.spareLeft = 0 → exec (.channelPageMovesDone ch pick) s = .next (((s3.shrunk 2).charge 2 (ch / 32) 1024).pairDone (ch / 4)))) ∧
  (∀ (s : State) (b : Nat), s.retireAt 3 b = 1 →
    exec (.bayCopyDone b) s = .next ((((s.replaceBay b).bayGone b).endRetire 3 b).charge 4 (b / 18) 256)) ∧
  (∀ (s : State) (b key r i : Nat), s.poolBayOf b = some key → s.rescueFor b = some r → r ≠ b → i < bayBytes → Tab.wf s.bays = true →
    readByte (s.replaceBay b).bays (r * bayBytes + i) = readByte s.bays (b * bayBytes + i) ∧ (s.replaceBay b).hop.bayMap.find key = some r) ∧
  (∀ (s : State) (n : Nat) (lost known : List Nat), s.retireAt 4 n = 1 → (s.slice n).miss = [] →
    exec (.sliceDrainDone n lost known) s = .next (((lost.filter fun k => decide (k / 2 ^ 20 = n)).foldl (fun s k => s.loseSet k known)
      (((List.range 18).map fun b => 18 * n + b).foldl (fun s b => (s.demoteBay b).replaceBay b)
        (((s.slice n).frames.map (·.1)).foldl (fun s k => s.evict n k) s))).retireTo 4 n 2)) ∧
  (∀ (s : State) (n pick : Nat), s.retireAt 4 n = 2 → (s.slice n).miss = [] → (s.slice n).inq = [] →
    ∃ t, exec (.sliceRetired n pick) s = .next t ∧ (t.slice n).retired = true ∧ t.power.slices.getD n 0 = 2 ∧ t.retireAt 4 n = 0
      ∧ t = { s with slices := t.slices, power := t.power, flt := { s.flt with retiring := t.flt.retiring } }) ∧
  (∀ (s : State) (d n : Nat), s.retireAt 2 d = 3 → Tab.wf s.slices = true → 8 * d ≤ n → n < 8 * d + 8 →
    ∃ t, exec (.dieProxyWritebackDone d) s = .next t ∧ (t.slice n).frames = [] ∧ t.retireAt 2 d = 6
      ∧ (∀ e ∈ (s.slice n).frames, OutMsg.coh (wbMsg e.2) ∈ t.out ∨ wbMsg e.2 ∈ t.pool.wbHold)
      ∧ t = { s with slices := t.slices, out := t.out, pool := { s.pool with wbOut := t.pool.wbOut, wbHold := t.pool.wbHold }
                     flt := { s.flt with retiring := t.flt.retiring } }) ∧
  (∀ (s : State) (d : Nat) (known : List Nat), s.retireAt 2 d = 6 → s.dir = [] → (s.noStaging = false ∨ s.activeDies = []) →
    ∃ t, exec (.dieMetadataRestoreDone d known) s = .next t ∧ t.retireAt 2 d = 0
      ∧ t = { s with flt := { s.flt with retiring := t.flt.retiring, singleCopy := decide (s.activeDies.length ≤ 1) } })

/-- R529, R531, R534, R536 and R538 to R541. -/
def Obligations.GaugesBinCaptureAndSnapshot : Prop :=
  (∀ (s : State) (g o : Nat) (wide : Bool) (w : Word) (d : DWord), g < 128 →
    exec (.gaugeCtrlWrite g w) s = .next (s.gaugeCtrl g w.toNat).1 ∧ exec (.gaugeConfigWrite g o wide d) s = .next (s.gaugeConfig g o d.toNat wide).1) ∧
  (∀ (s : State) (v i o : Nat) (wide : Bool) (w : Word) (d : DWord), s.WindowOpen v → v < 64 → i < 2 →
    exec (.gaugeCtrlWrite (128 + 2 * v + i) w) s = .next (s.viewWrite v (s.gaugeCtrl (128 + 2 * v + i) w.toNat)) ∧
    exec (.gaugeConfigWrite (128 + 2 * v + i) o wide d) s = .next (s.viewWrite v (s.gaugeConfig (128 + 2 * v + i) o d.toNat wide))) ∧
  (∀ (s : State) (n o w : Nat) (wide : Bool) (g : Gauge), g = s.gauge n → g.enable = true → g.roll (s.gaugeEdge g) = g →
    (o ∉ [0x04, 0x08, 0x0C, 0x10, 0x14, 0x18, 0x1C] → s.gaugeConfig n o w wide = (s, true)) ∧
    (o ∈ [0x04, 0x08, 0x0C, 0x10, 0x14, 0x18, 0x1C] → ∃ t, s.gaugeConfig n o w wide = (t, true) ∧ t.gauge n = { g with cfgIgnored := true } ∧ (∀ k, k ≠ n → t.gauge k = s.gauge k) ∧ t = { s with gauges := t.gauges })) ∧
  (∀ (g : Gauge) (v b : Nat), b ≤ 31 → (∀ i j, i ≤ j → g.edge i ≤ g.edge j) → (g.bin v = b ↔ (∀ i, 1 ≤ i → i ≤ b → g.edge i ≤ v) ∧ (b < 31 → v < g.edge (b + 1)))) ∧
  (∀ (g : Gauge) (v b : Nat), v < 2 ^ 48 → b = g.bin v → (g.take v).cur.start = g.cur.start ∧ (g.take v).cur.min = min g.cur.min v ∧
    (g.take v).cur.max = max g.cur.max v ∧ (g.take v).cur.sum = min (2 ^ 64 - 1) (g.cur.sum + v) ∧ (g.take v).cur.count = min (2 ^ 32 - 1) (g.cur.count + 1) ∧
    (Tab.wf g.cur.bins = true → ∀ k, (g.take v).cur.bins.getD k 0 = if k = b then min (2 ^ 32 - 1) (g.cur.bins.getD b 0 + 1) else g.cur.bins.getD k 0) ∧
    ((g.take v).cur.sat = true ↔ g.cur.sat = true ∨ 2 ^ 64 ≤ g.cur.sum + v ∨ 2 ^ 32 ≤ g.cur.count + 1 ∨ 2 ^ 32 ≤ g.cur.bins.getD b 0 + 1)) ∧
  (∀ (g : Gauge), g.enable = true → 0 < g.wlen →
    (∀ t, t < g.cur.start + g.wlen → g.roll t = g) ∧
    (∀ t, g.cur.start + g.wlen ≤ t → t < g.cur.start + 2 * g.wlen → g.oneShot = false →
      g.roll t = { g with seq := g.seq + 1, snap := g.cur, cur := { start := g.cur.start + g.wlen } }) ∧
    (∀ t, g.cur.start + g.wlen ≤ t → g.oneShot = true → g.roll t = { g with enable := false, done := true, seq := g.seq + 1, snap := g.cur, cur := {} })) ∧
  (∀ (g : Gauge) (t : Nat),
    (g.oneShot = true → t ≤ g.wstart → g.start t = { g with done := false, missed := false, enable := true, cur := { start := g.wstart } }) ∧
    (g.oneShot = true → g.wstart < t → g.start t = { g with done := false, missed := true, enable := false }) ∧
    (g.oneShot = false → 0 < g.wlen → ∃ k, g.start t = { g with done := false, missed := false, enable := true, cur := { start := k } }
      ∧ t ≤ k ∧ k < t + g.wlen ∧ ((k : Int) - g.wstart) % g.wlen = 0)) ∧
  (∀ (s : State) (n : Nat), exec (.gaugeWindowEnd n) s = .next (s.modGauge n fun g => g.roll (s.gaugeEdge g))) ∧
  (∀ (s : State) (n units : Nat) (g : Gauge), g = s.gauge n → g.enable = true → 0 < g.period → ((s.gaugeNow g : Int) - g.wstart) % g.period = 0 →
    (gLevel g.src = true → exec (.gaugeSampleInstant n units) s = .next (s.modGauge n fun g => g.capture (s.gaugeNow g) (s.gaugeLevel n g))) ∧
    (gRate g.src = true → gSource g.src ≠ 0x40 → g.period ≤ s.gaugeNow g →
      exec (.gaugeSampleInstant n units) s = .next (s.modGauge n fun g => { g.capture (s.gaugeNow g - g.period) units with last := 0 })))

/-- R137, R174, R570, R572, R573, R575 and R577. -/
def Obligations.WindowAccessesFollowTheirTable : Prop :=
  (∀ (s u : State) (m : Mmio), m.bad = true → s.running = true → s.windowShut m = none →
    u = (s.unsupported m).post { cls := .protocol, vd := m.vd, addr := m.off } →
    ((s.vd m.vd).st = .ready → ∀ t, t = u.modVd m.vd (fun d => { d with err := { d.err with unaligned := true } }) →
      exec (.unsupportedAccess m) s = .next t ∧ exec (.registerWrite (.window m)) s = .next t) ∧
    ((s.vd m.vd).st ≠ .ready → exec (.unsupportedAccess m) s = .next u ∧ exec (.registerWrite (.window m)) s = .next u)) ∧
  (∀ (s : State) (m : Mmio) (p ld : Nat), s.running = true → p = m.vd / 16 → ld = m.ld.getD (m.vd % 16) →
    ((s.port p).link ≠ 2 → exec (.registerWrite (.window m)) s = .next s) ∧
    ((s.port p).link = 2 → (16 ≤ ld ∨ s.exposed p ld = false) →
      ((s.port p).mld = true → exec (.registerWrite (.window m)) s = .next
        ((s.send (.noLd p ld)).post { cls := .protocol, unit := p, code := 3, detail := ld })) ∧
      ((s.port p).mld = false → exec (.registerWrite (.window m)) s = .next s)) ∧
    ((s.port p).link = 2 → ld < 16 → s.exposed p ld = true → s.ideBlocks p = true →
      exec (.registerWrite (.window m)) s = .next (s.unsupported m)) ∧
    (s.windowShut m = none → m.bad = false → (s.boot.warm ≠ 0 ∨ s.portStuck (m.vd / 16) = true) →
      exec (.registerWrite (.window m)) s = .next { s with boot := { s.boot with held := s.boot.held ++ [.write (.window m)] } })) ∧
  (∀ (s : State) (m : Mmio) (o n w : Nat), m.bad = false → s.running = true → s.WindowOpen m.vd → m.ld = none → m.span = some (o, n) → w = m.val / 256 ^ (o - m.off) % 256 ^ n →
    (m.door = false → 0x20000 ≤ o → o < 0x30000 → n = 4 → exec (.registerWrite (.window m)) s = .next (s.winWrite32 m.vd (o - 0x20000) w)) ∧
    (m.door = false → 0x20000 ≤ o → o < 0x30000 → n = 8 → exec (.registerWrite (.window m)) s = .next (s.winWrite64 m.vd (o - 0x20000) w)) ∧
    (m.door = false → 0x20000 ≤ o → o < 0x30000 → 0 < n → n < 4 → s.winReg m.vd (o / 4 * 4 - 0x20000) ≠ none →
      exec (.registerWrite (.window m)) s = .next (s.modVd m.vd fun d => { d with err := { d.err with accessSize := true } })) ∧
    (m.door = false → (n = 0 ∨ o < 0x20000 ∨ 0x30000 ≤ o) → exec (.registerWrite (.window m)) s = .next s) ∧
    (m.door = true → n = 4 → o < 0x10000 → o % 0x1000 = 0 →
      exec (.registerWrite (.window m)) s = .next (s.ringDb m.vd (o / 0x1000) (BitVec.ofNat 32 w))) ∧
    (m.door = true → n = 4 → o < 0x10000 → o % 0x1000 = 8 →
      exec (.registerWrite (.window m)) s = .next (s.cqDb m.vd (o / 0x1000) (BitVec.ofNat 32 w))) ∧
    (m.door = true → doorReg (o / 4 * 4) = none → exec (.registerWrite (.window m)) s = .next s)) ∧
  (∀ (m : Mmio) (o n : Nat), m.bad = false → m.span = some (o, n) → 0 < n → (n = 1 ∨ n = 2 ∨ n = 4 ∨ n = 8) ∧ o % n = 0) ∧
  (∀ (s : State) (v i base len ways gran : Nat) (bi : Bool), s.running = true → v < 64 → i < 2 → s.windowShut { vd := v, off := 0 } = none → s.boot.warm = 0 →
    s.portStuck (v / 16) = false →
    ∃ t, exec (.registerWrite (.decoder v i base len ways gran bi)) s = .next t ∧ t = s.commitDecoder v i base len ways gran bi ∧
      (ways ∈ [1, 2, 4, 8, 16] → gran ∈ [256, 512, 1024, 2048, 4096, 8192, 16384] →
        ((t.vd v).decoders.getD i {}).committed = true ∧ ((t.vd v).decoders.getD i {}).error = false ∧ ((t.vd v).decoders.getD i {}).base = base) ∧
      ((ways ∉ [1, 2, 4, 8, 16] ∨ gran ∉ [256, 512, 1024, 2048, 4096, 8192, 16384]) →
        ((t.vd v).decoders.getD i {}).committed = false ∧ ((t.vd v).decoders.getD i {}).error = true)) ∧
  (∀ (s : State) (v x : Nat), (s.boot.memActive = false ∨ (s.vd v).st = .resetting ∧ x ≠ 0x1000) → s.winRead v x = (s.winReset v x).getD 0) ∧
  (∀ (s : State) (v x : Nat), s.boot.memActive = true → ((s.vd v).st ≠ .resetting ∨ x = 0x1000) → s.winRead v x = (s.winReg v x).getD 0)

/-- R467, R546 to R552, R568, R572, R575 and R594; the order of the checks is this model's (notes/assumptions/41.md). -/
def Obligations.ManagementCommandsAreCheckedAndServed : Prop :=
  (∀ (s : State) (h : MctpHdr), s.mctpUp h = true →
    (h.ty ∉ mctpTypes → exec (.mctpMessageReceive h) s = .next { s with mgmt := { s.mgmt with drop := s.mgmt.drop + 1 } }) ∧
    (h.ty ∈ mctpTypes → s.duplicate h = false → s.sessionOk h = true →
      (s.mgmt.bufs.length < 8 → s.mgmt.held = [] → exec (.mctpMessageReceive h) s = .next { s with mgmt := { s.mgmt with bufs := s.mgmt.bufs ++ [h] } }) ∧
      (8 ≤ s.mgmt.bufs.length → h.port ≠ none → exec (.mctpMessageReceive h) s = .next { s with mgmt := { s.mgmt with held := s.mgmt.held ++ [h] } }) ∧
      (8 ≤ s.mgmt.bufs.length → h.port = none → exec (.mctpMessageReceive h) s = .next s))) ∧
  (∀ (s : State) (h : MctpHdr) (e : Nat), s.served h 0 = true →
    (0 < e → e < 255 → ∃ t, exec (.setEndpointId h e) s = .next t ∧ t = { s with mgmt := { s.mgmt with
        eids := s.mgmt.eids.setD (if h.port.isSome then 1 else 0) 0 e } }.mgmtAnswer h 1 0 [e]) ∧
    ((e = 0 ∨ e = 255) → exec (.setEndpointId h e) s = .next (s.mgmtAnswer h 1 2 []))) ∧
  (∀ (s : State) (h : MctpHdr) (fl o : Nat) (w : Word) (d : DWord), s.served h 0x7E = true →
    (fl ≠ 0 → exec (.read32 h fl o) s = .next (s.mgmtAnswer h 1 2 []) ∧ exec (.write32 h fl o w) s = .next (s.mgmtAnswer h 2 2 []) ∧
      exec (.coldReset h fl) s = .next (s.mgmtAnswer h 0x20 2 []) ∧ exec (.panelUpdate h fl) s = .next (s.mgmtAnswer h 0x31 2 [])) ∧
    (h.port ≠ none → h.secured = false → exec (.write32 h 0 o w) s = .next (s.mgmtAnswer h 2 3 []) ∧ exec (.write64 h 0 o d) s = .next (s.mgmtAnswer h 4 3 []) ∧
      exec (.coldReset h 0) s = .next (s.mgmtAnswer h 0x20 3 []) ∧ exec (.warmReset h 0) s = .next (s.mgmtAnswer h 0x21 3 []) ∧
      (∀ v, exec (.vdReset h 0 v) s = .next (s.mgmtAnswer h 0x22 3 [])) ∧ exec (.poolLeave h 0) s = .next (s.mgmtAnswer h 0x23 3 [])) ∧
    (s.img.applied = false → h.port = none → exec (.write32 h 0 o w) s = .next (s.mgmtAnswer h 2 4 []) ∧
      (earlyOff o = false → exec (.read32 h 0 o) s = .next (s.mgmtAnswer h 1 4 [])) ∧ exec (.identify h 0 1) s = .next (s.mgmtAnswer h 0x30 4 []))) ∧
  (∀ (s : State) (h : MctpHdr) (o : Nat), s.served h 0x7E = true → (s.img.applied = true ∨ earlyOff o = true ∧ earlyOff (o + 4) = true) →
    (o % 4 = 0 → s.readWaits o = false → exec (.read32 h 0 o) s = .next (s.mgmtAnswer h 1 0 [s.mgmtRead o])) ∧
    (o % 4 ≠ 0 → exec (.read32 h 0 o) s = .next (s.mgmtAnswer h 1 1 [])) ∧
    (o % 8 = 0 → s.readWaits o = false → exec (.read64 h 0 o) s = .next (s.mgmtAnswer h 3 0 [s.mgmtRead o + s.mgmtRead (o + 4) * 2 ^ 32])) ∧
    (o % 8 ≠ 0 → exec (.read64 h 0 o) s = .next (s.mgmtAnswer h 3 1 []))) ∧
  (∀ (s : State) (h : MctpHdr) (o : Nat) (w : Word) (d : DWord) (r : PolReg), s.MgmtOpen h →
    (o % 4 = 0 → polAt o = none → exec (.write32 h 0 o w) s = .next ((s.mgmtWrite o w.toNat).1.mgmtAnswer h 2 (if (s.mgmtWrite o w.toNat).2 then 0 else 2) [])) ∧
    (o % 4 = 0 → polAt o = some r → exec (.write32 h 0 o w) s = .next (s.polFrom h 2 r w.toNat false).mgmtHold) ∧
    (o % 4 ≠ 0 → exec (.write32 h 0 o w) s = .next (s.mgmtAnswer h 2 1 [])) ∧
    (o % 8 ≠ 0 → exec (.write64 h 0 o d) s = .next (s.mgmtAnswer h 4 1 [])) ∧
    (exec (.write64 h 0 0x4090 d) s = .next (s.polFrom h 4 .keepAwake d.toNat false).mgmtHold) ∧
    (∀ s1 s2 a b, o % 8 = 0 → polAt o = none → polAt (o + 4) = none → o ≠ 0x4090 → gaugeAt o = none → s.mgmtWrite o (d.toNat % 2 ^ 32) = (s1, a) →
      s1.mgmtWrite (o + 4) (d.toNat / 2 ^ 32) = (s2, b) → exec (.write64 h 0 o d) s = .next (s2.mgmtAnswer h 4 (if a && b then 0 else 2) []))) ∧
  (∀ (s : State) (h : MctpHdr) (i k n : Nat), s.served h 0x7E = true → 0 < k → k ≤ 60 → n ≤ s.flt.log.length →
    (n < 2 ^ 31 → s.flt.logFirst < 2 ^ 32 → s.flt.logFirst + n < 2 ^ 32 → exec (.logRead h 0 (s.flt.logFirst + n) k) s = .next
      ((s.mgmtFree h).send (.mgmtLog h (s.flt.logFirst + n) ((s.flt.log.drop n).take k)))) ∧
    (i < 256 → exec (.fatalLogRead h 0 i k) s = .next ((s.mgmtFree h).send (.mgmtLog h i ((s.flt.fatal.drop i).take k))))) ∧
  (∀ (s : State) (h : MctpHdr) (v : Nat), s.MgmtOpen h →
    exec (.coldReset h 0) s = .next ((s.mgmtAnswer h 0x20 0 []).coldReset 2) ∧
    (s.boot.warm = 0 → s.boot.warmWait = none → exec (.warmReset h 0) s = .next ((s.mgmtAnswer h 0x21 0 []).requestWarm 6)) ∧
    (s.vdExists v = false → exec (.vdReset h 0 v) s = .next (s.mgmtAnswer h 0x22 2 [])) ∧
    (s.vdExists v = true → (s.vd v).st ≠ .resetting → exec (.vdReset h 0 v) s = .next
      ({ s.vdTrigger v 6 with mgmt := { (s.vdTrigger v 6).mgmt with resets := (s.vdTrigger v 6).mgmt.resets ++ [(h, v)] } }).mgmtHold) ∧
    (s.pool.st = .member → exec (.poolLeave h 0) s = .next (s.poolLeave.mgmtAnswer h 0x23 0 []) ∧ s.poolLeave.pool.leaving = true) ∧
    (s.pool.st ≠ .member → exec (.poolLeave h 0) s = .next (s.mgmtAnswer h 0x23 0 [])) ∧
    (∀ x, x ≤ 1 → exec (.identify h 0 x) s = .next ({ s with mgmt := { s.mgmt with identify := decide (x = 1) } }.mgmtAnswer h 0x30 0 [])) ∧
    exec (.panelUpdate h 0) s = .next (s.panelAsk.mgmtAnswer h 0x31 0 [s.panelSeconds]))

/-- R553 to R558. -/
def Obligations.SpdmIsNegotiatedInOrderAndPldmTellsTheSensors : Prop :=
  (∀ (s : State) (h : MctpHdr), s.spdmServed h = true →
    exec (.getVersion h) s = .next ((s.setSpdm 1).mgmtAnswer h 0x84 0 [0x12]) ∧
    (s.mgmt.spdm = 0 → exec (.getCapabilities h) s = .next (s.mgmtAnswer h 0xE1 1 []) ∧ exec (.challenge h 0) s = .next (s.mgmtAnswer h 0x83 1 [])) ∧
    (1 ≤ s.mgmt.spdm → exec (.getCapabilities h) s = .next ((s.setSpdm 2).mgmtAnswer h 0xE1 0 [0x3F])) ∧
    (2 ≤ s.mgmt.spdm → exec (.negotiateAlgorithms h) s = .next ((s.setSpdm 3).mgmtAnswer h 0xE3 0 [1, 1, 1, 1])) ∧
    (s.mgmt.spdm = 2 → exec (.getDigests h) s = .next (s.mgmtAnswer h 0x81 1 []) ∧ exec (.keyExchange h) s = .next (s.mgmtAnswer h 0xE4 1 []))) ∧
  (∀ (s : State) (h : MctpHdr) (k : Nat), s.spdmServed h = true → 3 ≤ s.mgmt.spdm →
    exec (.getDigests h) s = .next (s.mgmtAnswer h 0x81 0 [1, (Config.sha384 s.fuses.chain).toNat]) ∧
    exec (.getCertificate h 0) s = .next (s.mgmtAnswer h 0x82 0 (s.fuses.chain.map BitVec.toNat)) ∧
    (k ≠ 0 → exec (.getCertificate h k) s = .next (s.mgmtAnswer h 0x82 1 [])) ∧
    (∃ x, exec (.challenge h 0) s = .next ({ s with freeCtr := s.freeCtr + 1 }.mgmtAnswer h 0x83 0 [(Config.sha384 s.fuses.chain).toNat, x])) ∧
    exec (.getMeasurements h 0) s = .next (s.mgmtAnswer h 0xE0 0 [6]) ∧
    (1 ≤ k → k ≤ 6 → exec (.getMeasurements h k) s = .next (s.mgmtAnswer h 0xE0 0 [s.measurement k])) ∧
    (exec (.getMeasurements h 255) s = .next (s.mgmtAnswer h 0xE0 0 ([1, 2, 3, 4, 5, 6].map s.measurement))) ∧
    ((∀ i < 4, s.mgmt.sessions.find i ≠ none) → exec (.keyExchange h) s = .next (s.mgmtAnswer h 0xE4 1 [])) ∧
    (k < 4 → s.mgmt.sessions.find k = none → (∀ i < k, s.mgmt.sessions.find i ≠ none) → exec (.keyExchange h) s = .next
      ({ s with mgmt := { s.mgmt with sessions := s.mgmt.sessions.put k (h.port, false) } }.mgmtAnswer h 0xE4 0 [k])) ∧
    (s.mgmt.sessions.find k = some (h.port, false) → exec (.finish h k) s = .next
      ({ s with mgmt := { s.mgmt with sessions := s.mgmt.sessions.put k (h.port, true) } }.mgmtAnswer h 0xE5 0 [])) ∧
    (s.mgmt.sessions.find k = some (h.port, true) → exec (.endSession h k) s = .next
      ({ s with mgmt := { s.mgmt with sessions := s.mgmt.sessions.del k } }.mgmtAnswer h 0xEC 0 []))) ∧
  (∀ (s : State) (h : MctpHdr) (n c : Nat) (r : Option Nat), s.served h 1 = true →
    exec (.getTid h) s = .next (s.mgmtAnswer h 0x02 0 [s.mgmt.tid]) ∧
    (0 < n → n < 255 → exec (.setTid h n) s = .next ({ s with mgmt := { s.mgmt with tid := n } }.mgmtAnswer h 0x01 0 [])) ∧
    (∃ x, exec (.getPldmVersion h 2) s = .next ({ s with freeCtr := s.freeCtr + 1 }.mgmtAnswer h 0x03 0 [x])) ∧
    exec (.getPldmTypes h) s = .next (s.mgmtAnswer h 0x04 0 [0, 2]) ∧
    exec (.getPldmCommands h 2) s = .next (s.mgmtAnswer h 0x05 0 (pldmCommands 2)) ∧
    exec (.setEventReceiver h r) s = .next ({ s with mgmt := { s.mgmt with receiver := r } }.mgmtAnswer h 0x04 0 []) ∧
    (1 ≤ n → n ≤ 11 → s.sensorOn n = true → exec (.getSensorReading h n) s = .next
      (s.mgmtAnswer h 0x11 0 [0, s.sensorValue n, sensorLevel n (s.sensorValue n)])) ∧
    (1 ≤ n → n ≤ 11 → s.sensorOn n = false → exec (.getSensorReading h n) s = .next (s.mgmtAnswer h 0x11 0 [1])) ∧
    ((n = 0 ∨ 11 < n) → exec (.getSensorReading h n) s = .next (s.mgmtAnswer h 0x11 128 [])) ∧
    exec (.getStateSensorReadings h 12) s = .next (s.mgmtAnswer h 0x21 0 [s.mgmt.health]) ∧
    (1 ≤ n → n ≤ 11 → exec (.getSensorThresholds h n) s = .next (s.mgmtAnswer h 0x12 0 (sensorLimits n))) ∧
    exec (.getPdrRepositoryInfo h) s = .next (s.mgmtAnswer h 0x50 0 [if s.inv.fixed then 12 else 0]) ∧
    (1 ≤ n → n ≤ 12 → s.inv.fixed = true → ∃ vals, exec (.getPdr h n) s = .next (s.mgmtAnswer h 0x51 0 vals) ∧ vals.headD 0 = n) ∧
    (s.inv.fixed = false → exec (.getPdr h n) s = .next (s.mgmtAnswer h 0x51 130 [])) ∧
    (c ∉ pldmCommands n → exec (.pldmUnsupported h n c) s = .next (s.mgmtAnswer h c 5 []))) ∧
  (∀ (s : State) (i r : Nat) (acked : Bool) (e : PldmEvent), s.mgmt.events[i]? = some e →
    ((acked = true ∨ 4 ≤ e.sent) → exec (.platformEventResend i acked) s = .next { s with mgmt := { s.mgmt with events := s.mgmt.events.eraseIdx i } }) ∧
    (acked = false → e.sent < 4 → s.mgmt.receiver = some r → exec (.platformEventResend i acked) s = .next
      ({ s with mgmt := { s.mgmt with events := s.mgmt.events.set i { e with sent := e.sent + 1 } } }.send (.platformEvent r e.sensor e.value))))

/-- R558, R560, R562, R564, R565 and R567. -/
def Obligations.HealthIsEvaluatedAndThePanelDrawsIt : Prop :=
  (∀ (s u : State) (temp pw : Nat) (waited : Bool), s.board.pwrOk = true → 2 ≤ s.boot.step →
    u = { s with boot := { s.boot with iodTemp := temp }, mgmt := { s.mgmt with cardPower := pw } }.sensorEvents →
    ∃ t, exec (.healthEvaluate temp pw waited) s = .next t ∧ t = u.setHealth (u.healthNow waited) ∧ t.mgmt.health = u.healthNow waited) ∧
  (∀ (s : State) (w : Bool),
    ((s.boot.neverActive = true ∨ s.clk.source = 3 ∨ s.panel.connector = true ∨ s.boot.thermalHold = true ∨
      ∃ r ∈ s.flt.log ++ s.flt.fatal, r.cls = RecClass.deviceFatal) → s.healthNow w = 4) ∧
    (s.boot.neverActive = false → s.clk.source ≠ 3 → s.panel.connector = false → s.boot.thermalHold = false →
      (∀ r ∈ s.flt.log ++ s.flt.fatal, r.cls ≠ RecClass.deviceFatal) →
      (s.boot.memActive = false → s.healthNow w = 0) ∧
      (s.boot.memActive = true → (∃ r ∈ s.flt.log ++ s.flt.fatal, r.cls = RecClass.fatal) → s.healthNow w = 3) ∧
      (s.boot.memActive = true → (∀ r ∈ s.flt.log ++ s.flt.fatal, r.cls ≠ RecClass.fatal) → (s.healthNow w = 1 ∨ s.healthNow w = 2)))) ∧
  (∀ (s : State), s.straps.panel = true → s.board.pwrOk = true → s.panel.mayStart = true →
    ∃ t f, exec .panelUpdateStart s = .next t ∧ t.panel.next = some f ∧ f.codes = s.panel.nextCodes ∧ t.panel.inProgress = true ∧ t.panel.step = 1
      ∧ t.panel.waiting = false ∧ t.panel.bootDrawn = true ∧ t.panel.lastStart = some s.now ∧ (2 ≤ s.boot.step → f.health = s.mgmt.health)
      ∧ (f.devnum = if s.pool.st = .member then some s.pool.devnum else none) ∧ t = { s with panel := t.panel }) ∧
  (∀ (s : State), s.panel.mayStart = false → exec .panelUpdateStart s = .next s) ∧
  (∀ (s : State),
    (s.panel.step = 1 → exec .panelBandHatched s = .next { s with panel := { s.panel with step := 2, hatched := true } }) ∧
    (s.panel.step = 2 → exec .panelFullRefreshDone s = .next { s with panel := { s.panel with step := 3, shown := s.panel.next, partly := false } }) ∧
    (s.panel.step = 3 → exec .panelBandWhite s = .next { s with panel := { s.panel with step := 0, hatched := false, inProgress := false, next := none } })) ∧
  (∀ (s : State),
    exec .panelIntervalEnd s = .next { s with panel := { s.panel with lastStart := none } } ∧
    exec .powerFailComparator s = .next { s with panel := { s.panel with comparator := true } } ∧
    exec .comparatorDeassert s = .next { s with panel := { s.panel with comparator := false } } ∧
    (s.panel.waiting = true → s.panel.bootDrawn = false → s.panel.inProgress = true → s.panel.clearing = false → s.panel.step = 0 →
      s.panel.comparator = false → exec .panelClearingWaveform s = .next { s with panel := { s.panel with
        clearing := true, shown := none, hatched := false, partly := false } }) ∧
    (s.panel.comparator = true → s.panel.step ≠ 0 → ∃ t, exec .panelHoldUpFail s = .next t ∧ t.panel.step = 0 ∧ t.panel.next = none
      ∧ t.panel.inProgress = s.panel.inProgress ∧ t.panel.hatched = s.panel.hatched ∧ t.panel.shown = s.panel.shown
      ∧ t = { s with panel := { s.panel with step := 0, next := none, partly := t.panel.partly } }))

/-- The queue of commands; the tick is this model's choice (notes/assumptions/2.md), after R12 and R60. -/
def Obligations.StepRunsTheFrontCommand : Prop :=
  (∀ (c : Instr) (rest : List Instr) (s : State), step { s with pending := c :: rest } = exec c { s with pending := rest }) ∧
  (∀ (s : State), s.pending = [] → step s = .next s.tickNs ∧
    (3 ≤ s.boot.step → s.tickNs.timeBase = s.linkSync.timeBase + 1) ∧ (s.boot.step < 3 → s.tickNs = s))

/-- R10, R11 and R23: nothing that is sent to the block stops it. -/
def Obligations.NoCommandStopsTheBlock : Prop :=
  (∀ (c : Instr) (s : State), ∃ t, exec c s = .next t) ∧ (∀ s : State, ∃ t, step s = .next t) ∧ (∀ (s : State) (k : Nat), s.SafeFor k)

/-- R554 and R597: the straps are sampled once, at power-on, and the fuses are the part's own. -/
def Obligations.CommandsLeaveTheQueueFusesAndStraps : Prop :=
  ∀ (c : Instr) (s t : State), exec c s = .next t →
    t.pending = s.pending ∧ ((∀ a b, c ≠ .powerOn a b) → t.fuses = s.fuses ∧ t.straps = s.straps)

/-- R70 and R81; the choice of the unpowered device is notes/assumptions/1.md. -/
def Obligations.ResetMeetsTheInvariants : Prop :=
  State.reset.BootOrder ∧ State.reset.MemCanonical ∧ State.reset.pending = [] ∧ State.reset.board.pwrOk = false ∧ State.reset.boot.step = 0
    ∧ State.reset.boot.memActive = false ∧ State.reset.boot.warm = 0 ∧ State.reset.img.applied = false ∧ State.reset.mem = [] ∧ State.reset.bays = []

/-- R69, R70, R81 and R154. -/
def Obligations.PowerUpOrderHoldsForEver : Prop := ∀ s t : State, s.BootOrder → step s = .next t → t.BootOrder

/-- The form of notes/assumptions/4.md, over R64, R185 and R242. -/
def Obligations.MemoryStaysCanonical : Prop := ∀ s t : State, s.MemCanonical → step s = .next t → t.MemCanonical

/-- R30 to R36, R46, R50, R56 to R61, R64, R67, R69, R71, R73 to R75, R99 to R107, R112 to R116, R121 to R133, R140, R146, R148,
R151, R152, R171, R177 to R179, R503 to R528, R546 to R559, R573 and R577: each command of the device has its effect in every state in
which its rule lets it act. -/
def Obligations.DeviceCommandsComplete : Prop :=
  (∀ s t : State, s.board.pwrOk = true → s.boot.step = 5 →
    t = { s.deadline 7 with dies := (s.deadline 7).dies.mapVal fun _ x => { x with st := x.fail.getD .active }, boot := { s.boot with step := 7 } } →
    (s.boot.noImage = false → s.boot.warmWait = none → exec .inventoryFix s = .next t.holdCom) ∧
    (s.boot.noImage = false → ∀ c, s.boot.warmWait = some c → exec .inventoryFix s = .next (t.holdCom.startWarm c)) ∧
    (s.boot.noImage = true → s.boot.warmWait = none → exec .inventoryFix s = .next (t.fixInventory 0 0))) ∧
  (∀ (s : State) (d : Nat) (dn up : List Nat), s.dieAt d 2 = true → ∃ x, exec (.leatWireTraining d dn up) s = .next { s with dies := s.dies.setD d {} x }
    ∧ (x.fail = none ∧ x.step = 3 ∨ x.fail = some .absent ∨ x.fail = some .linkFail)) ∧
  (∀ (s t : State) (d serial rev level : Nat), s.dieAt d 3 = true →
    exec (.identityMessage d serial rev level false) s = .next (s.modDie d fun x => { x with idTries := (s.die d).idTries + 1 }) ∧
    (t = s.modDie d (fun x => { x with idTries := (s.die d).idTries + 1, serial := serial % 2 ^ 32, rev := rev % 256, levelOffered := level % 256 }) →
      ((s.die d).idTries < 2 → 1 ≤ level % 256 →
        exec (.identityMessage d serial rev level true) s = .next (t.modDie d fun x => { x with step := 6, levelUsed := min (level % 256) s.iodLevel })) ∧
      ((2 ≤ (s.die d).idTries ∨ level % 256 = 0) →
        exec (.identityMessage d serial rev level true) s = .next (t.modDie d fun x => { x with fail := some .idFail })))) ∧
  (∀ (s : State) (d mask : Nat), s.dieAt d 6 = true → exec (.channelFailureMaskReport d mask) s = .next { s with dies := s.dies.setD d {} { s.die d with
      chFail := mask % 2 ^ 32, step := 7, fail := if 8 < popCount 32 (mask % 2 ^ 32) then some .stackFail else none } }) ∧
  (∀ (s : State) (p : Nat), s.board.pwrOk = true → 5 ≤ s.boot.step → p < 4 → (s.port p).link = 0 → (s.port p).perst = false → s.boot.noImage = false →
    s.clk.source ≠ 3 → (s.port p).refMode ≠ 3 → ((s.port p).refMode = 2 ∨ (s.refMon p).valid = true) →
    exec (.cxlTrainingStart p) s = .next (s.modPort p fun x => { x with link := 1 })) ∧
  (∀ (s : State) (n : Nat) (bytes : List Byte), n < 3 → s.running = true → 5 ≤ s.boot.step → s.boot.flashOk = true → s.boot.done = false →
    (s.slot n).staged = false → s.stagingOpen = true →
    ∃ t : State, exec (.slotStage n bytes) s = .next (if t.outcomeCertain then t.noImage else t) ∧
      ((∃ b, t = (s.modBootSlot n fun x => { x with staged := true }).rejectSlot n b) ∨
        ∃ f, t = (s.modBootSlot n fun x => { x with staged := true }).modBootSlot n f ∧ ∀ x, (f x).sound = true)) ∧
  (∀ s : State, s.boot.step = 7 → s.boot.done = false → (∀ i < 3, (s.slot i).staged = true) →
    ∃ t, exec .slotSelection s = .next t ∧ t.boot.done = true ∧ t.boot.flashOwn = false) ∧
  (∀ (s t : State) (n pick : Nat) (img : Image) (lock : Bool), s.appliedSlot = some n → s.img.applied = false → s.boot.step = 7 →
    img = (if s.boot.diesShort then { applied := true, device := (s.slot n).img.device, ports := (s.slot n).img.ports } else (s.slot n).img) →
    lock = ((s.slot n).img.device.testLock && !s.boot.diesShort) →
    t = ((List.range 4).foldl State.applyPort { s with
      img := img, pol := s.imagePol img,
      boot := { s.boot with step := 8, testLock := lock, neverActive := s.boot.diesShort, memActive := !s.boot.diesShort },
      jtag := if lock then s.jtag.lock else s.jtag,
      power := if lock then { s.power with testCom := [] } else s.power }).toAnchor →
    (s.boot.diesShort = true → exec (.imageApply pick) s = .next
      ((t.mediaError.postAs { cls := .deviceFatal } (0x0DF30000 + popCount 8 s.inv.active)).releaseAll pick).bootDraw) ∧
    (s.boot.diesShort = false → exec (.imageApply pick) s = .next
      ((t.drawKeys.vdList.foldl (fun s v => s.modVd v fun x => { x with st := .ready }) t.drawKeys).hopStart.startLinks.releaseAll pick).bootDraw)) ∧
  (∀ s : State, s.running = true → exec .coldRstNAssert s = .next (s.coldReset 1) ∧ exec .warmRstNAssert s = .next (s.requestWarm 5)) ∧
  (∀ s : State, s.boot.warm = 2 → exec .warmResetTaskStop s = .next { s.stopCmds s.dax.cmds with boot := { (s.stopCmds s.dax.cmds).boot with warm := 3 } }) ∧
  (∀ (s u t : State) (acked : List Nat) (pick : Nat), s.boot.warm = 3 → s.requestsDone = true → u = s.fresh.demoteAll.abandonCopies.flushCaches.abandonWb acked →
    t = (u.vdList.foldl State.warmVd u).hopWarm.clearBays.warmUnits.dropPolicy → t.stall = [] →
    exec (.warmResetFlush acked pick) s = .next { t with boot := { t.boot with warm := 5 } }) ∧
  (∀ s : State, s.boot.warm = 5 → exec (.warmImageReapply true) s = .next (({ s with pol := s.imagePol s.img, boot := { s.boot with warm := 6 } } : State).keepAwake 0)
    ∧ exec (.warmImageReapply false) s = .next (s.coldReset 4)) ∧
  (∀ (s t u : State) (pick : Nat), s.boot.warm = 6 → u = s.fresh →
    t = (((u.vdList.filter fun v => u.resetAt v 5).foldl State.vdReady
      { u with boot := { u.boot with warm := 0 }, power := { u.power with refresh := [] } }).flushHeld.answerReads.releaseAll pick).releasePeers pick → t.stall = [] → exec (.warmResetComplete pick) s = .next t) ∧
  (∀ (s : State) (p pick : Nat), p < 4 → s.board.pwrOk = true →
    exec (.portReset p (some false) pick) s = .next (s.modPort p fun x => { x with perst := false }) ∧
    (s.running = true → exec (.portReset p (some true) pick) s = .next ((s.portReset p pick).modPort p fun x => { x with perst := true })) ∧
    (s.running = true → (s.port p).link = 2 → exec (.portReset p none pick) s = .next (s.portReset p pick))) ∧
  (∀ (s : State) (r ns : Nat), s.monitored r = true → ns < 100 → s.anchor = some r →
    exec (.refGlitch r ns) s = .next ({ s with clk := { s.clk with glitchCnt := s.clk.glitchCnt + 1 } }.gaugeEvent 0x30 0xFF none ns)) ∧
  (∀ (s : State) (r pick : Nat), s.monitored r = true → ((s.refMon r).valid = true ∨ (s.refMon r).counting = true) →
    exec (.refLoss r pick) s = .next (s.refLost r pick)) ∧
  (∀ (s : State) (r hz pick : Nat) (m : RefMon), s.monitored r = true → m = s.refMon r →
    (s.inBand hz = true → exec (.freqWindowEnd r hz pick) s = .next (s.setRef r { m with out := false, counting := m.counting || !m.valid })) ∧
    (s.inBand hz = false → (m.out && m.valid) = false → exec (.freqWindowEnd r hz pick) s = .next (s.setRef r { m with out := true, counting := false })) ∧
    (s.inBand hz = false → (m.out && m.valid) = true →
      exec (.freqWindowEnd r hz pick) s = .next ((s.setRef r { m with out := true, counting := false }).refLost r pick))) ∧
  (∀ (s : State) (r : Nat), s.monitored r = true → (s.refMon r).valid = false → (s.refMon r).out = false →
    ((s.anchor ≠ some r ∨ s.clk.source ≠ 1) → exec (.refReturn r) s = .next (s.setRef r { s.refMon r with valid := true, counting := false })) ∧
    (s.anchor = some r → s.clk.source = 1 → exec (.refReturn r) s = .next { s with clk := { s.clk with
      source := 0, switched := true, refs := s.clk.refs.setD r {} { s.refMon r with valid := true, counting := false } } })) ∧
  (∀ (s s1 : State) (pick : Nat), s.monitored 0 = true → s.clk.quietBad = false → s1 = { s with clk := { s.clk with quietFail := true, quietBad := true } } →
    (s.clk.source = 0 → exec (.quietClockFail pick) s = .next (s1.post { cls := .correctable, code := 5 })) ∧
    (s.clk.source ≠ 0 → exec (.quietClockFail pick) s = .next (s1.freeRun pick))) ∧
  (∀ (s t u : State) (d : Nat) (rs : List (Option Nat)) (hot thr : Bool), (s.die d).st = .active →
    hot = (decide (95 ≤ stackTemp rs) || ((s.die d).hot && decide (92 ≤ stackTemp rs))) →
    thr = (decide (105 ≤ stackTemp rs) || ((s.die d).throttle && decide (102 ≤ stackTemp rs))) →
    t = s.modDie d (fun x => { x with temp := stackTemp rs, hot := hot, throttle := thr }) →
    u = (if (hot && !(s.die d).hot) || (thr && !(s.die d).throttle) then t.eventAll 1 { kind := .memoryModule, ty := .temperatureChange } else t) →
    (stackTemp rs < 115 → exec (.thermalSample d rs) s = .next u) ∧ (115 ≤ stackTemp rs → exec (.thermalSample d rs) s = .next (u.dieRetire d false true))) ∧
  (∀ (s s1 : State) (n choice idle i : Nat), s.sliceOn n = true → s.gateSt n ≠ 2 → s.sliceIdle n = true → s.baysUsed n = false → bit s.pol.keepAwake n = false →
    s.gateBound choice (s.pol.pgMinIdle * 1000) = (i, s1) →
    (idle < i → exec (.slicePowerGate n choice idle) s = .next s1) ∧
    (∀ u, i ≤ idle → u = ((s1.slice n).frames.map (·.1)).foldl (fun (s : State) k => s.evict n k) s1 →
      ((u.slice n).miss ≠ [] → exec (.slicePowerGate n choice idle) s = .next u) ∧
      ((u.slice n).miss = [] → exec (.slicePowerGate n choice idle) s = .next
        ((u.modSlice n fun x => { x with frames := [], l1 := [], ro := {} }).setGate n 2)))) ∧
  (∀ (s : State) (n pick : Nat), exec (.sliceWake n pick) s = .next (s.wakeSlice n pick)) ∧
  (∀ (s s1 : State) (d choice idle i : Nat), (s.die d).st = .active → s.dieIdle d = true → s.power.refresh.contains d = false →
    s.gateBound choice (s.pol.srMinIdle * 1000) = (i, s1) →
    (idle < i → exec (.stackSelfRefresh d choice idle) s = .next s1) ∧
    (i ≤ idle → exec (.stackSelfRefresh d choice idle) s = .next { s1 with power := { s1.power with refresh := s1.power.refresh ++ [d] } })) ∧
  (∀ (s : State) (die gl : Nat) (sec : Sectors), s.leatOn die = true →
    exec (.leatEccError die true (some gl) sec) s = .next (((s.charge 5 die 64).poisonSectors gl sec).post
      { cls := .poisoned, meter := 5, unit := die, addr := gl * 128, detail := sec.toNat * 16 + sec.toNat }) ∧
    exec (.leatEccError die true none sec) s = .next (s.charge 5 die 64)) ∧
  (∀ (s : State) (pins : List Bool), s.board.pwrOk = true →
    exec .idcode s = .next { s with jtag := { s.jtag with ir := 0x01 }, out := s.out ++ [.tdo (bitList 32 s.idcode)] } ∧
    exec (.sample pins) s = .next { s with jtag := { s.jtag with ir := 0x02, bsr := pins }, out := s.out ++ [.tdo pins] } ∧
    exec .bypass s = .next { s with jtag := { s.jtag with ir := 0xFF } }) ∧
  (∀ (s : State) (r : PolReg) (x v : Nat), s.img.device.policyVd = v → s.WindowOpen v →
    exec (.policyWriteArrive r x (some v)) s = .next (s.polArrive { reg := r, val := x % 2 ^ r.bits, vd := some v })) ∧
  (∀ (s t u : State) (fin : State → State) (w : PolWrite) (ws : List PolWrite) (pick : Nat), s.polq.queue = w :: ws → s.polq.cur = none → s.polOpen = true →
    t = { s with polq := { s.polq with queue := ws }.refill } →
    fin = (fun x => if x.boot.warm ≠ 0 ∨ x.boot.held = [] then x else s.orWait 0 fun f => ({ x with stall := f.stall } : State).flushHeld) →
    (s.polInRange w.reg (s.polValue w) = true → u = { t with pol := t.pol.set w.reg (s.polValue w), polq := { t.polq with cur := some w, result := 0 } } →
      ((w.reg = .refreshCap → exec .refreshCapWrite s = .next (fin u)) ∧
       (w.reg = .srMinIdle → exec .srMinIdleWrite s = .next (fin u)) ∧
       (w.reg = .pgMinIdle → exec .pgMinIdleWrite s = .next (fin u)) ∧
       (w.reg = .spillMaxK → exec .spillMaxKWrite s = .next (fin u)) ∧
       (w.reg = .hylEqHold → exec .hylEqHoldWrite s = .next (fin u)) ∧
       (∀ k, (w.reg = .fmWscale k → exec .fmWscaleWrite s = .next (fin u)) ∧
         (w.reg = .quotaTask k → exec .vdQuotaTaskWrite s = .next (fin u)) ∧
         (w.reg = .quotaBuf k → exec .vdQuotaBufWrite s = .next (fin u)) ∧
         (w.reg = .quotaPage k → exec .vdQuotaPageWrite s = .next (fin u)) ∧
         (w.reg = .quotaPen k → exec .vdQuotaPenWrite s = .next (fin u)) ∧
         (w.reg = .qos k → exec .vdQosWrite s = .next (fin u)) ∧
         (w.reg = .fmThresh k → exec .fmThreshWrite s = .next (fin (u.recheck k))) ∧
         (∀ x, x = u.abandonMoves (fun m => decide (m.by_ = .fantail) && bit (u.regionPolicy m.vd (m.page * 65536)) 2) → w.reg = .regionPolicy k →
           exec .regionPolicyWrite s = .next (fin x))) ∧
       (∀ x, x = (if u.pol.fantailEnable then u else u.abandonMoves fun m => decide (m.by_ = .fantail)) → w.reg = .fantailCtrl →
         exec .fantailCtrlWrite s = .next (fin x)) ∧
       (∀ x, x = (u.inv.slices.filter fun n => bit u.pol.keepAwake n && decide (u.gateSt n ≠ 0)).foldl (fun s n => s.wakeSlice n pick) u →
         (w.reg = .keepAwake ∨ w.reg = .keepLo ∨ w.reg = .keepHi) → exec (.keepAwakeWrite pick) s = .next (fin x))))) ∧
  (∀ (s : State) (w : PolWrite), s.polq.cur = some w →
    exec .policyWriteComplete s = .next ({ s with polq := { s.polq with cur := none } }.polComplete w false)) ∧
  (∀ (s u : State) (p rate width pick : Nat) (cxl mld sris : Bool), p < 4 → ((s.port p).link = 1 ∨ (s.port p).link = 2) → (s.port p).perst = false →
    u = s.modPort p (fun x => { x with
      link := 2, rate := s.trainedRate p rate, width := s.trainedWidth p width, cxlOk := cxl, mld := cxl && mld,
      sris := sris && decide (x.refMode = 1), ideSeen := false, power := 0 }) →
    exec (.linkUp p rate width cxl mld sris pick) s = .next ((if s.boot.neverActive then u.mediaError else u).releaseHeld p pick)) ∧
  (∀ (s : State) (p pick : Nat), ((s.port p).link = 1 ∨ (s.port p).link = 2) →
    exec (.linkDown p true pick) s = .next ((s.linkLost p pick).charge 7 p 256) ∧ exec (.linkDown p false pick) s = .next (s.portReset p pick) ∧
    exec (.ideIntegrityFailure p pick) s = .next ((s.linkLost p pick).charge 7 p 256)) ∧
  (∀ (s : State) (p ld : Nat), ld < 16 → s.exposed p ld = true → s.portStuck p = false → exec (.functionLevelReset p ld) s = .next (s.vdTrigger (16 * p + ld) 3) ∧
    exec (.cxlReset p ld false) s = .next (s.vdTrigger (16 * p + ld) 4) ∧ exec (.cxlReset p ld true) s = .next (s.vdTrigger (16 * p + ld) 5)) ∧
  (∀ (s u t : State) (p n stream pick : Nat) (skid : Bool), s.mgmt.sessions.find n = some (some p, true) → (s.port p).link = 2 →
    t = (u.fresh.modPort p fun x => { x with ideSwitch := false }).flushHeld.releaseHeld p pick → t.stall = [] →
    (u = s.modPort p (fun x => x.ioStreams (x.ideStreams.filter (· ≠ stream) ++ [stream])) →
      exec (.ideKm p n false .on stream skid pick) s = .next t) ∧
    (u = s.modPort p (fun x => x.ioStreams (x.ideStreams.filter (· ≠ stream))) →
      exec (.ideKm p n false .off stream skid pick) s = .next t) ∧
    (s.fuses.prevGen = false → u = s.modPort p (fun x => { x with ideMem := true, ideSkid := skid }) →
      exec (.ideKm p n true .on stream skid pick) s = .next t) ∧
    (s.fuses.prevGen = false → u = s.modPort p (fun x => { x with ideMem := false }) →
      exec (.ideKm p n true .off stream skid pick) s = .next t)) ∧
  (∀ (s : State) (r : CxlReq) (ld pick : Nat) (hit : Bool),
    exec (.memRd r ld hit pick) s = .next (s.hostArrive { r with op := .memRd } ld hit pick) ∧
    exec (.memWr r ld hit pick) s = .next (s.hostArrive { r with op := .memWr } ld hit pick) ∧
    exec (.memClnEvct r ld hit pick) s = .next (s.hostArrive { r with op := .memClnEvct } ld hit pick)) ∧
  (∀ (s : State) (p ld dpa pick ep : Nat) (e : PEntry), (s.port p).link = 2 → (s.port p).cxlOk = true → s.exposed p ld = true → s.boot.memActive = true →
    s.boot.warm = 0 → (s.port p).outst.length < 1536 → s.entry (16 * p + ld) (dpa / 65536) = some (ep, e) → (e.kind = .page ∨ e.kind = .foreign) →
    exec (.memSpecRd p ld dpa true pick) s = .next (s.prefetch (e.gaddr ep dpa) pick)) ∧
  (∀ (s : State) (p gl half pick n : Nat) (rsp : BiRsp) (m m1 : Miss), s.register? gl = some (n, m) → m.phase = .snoop →
    (m.snpHost.contains (p, half) = true → m1 = { m with
        snpHost := m.snpHost.erase (p, half), keepHost := if decide (rsp = .s) && !m.keepHost.contains p then m.keepHost ++ [p] else m.keepHost } →
      exec (.birsp p gl half rsp pick) s = .next (((s.hostAnswered (ownNum gl) p m1).answered n gl pick m1).wakeAll pick)) ∧
    (m.snpHost.contains (p, half) = false → exec (.birsp p gl half rsp pick) s = .next (s.modPort p fun x => { x with biStray := x.biStray + 1 })) ∧
    ((m.snpHost.any fun h => decide (h.1 = p)) = true → exec (.bisnpTimeout p gl pick) s = .next
      (((s.lineEvent gl 1 { kind := .generalMedia, ty := .dataPath }).post { cls := .correctable, code := 4, addr := gl * 128, unit := p }).hostLost p gl pick))) ∧
  (∀ (s : State) (p gl tag : Nat),
    ((s.port p).outst.any (fun o => decide (o.tag = tag)) = true →
      exec (.biconflict p gl tag) s = .next (s.modPort p fun x => { x with conflicts := x.conflicts ++ [(tag, gl)] })) ∧
    ((s.port p).outst.any (fun o => decide (o.tag = tag)) = false → exec (.biconflict p gl tag) s = .next (s.send (.biConflictAck p gl)))) ∧
  (∀ (s : State) (h : MctpHdr) (p v r b l k : Nat) (xs : List (Nat × Nat)) (sh : Bool) (c : Instr) (op : Nat), s.FmOpen h →
    (c, op) ∈ [(Instr.getLdInfo h p, 0x5400), (.getLdAllocations h p, 0x5401), (.setLdAllocations h, 0x5402), (.getQosControl h p, 0x5403),
      (.setQosControl h, 0x5404), (.getQosStatus h p, 0x5405), (.getQosAllocatedBw h p, 0x5406), (.getDcdInfo h, 0x5600),
      (.getHostDcRegionConfiguration h v, 0x5601), (.setDcRegionConfiguration h v r b l k, 0x5602), (.getDcRegionExtentLists h v, 0x5603),
      (.initiateDynamicCapacityAdd h v xs sh, 0x5604)] →
    ∃ t rc vals, exec c s = .next t ∧ t.out.getLast? = some (.fm h op rc vals)) ∧
  (∀ (s : State) (h : MctpHdr) (v pick : Nat) (xs : List (Nat × Nat)), s.FmOpen h → s.vdExists v = true → s.releaseCheck v xs = .success →
    exec (.initiateDynamicCapacityRelease h v xs false pick) s = .next (((xs.foldl (fun (s : State) e =>
      s.event v 4 { kind := .dynamicCapacity, ty := .releaseRequested, dpa := e.1, len := e.2 }) s.fresh).mgmtFree h).send (.fm h 0x5605 .success [])) ∧
    (∀ t : State, t = ((s.fresh.dropExtents v .forcedRelease xs).mgmtFree h).send (.fm h 0x5605 .success []) → t.stall = [] →
      exec (.initiateDynamicCapacityRelease h v xs true pick) s = .next t)) ∧
  (∀ (s : State) (v b : Nat) (o : Nat × Nat × Nat), (s.vd v).offers.find? (fun o => decide (o.1 = b)) = some o →
    exec (.extentOfferTimeout v b) s = .next (s.withdrawOffer v o)) ∧
  (∀ (s : State) (v a b : Nat) (all : Bool) (xs : List Nat) (m : Option Nat) (x : DWord) (es : List (Nat × Nat)) (c : Instr) (op : Nat), s.MailboxOpen v →
    (c, op) ∈ [(Instr.mbIdentify v, 0x0001), (.backgroundOperationStatus v, 0x0002), (.getEventRecords v a, 0x0100), (.clearEventRecords v a all xs, 0x0101),
      (.getEventInterruptPolicy v, 0x0102), (.setEventInterruptPolicy v a m, 0x0103), (.getTimestamp v, 0x0300), (.setTimestamp v x, 0x0301),
      (.getSupportedLogs v, 0x0400), (.getLog v a, 0x0401), (.identifyMemoryDevice v, 0x4000), (.getHealthInfo v, 0x4200), (.getAlertConfiguration v, 0x4201),
      (.setAlertConfiguration v a, 0x4202), (.getPoisonList v a b, 0x4300), (.getScanMediaCapabilities v a b, 0x4303), (.scanMedia v a b, 0x4304),
      (.getScanMediaResults v, 0x4305), (.sanitize v, 0x4400), (.secureErase v, 0x4401), (.getDynamicCapacityConfiguration v, 0x4800),
      (.getDynamicCapacityExtentList v a, 0x4801), (.addDynamicCapacityResponse v es, 0x4802)] →
    ∃ t rc vals, exec c s = .next t ∧ t.out.getLast? = some (.mb v op rc vals)) ∧
  (∀ (s t : State) (v dpa pick : Nat) (d : BitVec 512) (es : List (Nat × Nat)) (x : Ext), s.MailboxOpen v → t.stall = [] →
    (∀ rc vals u, s.fresh.writeHalf v dpa none x = (rc, vals, u) → t = u.send (.mb v 0x4301 rc vals) → exec (.injectPoison v dpa x) s = .next t) ∧
    (∀ rc vals u, s.fresh.writeHalf v dpa (some d) x = (rc, vals, u) → t = u.send (.mb v 0x4302 rc vals) → exec (.clearPoison v dpa d x) s = .next t) ∧
    (s.releaseCheck v es = .success → t = (s.fresh.dropExtents v .released es).send (.mb v 0x4803 .success []) →
      exec (.releaseDynamicCapacity v es pick) s = .next t)) ∧
  (∀ (s t : State) (v pick : Nat), t.stall = [] → ((s.vd v).background = some .sanitize ∨ (s.vd v).background = some .erase) →
    t = ((s.fresh.modVd v fun x => { x with background := none }).freePages v fun _ => true).drawKey v →
    exec (.backgroundOperationDone v pick) s = .next t) ∧
  (∀ (s : State) (v c : Nat), 1 ≤ c → c ≤ 7 → exec (.vdResetTrigger v c) s = .next (s.vdTrigger v c)) ∧
  (∀ (s : State) (v pick : Nat) (x : Ext), (s.resetAt v 2 = true → exec (.vdResetTaskStop v) s = .next ((s.vdStop v).resetTo v 3)) ∧
    (s.resetAt v 3 = true → exec (.vdResetAbandon v) s = .next ((s.vdAbandon v).resetTo v 4)) ∧
    (∀ t, s.resetAt v 4 = true → t = (s.fresh.vdSweep v).resetTo v 5 → t.stall = [] → exec (.vdResetSweep v x) s = .next t) ∧
    (s.resetAt v 5 = true → s.boot.warm = 0 → exec (.vdResetComplete v pick) s = .next ((s.vdReady v).releaseHeld (v / 16) pick))) ∧
  (∀ (s : State) (v : Nat) (hi : Bool) (w : Word), s.WindowOpen v → exec (.errRingCtrlWrite v w) s = .next (s.errCtrl v w.toNat) ∧
    exec (.errRingHeadWrite v w) s = .next (s.errHead v w.toNat) ∧ exec (.errRingBaseWrite v hi w) s = .next (s.errBase v hi w.toNat)) ∧
  (∀ (s : State) (v : Nat), ((s.vd v).errRing.enable = true → exec (.errorRecordWriteFail v) s = .next (s.errFault v)) ∧
    ((s.vd v).errRing.msixBusy = true → (s.vd v).errRing.msixHeld = true → (s.vd v).errRing.tail ≠ (s.vd v).errRing.head → exec (.errRingMsixDefer v) s = .next
      ((s.send (.msix v (s.vd v).errRing.vector)).modVd v fun x => { x with errRing := { x.errRing with msixHeld := false } })) ∧
    ((s.vd v).errRing.msixBusy = true → ((s.vd v).errRing.msixHeld = false ∨ (s.vd v).errRing.tail = (s.vd v).errRing.head) → exec (.errRingMsixDefer v) s = .next
      (s.modVd v fun x => { x with errRing := { x.errRing with msixBusy := false, msixHeld := false } }))) ∧
  (∀ (s t : State) (cls c choice : Nat),
    exec (.meterLeak 0) s = .next { s with flt := { s.flt with rows := s.flt.rows.mapVal fun _ r => if r.frozen then r else { r with level := BitVec.ofNat 32 (r.level.toNat - 1) } } } ∧
    (cls ≠ 0 → exec (.meterLeak cls) s = .next { s with flt := { s.flt with meters := s.flt.meters.foldl (fun (t : Tab Meter) e =>
      if e.1 / 65536 = cls then t.setD e.1 {} (e.2.leak (leakAmount cls)) else t) s.flt.meters } }) ∧
    (t = { s with power := { s.power with interval := s.power.interval.setD c 3900 (max 975 (min 3900 choice)) } } →
      exec (.refreshLoopDecision c choice) s = .next (if s.pol.refreshCap < max 975 (min 3900 choice) then { t with slu := { t.slu with loopTug := countAt t.slu.loopTug 0 } } else t))) ∧
  (∀ (s : State) (cls i : Nat), ({ cls := cls, inst := i, step := 0 } : Retire) ∈ s.flt.retiring → s.retireBusy cls (meterDie cls i) = false →
    (∀ r ∈ s.flt.retiring, r.cls = cls → meterDie cls r.inst = meterDie cls i → r.step = 0 → i ≤ r.inst) →
    exec (.waitingRetirementStart cls i) s = .next ((s.retireTo cls i 1).startRetire (State.chargeF 8) cls i)) ∧
  (∀ (s s1 : State) (n pick : Nat), s.retireAt 4 n = 2 → (s.slice n).miss = [] → s1 = (s.modSlice n fun x => { x with retired := true, inq := [] }).endRetire 4 n →
    exec (.sliceRetired n pick) s = .next ((s.slice n).inq.foldl (fun (s : State) r => s.arrive (s.sliceOf r.line) pick r)
      { s1 with power := { s1.power with slices := s1.power.slices.setD n 0 2 } })) ∧
  (∀ (s s1 : State) (d : Nat) (known keys : List Nat),
    (s.retireAt 2 d = 3 → exec (.dieProxyWritebackDone d) s = .next ((((List.range 8).map fun i => 8 * d + i).foldl (fun (s : State) n =>
      ((s.slice n).frames.foldl (fun (s : State) e => s.sendWb (wbMsg e.2)) s).modSlice n fun x => { x with frames := [] }) s).retireTo 2 d 6)) ∧
    (s.retireAt 2 d = 6 → s.noStaging = true → s.activeDies ≠ [] → exec (.dieMetadataRestoreDone d known) s = .next s) ∧
    (s.retireAt 2 d = 6 → (s.noStaging = false ∨ s.activeDies = []) →
      keys = (((s.dir.map fun e => s.dirSet e.1).eraseDups).filter fun k => decide ((s.die (k / 2 ^ 20 / 8)).st ≠ .retired) && decide (s.inv.chanOf (s.setFrameOf k) / 32 = d)) →
      s1 = keys.foldl (fun (s : State) k => s.loseSet k known) s →
      exec (.dieMetadataRestoreDone d known) s = .next ({ s1 with flt := { s1.flt with singleCopy := decide (s1.activeDies.length ≤ 1) } }.endRetire 2 d))) ∧
  (∀ (s t : State) (ch pick : Nat), t = s.fresh.pageMovesDone ch → t.stall = [] → exec (.channelPageMovesDone ch pick) s = .next t) ∧
  (∀ (s s1 : State) (n set : Nat), set ∈ (s.slice n).lostSets →
    s1 = (s.setLines (n * 2 ^ 20 + set)).foldl (fun (s : State) l =>
      if (s.slice n).lostKnown.contains l || ((s.slice (s.liveSlice n)).missOf (s.ownLine l)).isSome then s else (s.recall (s.liveSlice n) l 65).getD s) s →
    ((s.setLines (n * 2 ^ 20 + set)).all (fun l => (s1.slice n).lostKnown.contains l) = false → exec (.lostSetSweep n set) s = .next s1) ∧
    ((s.setLines (n * 2 ^ 20 + set)).all (fun l => (s1.slice n).lostKnown.contains l) = true →
      exec (.lostSetSweep n set) s = .next ((s1.modSlice n fun x => { x with
        lostSets := x.lostSets.filter fun y => decide (y ≠ set)
        dirLostSets := BitVec.ofNat 32 (x.lostSets.filter fun y => decide (y ≠ set)).length
        lostKnown := x.lostKnown.filter fun l => !(s.setLines (n * 2 ^ 20 + set)).contains l }).relocate (n * 2 ^ 20 + set)))) ∧
  (∀ (s s1 : State) (cls : RecClass) (code unit : Nat) (c : Coalesce),
    (s.flt.coalesce.find? fun c => decide (c.cls = cls) && decide (c.code = code) && decide (c.unit = unit)) = some c →
    s1 = { s with flt := { s.flt with coalesce := s.flt.coalesce.filter fun c => !(decide (c.cls = cls) && decide (c.code = code) && decide (c.unit = unit)) } } →
    (c.withheld = 0 → exec (.logCoalesceTimer cls code unit) s = .next s1) ∧
    (c.withheld ≠ 0 → exec (.logCoalesceTimer cls code unit) s = .next (s1.post { cls := cls, code := code, unit := unit, count := c.withheld }))) ∧
  (∀ (s : State) (n units t : Nat), (s.gauge n).enable = true → (s.gauge n).period ≠ 0 → t = s.gaugeNow (s.gauge n) →
    ((t : Int) - (s.gauge n).wstart) % (s.gauge n).period = 0 →
    (gLevel (s.gauge n).src = true → exec (.gaugeSampleInstant n units) s = .next (s.modGauge n fun g => g.capture t (s.gaugeLevel n (s.gauge n)))) ∧
    (gLevel (s.gauge n).src = false → gRate (s.gauge n).src = true → gSource (s.gauge n).src ≠ 0x40 → exec (.gaugeSampleInstant n units) s = .next
      (s.modGauge n fun g => { (if g.period ≤ t then g.capture (t - g.period) units else g) with last := 0 }))) ∧
  (∀ (s : State) (m : Mmio) (w : RegWrite), s.running = true → exec (.registerWrite w) s = .next (s.hostWrite w) ∧
    (m.bad = true → exec (.unsupportedAccess m) s = .next (s.refuseAccess m))) ∧
  (∀ (s : State) (h : MctpHdr) (seq k : Nat), s.served h 0x7E = true → 0 < k → k ≤ 60 →
    exec (.logRead h 0 seq k) s = .next ((s.mgmtFree h).send (.mgmtLog h ((s.flt.logFirst + s.logPlace seq) % 2 ^ 32) ((s.flt.log.drop (s.logPlace seq)).take k))) ∧
    exec (.fatalLogRead h 0 seq k) s = .next ((s.mgmtFree h).send (.mgmtLog h (seq % 256) ((s.flt.fatal.drop (seq % 256)).take k)))) ∧
  (∀ (s : State) (h : MctpHdr) (n m : Nat) (r : Option Nat) (c : Instr) (op : Nat), s.served h 1 = true → m ∉ pldmCommands n →
    (c, op) ∈ [(Instr.getTid h, 0x02), (.setTid h n, 0x01), (.getPldmVersion h n, 0x03), (.getPldmTypes h, 0x04), (.getPldmCommands h n, 0x05),
      (.setEventReceiver h r, 0x04), (.getSensorReading h n, 0x11), (.getStateSensorReadings h n, 0x21), (.getSensorThresholds h n, 0x12),
      (.getPdrRepositoryInfo h, 0x50), (.getPdr h n, 0x51), (.pldmUnsupported h n m, m)] →
    ∃ t code vals, exec c s = .next t ∧ t.out.getLast? = some (.mgmt h op code vals)) ∧
  (∀ (s : State) (h : MctpHdr) (n : Nat) (c : Instr) (op : Nat), s.spdmServed h = true →
    (c, op) ∈ [(Instr.getVersion h, 0x84), (.getCapabilities h, 0xE1), (.negotiateAlgorithms h, 0xE3), (.getDigests h, 0x81), (.getCertificate h n, 0x82),
      (.challenge h n, 0x83), (.getMeasurements h n, 0xE0), (.keyExchange h, 0xE4), (.finish h n, 0xE5), (.endSession h n, 0xEC)] →
    ∃ t code vals, exec c s = .next t ∧ t.out.getLast? = some (.mgmt h op code vals)) ∧
  (∀ (s : State) (i : Nat) (e : PldmEvent), s.mgmt.events[i]? = some e → e.sent < 4 → s.mgmt.receiver = none →
    exec (.platformEventResend i false) s = .next { s with mgmt := { s.mgmt with events := s.mgmt.events.set i { e with sent := e.sent + 1 } } })

/-- R139, R143, R168, R172, R199, R200, R206, R208, R212, R213, R222 to R237, R239, R249 to R263, R270 to R293, R297 to R313, R319 to R335,
R346 to R408, R412 to R441, R450 to R475 and R479 to R498: each command of the slices, the queues, the engines, the Runners and the pool
has its effect in every state in which its rule lets it act. -/
def Obligations.UnitCommandsComplete : Prop :=
  (∀ (s : State) (r : Req) (pick : Nat),
    exec (.localRead r pick none) s = .next (s.localReq { r with op := .read, src := .loc } pick) ∧
    (∀ e, exec (.localRead r pick (some e)) s = .next ((s.localReq { r with op := .read, src := .loc } pick).sramError (s.sliceOf r.line) e)) ∧
    exec (.localWrite r pick) s = .next (s.localReq { r with op := .write, src := .loc } pick) ∧
    (r.fmt < 4 → exec (.localReduction r pick) s = .next (s.localReq { r with op := .red, src := .loc } pick)) ∧
    (atomicOk r.atop r.width r.off = true → exec (.sliceAtomic r pick) s = .next (s.localReq { r with op := .atomic, src := .loc } pick))) ∧
  (∀ (s : State) (gl dev pick : Nat), exec (.dramFillReturn gl pick) s = .next (s.fillReturn gl pick) ∧ exec (.memSideAtomicDone gl pick) s = .next (s.memAtomicDone gl pick)
    ∧ exec (.snoopTimeout gl dev pick) s = .next (s.snoopLost gl dev pick)) ∧
  (∀ (s : State) (m : CohMsg) (pick : Nat) (c : Instr) (op : ReqOp), s.atHome m = true → s.poolNumber m.dev = true →
    (c, op) ∈ [(Instr.rdS m pick, .rdS), (.rdX m pick, .rdX), (.upg m pick, .upg), (.rdNc m pick, .rdNc), (.wrNc m pick, .write), (.red m pick, .red), (.atom m pick, .atomic)] →
    (s.boot.warm < 2 → exec c s = .next (s.peerServe m op pick)) ∧ (2 ≤ s.boot.warm → exec c s = .next (s.holdReq (.coh m op)))) ∧
  (∀ (s : State) (m : CohMsg) (pick : Nat), s.atHome m = true → exec (.wb m pick) s = .next (s.writeBack m pick)) ∧
  (∀ (s : State) (m : CohMsg) (pick : Nat), lineDev m.line = m.dev → m.dev ≠ s.pool.devnum →
    exec (.snpInv m pick) s = .next ((s.snooped m .inv).wakeAll pick) ∧ exec (.snpData m pick) s = .next ((s.snooped m .data).wakeAll pick)
      ∧ exec (.snpCur m pick) s = .next ((s.snooped m .cur).wakeAll pick)) ∧
  (∀ (s : State) (m : CohMsg) (pick : Nat),
    exec (.rspI m pick) s = .next (s.snoopAnswer m false false false pick) ∧ exec (.rspS m pick) s = .next (s.snoopAnswer m true false false pick) ∧
    exec (.rspE m pick) s = .next (s.snoopAnswer m true false false pick) ∧ exec (.datI m pick) s = .next (s.snoopAnswer m false true false pick) ∧
    exec (.datS m pick) s = .next (s.snoopAnswer m true true false pick) ∧ exec (.datE m pick) s = .next (s.snoopAnswer m true true false pick) ∧
    exec (.fillS m pick) s = .next (s.granted1 m false false pick) ∧ exec (.fillE m pick) s = .next (s.granted1 m true false pick)) ∧
  (∀ (s : State) (m : CohMsg) (n pick : Nat) (r : Miss), s.register? m.line = some (n, r) →
    (r.phase = .snoop → r.snpDev.contains m.dev = true → exec (.rspNp m pick) s = .next
      (((s.modSlice n fun x => { x with dirStaleSnp := x.dirStaleSnp + 1 }).dropHolder (ownNum m.line) m.dev).snoopAnswer m false false m.wbPending pick)) ∧
    (r.phase = .grant → r.gnt.contains m.dev = true → (r.gnt.erase m.dev).isEmpty = true → exec (.gntAck m pick) s = .next ((State.drain n m.line pick r.waiters s).wakeAll pick)) ∧
    (r.phase = .grant → r.gnt.contains m.dev = true → (r.gnt.erase m.dev).isEmpty = false →
      exec (.gntAck m pick) s = .next (s.putMiss n m.line { r with gnt := r.gnt.erase m.dev })) ∧
    (r.upgSent = true → ((s.slice n).hit m.line).isSome = true → exec (.cmpE m pick) s = .next (s.granted1 m true true pick)) ∧
    (r.phase = .wb → exec (.wbAck m pick) s = .next ((State.drain n m.line pick r.waiters (s.wbCredit (lineDev m.line))).wakeAll pick))) ∧
  (∀ (s s1 : State) (n d : Nat), s.pool.departed.contains d = true → s1 = s.dirSweep n d →
    (s1.sweepDone n d = false → exec (.directoryDepartureSweep n d) s = .next s1) ∧
    (s1.sweepDone n d = true → exec (.directoryDepartureSweep n d) s = .next { s1 with pool := { s1.pool with
      swept := if s1.pool.swept.contains (d, n) then s1.pool.swept else s1.pool.swept ++ [(d, n)] } })) ∧
  (∀ (s s1 : State) (m : CohMsg) (x : Ext) (r : RemoteOp), s.remoteAt (fun r => decide (r.kind = .mem) && decide (r.dev = m.dev) && decide (r.line = m.line)
      && decide (r.tag = m.tag) && !(decide (r.op = .wrNc) || decide (r.op = .red))) = some (r, s1) →
    (r.op = .rdNc → (∀ p, r.src ≠ .host p) → exec (.rdDat m x) s = .next
      ((if s1.oldReply r then s1 else s1.send (.rsp r.rtag (if m.pois = 0 then .ok else .poisoned) m.data m.pois)).ncDone r x.pick)) ∧
    (r.op = .rdNc → ∀ p, r.src = .host p → exec (.rdDat m x) s = .next ((s1.hostAnswer p r.who.vd r.rtag r.era m.data m.pois .inv).ncDone r x.pick)) ∧
    (r.op = .atom → r.who.cmd = none → exec (.rdDat m x) s = .next (s1.send (.rsp r.rtag m.status m.data m.pois))) ∧
    (r.op ≠ .rdNc → r.op ≠ .atom → exec (.rdDat m x) s = .next (s1.proxyFail r.line x.pick .poisoned))) ∧
  (∀ (s s1 : State) (m : CohMsg) (x : Ext) (r : RemoteOp), m.coll = false → s.remoteAt (fun r => decide (r.kind = .mem) && decide (r.dev = m.dev) && decide (r.line = m.line)
      && decide (r.tag = m.tag) && (decide (r.op = .wrNc) || decide (r.op = .red) || decide (r.op = .atom))) = some (r, s1) →
    (r.op ≠ .atom → m.status = .ok → exec (.cmp m x) s = .next (if r.who.errRec && decide (r.epoch = (s1.vd r.who.vd).epoch) then s1.recDone r.who.vd r.who.va else s1)) ∧
    (r.op ≠ .atom → m.status ≠ .ok → exec (.cmp m x) s = .next (s1.deferredWrite r m.status x)) ∧
    (r.op = .atom → r.who.cmd = none → exec (.cmp m x) s = .next (s1.send (.rsp r.rtag m.status 0 0))) ∧
    (r.op = .atom → ∀ q, r.who.cmd = some q → exec (.cmp m x) s = .next (if s1.oldReply r then s1 else s1.whoFailed r.who m.status))) ∧
  (∀ (s t : State) (m : CohMsg) (x : Ext), m.coll = true → t = s.fresh.collAck m x → t.stall = [] → exec (.cmp m x) s = .next t) ∧
  (∀ (s : State) (q n : Nat) (c : Cmd) (t : Task), s.cmd? q = some c → c.runningOn n = some t → s.released q = true →
    exec (.release q n false) s = .next (s.modTask q n fun t => { t with relDue := false }) ∧
    exec (.release q n true) s = .next ((s.modTask q n fun t => { t with relDue := false }).modSlice n fun y => { y with l1 := [] })) ∧
  (∀ (s t : State) (q : QueueId) (pick : Nat) (x : Ext), t = s.fresh.grantEntry q pick x → t.stall = [] → exec (.sharedEntryGrant q pick x) s = .next t) ∧
  (∀ (s : State) (q pick : Nat) (x : Ext) (c : Cmd),
    (s.hopCmd q 0x20 (fun c => [c.opx % 16]) = some c → bit (c.f 0x1D 1) 1 = false →
      ∀ t, t = s.fresh.hopAlloc q c pick → t.stall = [] → exec (.hopAlloc q pick) s = .next t) ∧
    (s.hopCmd q 0x20 (fun c => [c.opx % 16, handlePool (c.f 0x20 4)]) = some c → bit (c.f 0x1D 1) 1 = true →
      ∀ t, t = s.fresh.hopAlloc q c pick → t.stall = [] → exec (.hopAdopt q pick) s = .next t) ∧
    (s.hopCmd q 0x21 (fun c => [handlePool (c.f 0x18 4)]) = some c → exec (.hopFree q) s = .next (s.hopFree q c)) ∧
    (s.hopCmd q 0x22 (fun c => [handlePool (c.f 0x18 4)]) = some c →
      ∀ t, t = s.fresh.hopQuery q c x → t.stall = [] → exec (.hopQuery q x) s = .next t) ∧
    (s.hopCmd q 0x23 (fun c => [c.opx % 16, handlePool (c.f 0x18 4)]) = some c → exec (.hopTransfer q pick) s = .next (s.hopTransfer q c pick)) ∧
    (∀ t, t = s.fresh.transferSwitch q x.pick → t.stall = [] → exec (.transferSwitch q x) s = .next t)) ∧
  (∀ (s : State) (pool i : Nat), exec (.quarantineEnd pool i) s = .next (s.quarantineEnd (hopKey pool i)) ∧ exec .hopperBackgroundPass s = .next s.hopperPass) ∧
  (∀ (s : State) (v page pick : Nat), exec (.sluiceWalk v page pick) s = .next ((s.sluiceWalk v page pick).recFlush pick)) ∧
  (∀ (s s1 : State) (v page pick f : Nat) (big : Bool) (w : Walk), s.walkOf v page = some w → w.zero = some (f, big) → s1 = (s.dropWalk v page).touchDone v page f big →
    (∀ ep e, s1.entry v page = some (ep, e) → exec (.pageZeroDone v page pick) s = .next ((s1.walkServe w.acc ep e pick).placeResume v page pick)) ∧
    (s1.entry v page = none → exec (.pageZeroDone v page pick) s = .next s1)) ∧
  (∀ (s : State) (i pick : Nat) (r : MoveReq), s.boot.warm = 0 → s.slu.wanted[i]? = some r → exec (.pageMoveStart i pick) s = .next (s.moveStart r pick)) ∧
  (∀ (s : State) (v page slot : Nat), exec (.moveAckComplete v page) s = .next (s.moveAcked v page) ∧ exec (.moveSourceFree v page) s = .next (s.moveFree v page)
    ∧ exec (.promoteDone slot) s = .next (s.promoteDone slot) ∧ exec (.demoteDone slot) s = .next (s.demoteDone slot) ∧ exec .fantailEvaluation s = .next s.fantail
    ∧ exec (.grantRevocation v slot) s = .next (s.revokeGrant v slot)) ∧
  (∀ (s t : State) (v page : Nat) (x : Ext), t = s.fresh.moveCommit v page x.pick → t.stall = [] → exec (.moveCopyDone v page x) s = .next t) ∧
  (∀ (s : State) (v page pick : Nat) (m : Move), s.moveOf v page = some m → m.step < 5 → gfDev m.src ≠ gfDev m.dst → m.fresh = false →
    exec (.moveDeadline v page pick) s = .next ((s.moveAbandon m).placeResume v page pick)) ∧
  (∀ (s : State) (q pick : Nat) (c : Cmd),
    (s.engineCmd q 0x28 = some c → rangeOk c 65536 = true → s.splits c = false → c.f 0x28 1 < 128 → c.f 0x29 1 ≤ 3 → exec (.slPlace q pick) s = .next
      ((s.modCmd q fun c => { c with st := .running }).placeGo {
        cmd := q, vd := c.vd, next := c.addr / 65536, stop := (c.addr + c.len) / 65536, dev := c.f 0x28 1
        alloc := bit (c.f 0x29 1) 0, pin := bit (c.f 0x29 1) 1 } pick)) ∧
    (s.engineCmd q 0x28 = some c → (rangeOk c 65536 = false ∨ s.splits c = true ∨ 128 ≤ c.f 0x28 1 ∨ 3 < c.f 0x29 1) →
      exec (.slPlace q pick) s = .next (s.engineDone q .invalidField)) ∧
    (s.engineCmd q 0x29 = some c → exec (.slPin q) s = .next (s.slPin q c true)) ∧
    (s.engineCmd q 0x2A = some c → exec (.slUnpin q) s = .next (s.slPin q c false))) ∧
  (∀ (s : State) (q : Nat) (x : Ext) (c : Cmd), s.engineCmd q 0x2B = some c →
    ((rangeOk c 65536 = false ∨ s.fresh.splits c = true ∨ 64 < s.fresh.pagesIn c.vd 65 (c.addr / 65536) ((c.addr + c.len) / 65536)) →
      exec (.slQuery q x) s = .next (s.fresh.engineDone q .invalidField)) ∧
    (∀ t, t = s.fresh.slQuery q c x → t.stall = [] → exec (.slQuery q x) s = .next t)) ∧
  (∀ (s s1 : State) (q pick : Nat) (c : Cmd), s.engineCmd q 0x2C = some c → rangeOk c 2097152 = true → 2 ^ 30 ≤ c.len → c.len ≤ 2 ^ 32 →
    (s.slu.pt.any fun e => decide (e.1 / 2 ^ 26 = c.vd) && decide (c.addr / 65536 ≤ e.1 % 2 ^ 26) && decide (e.1 % 2 ^ 26 < (c.addr + c.len) / 65536)
      && decide (e.2.kind = .migrating)) = false → s1.stall = [] →
    (∀ st, State.grantTouch c.vd pick (c.len / 65536) (c.addr / 65536) s.fresh = (some st, s1) → exec (.slGrant q pick) s = .next (s1.engineDone q st)) ∧
    (State.grantTouch c.vd pick (c.len / 65536) (c.addr / 65536) s.fresh = (none, s1) →
      ((List.range 1024).find? (fun k => (s1.slu.grants.find k).isNone) = none → exec (.slGrant q pick) s = .next (s1.engineDone q .noGrant)) ∧
      (∀ k key s2, (List.range 1024).find? (fun k => (s1.slu.grants.find k).isNone) = some k → key = s1.draw.1.setWidth 32 → s2 = s1.draw.2 →
        exec (.slGrant q pick) s = .next ({ s2 with slu := { s2.slu with
          grants := s2.slu.grants.put k { vd := c.vd, epoch := (s.vd c.vd).epoch, va := c.addr, len := c.len, readOnly := bit c.opx 0, key := key } } }.engineDone q .ok (k + key.toNat * 2 ^ 32))))) ∧
  (∀ (s : State) (q : Nat) (c : Cmd), s.engineCmd q 0x2D = some c →
    (∀ g, s.slu.grants.find (c.f 0x18 2) = some g → g.vd = c.vd → exec (.slRevoke q) s = .next ((s.endGrant (c.f 0x18 2)).engineDone q .ok)) ∧
    ((∀ g, s.slu.grants.find (c.f 0x18 2) = some g → g.vd ≠ c.vd) → exec (.slRevoke q) s = .next (s.engineDone q .notGranted))) ∧
  (∀ (s s1 : State) (q : Nat) (c : Cmd) (key : Word), s.engineCmd q 0x2E = some c → rangeOk c 2097152 = true → c.f 0x28 1 < 128 → key = BitVec.ofNat 32 (c.f 0x2C 4) →
    (∀ i < c.len / 65536, s.inExtent c.vd ((c.addr / 65536 + i) * 65536) = true ∧ s.entry c.vd (c.addr / 65536 + i) = none) →
    (∀ fs, c.f 0x28 1 = s.pool.devnum → s.attachCheck (c.f 0x28 1) c.vd (c.f 0x2A 2) c.len key (bit c.opx 0) c.addr = (some fs, s1) →
      exec (.slAttach q) s = .next (s1.attachEnd q c.vd (c.f 0x28 1) (c.f 0x2A 2) (bit c.opx 0) (c.addr / 65536) fs)) ∧
    (c.f 0x28 1 = s.pool.devnum → s.attachCheck (c.f 0x28 1) c.vd (c.f 0x2A 2) c.len key (bit c.opx 0) c.addr = (none, s1) →
      exec (.slAttach q) s = .next (s1.engineDone q .notGranted)) ∧
    (c.f 0x28 1 ≠ s.pool.devnum → s.gone (c.f 0x28 1) = true → exec (.slAttach q) s = .next (s.engineDone q .deviceGone)) ∧
    (c.f 0x28 1 ≠ s.pool.devnum → s.gone (c.f 0x28 1) = false → exec (.slAttach q) s = .next
      ((s.sendRemote { kind := .sl, dev := c.f 0x28 1, tag := q, who := c.who q, epoch := c.epoch }
        (.sl (c.f 0x28 1) (.attach c.vd q (c.f 0x2A 2) c.len key (bit c.opx 0)))).modCmd q fun c => { c with st := .running }))) ∧
  (∀ (s s1 : State) (q : Nat) (c : Cmd), s.engineCmd q 0x2F = some c → rangeOk c 2097152 = true →
    (State.detachRun c.vd (c.len / 65536) (c.addr / 65536) s = (true, s1) → exec (.slDetach q) s = .next (s1.engineDone q .ok)) ∧
    (State.detachRun c.vd (c.len / 65536) (c.addr / 65536) s = (false, s1) → exec (.slDetach q) s = .next (s1.engineDone q .badAddress))) ∧
  (∀ (s : State) (v ring reg : Nat) (w : Word), s.WindowOpen v → exec (.ringDb v ring w) s = .next (s.ringDb v (ring % 16) w)
    ∧ exec (.cqDb v ring w) s = .next (s.cqDb v (ring % 16) w) ∧ exec (.ringCtrlWrite v ring w) s = .next (s.ringCtrl v (ring % 16) w)
    ∧ exec (.ringBaseWrite v ring reg w) s = .next (s.ringBase v (ring % 16) (reg % 4) w)) ∧
  (∀ (s : State) (v : Nat) (w : DWord), s.WindowOpen v →
    (field w.toNat 48 2 = 0 → exec (.cancelTag v w) s = .next (s.cancelWrite v w)) ∧ (field w.toNat 48 2 = 1 → exec (.cancelStream v w) s = .next (s.cancelWrite v w)) ∧
    (field w.toNat 48 2 = 2 → exec (.cancelRing v w) s = .next (s.cancelWrite v w)) ∧ (field w.toNat 48 2 = 3 → exec (.cancelAllRings v w) s = .next (s.cancelWrite v w))) ∧
  (∀ (s : State) (v ring : Nat) (x : Ext),
    (s.mayRead v = true → s.nextRing v = some ring → s.slotNow v = false → exec (.descriptorRead v ring x) s = .next (s.waitShared .tasks v ring)) ∧
    (∀ t, s.mayRead v = true → s.nextRing v = some ring → s.slotNow v = true → t = s.fresh.readEntry v ring x → t.stall = [] → exec (.descriptorRead v ring x) s = .next t) ∧
    (∀ t, 0 < (s.ring v ring).captured → (s.ring v ring).cqFree = true → (s.vd v).st = .ready → s.boot.warm = 0 → t = s.fresh.readCaptured v ring x → t.stall = [] →
      exec (.capturedEntryRead v ring x) s = .next t) ∧
    ((s.ring v ring).cqLost = none → 0 < (s.ring v ring).reserved →
      exec (.completionWriteFail v ring x) s = .next (s.cqFaulted v ring .poisoned (s.ring v ring).cqAddr x)) ∧
    (∀ a, (s.ring v ring).cqLost = some a → exec (.completionWriteFail v ring x) s = .next
      ((s.modRing v ring fun r => { r with cqLost := none }).cqFaulted v ring .poisoned a x))) ∧
  (∀ (s : State) (q : Nat) (x : Ext) (c : Cmd), s.cmd? q = some c →
    (c.queued = true → c.decoded = false → s.startOk q c = true → exec (.commandDecode q) s = .next (s.decode q c)) ∧
    (c.queued = true → c.decoded = false → c.opcode = 0x48 → s.startOk q c = true → exec (.serviceCall q) s = .next (s.decode q c)) ∧
    (∀ t, c.queued = true → c.decoded = true → s.current c = true → t = s.fresh.ready q c x → t.stall = [] → exec (.commandReady q x) s = .next t) ∧
    (s.current c = true → c.uncreated ≠ [] → c.ownSlot = true → exec (.taskCreate q) s = .next (s.createTask q c)) ∧
    (s.current c = true → c.uncreated ≠ [] → c.ownSlot = false → s.createFirst q c = true → s.useTask c.vd < s.quotaTask c.vd →
      (s.slotNow c.vd = true → exec (.taskCreate q) s = .next (s.createTask q c)) ∧ (s.slotNow c.vd = false → exec (.taskCreate q) s = .next (s.waitShared .tasks c.vd (16 + q))))) ∧
  (∀ (s s1 : State) (n pick : Nat), s.sliceUp n = true → s1 = s.stage n pick →
    (s1.tasksAt n .running ≠ [] → exec (.taskLaunch n pick) s = .next s1) ∧ (s1.tasksAt n .running = [] → s1.tasksAt n .staged = [] → exec (.taskLaunch n pick) s = .next s1) ∧
    (∀ q t ts c, s1.tasksAt n .running = [] → s1.tasksAt n .staged = (q, t) :: ts → s1.cmd? q = some c → exec (.taskLaunch n pick) s = .next (s1.launch q n c))) ∧
  (∀ (s t : State) (q n : Nat) (x : Ext), t = s.fresh.taskTerminate q n x → t.stall = [] → exec (.taskTerminate q n x) s = .next t) ∧
  (∀ (s : State) (q : Nat) (c : Cmd), (s.engineCmd q 1 = some c → exec (.nop q) s = .next (s.engineDone q .ok)) ∧ (s.engineCmd q 2 = some c → exec (.fence q) s = .next (s.engineDone q .ok))) ∧
  (∀ (s u : State) (q n : Nat) (x : Ext) (c : Cmd) (t : Task), s.cmd? q = some c → s.taskOn q c n = some t → t.cancel = false →
    (c.opcode = 0x13 → c.old.isSome = true → exec (.atomic q n x) s = .next ((s.fresh.atomTake q n c.width).readDescs q n c)) ∧
    (∀ a ga s1, c.opcode = 0x13 → c.old = none → s.atomOut q = false → c.ref 0x18 = .va a →
      s.fresh.translate c.vd a (decide (c.atop ≠ 0)) { x with via := 8 + n } = (.ok ga, s1) →
      u = (s1.lineAtom (ga / 128) (ga % 128) c { c.who q with va := a, slice := some n } x.pick).atomTake q n c.width → u.stall = [] →
      exec (.atomic q n x) s = .next (u.readDescs q n c)) ∧
    (∀ h o a, c.opcode = 0x13 → c.old = none → s.atomOut q = false → c.ref 0x18 = .blk h o → t.held ≠ [] → o + c.width / 8 ≤ s.blkSize h →
      (s.hpool (handlePool h)).kind ≠ 1 → a = s.poolByte (handlePool h) (s.blkOff h o) →
      u = (s.fresh.lineAtom (s.ownLine (a / 128)) (a % 128) c { c.who q with va := boundsAddr o, slice := some n } x.pick).atomTake q n c.width →
      u.stall = [] → exec (.atomic q n x) s = .next (u.readDescs q n c)) ∧
    (c.opcode = 0x30 → s.runners.find n = none → exec (.matmul q n) s = .next ((s.startBay q n c t).readDescs q n c)) ∧
    (c.opcode = 0x38 → s.runners.find n = none → exec (.embGather q n x) s = .next ((s.startBay q n c t).readDescs q n c)) ∧
    (∀ r, c.opcode = 0x38 → s.runners.find n = some r → u = s.fresh.gatherStep q n c t r x → u.stall = [] → exec (.embGather q n x) s = .next u)) ∧
  (∀ (s u : State) (n wait : Nat) (err : Bool) (x : Ext) (r : Runner) (c : Cmd) (t : Task), s.runnerOn n 0x30 = some (r, c, t) →
    (u = s.fresh.loadTile n r c t x → u.stall = [] → exec (.localTileLoaded n x) s = .next u) ∧
    (u = s.fresh.tileAttempt n r c t x → u.stall = [] → exec (.runnerTileAttempt n false x) s = .next u) ∧
    (u = ((s.fresh.tileAttempt n r c t x).tileError n).charge 4 n 64 → u.stall = [] → exec (.runnerTileAttempt n true x) s = .next u) ∧
    (∀ y leave, r.cur = some y → y.phase = .spill leave → exec (.spill n) s = .next (s.spillTile n r c t y leave)) ∧
    (∀ y, r.cur = some y → y.phase = .swap → exec (.accSetSwap n wait) s = .next (s.swapSets n r (s.planOf c) t y wait))) ∧
  (∀ (s u : State) (n : Nat) (x : Ext) (r : Runner) (c : Cmd) (t : Task) (sh : Shadow), s.runners.find n = some r → s.cmd? r.cmd = some c → r.shadow = some sh →
    s.taskOn r.cmd c n = some t → u = s.fresh.drainDone n r c t sh x → u.stall = [] → exec (.drainDone n x) s = .next u) ∧
  (∀ (s : State) (q pick : Nat) (c : Cmd), s.penCmd q 0 = some c → s.binding c.vd c.pen = none → (s.vd c.vd).bind.length < s.quotaPen c.vd →
    s.penPresent pick = true → (s.penn pick).st = .free → exec (.penLease q pick) s = .next
      (((s.setPenn pick { count := BitVec.ofNat 48 c.value, owner := c.vd, st := .leased, epochPar := (s.vd c.vd).epoch.getLsbD 0 }).setBinding c.vd c.pen (.lease pick false)).penDone q .ok c.value)) ∧
  (∀ (s : State) (q p pick : Nat) (c : Cmd), s.binding c.vd c.pen = some (.lease p false) →
    (s.penCmd q 1 = some c → exec (.penDrop q) s = .next (((s.unbind c.vd c.pen).penAbandon p).penDone q .ok)) ∧
    (s.penCmd q 2 = some c → exec (.penSignal q) s = .next ((s.penAdd p c.value).penDone q .ok ((s.penAdd p c.value).penn p).count.toNat)) ∧
    (s.penCmd q 3 = some c → exec (.penReset q) s = .next
      (((s.setPenn p { s.penn p with count := BitVec.ofNat 48 c.value, saturated := false }).checkWaits p).penDone q .ok c.value)) ∧
    (s.penCmd q 4 = some c → exec (.penRead q) s = .next (s.penDone q .ok (s.penn p).count.toNat)) ∧
    (s.penCmd q 5 = some c → exec (.penArm q) s = .next (s.penArm q c p)) ∧
    (∀ k e, s.penCmd q 6 = some c → s.exportOf p = some (k, e) → exec (.penExport q pick) s = .next (s.penDone q .ok (ticketOf k s.ticketOwn e.key))) ∧
    (∀ k key s1, s.penCmd q 6 = some c → s.exportOf p = none → pickFrom ((List.range 1024).filter fun k => (s.pen.exports.find k).isNone) pick = some k →
      key = s.draw.1.setWidth 31 → s1 = s.draw.2 → exec (.penExport q pick) s = .next
        ({ s1 with pen := { s1.pen with exports := s1.pen.exports.put k { pen := p, key := key } } }.penDone q .ok (ticketOf k s.ticketOwn key))) ∧
    (s.penCmd q 8 = some c → exec (.penUnexport q) s = .next ((s.revokeExport p).penDone q .ok))) ∧
  (∀ (s : State) (q t : Nat) (c : Cmd), s.binding c.vd c.pen = some (.imported t false) → ticketDev t ≠ s.pool.devnum →
    (s.penCmd q 1 = some c → exec (.penDrop q) s = .next (((s.unbind c.vd c.pen).sendRemote
      { kind := .pen, dev := ticketDev t, tag := q, who := c.who q, epoch := c.epoch, posted := true } (.penReq (ticketDev t) c.vd q 1 t 0)).penDone q .ok)) ∧
    (s.penCmd q 2 = some c → exec (.penSignal q) s = .next (s.penRemote q c 2 t c.value)) ∧ (s.penCmd q 4 = some c → exec (.penRead q) s = .next (s.penRemote q c 4 t 0)) ∧
    (s.penCmd q 5 = some c → exec (.penArm q) s = .next (s.armRemote q c t))) ∧
  (∀ (s s1 : State) (q n : Nat) (c : Cmd), s.penCmd q 7 = some c → s.binding c.vd c.pen = none → (s.vd c.vd).bind.length < s.quotaPen c.vd →
    (ticketDev c.value = s.pool.devnum → s.importCheck c.value s.pool.devnum c.vd = (some n, s1) →
      exec (.penImport q) s = .next ((s1.setBinding c.vd c.pen (.imported c.value false)).penDone q .ok n)) ∧
    (ticketDev c.value = s.pool.devnum → s.importCheck c.value s.pool.devnum c.vd = (none, s1) → exec (.penImport q) s = .next (s1.penDone q .notGranted)) ∧
    (ticketDev c.value ≠ s.pool.devnum → exec (.penImport q) s = .next (s.penRemote q c 7 c.value 0))) ∧
  (∀ (s : State) (d pick i : Nat) (a : Arb) (g : FlumeRun) (ws from_ : List FlumeRun), (s.flumeOf d).run = none →
    ws = (s.flumeOf d).waiting.filter s.runAlive → from_ = (if (ws.filter s.runBegun).isEmpty then ws else ws.filter s.runBegun) →
    (s.flumeOf d).arb.choose (from_.map fun r => s.ask r.vd) pick = some (i, a) → from_[i]? = some g →
    exec (.flumeRunGrant d pick) s = .next ((s.dieClockOn d).setFlume d { s.flumeOf d with run := some g, waiting := ws.erase g, arb := a })) ∧
  (∀ (s s1 : State) (d wait : Nat) (g : FlumeRun), (s.flumeOf d).run = some g →
    (0 < g.periods → g.total ≤ g.periods → exec (.flumeRunEnd d wait) s = .next
      ((s.setFlume d { s.flumeOf d with run := none, runs := (s.flumeOf d).runs + 1 }).gaugeEvent 0x31 d none g.slips)) ∧
    (¬ (0 < g.periods ∧ g.total ≤ g.periods) → s.runBroken d g = true →
      s1 = (s.setFlume d { s.flumeOf d with wait := (s.flumeOf d).wait + BitVec.ofNat 32 wait }).runOver d g true →
      exec (.flumeRunEnd d wait) s = .next (if g.reduce then (s.runSlices g).foldl (fun (s : State) n => s.dropUnsummed n g.cmd) s1 else s1))) ∧
  (∀ (s : State) (d wait slips : Nat) (g : FlumeRun) (c : Cmd) (rec : FlumeRec) (u : State), (s.flumeOf d).run = some g → s.cmd? g.cmd = some c →
    s.img.flumes.find (s.planOf c).flume = some rec → s.runReady d g c = true →
    u = (if g.reduce then s.reducePeriod d g c rec.fmt (rec.variant g.anchor) else s.multicastPeriod d g c (rec.variant g.anchor)) →
    exec (.flumePeriodStart d wait slips) s = .next (u.setFlume d { u.flumeOf d with
      run := (u.flumeOf d).run.map fun h => { h with
        periods := h.periods + 1, total := if g.periods = 0 then s.runPeriods d g c else g.total, slips := h.slips + slips }
      slip := (u.flumeOf d).slip + BitVec.ofNat 32 slips, wait := (u.flumeOf d).wait + BitVec.ofNat 32 wait })) ∧
  (∀ (s : State) (k out : Nat) (ms new : List RaceMsg) (cr : List Nat) (r0 r r1 : Race) (m : RaceMsg), (8 ≤ k ∨ (s.die k).st = .active) →
    s.racePort k out = true → r0 = (s.races.getD k {}).returned out cr →
    new = (ms.map fun m => { m with out := out }).filter (fun m => s.racePort k m.inp && m.carried k) → r = { r0 with waiting := r0.waiting ++ new } →
    (r.choose out (r.waiting.filter fun m => decide (m.out = out) && decide (r.used.getD (out * 8 + m.cls) 0 < Config.raceCredits k m.cls + 1)) = some (m, r1) →
      exec (.raceGrant k out ms cr) s = .next ((s.dieClockOn k).setRace k { r1 with waiting := r1.waiting.erase m })) ∧
    (r.choose out (r.waiting.filter fun m => decide (m.out = out) && decide (r.used.getD (out * 8 + m.cls) 0 < Config.raceCredits k m.cls + 1)) = none →
      exec (.raceGrant k out ms cr) s = .next (s.setRace k r))) ∧
  (∀ (s x : State) (p lanes pre up : Nat) (late : Bool), x = s.linkSync →
    ((s.hylPort p).st = .detect → 2 ≤ popCount 8 lanes → exec (.hylDetectPoll p lanes) s = .next
      (s.modHyl p fun x => { x with
        st := .train, trained := 0, seen := [], sentSeen := [], peerNext := none, peerUsable := 0, peerPort := none
        reversed := false, inverted := 0, precodeRx := 0, precodeTx := 0, taps := [], eqReq := [], eqSts := [] })) ∧
    ((x.hylPort p).st = .train → up = packBits 8 (fun l => bit (lanes % 256 &&& (255 ^^^ ((x.hylPort p).retired &&& 255))) l && (x.hylPort p).laneSeen l) →
      2 ≤ popCount 8 up → exec (.hylTrainDone p lanes late pre) s = .next (x.modHyl p fun y => { y with
        st := .config, trained := up, precodeRx := pre % 256, seen := [], sentSeen := [] })) ∧
    (∀ set, (x.hylPort p).st = .config → chooseSet 255 ((x.hylPort p).trained &&& (x.hylPort p).peerUsable &&& (255 ^^^ ((x.hylPort p).retired &&& 255))) = some set →
      (x.hylPort p).blocksSeen set = true → exec (.hylConfigDone p) s = .next ((x.freshLink p set).pump p)) ∧
    ((x.hylPort p).st = .config → chooseSet 255 ((x.hylPort p).trained &&& (x.hylPort p).peerUsable &&& (255 ^^^ ((x.hylPort p).retired &&& 255))) = none →
      exec (.hylConfigDone p) s = .next (x.modHyl p fun y => { y with st := .detect }))) ∧
  (∀ (s x : State) (p lane lanes : Nat), x = s.linkSync →
    ((s.hylPort p).st = .l0 → bit (s.hylPort p).active lane = true → exec (.laneLockLoss p lane) s = .next (s.recover p)) ∧
    ((s.hylPort p).st = .l0 → exec (.noFlitTimeout p) s = .next (s.recover p)) ∧
    ((s.hylPort p).st = .l0 → exec (.replayTimeout p) s = .next (x.replayNow p)) ∧
    ((s.hylPort p).st = .recovery → exec (.recoveryAttemptTimeout p) s = .next (x.attempt p ((s.hylPort p).attempt + 1))) ∧
    (((s.hylPort p).st = .widthChange ∨ (s.hylPort p).st = .l1 ∨ (s.hylPort p).st = .l1d) → exec (.relockFail p) s = .next (x.attempt p 1)) ∧
    ((s.hylPort p).st = .down → exec (.hylDownTimer p) s = .next (s.modHyl p fun x => { x with st := .detect, trained := 0 })) ∧
    ((s.hylPort p).st = .l0 → (s.hylPort p).want = some lanes → exec (.wack p lanes) s = .next (x.enterWidth p lanes)) ∧
    ((s.hylPort p).st = .l0 → (s.hylPort p).pmWait = true → exec (.pmAck p) s = .next (x.enterL1 p)) ∧
    exec (.pmNak p) s = .next (s.modHyl p fun x => { x with pmWait := false }) ∧
    ((s.hylPort p).st = .l1 → exec (.l1ToL1d p) s = .next (s.modHyl p fun x => { x with st := .l1d })) ∧
    (((s.hylPort p).st = .l1 ∨ (s.hylPort p).st = .l1d) → exec (.hylWake p) s = .next
      (((x.modHyl p fun x => { x with st := .l0, txScr := scrSeeds, rxScr := scrSeeds }).pump p).hylWant p)) ∧
    (bit s.pol.hylEqHold p = true → exec (.equalisationDecision p true) s = .next { s with slu := { s.slu with loopTug := countAt s.slu.loopTug 1 } })) ∧
  (∀ (s x : State) (p lanes serial : Nat) (dn : Option Nat) (w : FlitWire), x = s.linkSync →
    ((x.hylPort p).st = .l0 → exec (.flitReceive p w) s = .next ((x.modHyl p fun y => { y with rxScr := scrFlit (x.hylPort p).active (x.hylPort p).rxScr }).flitTaken p
      (readFlit (x.hylPort p).active (x.hylPort p).rxScr (fixPolarity (x.hylPort p).inverted w)))) ∧
    ((x.hylPort p).st = .l0 → (x.hylPort p).own = false → candidateSets.contains lanes = true → lanes &&& (x.hylPort p).active = lanes →
      exec (.wreq p lanes dn serial) s = .next ((x.putControl p 2 lanes).enterWidth p lanes)) ∧
    (∀ n, (x.hylPort p).st = .widthChange → (x.hylPort p).blocksSeen (x.hylPort p).active = true → (x.hylPort p).peerNext = some n → (x.hylPort p).inRange n = true →
      exec (.widthChangeDone p) s = .next (x.resume p n)) ∧
    (∀ n, (x.hylPort p).st = .widthChange → (x.hylPort p).blocksSeen (x.hylPort p).active = true → (x.hylPort p).peerNext = some n → (x.hylPort p).inRange n = false →
      exec (.widthChangeDone p) s = .next (x.reconfigure p)) ∧
    (x.hylIdle p = true → exec (.hylIdleTimer p) s = .next ((x.modHyl p fun x => { x with pmWait := true }).putControl p 3 0)) ∧
    ((x.hylPort p).st = .l0 → (x.hylPort p).pmWait = true → exec (.pmReq p) s = .next (x.enterL1 p)) ∧
    ((x.hylPort p).st = .l0 → (x.hylPort p).pmWait = false → x.hylIdle p = true → exec (.pmReq p) s = .next ((x.putControl p 4 0).enterL1 p)) ∧
    ((x.hylPort p).st = .l0 → (x.hylPort p).pmWait = false → x.hylIdle p = false → exec (.pmReq p) s = .next (x.putControl p 5 0))) ∧
  (∀ (s s1 : State) (i : Nat) (x : Ext) (r : RemoteOp), s.pool.remote[i]? = some r → s1 = s.dropRemote r →
    exec (.remoteOpTimeout i x) s = .next ({ s1 with pool := { s1.pool with timeoutCnt := s1.pool.timeoutCnt + 1 } }.opFailed r x)) ∧
  (∀ (s s1 : State) (f : Flood) (serial n d : Nat) (ok : Bool) (off : Int) (links : List (Nat × Option Nat)) (x : Ext),
    (s.linkSync.floodIn 2 f [serial] = some s1 → s1.pool.lowest = none → exec (.elect f serial) s = .next (s1.elect (some serial))) ∧
    (∀ a, s.linkSync.floodIn 2 f [serial] = some s1 → s1.pool.lowest = some a → exec (.elect f serial) s = .next (if serial < a then s1.elect (some serial) else s1)) ∧
    (s.linkSync.floodIn 3 f [serial] = some s1 → exec (.joinReq f serial links) s = .next ({ s1 with pool := { s1.pool with candidates := s1.pool.candidates.put serial links } }.coordinate)) ∧
    (s.linkSync.floodIn 4 f [serial, n, 1] = some s1 → (s1.pool.st ≠ .member ∨ s1.pool.devnum ≠ n ∨ serial = s1.fuses.serial) →
      exec (.poolMember f serial n true off x) s = .next (s1.joined serial n off)) ∧
    (s.linkSync.floodIn 4 f [serial, n, 0] = some s1 → s1.pool.st = .member → s1.pool.devnum = n → exec (.poolMember f serial n false off x) s = .next (s1.isolate x)) ∧
    (s.linkSync.floodIn 4 f [serial, n, 0] = some s1 → (s1.pool.st ≠ .member ∨ s1.pool.devnum ≠ n) → exec (.poolMember f serial n false off x) s = .next (s1.depart n x)) ∧
    (s.linkSync.floodIn 5 f [n, d, b2n ok] = some s1 → exec (.linkState f n d ok) s = .next { s1 with pool := { s1.pool with
      usable := if ok then (s1.pool.usable.filter fun u => decide (u ≠ (n, d))) ++ [(n, d)] else s1.pool.usable.filter fun u => decide (u ≠ (n, d)) } }) ∧
    (s.linkSync.floodIn 6 f [d] = some s1 → exec (.leave f d x) s = .next (s1.declareGone d x)) ∧
    (s.linkSync.floodIn 7 f [n, d] = some s1 → exec (.sweepDone f n d) s = .next ({ s1 with pool := { s1.pool with
      reported := if s1.pool.reported.contains (n, d) then s1.pool.reported else s1.pool.reported ++ [(n, d)] } }.coordinate))) ∧
  (∀ (s : State) (d p : Nat) (x : Ext),
    (s.eligible = true → s.img.pooled = true → s.pool.coord = false → (∀ a, s.pool.lowest = some a → s.fuses.serial ≤ a) →
      exec .electTimeout s = .next ({ s with pool := { s.pool with coord := true, lowest := some s.fuses.serial } }.coordinate)) ∧
    (s.pool.st = .joining → s.floodPorts ≠ [] → s.pool.leaving = false → exec .joinReqTimer s = .next (s.floodOut 3 (s.fuses.serial :: s.poolLinks.map (·.1))).linkSync) ∧
    ((∀ u ∈ s.pool.usable, u.2 ≠ d) → d ≠ s.pool.devnum → exec (.departureTimer d x) s = .next (s.linkSync.declareGone d x)) ∧
    (s.pool.st = .member → s.floodPorts = [] → exec (.isolationTimer x) s = .next (s.isolate x)) ∧
    ((s.hylPort p).st = .l0 → exec (.helloTimer p) s = .next (s.sendHello p).linkSync) ∧
    exec .timeSyncTimer s = .next (s.floodPorts.foldl (fun (s : State) p => s.send (.link p 8 [])) s).linkSync ∧
    (s.floodPorts.contains p = true → exec (.timeReq p) s = .next (s.send (.link p 9 [s.poolTime])).linkSync) ∧
    (s.floodPorts.contains p = true → s.pool.st = .member → ∀ delta, exec (.timeRsp p delta true) s = .next { s with pool := { s.pool with
      slew := clampInt (-1000) 1000 delta, aligned := s.pool.aligned || (decide (-20 ≤ delta) && decide (delta ≤ 20)) } })) ∧
  (∀ (s s1 : State) (d : Nat), s.pool.departed.contains d = true → s1 = s.sluiceSweep d → s.pool.reported.contains (s.pool.devnum, d) = false →
    (∀ n ∈ s.inv.slices, (s.die (n / 8)).st ≠ .retired → s.pool.swept.contains (d, n) = true) →
    exec (.departureSweepDone d) s = .next ({ s1 with pool := { s1.pool with reported := s1.pool.reported ++ [(s.pool.devnum, d)] } }.floodOut 7 [s.pool.devnum, d]).coordinate) ∧
  (∀ (s : State) (d op tag line : Nat) (x : Ext), (0x10 ≤ op → op ≤ 0x12 → line ≠ 0 → exec (.unreach d op tag line x) s = .next (s.snoopLost line d x.pick)) ∧
    (0x18 ≤ op → exec (.unreach d op tag 0 x) s = .next
      ((s.colls.filter fun c => (c.group s.pool.devnum).contains d).foldl (fun (s : State) c => s.collEnd c.cmd .faulted .deviceGone) s)) ∧
    (∀ r, ¬ (0x10 ≤ op ∧ op ≤ 0x12 ∧ line ≠ 0) → ¬ (0x18 ≤ op ∧ line = 0) → s.pool.remote.find? (fun r => decide (r.dev = d) && decide (r.tag % 65536 = tag % 65536) && (match r.kind with
      | .mem => decide (r.op.code = op) && decide (r.line = line) | .pen => decide (op = 0x11) | .sl => decide (op = 0x13) | .coll => false)) = some r →
      exec (.unreach d op tag line x) s = .next ((s.dropRemote r).opFailed r x))) ∧
  (∀ (s : State) (w : Who) (m : CohMsg) (ws : List (Who × CohMsg)), s.pool.depWait = (w, m) :: ws →
    exec .departedWriteEntryAge s = .next (({ s with pool := { s.pool with depWait := ws } }.postNow w m).getD s)) ∧
  (∀ (s : State) (d v tag op ticket value qos : Nat) (m : SlMsg) (x : Ext),
    (s.boot.warm < 2 → exec (.penReq d v tag op ticket value qos) s = .next (s.penServe d v tag op ticket value qos)) ∧
    (2 ≤ s.boot.warm → exec (.penReq d v tag op ticket value qos) s = .next (s.holdReq (.pen d v tag op ticket value qos)) ∧ exec (.slReq d m x) s = .next (s.holdReq (.sl d m))) ∧
    (∀ t, s.boot.warm < 2 → t = s.fresh.slServe d m x.pick → t.stall = [] → exec (.slReq d m x) s = .next t)) ∧
  (∀ (s s1 : State) (d v tag n : Nat) (st : Status) (r : RemoteOp), s.penOp d tag v = some (r, s1) → s.oldReply r = false →
    exec (.penRsp d v tag (.wake st n)) s = .next (s1.woken v tag st n) ∧
    (∀ c, s1.cmd? tag = some c → exec (.penRsp d v tag .recorded) s = .next (if c.wait = .registered then s1.armRecorded tag c else s1)) ∧
    exec (.penRsp d v tag .dropped) s = .next (s1.modVd v fun x => { x with penDropCnt := x.penDropCnt + 1 }) ∧
    (∀ c, r.posted = false → s1.cmd? tag = some c → c.opcode = 3 → c.st ≠ .queued → (c.opx ≠ 7 ∨ st ≠ .ok) → exec (.penRsp d v tag (.answer st n)) s = .next
      ((s1.penDone tag st n).modCmd tag fun c => { c with wait := .met })) ∧
    (∀ c, r.posted = false → s1.cmd? tag = some c → c.opcode = 3 → c.st ≠ .queued → c.opx = 7 →
      exec (.penRsp d v tag (.answer .ok n)) s = .next (s1.imported tag c d n))) ∧
  (∀ (s s1 : State) (d tag f k : Nat) (x : Ext) (r : RemoteOp) (c : Cmd) (lines : List RemLine), exec (.slRsp d (.page f k lines) x) s = .next (s.pageLands f k lines) ∧
    (s.remoteAt (fun r => decide (r.kind = .sl) && decide (r.dev = d) && decide (r.tag = tag)) = some (r, s1) → s.oldReply r = false → s1.cmd? tag = some c →
      exec (.slRsp d (.attached tag none) x) s = .next (s1.engineDone tag .notGranted) ∧
      ∀ fs, exec (.slRsp d (.attached tag (some fs)) x) s = .next (s1.attachEnd tag c.vd d (c.f 0x2A 2) (bit c.opx 0) (c.addr / 65536) fs))) ∧
  (∀ (s u : State) (q : Nat) (x : Ext) (m : Cmd) (t : Task) (c : Coll), s.cmd? q = some m → m.opcode = 0x40 → s.coll? q = none → t ∈ m.tasks → t.st = .running → t.fin = none →
    c = { cmd := q, seq := m.f 0x2C 4, kind := m.opx % 4, fmt := m.opx / 4, count := m.f 0x20 8, dims := bitsOf 7 (m.f 0x28 2), plane := bit (m.f 0x28 2) 7, parts := [] } →
    u = (List.range c.g).foldl (fun (s : State) j => s.collBegin q j x) { s.fresh with colls := s.colls ++ [{ c with parts := List.replicate c.g {} }] } → u.stall = [] →
    exec (.collective q x) s = .next u) ∧
  (∀ (s u : State) (r : CollReady) (x : Ext), (∀ c j, s.collOf r.seq r.dev r.bridge r.step = some (c, j) → (c.part j).partner = false →
      u = s.fresh.collMeet c.cmd j r x → u.stall = [] → exec (.collReady r x) s = .next u) ∧
    (s.collOf r.seq r.dev r.bridge r.step = none → exec (.collReady r x) s = .next { s with collHeld := s.collFresh ++ [(r, s.now)] })) ∧
  (∀ (s u : State) (d seq part step n : Nat) (br : Bool) (x : Ext) (c : Coll), s.collOf seq d br step = some (c, part) →
    u = (s.fresh.setColl (c.setPart part { c.part part with announced := some n })).collCheck c.cmd part x → u.stall = [] → exec (.collStep d br seq part step n x) s = .next u) ∧
  (∀ (s : State) (q : Nat) (c : Coll), s.coll? q = some c → (c.parts.any fun p => p.ready && !p.partner) = true →
    exec (.collReadyTimeout q) s = .next (s.collEnd q .faulted .deviceGone))
end

