-- ==== Sys2Proof/Laws/Tab.lean ====
section
/-!
SUPPORT. The laws of sparse tables: what is found after an entry is put, deleted or set, and that each keeps the canonical form.
-/
namespace Sys2Proof.Machine

variable {α : Type}

theorem Tab.find_put_same (t : Tab α) (n : Nat) (x : α) : Tab.find (Tab.put t n x) n = some x := by
  induction t with
  | nil => simp [Tab.put, Tab.find]
  | cons e t ih =>
    obtain ⟨k, v⟩ := e
    simp only [Tab.put]
    split
    · simp [Tab.find]
    · split
      · simp [Tab.find]
      · simp [Tab.find, *]

theorem Tab.find_put_other (t : Tab α) {m n : Nat} (x : α) (h : m ≠ n) : Tab.find (Tab.put t n x) m = Tab.find t m := by
  induction t with
  | nil => simp [Tab.put, Tab.find, h]
  | cons e t ih =>
    obtain ⟨k, v⟩ := e
    simp only [Tab.put]
    split
    · subst_vars; simp [Tab.find, h]
    · split
      · simp only [Tab.find, h, if_false]
        split
        · rw [if_neg (by omega), if_pos (by omega)]
        · rfl
      · simp only [Tab.find, ih]

theorem Tab.find_mem (t : Tab α) (n : Nat) (x : α) (h : t.find n = some x) : (n, x) ∈ t := by
  induction t with
  | nil => cases h
  | cons e t ih =>
    obtain ⟨k, v⟩ := e
    simp only [Tab.find] at h
    split at h
    · cases h; subst_vars; simp
    · split at h
      · cases h
      · simp [ih h]

theorem Tab.sortedFrom_mono {t : Tab α} {a b : Nat} (hab : a ≤ b) (h : Tab.sortedFrom b t = true) : Tab.sortedFrom a t = true := by
  cases t with
  | nil => rfl
  | cons e t => obtain ⟨k, v⟩ := e; simp [Tab.sortedFrom] at h ⊢; exact ⟨by omega, h.2⟩

theorem Tab.find_below {t : Tab α} {lo n : Nat} (h : Tab.sortedFrom lo t = true) (hn : n < lo) : Tab.find t n = none := by
  cases t with
  | nil => rfl
  | cons e t =>
    obtain ⟨k, v⟩ := e
    simp [Tab.sortedFrom] at h
    simp only [Tab.find]
    rw [if_neg (by omega), if_pos (by omega)]

theorem Tab.find_del_same {t : Tab α} {lo : Nat} (h : Tab.sortedFrom lo t = true) (n : Nat) : Tab.find (Tab.del t n) n = none := by
  induction t generalizing lo with
  | nil => rfl
  | cons e t ih =>
    obtain ⟨k, v⟩ := e
    simp [Tab.sortedFrom] at h
    simp only [Tab.del]
    split
    · subst_vars; exact Tab.find_below h.2 (by omega)
    · split
      · simp [Tab.find, *]
      · simp [Tab.find, *, ih h.2]

theorem Tab.find_del_other {t : Tab α} {lo m n : Nat} (h : Tab.sortedFrom lo t = true) (hm : m ≠ n) :
    Tab.find (Tab.del t n) m = Tab.find t m := by
  induction t generalizing lo with
  | nil => rfl
  | cons e t ih =>
    obtain ⟨k, v⟩ := e
    simp [Tab.sortedFrom] at h
    simp only [Tab.del]
    split
    · subst_vars
      simp only [Tab.find, hm, if_false]
      split
      · exact Tab.find_below h.2 (by omega)
      · rfl
    · split
      · rfl
      · simp only [Tab.find, ih h.2]

theorem Tab.getD_setD_same [DecidableEq α] {t : Tab α} (h : Tab.wf t = true) (n : Nat) (d x : α) :
    Tab.getD (Tab.setD t n d x) n d = x := by
  unfold Tab.getD Tab.setD
  split
  · subst_vars; simp [Tab.find_del_same h]
  · simp [Tab.find_put_same]

theorem Tab.getD_setD_other [DecidableEq α] {t : Tab α} (h : Tab.wf t = true) {m n : Nat} (d x : α) (hm : m ≠ n) :
    Tab.getD (Tab.setD t n d x) m d = Tab.getD t m d := by
  unfold Tab.getD Tab.setD
  split
  · rw [Tab.find_del_other h hm]
  · rw [Tab.find_put_other t x hm]

/-- What a table with a default reads as after a write: one statement for both places. -/
theorem Tab.getD_setD [DecidableEq α] {t : Tab α} (h : Tab.wf t = true) (m n : Nat) (d x : α) :
    Tab.getD (Tab.setD t n d x) m d = if m = n then x else Tab.getD t m d := by
  split
  · subst_vars; exact Tab.getD_setD_same h n d x
  · exact Tab.getD_setD_other h d x ‹_›

theorem Tab.sortedFrom_put {t : Tab α} {lo n : Nat} (h : Tab.sortedFrom lo t = true) (x : α) (hn : lo ≤ n) :
    Tab.sortedFrom lo (Tab.put t n x) = true := by
  induction t generalizing lo with
  | nil => simpa [Tab.put, Tab.sortedFrom] using hn
  | cons e t ih =>
    obtain ⟨k, v⟩ := e
    simp [Tab.sortedFrom] at h
    simp only [Tab.put]
    split
    · subst_vars; simp [Tab.sortedFrom, h]
    · split
      · simp [Tab.sortedFrom, h, hn]; omega
      · simp [Tab.sortedFrom, h]; exact ih h.2 (by omega)

theorem Tab.sortedFrom_del {t : Tab α} {lo : Nat} (h : Tab.sortedFrom lo t = true) (n : Nat) :
    Tab.sortedFrom lo (Tab.del t n) = true := by
  induction t generalizing lo with
  | nil => rfl
  | cons e t ih =>
    obtain ⟨k, v⟩ := e
    simp [Tab.sortedFrom] at h
    simp only [Tab.del]
    split
    · exact Tab.sortedFrom_mono (by omega) h.2
    · split
      · simp [Tab.sortedFrom, h]
      · simp [Tab.sortedFrom, h]; exact ih h.2

theorem Tab.wf_put {t : Tab α} (h : Tab.wf t = true) (n : Nat) (x : α) : Tab.wf (Tab.put t n x) = true :=
  Tab.sortedFrom_put h x (Nat.zero_le n)

theorem Tab.wf_del {t : Tab α} (h : Tab.wf t = true) (n : Nat) : Tab.wf (Tab.del t n) = true := Tab.sortedFrom_del h n

theorem Tab.mem_put {t : Tab α} {n : Nat} {x : α} {e : Nat × α} (h : e ∈ Tab.put t n x) : e = (n, x) ∨ e ∈ t := by
  induction t with
  | nil => simpa [Tab.put] using h
  | cons a t ih =>
    obtain ⟨k, v⟩ := a
    simp only [Tab.put] at h
    split at h
    · rcases List.mem_cons.1 h with h | h
      · exact .inl h
      · exact .inr (List.mem_cons_of_mem _ h)
    · split at h
      · rcases List.mem_cons.1 h with h | h
        · exact .inl h
        · exact .inr h
      · rcases List.mem_cons.1 h with h | h
        · exact .inr (h ▸ List.mem_cons_self)
        · exact (ih h).imp id (List.mem_cons_of_mem _)

theorem Tab.mem_del {t : Tab α} {n : Nat} {e : Nat × α} (h : e ∈ Tab.del t n) : e ∈ t := by
  induction t with
  | nil => exact h
  | cons a t ih =>
    obtain ⟨k, v⟩ := a
    simp only [Tab.del] at h
    split at h
    · exact List.mem_cons_of_mem _ h
    · split at h
      · exact h
      · rcases List.mem_cons.1 h with h | h
        · exact h ▸ List.mem_cons_self
        · exact List.mem_cons_of_mem _ (ih h)

/-- Writing keeps the canonical form of a table with a default. -/
theorem Tab.wfD_setD [DecidableEq α] {d : α} {t : Tab α} (h : Tab.wfD d t = true) (n : Nat) (x : α) :
    Tab.wfD d (Tab.setD t n d x) = true := by
  simp only [Tab.wfD, Bool.and_eq_true, List.all_eq_true, decide_eq_true_eq] at h ⊢
  unfold Tab.setD
  split
  · exact ⟨Tab.wf_del h.1 n, fun e he => h.2 e (Tab.mem_del he)⟩
  · refine ⟨Tab.wf_put h.1 n x, fun e he => ?_⟩
    rcases Tab.mem_put he with he | he
    · subst he; assumption
    · exact h.2 e he

theorem Tab.wf_of_wfD [DecidableEq α] {d : α} {t : Tab α} (h : Tab.wfD d t = true) : Tab.wf t = true := by
  simp only [Tab.wfD, Bool.and_eq_true] at h; exact h.1

end Sys2Proof.Machine
end

