-- ==== Sys2Proof/Laws/State.lean ====
section
/-!
SUPPORT. What each named update of the state leaves and what it sets: one lemma for each field.
-/
namespace Sys2Proof.Machine

/-! ### Fields that an update leaves -/

@[simp] theorem State.setVd_pending (s : State) (v : Nat) (x : Vd) : (s.setVd v x).pending = s.pending := rfl
@[simp] theorem State.setVd_freeCtr (s : State) (v : Nat) (x : Vd) : (s.setVd v x).freeCtr = s.freeCtr := rfl
@[simp] theorem State.setVd_out (s : State) (v : Nat) (x : Vd) : (s.setVd v x).out = s.out := rfl
@[simp] theorem State.setVd_stall (s : State) (v : Nat) (x : Vd) : (s.setVd v x).stall = s.stall := rfl
@[simp] theorem State.setVd_ends (s : State) (v : Nat) (x : Vd) : (s.setVd v x).ends = s.ends := rfl
@[simp] theorem State.setVd_dies (s : State) (v : Nat) (x : Vd) : (s.setVd v x).dies = s.dies := rfl
@[simp] theorem State.setVd_inv (s : State) (v : Nat) (x : Vd) : (s.setVd v x).inv = s.inv := rfl
@[simp] theorem State.setVd_fuses (s : State) (v : Nat) (x : Vd) : (s.setVd v x).fuses = s.fuses := rfl
@[simp] theorem State.setVd_straps (s : State) (v : Nat) (x : Vd) : (s.setVd v x).straps = s.straps := rfl
@[simp] theorem State.setVd_board (s : State) (v : Nat) (x : Vd) : (s.setVd v x).board = s.board := rfl
@[simp] theorem State.setVd_boot (s : State) (v : Nat) (x : Vd) : (s.setVd v x).boot = s.boot := rfl
@[simp] theorem State.setVd_clk (s : State) (v : Nat) (x : Vd) : (s.setVd v x).clk = s.clk := rfl
@[simp] theorem State.setVd_power (s : State) (v : Nat) (x : Vd) : (s.setVd v x).power = s.power := rfl
@[simp] theorem State.setVd_jtag (s : State) (v : Nat) (x : Vd) : (s.setVd v x).jtag = s.jtag := rfl
@[simp] theorem State.setVd_polq (s : State) (v : Nat) (x : Vd) : (s.setVd v x).polq = s.polq := rfl
@[simp] theorem State.setVd_mgmt (s : State) (v : Nat) (x : Vd) : (s.setVd v x).mgmt = s.mgmt := rfl
@[simp] theorem State.setVd_panel (s : State) (v : Nat) (x : Vd) : (s.setVd v x).panel = s.panel := rfl
@[simp] theorem State.setVd_pool (s : State) (v : Nat) (x : Vd) : (s.setVd v x).pool = s.pool := rfl
@[simp] theorem State.setVd_img (s : State) (v : Nat) (x : Vd) : (s.setVd v x).img = s.img := rfl
@[simp] theorem State.setVd_pol (s : State) (v : Nat) (x : Vd) : (s.setVd v x).pol = s.pol := rfl
@[simp] theorem State.setVd_timeBase (s : State) (v : Nat) (x : Vd) : (s.setVd v x).timeBase = s.timeBase := rfl
@[simp] theorem State.setVd_mem (s : State) (v : Nat) (x : Vd) : (s.setVd v x).mem = s.mem := rfl
@[simp] theorem State.setVd_memPoison (s : State) (v : Nat) (x : Vd) : (s.setVd v x).memPoison = s.memPoison := rfl
@[simp] theorem State.setVd_bays (s : State) (v : Nat) (x : Vd) : (s.setVd v x).bays = s.bays := rfl
@[simp] theorem State.setVd_bayPoison (s : State) (v : Nat) (x : Vd) : (s.setVd v x).bayPoison = s.bayPoison := rfl
@[simp] theorem State.setVd_slices (s : State) (v : Nat) (x : Vd) : (s.setVd v x).slices = s.slices := rfl
@[simp] theorem State.setVd_dir (s : State) (v : Nat) (x : Vd) : (s.setVd v x).dir = s.dir := rfl
@[simp] theorem State.setVd_ports (s : State) (v : Nat) (x : Vd) : (s.setVd v x).ports = s.ports := rfl
@[simp] theorem State.setVd_hyl (s : State) (v : Nat) (x : Vd) : (s.setVd v x).hyl = s.hyl := rfl
@[simp] theorem State.setVd_colls (s : State) (v : Nat) (x : Vd) : (s.setVd v x).colls = s.colls := rfl
@[simp] theorem State.setVd_collHeld (s : State) (v : Nat) (x : Vd) : (s.setVd v x).collHeld = s.collHeld := rfl
@[simp] theorem State.setVd_limits (s : State) (v : Nat) (x : Vd) : (s.setVd v x).limits = s.limits := rfl
@[simp] theorem State.setVd_queues (s : State) (v : Nat) (x : Vd) : (s.setVd v x).queues = s.queues := rfl
@[simp] theorem State.setVd_hop (s : State) (v : Nat) (x : Vd) : (s.setVd v x).hop = s.hop := rfl
@[simp] theorem State.setVd_slu (s : State) (v : Nat) (x : Vd) : (s.setVd v x).slu = s.slu := rfl
@[simp] theorem State.setVd_dax (s : State) (v : Nat) (x : Vd) : (s.setVd v x).dax = s.dax := rfl
@[simp] theorem State.setVd_spill (s : State) (v : Nat) (x : Vd) : (s.setVd v x).spill = s.spill := rfl
@[simp] theorem State.setVd_flume (s : State) (v : Nat) (x : Vd) : (s.setVd v x).flume = s.flume := rfl
@[simp] theorem State.setVd_runners (s : State) (v : Nat) (x : Vd) : (s.setVd v x).runners = s.runners := rfl
@[simp] theorem State.setVd_races (s : State) (v : Nat) (x : Vd) : (s.setVd v x).races = s.races := rfl
@[simp] theorem State.setVd_pen (s : State) (v : Nat) (x : Vd) : (s.setVd v x).pen = s.pen := rfl
@[simp] theorem State.setVd_flt (s : State) (v : Nat) (x : Vd) : (s.setVd v x).flt = s.flt := rfl
@[simp] theorem State.setVd_gauges (s : State) (v : Nat) (x : Vd) : (s.setVd v x).gauges = s.gauges := rfl

@[simp] theorem State.modVd_pending (s : State) (v : Nat) (f : Vd → Vd) : (s.modVd v f).pending = s.pending := rfl
@[simp] theorem State.modVd_freeCtr (s : State) (v : Nat) (f : Vd → Vd) : (s.modVd v f).freeCtr = s.freeCtr := rfl
@[simp] theorem State.modVd_out (s : State) (v : Nat) (f : Vd → Vd) : (s.modVd v f).out = s.out := rfl
@[simp] theorem State.modVd_stall (s : State) (v : Nat) (f : Vd → Vd) : (s.modVd v f).stall = s.stall := rfl
@[simp] theorem State.modVd_ends (s : State) (v : Nat) (f : Vd → Vd) : (s.modVd v f).ends = s.ends := rfl
@[simp] theorem State.modVd_dies (s : State) (v : Nat) (f : Vd → Vd) : (s.modVd v f).dies = s.dies := rfl
@[simp] theorem State.modVd_inv (s : State) (v : Nat) (f : Vd → Vd) : (s.modVd v f).inv = s.inv := rfl
@[simp] theorem State.modVd_fuses (s : State) (v : Nat) (f : Vd → Vd) : (s.modVd v f).fuses = s.fuses := rfl
@[simp] theorem State.modVd_straps (s : State) (v : Nat) (f : Vd → Vd) : (s.modVd v f).straps = s.straps := rfl
@[simp] theorem State.modVd_board (s : State) (v : Nat) (f : Vd → Vd) : (s.modVd v f).board = s.board := rfl
@[simp] theorem State.modVd_boot (s : State) (v : Nat) (f : Vd → Vd) : (s.modVd v f).boot = s.boot := rfl
@[simp] theorem State.modVd_clk (s : State) (v : Nat) (f : Vd → Vd) : (s.modVd v f).clk = s.clk := rfl
@[simp] theorem State.modVd_power (s : State) (v : Nat) (f : Vd → Vd) : (s.modVd v f).power = s.power := rfl
@[simp] theorem State.modVd_jtag (s : State) (v : Nat) (f : Vd → Vd) : (s.modVd v f).jtag = s.jtag := rfl
@[simp] theorem State.modVd_polq (s : State) (v : Nat) (f : Vd → Vd) : (s.modVd v f).polq = s.polq := rfl
@[simp] theorem State.modVd_mgmt (s : State) (v : Nat) (f : Vd → Vd) : (s.modVd v f).mgmt = s.mgmt := rfl
@[simp] theorem State.modVd_panel (s : State) (v : Nat) (f : Vd → Vd) : (s.modVd v f).panel = s.panel := rfl
@[simp] theorem State.modVd_pool (s : State) (v : Nat) (f : Vd → Vd) : (s.modVd v f).pool = s.pool := rfl
@[simp] theorem State.modVd_img (s : State) (v : Nat) (f : Vd → Vd) : (s.modVd v f).img = s.img := rfl
@[simp] theorem State.modVd_pol (s : State) (v : Nat) (f : Vd → Vd) : (s.modVd v f).pol = s.pol := rfl
@[simp] theorem State.modVd_timeBase (s : State) (v : Nat) (f : Vd → Vd) : (s.modVd v f).timeBase = s.timeBase := rfl
@[simp] theorem State.modVd_mem (s : State) (v : Nat) (f : Vd → Vd) : (s.modVd v f).mem = s.mem := rfl
@[simp] theorem State.modVd_memPoison (s : State) (v : Nat) (f : Vd → Vd) : (s.modVd v f).memPoison = s.memPoison := rfl
@[simp] theorem State.modVd_bays (s : State) (v : Nat) (f : Vd → Vd) : (s.modVd v f).bays = s.bays := rfl
@[simp] theorem State.modVd_bayPoison (s : State) (v : Nat) (f : Vd → Vd) : (s.modVd v f).bayPoison = s.bayPoison := rfl
@[simp] theorem State.modVd_slices (s : State) (v : Nat) (f : Vd → Vd) : (s.modVd v f).slices = s.slices := rfl
@[simp] theorem State.modVd_dir (s : State) (v : Nat) (f : Vd → Vd) : (s.modVd v f).dir = s.dir := rfl
@[simp] theorem State.modVd_ports (s : State) (v : Nat) (f : Vd → Vd) : (s.modVd v f).ports = s.ports := rfl
@[simp] theorem State.modVd_hyl (s : State) (v : Nat) (f : Vd → Vd) : (s.modVd v f).hyl = s.hyl := rfl
@[simp] theorem State.modVd_colls (s : State) (v : Nat) (f : Vd → Vd) : (s.modVd v f).colls = s.colls := rfl
@[simp] theorem State.modVd_collHeld (s : State) (v : Nat) (f : Vd → Vd) : (s.modVd v f).collHeld = s.collHeld := rfl
@[simp] theorem State.modVd_limits (s : State) (v : Nat) (f : Vd → Vd) : (s.modVd v f).limits = s.limits := rfl
@[simp] theorem State.modVd_queues (s : State) (v : Nat) (f : Vd → Vd) : (s.modVd v f).queues = s.queues := rfl
@[simp] theorem State.modVd_hop (s : State) (v : Nat) (f : Vd → Vd) : (s.modVd v f).hop = s.hop := rfl
@[simp] theorem State.modVd_slu (s : State) (v : Nat) (f : Vd → Vd) : (s.modVd v f).slu = s.slu := rfl
@[simp] theorem State.modVd_dax (s : State) (v : Nat) (f : Vd → Vd) : (s.modVd v f).dax = s.dax := rfl
@[simp] theorem State.modVd_spill (s : State) (v : Nat) (f : Vd → Vd) : (s.modVd v f).spill = s.spill := rfl
@[simp] theorem State.modVd_flume (s : State) (v : Nat) (f : Vd → Vd) : (s.modVd v f).flume = s.flume := rfl
@[simp] theorem State.modVd_runners (s : State) (v : Nat) (f : Vd → Vd) : (s.modVd v f).runners = s.runners := rfl
@[simp] theorem State.modVd_races (s : State) (v : Nat) (f : Vd → Vd) : (s.modVd v f).races = s.races := rfl
@[simp] theorem State.modVd_pen (s : State) (v : Nat) (f : Vd → Vd) : (s.modVd v f).pen = s.pen := rfl
@[simp] theorem State.modVd_flt (s : State) (v : Nat) (f : Vd → Vd) : (s.modVd v f).flt = s.flt := rfl
@[simp] theorem State.modVd_gauges (s : State) (v : Nat) (f : Vd → Vd) : (s.modVd v f).gauges = s.gauges := rfl

@[simp] theorem State.setSlice_pending (s : State) (n : Nat) (x : Slice) : (s.setSlice n x).pending = s.pending := rfl
@[simp] theorem State.setSlice_freeCtr (s : State) (n : Nat) (x : Slice) : (s.setSlice n x).freeCtr = s.freeCtr := rfl
@[simp] theorem State.setSlice_out (s : State) (n : Nat) (x : Slice) : (s.setSlice n x).out = s.out := rfl
@[simp] theorem State.setSlice_stall (s : State) (n : Nat) (x : Slice) : (s.setSlice n x).stall = s.stall := rfl
@[simp] theorem State.setSlice_ends (s : State) (n : Nat) (x : Slice) : (s.setSlice n x).ends = s.ends := rfl
@[simp] theorem State.setSlice_dies (s : State) (n : Nat) (x : Slice) : (s.setSlice n x).dies = s.dies := rfl
@[simp] theorem State.setSlice_inv (s : State) (n : Nat) (x : Slice) : (s.setSlice n x).inv = s.inv := rfl
@[simp] theorem State.setSlice_fuses (s : State) (n : Nat) (x : Slice) : (s.setSlice n x).fuses = s.fuses := rfl
@[simp] theorem State.setSlice_straps (s : State) (n : Nat) (x : Slice) : (s.setSlice n x).straps = s.straps := rfl
@[simp] theorem State.setSlice_board (s : State) (n : Nat) (x : Slice) : (s.setSlice n x).board = s.board := rfl
@[simp] theorem State.setSlice_boot (s : State) (n : Nat) (x : Slice) : (s.setSlice n x).boot = s.boot := rfl
@[simp] theorem State.setSlice_clk (s : State) (n : Nat) (x : Slice) : (s.setSlice n x).clk = s.clk := rfl
@[simp] theorem State.setSlice_power (s : State) (n : Nat) (x : Slice) : (s.setSlice n x).power = s.power := rfl
@[simp] theorem State.setSlice_jtag (s : State) (n : Nat) (x : Slice) : (s.setSlice n x).jtag = s.jtag := rfl
@[simp] theorem State.setSlice_polq (s : State) (n : Nat) (x : Slice) : (s.setSlice n x).polq = s.polq := rfl
@[simp] theorem State.setSlice_mgmt (s : State) (n : Nat) (x : Slice) : (s.setSlice n x).mgmt = s.mgmt := rfl
@[simp] theorem State.setSlice_panel (s : State) (n : Nat) (x : Slice) : (s.setSlice n x).panel = s.panel := rfl
@[simp] theorem State.setSlice_pool (s : State) (n : Nat) (x : Slice) : (s.setSlice n x).pool = s.pool := rfl
@[simp] theorem State.setSlice_img (s : State) (n : Nat) (x : Slice) : (s.setSlice n x).img = s.img := rfl
@[simp] theorem State.setSlice_pol (s : State) (n : Nat) (x : Slice) : (s.setSlice n x).pol = s.pol := rfl
@[simp] theorem State.setSlice_timeBase (s : State) (n : Nat) (x : Slice) : (s.setSlice n x).timeBase = s.timeBase := rfl
@[simp] theorem State.setSlice_mem (s : State) (n : Nat) (x : Slice) : (s.setSlice n x).mem = s.mem := rfl
@[simp] theorem State.setSlice_memPoison (s : State) (n : Nat) (x : Slice) : (s.setSlice n x).memPoison = s.memPoison := rfl
@[simp] theorem State.setSlice_bays (s : State) (n : Nat) (x : Slice) : (s.setSlice n x).bays = s.bays := rfl
@[simp] theorem State.setSlice_bayPoison (s : State) (n : Nat) (x : Slice) : (s.setSlice n x).bayPoison = s.bayPoison := rfl
@[simp] theorem State.setSlice_dir (s : State) (n : Nat) (x : Slice) : (s.setSlice n x).dir = s.dir := rfl
@[simp] theorem State.setSlice_vds (s : State) (n : Nat) (x : Slice) : (s.setSlice n x).vds = s.vds := rfl
@[simp] theorem State.setSlice_ports (s : State) (n : Nat) (x : Slice) : (s.setSlice n x).ports = s.ports := rfl
@[simp] theorem State.setSlice_hyl (s : State) (n : Nat) (x : Slice) : (s.setSlice n x).hyl = s.hyl := rfl
@[simp] theorem State.setSlice_colls (s : State) (n : Nat) (x : Slice) : (s.setSlice n x).colls = s.colls := rfl
@[simp] theorem State.setSlice_collHeld (s : State) (n : Nat) (x : Slice) : (s.setSlice n x).collHeld = s.collHeld := rfl
@[simp] theorem State.setSlice_limits (s : State) (n : Nat) (x : Slice) : (s.setSlice n x).limits = s.limits := rfl
@[simp] theorem State.setSlice_queues (s : State) (n : Nat) (x : Slice) : (s.setSlice n x).queues = s.queues := rfl
@[simp] theorem State.setSlice_hop (s : State) (n : Nat) (x : Slice) : (s.setSlice n x).hop = s.hop := rfl
@[simp] theorem State.setSlice_slu (s : State) (n : Nat) (x : Slice) : (s.setSlice n x).slu = s.slu := rfl
@[simp] theorem State.setSlice_dax (s : State) (n : Nat) (x : Slice) : (s.setSlice n x).dax = s.dax := rfl
@[simp] theorem State.setSlice_spill (s : State) (n : Nat) (x : Slice) : (s.setSlice n x).spill = s.spill := rfl
@[simp] theorem State.setSlice_flume (s : State) (n : Nat) (x : Slice) : (s.setSlice n x).flume = s.flume := rfl
@[simp] theorem State.setSlice_runners (s : State) (n : Nat) (x : Slice) : (s.setSlice n x).runners = s.runners := rfl
@[simp] theorem State.setSlice_races (s : State) (n : Nat) (x : Slice) : (s.setSlice n x).races = s.races := rfl
@[simp] theorem State.setSlice_pen (s : State) (n : Nat) (x : Slice) : (s.setSlice n x).pen = s.pen := rfl
@[simp] theorem State.setSlice_flt (s : State) (n : Nat) (x : Slice) : (s.setSlice n x).flt = s.flt := rfl
@[simp] theorem State.setSlice_gauges (s : State) (n : Nat) (x : Slice) : (s.setSlice n x).gauges = s.gauges := rfl

@[simp] theorem State.modSlice_pending (s : State) (n : Nat) (f : Slice → Slice) : (s.modSlice n f).pending = s.pending := rfl
@[simp] theorem State.modSlice_freeCtr (s : State) (n : Nat) (f : Slice → Slice) : (s.modSlice n f).freeCtr = s.freeCtr := rfl
@[simp] theorem State.modSlice_out (s : State) (n : Nat) (f : Slice → Slice) : (s.modSlice n f).out = s.out := rfl
@[simp] theorem State.modSlice_stall (s : State) (n : Nat) (f : Slice → Slice) : (s.modSlice n f).stall = s.stall := rfl
@[simp] theorem State.modSlice_ends (s : State) (n : Nat) (f : Slice → Slice) : (s.modSlice n f).ends = s.ends := rfl
@[simp] theorem State.modSlice_dies (s : State) (n : Nat) (f : Slice → Slice) : (s.modSlice n f).dies = s.dies := rfl
@[simp] theorem State.modSlice_inv (s : State) (n : Nat) (f : Slice → Slice) : (s.modSlice n f).inv = s.inv := rfl
@[simp] theorem State.modSlice_fuses (s : State) (n : Nat) (f : Slice → Slice) : (s.modSlice n f).fuses = s.fuses := rfl
@[simp] theorem State.modSlice_straps (s : State) (n : Nat) (f : Slice → Slice) : (s.modSlice n f).straps = s.straps := rfl
@[simp] theorem State.modSlice_board (s : State) (n : Nat) (f : Slice → Slice) : (s.modSlice n f).board = s.board := rfl
@[simp] theorem State.modSlice_boot (s : State) (n : Nat) (f : Slice → Slice) : (s.modSlice n f).boot = s.boot := rfl
@[simp] theorem State.modSlice_clk (s : State) (n : Nat) (f : Slice → Slice) : (s.modSlice n f).clk = s.clk := rfl
@[simp] theorem State.modSlice_power (s : State) (n : Nat) (f : Slice → Slice) : (s.modSlice n f).power = s.power := rfl
@[simp] theorem State.modSlice_jtag (s : State) (n : Nat) (f : Slice → Slice) : (s.modSlice n f).jtag = s.jtag := rfl
@[simp] theorem State.modSlice_polq (s : State) (n : Nat) (f : Slice → Slice) : (s.modSlice n f).polq = s.polq := rfl
@[simp] theorem State.modSlice_mgmt (s : State) (n : Nat) (f : Slice → Slice) : (s.modSlice n f).mgmt = s.mgmt := rfl
@[simp] theorem State.modSlice_panel (s : State) (n : Nat) (f : Slice → Slice) : (s.modSlice n f).panel = s.panel := rfl
@[simp] theorem State.modSlice_pool (s : State) (n : Nat) (f : Slice → Slice) : (s.modSlice n f).pool = s.pool := rfl
@[simp] theorem State.modSlice_img (s : State) (n : Nat) (f : Slice → Slice) : (s.modSlice n f).img = s.img := rfl
@[simp] theorem State.modSlice_pol (s : State) (n : Nat) (f : Slice → Slice) : (s.modSlice n f).pol = s.pol := rfl
@[simp] theorem State.modSlice_timeBase (s : State) (n : Nat) (f : Slice → Slice) : (s.modSlice n f).timeBase = s.timeBase := rfl
@[simp] theorem State.modSlice_mem (s : State) (n : Nat) (f : Slice → Slice) : (s.modSlice n f).mem = s.mem := rfl
@[simp] theorem State.modSlice_memPoison (s : State) (n : Nat) (f : Slice → Slice) : (s.modSlice n f).memPoison = s.memPoison := rfl
@[simp] theorem State.modSlice_bays (s : State) (n : Nat) (f : Slice → Slice) : (s.modSlice n f).bays = s.bays := rfl
@[simp] theorem State.modSlice_bayPoison (s : State) (n : Nat) (f : Slice → Slice) : (s.modSlice n f).bayPoison = s.bayPoison := rfl
@[simp] theorem State.modSlice_dir (s : State) (n : Nat) (f : Slice → Slice) : (s.modSlice n f).dir = s.dir := rfl
@[simp] theorem State.modSlice_vds (s : State) (n : Nat) (f : Slice → Slice) : (s.modSlice n f).vds = s.vds := rfl
@[simp] theorem State.modSlice_ports (s : State) (n : Nat) (f : Slice → Slice) : (s.modSlice n f).ports = s.ports := rfl
@[simp] theorem State.modSlice_hyl (s : State) (n : Nat) (f : Slice → Slice) : (s.modSlice n f).hyl = s.hyl := rfl
@[simp] theorem State.modSlice_colls (s : State) (n : Nat) (f : Slice → Slice) : (s.modSlice n f).colls = s.colls := rfl
@[simp] theorem State.modSlice_collHeld (s : State) (n : Nat) (f : Slice → Slice) : (s.modSlice n f).collHeld = s.collHeld := rfl
@[simp] theorem State.modSlice_limits (s : State) (n : Nat) (f : Slice → Slice) : (s.modSlice n f).limits = s.limits := rfl
@[simp] theorem State.modSlice_queues (s : State) (n : Nat) (f : Slice → Slice) : (s.modSlice n f).queues = s.queues := rfl
@[simp] theorem State.modSlice_hop (s : State) (n : Nat) (f : Slice → Slice) : (s.modSlice n f).hop = s.hop := rfl
@[simp] theorem State.modSlice_slu (s : State) (n : Nat) (f : Slice → Slice) : (s.modSlice n f).slu = s.slu := rfl
@[simp] theorem State.modSlice_dax (s : State) (n : Nat) (f : Slice → Slice) : (s.modSlice n f).dax = s.dax := rfl
@[simp] theorem State.modSlice_spill (s : State) (n : Nat) (f : Slice → Slice) : (s.modSlice n f).spill = s.spill := rfl
@[simp] theorem State.modSlice_flume (s : State) (n : Nat) (f : Slice → Slice) : (s.modSlice n f).flume = s.flume := rfl
@[simp] theorem State.modSlice_runners (s : State) (n : Nat) (f : Slice → Slice) : (s.modSlice n f).runners = s.runners := rfl
@[simp] theorem State.modSlice_races (s : State) (n : Nat) (f : Slice → Slice) : (s.modSlice n f).races = s.races := rfl
@[simp] theorem State.modSlice_pen (s : State) (n : Nat) (f : Slice → Slice) : (s.modSlice n f).pen = s.pen := rfl
@[simp] theorem State.modSlice_flt (s : State) (n : Nat) (f : Slice → Slice) : (s.modSlice n f).flt = s.flt := rfl
@[simp] theorem State.modSlice_gauges (s : State) (n : Nat) (f : Slice → Slice) : (s.modSlice n f).gauges = s.gauges := rfl

@[simp] theorem State.setQueue_pending (s : State) (q : QueueId) (x : SharedQ) : (s.setQueue q x).pending = s.pending := rfl
@[simp] theorem State.setQueue_freeCtr (s : State) (q : QueueId) (x : SharedQ) : (s.setQueue q x).freeCtr = s.freeCtr := rfl
@[simp] theorem State.setQueue_out (s : State) (q : QueueId) (x : SharedQ) : (s.setQueue q x).out = s.out := rfl
@[simp] theorem State.setQueue_stall (s : State) (q : QueueId) (x : SharedQ) : (s.setQueue q x).stall = s.stall := rfl
@[simp] theorem State.setQueue_ends (s : State) (q : QueueId) (x : SharedQ) : (s.setQueue q x).ends = s.ends := rfl
@[simp] theorem State.setQueue_dies (s : State) (q : QueueId) (x : SharedQ) : (s.setQueue q x).dies = s.dies := rfl
@[simp] theorem State.setQueue_inv (s : State) (q : QueueId) (x : SharedQ) : (s.setQueue q x).inv = s.inv := rfl
@[simp] theorem State.setQueue_fuses (s : State) (q : QueueId) (x : SharedQ) : (s.setQueue q x).fuses = s.fuses := rfl
@[simp] theorem State.setQueue_straps (s : State) (q : QueueId) (x : SharedQ) : (s.setQueue q x).straps = s.straps := rfl
@[simp] theorem State.setQueue_board (s : State) (q : QueueId) (x : SharedQ) : (s.setQueue q x).board = s.board := rfl
@[simp] theorem State.setQueue_boot (s : State) (q : QueueId) (x : SharedQ) : (s.setQueue q x).boot = s.boot := rfl
@[simp] theorem State.setQueue_clk (s : State) (q : QueueId) (x : SharedQ) : (s.setQueue q x).clk = s.clk := rfl
@[simp] theorem State.setQueue_power (s : State) (q : QueueId) (x : SharedQ) : (s.setQueue q x).power = s.power := rfl
@[simp] theorem State.setQueue_jtag (s : State) (q : QueueId) (x : SharedQ) : (s.setQueue q x).jtag = s.jtag := rfl
@[simp] theorem State.setQueue_polq (s : State) (q : QueueId) (x : SharedQ) : (s.setQueue q x).polq = s.polq := rfl
@[simp] theorem State.setQueue_mgmt (s : State) (q : QueueId) (x : SharedQ) : (s.setQueue q x).mgmt = s.mgmt := rfl
@[simp] theorem State.setQueue_panel (s : State) (q : QueueId) (x : SharedQ) : (s.setQueue q x).panel = s.panel := rfl
@[simp] theorem State.setQueue_pool (s : State) (q : QueueId) (x : SharedQ) : (s.setQueue q x).pool = s.pool := rfl
@[simp] theorem State.setQueue_img (s : State) (q : QueueId) (x : SharedQ) : (s.setQueue q x).img = s.img := rfl
@[simp] theorem State.setQueue_pol (s : State) (q : QueueId) (x : SharedQ) : (s.setQueue q x).pol = s.pol := rfl
@[simp] theorem State.setQueue_timeBase (s : State) (q : QueueId) (x : SharedQ) : (s.setQueue q x).timeBase = s.timeBase := rfl
@[simp] theorem State.setQueue_mem (s : State) (q : QueueId) (x : SharedQ) : (s.setQueue q x).mem = s.mem := rfl
@[simp] theorem State.setQueue_memPoison (s : State) (q : QueueId) (x : SharedQ) : (s.setQueue q x).memPoison = s.memPoison := rfl
@[simp] theorem State.setQueue_bays (s : State) (q : QueueId) (x : SharedQ) : (s.setQueue q x).bays = s.bays := rfl
@[simp] theorem State.setQueue_bayPoison (s : State) (q : QueueId) (x : SharedQ) : (s.setQueue q x).bayPoison = s.bayPoison := rfl
@[simp] theorem State.setQueue_slices (s : State) (q : QueueId) (x : SharedQ) : (s.setQueue q x).slices = s.slices := rfl
@[simp] theorem State.setQueue_dir (s : State) (q : QueueId) (x : SharedQ) : (s.setQueue q x).dir = s.dir := rfl
@[simp] theorem State.setQueue_vds (s : State) (q : QueueId) (x : SharedQ) : (s.setQueue q x).vds = s.vds := rfl
@[simp] theorem State.setQueue_ports (s : State) (q : QueueId) (x : SharedQ) : (s.setQueue q x).ports = s.ports := rfl
@[simp] theorem State.setQueue_hyl (s : State) (q : QueueId) (x : SharedQ) : (s.setQueue q x).hyl = s.hyl := rfl
@[simp] theorem State.setQueue_colls (s : State) (q : QueueId) (x : SharedQ) : (s.setQueue q x).colls = s.colls := rfl
@[simp] theorem State.setQueue_collHeld (s : State) (q : QueueId) (x : SharedQ) : (s.setQueue q x).collHeld = s.collHeld := rfl
@[simp] theorem State.setQueue_limits (s : State) (q : QueueId) (x : SharedQ) : (s.setQueue q x).limits = s.limits := rfl
@[simp] theorem State.setQueue_hop (s : State) (q : QueueId) (x : SharedQ) : (s.setQueue q x).hop = s.hop := rfl
@[simp] theorem State.setQueue_slu (s : State) (q : QueueId) (x : SharedQ) : (s.setQueue q x).slu = s.slu := rfl
@[simp] theorem State.setQueue_dax (s : State) (q : QueueId) (x : SharedQ) : (s.setQueue q x).dax = s.dax := rfl
@[simp] theorem State.setQueue_spill (s : State) (q : QueueId) (x : SharedQ) : (s.setQueue q x).spill = s.spill := rfl
@[simp] theorem State.setQueue_flume (s : State) (q : QueueId) (x : SharedQ) : (s.setQueue q x).flume = s.flume := rfl
@[simp] theorem State.setQueue_runners (s : State) (q : QueueId) (x : SharedQ) : (s.setQueue q x).runners = s.runners := rfl
@[simp] theorem State.setQueue_races (s : State) (q : QueueId) (x : SharedQ) : (s.setQueue q x).races = s.races := rfl
@[simp] theorem State.setQueue_pen (s : State) (q : QueueId) (x : SharedQ) : (s.setQueue q x).pen = s.pen := rfl
@[simp] theorem State.setQueue_flt (s : State) (q : QueueId) (x : SharedQ) : (s.setQueue q x).flt = s.flt := rfl
@[simp] theorem State.setQueue_gauges (s : State) (q : QueueId) (x : SharedQ) : (s.setQueue q x).gauges = s.gauges := rfl

@[simp] theorem State.modPort_pending (s : State) (p : Nat) (f : CxlPort → CxlPort) : (s.modPort p f).pending = s.pending := rfl
@[simp] theorem State.modPort_freeCtr (s : State) (p : Nat) (f : CxlPort → CxlPort) : (s.modPort p f).freeCtr = s.freeCtr := rfl
@[simp] theorem State.modPort_out (s : State) (p : Nat) (f : CxlPort → CxlPort) : (s.modPort p f).out = s.out := rfl
@[simp] theorem State.modPort_stall (s : State) (p : Nat) (f : CxlPort → CxlPort) : (s.modPort p f).stall = s.stall := rfl
@[simp] theorem State.modPort_ends (s : State) (p : Nat) (f : CxlPort → CxlPort) : (s.modPort p f).ends = s.ends := rfl
@[simp] theorem State.modPort_dies (s : State) (p : Nat) (f : CxlPort → CxlPort) : (s.modPort p f).dies = s.dies := rfl
@[simp] theorem State.modPort_inv (s : State) (p : Nat) (f : CxlPort → CxlPort) : (s.modPort p f).inv = s.inv := rfl
@[simp] theorem State.modPort_fuses (s : State) (p : Nat) (f : CxlPort → CxlPort) : (s.modPort p f).fuses = s.fuses := rfl
@[simp] theorem State.modPort_straps (s : State) (p : Nat) (f : CxlPort → CxlPort) : (s.modPort p f).straps = s.straps := rfl
@[simp] theorem State.modPort_board (s : State) (p : Nat) (f : CxlPort → CxlPort) : (s.modPort p f).board = s.board := rfl
@[simp] theorem State.modPort_boot (s : State) (p : Nat) (f : CxlPort → CxlPort) : (s.modPort p f).boot = s.boot := rfl
@[simp] theorem State.modPort_clk (s : State) (p : Nat) (f : CxlPort → CxlPort) : (s.modPort p f).clk = s.clk := rfl
@[simp] theorem State.modPort_power (s : State) (p : Nat) (f : CxlPort → CxlPort) : (s.modPort p f).power = s.power := rfl
@[simp] theorem State.modPort_jtag (s : State) (p : Nat) (f : CxlPort → CxlPort) : (s.modPort p f).jtag = s.jtag := rfl
@[simp] theorem State.modPort_polq (s : State) (p : Nat) (f : CxlPort → CxlPort) : (s.modPort p f).polq = s.polq := rfl
@[simp] theorem State.modPort_mgmt (s : State) (p : Nat) (f : CxlPort → CxlPort) : (s.modPort p f).mgmt = s.mgmt := rfl
@[simp] theorem State.modPort_panel (s : State) (p : Nat) (f : CxlPort → CxlPort) : (s.modPort p f).panel = s.panel := rfl
@[simp] theorem State.modPort_pool (s : State) (p : Nat) (f : CxlPort → CxlPort) : (s.modPort p f).pool = s.pool := rfl
@[simp] theorem State.modPort_img (s : State) (p : Nat) (f : CxlPort → CxlPort) : (s.modPort p f).img = s.img := rfl
@[simp] theorem State.modPort_pol (s : State) (p : Nat) (f : CxlPort → CxlPort) : (s.modPort p f).pol = s.pol := rfl
@[simp] theorem State.modPort_timeBase (s : State) (p : Nat) (f : CxlPort → CxlPort) : (s.modPort p f).timeBase = s.timeBase := rfl
@[simp] theorem State.modPort_mem (s : State) (p : Nat) (f : CxlPort → CxlPort) : (s.modPort p f).mem = s.mem := rfl
@[simp] theorem State.modPort_memPoison (s : State) (p : Nat) (f : CxlPort → CxlPort) : (s.modPort p f).memPoison = s.memPoison := rfl
@[simp] theorem State.modPort_bays (s : State) (p : Nat) (f : CxlPort → CxlPort) : (s.modPort p f).bays = s.bays := rfl
@[simp] theorem State.modPort_bayPoison (s : State) (p : Nat) (f : CxlPort → CxlPort) : (s.modPort p f).bayPoison = s.bayPoison := rfl
@[simp] theorem State.modPort_slices (s : State) (p : Nat) (f : CxlPort → CxlPort) : (s.modPort p f).slices = s.slices := rfl
@[simp] theorem State.modPort_dir (s : State) (p : Nat) (f : CxlPort → CxlPort) : (s.modPort p f).dir = s.dir := rfl
@[simp] theorem State.modPort_vds (s : State) (p : Nat) (f : CxlPort → CxlPort) : (s.modPort p f).vds = s.vds := rfl
@[simp] theorem State.modPort_hyl (s : State) (p : Nat) (f : CxlPort → CxlPort) : (s.modPort p f).hyl = s.hyl := rfl
@[simp] theorem State.modPort_colls (s : State) (p : Nat) (f : CxlPort → CxlPort) : (s.modPort p f).colls = s.colls := rfl
@[simp] theorem State.modPort_collHeld (s : State) (p : Nat) (f : CxlPort → CxlPort) : (s.modPort p f).collHeld = s.collHeld := rfl
@[simp] theorem State.modPort_limits (s : State) (p : Nat) (f : CxlPort → CxlPort) : (s.modPort p f).limits = s.limits := rfl
@[simp] theorem State.modPort_queues (s : State) (p : Nat) (f : CxlPort → CxlPort) : (s.modPort p f).queues = s.queues := rfl
@[simp] theorem State.modPort_hop (s : State) (p : Nat) (f : CxlPort → CxlPort) : (s.modPort p f).hop = s.hop := rfl
@[simp] theorem State.modPort_slu (s : State) (p : Nat) (f : CxlPort → CxlPort) : (s.modPort p f).slu = s.slu := rfl
@[simp] theorem State.modPort_dax (s : State) (p : Nat) (f : CxlPort → CxlPort) : (s.modPort p f).dax = s.dax := rfl
@[simp] theorem State.modPort_spill (s : State) (p : Nat) (f : CxlPort → CxlPort) : (s.modPort p f).spill = s.spill := rfl
@[simp] theorem State.modPort_flume (s : State) (p : Nat) (f : CxlPort → CxlPort) : (s.modPort p f).flume = s.flume := rfl
@[simp] theorem State.modPort_runners (s : State) (p : Nat) (f : CxlPort → CxlPort) : (s.modPort p f).runners = s.runners := rfl
@[simp] theorem State.modPort_races (s : State) (p : Nat) (f : CxlPort → CxlPort) : (s.modPort p f).races = s.races := rfl
@[simp] theorem State.modPort_pen (s : State) (p : Nat) (f : CxlPort → CxlPort) : (s.modPort p f).pen = s.pen := rfl
@[simp] theorem State.modPort_flt (s : State) (p : Nat) (f : CxlPort → CxlPort) : (s.modPort p f).flt = s.flt := rfl
@[simp] theorem State.modPort_gauges (s : State) (p : Nat) (f : CxlPort → CxlPort) : (s.modPort p f).gauges = s.gauges := rfl

@[simp] theorem State.send_pending (s : State) (o : OutMsg) : (s.send o).pending = s.pending := rfl
@[simp] theorem State.send_freeCtr (s : State) (o : OutMsg) : (s.send o).freeCtr = s.freeCtr := rfl
@[simp] theorem State.send_stall (s : State) (o : OutMsg) : (s.send o).stall = s.stall := rfl
@[simp] theorem State.send_ends (s : State) (o : OutMsg) : (s.send o).ends = s.ends := rfl
@[simp] theorem State.send_dies (s : State) (o : OutMsg) : (s.send o).dies = s.dies := rfl
@[simp] theorem State.send_inv (s : State) (o : OutMsg) : (s.send o).inv = s.inv := rfl
@[simp] theorem State.send_fuses (s : State) (o : OutMsg) : (s.send o).fuses = s.fuses := rfl
@[simp] theorem State.send_straps (s : State) (o : OutMsg) : (s.send o).straps = s.straps := rfl
@[simp] theorem State.send_board (s : State) (o : OutMsg) : (s.send o).board = s.board := rfl
@[simp] theorem State.send_boot (s : State) (o : OutMsg) : (s.send o).boot = s.boot := rfl
@[simp] theorem State.send_clk (s : State) (o : OutMsg) : (s.send o).clk = s.clk := rfl
@[simp] theorem State.send_power (s : State) (o : OutMsg) : (s.send o).power = s.power := rfl
@[simp] theorem State.send_jtag (s : State) (o : OutMsg) : (s.send o).jtag = s.jtag := rfl
@[simp] theorem State.send_polq (s : State) (o : OutMsg) : (s.send o).polq = s.polq := rfl
@[simp] theorem State.send_mgmt (s : State) (o : OutMsg) : (s.send o).mgmt = s.mgmt := rfl
@[simp] theorem State.send_panel (s : State) (o : OutMsg) : (s.send o).panel = s.panel := rfl
@[simp] theorem State.send_pool (s : State) (o : OutMsg) : (s.send o).pool = s.pool := rfl
@[simp] theorem State.send_img (s : State) (o : OutMsg) : (s.send o).img = s.img := rfl
@[simp] theorem State.send_pol (s : State) (o : OutMsg) : (s.send o).pol = s.pol := rfl
@[simp] theorem State.send_timeBase (s : State) (o : OutMsg) : (s.send o).timeBase = s.timeBase := rfl
@[simp] theorem State.send_mem (s : State) (o : OutMsg) : (s.send o).mem = s.mem := rfl
@[simp] theorem State.send_memPoison (s : State) (o : OutMsg) : (s.send o).memPoison = s.memPoison := rfl
@[simp] theorem State.send_bays (s : State) (o : OutMsg) : (s.send o).bays = s.bays := rfl
@[simp] theorem State.send_bayPoison (s : State) (o : OutMsg) : (s.send o).bayPoison = s.bayPoison := rfl
@[simp] theorem State.send_slices (s : State) (o : OutMsg) : (s.send o).slices = s.slices := rfl
@[simp] theorem State.send_dir (s : State) (o : OutMsg) : (s.send o).dir = s.dir := rfl
@[simp] theorem State.send_vds (s : State) (o : OutMsg) : (s.send o).vds = s.vds := rfl
@[simp] theorem State.send_ports (s : State) (o : OutMsg) : (s.send o).ports = s.ports := rfl
@[simp] theorem State.send_hyl (s : State) (o : OutMsg) : (s.send o).hyl = s.hyl := rfl
@[simp] theorem State.send_colls (s : State) (o : OutMsg) : (s.send o).colls = s.colls := rfl
@[simp] theorem State.send_collHeld (s : State) (o : OutMsg) : (s.send o).collHeld = s.collHeld := rfl
@[simp] theorem State.send_limits (s : State) (o : OutMsg) : (s.send o).limits = s.limits := rfl
@[simp] theorem State.send_queues (s : State) (o : OutMsg) : (s.send o).queues = s.queues := rfl
@[simp] theorem State.send_hop (s : State) (o : OutMsg) : (s.send o).hop = s.hop := rfl
@[simp] theorem State.send_slu (s : State) (o : OutMsg) : (s.send o).slu = s.slu := rfl
@[simp] theorem State.send_dax (s : State) (o : OutMsg) : (s.send o).dax = s.dax := rfl
@[simp] theorem State.send_spill (s : State) (o : OutMsg) : (s.send o).spill = s.spill := rfl
@[simp] theorem State.send_flume (s : State) (o : OutMsg) : (s.send o).flume = s.flume := rfl
@[simp] theorem State.send_runners (s : State) (o : OutMsg) : (s.send o).runners = s.runners := rfl
@[simp] theorem State.send_races (s : State) (o : OutMsg) : (s.send o).races = s.races := rfl
@[simp] theorem State.send_pen (s : State) (o : OutMsg) : (s.send o).pen = s.pen := rfl
@[simp] theorem State.send_flt (s : State) (o : OutMsg) : (s.send o).flt = s.flt := rfl
@[simp] theorem State.send_gauges (s : State) (o : OutMsg) : (s.send o).gauges = s.gauges := rfl

@[simp] theorem State.dramWrite_pending (s : State) (a : Nat) (mask : Sectors) (x : Line) (p : Sectors) : (s.dramWrite a mask x p).pending = s.pending := by cases s; rfl
@[simp] theorem State.dramWrite_freeCtr (s : State) (a : Nat) (mask : Sectors) (x : Line) (p : Sectors) : (s.dramWrite a mask x p).freeCtr = s.freeCtr := by cases s; rfl
@[simp] theorem State.dramWrite_out (s : State) (a : Nat) (mask : Sectors) (x : Line) (p : Sectors) : (s.dramWrite a mask x p).out = s.out := by cases s; rfl
@[simp] theorem State.dramWrite_stall (s : State) (a : Nat) (mask : Sectors) (x : Line) (p : Sectors) : (s.dramWrite a mask x p).stall = s.stall := by cases s; rfl
@[simp] theorem State.dramWrite_ends (s : State) (a : Nat) (mask : Sectors) (x : Line) (p : Sectors) : (s.dramWrite a mask x p).ends = s.ends := by cases s; rfl
@[simp] theorem State.dramWrite_dies (s : State) (a : Nat) (mask : Sectors) (x : Line) (p : Sectors) : (s.dramWrite a mask x p).dies = s.dies := by cases s; rfl
@[simp] theorem State.dramWrite_inv (s : State) (a : Nat) (mask : Sectors) (x : Line) (p : Sectors) : (s.dramWrite a mask x p).inv = s.inv := by cases s; rfl
@[simp] theorem State.dramWrite_fuses (s : State) (a : Nat) (mask : Sectors) (x : Line) (p : Sectors) : (s.dramWrite a mask x p).fuses = s.fuses := by cases s; rfl
@[simp] theorem State.dramWrite_straps (s : State) (a : Nat) (mask : Sectors) (x : Line) (p : Sectors) : (s.dramWrite a mask x p).straps = s.straps := by cases s; rfl
@[simp] theorem State.dramWrite_board (s : State) (a : Nat) (mask : Sectors) (x : Line) (p : Sectors) : (s.dramWrite a mask x p).board = s.board := by cases s; rfl
@[simp] theorem State.dramWrite_boot (s : State) (a : Nat) (mask : Sectors) (x : Line) (p : Sectors) : (s.dramWrite a mask x p).boot = s.boot := by cases s; rfl
@[simp] theorem State.dramWrite_clk (s : State) (a : Nat) (mask : Sectors) (x : Line) (p : Sectors) : (s.dramWrite a mask x p).clk = s.clk := by cases s; rfl
@[simp] theorem State.dramWrite_power (s : State) (a : Nat) (mask : Sectors) (x : Line) (p : Sectors) : (s.dramWrite a mask x p).power = s.power := by cases s; rfl
@[simp] theorem State.dramWrite_jtag (s : State) (a : Nat) (mask : Sectors) (x : Line) (p : Sectors) : (s.dramWrite a mask x p).jtag = s.jtag := by cases s; rfl
@[simp] theorem State.dramWrite_polq (s : State) (a : Nat) (mask : Sectors) (x : Line) (p : Sectors) : (s.dramWrite a mask x p).polq = s.polq := by cases s; rfl
@[simp] theorem State.dramWrite_mgmt (s : State) (a : Nat) (mask : Sectors) (x : Line) (p : Sectors) : (s.dramWrite a mask x p).mgmt = s.mgmt := by cases s; rfl
@[simp] theorem State.dramWrite_panel (s : State) (a : Nat) (mask : Sectors) (x : Line) (p : Sectors) : (s.dramWrite a mask x p).panel = s.panel := by cases s; rfl
@[simp] theorem State.dramWrite_pool (s : State) (a : Nat) (mask : Sectors) (x : Line) (p : Sectors) : (s.dramWrite a mask x p).pool = s.pool := by cases s; rfl
@[simp] theorem State.dramWrite_img (s : State) (a : Nat) (mask : Sectors) (x : Line) (p : Sectors) : (s.dramWrite a mask x p).img = s.img := by cases s; rfl
@[simp] theorem State.dramWrite_pol (s : State) (a : Nat) (mask : Sectors) (x : Line) (p : Sectors) : (s.dramWrite a mask x p).pol = s.pol := by cases s; rfl
@[simp] theorem State.dramWrite_timeBase (s : State) (a : Nat) (mask : Sectors) (x : Line) (p : Sectors) : (s.dramWrite a mask x p).timeBase = s.timeBase := by cases s; rfl
@[simp] theorem State.dramWrite_bays (s : State) (a : Nat) (mask : Sectors) (x : Line) (p : Sectors) : (s.dramWrite a mask x p).bays = s.bays := by cases s; rfl
@[simp] theorem State.dramWrite_bayPoison (s : State) (a : Nat) (mask : Sectors) (x : Line) (p : Sectors) : (s.dramWrite a mask x p).bayPoison = s.bayPoison := by cases s; rfl
@[simp] theorem State.dramWrite_slices (s : State) (a : Nat) (mask : Sectors) (x : Line) (p : Sectors) : (s.dramWrite a mask x p).slices = s.slices := by cases s; rfl
@[simp] theorem State.dramWrite_dir (s : State) (a : Nat) (mask : Sectors) (x : Line) (p : Sectors) : (s.dramWrite a mask x p).dir = s.dir := by cases s; rfl
@[simp] theorem State.dramWrite_vds (s : State) (a : Nat) (mask : Sectors) (x : Line) (p : Sectors) : (s.dramWrite a mask x p).vds = s.vds := by cases s; rfl
@[simp] theorem State.dramWrite_ports (s : State) (a : Nat) (mask : Sectors) (x : Line) (p : Sectors) : (s.dramWrite a mask x p).ports = s.ports := by cases s; rfl
@[simp] theorem State.dramWrite_hyl (s : State) (a : Nat) (mask : Sectors) (x : Line) (p : Sectors) : (s.dramWrite a mask x p).hyl = s.hyl := by cases s; rfl
@[simp] theorem State.dramWrite_colls (s : State) (a : Nat) (mask : Sectors) (x : Line) (p : Sectors) : (s.dramWrite a mask x p).colls = s.colls := by cases s; rfl
@[simp] theorem State.dramWrite_collHeld (s : State) (a : Nat) (mask : Sectors) (x : Line) (p : Sectors) : (s.dramWrite a mask x p).collHeld = s.collHeld := by cases s; rfl
@[simp] theorem State.dramWrite_limits (s : State) (a : Nat) (mask : Sectors) (x : Line) (p : Sectors) : (s.dramWrite a mask x p).limits = s.limits := by cases s; rfl
@[simp] theorem State.dramWrite_queues (s : State) (a : Nat) (mask : Sectors) (x : Line) (p : Sectors) : (s.dramWrite a mask x p).queues = s.queues := by cases s; rfl
@[simp] theorem State.dramWrite_hop (s : State) (a : Nat) (mask : Sectors) (x : Line) (p : Sectors) : (s.dramWrite a mask x p).hop = s.hop := by cases s; rfl
@[simp] theorem State.dramWrite_slu (s : State) (a : Nat) (mask : Sectors) (x : Line) (p : Sectors) : (s.dramWrite a mask x p).slu = s.slu := by cases s; rfl
@[simp] theorem State.dramWrite_dax (s : State) (a : Nat) (mask : Sectors) (x : Line) (p : Sectors) : (s.dramWrite a mask x p).dax = s.dax := by cases s; rfl
@[simp] theorem State.dramWrite_spill (s : State) (a : Nat) (mask : Sectors) (x : Line) (p : Sectors) : (s.dramWrite a mask x p).spill = s.spill := by cases s; rfl
@[simp] theorem State.dramWrite_flume (s : State) (a : Nat) (mask : Sectors) (x : Line) (p : Sectors) : (s.dramWrite a mask x p).flume = s.flume := by cases s; rfl
@[simp] theorem State.dramWrite_runners (s : State) (a : Nat) (mask : Sectors) (x : Line) (p : Sectors) : (s.dramWrite a mask x p).runners = s.runners := by cases s; rfl
@[simp] theorem State.dramWrite_races (s : State) (a : Nat) (mask : Sectors) (x : Line) (p : Sectors) : (s.dramWrite a mask x p).races = s.races := by cases s; rfl
@[simp] theorem State.dramWrite_pen (s : State) (a : Nat) (mask : Sectors) (x : Line) (p : Sectors) : (s.dramWrite a mask x p).pen = s.pen := by cases s; rfl
@[simp] theorem State.dramWrite_flt (s : State) (a : Nat) (mask : Sectors) (x : Line) (p : Sectors) : (s.dramWrite a mask x p).flt = s.flt := by cases s; rfl
@[simp] theorem State.dramWrite_gauges (s : State) (a : Nat) (mask : Sectors) (x : Line) (p : Sectors) : (s.dramWrite a mask x p).gauges = s.gauges := by cases s; rfl

@[simp] theorem State.draw_pending (s : State) : s.draw.2.pending = s.pending := rfl
@[simp] theorem State.draw_out (s : State) : s.draw.2.out = s.out := rfl
@[simp] theorem State.draw_stall (s : State) : s.draw.2.stall = s.stall := rfl
@[simp] theorem State.draw_ends (s : State) : s.draw.2.ends = s.ends := rfl
@[simp] theorem State.draw_dies (s : State) : s.draw.2.dies = s.dies := rfl
@[simp] theorem State.draw_inv (s : State) : s.draw.2.inv = s.inv := rfl
@[simp] theorem State.draw_fuses (s : State) : s.draw.2.fuses = s.fuses := rfl
@[simp] theorem State.draw_straps (s : State) : s.draw.2.straps = s.straps := rfl
@[simp] theorem State.draw_board (s : State) : s.draw.2.board = s.board := rfl
@[simp] theorem State.draw_boot (s : State) : s.draw.2.boot = s.boot := rfl
@[simp] theorem State.draw_clk (s : State) : s.draw.2.clk = s.clk := rfl
@[simp] theorem State.draw_power (s : State) : s.draw.2.power = s.power := rfl
@[simp] theorem State.draw_jtag (s : State) : s.draw.2.jtag = s.jtag := rfl
@[simp] theorem State.draw_polq (s : State) : s.draw.2.polq = s.polq := rfl
@[simp] theorem State.draw_mgmt (s : State) : s.draw.2.mgmt = s.mgmt := rfl
@[simp] theorem State.draw_panel (s : State) : s.draw.2.panel = s.panel := rfl
@[simp] theorem State.draw_pool (s : State) : s.draw.2.pool = s.pool := rfl
@[simp] theorem State.draw_img (s : State) : s.draw.2.img = s.img := rfl
@[simp] theorem State.draw_pol (s : State) : s.draw.2.pol = s.pol := rfl
@[simp] theorem State.draw_timeBase (s : State) : s.draw.2.timeBase = s.timeBase := rfl
@[simp] theorem State.draw_mem (s : State) : s.draw.2.mem = s.mem := rfl
@[simp] theorem State.draw_memPoison (s : State) : s.draw.2.memPoison = s.memPoison := rfl
@[simp] theorem State.draw_bays (s : State) : s.draw.2.bays = s.bays := rfl
@[simp] theorem State.draw_bayPoison (s : State) : s.draw.2.bayPoison = s.bayPoison := rfl
@[simp] theorem State.draw_slices (s : State) : s.draw.2.slices = s.slices := rfl
@[simp] theorem State.draw_dir (s : State) : s.draw.2.dir = s.dir := rfl
@[simp] theorem State.draw_vds (s : State) : s.draw.2.vds = s.vds := rfl
@[simp] theorem State.draw_ports (s : State) : s.draw.2.ports = s.ports := rfl
@[simp] theorem State.draw_hyl (s : State) : s.draw.2.hyl = s.hyl := rfl
@[simp] theorem State.draw_colls (s : State) : s.draw.2.colls = s.colls := rfl
@[simp] theorem State.draw_collHeld (s : State) : s.draw.2.collHeld = s.collHeld := rfl
@[simp] theorem State.draw_limits (s : State) : s.draw.2.limits = s.limits := rfl
@[simp] theorem State.draw_queues (s : State) : s.draw.2.queues = s.queues := rfl
@[simp] theorem State.draw_hop (s : State) : s.draw.2.hop = s.hop := rfl
@[simp] theorem State.draw_slu (s : State) : s.draw.2.slu = s.slu := rfl
@[simp] theorem State.draw_dax (s : State) : s.draw.2.dax = s.dax := rfl
@[simp] theorem State.draw_spill (s : State) : s.draw.2.spill = s.spill := rfl
@[simp] theorem State.draw_flume (s : State) : s.draw.2.flume = s.flume := rfl
@[simp] theorem State.draw_runners (s : State) : s.draw.2.runners = s.runners := rfl
@[simp] theorem State.draw_races (s : State) : s.draw.2.races = s.races := rfl
@[simp] theorem State.draw_pen (s : State) : s.draw.2.pen = s.pen := rfl
@[simp] theorem State.draw_flt (s : State) : s.draw.2.flt = s.flt := rfl
@[simp] theorem State.draw_gauges (s : State) : s.draw.2.gauges = s.gauges := rfl

/-! ### Fields that an update sets -/

@[simp] theorem State.draw_freeCtr (s : State) : s.draw.2.freeCtr = s.freeCtr + 1 := rfl
@[simp] theorem State.draw_value (s : State) : s.draw.1 = Config.freeValue s.freeCtr := rfl
@[simp] theorem State.send_out (s : State) (o : OutMsg) : (s.send o).out = s.out ++ [o] := rfl
@[simp] theorem State.setVd_vds (s : State) (v : Nat) (x : Vd) : (s.setVd v x).vds = s.vds.setD v {} x := rfl
@[simp] theorem State.modVd_vds (s : State) (v : Nat) (f : Vd → Vd) : (s.modVd v f).vds = s.vds.setD v {} (f (s.vd v)) := rfl
@[simp] theorem State.setSlice_slices (s : State) (n : Nat) (x : Slice) : (s.setSlice n x).slices = s.slices.setD n {} x := rfl
@[simp] theorem State.modSlice_slices (s : State) (n : Nat) (f : Slice → Slice) :
    (s.modSlice n f).slices = s.slices.setD n {} (f (s.slice n)) := rfl
@[simp] theorem State.setQueue_queues (s : State) (q : QueueId) (x : SharedQ) :
    (s.setQueue q x).queues = s.queues.setD q.key {} x := rfl
@[simp] theorem State.modPort_ports (s : State) (p : Nat) (f : CxlPort → CxlPort) :
    (s.modPort p f).ports = s.ports.setD p {} (f (s.port p)) := rfl
@[simp] theorem State.dramWrite_mem (s : State) (a : Nat) (mask : Sectors) (x : Line) (p : Sectors) :
    (s.dramWrite a mask x p).mem = writeLine s.mem a (sectorBytes mask) x := by cases s; rfl
@[simp] theorem State.dramWrite_memPoison (s : State) (a : Nat) (mask : Sectors) (x : Line) (p : Sectors) :
    (s.dramWrite a mask x p).memPoison = setPoison s.memPoison a mask p := by cases s; rfl

/-! ### Units by number after an update -/

theorem State.vd_setVd {s : State} (h : Tab.wf s.vds = true) (v w : Nat) (x : Vd) :
    (s.setVd v x).vd w = if w = v then x else s.vd w := Tab.getD_setD h w v {} x

theorem State.vd_modVd {s : State} (h : Tab.wf s.vds = true) (v w : Nat) (f : Vd → Vd) :
    (s.modVd v f).vd w = if w = v then f (s.vd v) else s.vd w := Tab.getD_setD h w v {} _

theorem State.slice_setSlice {s : State} (h : Tab.wf s.slices = true) (n m : Nat) (x : Slice) :
    (s.setSlice n x).slice m = if m = n then x else s.slice m := Tab.getD_setD h m n {} x

theorem State.slice_modSlice {s : State} (h : Tab.wf s.slices = true) (n m : Nat) (f : Slice → Slice) :
    (s.modSlice n f).slice m = if m = n then f (s.slice n) else s.slice m := Tab.getD_setD h m n {} _

theorem State.port_modPort {s : State} (h : Tab.wf s.ports = true) (p q : Nat) (f : CxlPort → CxlPort) :
    (s.modPort p f).port q = if q = p then f (s.port p) else s.port q := Tab.getD_setD h q p {} _

theorem State.queue_setQueue {s : State} (h : Tab.wf s.queues = true) (q r : QueueId) (x : SharedQ) :
    (s.setQueue q x).queue r = if r.key = q.key then x else s.queue r := Tab.getD_setD h r.key q.key {} x

end Sys2Proof.Machine
end

