-- ==== Sys2Proof/Laws/Memory.lean ====
section
/-!
SUPPORT. The laws of the byte memories (DRAM and the pinned bays): a byte reads as last written, a write leaves every other byte,
and every write keeps the canonical form.
-/
namespace Sys2Proof.Machine

theorem Memory.wf_nil : Memory.wf [] := rfl

theorem Memory.wf_writeByte {m : List Host.Cell} (h : Memory.wf m) (a : Nat) (b : Byte) : Memory.wf (writeByte m a b) :=
  Tab.wfD_setD h a b

theorem Memory.wf_writeBytes {m : List Host.Cell} (h : Memory.wf m) (a : Nat) (bs : List Byte) : Memory.wf (writeBytes m a bs) := by
  induction bs generalizing m a with
  | nil => exact h
  | cons b t ih => exact ih (Memory.wf_writeByte h a b) (a + 1)

theorem Memory.wf_writeLine {m : List Host.Cell} (h : Memory.wf m) (a : Nat) (mask : BitVec 128) (x : Line) :
    Memory.wf (writeLine m a mask x) := by
  unfold writeLine
  generalize List.range 128 = l
  induction l generalizing m with
  | nil => exact h
  | cons i l ih =>
    simp only [List.foldl_cons]
    split
    · exact ih (Memory.wf_writeByte h _ _)
    · exact ih h

theorem Memory.wf_dramWrite {s : State} (h : Memory.wf s.mem) (a : Nat) (mask : Sectors) (x : Line) (p : Sectors) :
    Memory.wf (s.dramWrite a mask x p).mem := by
  rw [State.dramWrite_mem]; exact Memory.wf_writeLine h a _ x

theorem readByte_writeByte {m : List Host.Cell} (h : Memory.wf m) (a c : Nat) (b : Byte) :
    readByte (writeByte m a b) c = if c = a then b else readByte m c := Tab.getD_setD (Tab.wf_of_wfD h) c a 0 b

/-- Consecutive writes: inside the written bytes the new byte, outside them the old one. -/
theorem readByte_writeBytes {m : List Host.Cell} (h : Memory.wf m) (a c : Nat) (bs : List Byte) :
    readByte (writeBytes m a bs) c = if a ≤ c ∧ c < a + bs.length then bs.getD (c - a) 0 else readByte m c := by
  induction bs generalizing m a with
  | nil => rw [if_neg (by simp only [List.length_nil]; omega)]; rfl
  | cons b t ih =>
    simp only [writeBytes]
    rw [ih (Memory.wf_writeByte h a b), readByte_writeByte h]
    simp only [List.length_cons]
    by_cases hc : c = a
    · subst hc
      rw [if_neg (by omega), if_pos rfl, if_pos (by omega)]; simp
    · rw [if_neg hc]
      by_cases hi : a + 1 ≤ c ∧ c < a + 1 + t.length
      · rw [if_pos hi, if_pos (by omega)]
        obtain ⟨d, rfl⟩ : ∃ d, c = a + 1 + d := ⟨c - (a + 1), by omega⟩
        rw [show a + 1 + d - (a + 1) = d by omega, show a + 1 + d - a = d + 1 by omega]; simp
      · rw [if_neg hi, if_neg (by omega)]

/-- A byte outside the 128 of a line is as before. -/
theorem readByte_writeLine_outside {m : List Host.Cell} (h : Memory.wf m) (a c : Nat) (mask : BitVec 128) (x : Line)
    (hc : c < a ∨ a + 128 ≤ c) : readByte (writeLine m a mask x) c = readByte m c := by
  unfold writeLine
  have hl : ∀ i ∈ List.range 128, i < 128 := fun i hi => List.mem_range.1 hi
  generalize List.range 128 = l at hl
  induction l generalizing m with
  | nil => rfl
  | cons i l ih =>
    simp only [List.foldl_cons]
    have hi := hl i List.mem_cons_self
    split
    · rw [ih (Memory.wf_writeByte h _ _) (fun j hj => hl j (List.mem_cons_of_mem _ hj)), readByte_writeByte h, if_neg (by omega)]
    · exact ih h (fun j hj => hl j (List.mem_cons_of_mem _ hj))

end Sys2Proof.Machine
end

