-- ==== Sys2Proof/Laws/Rows.lean ====
section
/-!
SUPPORT. What the shared frames of the rows answer: a row that need not wait, a window or mailbox that is open, a management
request that is served. Each lemma says it once, so that a proof about a row never unfolds its frame.
-/
namespace Sys2Proof.Machine

/-- A row that waits for nothing answers with its own effect. -/
theorem State.orWait_next {s : State} {pick : Nat} {f : State → State} (h : (f s.fresh).stall = []) :
    s.orWait pick f = f s.fresh := by
  simp only [State.fresh] at h ⊢
  simp [State.orWait, h]

/-- A row that waits starts what it waits for, and does nothing else. -/
theorem State.orWait_wait {s : State} {pick : Nat} {f : State → State} (h : (f s.fresh).stall ≠ []) :
    s.orWait pick f = (f s.fresh).stall.foldl (fun s y => s.startStall pick y) s := by
  simp only [State.fresh] at h ⊢
  simp [State.orWait, h]

@[simp] theorem State.fresh_stall (s : State) : s.fresh.stall = [] := rfl
@[simp] theorem State.fresh_boot (s : State) : s.fresh.boot = s.boot := rfl
@[simp] theorem State.fresh_pending (s : State) : s.fresh.pending = s.pending := rfl
@[simp] theorem State.fresh_freeCtr (s : State) : s.fresh.freeCtr = s.freeCtr := rfl
@[simp] theorem State.fresh_out (s : State) : s.fresh.out = s.out := rfl
@[simp] theorem State.fresh_ends (s : State) : s.fresh.ends = s.ends := rfl
@[simp] theorem State.fresh_dies (s : State) : s.fresh.dies = s.dies := rfl
@[simp] theorem State.fresh_inv (s : State) : s.fresh.inv = s.inv := rfl
@[simp] theorem State.fresh_fuses (s : State) : s.fresh.fuses = s.fuses := rfl
@[simp] theorem State.fresh_straps (s : State) : s.fresh.straps = s.straps := rfl
@[simp] theorem State.fresh_board (s : State) : s.fresh.board = s.board := rfl
@[simp] theorem State.fresh_clk (s : State) : s.fresh.clk = s.clk := rfl
@[simp] theorem State.fresh_power (s : State) : s.fresh.power = s.power := rfl
@[simp] theorem State.fresh_jtag (s : State) : s.fresh.jtag = s.jtag := rfl
@[simp] theorem State.fresh_polq (s : State) : s.fresh.polq = s.polq := rfl
@[simp] theorem State.fresh_mgmt (s : State) : s.fresh.mgmt = s.mgmt := rfl
@[simp] theorem State.fresh_panel (s : State) : s.fresh.panel = s.panel := rfl
@[simp] theorem State.fresh_pool (s : State) : s.fresh.pool = s.pool := rfl
@[simp] theorem State.fresh_img (s : State) : s.fresh.img = s.img := rfl
@[simp] theorem State.fresh_pol (s : State) : s.fresh.pol = s.pol := rfl
@[simp] theorem State.fresh_timeBase (s : State) : s.fresh.timeBase = s.timeBase := rfl
@[simp] theorem State.fresh_mem (s : State) : s.fresh.mem = s.mem := rfl
@[simp] theorem State.fresh_memPoison (s : State) : s.fresh.memPoison = s.memPoison := rfl
@[simp] theorem State.fresh_bays (s : State) : s.fresh.bays = s.bays := rfl
@[simp] theorem State.fresh_bayPoison (s : State) : s.fresh.bayPoison = s.bayPoison := rfl
@[simp] theorem State.fresh_slices (s : State) : s.fresh.slices = s.slices := rfl
@[simp] theorem State.fresh_dir (s : State) : s.fresh.dir = s.dir := rfl
@[simp] theorem State.fresh_ports (s : State) : s.fresh.ports = s.ports := rfl
@[simp] theorem State.fresh_hyl (s : State) : s.fresh.hyl = s.hyl := rfl
@[simp] theorem State.fresh_colls (s : State) : s.fresh.colls = s.colls := rfl
@[simp] theorem State.fresh_collHeld (s : State) : s.fresh.collHeld = s.collHeld := rfl
@[simp] theorem State.fresh_limits (s : State) : s.fresh.limits = s.limits := rfl
@[simp] theorem State.fresh_queues (s : State) : s.fresh.queues = s.queues := rfl
@[simp] theorem State.fresh_hop (s : State) : s.fresh.hop = s.hop := rfl
@[simp] theorem State.fresh_slu (s : State) : s.fresh.slu = s.slu := rfl
@[simp] theorem State.fresh_dax (s : State) : s.fresh.dax = s.dax := rfl
@[simp] theorem State.fresh_spill (s : State) : s.fresh.spill = s.spill := rfl
@[simp] theorem State.fresh_flume (s : State) : s.fresh.flume = s.flume := rfl
@[simp] theorem State.fresh_runners (s : State) : s.fresh.runners = s.runners := rfl
@[simp] theorem State.fresh_races (s : State) : s.fresh.races = s.races := rfl
@[simp] theorem State.fresh_pen (s : State) : s.fresh.pen = s.pen := rfl
@[simp] theorem State.fresh_flt (s : State) : s.fresh.flt = s.flt := rfl
@[simp] theorem State.fresh_gauges (s : State) : s.fresh.gauges = s.gauges := rfl
@[simp] theorem State.fresh_vds (s : State) : s.fresh.vds = s.vds := rfl
@[simp] theorem State.fresh_vd (s : State) (v : Nat) : s.fresh.vd v = s.vd v := rfl
@[simp] theorem State.fresh_port (s : State) (p : Nat) : s.fresh.port p = s.port p := rfl
@[simp] theorem State.fresh_cmd? (s : State) (q : Nat) : s.fresh.cmd? q = s.cmd? q := rfl
@[simp] theorem State.fresh_resetAt (s : State) (v k : Nat) : s.fresh.resetAt v k = s.resetAt v k := rfl
@[simp] theorem State.fresh_mbReach (s : State) (v : Nat) : s.fresh.mbReach v = s.mbReach v := by
  simp only [State.mbReach, State.windowShut, State.fresh_port, show s.fresh.exposed = s.exposed from rfl,
    show s.fresh.ideBlocks = s.ideBlocks from rfl]
  split
  · rfl
  · split
    · split <;> rfl
    · split <;> rfl
@[simp] theorem State.fresh_served (s : State) (h : MctpHdr) (t : Nat) : s.fresh.served h t = s.served h t := rfl
@[simp] theorem State.fresh_vdExists (s : State) (v : Nat) : s.fresh.vdExists v = s.vdExists v := rfl

/-- An open window takes an access. -/
theorem State.windowShut_open {s : State} {m : Mmio} (h : s.WindowOpen m.vd) (hm : m.ld = none) : s.windowShut m = none := by
  obtain ⟨-, hl, he, hi, -⟩ := h
  have : ¬ 16 ≤ m.vd % 16 := by omega
  simp [State.windowShut, hm, hl, he, hi, this]

/-- A write to an open window acts at once. -/
theorem State.winWrite_open {s : State} {m : Mmio} (f : State → State) (w : RegWrite) (h : s.WindowOpen m.vd) (hm : m.ld = none) :
    s.winWrite m f w = f s := by
  have h1 := State.windowShut_open h hm
  obtain ⟨-, -, -, -, hw, hs, ha, hr⟩ := h
  simp [State.winWrite, h1, hw, hs, ha, hr]

/-- A mailbox command on an open mailbox answers with its return code and values. -/
theorem State.mbServe_open {s : State} {v : Nat} (op : Nat) (early : Bool) (f : State → RetCode × List Nat × State)
    (h : s.MailboxOpen v) : s.mbServe v op early f = (f s).2.2.send (.mb v op (f s).1 (f s).2.1) := by
  obtain ⟨hr, hw, -, ha⟩ := h
  simp [State.mbServe, hr, hw, ha]

/-- An FM API request in its turn is answered with its return code and values. -/
theorem State.fmServe_open {s : State} {h : MctpHdr} (op : Nat) (f : State → RetCode × List Nat × State) (ho : s.FmOpen h) :
    s.fmServe h op f = ((f s).2.2.mgmtFree h).send (.fm h op (f s).1 (f s).2.1) := by
  obtain ⟨hs, hp⟩ := ho
  rcases hp with hp | hp <;> simp [State.fmServe, hs, hp]

end Sys2Proof.Machine
end

