-- ==== Sys2Proof/Machine/CxlConfig.lean ====
section
/-!
DEFINITION. What the configuration space and the CDAT of an exposed LD present (R120, R126-R128). No row of the table reads them:
they are views of the state for statements about what a host finds.
-/
namespace Sys2Proof.Machine

/-- The extended capabilities of Table 05-3. -/
inductive CfgCap where
  /-- PCIe DVSEC for CXL Devices (0x0000): Mem_Capable, Cache_Capable, HDM_Count, Range 1 size, Memory_Active_Timeout, CXL Reset
  Capable, CXL Reset Mem Clr Capable, CXL Reset Timeout, Viral Capable. -/
  | cxlDevice (mem cache hdmCount range1 activeTimeout reset memClr resetTimeout viral : Nat)
  /-- Its Range 1 status: Memory_Info_Valid and Memory_Active (R154, R155). -/
  | range1 (infoValid active : Bool)
  /-- Flex Bus Port DVSEC (0x0007): CXL.io, CXL.mem, 256 B flit, latency-optimised flit, 68 B flit. -/
  | flexBus (io mem flit256 latency flit68 : Bool)
  /-- Register Locator DVSEC (0x0008): component and device registers by their window offsets. -/
  | locator (component device : Nat)
  /-- MLD DVSEC (0x0009): the number of LDs. -/
  | mld (lds : Nat)
  /-- Data Object Exchange: discovery, CMA/SPDM, Secured CMA/SPDM and CDAT. -/
  | doe
  | msix (vectors : Nat)
  | ide (io mem : Bool)
  /-- AER, Power Management and the Device Serial Number. -/
  | aer
  | powerManagement
  | serialNumber (serial : Nat)
  deriving DecidableEq, Repr

/-- A component register capability of an LD (R127). -/
inductive ComponentCap where
  | hdmDecoder (decoders : Nat)
  | ras
  | link
  | ide
  | biDecoder
  deriving DecidableEq, Repr

/-- A base address register pair: its configuration offset and the size of the window it decodes; both are 64-bit and
non-prefetchable (R126). -/
structure BarPair where
  off : Nat
  size : Nat
  deriving DecidableEq, Repr

/-- PCIe function 0 of an LD (R126, R127). -/
structure LdFunction where
  vendor : BitVec 16 := Config.vendorId
  device : BitVec 16 := Config.deviceId
  classCode : BitVec 24
  bars : List BarPair
  caps : List CfgCap
  component : List ComponentCap
  deriving DecidableEq, Repr

/-- R120, Table 05-1: the parts differ in IDE for CXL.mem and in the highest rate. -/
def Fuses.ideMem (f : Fuses) : Bool := !f.prevGen

/-- Table 05-3 for LD `l` of port `p`. -/
def State.cfgCaps (s : State) (p l : Nat) : List CfgCap :=
  [.cxlDevice 1 0 1 0 1 1 1 1 0, .range1 true s.boot.memActive, .flexBus true true true true false, .locator 0 0x10000]
    ++ (if (s.port p).mld then [.mld (s.img.ports.getD p {}).ldCount] else [])
    ++ (if l = 0 then [.doe] else [])
    ++ [.msix 32, .ide true s.fuses.ideMem, .aer, .powerManagement, .serialNumber s.fuses.serial]

/-- What an LD presents whose port is up: LD 0 from link-up on, the others once exposed (R122, R124, R129, R154). -/
def State.ldFunction (s : State) (p l : Nat) : Option LdFunction :=
  if decide ((s.port p).link = 2) && s.exposed p l then
    some { classCode := 0x050210, bars := [{ off := 0x10, size := 2 ^ 20 }, { off := 0x18, size := 2 ^ 16 }], caps := s.cfgCaps p l
           component := [.hdmDecoder 2, .ras, .link, .ide] ++ if (s.img.ports.getD p {}).hdmDbAllowed then [.biDecoder] else [] }
  else none

/-- R21, Table 01-2: the raw bandwidth of a CXL port in GB/s. -/
def Fuses.portBandwidth (f : Fuses) : Nat := if f.prevGen then 64 else 128

/-- R128: the CDAT of a VD: the DSMAS ranges of its dynamic capacity regions (base and length), and the DSLBIS values: latencies
in ns, bandwidths in GB/s. -/
structure Cdat where
  dsmas : List (Nat × Nat)
  readLatency : Nat := 320
  writeLatency : Nat := 180
  readBandwidth : Nat
  writeBandwidth : Nat
  deriving DecidableEq, Repr

def State.cdat (s : State) : Cdat :=
  { dsmas := (List.range 8).map fun r => (r * 2 ^ 39, 2 ^ 39), readBandwidth := s.fuses.portBandwidth
    writeBandwidth := s.fuses.portBandwidth }

end Sys2Proof.Machine
end

