-- ==== Sys2Proof/WellFormed.lean ====
section
/-!
DEFINITION. Well-formed commands: every operand that numbers a unit lies in the unit's range.
-/
namespace Sys2Proof
open Sys2Proof.Machine

/-- 64 virtual devices (R91). -/
def vdOk (n : Nat) : Bool := decide (n < 64)
/-- 64 slices (R17). -/
def sliceOk (n : Nat) : Bool := decide (n < 64)
/-- Eight slice dies (R24). -/
def dieOk (n : Nat) : Bool := decide (n < 8)
/-- Sixteen rings of a VD (R299). -/
def ringOk (n : Nat) : Bool := decide (n < 16)
/-- 128 gauges and two views of each VD (R529). -/
def gaugeOk (n : Nat) : Bool := decide (n < 256)
/-- 256 channels (R24). -/
def channelOk (n : Nat) : Bool := decide (n < 256)
/-- 1152 bays: 18 in each slice. -/
def bayOk (n : Nat) : Bool := decide (n < 1152)
/-- 128 pool device numbers (R445). -/
def deviceOk (n : Nat) : Bool := decide (n < 128)
/-- Sixteen Hopper pools (R96). -/
def poolOk (n : Nat) : Bool := decide (n < 16)
/-- Four sessions (R556). -/
def sessionOk (n : Nat) : Bool := decide (n < 4)
/-- Eight die Races and the central Race (R406). -/
def raceOk (n : Nat) : Bool := decide (n < 9)
/-- R406: ten ports of a die Race, 23 of the central Race. -/
def racePorts (race : Nat) : Nat := if race < 8 then 10 else 23
/-- A LD-ID below that of the FM-owned LD (R129). -/
def ldOk (n : Nat) : Bool := decide (n < 65535)
/-- Eight cages (R605). -/
def cageOk (n : Nat) : Bool := decide (n < 8)
/-- Four CXL ports. -/
def portOk (n : Nat) : Bool := decide (n < 4)
/-- Eight HyhanLink ports (R410). -/
def hylOk (n : Nat) : Bool := decide (n < 8)
/-- A management message arrives over SMBus or over one of the four ports (R546). -/
def hdrOk (h : MctpHdr) : Bool := h.port.all portOk
/-- A CXL.mem request comes from one of the four ports, at a 64-byte address (R138). -/
def cxlReqOk (r : CxlReq) : Bool := portOk r.port && decide (r.dpa % 64 = 0)
/-- A coherence message names a pool device (Table 08-2). -/
def cohOk (m : CohMsg) : Bool := deviceOk m.dev
/-- A window access is one of a VD's (R126). -/
def mmioOk (m : Mmio) : Bool := vdOk m.vd

/-- Every operand of the command lies in its range. -/
def Instr.wf : Instr → Bool
  | .powerOn _ _ => true
  | .mgmtIslandStart => true
  | .quietClockLock => true
  | .sfdpParse _ _ _ _ _ => true
  | .discoveryStart => true
  | .slicePllLock die => dieOk die
  | .leatWireTraining die _ _ => dieOk die
  | .identityMessage die _ _ _ _ => dieOk die
  | .channelFailureMaskReport die _ => dieOk die
  | .discoveryDeadline _ => true
  | .inventoryFix => true
  | .cxlTrainingStart port => portOk port
  | .slotStage _ _ => true
  | .slotSelection => true
  | .imageApply _ => true
  | .coldRstNAssert => true
  | .warmRstNAssert => true
  | .warmResetTaskStop => true
  | .warmResetFlush _ _ => true
  | .warmImageReapply _ => true
  | .warmResetComplete _ => true
  | .portReset port _ _ => portOk port
  | .powerLoss => true
  | .refGlitch _ _ => true
  | .refLoss _ _ => true
  | .freqWindowEnd _ _ _ => true
  | .refReturn _ => true
  | .quietClockFail _ => true
  | .thermalSample die _ => dieOk die
  | .iodThermalTrip _ => true
  | .sliceClockGate slice => sliceOk slice
  | .slicePowerGate slice _ _ => sliceOk slice
  | .sliceWake slice _ => sliceOk slice
  | .runnerGate slice => sliceOk slice
  | .stackSelfRefresh die _ _ => dieOk die
  | .cardPowerSense _ _ => true
  | .leatEccError die _ _ _ => dieOk die
  | .testLogicReset => true
  | .extest _ _ => true
  | .idcode => true
  | .sample _ => true
  | .preload _ => true
  | .clamp => true
  | .highz => true
  | .ijtagAccess => true
  | .dieSummary => true
  | .bypass => true
  | .sibUpdate _ => true
  | .dieComPowered die => dieOk die
  | .policyWriteArrive _ _ _ => true
  | .fmThreshWrite => true
  | .fmWscaleWrite => true
  | .refreshCapWrite => true
  | .srMinIdleWrite => true
  | .pgMinIdleWrite => true
  | .keepAwakeWrite _ => true
  | .spillMaxKWrite => true
  | .hylEqHoldWrite => true
  | .fantailCtrlWrite => true
  | .regionPolicyWrite => true
  | .vdQuotaTaskWrite => true
  | .vdQuotaBufWrite => true
  | .vdQuotaPageWrite => true
  | .vdQuotaPenWrite => true
  | .vdQosWrite => true
  | .policyWriteComplete => true
  | .linkUp port _ _ _ _ _ _ => portOk port
  | .linkDown port _ _ => portOk port
  | .l1EntryRequest port _ => portOk port
  | .ideIntegrityFailure port _ => portOk port
  | .functionLevelReset port ld => portOk port && ldOk ld
  | .cxlReset port ld _ => portOk port && ldOk ld
  | .memRd r ld _ _ => cxlReqOk r && ldOk ld
  | .memWr r ld _ _ => cxlReqOk r && ldOk ld
  | .memClnEvct r ld _ _ => cxlReqOk r && ldOk ld
  | .memSpecRd port ld _ _ _ => portOk port && ldOk ld
  | .birsp port _ _ _ _ => portOk port
  | .bisnpTimeout port _ _ => portOk port
  | .biconflict port _ _ => portOk port
  | .devloadUpdate port => portOk port
  | .getLdInfo h port => hdrOk h && portOk port
  | .getLdAllocations h port => hdrOk h && portOk port
  | .setLdAllocations h => hdrOk h
  | .getQosControl h port => hdrOk h && portOk port
  | .setQosControl h => hdrOk h
  | .getQosStatus h port => hdrOk h && portOk port
  | .getQosAllocatedBw h port => hdrOk h && portOk port
  | .getDcdInfo h => hdrOk h
  | .getHostDcRegionConfiguration h vd => hdrOk h && vdOk vd
  | .setDcRegionConfiguration h vd _ _ _ _ => hdrOk h && vdOk vd
  | .getDcRegionExtentLists h vd => hdrOk h && vdOk vd
  | .initiateDynamicCapacityAdd h vd _ _ => hdrOk h && vdOk vd
  | .initiateDynamicCapacityRelease h vd _ _ _ => hdrOk h && vdOk vd
  | .fmApiUnsupported h _ => hdrOk h
  | .extentOfferTimeout vd _ => vdOk vd
  | .mbIdentify vd => vdOk vd
  | .backgroundOperationStatus vd => vdOk vd
  | .getEventRecords vd _ => vdOk vd
  | .clearEventRecords vd _ _ _ => vdOk vd
  | .getEventInterruptPolicy vd => vdOk vd
  | .setEventInterruptPolicy vd _ _ => vdOk vd
  | .getTimestamp vd => vdOk vd
  | .setTimestamp vd _ => vdOk vd
  | .getSupportedLogs vd => vdOk vd
  | .getLog vd _ => vdOk vd
  | .identifyMemoryDevice vd => vdOk vd
  | .getHealthInfo vd => vdOk vd
  | .getAlertConfiguration vd => vdOk vd
  | .setAlertConfiguration vd _ => vdOk vd
  | .getPoisonList vd _ _ => vdOk vd
  | .injectPoison vd _ _ => vdOk vd
  | .clearPoison vd _ _ _ => vdOk vd
  | .getScanMediaCapabilities vd _ _ => vdOk vd
  | .scanMedia vd _ _ => vdOk vd
  | .getScanMediaResults vd => vdOk vd
  | .sanitize vd => vdOk vd
  | .secureErase vd => vdOk vd
  | .backgroundOperationDone vd _ => vdOk vd
  | .getDynamicCapacityConfiguration vd => vdOk vd
  | .getDynamicCapacityExtentList vd _ => vdOk vd
  | .addDynamicCapacityResponse vd _ => vdOk vd
  | .releaseDynamicCapacity vd _ _ => vdOk vd
  | .mailboxUnsupported vd _ => vdOk vd
  | .vdResetTrigger vd _ => vdOk vd
  | .vdResetTaskStop vd => vdOk vd
  | .vdResetAbandon vd => vdOk vd
  | .vdResetSweep vd _ => vdOk vd
  | .vdResetComplete vd _ => vdOk vd
  | .errRingCtrlWrite vd _ => vdOk vd
  | .errRingHeadWrite vd _ => vdOk vd
  | .errRingBaseWrite vd _ _ => vdOk vd
  | .errorRecordWriteFail vd => vdOk vd
  | .errRingMsixDefer vd => vdOk vd
  | .sharedEntryGrant _ _ _ => true
  | .localRead _ _ _ => true
  | .localWrite _ _ => true
  | .dramFillReturn _ _ => true
  | .localReduction _ _ => true
  | .sliceAtomic _ _ => true
  | .memSideAtomicDone _ _ => true
  | .rdS m _ => cohOk m
  | .rdX m _ => cohOk m
  | .upg m _ => cohOk m
  | .rdNc m _ => cohOk m
  | .wrNc m _ => cohOk m
  | .red m _ => cohOk m
  | .atom m _ => cohOk m
  | .snpInv m _ => cohOk m
  | .snpData m _ => cohOk m
  | .snpCur m _ => cohOk m
  | .rspI m _ => cohOk m
  | .rspS m _ => cohOk m
  | .rspE m _ => cohOk m
  | .rspNp m _ => cohOk m
  | .gntAck m _ => cohOk m
  | .cmp m _ => cohOk m
  | .cmpE m _ => cohOk m
  | .wbAck m _ => cohOk m
  | .fillS m _ => cohOk m
  | .fillE m _ => cohOk m
  | .rdDat m _ => cohOk m
  | .datI m _ => cohOk m
  | .datS m _ => cohOk m
  | .datE m _ => cohOk m
  | .wb m _ => cohOk m
  | .snoopTimeout _ dev _ => deviceOk dev
  | .directoryDepartureSweep slice dev => sliceOk slice && deviceOk dev
  | .release _ slice _ => sliceOk slice
  | .hopAlloc _ _ => true
  | .hopAdopt _ _ => true
  | .hopFree _ => true
  | .hopQuery _ _ => true
  | .hopTransfer _ _ => true
  | .transferSwitch _ _ => true
  | .quarantineEnd pool _ => poolOk pool
  | .hopperBackgroundPass => true
  | .sluiceWalk vd _ _ => vdOk vd
  | .pageZeroDone vd _ _ => vdOk vd
  | .pageMoveStart _ _ => true
  | .moveAckComplete vd _ => vdOk vd
  | .moveCopyDone vd _ _ => vdOk vd
  | .moveSourceFree vd _ => vdOk vd
  | .moveDeadline vd _ _ => vdOk vd
  | .fantailEvaluation => true
  | .promoteDone _ => true
  | .demoteDone _ => true
  | .slPlace _ _ => true
  | .slPin _ => true
  | .slUnpin _ => true
  | .slQuery _ _ => true
  | .slGrant _ _ => true
  | .slRevoke _ => true
  | .slAttach _ => true
  | .slDetach _ => true
  | .grantRevocation dev _ => deviceOk dev
  | .refreshLoopDecision channel _ => channelOk channel
  | .equalisationDecision port _ lane _ => hylOk port && decide (lane < 8)
  | .ringDb vd ring _ => vdOk vd && ringOk ring
  | .cqDb vd ring _ => vdOk vd && ringOk ring
  | .ringCtrlWrite vd ring _ => vdOk vd && ringOk ring
  | .ringBaseWrite vd ring _ _ => vdOk vd && ringOk ring
  | .descriptorRead vd ring _ => vdOk vd && ringOk ring
  | .cancelTag vd _ => vdOk vd
  | .cancelStream vd _ => vdOk vd
  | .cancelRing vd _ => vdOk vd
  | .cancelAllRings vd _ => vdOk vd
  | .capturedEntryRead vd ring _ => vdOk vd && ringOk ring
  | .commandDecode _ => true
  | .commandReady _ _ => true
  | .taskCreate _ => true
  | .taskLaunch slice _ => sliceOk slice
  | .taskTerminate _ slice _ => sliceOk slice
  | .completionWriteFail vd ring _ => vdOk vd && ringOk ring
  | .ringMsixDefer vd ring => vdOk vd && ringOk ring
  | .nop _ => true
  | .fence _ => true
  | .copy _ slice _ => sliceOk slice
  | .fill _ slice _ => sliceOk slice
  | .compare _ slice _ => sliceOk slice
  | .atomic _ slice _ => sliceOk slice
  | .reduce _ slice _ => sliceOk slice
  | .matmul _ slice => sliceOk slice
  | .paramUpdate _ slice _ => sliceOk slice
  | .embGather _ slice _ => sliceOk slice
  | .kvAppend _ slice _ => sliceOk slice
  | .attnDecode _ slice _ => sliceOk slice
  | .collective _ _ => true
  | .serviceCall _ => true
  | .penLease _ _ => true
  | .penDrop _ => true
  | .penSignal _ => true
  | .penReset _ => true
  | .penRead _ => true
  | .penArm _ => true
  | .penExport _ _ => true
  | .penImport _ => true
  | .penUnexport _ => true
  | .runnerTileAttempt slice _ _ => sliceOk slice
  | .spill slice => sliceOk slice
  | .localTileLoaded slice _ => sliceOk slice
  | .accSetSwap slice _ => sliceOk slice
  | .drainDone slice _ => sliceOk slice
  | .flumeRunGrant die _ => dieOk die
  | .flumePeriodStart die _ _ => dieOk die
  | .flumeRunEnd die _ => dieOk die
  | .raceGrant race out arrived _ => raceOk race && decide (out < racePorts race) && arrived.all fun m => decide (m.inp < racePorts race) && decide (m.cls < 5)
  | .hylDetectPoll port _ => hylOk port
  | .hylTrainDone port _ _ _ => hylOk port
  | .trainingBlockReceive port _ _ => hylOk port
  | .hylConfigDone port => hylOk port
  | .flitReceive port _ => hylOk port
  | .replayTimeout port => hylOk port
  | .laneLockLoss port _ => hylOk port
  | .noFlitTimeout port => hylOk port
  | .recoveryAttemptTimeout port => hylOk port
  | .wreq port _ _ _ => hylOk port
  | .wack port _ => hylOk port
  | .widthChangeDone port => hylOk port
  | .hylIdleTimer port => hylOk port
  | .pmReq port => hylOk port
  | .pmAck port => hylOk port
  | .pmNak port => hylOk port
  | .l1ToL1d port => hylOk port
  | .hylWake port => hylOk port
  | .hylDownTimer port => hylOk port
  | .qsfpModuleDetect cage _ _ => cageOk cage
  | .hello port _ => hylOk port
  | .helloTimer port => hylOk port
  | .elect _ _ => true
  | .electTimeout => true
  | .joinReq _ _ _ => true
  | .joinReqTimer => true
  | .poolMember _ _ number _ _ _ => deviceOk number
  | .departureSweepDone device => deviceOk device
  | .linkState _ reporter device _ => deviceOk reporter && deviceOk device
  | .departureTimer device _ => deviceOk device
  | .leave _ device _ => deviceOk device
  | .sweepDone _ reporter device => deviceOk reporter && deviceOk device
  | .isolationTimer _ => true
  | .timeSyncTimer => true
  | .timeReq port => hylOk port
  | .timeRsp port _ _ => hylOk port
  | .unreach device _ _ _ _ => deviceOk device
  | .penReq dev vd _ _ _ _ _ => deviceOk dev && vdOk vd
  | .penRsp dev vd _ _ => deviceOk dev && vdOk vd
  | .slReq dev _ _ => deviceOk dev
  | .slRsp dev _ _ => deviceOk dev
  | .collReady _ _ => true
  | .collData dev _ _ _ _ _ _ _ _ => deviceOk dev
  | .collStep dev _ _ _ _ _ _ => deviceOk dev
  | .collReadyTimeout _ => true
  | .remoteOpTimeout _ _ => true
  | .meterLeak _ => true
  | .dramUeReread _ _ _ _ => true
  | .patrolScrub _ _ => true
  | .waitingRetirementStart _ _ => true
  | .rowPprDone channel _ => channelOk channel
  | .channelMetadataCopyDone channel _ _ => channelOk channel
  | .channelPageMovesDone channel _ => channelOk channel
  | .bayCopyDone bay => bayOk bay
  | .sliceDrainDone slice _ _ => sliceOk slice
  | .sliceRetired slice _ => sliceOk slice
  | .dieProxyWritebackDone die => dieOk die
  | .dieMetadataRestoreDone die _ => dieOk die
  | .lostSetSweep slice _ => sliceOk slice
  | .logCoalesceTimer _ _ _ => true
  | .gaugeCtrlWrite gauge _ => gaugeOk gauge
  | .gaugeConfigWrite gauge _ _ _ => gaugeOk gauge
  | .gaugeWindowEnd gauge => gaugeOk gauge
  | .gaugeSampleInstant gauge _ => gaugeOk gauge
  | .mctpMessageReceive h => hdrOk h
  | .setEndpointId h _ => hdrOk h
  | .read32 h _ _ => hdrOk h
  | .write32 h _ _ _ => hdrOk h
  | .read64 h _ _ => hdrOk h
  | .write64 h _ _ _ => hdrOk h
  | .logRead h _ _ _ => hdrOk h
  | .fatalLogRead h _ _ _ => hdrOk h
  | .coldReset h _ => hdrOk h
  | .warmReset h _ => hdrOk h
  | .vdReset h _ vd => hdrOk h && vdOk vd
  | .poolLeave h _ => hdrOk h
  | .identify h _ _ => hdrOk h
  | .panelUpdate h _ => hdrOk h
  | .getVersion h => hdrOk h
  | .getCapabilities h => hdrOk h
  | .negotiateAlgorithms h => hdrOk h
  | .getDigests h => hdrOk h
  | .getCertificate h _ => hdrOk h
  | .challenge h _ => hdrOk h
  | .getMeasurements h _ => hdrOk h
  | .keyExchange h => hdrOk h
  | .finish h session => hdrOk h && sessionOk session
  | .endSession h session => hdrOk h && sessionOk session
  | .getTid h => hdrOk h
  | .setTid h _ => hdrOk h
  | .getPldmVersion h _ => hdrOk h
  | .getPldmTypes h => hdrOk h
  | .getPldmCommands h _ => hdrOk h
  | .setEventReceiver h _ => hdrOk h
  | .getSensorReading h _ => hdrOk h
  | .getStateSensorReadings h _ => hdrOk h
  | .getSensorThresholds h _ => hdrOk h
  | .getPdrRepositoryInfo h => hdrOk h
  | .getPdr h _ => hdrOk h
  | .pldmUnsupported h _ _ => hdrOk h
  | .platformEventResend _ _ => true
  | .healthEvaluate _ _ _ => true
  | .panelIntervalEnd => true
  | .panelClearingWaveform => true
  | .panelUpdateStart => true
  | .panelBandHatched => true
  | .panelFullRefreshDone => true
  | .panelBandWhite => true
  | .powerFailComparator => true
  | .comparatorDeassert => true
  | .pgmReq _ => true
  | .unsupportedAccess m => mmioOk m
  | .registerWrite _ => true
  | .ideKm port session _ _ stream _ _ => portOk port && sessionOk session && decide (stream ≤ 16)
  | .thermalHoldRelease _ => true
  | .panelHoldUpFail => true
  | .vddIoInTolerance => true
  | .flumeRaceClockGate die => dieOk die
  | .cxlReceiverError port _ => portOk port
  | .cxlLinkRecovery port => portOk port
  | .relockFail port => hylOk port
  | .departedWriteEntryAge => true

end Sys2Proof
end

