-- ==== Sys2Proof/Tests/Slice0.lean ====
section
/-!
SUPPORT. Tests: ill-formed commands that each check refuses, the worked examples of the manual, single steps, and for each
statement with hypotheses states and operands that meet them.
-/
namespace Sys2Proof.Machine

set_option Elab.async false

/-! ### Small states for the tests -/

/-- The policy of the tests: thresholds of 1000, weights of 16 sixteenths, quotas of 8. -/
def polT : Policy :=
  { fmThresh := (List.range 10).map fun k => (k, 1000), fmWscale := (List.range 10).map fun k => (k, 16), refreshCap := 3900
    srMinIdle := 1, pgMinIdle := 1, spillMaxK := 1024, quotaTask := [(0, 8), (1, 8)], quotaBuf := [(0, 8), (1, 8)]
    quotaPage := [(0, 4096), (1, 4096)], quotaPen := [(0, 8), (1, 8)], qos := [(0, 5), (1, 5)] }

def imgT : Image :=
  { applied := true, device := { policyVd := 0 }, ports := [(0, { ldCount := 2 })], pol := polT
    vds := [(0, { streams := 4 }), (1, { streams := 4 })], pools := [(0, { kind := 2, size := 1, classes := [12] })] }

/-- A device with power and no image: stack 0 alone, step 7. -/
def cold : State :=
  { board := { vddIo := true, pwrOk := true }, boot := { step := 7, flashOk := true, flashOwn := true }
    inv := { active := 1, chList := List.range 32 }, dies := [(0, { st := .active, step := 7 })], ports := [(0, { link := 2, cxlOk := true })]
    clk := { source := 0, switched := true, refs := [(0, { valid := true })] }, timeBase := 5000000000 }

/-- A device that runs: one stack, two LDs on port 0. -/
def live : State :=
  { cold with
    boot := { step := 8, flashOk := true, done := true, selected := 1, memActive := true }
    inv := { fixed := true, active := 1, chList := List.range 32, minDies := 1 }
    img := imgT, pol := polT, vds := [(0, { st := .ready }), (1, { st := .ready })]
    ports := [(0, { link := 2, cxlOk := true, mld := true })] }

def hd : MctpHdr := {}


/-- Power, one die at a discovery step. -/
def disc (k : Nat) : State := { cold with boot := { step := 5, flashOk := true }, dies := [(0, { step := k })] }

/-- The MCTP header of a type at the front of the buffers. -/
def at7 (ty : Nat) : State := { live with mgmt := { bufs := [{ ty := ty }] } }

/-- LD 0 of `live` with `x`. -/
def vd0 (x : Vd) : State := { live with vds := [(0, x)] }


/-- A descriptor by its fields: byte offset and value (Table 11-1). -/
def D (fs : List (Nat × Nat)) : BitVec 512 := BitVec.ofNat 512 (fs.foldl (fun a e => a + e.2 * 256 ^ e.1) 0)

/-- A command of VD 0 on ring 0 that neither waits nor signals. -/
def cm (op : Nat) (fs : List (Nat × Nat)) : Cmd := { vd := 0, ring := 0, epoch := 0, desc := D ([(0, op), (8, 0xFFFF), (0xA, 0xFFFF)] ++ fs) }

/-- The command once it is READY. -/
def rd (op : Nat) (fs : List (Nat × Nat)) : Cmd := { cm op fs with st := .ready, decoded := true, wait := .met }

/-- `live` with command 0, and with VD 0 as `x`. -/
def withC (c : Cmd) (x : Vd := { st := .ready, useTask := 1 }) : State := { vd0 x with dax := { seq := 1, cmds := [(0, c)] } }

/-- Line 0 is held at its home. -/
def homeF : Frame := { st := .h, v := 15 }
def homeS : State := { live with slices := [(0, { frames := [(0, homeF)] })] }

/-- Line 0 with a transaction. -/
def missS (m : Miss) (f : Tab Frame := []) : State := { live with slices := [(0, { frames := f, miss := [(0, m)] })] }

theorem noWaiters_of (s : State)
    (h : (Tab.wf s.slices && s.slices.all fun e => e.2.miss.all fun m => decide (m.2.phase ≠ .way) && decide (m.2.phase ≠ .dirFull)) = true) :
    s.NoWaiters := by
  simp only [Bool.and_eq_true, List.all_eq_true, decide_eq_true_eq] at h
  refine ⟨h.1, fun n e he => ?_⟩
  unfold State.slice Tab.getD at he
  cases hf : s.slices.find n with
  | none => rw [hf] at he; simp at he
  | some x => rw [hf] at he; exact h.2 _ (Tab.find_mem _ _ _ hf) e he

/-- `n` 2 MiB pages of VD 0 from page `k` on. -/
def bigs : Nat → Nat → Tab PEntry
  | 0, _ => []
  | n + 1, k => (k, { kind := .page, big := true }) :: bigs n (k + 32)

/-- A command 0 of VD 0 with a task at work on slice 0. -/
def tk : Task := { slice := 0, units := [0], st := .running }
def rn (op : Nat) (fs : List (Nat × Nat)) (t : Task := tk) : Cmd := { rd op fs with st := .running, tasks := [t] }

/-- A VD with 2 MiB of capacity. -/
def ex21 : Vd := { st := .ready, extents := [(0, 2 ^ 21)] }

/-- VD 0 with one 64 KiB page, and the command. -/
def withP (c : Cmd) : State :=
  { withC c { st := .ready, useTask := 1, extents := [(0, 2 ^ 21)] } with slu := { pt := [(0, { kind := .page })], frames := [(0, { vd := 0, page := 0 })] } }

/-- The same with plan 0. -/
def withPlan (p : Plan) (c : Cmd) : State := { withP c with img := { imgT with plans := [(0, p)] } }

/-- A plan of INT8 with one bucket of one tile. -/
def planT : Plan := { kind := 0x30, buckets := [{ bm := 1, bn := 1, bk := 16 }] }

/-- A pool member whose port 0 leads to device 1. -/
def poolS (x : HylPort) (p : Pool := {}) : State :=
  { live with
    hyl := [(0, x)], pool := { p with linkKind := [(0, 5)] }
    img := { imgT with device := { policyVd := 0, hylEnable := 255 }, poolMap := some { mode := 1, maxDevices := 4, poolId := 9, entries := [(100, 0), (101, 1), (102, 2)] } } }

def l0 : HylPort := { st := .l0, trained := 255, active := 255, peerUsable := 255 }

/-- The departed-write table with entries `k` to `k + n - 1` taken by a command of VD 0. -/
def depE : DepEntry := { vd := 0, epoch := 0, stream := 0, tag := 0, gen := 0, time := 5000000000, cmd := some 7 }
def depFull : Nat → Nat → Tab DepEntry
  | 0, _ => []
  | n + 1, k => (k, depE) :: depFull n (k + 1)

theorem gap_depFull (n k : Nat) : Tab.gap (depFull n k) k = k + n := by
  induction n generalizing k with
  | zero => rfl
  | succ n ih => simp only [depFull, Tab.gap, if_true, ih]; omega

theorem mem_depFull (n k : Nat) : ∀ e ∈ depFull n k, e.2 = depE := by
  induction n generalizing k with
  | zero => simp [depFull]
  | succ n ih =>
    intro e he
    rcases List.mem_cons.1 he with h | h
    · rw [h]
    · exact ih _ e h

theorem oldest_depFull (l : Tab DepEntry) (h : ∀ e ∈ l, e.2 = depE) (b : Nat × DepEntry) (hb : b.2 = depE) :
    ∃ c, l.foldl (fun a e => match a with | none => some e | some b => if e.2.time < b.2.time then some e else some b) (some b) = some c ∧ c.2 = depE := by
  induction l with
  | nil => exact ⟨b, rfl, hb⟩
  | cons e t ih =>
    have he : e.2 = depE := h e (by simp)
    simpa [he, hb] using ih fun x hx => h x (by simp [hx])

theorem depChoose_full (s : State) (w : Who) (n : Nat) (hn : n + 1 = 4096) (h : s.pool.dep = depFull (n + 1) 0) (hw : w.cmd ≠ some 7)
    (ht : s.now ≤ 6000000000) : s.depChoose w = none := by
  have hf : (s.pool.dep.find? fun e => decide (e.2.cmd = w.cmd) && decide (e.2.vd = w.vd) && !e.2.earlier && decide (e.2.epoch = s.epochOf w)) = none := by
    rw [List.find?_eq_none, h]
    intro e he
    simp [mem_depFull _ _ e he, depE, Ne.symm hw]
  have hg : Tab.gap s.pool.dep 0 = 4096 := by rw [h, gap_depFull, hn]
  obtain ⟨c, hc, hc2⟩ := oldest_depFull (depFull n 1) (mem_depFull _ _) (0, depE) rfl
  unfold State.depChoose
  rw [hf, hg, h]
  simp only [Nat.lt_irrefl, if_false]
  split
  · next e he =>
    have : some e = some c := he.symm.trans hc
    cases this
    simp only [hc2, depE]
    rw [if_neg]
    omega
  · rfl

theorem find_bigs (n : Nat) : ∀ k p, k % 32 = 0 → k ≤ p → p < k + 32 * n →
    (bigs n k).find (p / 32 * 32) = some { kind := .page, big := true }
      ∧ ((bigs n k).find p = none ∨ (bigs n k).find p = some { kind := .page, big := true }) := by
  induction n with
  | zero => intro k p _ _ h; omega
  | succ n ih =>
    intro k p hk h1 h2
    simp only [bigs, Tab.find]
    by_cases hp : p < k + 32
    · have e : p / 32 * 32 = k := by omega
      refine ⟨by simp [e], ?_⟩
      by_cases hpk : p = k
      · right; simp [hpk]
      · left
        rw [if_neg hpk, if_neg (by omega)]
        cases n with
        | zero => rfl
        | succ n => simp only [bigs, Tab.find]; rw [if_neg (by omega), if_pos (by omega)]
    · obtain ⟨a, b⟩ := ih (k + 32) p (by omega) (by omega) (by omega)
      rw [if_neg (by omega), if_neg (by omega), if_neg (by omega), if_neg (by omega)]
      exact ⟨a, b⟩

theorem grantTouch_bigs (s : State) (m pick : Nat) (h : s.slu.pt = bigs m 0) (he : ∀ p < 32 * m, s.inExtent 0 (p * 65536) = true) (hm : m ≤ 2048) (n : Nat) :
    ∀ page, page + n ≤ 32 * m → State.grantTouch 0 pick n page s = (none, s) := by
  induction n with
  | zero => intros; rfl
  | succ n ih =>
    intro page hp
    have e0 := he page (by omega)
    have hent : ∃ ep e, s.entry 0 page = some (ep, e) ∧ e.kind = .page := by
      obtain ⟨a, b⟩ := find_bigs m 0 page rfl (by omega) (by omega)
      unfold State.entry ptKey
      rw [if_neg (by omega)]
      simp only [h, Nat.zero_mul, Nat.zero_add]
      rcases b with b | b <;> simp [a, b]
    obtain ⟨ep, e, h1, h2⟩ := hent
    simp only [State.grantTouch, e0, h1, h2]
    simpa using ih (page + 1) (by omega)

/-- VD 0 with 1 GiB mapped, and a GRANT of it. -/
def gS : State := { withC (rd 0x2C [(0x20, 2 ^ 30)]) { st := .ready, extents := [(0, 2 ^ 30)] } with slu := { pt := bigs 512 0 } }

/-- The same with all 1024 grants taken. -/
def gAll : Nat → Nat → Tab Grant
  | 0, _ => []
  | n + 1, k => (k, { vd := 0, epoch := 0, va := 0, len := 2 ^ 30, readOnly := false, key := 0 }) :: gAll n (k + 1)
def gFull : State := { gS with slu := { gS.slu with grants := gAll 1024 0 } }

theorem find_gAll (n : Nat) : ∀ k j, k ≤ j → j < k + n → ((gAll n k).find j).isNone = false := by
  induction n with
  | zero => intros; omega
  | succ n ih =>
    intro k j h1 h2
    simp only [gAll, Tab.find]
    split
    · rfl
    · rw [if_neg (by omega)]; exact ih (k + 1) j (by omega) (by omega)

theorem no_grant_gFull : (List.range 1024).find? (fun k => (gFull.slu.grants.find k).isNone) = none := by
  rw [List.find?_eq_none]
  intro k hk
  show ¬ ((gAll 1024 0).find k).isNone = true
  rw [find_gAll 1024 0 k (Nat.zero_le k) (by simpa using hk)]
  decide

theorem grantTouch_held (s : State) (h : s.slu.pt = bigs 512 0) (hv : s.vds = gS.vds) :
    State.grantTouch (rd 0x2C [(0x20, 2 ^ 30)]).vd 0 ((rd 0x2C [(0x20, 2 ^ 30)]).len / 65536)
      ((rd 0x2C [(0x20, 2 ^ 30)]).addr / 65536) s = (none, s) := by
  have h1 : (rd 0x2C [(0x20, 2 ^ 30)]).len / 65536 = 16384 := by decide +kernel
  have h2 : (rd 0x2C [(0x20, 2 ^ 30)]).addr / 65536 = 0 := by decide +kernel
  rw [h1, h2]
  refine grantTouch_bigs s 512 0 h (fun p hp => ?_) (by decide) _ _ (by decide)
  simp [State.inExtent, State.vd, hv, gS, withC, vd0, Tab.getD, Tab.find]; omega

theorem grantTouch_gS : State.grantTouch (rd 0x2C [(0x20, 2 ^ 30)]).vd 0 ((rd 0x2C [(0x20, 2 ^ 30)]).len / 65536)
    ((rd 0x2C [(0x20, 2 ^ 30)]).addr / 65536) gS = (none, gS) := grantTouch_held gS rfl rfl
theorem grantTouch_gFull : State.grantTouch (rd 0x2C [(0x20, 2 ^ 30)]).vd 0 ((rd 0x2C [(0x20, 2 ^ 30)]).len / 65536)
    ((rd 0x2C [(0x20, 2 ^ 30)]).addr / 65536) gFull = (none, gFull) := grantTouch_held gFull rfl rfl

theorem some_getD {α : Type} (x : Option α) (d : α) (h : x.isSome = true) : x = some (x.getD d) := by
  cases x <;> simp_all

theorem pair_of {α β : Type} (x : α × β) (a : α) (h : x.1 = a) : x = (a, x.2) := by
  rw [← h]

theorem some_pair {α β : Type} (x : Option (α × β)) (a : α) (b : β) (h : x.map Prod.fst = some a) : x = some (a, (x.getD (a, b)).2) := by
  cases x with
  | none => simp at h
  | some y => simp at h; rw [← h]; rfl

/-! ### Well-formed commands: each check refuses an ill-formed one -/

theorem test_wf_die : (Instr.slicePllLock 8).wf = false ∧ (Instr.slicePllLock 7).wf = true := by decide
theorem test_wf_port : (Instr.cxlTrainingStart 4).wf = false ∧ (Instr.cxlTrainingStart 3).wf = true := by decide
theorem test_wf_slice : (Instr.runnerGate 64).wf = false ∧ (Instr.runnerGate 63).wf = true := by decide
theorem test_wf_ld : (Instr.functionLevelReset 0 65535).wf = false ∧ (Instr.functionLevelReset 0 65534).wf = true := by decide
theorem test_wf_cxl_request : (Instr.memRd { port := 0, vd := 0, tag := 0, dpa := 32, op := .read } 0 false 0).wf = false ∧ (Instr.memRd { port := 0, vd := 0, tag := 0, dpa := 64, op := .read } 0 false 0).wf = true := by decide
theorem test_wf_vd : (Instr.mbIdentify 64).wf = false ∧ (Instr.mbIdentify 63).wf = true := by decide
theorem test_wf_header : (Instr.getTid { port := some 4 }).wf = false ∧ (Instr.getTid { port := some 3 }).wf = true := by decide
theorem test_wf_message : (Instr.rdS { op := .rdS, dev := 128, line := 0 } 0).wf = false ∧ (Instr.rdS { op := .rdS, dev := 127, line := 0 } 0).wf = true := by decide
theorem test_wf_device : (Instr.departureSweepDone 128).wf = false ∧ (Instr.departureSweepDone 127).wf = true := by decide
theorem test_wf_pool : (Instr.quarantineEnd 16 0).wf = false ∧ (Instr.quarantineEnd 15 0).wf = true := by decide
theorem test_wf_channel : (Instr.rowPprDone 256 0).wf = false ∧ (Instr.rowPprDone 255 0).wf = true := by decide
theorem test_wf_hyl : (Instr.pmReq 8).wf = false ∧ (Instr.pmReq 7).wf = true := by decide
theorem test_wf_ring : (Instr.ringMsixDefer 0 16).wf = false ∧ (Instr.ringMsixDefer 0 15).wf = true := by decide
theorem test_wf_race : (Instr.raceGrant 9 0 []).wf = false ∧ (Instr.raceGrant 8 0 []).wf = true := by decide
theorem test_wf_cage : (Instr.qsfpModuleDetect 8 false false).wf = false ∧ (Instr.qsfpModuleDetect 7 false false).wf = true := by decide
theorem test_wf_bay : (Instr.bayCopyDone 1152).wf = false ∧ (Instr.bayCopyDone 1151).wf = true := by decide
theorem test_wf_gauge : (Instr.gaugeWindowEnd 256).wf = false ∧ (Instr.gaugeWindowEnd 255).wf = true := by decide
theorem test_wf_session : (Instr.endSession {} 4).wf = false ∧ (Instr.endSession {} 3).wf = true := by decide
theorem test_wf_window : (Instr.unsupportedAccess { vd := 64, off := 0 }).wf = false := by decide

/-! ### The manual's worked examples -/

/-- The healthy part of the worked example of the slice chapter. -/
def healthy : State := { live with inv := { fixed := true, active := 255, chList := List.range 256, minDies := 1 } }

/-- The part of the worked example of the dies chapter: dies 5 and 6 are excluded, die 2 lacks channels 73, 74 and 94. -/
def sixDies : Inventory :=
  { active := 0x9F, chList := (List.range 256).filter fun c => (c < 160 || 224 ≤ c) && c != 73 && c != 74 && c != 94 }

/-- 07, worked example: frames and metadata base of the healthy part. -/
theorem test_frames_healthy : healthy.inv.frames = 4718592 ∧ healthy.inv.metaBase = 4341760 := by decide +kernel
/-- 07, worked example: the offset 0x0E_6A5C_9A40 lies on channel 156, frame 3690, line 308; home slice 39. -/
theorem test_hash_healthy : healthy.inv.place 0x0E6A5C9A40 = { ch := 156, r := 3690, line := 308 } ∧ healthy.homeSlice 156 = 39 := by
  decide +kernel
/-- 07, worked example: its DRAM die 6, row 307 and bank 7, and its cache set 1332. -/
theorem test_dram_place : (healthy.inv.place 0x0E6A5C9A40).dramDie = 6 ∧ (healthy.inv.place 0x0E6A5C9A40).row = 307 ∧
    (healthy.inv.place 0x0E6A5C9A40).bank = 7 ∧ healthy.setOf (0x0E6A5C9A40 / 128) = 1332 := by decide +kernel
/-- 07, worked example: the same offset on the part with 189 channels lies on channel 155, home slice 38. -/
theorem test_hash_six_dies : sixDies.u = 189 ∧ sixDies.s = 6 ∧ sixDies.frames = 3483648 ∧ sixDies.metaBase = 3201024 ∧
    (sixDies.place 0x0E6A5C9A40).ch = 155 ∧ 155 / 4 = 38 := by decide +kernel
/-- 02, worked example: the slices present are 0 to 39 and 56 to 63, so virtual slice 40 is slice 56. -/
theorem test_virtual_slices : sixDies.n = 48 ∧ sixDies.physSlice 39 = 39 ∧ sixDies.physSlice 40 = 56 := by decide +kernel
/-- 02, worked example: 192 GiB with S = 6 and F = 3, 187.5 GiB with F = 10. -/
theorem test_capacity : capacity38 6 3 = 192 * 2 ^ 30 ∧ capacity38 6 10 = 375 * 2 ^ 29 := by decide
/-- 08, worked example: offset 0xB_B831_3200 has directory set 225,380 of slice 12. -/
theorem test_directory_set : healthy.dirSet (0xBB8313200 / 128) = 12 * 2 ^ 20 + 225380 := by decide +kernel
/-- 20, worked example: the values 320, 256, 100 and 255 lie in bins 2, 2, 0 and 1. -/
theorem test_gauge_bins : let g : Gauge := { pow2 := true, base := 128 }
    g.bin 320 = 2 ∧ g.bin 256 = 2 ∧ g.bin 100 = 0 ∧ g.bin 255 = 1 ∧ g.edge 31 = 2 ^ 37 := by decide +kernel
/-- 07, worked example: 1 + 2^-8 rounds to 1, 1 + 2^-7 is 0x3F81, and infinity less infinity is the canonical NaN. -/
theorem test_bf16_sums : addFp .bf16 0x3F80 0x3B80 = 0x3F80 ∧ addFp .bf16 0x3F80 0x3C00 = 0x3F81 ∧ addFp .bf16 0x7F80 0xFF80 = 0x7FC0 := by
  decide +kernel
/-- 13, worked example: the block of 3.0, 0.125 and 0.10009765625 has exponent -5 (0xFB) and significands 96, 4 and 3. -/
theorem test_lzb_block : let b := (lzbEncode (fun _ => .rne) ([0x4040, 0x3E00, 0x3DCD].map (decodeFp .bf16))).1
    b.e = -5 ∧ b.s.take 3 = [96, 4, 3] ∧ b.bytes.head? = some 0xFB := by decide +kernel
/-- 13, worked example: T = 4,026,531,840 at exponent -16 is 61,440, BF16 0x4770. -/
theorem test_drain_bf16 : (encodeFp .bf16 .rne (.ofInt 4026531840 (-16))).bits = 0x4770 := by decide +kernel

/-! ### One step -/

/-- An empty queue before the quiet clock runs: nothing happens. -/
theorem test_step_idle : (match step State.reset with | .next t => decide (t = State.reset) | _ => false) = true := by decide +kernel
/-- R60: an empty queue on a device that runs lets 1 ns pass. -/
theorem test_step_tick : (match step live with | .next t => decide (t.timeBase = live.timeBase + 1) | _ => false) = true := by decide +kernel
/-- R70: POWER_ON at the front of the queue, with VDD_IO in tolerance, is taken from the queue and powers the device. -/
theorem test_step_powerOn :
    (match step { State.reset with pending := [.powerOn {} {}], board := { vddIo := true } } with
      | .next t => t.board.pwrOk && decide (t.pending = []) | _ => false) = true := by decide +kernel
/-- 06, worked example: a reset of a VD whose epoch is 0x0007 raises it to 0x0008. -/
theorem test_vd_epoch :
    (match exec (.vdResetTrigger 0 3) (vd0 { st := .ready, epoch := 7 }) with
      | .next t => decide ((t.vd 0).epoch = 8) && decide ((t.vd 0).st = .resetting) | _ => false) = true := by decide +kernel

/-! ### Flits as the lanes bring them: 8 lanes, scramblers that are all 0 -/

/-- Eight lanes, each with its first and its last three bytes; the others are 0. -/
def wireOf (l : List (List Nat)) : FlitWire :=
  (List.range 8).map fun i => (i, ((l.getD i []).headD 0 :: List.replicate 28 0 ++ (l.getD i []).drop 1).map (BitVec.ofNat 8))

theorem syndromes_append (l m S : List Byte) (h : (List.range 8).map (fun j => l.foldl (fun a b => gfShift j a ^^^ b) 0) = S)
    (h2 : (List.range 8).map (fun j => m.foldl (fun a b => gfShift j a ^^^ b) (S.getD j 0)) = List.replicate 8 0) :
    rsFix (l ++ m) = some [] := by
  have e : rsSyndromes (l ++ m) = List.replicate 8 0 := by
    rw [← h2, ← h]
    unfold rsSyndromes
    refine List.map_congr_left fun j hj => ?_
    have := List.mem_range.1 hj
    simp [List.foldl_append, List.getD, this]
  unfold rsFix
  rw [e]
  rfl

theorem crc_chunks (n : Nat) (h t : List Byte) (a b c d e : BitVec 64) (h0 : h.length + 4 * n = 232) (h1 : h.foldl crc64Byte 0 = a)
    (h2 : (List.replicate n 0).foldl crc64Byte a = b) (h3 : (List.replicate n 0).foldl crc64Byte b = c)
    (h4 : (List.replicate n 0).foldl crc64Byte c = d) (h5 : (List.replicate n 0).foldl crc64Byte d = e) :
    crc64 ((h ++ List.replicate (4 * n) 0 ++ t).take 232) = e := by
  have : (h ++ List.replicate (4 * n) (0 : Byte) ++ t).take 232
      = h ++ (List.replicate n 0 ++ (List.replicate n 0 ++ (List.replicate n 0 ++ List.replicate n 0))) := by
    rw [List.take_append_of_le_length (by rw [List.length_append, List.length_replicate, h0]), List.take_of_length_le (by rw [List.length_append, List.length_replicate, h0])]
    simp only [List.replicate_append_replicate]
    rw [show 4 * n = n + (n + (n + n)) by omega]
  rw [crc64, this]
  simp only [List.foldl_append, h1, h2, h3, h4, h5]

/-- A flit whose two codewords and CRC are right reads as its header says. -/
theorem readFlit_clean (w : FlitWire) (got : List Byte) (f : LinkFlit) (hg : fromLanes 255 [] w = got)
    (h0 : rsFix ((codeword 8 0).map fun i => got.getD i 0) = some []) (h1 : rsFix ((codeword 8 1).map fun i => got.getD i 0) = some [])
    (hc : crc64 (got.take 232) = BitVec.ofNat 64 (leNat ((got.drop 232).take 8)))
    (hf : f = {
      pass := true
      fixed := []
      seq := field (leNat (got.take 8)) 0 12
      ack := field (leNat (got.take 8)) 12 12
      nak := bit (leNat (got.take 8)) 24
      kind := field (leNat (got.take 8)) 25 2
      first := field (leNat (got.take 8)) 27 4
      credit := [(field (leNat (got.take 8)) 32 3, field (leNat (got.take 8)) 35 6), (field (leNat (got.take 8)) 41 3, field (leNat (got.take 8)) 44 6)]
      rsvd := bit (leNat (got.take 8)) 31 || decide (field (leNat (got.take 8)) 50 14 ≠ 0)
      slots := (List.range 14).map fun k => BitVec.ofNat 128 (leNat ((got.drop (8 + 16 * k)).take 16)) })
    (a : Nat) (r : Tab (BitVec 31)) (ha : a = 255) (hr : r = []) : f = readFlit a r w := by
  have hl : (logicalLanes 255).length = 8 := by decide
  have h2 : (List.range 2).map (fun k => (codeword 8 k, rsFix ((codeword 8 k).map fun i => got.getD i 0)))
      = [(codeword 8 0, some []), (codeword 8 1, some [])] := by
    simp only [List.range_succ, List.range_zero, List.nil_append, List.map_cons, List.map_nil, h0, h1, List.cons_append]
  subst ha hr
  rw [readFlit, hl, hg]
  simp only [h2]
  simp [hf, hc]

/-- An empty PAYLOAD flit with ACK 4095, the same with reserved bit 31 of its header set, and one of the reserved KIND 3 (Table 16-4). -/
def flitA : LinkFlit := { ack := 4095, credit := [(0, 0), (0, 0)], slots := List.replicate 14 0 }
def flitB : LinkFlit := { flitA with rsvd := true }
def flitC : LinkFlit := { flitA with kind := 3 }

def gotA : List Byte := [0, 240, 255, 122, 0, 0, 0, 0] ++ List.replicate 224 0 ++ [117, 42, 108, 207, 123, 174, 171, 70, 231, 154, 137, 123, 43, 40, 128, 121, 124, 0, 28, 145, 82, 128, 199, 32]
def wireA : FlitWire := wireOf [[0, 117, 231, 124], [240, 42, 154, 0], [255, 108, 137, 28], [122, 207, 123, 145], [0, 123, 43, 82], [0, 174, 40, 128], [0, 171, 128, 199], [0, 70, 121, 32]]
theorem crcA : crc64 (gotA.take 232) = BitVec.ofNat 64 (leNat ((gotA.drop 232).take 8)) :=
  (crc_chunks 56 [0, 240, 255, 122, 0, 0, 0, 0] [117, 42, 108, 207, 123, 174, 171, 70, 231, 154, 137, 123, 43, 40, 128, 121, 124, 0, 28, 145, 82, 128, 199, 32] 0xbb25d447583fed2a 0x5e7ca2f0b681b445 0x1ece1e33176fd679 0xa4e4a954d2ea2ce5 0x46abae7bcf6c2a75 rfl (by decide +kernel) (by decide +kernel) (by decide +kernel) (by decide +kernel) (by decide +kernel)).trans (by decide +kernel)
theorem wordA0 : rsFix ((codeword 8 0).map fun i => gotA.getD i 0) = some [] :=
  (congrArg rsFix (by decide +kernel : ((codeword 8 0).map fun i => gotA.getD i 0) = ([0, 240, 255, 122] ++ List.replicate 60 0) ++ (List.replicate 56 0 ++ [231, 154, 137, 123, 43, 40, 128, 121]))).trans
    (syndromes_append _ _ [117, 144, 36, 197, 90, 164, 248, 17] (by decide +kernel) (by decide +kernel))
theorem wordA1 : rsFix ((codeword 8 1).map fun i => gotA.getD i 0) = some [] :=
  (congrArg rsFix (by decide +kernel : ((codeword 8 1).map fun i => gotA.getD i 0) = (List.replicate 64 0) ++ (List.replicate 48 0 ++ [117, 42, 108, 207, 123, 174, 171, 70, 124, 0, 28, 145, 82, 128, 199, 32]))).trans
    (syndromes_append _ _ [0, 0, 0, 0, 0, 0, 0, 0] (by decide +kernel) (by decide +kernel))
theorem test_flit_A : ∀ (a : Nat) (r : Tab (BitVec 31)), a = 255 → r = [] → flitA = readFlit a r wireA :=
  readFlit_clean wireA gotA flitA (by decide +kernel) wordA0 wordA1 crcA (by decide +kernel)

def gotB : List Byte := [0, 240, 255, 250, 0, 0, 0, 0] ++ List.replicate 224 0 ++ [226, 214, 91, 39, 221, 114, 81, 97, 127, 59, 18, 244, 29, 92, 223, 201, 123, 230, 137, 76, 34, 1, 65, 237]
def wireB : FlitWire := wireOf [[0, 226, 127, 123], [240, 214, 59, 230], [255, 91, 18, 137], [250, 39, 244, 76], [0, 221, 29, 34], [0, 114, 92, 1], [0, 81, 223, 65], [0, 97, 201, 237]]
theorem crcB : crc64 (gotB.take 232) = BitVec.ofNat 64 (leNat ((gotB.drop 232).take 8)) :=
  (crc_chunks 56 [0, 240, 255, 250, 0, 0, 0, 0] [226, 214, 91, 39, 221, 114, 81, 97, 127, 59, 18, 244, 29, 92, 223, 201, 123, 230, 137, 76, 34, 1, 65, 237] 0xc121f78b5ed15910 0xc31178cb1d0165c5 0xe7d1b89270126234 0xd45bafbd57b7d2f5 0x615172dd275bd6e2 rfl (by decide +kernel) (by decide +kernel) (by decide +kernel) (by decide +kernel) (by decide +kernel)).trans (by decide +kernel)
theorem wordB0 : rsFix ((codeword 8 0).map fun i => gotB.getD i 0) = some [] :=
  (congrArg rsFix (by decide +kernel : ((codeword 8 0).map fun i => gotB.getD i 0) = ([0, 240, 255, 250] ++ List.replicate 60 0) ++ (List.replicate 56 0 ++ [127, 59, 18, 244, 29, 92, 223, 201]))).trans
    (syndromes_append _ _ [245, 82, 232, 25, 217, 176, 121, 106] (by decide +kernel) (by decide +kernel))
theorem wordB1 : rsFix ((codeword 8 1).map fun i => gotB.getD i 0) = some [] :=
  (congrArg rsFix (by decide +kernel : ((codeword 8 1).map fun i => gotB.getD i 0) = (List.replicate 64 0) ++ (List.replicate 48 0 ++ [226, 214, 91, 39, 221, 114, 81, 97, 123, 230, 137, 76, 34, 1, 65, 237]))).trans
    (syndromes_append _ _ [0, 0, 0, 0, 0, 0, 0, 0] (by decide +kernel) (by decide +kernel))
theorem test_flit_B : ∀ (a : Nat) (r : Tab (BitVec 31)), a = 255 → r = [] → flitB = readFlit a r wireB :=
  readFlit_clean wireB gotB flitB (by decide +kernel) wordB0 wordB1 crcB (by decide +kernel)

def gotC : List Byte := [0, 240, 255, 126, 0, 0, 0, 0] ++ List.replicate 224 0 ++ [26, 20, 208, 238, 35, 171, 25, 148, 42, 243, 240, 33, 209, 8, 82, 242, 91, 229, 173, 209, 9, 222, 140, 172]
def wireC : FlitWire := wireOf [[0, 26, 42, 91], [240, 20, 243, 229], [255, 208, 240, 173], [126, 238, 33, 209], [0, 35, 209, 9], [0, 171, 8, 222], [0, 25, 82, 140], [0, 148, 242, 172]]
theorem crcC : crc64 (gotC.take 232) = BitVec.ofNat 64 (leNat ((gotC.drop 232).take 8)) :=
  (crc_chunks 56 [0, 240, 255, 126, 0, 0, 0, 0] [26, 20, 208, 238, 35, 171, 25, 148, 42, 243, 240, 33, 209, 8, 82, 242, 91, 229, 173, 209, 9, 222, 140, 172] 0x25fc978f235e6679 0x5a97cc216bddb2c9 0x5782526d11ff44a2 0x61921964a35d85c 0x9419ab23eed0141a rfl (by decide +kernel) (by decide +kernel) (by decide +kernel) (by decide +kernel) (by decide +kernel)).trans (by decide +kernel)
theorem wordC0 : rsFix ((codeword 8 0).map fun i => gotC.getD i 0) = some [] :=
  (congrArg rsFix (by decide +kernel : ((codeword 8 0).map fun i => gotC.getD i 0) = ([0, 240, 255, 126] ++ List.replicate 60 0) ++ (List.replicate 56 0 ++ [42, 243, 240, 33, 209, 8, 82, 242]))).trans
    (syndromes_append _ _ [113, 78, 200, 167, 234, 135, 144, 111] (by decide +kernel) (by decide +kernel))
theorem wordC1 : rsFix ((codeword 8 1).map fun i => gotC.getD i 0) = some [] :=
  (congrArg rsFix (by decide +kernel : ((codeword 8 1).map fun i => gotC.getD i 0) = (List.replicate 64 0) ++ (List.replicate 48 0 ++ [26, 20, 208, 238, 35, 171, 25, 148, 91, 229, 173, 209, 9, 222, 140, 172]))).trans
    (syndromes_append _ _ [0, 0, 0, 0, 0, 0, 0, 0] (by decide +kernel) (by decide +kernel))
theorem test_flit_C : ∀ (a : Nat) (r : Tab (BitVec 31)), a = 255 → r = [] → flitC = readFlit a r wireC :=
  readFlit_clean wireC gotC flitC (by decide +kernel) wordC0 wordC1 crcC (by decide +kernel)

/-! ### A training block as a lane brings it -/

theorem checkBlock_clean (g : List Byte) (h0 : rsFix ((List.range 128).map fun i => g.getD (2 * i + 0) 0) = some [])
    (h1 : rsFix ((List.range 128).map fun i => g.getD (2 * i + 1) 0) = some []) :
    checkBlock g = if (decide (crc64 (g.take 232) = BitVec.ofNat 64 (leNat ((g.drop 232).take 8))) && decide (leNat (g.take 4) = 0x48424C54)) = true
      then some g else none := by
  have h2 : (List.range 2).map (fun k => (k, rsFix ((List.range 128).map fun i => g.getD (2 * i + k) 0))) = [(0, some []), (1, some [])] :=
    congrArg₂ (fun a b => [(0, a), (1, b)]) h0 h1
  unfold checkBlock
  simp only [h2]
  simp

theorem both_true {p q : Prop} [Decidable p] [Decidable q] (hp : p) (hq : q) : (decide p && decide q) = true := by simp [hp, hq]
theorem readBlock_some (g d : List Byte) (h : checkBlock g = some d) : readBlock g = some (.ofBytes d false) := by rw [readBlock, h]
theorem readBlock_none (g : List Byte) (h : checkBlock g = none) (h2 : checkBlock (g.map (~~~ ·)) = none) : readBlock g = none := by
  rw [readBlock, h, h2]; rfl

/-- A block of lane 1 that asks for a recovery, with NEXT_RX 7 (Table 16-11). -/
def blockB : TrainBlock := { retrain := true, lane := 1, nextRx := 7 }
def bytesB : List Byte :=
  [84, 76, 66, 72, 1, 1, 0, 0, 0, 0, 0, 0, 0, 0, 0, 0, 0, 255, 0, 1, 7, 0, 0, 0] ++ List.replicate (4 * 52) 0
    ++ [0, 104, 89, 51, 232, 194, 168, 158, 192, 125, 151, 204, 227, 82, 94, 184, 32, 228, 108, 12, 135, 77, 40, 2]
theorem evenB : rsFix ((List.range 128).map fun i => bytesB.getD (2 * i + 0) 0) = some [] :=
  (congrArg rsFix (by decide +kernel : ((List.range 128).map fun i => bytesB.getD (2 * i + 0) 0)
      = ([84, 66, 1, 0, 0, 0, 0, 0, 0, 0, 7, 0] ++ List.replicate 52 0) ++ (List.replicate 52 0 ++ [0, 89, 232, 168, 192, 151, 227, 94, 32, 108, 135, 40]))).trans
    (syndromes_append _ _ [16, 220, 110, 226, 180, 134, 100, 129] (by decide +kernel) (by decide +kernel))
theorem oddB : rsFix ((List.range 128).map fun i => bytesB.getD (2 * i + 1) 0) = some [] :=
  (congrArg rsFix (by decide +kernel : ((List.range 128).map fun i => bytesB.getD (2 * i + 1) 0)
      = ([76, 72, 1, 0, 0, 0, 0, 0, 255, 1, 0, 0] ++ List.replicate 52 0) ++ (List.replicate 52 0 ++ [104, 51, 194, 158, 125, 204, 82, 184, 228, 12, 77, 2]))).trans
    (syndromes_append _ _ [251, 28, 148, 223, 108, 95, 49, 158] (by decide +kernel) (by decide +kernel))
theorem crcBlockB : crc64 (bytesB.take 232) = BitVec.ofNat 64 (leNat ((bytesB.drop 232).take 8)) :=
  (crc_chunks 52 _ _ 971864357502764983 5166193877940571789 17910314352550856495 13677741831275963778 11432601956629702656 rfl
    (by decide +kernel) (by decide +kernel) (by decide +kernel) (by decide +kernel) (by decide +kernel)).trans (by decide +kernel)
/-- R429: a block whose two codewords, CRC and MARK are right is read. -/
theorem test_block_B : readBlock bytesB = some blockB :=
  (readBlock_some _ _ ((checkBlock_clean _ evenB oddB).trans (if_pos (both_true crcBlockB (by decide +kernel))))).trans
    (congrArg some (by decide +kernel))
theorem rsFix_zeros : rsFix ((List.range 128).map fun _ => 0) = some [] :=
  (congrArg rsFix (by decide +kernel : ((List.range 128).map fun _ => (0 : Byte)) = List.replicate 64 0 ++ List.replicate 64 0)).trans
    (syndromes_append _ _ [0, 0, 0, 0, 0, 0, 0, 0] (by decide +kernel) (by decide +kernel))
/-- R429: what does not begin with MARK, upright or inverted, is no block. -/
theorem test_no_block : readBlock [] = none := by
  have h : checkBlock [] = none := (checkBlock_clean [] rsFix_zeros rsFix_zeros).trans (if_neg (by decide +kernel))
  exact readBlock_none [] h h

/-! ### Witnesses of hypotheses -/

/-- States and operands that meet the hypotheses of Obligations.ResetsKeepOnlyFusesStrapsAndBoard, clause by clause. -/
theorem meets_ResetsKeepOnlyFusesStrapsAndBoard :
    (let s : State := { live with board := { vddIo := true } }
     let st : Straps := {}
     (s.board.pwrOk = false)
       ∧ (s.board.vddIo = true)
       ∧ (s.board.pgmReq = false)
       ∧ (st.card = false ∨ s.board.sense = some true))
    ∧ (let s : State := live
     (s.board.pwrOk = true)
       ∧ (1 ≤ s.boot.step)) :=
  ⟨by and_intros <;> first | with_reducible rfl | decide +kernel,
   by and_intros <;> decide +kernel⟩

/-- States and operands that meet the hypotheses of Obligations.JunctionTripHoldsTheDeviceInReset, clause by clause. -/
theorem meets_JunctionTripHoldsTheDeviceInReset :
    (let s : State := live
     let temp : Nat := 125
     (s.board.pwrOk = true)
       ∧ (1 ≤ s.boot.step)
       ∧ (125 ≤ temp))
    ∧ (let temp : Nat := 130
     (100 ≤ temp))
    ∧ (let s : State := { cold with boot := { thermalHold := true } }
     let temp : Nat := 99
     (s.board.pwrOk = true)
       ∧ (s.boot.thermalHold = true)
       ∧ (temp < 100))
    ∧ (let s : State := { cold with boot := { thermalHold := true } }
     (s.boot.step = 0)
       ∧ (s.pending = [])) :=
  ⟨by and_intros <;> first | with_reducible rfl | decide +kernel,
   by decide +kernel,
   by and_intros <;> first | with_reducible rfl | decide +kernel,
   by and_intros <;> first | with_reducible rfl | decide +kernel⟩

/-- States and operands that meet the hypotheses of Obligations.PowerUpStepsRunInOrder, clause by clause. -/
theorem meets_PowerUpStepsRunInOrder :
    (let s : State := { board := { pwrOk := true }, boot := { step := 1 } }
     (s.board.pwrOk = true)
       ∧ (s.boot.step = 1))
    ∧ (let s : State := { board := { pwrOk := true }, boot := { step := 2 } }
     (s.board.pwrOk = true)
       ∧ (s.boot.step = 2))
    ∧ (let s : State := { board := { pwrOk := true }, boot := { step := 3 } }
     let a : Bool := true
     let b : Bool := false
     let c : Bool := true
     (s.board.pwrOk = true)
       ∧ (s.boot.step = 3)
       ∧ ((a && b && c) = false))
    ∧ (let s : State := { board := { pwrOk := true }, boot := { step := 4 } }
     (s.board.pwrOk = true)
       ∧ (s.boot.step = 4))
    ∧ (let s : State := { board := { pwrOk := true }, boot := { step := 5 } }
     (s.board.pwrOk = true)
       ∧ (s.boot.step = 5)
       ∧ (s.boot.noImage = false)
       ∧ (s.boot.warmWait = none)) :=
  ⟨by and_intros <;> with_reducible rfl,
   by and_intros <;> with_reducible rfl,
   by and_intros <;> first | with_reducible rfl | decide +kernel,
   by and_intros <;> with_reducible rfl,
   by and_intros <;> with_reducible rfl⟩

/-- States and operands that meet the hypotheses of Obligations.DiscoveryRecordsWhatEachDieReports, clause by clause. -/
theorem meets_DiscoveryRecordsWhatEachDieReports :
    (let s : State := disc 1
     let d : Nat := 0
     (s.dieAt d 1 = true))
    ∧ (let s : State := disc 2
     let d : Nat := 0
     let dn : List Nat := [0, 1, 2]
     let up : List Nat := []
     (s.dieAt d 2 = true)
       ∧ (∀ i < 8, dn.getD i 0 ≤ 2 ∧ up.getD i 0 ≤ 2))
    ∧ (let s : State := disc 2
     let d : Nat := 0
     let i : Nat := 7
     let dn : List Nat := [0, 0, 0, 0, 0, 0, 0, 138]
     (s.dieAt d 2 = true)
       ∧ (i < 8)
       ∧ (3 ≤ dn.getD i 0)
       ∧ (dn.getD i 0 < 139))
    ∧ (let s : State := disc 3
     let d : Nat := 0
     let level : Nat := 255
     (s.dieAt d 3 = true)
       ∧ ((s.die d).idTries ≤ 1)
       ∧ (1 ≤ level)
       ∧ (level < 256))
    ∧ (let s : State := disc 6
     let d : Nat := 0
     let mask : Nat := 2 ^ 32 - 1
     (s.dieAt d 6 = true)
       ∧ (mask < 2 ^ 32))
    ∧ (let s : State := disc 6
     let n : Nat := 7
     (s.boot.step = 5)
       ∧ (2 ≤ n)
       ∧ (n ≤ 7)) :=
  ⟨by decide +kernel,
   by and_intros <;> decide +kernel,
   by and_intros <;> decide +kernel,
   by and_intros <;> decide +kernel,
   by and_intros <;> decide +kernel,
   by and_intros <;> first | with_reducible rfl | decide +kernel⟩

/-- States and operands that meet the hypotheses of Obligations.BoardAndCardPinsAreRecorded, clause by clause. -/
theorem meets_BoardAndCardPinsAreRecorded :
    (let s : State := { straps := { card := true } }
     (s.board.pwrOk = false))
    ∧ (let c : Nat := 7
     (c < 8)) :=
  ⟨by with_reducible rfl,
   by decide +kernel⟩

/-- States and operands that meet the hypotheses of Obligations.SlotsAreCheckedAndOneIsApplied, clause by clause. -/
theorem meets_SlotsAreCheckedAndOneIsApplied :
    (let s : State := { cold with boot := { step := 5, flashOk := true } }
     let n : Nat := 2
     (n < 3)
       ∧ (s.running = true)
       ∧ (5 ≤ s.boot.step)
       ∧ (s.boot.flashOk = true)
       ∧ (s.boot.done = false)
       ∧ ((s.slot n).staged = false)
       ∧ (s.stagingOpen = true))
    ∧ (let s : State := { cold with boot := { step := 7, flashOk := true, slots := [(0, { staged := true }), (1, { staged := true, sound := true, img := { ports := [(0, { ldCount := 1 })], bays := [(0, { kind := 10 })] } }), (2, { staged := true })] } }
     let n : Nat := 1
     (s.boot.step = 7)
       ∧ (s.boot.done = false)
       ∧ (∀ i < 3, (s.slot i).staged = true)
       ∧ (n < 3)
       ∧ (∀ i < 3, (s.slot i).sound = decide (i = n))
       ∧ (s.check56 n = none))
    ∧ (let s : State := { cold with ports := [], boot := { step := 7, flashOk := true, done := true, selected := 2 } }
     let n : Nat := 1
     (s.boot.step = 7)
       ∧ (s.boot.diesShort = false)
       ∧ (s.boot.selected = n + 1)
       ∧ (s.img.applied = false)
       ∧ (Tab.wf s.ports = true)
       ∧ (∀ p, (s.port p).held = [])) :=
  ⟨by and_intros <;> first | with_reducible rfl | decide +kernel,
   by and_intros <;> first | with_reducible rfl | decide +kernel,
   by and_intros <;> first | with_reducible rfl | decide +kernel | (intros; rfl)⟩

/-- States and operands that meet the hypotheses of Obligations.WarmResetKeepsMemoryAndReappliesTheImage, clause by clause. -/
theorem meets_WarmResetKeepsMemoryAndReappliesTheImage :
    (let s : State := disc 1
     (s.running = true)
       ∧ (s.boot.warm = 0)
       ∧ (s.boot.step < 7))
    ∧ (let s : State := { live with boot := { live.boot with warm := 2 } }
     (s.running = true)
       ∧ (s.boot.warm ≠ 0))
    ∧ (let s : State := live
     (s.running = true)
       ∧ (s.boot.warm = 0)
       ∧ (7 ≤ s.boot.step)
       ∧ (s.slu.moves = []))
    ∧ (let s : State := { live with boot := { live.boot with warm := 2 } }
     (s.boot.warm = 2)
       ∧ (Tab.wf s.dax.cmds = true))
    ∧ (let s : State := { live with boot := { live.boot with warm := 3 }, vds := [] }
     (s.boot.warm = 3)
       ∧ (s.requestsDone = true)
       ∧ (s.slu.promo = [])
       ∧ (s.slu.moves = [])
       ∧ (∀ e ∈ s.slices, e.2.frames = [])
       ∧ (∀ v, (s.vd v).memClr = false))
    ∧ (let s : State := { live with boot := { live.boot with warm := 5 } }
     (s.boot.warm = 5))
    ∧ (let s : State := { live with ports := [], boot := { live.boot with warm := 6 } }
     (s.boot.warm = 6)
       ∧ (s.boot.held = [])
       ∧ (s.mgmt.reads = [])
       ∧ (Tab.wf s.ports = true)
       ∧ (∀ p, (s.port p).held = [])
       ∧ (s.pool.heldReqs = [])) :=
  ⟨by and_intros <;> decide +kernel,
   by and_intros <;> decide +kernel,
   by and_intros <;> decide +kernel,
   by and_intros <;> first | with_reducible rfl | decide +kernel,
   by and_intros <;> first | with_reducible rfl | decide +kernel | (intros; rfl),
   by with_reducible rfl,
   by and_intros <;> first | with_reducible rfl | decide +kernel | (intros; rfl)⟩

/-- States and operands that meet the hypotheses of Obligations.ClockMonitorFollowsTheReferences, clause by clause. -/
theorem meets_ClockMonitorFollowsTheReferences :
    (let s : State := { live with img := { imgT with device := { anchorSel := 0 } } }
     let r : Nat := 0
     let ns : Nat := 99
     (s.monitored r = true)
       ∧ (ns < 100)
       ∧ (s.anchor = some r))
    ∧ (let s : State := { live with ports := [(0, { refMode := 2 })], img := { imgT with device := { anchorSel := 0 } } }
     let r : Nat := 0
     (s.monitored r = true)
       ∧ ((s.refMon r).valid = true)
       ∧ (s.anchor = some r)
       ∧ (s.clk.source ≠ 3)
       ∧ (s.clk.quietBad = false)
       ∧ (2 ≤ (s.port r).refMode ∨ ((s.port r).link ≠ 1 ∧ (s.port r).link ≠ 2)))
    ∧ (let s : State := { live with clk := { source := 0, refs := [(1, { valid := true })] }, ports := [(1, { link := 1 })], img := { imgT with device := { anchorSel := 0 } } }
     let r : Nat := 1
     (s.monitored r = true)
       ∧ ((s.refMon r).valid = true)
       ∧ (s.anchor ≠ some r)
       ∧ ((s.port r).refMode ≤ 1)
       ∧ ((s.port r).link = 1))
    ∧ (let s : State := { live with clk := { source := 0, refs := [(1, { valid := true })] }, ports := [(1, { link := 1 })], img := { imgT with device := { anchorSel := 0 } } }
     let r : Nat := 1
     let hz : Nat := 99500000
     (s.monitored r = true)
       ∧ (s.inBand hz = true))
    ∧ (let s : State := { live with clk := { source := 0, refs := [(1, { valid := true })] }, ports := [(1, { link := 1 })], img := { imgT with device := { anchorSel := 0 } } }
     let r : Nat := 1
     let hz : Nat := 99499999
     (s.monitored r = true)
       ∧ (s.inBand hz = false)
       ∧ (((s.refMon r).out && (s.refMon r).valid) = false))
    ∧ (let s : State := { live with clk := { source := 0, refs := [(0, { valid := true, out := true })] }, ports := [(0, { refMode := 2 })], img := { imgT with device := { anchorSel := 0 } } }
     let r : Nat := 0
     let hz : Nat := 99499999
     (s.monitored r = true)
       ∧ (s.inBand hz = false)
       ∧ ((s.refMon r).out = true)
       ∧ ((s.refMon r).valid = true)
       ∧ (s.anchor = some r)
       ∧ (s.clk.source = 0)
       ∧ (s.clk.quietBad = false)
       ∧ (2 ≤ (s.port r).refMode))
    ∧ (let s : State := { live with clk := { source := 1 }, img := { imgT with device := { anchorSel := 0 } } }
     let r : Nat := 0
     (s.monitored r = true)
       ∧ ((s.refMon r).valid = false)
       ∧ ((s.refMon r).out = false)
       ∧ (s.anchor = some r)
       ∧ (s.clk.source = 1))
    ∧ (let s : State := { live with clk := { source := 0 }, img := { imgT with device := { anchorSel := 0 } } }
     (s.monitored 0 = true)
       ∧ (s.clk.quietBad = false)
       ∧ (s.clk.source = 0)) :=
  ⟨by and_intros <;> decide +kernel,
   by and_intros <;> decide +kernel,
   by and_intros <;> decide +kernel,
   by and_intros <;> decide +kernel,
   by and_intros <;> decide +kernel,
   by and_intros <;> first | with_reducible rfl | decide +kernel,
   by and_intros <;> first | with_reducible rfl | decide +kernel,
   by and_intros <;> first | with_reducible rfl | decide +kernel⟩

/-- States and operands that meet the hypotheses of Obligations.IdleBlocksGateThemselves, clause by clause. -/
theorem meets_IdleBlocksGateThemselves :
    (let s : State := live
     let n : Nat := 7
     (s.sliceOn n = true)
       ∧ (s.gateSt n = 0)
       ∧ (s.sliceIdle n = true))
    ∧ (let s : State := live
     let n : Nat := 7
     let choice : Nat := 1000
     let idle : Nat := 1000
     (s.sliceOn n = true)
       ∧ (s.gateSt n ≠ 2)
       ∧ (s.sliceIdle n = true)
       ∧ (s.baysUsed n = false)
       ∧ (bit s.pol.keepAwake n = false)
       ∧ (s.pol.pgMinIdle * 1000 ≤ choice)
       ∧ (choice ≤ idle)
       ∧ ((s.slice n).frames = []))
    ∧ (let s : State := live
     let n : Nat := 7
     let choice : Nat := 1000
     let idle : Nat := 999
     (s.sliceOn n = true)
       ∧ (s.gateSt n ≠ 2)
       ∧ (s.sliceIdle n = true)
       ∧ (s.baysUsed n = false)
       ∧ (bit s.pol.keepAwake n = false)
       ∧ (s.pol.pgMinIdle * 1000 ≤ choice)
       ∧ (idle < choice))
    ∧ (let s : State := live
     let n : Nat := 7
     let choice : Nat := 999
     let idle : Nat := 999
     (s.sliceOn n = true)
       ∧ (s.gateSt n ≠ 2)
       ∧ (s.sliceIdle n = true)
       ∧ (s.baysUsed n = false)
       ∧ (bit s.pol.keepAwake n = false)
       ∧ (choice < s.pol.pgMinIdle * 1000)
       ∧ (idle < s.pol.pgMinIdle * 1000))
    ∧ (let s : State := { live with power := { slices := [(7, 2)] } }
     let n : Nat := 7
     (s.gateSt n ≠ 0)
       ∧ ((s.slice n).retired = false)
       ∧ ((s.slice n).inq = []))
    ∧ (let s : State := live
     let n : Nat := 7
     (s.sliceOn n = true)
       ∧ (s.hasTask n = false)
       ∧ (s.power.runners.contains n = false))
    ∧ (let s : State := live
     let d : Nat := 0
     let choice : Nat := 1000
     let idle : Nat := 1000
     ((s.die d).st = .active)
       ∧ (s.dieIdle d = true)
       ∧ (s.power.refresh.contains d = false)
       ∧ (s.pol.srMinIdle * 1000 ≤ choice)
       ∧ (choice ≤ idle))
    ∧ (let s : State := live
     let d : Nat := 0
     ((s.die d).st = .active)
       ∧ ((s.flume.getD d {}).run = none)
       ∧ ((s.flume.getD d {}).waiting = [])
       ∧ ((s.races.getD d {}).waiting = [])
       ∧ (s.power.flumes.contains d = false)) :=
  ⟨by and_intros <;> decide +kernel,
   by and_intros <;> first | with_reducible rfl | decide +kernel,
   by and_intros <;> decide +kernel,
   by and_intros <;> decide +kernel,
   by and_intros <;> decide +kernel,
   by and_intros <;> decide +kernel,
   by and_intros <;> first | with_reducible rfl | decide +kernel,
   by and_intros <;> decide +kernel⟩

/-- States and operands that meet the hypotheses of Obligations.StackTemperatureDrivesItsActions, clause by clause. -/
theorem meets_StackTemperatureDrivesItsActions :
    (let s : State := live
     let d : Nat := 0
     let rs : List (Option Nat) := [some 114, some 30]
     ((s.die d).st = .active)
       ∧ (stackTemp rs < 115))
    ∧ (let s : State := live
     let choice : Nat := 3900
     (Tab.wf s.power.interval = true)) :=
  ⟨by and_intros <;> decide +kernel,
   by decide +kernel⟩

/-- States and operands that meet the hypotheses of Obligations.TapInstructionsSelectTheirRegisters, clause by clause. -/
theorem meets_TapInstructionsSelectTheirRegisters :
    (let s : State := live
     (s.board.pwrOk = true)
       ∧ (s.boot.testLock = false)
       ∧ (s.jtag.sibs = 0))
    ∧ (let s : State := { live with boot := { live.boot with testLock := true } }
     (s.board.pwrOk = true)
       ∧ (s.boot.testLock = true))
    ∧ (let s : State := { live with jtag := { ir := 0x20 } }
     (s.board.pwrOk = true)
       ∧ (s.jtag.ir = 0x20))
    ∧ (let s : State := { live with jtag := { ir := 0x20, sibs := 128 } }
     let d : Nat := 7
     (s.board.pwrOk = true)
       ∧ (d < 8)
       ∧ (bit s.jtag.sibs d = true)
       ∧ ((s.die d).st ≠ .active)
       ∧ (s.boot.step < 5 ∨ 7 ≤ s.boot.step)
       ∧ (s.power.testCom.contains d = false)) :=
  ⟨by and_intros <;> decide +kernel,
   by and_intros <;> first | with_reducible rfl | decide +kernel,
   by and_intros <;> first | with_reducible rfl | decide +kernel,
   by and_intros <;> decide +kernel⟩

/-- States and operands that meet the hypotheses of Obligations.CxlPortsTrainComeUpAndGoDown, clause by clause. -/
theorem meets_CxlPortsTrainComeUpAndGoDown :
    (let s : State := { live with ports := [], clk := { source := 0, refs := [(3, { valid := true })] } }
     let p : Nat := 3
     (s.board.pwrOk = true)
       ∧ (5 ≤ s.boot.step)
       ∧ (p < 4)
       ∧ ((s.port p).link = 0)
       ∧ ((s.port p).perst = false)
       ∧ (s.boot.noImage = false)
       ∧ (s.clk.source ≠ 3)
       ∧ ((s.port p).refMode ≤ 1)
       ∧ ((s.refMon p).valid = true))
    ∧ (let s : State := { live with ports := [(3, { link := 1 })] }
     let p : Nat := 3
     let t : State := { s with ports := s.ports.setD p {} { s.port p with link := 2, rate := s.trainedRate p rate, width := s.trainedWidth p width, cxlOk := cxl, mld := cxl && mld, sris := sris && decide ((s.port p).refMode = 1), ideSeen := false, power := 0 } }
     (p < 4)
       ∧ ((s.port p).link = 1 ∨ (s.port p).link = 2)
       ∧ ((s.port p).perst = false)
       ∧ ((s.port p).held = [])
       ∧ (t = { s with ports := s.ports.setD p {} { s.port p with link := 2, rate := s.trainedRate p rate, width := s.trainedWidth p width, cxlOk := cxl, mld := cxl && mld, sris := sris && decide ((s.port p).refMode = 1), ideSeen := false, power := 0 } })
       ∧ (s.boot.neverActive = false))
    ∧ (let s : State := { live with boot := { live.boot with neverActive := true }, ports := [(3, { link := 1 })] }
     let p : Nat := 3
     let t : State := { s with ports := s.ports.setD p {} { s.port p with link := 2, rate := s.trainedRate p rate, width := s.trainedWidth p width, cxlOk := cxl, mld := cxl && mld, sris := sris && decide ((s.port p).refMode = 1), ideSeen := false, power := 0 } }
     (p < 4)
       ∧ ((s.port p).link = 1 ∨ (s.port p).link = 2)
       ∧ ((s.port p).perst = false)
       ∧ ((s.port p).held = [])
       ∧ (t = { s with ports := s.ports.setD p {} { s.port p with link := 2, rate := s.trainedRate p rate, width := s.trainedWidth p width, cxlOk := cxl, mld := cxl && mld, sris := sris && decide ((s.port p).refMode = 1), ideSeen := false, power := 0 } })
       ∧ (s.boot.neverActive = true))
    ∧ (let s : State := { cold with ports := [(3, { link := 1 })] }
     let p : Nat := 3
     let rate : Nat := 5
     (rate ≤ 5)
       ∧ (rateGt rate ≤ s.fuses.maxRate)
       ∧ (s.img.applied = false))
    ∧ (let s : State := { live with ports := [(3, { link := 2 })], mgmt := { sessions := [(4, (some 3, true))] } }
     let p : Nat := 3
     let n : Nat := 4
     let mem : Bool := false
     (s.mgmt.sessions.find n = some (some p, true))
       ∧ ((s.port p).link = 2)
       ∧ (mem = false ∨ s.fuses.prevGen = false))
    ∧ (let s : State := { live with ports := [(3, { link := 2 })], mgmt := { sessions := [(4, (some 3, true))] } }
     let p : Nat := 3
     let n : Nat := 4
     (s.mgmt.sessions.find n = some (some p, true))
       ∧ ((s.port p).link = 2)
       ∧ ((s.port p).held = [])
       ∧ (s.boot.held = [])
       ∧ (s.fuses.prevGen = false))
    ∧ (let s : State := { live with fuses := { prevGen := true } }
     let p : Nat := 3
     (s.fuses.prevGen = true))
    ∧ (let s : State := { live with ports := [(3, { link := 2 })], mgmt := { sessions := [(4, (some 3, true))] }, fuses := { prevGen := true } }
     let p : Nat := 3
     let level : Nat := 2
     ((s.port p).link = 2)
       ∧ (s.boot.warm = 0)
       ∧ (level ≠ 2 ∨ s.biLines p = []))
    ∧ (let s : State := { live with ports := [(3, { link := 2 })], slices := [(0, { miss := [(5, { phase := .snoop, snpHost := [(3, 0)] })] })] }
     let p : Nat := 3
     ((s.port p).link = 2)
       ∧ (s.biLines p ≠ []))
    ∧ (let s : State := { live with ports := [(3, { link := 2 })], boot := { live.boot with warm := 2 } }
     let p : Nat := 3
     let level : Nat := 2
     ((s.port p).link = 2)
       ∧ (s.boot.warm ≠ 0))
    ∧ (let s : State := { live with ports := [(3, { link := 2 })] }
     let p : Nat := 3
     (p < 4)
       ∧ ((s.port p).link = 1 ∨ (s.port p).link = 2)
       ∧ (s.biLines p = [])
       ∧ ((s.dir.all fun e => !bit e.2.hosts.toNat p) = true)
       ∧ (Tab.wf s.ports = true)) :=
  ⟨by and_intros <;> decide +kernel,
   by and_intros <;> first | with_reducible rfl | decide +kernel,
   by and_intros <;> first | with_reducible rfl | decide +kernel,
   by and_intros <;> first | with_reducible rfl | decide +kernel,
   by and_intros <;> decide +kernel,
   by and_intros <;> decide +kernel,
   by with_reducible rfl,
   by and_intros <;> decide +kernel,
   by and_intros <;> decide +kernel,
   by and_intros <;> decide +kernel,
   by and_intros <;> decide +kernel⟩

/-- States and operands that meet the hypotheses of Obligations.PortEventsResetTheirVirtualDevices, clause by clause. -/
theorem meets_PortEventsResetTheirVirtualDevices :
    (let s : State := live
     let p : Nat := 0
     let ld : Nat := 1
     (s.exposed p ld = true)
       ∧ (ld < 16)
       ∧ (s.portStuck p = false)
       ∧ (s.vdExists (16 * p + ld) = true)
       ∧ ((s.vd (16 * p + ld)).st ≠ .resetting))
    ∧ (let s : State := { live with ports := [(0, { link := 2, cxlOk := true, mld := true, ideSwitch := true })] }
     let p : Nat := 0
     let ld : Nat := 1
     (s.portStuck p = true))
    ∧ (let s : State := live
     let p : Nat := 0
     let ld : Nat := 16
     (s.portStuck p = false)
       ∧ (16 ≤ ld ∨ s.exposed p ld = false)
       ∧ ((s.port p).mld = true))
    ∧ (let s : State := { live with ports := [(0, { link := 2, cxlOk := true })] }
     let p : Nat := 0
     let ld : Nat := 16
     (s.portStuck p = false)
       ∧ (16 ≤ ld ∨ s.exposed p ld = false)
       ∧ ((s.port p).mld = false))
    ∧ (let s : State := live
     let v : Nat := 1
     let c : Nat := 7
     (1 ≤ c)
       ∧ (c ≤ 7)
       ∧ (s.vdExists v = true)
       ∧ ((s.vd v).st ≠ .resetting))
    ∧ (let s : State := vd0 { st := .resetting }
     let v : Nat := 0
     let c : Nat := 2
     (2 ≤ c)
       ∧ (c ≤ 7)
       ∧ (c ≠ 5)
       ∧ (s.vdExists v = true)
       ∧ ((s.vd v).st = .resetting))
    ∧ (let s : State := live
     let p : Nat := 0
     (p < 4)
       ∧ ((s.port p).link = 1 ∨ (s.port p).link = 2)
       ∧ ((s.dir.all fun e => !bit e.2.hosts.toNat p) = true)
       ∧ (s.biLines p = [])
       ∧ ((s.addLevel 7 p 256).2 = false))
    ∧ (let s : State := live
     let p : Nat := 0
     (p < 4)
       ∧ (s.running = true)
       ∧ ((s.port p).link = 2)
       ∧ (s.biLines p = [])
       ∧ ((s.dir.all fun e => !bit e.2.hosts.toNat p) = true)
       ∧ (Tab.wf s.ports = true)) :=
  ⟨by and_intros <;> decide +kernel,
   by decide +kernel,
   by and_intros <;> decide +kernel,
   by and_intros <;> decide +kernel,
   by and_intros <;> first | with_reducible rfl | decide +kernel,
   by and_intros <;> first | with_reducible rfl | decide +kernel,
   by and_intros <;> decide +kernel,
   by and_intros <;> decide +kernel⟩

/-- States and operands that meet the hypotheses of Obligations.PolicyWritesWaitInOrder, clause by clause. -/
theorem meets_PolicyWritesWaitInOrder :
    (let s : State := live
     (s.img.applied = true)
       ∧ (s.polq.queue.length < 16)
       ∧ (s.polq.held = []))
    ∧ (let s : State := { live with polq := { held := [{ reg := .srMinIdle, val := 3 }] } }
     (s.img.applied = true)
       ∧ (16 ≤ s.polq.queue.length ∨ s.polq.held ≠ []))
    ∧ (let s : State := live
     let v : Nat := 0
     (s.img.device.policyVd = v)
       ∧ (s.WindowOpen v)
       ∧ (s.polq.queue.length < 16)
       ∧ (s.polq.held = []))
    ∧ (let s : State := live
     let v : Nat := 1
     (s.img.device.policyVd ≠ v))
    ∧ (let s : State := { live with polq := { queue := [{ reg := .srMinIdle, val := 0, vd := some 0 }] } }
     let w : PolWrite := { reg := .srMinIdle, val := 0, vd := some 0 }
     let ws : List PolWrite := []
     let v : Nat := 0
     (s.polq.queue = w :: ws)
       ∧ (s.polq.held = [])
       ∧ (s.polq.cur = none)
       ∧ (s.polOpen = true)
       ∧ (s.boot.held = [])
       ∧ (w.vd = some v)
       ∧ (w.hdr = none)
       ∧ (w.first = false)
       ∧ (w.reg = .srMinIdle)
       ∧ (s.polInRange w.reg w.val = false))
    ∧ (let s : State := { live with polq := { cur := some { reg := .srMinIdle, val := 5, vd := some 0 } } }
     let w : PolWrite := { reg := .srMinIdle, val := 5, vd := some 0 }
     (s.polq.cur = some w)
       ∧ (w.hdr = none)) :=
  ⟨by and_intros <;> decide +kernel,
   by and_intros <;> decide +kernel,
   by and_intros <;> first | decide +kernel | (simp only [State.WindowOpen, State.MailboxOpen, State.FmOpen, State.MgmtOpen]; decide +kernel),
   by decide +kernel,
   by and_intros <;> first | with_reducible rfl | decide +kernel,
   by and_intros <;> with_reducible rfl⟩

/-- States and operands that meet the hypotheses of Obligations.PolicyWritesGiveTheirRegisterTheValue, clause by clause. -/
theorem meets_PolicyWritesGiveTheirRegisterTheValue :
    (let w : PolWrite := { reg := .fmThresh 9, val := 1000 }
     let s : State := { live with polq := { queue := [w] } }
     let ws : List PolWrite := []
     let t : State := { s with pol := s.pol.set w.reg (s.polValue w), polq := { s.polq with queue := ws, cur := some w, result := 0 } }
     let k : Nat := 9
     (s.polq.queue = w :: ws)
       ∧ (s.polq.held = [])
       ∧ (s.polq.cur = none)
       ∧ (s.polOpen = true)
       ∧ (s.boot.held = [])
       ∧ (s.polInRange w.reg (s.polValue w) = true)
       ∧ (t = { s with pol := s.pol.set w.reg (s.polValue w), polq := { s.polq with queue := ws, cur := some w, result := 0 } })
       ∧ (w.reg = .fmThresh k)
       ∧ (s.flt.meters = [])
       ∧ (s.flt.rows = []))
    ∧ (let w : PolWrite := { reg := .fmWscale 0, val := 16 }
     let s : State := { live with polq := { queue := [w] } }
     let ws : List PolWrite := []
     let t : State := { s with pol := s.pol.set w.reg (s.polValue w), polq := { s.polq with queue := ws, cur := some w, result := 0 } }
     let k : Nat := 0
     (s.polq.queue = w :: ws)
       ∧ (s.polq.held = [])
       ∧ (s.polq.cur = none)
       ∧ (s.polOpen = true)
       ∧ (s.boot.held = [])
       ∧ (s.polInRange w.reg (s.polValue w) = true)
       ∧ (t = { s with pol := s.pol.set w.reg (s.polValue w), polq := { s.polq with queue := ws, cur := some w, result := 0 } })
       ∧ (w.reg = .fmWscale k))
    ∧ (let w : PolWrite := { reg := .refreshCap, val := 975 }
     let s : State := { live with polq := { queue := [w] } }
     let ws : List PolWrite := []
     let t : State := { s with pol := s.pol.set w.reg (s.polValue w), polq := { s.polq with queue := ws, cur := some w, result := 0 } }
     (s.polq.queue = w :: ws)
       ∧ (s.polq.held = [])
       ∧ (s.polq.cur = none)
       ∧ (s.polOpen = true)
       ∧ (s.boot.held = [])
       ∧ (s.polInRange w.reg (s.polValue w) = true)
       ∧ (t = { s with pol := s.pol.set w.reg (s.polValue w), polq := { s.polq with queue := ws, cur := some w, result := 0 } })
       ∧ (w.reg = .refreshCap))
    ∧ (let w : PolWrite := { reg := .srMinIdle, val := 1 }
     let s : State := { live with polq := { queue := [w] } }
     let ws : List PolWrite := []
     let t : State := { s with pol := s.pol.set w.reg (s.polValue w), polq := { s.polq with queue := ws, cur := some w, result := 0 } }
     (s.polq.queue = w :: ws)
       ∧ (s.polq.held = [])
       ∧ (s.polq.cur = none)
       ∧ (s.polOpen = true)
       ∧ (s.boot.held = [])
       ∧ (s.polInRange w.reg (s.polValue w) = true)
       ∧ (t = { s with pol := s.pol.set w.reg (s.polValue w), polq := { s.polq with queue := ws, cur := some w, result := 0 } })
       ∧ (w.reg = .srMinIdle))
    ∧ (let w : PolWrite := { reg := .pgMinIdle, val := 10 }
     let s : State := { live with polq := { queue := [w] } }
     let ws : List PolWrite := []
     let t : State := { s with pol := s.pol.set w.reg (s.polValue w), polq := { s.polq with queue := ws, cur := some w, result := 0 } }
     (s.polq.queue = w :: ws)
       ∧ (s.polq.held = [])
       ∧ (s.polq.cur = none)
       ∧ (s.polOpen = true)
       ∧ (s.boot.held = [])
       ∧ (s.polInRange w.reg (s.polValue w) = true)
       ∧ (t = { s with pol := s.pol.set w.reg (s.polValue w), polq := { s.polq with queue := ws, cur := some w, result := 0 } })
       ∧ (w.reg = .pgMinIdle))
    ∧ (let w : PolWrite := { reg := .keepLo, val := 1 }
     let s : State := { live with polq := { queue := [w] } }
     let ws : List PolWrite := []
     let t : State := { s with pol := s.pol.set w.reg (s.polValue w), polq := { s.polq with queue := ws, cur := some w, result := 0 } }
     (s.polq.queue = w :: ws)
       ∧ (s.polq.held = [])
       ∧ (s.polq.cur = none)
       ∧ (s.polOpen = true)
       ∧ (s.boot.held = [])
       ∧ (s.polInRange w.reg (s.polValue w) = true)
       ∧ (t = { s with pol := s.pol.set w.reg (s.polValue w), polq := { s.polq with queue := ws, cur := some w, result := 0 } })
       ∧ (w.reg = .keepAwake ∨ w.reg = .keepLo ∨ w.reg = .keepHi)
       ∧ (∀ n, bit t.pol.keepAwake n = true → s.gateSt n = 0))
    ∧ (let w : PolWrite := { reg := .spillMaxK, val := 64 }
     let s : State := { live with polq := { queue := [w] } }
     let ws : List PolWrite := []
     let t : State := { s with pol := s.pol.set w.reg (s.polValue w), polq := { s.polq with queue := ws, cur := some w, result := 0 } }
     (s.polq.queue = w :: ws)
       ∧ (s.polq.held = [])
       ∧ (s.polq.cur = none)
       ∧ (s.polOpen = true)
       ∧ (s.boot.held = [])
       ∧ (s.polInRange w.reg (s.polValue w) = true)
       ∧ (t = { s with pol := s.pol.set w.reg (s.polValue w), polq := { s.polq with queue := ws, cur := some w, result := 0 } })
       ∧ (w.reg = .spillMaxK))
    ∧ (let w : PolWrite := { reg := .hylEqHold, val := 1 }
     let s : State := { live with polq := { queue := [w] } }
     let ws : List PolWrite := []
     let t : State := { s with pol := s.pol.set w.reg (s.polValue w), polq := { s.polq with queue := ws, cur := some w, result := 0 } }
     (s.polq.queue = w :: ws)
       ∧ (s.polq.held = [])
       ∧ (s.polq.cur = none)
       ∧ (s.polOpen = true)
       ∧ (s.boot.held = [])
       ∧ (s.polInRange w.reg (s.polValue w) = true)
       ∧ (t = { s with pol := s.pol.set w.reg (s.polValue w), polq := { s.polq with queue := ws, cur := some w, result := 0 } })
       ∧ (w.reg = .hylEqHold))
    ∧ (let w : PolWrite := { reg := .fantailCtrl, val := 1 }
     let s : State := { live with polq := { queue := [w] } }
     let ws : List PolWrite := []
     let t : State := { s with pol := s.pol.set w.reg (s.polValue w), polq := { s.polq with queue := ws, cur := some w, result := 0 } }
     (s.polq.queue = w :: ws)
       ∧ (s.polq.held = [])
       ∧ (s.polq.cur = none)
       ∧ (s.polOpen = true)
       ∧ (s.boot.held = [])
       ∧ (s.polInRange w.reg (s.polValue w) = true)
       ∧ (t = { s with pol := s.pol.set w.reg (s.polValue w), polq := { s.polq with queue := ws, cur := some w, result := 0 } })
       ∧ (w.reg = .fantailCtrl)
       ∧ (w.val = 1))
    ∧ (let w : PolWrite := { reg := .fantailCtrl, val := 0 }
     let s : State := { live with polq := { queue := [w] } }
     let ws : List PolWrite := []
     let t : State := { s with pol := s.pol.set w.reg (s.polValue w), polq := { s.polq with queue := ws, cur := some w, result := 0 } }
     (s.polq.queue = w :: ws)
       ∧ (s.polq.held = [])
       ∧ (s.polq.cur = none)
       ∧ (s.polOpen = true)
       ∧ (s.boot.held = [])
       ∧ (s.polInRange w.reg (s.polValue w) = true)
       ∧ (t = { s with pol := s.pol.set w.reg (s.polValue w), polq := { s.polq with queue := ws, cur := some w, result := 0 } })
       ∧ (w.reg = .fantailCtrl)
       ∧ (w.val = 0))
    ∧ (let w : PolWrite := { reg := .regionPolicy 15, val := 7 }
     let s : State := { live with polq := { queue := [w] } }
     let ws : List PolWrite := []
     let n : Nat := 15
     let t : State := { s with pol := s.pol.set w.reg (s.polValue w), polq := { s.polq with queue := ws, cur := some w, result := 0 } }
     (s.polq.queue = w :: ws)
       ∧ (s.polq.held = [])
       ∧ (s.polq.cur = none)
       ∧ (s.polOpen = true)
       ∧ (s.boot.held = [])
       ∧ (s.polInRange w.reg (s.polValue w) = true)
       ∧ (t = { s with pol := s.pol.set w.reg (s.polValue w), polq := { s.polq with queue := ws, cur := some w, result := 0 } })
       ∧ (w.reg = .regionPolicy n))
    ∧ (let w : PolWrite := { reg := .quotaTask 1, val := 8 }
     let s : State := { live with polq := { queue := [w] } }
     let ws : List PolWrite := []
     let t : State := { s with pol := s.pol.set w.reg (s.polValue w), polq := { s.polq with queue := ws, cur := some w, result := 0 } }
     let v : Nat := 1
     (s.polq.queue = w :: ws)
       ∧ (s.polq.held = [])
       ∧ (s.polq.cur = none)
       ∧ (s.polOpen = true)
       ∧ (s.boot.held = [])
       ∧ (s.polInRange w.reg (s.polValue w) = true)
       ∧ (t = { s with pol := s.pol.set w.reg (s.polValue w), polq := { s.polq with queue := ws, cur := some w, result := 0 } })
       ∧ (w.reg = .quotaTask v))
    ∧ (let w : PolWrite := { reg := .quotaBuf 1, val := 8 }
     let s : State := { live with polq := { queue := [w] } }
     let ws : List PolWrite := []
     let t : State := { s with pol := s.pol.set w.reg (s.polValue w), polq := { s.polq with queue := ws, cur := some w, result := 0 } }
     let v : Nat := 1
     (s.polq.queue = w :: ws)
       ∧ (s.polq.held = [])
       ∧ (s.polq.cur = none)
       ∧ (s.polOpen = true)
       ∧ (s.boot.held = [])
       ∧ (s.polInRange w.reg (s.polValue w) = true)
       ∧ (t = { s with pol := s.pol.set w.reg (s.polValue w), polq := { s.polq with queue := ws, cur := some w, result := 0 } })
       ∧ (w.reg = .quotaBuf v))
    ∧ (let w : PolWrite := { reg := .quotaPage 1, val := 4096 }
     let s : State := { live with polq := { queue := [w] } }
     let ws : List PolWrite := []
     let t : State := { s with pol := s.pol.set w.reg (s.polValue w), polq := { s.polq with queue := ws, cur := some w, result := 0 } }
     let v : Nat := 1
     (s.polq.queue = w :: ws)
       ∧ (s.polq.held = [])
       ∧ (s.polq.cur = none)
       ∧ (s.polOpen = true)
       ∧ (s.boot.held = [])
       ∧ (s.polInRange w.reg (s.polValue w) = true)
       ∧ (t = { s with pol := s.pol.set w.reg (s.polValue w), polq := { s.polq with queue := ws, cur := some w, result := 0 } })
       ∧ (w.reg = .quotaPage v))
    ∧ (let w : PolWrite := { reg := .quotaPen 1, val := 8 }
     let s : State := { live with polq := { queue := [w] } }
     let ws : List PolWrite := []
     let t : State := { s with pol := s.pol.set w.reg (s.polValue w), polq := { s.polq with queue := ws, cur := some w, result := 0 } }
     let v : Nat := 1
     (s.polq.queue = w :: ws)
       ∧ (s.polq.held = [])
       ∧ (s.polq.cur = none)
       ∧ (s.polOpen = true)
       ∧ (s.boot.held = [])
       ∧ (s.polInRange w.reg (s.polValue w) = true)
       ∧ (t = { s with pol := s.pol.set w.reg (s.polValue w), polq := { s.polq with queue := ws, cur := some w, result := 0 } })
       ∧ (w.reg = .quotaPen v))
    ∧ (let w : PolWrite := { reg := .qos 1, val := 5 }
     let s : State := { live with polq := { queue := [w] } }
     let ws : List PolWrite := []
     let t : State := { s with pol := s.pol.set w.reg (s.polValue w), polq := { s.polq with queue := ws, cur := some w, result := 0 } }
     let v : Nat := 1
     (s.polq.queue = w :: ws)
       ∧ (s.polq.held = [])
       ∧ (s.polq.cur = none)
       ∧ (s.polOpen = true)
       ∧ (s.boot.held = [])
       ∧ (s.polInRange w.reg (s.polValue w) = true)
       ∧ (t = { s with pol := s.pol.set w.reg (s.polValue w), polq := { s.polq with queue := ws, cur := some w, result := 0 } })
       ∧ (w.reg = .qos v)) :=
  ⟨by and_intros <;> first | with_reducible rfl | decide +kernel,
   by and_intros <;> first | with_reducible rfl | decide +kernel,
   by and_intros <;> first | with_reducible rfl | decide +kernel,
   by and_intros <;> first | with_reducible rfl | decide +kernel,
   by and_intros <;> first | with_reducible rfl | decide +kernel,
   by and_intros <;> first | with_reducible rfl | decide +kernel | (intros; rfl),
   by and_intros <;> first | with_reducible rfl | decide +kernel,
   by and_intros <;> first | with_reducible rfl | decide +kernel,
   by and_intros <;> first | with_reducible rfl | decide +kernel,
   by and_intros <;> first | with_reducible rfl | decide +kernel,
   by and_intros <;> first | with_reducible rfl | decide +kernel,
   by and_intros <;> first | with_reducible rfl | decide +kernel,
   by and_intros <;> first | with_reducible rfl | decide +kernel,
   by and_intros <;> first | with_reducible rfl | decide +kernel,
   by and_intros <;> first | with_reducible rfl | decide +kernel,
   by and_intros <;> first | with_reducible rfl | decide +kernel⟩

/-- States and operands that meet the hypotheses of Obligations.FmApiReportsTheDevice, clause by clause. -/
theorem meets_FmApiReportsTheDevice :
    (let s : State := at7 7
     let h : MctpHdr := { ty := 7 }
     let p : Nat := 0
     let ws : List Nat := [1, 1]
     (s.FmOpen h)
       ∧ (((List.range 16).filter fun l => s.vdExists (16 * p + l)).map (fun l => s.pol.qos.getD (16 * p + l) 0 / 4 % 32) = ws))
    ∧ (let s : State := at7 7
     let h : MctpHdr := { ty := 7 }
     let v : Nat := 1
     let r : Nat := 7
     (s.FmOpen h)
       ∧ (s.vdExists v = true)
       ∧ (r < 8))
    ∧ (let s : State := at7 7
     let h : MctpHdr := { ty := 7 }
     let r : Nat := 7
     let base : Nat := 0
     let len : Nat := 0
     let block : Nat := 0
     (s.FmOpen h)
       ∧ (base ≠ r * 2 ^ 39 ∨ len ≠ 2 ^ 39 ∨ block ≠ 2 ^ 21))
    ∧ (let s : State := at7 7
     let h : MctpHdr := { ty := 7 }
     let op : Nat := 0x53FF
     (s.FmOpen h)
       ∧ (op < 0x5400)) :=
  ⟨by exact ⟨by simp only [State.WindowOpen, State.MailboxOpen, State.FmOpen, State.MgmtOpen]; decide +kernel, by decide +kernel⟩,
   by exact ⟨by simp only [State.WindowOpen, State.MailboxOpen, State.FmOpen, State.MgmtOpen]; decide +kernel, by decide +kernel, by decide +kernel⟩,
   by exact ⟨by simp only [State.WindowOpen, State.MailboxOpen, State.FmOpen, State.MgmtOpen]; decide +kernel, by decide +kernel⟩,
   by exact ⟨by simp only [State.WindowOpen, State.MailboxOpen, State.FmOpen, State.MgmtOpen]; decide +kernel, by decide +kernel⟩⟩

/-- States and operands that meet the hypotheses of Obligations.CapacityIsOfferedAcceptedAndReleased, clause by clause. -/
theorem meets_CapacityIsOfferedAcceptedAndReleased :
    (let s : State := at7 7
     let h : MctpHdr := { ty := 7 }
     let v : Nat := 0
     let base : Nat := 0
     let len : Nat := 2 ^ 21
     (s.FmOpen h)
       ∧ (s.addCheck v [(base, len)] false = .success))
    ∧ (let s : State := at7 7
     let h : MctpHdr := { ty := 7 }
     let v : Nat := 0
     let xs : List (Nat × Nat) := []
     let sh : Bool := true
     (s.FmOpen h)
       ∧ (s.addCheck v xs sh ≠ .success))
    ∧ (let s : State := { at7 7 with vds := [(0, { st := .ready, extents := [(0, 2 ^ 22)] })] }
     let h : MctpHdr := { ty := 7 }
     let v : Nat := 0
     let base : Nat := 2 ^ 21
     let len : Nat := 2 ^ 21
     (s.FmOpen h)
       ∧ (s.vdExists v = true)
       ∧ (s.releaseCheck v [(base, len)] = .success))
    ∧ (let s : State := vd0 { st := .ready, offers := [(0, 2 ^ 21, 5)] }
     let v : Nat := 0
     let base : Nat := 0
     let len : Nat := 2 ^ 21
     let time : Nat := 5
     (s.MailboxOpen v)
       ∧ ((s.vd v).offers = [(base, len, time)]))
    ∧ (let s : State := vd0 { st := .ready, extents := [(0, 2 ^ 21)] }
     let v : Nat := 0
     let base : Nat := 0
     let len : Nat := 2 ^ 21
     (s.MailboxOpen v)
       ∧ ((s.vd v).extents = [(base, len)])
       ∧ (s.releaseCheck v [(base, len)] = .success)
       ∧ (Tab.wf s.vds = true)
       ∧ (∀ e ∈ s.slu.pt, e.1 / 2 ^ 26 ≠ v)
       ∧ (∀ w ∈ s.slu.walks, w.vd ≠ v)
       ∧ (∀ m ∈ s.slu.moves, m.vd ≠ v)
       ∧ (s.slu.places = [])) :=
  ⟨by exact ⟨by simp only [State.WindowOpen, State.MailboxOpen, State.FmOpen, State.MgmtOpen]; decide +kernel, by decide +kernel⟩,
   by exact ⟨by simp only [State.WindowOpen, State.MailboxOpen, State.FmOpen, State.MgmtOpen]; decide +kernel, by decide +kernel⟩,
   by exact ⟨by simp only [State.WindowOpen, State.MailboxOpen, State.FmOpen, State.MgmtOpen]; decide +kernel, by simp only [State.WindowOpen, State.MailboxOpen, State.FmOpen, State.MgmtOpen]; decide +kernel, by simp only [State.WindowOpen, State.MailboxOpen, State.FmOpen, State.MgmtOpen]; decide +kernel⟩,
   by exact ⟨by simp only [State.WindowOpen, State.MailboxOpen, State.FmOpen, State.MgmtOpen]; decide +kernel, by decide +kernel⟩,
   by and_intros <;> decide +kernel⟩

/-- States and operands that meet the hypotheses of Obligations.MailboxReportsTheLogicalDevice, clause by clause. -/
theorem meets_MailboxReportsTheLogicalDevice :
    (let s : State := live
     let v : Nat := 0
     (s.MailboxOpen v)
       ∧ ((s.vd v).background = none))
    ∧ (let s : State := vd0 { st := .ready, background := some .sanitize }
     let v : Nat := 0
     (s.MailboxOpen v)
       ∧ ((s.vd v).background = some .sanitize))
    ∧ (let s : State := vd0 { logs := [(0, { msix := some 9 })] }
     let v : Nat := 0
     let vals : List Nat := [9, 1, 0, 0, 0, 0, 0, 0, 0, 0]
     (s.MailboxOpen v)
       ∧ (vals = (List.range 5).flatMap (fun i => match ((s.vd v).logs.getD i {}).msix with | some m => [m, 1] | none => [0, 0])))
    ∧ (let s : State := vd0 { logs := [(0, { msix := some 9 })] }
     let v : Nat := 0
     let log : Nat := 4
     let m : Nat := 31
     (s.MailboxOpen v)
       ∧ (log < 5)
       ∧ (m < 32))
    ∧ (let s : State := vd0 { logs := [(0, { msix := some 9 })] }
     let v : Nat := 0
     let op : Nat := 0x3FF
     (s.MailboxOpen v)
       ∧ (0x0302 ≤ op)
       ∧ (op < 0x0400)) :=
  ⟨by exact ⟨by simp only [State.WindowOpen, State.MailboxOpen, State.FmOpen, State.MgmtOpen]; decide +kernel, by decide +kernel⟩,
   by exact ⟨by simp only [State.WindowOpen, State.MailboxOpen, State.FmOpen, State.MgmtOpen]; decide +kernel, by decide +kernel⟩,
   by exact ⟨by simp only [State.WindowOpen, State.MailboxOpen, State.FmOpen, State.MgmtOpen]; decide +kernel, by decide +kernel⟩,
   by exact ⟨by simp only [State.WindowOpen, State.MailboxOpen, State.FmOpen, State.MgmtOpen]; decide +kernel, by decide +kernel, by decide +kernel⟩,
   by exact ⟨by simp only [State.WindowOpen, State.MailboxOpen, State.FmOpen, State.MgmtOpen]; decide +kernel, by decide +kernel, by decide +kernel⟩⟩

/-- States and operands that meet the hypotheses of Obligations.MailboxMediaCommandsActOnTheLd, clause by clause. -/
theorem meets_MailboxMediaCommandsActOnTheLd :
    (let s : State := live
     let v : Nat := 0
     let dpa : Nat := 5
     (s.MailboxOpen v)
       ∧ (s.inExtent v dpa = false))
    ∧ (let s : State := { vd0 { st := .ready, extents := [(0, 2 ^ 21)] } with slu := { pt := [(1, { kind := .page })] }, slices := [(0, { frames := [(0, homeF)] })] }
     let v : Nat := 0
     let dpa : Nat := 65536
     let x : Ext := {}
     let e : PEntry := { kind := .page }
     let n : Nat := 0
     let k : Nat := 0
     let f : Frame := homeF
     (s.MailboxOpen v)
       ∧ (dpa % 64 = 0)
       ∧ (s.inExtent v dpa = true)
       ∧ (s.entry v (dpa / 65536) = some (dpa / 65536, e))
       ∧ (e.kind = .page)
       ∧ (x.via = 255)
       ∧ (s.ends = [])
       ∧ (s.HomeIdle n (e.gaddr (dpa / 65536) dpa / 128) k f))
    ∧ (let s : State := vd0 { st := .ready, background := some .scan }
     let v : Nat := 0
     (s.MailboxOpen v)
       ∧ ((s.vd v).background ≠ none))
    ∧ (let s : State := live
     let v : Nat := 0
     (s.MailboxOpen v)
       ∧ ((s.vd v).background = none)
       ∧ ((s.vd v).extents = []))
    ∧ (let s : State := vd0 { st := .ready, background := some .scan, scanRange := (0, 64) }
     let v : Nat := 0
     let lo : Nat := 0
     let len : Nat := 64
     (s.MailboxOpen v)
       ∧ ((s.vd v).background = some .scan)
       ∧ ((s.vd v).scanRange = (lo, len))
       ∧ (Tab.wf s.vds = true))
    ∧ (let s : State := vd0 { st := .ready, background := some .sanitize }
     let v : Nat := 0
     (s.MailboxOpen v)
       ∧ ((s.vd v).background = some .sanitize ∨ (s.vd v).background = some .erase)
       ∧ (∀ e ∈ s.slu.pt, e.1 / 2 ^ 26 ≠ v)
       ∧ (∀ w ∈ s.slu.walks, w.vd ≠ v)
       ∧ (∀ m ∈ s.slu.moves, m.vd ≠ v)
       ∧ (s.slu.places = [])) :=
  ⟨by exact ⟨by simp only [State.WindowOpen, State.MailboxOpen, State.FmOpen, State.MgmtOpen]; decide +kernel, by decide +kernel⟩,
   by and_intros <;> first | with_reducible rfl | decide +kernel,
   by exact ⟨by simp only [State.WindowOpen, State.MailboxOpen, State.FmOpen, State.MgmtOpen]; decide +kernel, by decide +kernel⟩,
   by exact ⟨by simp only [State.WindowOpen, State.MailboxOpen, State.FmOpen, State.MgmtOpen]; decide +kernel, by decide +kernel, by decide +kernel⟩,
   by and_intros <;> first | with_reducible rfl | decide +kernel,
   by and_intros <;> decide +kernel⟩

/-- States and operands that meet the hypotheses of Obligations.VdResetFollowsItsSteps, clause by clause. -/
theorem meets_VdResetFollowsItsSteps :
    (let s : State := vd0 { st := .resetting, resetStep := 2 }
     let v : Nat := 0
     (s.resetAt v 2 = true)
       ∧ (Tab.wf s.dax.cmds = true))
    ∧ (let s : State := vd0 { st := .resetting, resetStep := 3 }
     let v : Nat := 0
     (s.resetAt v 3 = true))
    ∧ (let s : State := vd0 { st := .resetting, resetStep := 4 }
     let v : Nat := 0
     (s.resetAt v 4 = true)
       ∧ ((s.vd v).memClr = false))
    ∧ (let s : State := vd0 { st := .resetting, resetStep := 5 }
     let v : Nat := 0
     (s.resetAt v 5 = true)
       ∧ (s.boot.warm = 0)
       ∧ ((s.port (v / 16)).held = [])
       ∧ ((s.mgmt.resets.all fun r => decide (r.2 ≠ v)) = true)) :=
  ⟨by and_intros <;> decide +kernel,
   by decide +kernel,
   by and_intros <;> decide +kernel,
   by and_intros <;> decide +kernel⟩

/-- States and operands that meet the hypotheses of Obligations.ErrorRingRegistersFollowTheirRules, clause by clause. -/
theorem meets_ErrorRingRegistersFollowTheirRules :
    (let s : State := live
     let v : Nat := 0
     let w : Word := 12
     (s.WindowOpen v)
       ∧ ((s.vd v).errRing.enable = false)
       ∧ (6 ≤ w.toNat % 16)
       ∧ (w.toNat % 16 ≤ 12))
    ∧ (let s : State := vd0 { st := .ready, errRing := { enable := true, sizeLog2 := 6 } }
     let v : Nat := 0
     let w : Word := 12
     (s.WindowOpen v)
       ∧ ((s.vd v).errRing.enable = true)
       ∧ (6 ≤ w.toNat % 16)
       ∧ (w.toNat % 16 ≤ 12)
       ∧ (w.toNat % 16 ≠ (s.vd v).errRing.sizeLog2))
    ∧ (let s : State := vd0 { st := .ready, errRing := { enable := true, sizeLog2 := 6 } }
     let v : Nat := 0
     let w : Word := 63
     (s.WindowOpen v)
       ∧ (w.toNat % 65536 < (s.vd v).errRing.size))
    ∧ (let s : State := vd0 { st := .ready, errRing := { enable := true, sizeLog2 := 6 } }
     let v : Nat := 0
     let w : Word := 64
     (s.WindowOpen v)
       ∧ ((s.vd v).errRing.size ≤ w.toNat % 65536)
       ∧ (w.toNat % 65536 ≠ 0))
    ∧ (let s : State := vd0 { st := .ready, errRing := { enable := true, sizeLog2 := 6, tail := 1, msixBusy := true, msixHeld := true } }
     let v : Nat := 0
     ((s.vd v).errRing.msixBusy = true)
       ∧ ((s.vd v).errRing.msixHeld = true)
       ∧ ((s.vd v).errRing.tail ≠ (s.vd v).errRing.head))
    ∧ (let s : State := vd0 { st := .ready, errRing := { msixBusy := true } }
     let v : Nat := 0
     ((s.vd v).errRing.msixBusy = true)
       ∧ ((s.vd v).errRing.msixHeld = false ∨ (s.vd v).errRing.tail = (s.vd v).errRing.head)) :=
  ⟨by and_intros <;> first | decide +kernel | (simp only [State.WindowOpen, State.MailboxOpen, State.FmOpen, State.MgmtOpen]; decide +kernel),
   by and_intros <;> first | with_reducible rfl | decide +kernel,
   by exact ⟨by simp only [State.WindowOpen, State.MailboxOpen, State.FmOpen, State.MgmtOpen]; decide +kernel, by decide +kernel⟩,
   by exact ⟨by simp only [State.WindowOpen, State.MailboxOpen, State.FmOpen, State.MgmtOpen]; decide +kernel, by decide +kernel, by decide +kernel⟩,
   by and_intros <;> decide +kernel,
   by and_intros <;> decide +kernel⟩

/-- States and operands that meet the hypotheses of Obligations.RingRegistersAndDoorbellsFollowTheirRules, clause by clause. -/
theorem meets_RingRegistersAndDoorbellsFollowTheirRules :
    (let s : State := vd0 { st := .ready, rings := [(15, { enable := true, sizeLog2 := 4, cqTail := 3 })] }
     let v : Nat := 0
     let i : Nat := 15
     let w : Word := 16
     (s.WindowOpen v)
       ∧ (i < 16)
       ∧ ((s.ring v i).enable = true)
       ∧ (w.toNat < 65536)
       ∧ ((w.setWidth 16 - (s.ring v i).head).toNat ≤ (s.ring v i).size))
    ∧ (let s : State := vd0 { st := .ready, rings := [(15, { enable := true, sizeLog2 := 4, cqTail := 3 })] }
     let v : Nat := 0
     let i : Nat := 15
     let w : Word := 17
     (s.WindowOpen v)
       ∧ (i < 16)
       ∧ ((s.ring v i).enable = false ∨ 65536 ≤ w.toNat ∨ (s.ring v i).size < (w.setWidth 16 - (s.ring v i).head).toNat))
    ∧ (let s : State := vd0 { st := .ready, rings := [(15, { enable := true, sizeLog2 := 4, cqTail := 3 })] }
     let v : Nat := 0
     let i : Nat := 15
     let w : Word := 0
     (s.WindowOpen v)
       ∧ (i < 16)
       ∧ ((s.ring v i).enable = true)
       ∧ (w.toNat < 65536)
       ∧ (((s.ring v i).cqTail - w.setWidth 16).toNat ≤ (s.ring v i).size))
    ∧ (let s : State := vd0 { st := .ready, rings := [(15, { enable := true, sizeLog2 := 4, cqTail := 3 })] }
     let v : Nat := 0
     let i : Nat := 15
     let w : Word := 65536
     (s.WindowOpen v)
       ∧ (i < 16)
       ∧ ((s.ring v i).enable = false ∨ 65536 ≤ w.toNat ∨ (s.ring v i).size < ((s.ring v i).cqTail - w.setWidth 16).toNat))
    ∧ (let s : State := live
     let v : Nat := 0
     let i : Nat := 15
     let w : Word := 16 + 12
     (s.WindowOpen v)
       ∧ (i < 16)
       ∧ ((s.ring v i).idle = true)
       ∧ (4 ≤ w.toNat % 16)
       ∧ (w.toNat % 16 ≤ 12)
       ∧ (bit w.toNat 4 = true))
    ∧ (let s : State := vd0 { st := .ready, rings := [(15, { enable := true, sizeLog2 := 4 })] }
     let v : Nat := 0
     let i : Nat := 15
     let w : Word := 5
     (s.WindowOpen v)
       ∧ (i < 16)
       ∧ ((s.ring v i).enable = true)
       ∧ (4 ≤ w.toNat % 16)
       ∧ (w.toNat % 16 ≤ 12)
       ∧ (w.toNat % 16 ≠ (s.ring v i).sizeLog2))
    ∧ (let s : State := vd0 { st := .ready, rings := [(15, { enable := true, sizeLog2 := 4 })] }
     let v : Nat := 0
     let i : Nat := 15
     let reg : Nat := 3
     (s.WindowOpen v)
       ∧ (i < 16)
       ∧ (reg < 4)
       ∧ ((s.ring v i).enable = true))
    ∧ (let s : State := vd0 { rings := [(15, { enable := true, sizeLog2 := 4, cqTail := 3, msixHeld := true })] }
     let v : Nat := 0
     let i : Nat := 15
     ((s.ring v i).msixHeld = true)
       ∧ ((s.ring v i).cqHead ≠ (s.ring v i).cqTail))
    ∧ (let s : State := live
     let v : Nat := 0
     let i : Nat := 15
     ((s.ring v i).msixHeld = false ∨ (s.ring v i).cqHead = (s.ring v i).cqTail)) :=
  ⟨by and_intros <;> first | decide +kernel | (simp only [State.WindowOpen, State.MailboxOpen, State.FmOpen, State.MgmtOpen]; decide +kernel),
   by exact ⟨by simp only [State.WindowOpen, State.MailboxOpen, State.FmOpen, State.MgmtOpen]; decide +kernel, by decide +kernel, by decide +kernel⟩,
   by and_intros <;> first | decide +kernel | (simp only [State.WindowOpen, State.MailboxOpen, State.FmOpen, State.MgmtOpen]; decide +kernel),
   by exact ⟨by simp only [State.WindowOpen, State.MailboxOpen, State.FmOpen, State.MgmtOpen]; decide +kernel, by decide +kernel, by decide +kernel⟩,
   by and_intros <;> first | decide +kernel | (simp only [State.WindowOpen, State.MailboxOpen, State.FmOpen, State.MgmtOpen]; decide +kernel),
   by and_intros <;> first | decide +kernel | (simp only [State.WindowOpen, State.MailboxOpen, State.FmOpen, State.MgmtOpen]; decide +kernel),
   by and_intros <;> first | decide +kernel | (simp only [State.WindowOpen, State.MailboxOpen, State.FmOpen, State.MgmtOpen]; decide +kernel),
   by and_intros <;> decide +kernel,
   by decide +kernel⟩

/-- States and operands that meet the hypotheses of Obligations.DescriptorsAreReadAndFaultsStopTheRing, clause by clause. -/
theorem meets_DescriptorsAreReadAndFaultsStopTheRing :
    (let s : State := { vd0 { st := .ready, extents := [(0, 2 ^ 21)], rings := [(0, { enable := true, sizeLog2 := 4, tail := 1 })] } with slu := { pt := [(0, { kind := .page })] } }
     let v : Nat := 0
     let i : Nat := 0
     let x : Ext := {}
     let bs : List Byte := (s.vdRead v 0 64 x).1.bytes
     let s1 : State := (s.fresh.vdRead v ((s.ring v i).base.toNat + 64 * ((s.ring v i).head.toNat % (s.ring v i).size)) 64 x).2
     (s.mayRead v = true)
       ∧ (s.nextRing v = some i)
       ∧ (s.slotNow v = true)
       ∧ (s1.stall = [])
       ∧ (s.fresh.vdRead v ((s.ring v i).base.toNat + 64 * ((s.ring v i).head.toNat % (s.ring v i).size)) 64 x = ({ bytes := bs }, s1)))
    ∧ (let s : State := { live with vds := [(0, { st := .ready, useTask := 8, rings := [(0, { enable := true, sizeLog2 := 4, tail := 1 })] }), (1, { st := .ready, rings := [(0, { enable := true, sizeLog2 := 4, tail := 1 })] })], queues := [(8, { waiting := [{ vd := 1, item := 0 }] })], pol := { polT with quotaTask := [(0, 4096), (1, 8)] } }
     let v : Nat := 0
     let i : Nat := 0
     (s.mayRead v = true)
       ∧ (s.nextRing v = some i)
       ∧ (s.slotNow v = false)
       ∧ (((s.queue .tasks).waiting.any fun w => decide (w.vd = v) && decide (w.item = i)) = false))
    ∧ (let s : State := { vd0 { st := .ready, extents := [(0, 2 ^ 21)], rings := [(0, { enable := true, sizeLog2 := 4, tail := 1, captured := 1 })] } with slu := { pt := [(0, { kind := .page })] } }
     let v : Nat := 0
     let i : Nat := 0
     let x : Ext := {}
     let s1 : State := (s.fresh.vdRead v 0 64 x).2
     let bs : List Byte := (s.fresh.vdRead v 0 64 x).1.bytes
     let t : State := (let s2 := (s1.modRing v i fun r => { r with head := r.head + 1, captured := r.captured - 1 }).streamFailed v (dfield (BitVec.ofNat 512 (leNat bs)) 2 2) s1.dax.seq; { s2 with dax := { s2.dax with seq := s2.dax.seq + 1 } }.putRecord v i (bit (dfield (BitVec.ofNat 512 (leNat bs)) 1 1) 0) (dfield (BitVec.ofNat 512 (leNat bs)) 4 4) (dfield (BitVec.ofNat 512 (leNat bs)) 0 1) (dfield (BitVec.ofNat 512 (leNat bs)) 2 2) { term := .cancelled, status := .cancelled } x)
     (0 < (s.ring v i).captured)
       ∧ ((s.ring v i).cqFree = true)
       ∧ ((s.vd v).st = .ready)
       ∧ (s.boot.warm = 0)
       ∧ (s.fresh.vdRead v ((s.ring v i).base.toNat + 64 * ((s.ring v i).head.toNat % (s.ring v i).size)) 64 x = ({ bytes := bs }, s1))
       ∧ (bit (dfield (BitVec.ofNat 512 (leNat bs)) 1 1) 3 = false)
       ∧ (t = (let s2 := (s1.modRing v i fun r => { r with head := r.head + 1, captured := r.captured - 1 }).streamFailed v (dfield (BitVec.ofNat 512 (leNat bs)) 2 2) s1.dax.seq; { s2 with dax := { s2.dax with seq := s2.dax.seq + 1 } }.putRecord v i (bit (dfield (BitVec.ofNat 512 (leNat bs)) 1 1) 0) (dfield (BitVec.ofNat 512 (leNat bs)) 4 4) (dfield (BitVec.ofNat 512 (leNat bs)) 0 1) (dfield (BitVec.ofNat 512 (leNat bs)) 2 2) { term := .cancelled, status := .cancelled } x))
       ∧ (t.stall = []))
    ∧ (let s : State := vd0 { st := .ready, rings := [(0, { enable := true, sizeLog2 := 4, reserved := 1 })] }
     let v : Nat := 0
     let i : Nat := 0
     (0 < (s.ring v i).reserved)
       ∧ ((s.vd v).errRing.enable = false)
       ∧ (Tab.wf s.vds = true)
       ∧ (Tab.wf (s.vd v).rings = true)) :=
  ⟨by and_intros <;> decide +kernel,
   by and_intros <;> decide +kernel,
   by and_intros <;> first | with_reducible rfl | decide +kernel,
   by and_intros <;> decide +kernel⟩

/-- States and operands that meet the hypotheses of Obligations.CommandsAreDecodedMadeReadyAndSplit, clause by clause. -/
theorem meets_CommandsAreDecodedMadeReadyAndSplit :
    (let q : Nat := 0
     let c : Cmd := cm 1 []
     let s : State := withC c
     (s.cmd? q = some c)
       ∧ (c.queued = true)
       ∧ (c.decoded = false)
       ∧ (s.startOk q c = true)
       ∧ (c.opcode ≠ 0x48)
       ∧ (s.decodeStatus c = none)
       ∧ (c.waitPen = 0xFFFF ∨ c.waitVal = 0))
    ∧ (let q : Nat := 0
     let c : Cmd := cm 1 [(0xE, 1)]
     let s : State := withC c
     let st : Status := .invalidField
     (s.cmd? q = some c)
       ∧ (c.queued = true)
       ∧ (c.decoded = false)
       ∧ (s.startOk q c = true)
       ∧ (c.opcode ≠ 0x48)
       ∧ (s.decodeStatus c = some st))
    ∧ (let q : Nat := 0
     let c : Cmd := cm 0x48 []
     let s : State := { withC c with img := { imgT with services := [(0, { op := 1 })] } }
     let d : BitVec 512 := D [(0, 1), (8, 0xFFFF), (0xA, 0xFFFF)]
     (s.cmd? q = some c)
       ∧ (c.queued = true)
       ∧ (c.decoded = false)
       ∧ (s.startOk q c = true)
       ∧ (c.opcode = 0x48)
       ∧ (s.headerOk c = true)
       ∧ (opxOk 0x48 c.opx = true)
       ∧ (s.expand c = some d)
       ∧ (s.decodeStatus { c with desc := d, svc := true } = none)
       ∧ (dfield d 8 2 = 0xFFFF ∨ dfield d 0x10 6 = 0))
    ∧ (let q : Nat := 0
     let c : Cmd := { cm 1 [] with decoded := true, wait := .met }
     let s : State := withC c
     (s.cmd? q = some c)
       ∧ (c.queued = true)
       ∧ (c.decoded = true)
       ∧ (s.current c = true)
       ∧ (s.predFailed q c = false)
       ∧ (s.readyNow q c = true)
       ∧ (engineOp c.opcode = true)
       ∧ (hopperOp c.opcode = false))
    ∧ (let q : Nat := 0
     let c : Cmd := rd 1 []
     let s : State := withC c
     (s.engineCmd q 1 = some c))
    ∧ (let q : Nat := 0
     let c : Cmd := rd 2 []
     let s : State := withC c
     (s.engineCmd q 2 = some c))
    ∧ (let q : Nat := 0
     let n : Nat := 0
     let c : Cmd := { rd 0x11 [] with uncreated := [(0, [0]), (1, [1])], tasks := [{ tk with slice := 5 }] }
     let s : State := withC c
     let us : List Nat := [0]
     let rest : List (Nat × List Nat) := [(1, [1])]
     let t : State := s.setCmd q { c with tasks := c.tasks ++ [{ slice := s.liveSlice n, units := us, readySeq := s.dax.readySeq, readyAt := s.now }], uncreated := rest }
     (s.cmd? q = some c)
       ∧ (s.current c = true)
       ∧ (c.uncreated = (n, us) :: rest)
       ∧ (rest ≠ [])
       ∧ ((c.tasks.any fun t => decide (t.slice = s.liveSlice n) && t.fin.isNone) = false)
       ∧ (c.ownSlot = false)
       ∧ (s.createFirst q c = true)
       ∧ (s.useTask c.vd < s.quotaTask c.vd)
       ∧ (s.slotNow c.vd = true)
       ∧ (t = s.setCmd q { c with tasks := c.tasks ++ [{ slice := s.liveSlice n, units := us, readySeq := s.dax.readySeq, readyAt := s.now }], uncreated := rest }))
    ∧ (let q : Nat := 0
     let n : Nat := 0
     let t0 : Task := { slice := 0, st := .staged }
     let c : Cmd := { rd 0x11 [] with tasks := [t0] }
     let s : State := withC c
     (s.sliceUp n = true)
       ∧ (s.tasksAt n .running = [])
       ∧ (s.tasksAt n .staged = [(q, t0)])
       ∧ (s.cmd? q = some c)
       ∧ (c.handles = [])
       ∧ (planOp c.opcode = false)
       ∧ (Tab.wf s.slices = true))
    ∧ (let q : Nat := 0
     let c : Cmd := { rd 1 [] with engineFin := some {} }
     let s : State := withC c
     let f : Fin := {}
     let x : Ext := {}
     let t : State := s.fresh.cmdEnd q c x
     (s.cmd? q = some c)
       ∧ (c.engineFin = some f)
       ∧ (c.tasks = [])
       ∧ (c.uncreated = [])
       ∧ (s.boot.warm ≤ 2)
       ∧ (s.released q = true)
       ∧ (t = s.fresh.cmdEnd q c x)
       ∧ (t.stall = []))
    ∧ (let q : Nat := 0
     let c : Cmd := { rd 1 [] with engineFin := some {} }
     let s : State := { live with boot := { live.boot with warm := 3 } }
     let f : Fin := {}
     (3 ≤ s.boot.warm))
    ∧ (let q : Nat := 0
     let c : Cmd := { rd 1 [(1, 2)] with engineFin := some {}, wait := .none }
     let s : State := withC c
     let f : Fin := {}
     (s.cmd? q = some c)
       ∧ (c.engineFin = some f)
       ∧ (f.status = .ok)
       ∧ (f.term = .done)
       ∧ (c.tasks = [])
       ∧ (c.uncreated = [])
       ∧ (c.quiet = true)
       ∧ (c.signalPen = 0xFFFF)
       ∧ (c.epoch = (s.vd c.vd).epoch)
       ∧ (c.wait = .none)
       ∧ (c.opcode = 1)
       ∧ (Tab.wf s.dax.cmds = true)
       ∧ (s.boot.warm ≤ 2)
       ∧ (s.released q = true)) :=
  ⟨by and_intros <;> decide +kernel,
   by and_intros <;> decide +kernel,
   by and_intros <;> decide +kernel,
   by and_intros <;> first | with_reducible rfl | decide +kernel,
   by decide +kernel,
   by decide +kernel,
   by and_intros <;> first | with_reducible rfl | decide +kernel,
   by and_intros <;> decide +kernel,
   by and_intros <;> first | with_reducible rfl | decide +kernel,
   by with_reducible rfl,
   by and_intros <;> first | with_reducible rfl | decide +kernel⟩

/-- States and operands that meet the hypotheses of Obligations.CancelEndsTheCommandsItNames, clause by clause. -/
theorem meets_CancelEndsTheCommandsItNames :
    (let s : State := live
     let v : Nat := 0
     let w : DWord := 0x0001000000000000
     (s.WindowOpen v)
       ∧ (w.toNat / 2 ^ 43 % 32 = 0)
       ∧ (w.toNat / 2 ^ 50 % 4 = 0)
       ∧ (w.toNat / 2 ^ 56 = 0)
       ∧ (w.toNat / 2 ^ 48 % 4 = 1))
    ∧ (let s : State := live
     let v : Nat := 0
     let w : DWord := 0x0002000000000000
     (s.WindowOpen v)
       ∧ (w.toNat / 2 ^ 43 % 32 = 0)
       ∧ (w.toNat / 2 ^ 50 % 4 = 0)
       ∧ (w.toNat / 2 ^ 56 = 0)
       ∧ (w.toNat / 2 ^ 48 % 4 = 2))
    ∧ (let s : State := live
     let v : Nat := 0
     let w : DWord := 0x0003000000000000
     (s.WindowOpen v)
       ∧ (w.toNat / 2 ^ 43 % 32 = 0)
       ∧ (w.toNat / 2 ^ 50 % 4 = 0)
       ∧ (w.toNat / 2 ^ 56 = 0)
       ∧ (w.toNat / 2 ^ 48 % 4 = 3)
       ∧ (s.dax.cmds = []))
    ∧ (let s : State := live
     let v : Nat := 0
     let w : DWord := 0
     (s.WindowOpen v)
       ∧ (w.toNat / 2 ^ 43 % 32 = 0)
       ∧ (w.toNat / 2 ^ 50 % 4 = 0)
       ∧ (w.toNat / 2 ^ 56 = 0)
       ∧ (w.toNat / 2 ^ 48 % 4 = 0)
       ∧ (s.dax.cmds = []))
    ∧ (let v : Nat := 0
     let q : Nat := 0
     let c : Cmd := cm 1 []
     let s : State := withC c
     let w : DWord := 0
     (s.WindowOpen v)
       ∧ (w.toNat / 2 ^ 43 % 32 = 0)
       ∧ (w.toNat / 2 ^ 48 % 16 = 0)
       ∧ (w.toNat / 2 ^ 56 = 0)
       ∧ (s.dax.cmds = [(q, c)])
       ∧ (c.vd = v)
       ∧ (c.epoch = (s.vd v).epoch)
       ∧ (c.stream = w.toNat / 2 ^ 32 % 2 ^ 11)
       ∧ (c.tag = w.toNat % 2 ^ 32)
       ∧ (c.st = .queued)
       ∧ (c.engineFin = none)
       ∧ (c.wait = .none)
       ∧ (s.pen.regs = []))
    ∧ (let v : Nat := 0
     let w : DWord := 0x0100000000000000
     let c : Cmd := cm 1 []
     let s : State := withC c
     (s.WindowOpen v)
       ∧ (w.toNat / 2 ^ 48 % 4 = 0)
       ∧ (w.toNat / 2 ^ 56 ≠ 0)) :=
  ⟨by and_intros <;> first | decide +kernel | (simp only [State.WindowOpen, State.MailboxOpen, State.FmOpen, State.MgmtOpen]; decide +kernel),
   by and_intros <;> first | decide +kernel | (simp only [State.WindowOpen, State.MailboxOpen, State.FmOpen, State.MgmtOpen]; decide +kernel),
   by and_intros <;> first | decide +kernel | (simp only [State.WindowOpen, State.MailboxOpen, State.FmOpen, State.MgmtOpen]; decide +kernel),
   by and_intros <;> first | decide +kernel | (simp only [State.WindowOpen, State.MailboxOpen, State.FmOpen, State.MgmtOpen]; decide +kernel),
   by and_intros <;> first | decide +kernel | (simp only [State.WindowOpen, State.MailboxOpen, State.FmOpen, State.MgmtOpen]; decide +kernel),
   by exact ⟨by simp only [State.WindowOpen, State.MailboxOpen, State.FmOpen, State.MgmtOpen]; decide +kernel, by decide +kernel, by decide +kernel⟩⟩

/-- States and operands that meet the hypotheses of Obligations.LocalRequestsOnAHeldLineAreServedAtOnce, clause by clause. -/
theorem meets_LocalRequestsOnAHeldLineAreServedAtOnce :
    (let s : State := homeS
     let n : Nat := 0
     let k : Nat := 0
     let f : Frame := homeF
     let r : Req := { op := .red, line := 0, fmt := 3 }
     (s.HomeIdle n r.line k f)
       ∧ (r.l1 = none)
       ∧ (r.who = none)
       ∧ (r.fmt < 4))
    ∧ (let s : State := homeS
     let n : Nat := 0
     let k : Nat := 0
     let f : Frame := homeF
     let r : Req := { op := .atomic, line := 0 }
     (s.HomeIdle n r.line k f)
       ∧ (r.l1 = none)
       ∧ (r.who = none)
       ∧ (atomicOk r.atop r.width r.off = true)
       ∧ (bit f.p.toNat (r.off / 32) = false))
    ∧ (let r : Req := { op := .red, line := 0, fmt := 4 }
     (4 ≤ r.fmt))
    ∧ (let r : Req := { op := .atomic, line := 0, atop := 15 }
     (atomicOk r.atop r.width r.off = false))
    ∧ (let s : State := live
     let die : Nat := 0
     (s.leatOn die = true))
    ∧ (let s : State := live
     let die : Nat := 1
     (s.leatOn die = false)) :=
  ⟨by and_intros <;> first | with_reducible rfl | decide +kernel,
   by and_intros <;> first | with_reducible rfl | decide +kernel,
   by with_reducible rfl,
   by decide +kernel,
   by decide +kernel,
   by decide +kernel⟩

/-- States and operands that meet the hypotheses of Obligations.PeerRequestsFollowTheHomeColumn, clause by clause. -/
theorem meets_PeerRequestsFollowTheHomeColumn :
    (let s : State := { poolS l0 with slices := homeS.slices }
     let m : CohMsg := { op := .atom, dev := 1, line := 0, fmt := 4 }
     (s.atHome m = true)
       ∧ (s.poolNumber m.dev = true)
       ∧ (s.boot.warm < 2)
       ∧ (4 ≤ m.fmt))
    ∧ (let s : State := { poolS l0 with slices := homeS.slices }
     let m : CohMsg := { op := .atom, dev := 1, line := 0, atop := 15 }
     (s.atHome m = true)
       ∧ (s.poolNumber m.dev = true)
       ∧ (s.boot.warm < 2)
       ∧ (atomicOk m.atop m.width m.off = false))
    ∧ (let s : State := homeS
     let n : Nat := 0
     let k : Nat := 0
     let f : Frame := homeF
     let m : CohMsg := { op := .wrNc, dev := 1, line := 0 }
     (s.HomeIdle n m.line k f)
       ∧ (m.dev ≠ s.pool.devnum)
       ∧ (s.poolNumber m.dev = true)
       ∧ (s.boot.warm < 2)
       ∧ (s.canTake (.missRegs n) (s.slice n).useMiss peerVd = true)
       ∧ (s.pool.departed.contains m.dev = false)
       ∧ (partialSectors m.bytes &&& f.p = 0))
    ∧ (let s : State := homeS
     let n : Nat := 0
     let k : Nat := 0
     let f : Frame := homeF
     let m : CohMsg := { op := .red, dev := 1, line := 0 }
     (s.HomeIdle n m.line k f)
       ∧ (m.dev ≠ s.pool.devnum)
       ∧ (s.poolNumber m.dev = true)
       ∧ (s.boot.warm < 2)
       ∧ (s.canTake (.missRegs n) (s.slice n).useMiss peerVd = true)
       ∧ (s.pool.departed.contains m.dev = false)
       ∧ (m.fmt < 4))
    ∧ (let s : State := homeS
     let n : Nat := 0
     let k : Nat := 0
     let f : Frame := homeF
     let m : CohMsg := { op := .atom, dev := 1, line := 0, atop := 0, width := 32 }
     (s.HomeIdle n m.line k f)
       ∧ (m.dev ≠ s.pool.devnum)
       ∧ (s.poolNumber m.dev = true)
       ∧ (s.boot.warm < 2)
       ∧ (s.canTake (.missRegs n) (s.slice n).useMiss peerVd = true)
       ∧ (s.pool.departed.contains m.dev = false)
       ∧ (atomicOk m.atop m.width m.off = true)
       ∧ (bit f.p.toNat (m.off / 32) = false)) :=
  ⟨by and_intros <;> first | with_reducible rfl | decide +kernel,
   by and_intros <;> decide +kernel,
   by and_intros <;> first | with_reducible rfl | decide +kernel,
   by and_intros <;> first | with_reducible rfl | decide +kernel,
   by and_intros <;> first | with_reducible rfl | decide +kernel⟩

/-- States and operands that meet the hypotheses of Obligations.SnoopsAtTheProxyFollowTheirTable, clause by clause. -/
theorem meets_SnoopsAtTheProxyFollowTheirTable :
    (let m : CohMsg := { op := .snpInv, dev := 1, line := 2 ^ 34 }
     let k : Nat := 7
     let f : Frame := { st := .re, line := 2 ^ 34, v := 15, d := 1 }
     let s : State := { live with slices := [(1, { frames := [(7, f)] })] }
     (lineDev m.line = m.dev)
       ∧ (m.dev ≠ s.pool.devnum)
       ∧ (s.NoWaiters)
       ∧ ((s.slice (s.proxySlice m.line)).hit m.line = some (k, f))
       ∧ (f.st = .re))
    ∧ (let m : CohMsg := { op := .snpInv, dev := 1, line := 2 ^ 34 }
     let k : Nat := 7
     let f : Frame := { st := .rs, line := 2 ^ 34, v := 15 }
     let s : State := { live with slices := [(1, { frames := [(7, f)] })] }
     (lineDev m.line = m.dev)
       ∧ (m.dev ≠ s.pool.devnum)
       ∧ (s.NoWaiters)
       ∧ ((s.slice (s.proxySlice m.line)).hit m.line = some (k, f))
       ∧ (f.st = .rs))
    ∧ (let s : State := { live with pool := { lostCopies := [2 ^ 34] } }
     let m : CohMsg := { op := .snpInv, dev := 1, line := 2 ^ 34 }
     let t : State := { s with pool := { s.pool with lostCopies := s.pool.lostCopies.erase m.line } }
     (lineDev m.line = m.dev)
       ∧ (m.dev ≠ s.pool.devnum)
       ∧ (s.NoWaiters)
       ∧ ((s.slice (s.proxySlice m.line)).hit m.line = none)
       ∧ (s.pool.lostCopies.contains m.line = true)
       ∧ (t = { s with pool := { s.pool with lostCopies := s.pool.lostCopies.erase m.line } }))
    ∧ (let s : State := live
     let m : CohMsg := { op := .snpInv, dev := 1, line := 2 ^ 34 }
     let t : State := s.send (.coh { op := .rspNp, dev := m.dev, line := m.line, tag := m.tag, wbPending := match (s.slice (s.proxySlice m.line)).miss.find m.line with | some r => decide (r.phase = .wb) | none => false })
     (lineDev m.line = m.dev)
       ∧ (m.dev ≠ s.pool.devnum)
       ∧ (s.NoWaiters)
       ∧ ((s.slice (s.proxySlice m.line)).hit m.line = none)
       ∧ (s.pool.lostCopies.contains m.line = false)
       ∧ (t = s.send (.coh { op := .rspNp, dev := m.dev, line := m.line, tag := m.tag, wbPending := match (s.slice (s.proxySlice m.line)).miss.find m.line with | some r => decide (r.phase = .wb) | none => false }))) :=
  ⟨by and_intros <;> first | with_reducible rfl | decide +kernel | exact (noWaiters_of _ (by decide +kernel)).2,
   by and_intros <;> first | with_reducible rfl | decide +kernel | exact (noWaiters_of _ (by decide +kernel)).2,
   by and_intros <;> first | with_reducible rfl | decide +kernel | exact (noWaiters_of _ (by decide +kernel)).2,
   by and_intros <;> first | with_reducible rfl | decide +kernel | exact (noWaiters_of _ (by decide +kernel)).2⟩

/-- States and operands that meet the hypotheses of Obligations.SnoopAnswersAreGatheredAtTheHome, clause by clause. -/
theorem meets_SnoopAnswersAreGatheredAtTheHome :
    (let n : Nat := 0
     let r : Miss := { phase := .snoop, snpDev := [1, 2] }
     let m : CohMsg := { op := .rspNp, dev := 1, line := 0, wbPending := true }
     let f : Frame := homeF
     let s : State := missS r [(0, f)]
     (s.Snooping n m.line r)
       ∧ (r.snpDev.contains m.dev = true)
       ∧ ((r.snpDev.erase m.dev) ≠ [] ∨ r.snpHost ≠ [])
       ∧ (m.wbPending = true)
       ∧ (r.wbSeen.contains m.dev = false))
    ∧ (let n : Nat := 0
     let r : Miss := { phase := .snoop, snpDev := [1, 2] }
     let m : CohMsg := { op := .rspI, dev := 1, line := 0 }
     let f : Frame := homeF
     let s : State := missS r [(0, f)]
     (s.Snooping n m.line r)
       ∧ (r.snpDev.contains m.dev = true)
       ∧ ((r.snpDev.erase m.dev) ≠ [] ∨ r.snpHost ≠ [])
       ∧ (m.wbPending = false))
    ∧ (let n : Nat := 0
     let r : Miss := { phase := .snoop, snpDev := [1, 2] }
     let m : CohMsg := { op := .rspI, dev := 1, line := 0 }
     let k : Nat := 0
     let f : Frame := homeF
     let s : State := missS r [(0, f)]
     (s.Snooping n m.line r)
       ∧ (r.snpDev.contains m.dev = true)
       ∧ ((r.snpDev.erase m.dev) ≠ [] ∨ r.snpHost ≠ [])
       ∧ (s.promoted m.line = false)
       ∧ ((s.slice n).hit m.line = some (k, f)))
    ∧ (let n : Nat := 0
     let r : Miss := { phase := .snoop, snpDev := [1, 2] }
     let s : State := missS r
     let m : CohMsg := { op := .rspI, dev := 1, line := 0 }
     (s.Snooping n m.line r)
       ∧ (r.snpDev.contains m.dev = true)
       ∧ ((r.snpDev.erase m.dev) ≠ [] ∨ r.snpHost ≠ [])
       ∧ ((s.dirEntry (ownNum m.line)).st ≠ .exclRemote)
       ∧ (r.wbDev.contains m.dev = false))
    ∧ (let n : Nat := 0
     let port : Nat := 0
     let line : Nat := 0
     let half : Nat := 0
     let r : Miss := { phase := .snoop, snpHost := [(0, 0), (0, 1)] }
     let s : State := missS r
     let ri : Miss := { r with snpHost := r.snpHost.erase (port, half) }
     let rs : Miss := { r with snpHost := r.snpHost.erase (port, half), keepHost := r.keepHost ++ [port] }
     (s.Snooping n line r)
       ∧ (r.snpHost.contains (port, half) = true)
       ∧ (r.snpDev ≠ [] ∨ (r.snpHost.erase (port, half)) ≠ [])
       ∧ (ri = { r with snpHost := r.snpHost.erase (port, half) })
       ∧ (rs = { r with snpHost := r.snpHost.erase (port, half), keepHost := r.keepHost ++ [port] })
       ∧ (r.keepHost.contains port = false))
    ∧ (let s : State := live
     let line : Nat := 0
     (s.register? line = none))
    ∧ (let n : Nat := 0
     let port : Nat := 0
     let line : Nat := 0
     let r : Miss := { phase := .snoop, snpHost := [(0, 0)], snpDev := [1] }
     let s : State := missS r
     (s.Snooping n line r)
       ∧ ((r.snpHost.any fun h => decide (h.1 = port)) = true)
       ∧ (r.snpDev ≠ [])
       ∧ (s.lineOwner line = none)
       ∧ ((s.dirEntry (ownNum line)).st ≠ .exclHost))
    ∧ (let n : Nat := 0
     let r : Miss := { phase := .grant, gnt := [1] }
     let s : State := missS r
     let m : CohMsg := { op := .rspI, dev := 1, line := 0 }
     (s.NoWaiters)
       ∧ (s.register? m.line = some (n, r))
       ∧ (r.phase = .grant)
       ∧ (r.gnt = [m.dev])
       ∧ (r.waiters = []))
    ∧ (let s : State := { homeS with dir := [(0, { st := .exclRemote, sharers := 2 })] }
     let k : Nat := 0
     let f : Frame := homeF
     let m : CohMsg := { op := .wb, dev := 1, line := 0 }
     (s.NoWaiters)
       ∧ (s.atHome m = true)
       ∧ (s.lostHome m.line = false)
       ∧ ((s.slice (s.sliceOf m.line)).miss.find m.line = none)
       ∧ (s.promoted m.line = false)
       ∧ ((s.slice (s.sliceOf m.line)).hit m.line = some (k, f))
       ∧ ((s.dirEntry (ownNum m.line)).st = .exclRemote)
       ∧ (bit (s.dirEntry (ownNum m.line)).sharers.toNat m.dev = true))
    ∧ (let s : State := homeS
     let k : Nat := 0
     let f : Frame := homeF
     let m : CohMsg := { op := .wb, dev := 1, line := 0 }
     (s.NoWaiters)
       ∧ (s.atHome m = true)
       ∧ (s.lostHome m.line = false)
       ∧ ((s.slice (s.sliceOf m.line)).miss.find m.line = none)
       ∧ (s.promoted m.line = false)
       ∧ ((s.slice (s.sliceOf m.line)).hit m.line = some (k, f))
       ∧ ((s.dirEntry (ownNum m.line)).st ≠ .exclRemote))
    ∧ (let s : State := { live with pool := { departed := [1] } }
     let slice : Nat := 0
     let dev : Nat := 1
     (s.pool.departed.contains dev = true)
       ∧ (∀ e ∈ s.dir, bit e.2.sharers.toNat dev = false)
       ∧ (∀ e ∈ s.slices, ∀ y ∈ e.2.miss, y.2.awaits dev = false ∧ (y.2.req.any fun r => r.fromDev dev) = false)
       ∧ (s.pool.swept.contains (dev, slice) = false)) :=
  ⟨by and_intros <;> first | with_reducible rfl | decide +kernel | exact (noWaiters_of _ (by decide +kernel)).2,
   by and_intros <;> first | with_reducible rfl | decide +kernel | exact (noWaiters_of _ (by decide +kernel)).2,
   by and_intros <;> first | with_reducible rfl | decide +kernel | exact (noWaiters_of _ (by decide +kernel)).2,
   by and_intros <;> first | with_reducible rfl | decide +kernel | exact (noWaiters_of _ (by decide +kernel)).2,
   by and_intros <;> first | with_reducible rfl | decide +kernel | exact (noWaiters_of _ (by decide +kernel)).2,
   by decide +kernel,
   by and_intros <;> first | with_reducible rfl | decide +kernel | exact (noWaiters_of _ (by decide +kernel)).2,
   by and_intros <;> first | with_reducible rfl | decide +kernel | exact (noWaiters_of _ (by decide +kernel)).2,
   by and_intros <;> first | with_reducible rfl | decide +kernel | exact (noWaiters_of _ (by decide +kernel)).2,
   by and_intros <;> first | with_reducible rfl | decide +kernel | exact (noWaiters_of _ (by decide +kernel)).2,
   by and_intros <;> decide +kernel⟩

/-- States and operands that meet the hypotheses of Obligations.GrantsAndFillsAnswerTheWaitingRequest, clause by clause. -/
theorem meets_GrantsAndFillsAnswerTheWaitingRequest :
    (let n : Nat := 1
     let b : Nat := 0
     let pick : Nat := 0
     let r : Req := { op := .read, line := 2 ^ 34 }
     let g : Miss := { phase := .remote, req := some r, way := some b }
     let ro : RemoteOp := { op := .rdS, dev := 1, line := 2 ^ 34, tag := 0, who := { vd := 0 } }
     let s : State := { live with slices := [(1, { miss := [(2 ^ 34, g)] })], pool := { remote := [ro] } }
     let m : CohMsg := { op := .datS, dev := 1, line := 2 ^ 34 }
     (s.NoWaiters)
       ∧ (s.register? m.line = some (n, g))
       ∧ (g.phase = .remote)
       ∧ (g.req = some r)
       ∧ (g.waiters = [])
       ∧ (r.line = m.line)
       ∧ (r.op = .read)
       ∧ (r.src = .loc)
       ∧ (r.who = none)
       ∧ (r.l1 = none)
       ∧ (s.pool.remote = [ro])
       ∧ (s.oldReply ro = false)
       ∧ (ro.kind = .mem)
       ∧ (ro.line = m.line)
       ∧ (ro.dev = m.dev)
       ∧ (ro.op = .rdS)
       ∧ ((s.slice n).hit m.line = none)
       ∧ ((s.slice n).busyAt = [])
       ∧ (Tab.wf (s.slice n).miss = true)
       ∧ (Tab.wf (s.slice n).frames = true)
       ∧ (g.way = some b))
    ∧ (let n : Nat := 1
     let k : Nat := 0
     let f : Frame := { st := .rs, line := 2 ^ 34, v := 15 }
     let r : Req := { op := .write, line := 2 ^ 34 }
     let g : Miss := { phase := .remote, req := some r, upgSent := true }
     let ro : RemoteOp := { op := .upg, dev := 1, line := 2 ^ 34, tag := 0, who := { vd := 0 } }
     let s : State := { live with slices := [(1, { frames := [(0, f)], miss := [(2 ^ 34, g)] })], pool := { remote := [ro] } }
     let m : CohMsg := { op := .datS, dev := 1, line := 2 ^ 34 }
     (s.NoWaiters)
       ∧ (s.register? m.line = some (n, g))
       ∧ (g.phase = .remote)
       ∧ (g.req = some r)
       ∧ (g.waiters = [])
       ∧ (g.upgSent = true)
       ∧ (r.line = m.line)
       ∧ (r.op = .write)
       ∧ (r.src = .loc)
       ∧ (r.who = none)
       ∧ (r.l1 = none)
       ∧ (s.pool.remote = [ro])
       ∧ (s.oldReply ro = false)
       ∧ (ro.kind = .mem)
       ∧ (ro.line = m.line)
       ∧ (ro.dev = m.dev)
       ∧ (ro.op = .upg)
       ∧ ((s.slice n).hit m.line = some (k, f))
       ∧ (f.st = .rs)
       ∧ ((s.slice n).busyAt = [])
       ∧ (Tab.wf (s.slice n).miss = true)
       ∧ (Tab.wf (s.slice n).frames = true))
    ∧ (let ro : RemoteOp := { op := .rdNc, dev := 1, line := 2 ^ 34, tag := 0, rtag := 7, who := { vd := 0 } }
     let m : CohMsg := { op := .rdDat, dev := 1, line := 2 ^ 34, status := .ok }
     let r : Req := { op := .rdNc, line := 2 ^ 34, tag := 7 }
     let n : Nat := live.proxySlice (2 ^ 34)
     let g : Miss := { phase := .remote, req := some r }
     let s : State := { live with pool := { remote := [ro] }, slices := [(n, { miss := [(2 ^ 34, g)] })] }
     (s.pool.remote = [ro])
       ∧ (ro.kind = .mem)
       ∧ (ro.line = m.line)
       ∧ (ro.dev = m.dev)
       ∧ (ro.tag = m.tag)
       ∧ (ro.op = .rdNc)
       ∧ (ro.src = .loc)
       ∧ (s.oldReply ro = false)
       ∧ (s.NoWaiters)
       ∧ (s.register? m.line = some (n, g))
       ∧ (g.phase = .remote)
       ∧ (g.waiters = [])
       ∧ (g.req = some r)
       ∧ (r.tag = ro.rtag)
       ∧ (r.src = .loc)
       ∧ ((s.slice n).busyAt = [])
       ∧ ((s.slice n).hit m.line = none)
       ∧ (Tab.wf (s.slice n).miss = true))
    ∧ (let ro : RemoteOp := { op := .red, dev := 1, line := 2 ^ 34, tag := 0, who := { vd := 0 } }
     let s : State := { live with pool := { remote := [ro] } }
     let m : CohMsg := { op := .cmp, dev := 1, line := 2 ^ 34, status := .ok }
     (s.pool.remote = [ro])
       ∧ (ro.kind = .mem)
       ∧ (ro.line = m.line)
       ∧ (ro.dev = m.dev)
       ∧ (ro.tag = m.tag)
       ∧ (ro.op = .wrNc ∨ ro.op = .red)
       ∧ (m.coll = false)
       ∧ (m.status = .ok)
       ∧ (ro.who.errRec = false))
    ∧ (let ro : RemoteOp := { op := .red, dev := 1, line := 2 ^ 34, tag := 0, who := { vd := 0 } }
     let s : State := { live with pool := { remote := [ro] } }
     let m : CohMsg := { op := .cmp, dev := 1, line := 2 ^ 34, status := .badAddress }
     (s.pool.remote = [ro])
       ∧ (ro.kind = .mem)
       ∧ (ro.line = m.line)
       ∧ (ro.dev = m.dev)
       ∧ (ro.tag = m.tag)
       ∧ (ro.op = .wrNc ∨ ro.op = .red)
       ∧ (m.coll = false)
       ∧ (m.status ≠ .ok)
       ∧ (ro.who.errRec = false)
       ∧ ((s.vd ro.who.vd).errRing.enable = false))
    ∧ (let n : Nat := 1
     let r : Miss := { phase := .wb }
     let s : State := { live with slices := [(1, { miss := [(2 ^ 34, r)] })] }
     let m : CohMsg := { op := .wbAck, dev := 1, line := 2 ^ 34 }
     (s.NoWaiters)
       ∧ (s.register? m.line = some (n, r))
       ∧ (r.phase = .wb)
       ∧ (r.waiters = []))
    ∧ (let n : Nat := 0
     let k : Nat := 0
     let f : Frame := { st := .h, v := 3 }
     let r : Req := { op := .read, line := 0 }
     let g : Miss := { phase := .fill, req := some r, fill := 12 }
     let s : State := missS g [(0, f)]
     (s.NoWaiters)
       ∧ (s.register? r.line = some (n, g))
       ∧ (g.phase = .fill)
       ∧ (g.bulk = false)
       ∧ (g.req = some r)
       ∧ (g.waiters = [])
       ∧ (g.keepDev = [])
       ∧ (g.keepHost = [])
       ∧ (r.op = .read)
       ∧ (r.src = .loc)
       ∧ (r.who = none)
       ∧ (r.l1 = none)
       ∧ (s.promoted r.line = false)
       ∧ ((s.slice n).hit r.line = some (k, f))
       ∧ (f.st = .h)
       ∧ (f.v ||| g.fill = 15)
       ∧ ((s.slice n).busyAt = [])
       ∧ (s.dirEntry (ownNum r.line) = {}))
    ∧ (let n : Nat := 0
     let r : Req := { op := .atomic, line := 0 }
     let g : Miss := { phase := .controller, req := some r }
     let s : State := missS g
     (s.NoWaiters)
       ∧ (s.register? r.line = some (n, g))
       ∧ (g.phase = .controller)
       ∧ (g.req = some r)
       ∧ (g.waiters = [])
       ∧ (r.op = .atomic)
       ∧ (r.src = .loc)
       ∧ (r.who = none)
       ∧ ((poisonAt s.memPoison (lineOff r.line)) = 0)) :=
  ⟨by and_intros <;> first | with_reducible rfl | decide +kernel | exact (noWaiters_of _ (by decide +kernel)).2,
   by and_intros <;> first | with_reducible rfl | decide +kernel | exact (noWaiters_of _ (by decide +kernel)).2,
   by and_intros <;> first | with_reducible rfl | decide +kernel | exact (noWaiters_of _ (by decide +kernel)).2,
   by and_intros <;> first | with_reducible rfl | decide +kernel,
   by and_intros <;> first | with_reducible rfl | decide +kernel,
   by and_intros <;> first | with_reducible rfl | decide +kernel | exact (noWaiters_of _ (by decide +kernel)).2,
   by and_intros <;> first | with_reducible rfl | decide +kernel | exact (noWaiters_of _ (by decide +kernel)).2,
   by and_intros <;> first | with_reducible rfl | decide +kernel | exact (noWaiters_of _ (by decide +kernel)).2⟩

/-- States and operands that meet the hypotheses of Obligations.HostRequestsAreAcceptedTranslatedAndServed, clause by clause. -/
theorem meets_HostRequestsAreAcceptedTranslatedAndServed :
    (let s : State := live
     let r : CxlReq := { port := 0, vd := 0, tag := 5, dpa := 65536, op := .memRd }
     let r1 : CxlReq := { port := 0, vd := 0, tag := 5, dpa := 65536, op := .memRd }
     let ld : Nat := 0
     let hit : Bool := false
     let s1 : State := (({ s with slu := { s.slu with order := s.slu.order + 1 } } : State).modPort r.port fun x => { x with outst := x.outst ++ [{ tag := r.tag, vd := r1.vd, time := s.now, write := r1.op.changes, era := r1.era }], power := 0 })
     (r.port < 4)
       ∧ ((s.port r.port).link = 2)
       ∧ ((s.port r.port).cxlOk = true)
       ∧ (s.img.applied = true)
       ∧ (s.exposed r.port ld = true)
       ∧ (s.boot.neverActive = false)
       ∧ (s.boot.memActive = true)
       ∧ (s.boot.warm = 0)
       ∧ ((s.vd (16 * r.port + ld)).memClr = false)
       ∧ ((s.img.ports.getD r.port {}).ideMemRequired = false)
       ∧ ((s.port r.port).ideSwitch = false)
       ∧ (ld < 16)
       ∧ (s.mayEnter (.cxlMem r.port) (s.useCxl r.port) (((s.port r.port).held.filter fun q => !s.hostHeld q).map CxlReq.vd) (16 * r.port + ld) = true)
       ∧ (r1.era = (s.port r.port).era)
       ∧ (r1.no = s.slu.order)
       ∧ (r1.port = r.port)
       ∧ (r1.vd = 16 * r.port + ld)
       ∧ (r1.tag = r.tag)
       ∧ (r1.dpa = r.dpa)
       ∧ (r1.mv = r.mv)
       ∧ (r1.data = r.data)
       ∧ (r1.pois = r.pois)
       ∧ ((s.port r.port).credits (decide (r1.op = .memWr)) ≠ 0)
       ∧ (s1 = (({ s with slu := { s.slu with order := s.slu.order + 1 } } : State).modPort r.port fun x => { x with outst := x.outst ++ [{ tag := r.tag, vd := r1.vd, time := s.now, write := r1.op.changes, era := r1.era }], power := 0 }))
       ∧ (hit = false ∨ s.walkOf r1.vd (r.dpa / 65536) ≠ none ∨ s.entry r1.vd (r.dpa / 65536) = none)
       ∧ (r1.op = .memRd))
    ∧ (let s : State := live
     let r : CxlReq := { port := 0, vd := 0, tag := 5, dpa := 65536, op := .memRd }
     let r1 : CxlReq := { port := 0, vd := 0, tag := 5, dpa := 65536, op := .memWr }
     let ld : Nat := 0
     let hit : Bool := false
     let s1 : State := (({ s with slu := { s.slu with order := s.slu.order + 1 } } : State).modPort r.port fun x => { x with outst := x.outst ++ [{ tag := r.tag, vd := r1.vd, time := s.now, write := r1.op.changes, era := r1.era }], power := 0 })
     (r.port < 4)
       ∧ ((s.port r.port).link = 2)
       ∧ ((s.port r.port).cxlOk = true)
       ∧ (s.img.applied = true)
       ∧ (s.exposed r.port ld = true)
       ∧ (s.boot.neverActive = false)
       ∧ (s.boot.memActive = true)
       ∧ (s.boot.warm = 0)
       ∧ ((s.vd (16 * r.port + ld)).memClr = false)
       ∧ ((s.img.ports.getD r.port {}).ideMemRequired = false)
       ∧ ((s.port r.port).ideSwitch = false)
       ∧ (ld < 16)
       ∧ (s.mayEnter (.cxlMem r.port) (s.useCxl r.port) (((s.port r.port).held.filter fun q => !s.hostHeld q).map CxlReq.vd) (16 * r.port + ld) = true)
       ∧ (r1.era = (s.port r.port).era)
       ∧ (r1.no = s.slu.order)
       ∧ (r1.port = r.port)
       ∧ (r1.vd = 16 * r.port + ld)
       ∧ (r1.tag = r.tag)
       ∧ (r1.dpa = r.dpa)
       ∧ (r1.mv = r.mv)
       ∧ (r1.data = r.data)
       ∧ (r1.pois = r.pois)
       ∧ ((s.port r.port).credits (decide (r1.op = .memWr)) ≠ 0)
       ∧ (s1 = (({ s with slu := { s.slu with order := s.slu.order + 1 } } : State).modPort r.port fun x => { x with outst := x.outst ++ [{ tag := r.tag, vd := r1.vd, time := s.now, write := r1.op.changes, era := r1.era }], power := 0 }))
       ∧ (hit = false ∨ s.walkOf r1.vd (r.dpa / 65536) ≠ none ∨ s.entry r1.vd (r.dpa / 65536) = none)
       ∧ (r1.op = .memWr))
    ∧ (let s : State := live
     let r : CxlReq := { port := 0, vd := 0, tag := 5, dpa := 65536, op := .memRd }
     let r1 : CxlReq := { port := 0, vd := 0, tag := 5, dpa := 65536, op := .memClnEvct }
     let ld : Nat := 0
     let hit : Bool := false
     let s1 : State := (({ s with slu := { s.slu with order := s.slu.order + 1 } } : State).modPort r.port fun x => { x with outst := x.outst ++ [{ tag := r.tag, vd := r1.vd, time := s.now, write := r1.op.changes, era := r1.era }], power := 0 })
     (r.port < 4)
       ∧ ((s.port r.port).link = 2)
       ∧ ((s.port r.port).cxlOk = true)
       ∧ (s.img.applied = true)
       ∧ (s.exposed r.port ld = true)
       ∧ (s.boot.neverActive = false)
       ∧ (s.boot.memActive = true)
       ∧ (s.boot.warm = 0)
       ∧ ((s.vd (16 * r.port + ld)).memClr = false)
       ∧ ((s.img.ports.getD r.port {}).ideMemRequired = false)
       ∧ ((s.port r.port).ideSwitch = false)
       ∧ (ld < 16)
       ∧ (s.mayEnter (.cxlMem r.port) (s.useCxl r.port) (((s.port r.port).held.filter fun q => !s.hostHeld q).map CxlReq.vd) (16 * r.port + ld) = true)
       ∧ (r1.era = (s.port r.port).era)
       ∧ (r1.no = s.slu.order)
       ∧ (r1.port = r.port)
       ∧ (r1.vd = 16 * r.port + ld)
       ∧ (r1.tag = r.tag)
       ∧ (r1.dpa = r.dpa)
       ∧ (r1.mv = r.mv)
       ∧ (r1.data = r.data)
       ∧ (r1.pois = r.pois)
       ∧ ((s.port r.port).credits (decide (r1.op = .memWr)) ≠ 0)
       ∧ (s1 = (({ s with slu := { s.slu with order := s.slu.order + 1 } } : State).modPort r.port fun x => { x with outst := x.outst ++ [{ tag := r.tag, vd := r1.vd, time := s.now, write := r1.op.changes, era := r1.era }], power := 0 }))
       ∧ (hit = false ∨ s.walkOf r1.vd (r.dpa / 65536) ≠ none ∨ s.entry r1.vd (r.dpa / 65536) = none)
       ∧ (r1.op = .memClnEvct))
    ∧ (let r : CxlReq := { port := 0, vd := 0, tag := 5, dpa := 65536, op := .memRd }
     let r1 : CxlReq := { port := 0, vd := 0, tag := 5, dpa := 65536, op := .memRd }
     let ld : Nat := 0
     let ep : Nat := 1
     let e : PEntry := { kind := .page }
     let s : State := { live with slu := { pt := [(1, e)] } }
     let s1 : State := (({ s with slu := { s.slu with order := s.slu.order + 1 } } : State).modPort r.port fun x => { x with outst := x.outst ++ [{ tag := r.tag, vd := r1.vd, time := s.now, write := r1.op.changes, era := r1.era }], power := 0 })
     (r.port < 4)
       ∧ ((s.port r.port).link = 2)
       ∧ ((s.port r.port).cxlOk = true)
       ∧ (s.img.applied = true)
       ∧ (s.exposed r.port ld = true)
       ∧ (s.boot.neverActive = false)
       ∧ (s.boot.memActive = true)
       ∧ (s.boot.warm = 0)
       ∧ ((s.vd (16 * r.port + ld)).memClr = false)
       ∧ ((s.img.ports.getD r.port {}).ideMemRequired = false)
       ∧ ((s.port r.port).ideSwitch = false)
       ∧ (ld < 16)
       ∧ (s.mayEnter (.cxlMem r.port) (s.useCxl r.port) (((s.port r.port).held.filter fun q => !s.hostHeld q).map CxlReq.vd) (16 * r.port + ld) = true)
       ∧ (r1.era = (s.port r.port).era)
       ∧ (r1.no = s.slu.order)
       ∧ (r1.port = r.port)
       ∧ (r1.vd = 16 * r.port + ld)
       ∧ (r1.tag = r.tag)
       ∧ (r1.dpa = r.dpa)
       ∧ (r1.mv = r.mv)
       ∧ (r1.data = r.data)
       ∧ (r1.pois = r.pois)
       ∧ ((s.port r.port).credits (decide (r1.op = .memWr)) ≠ 0)
       ∧ (s1 = (({ s with slu := { s.slu with order := s.slu.order + 1 } } : State).modPort r.port fun x => { x with outst := x.outst ++ [{ tag := r.tag, vd := r1.vd, time := s.now, write := r1.op.changes, era := r1.era }], power := 0 }))
       ∧ (s.walkOf r1.vd (r.dpa / 65536) = none)
       ∧ (s.entry r1.vd (r.dpa / 65536) = some (ep, e))
       ∧ (e.kind = .page)
       ∧ (s1.lineAhead r1 = false)
       ∧ (r1.op = .memRd))
    ∧ (let r : CxlReq := { port := 0, vd := 0, tag := 5, dpa := 65536, op := .memRd }
     let r1 : CxlReq := { port := 0, vd := 0, tag := 5, dpa := 65536, op := .memWr }
     let ld : Nat := 0
     let ep : Nat := 1
     let e : PEntry := { kind := .page }
     let s : State := { live with slu := { pt := [(1, e)] } }
     let s1 : State := (({ s with slu := { s.slu with order := s.slu.order + 1 } } : State).modPort r.port fun x => { x with outst := x.outst ++ [{ tag := r.tag, vd := r1.vd, time := s.now, write := r1.op.changes, era := r1.era }], power := 0 })
     (r.port < 4)
       ∧ ((s.port r.port).link = 2)
       ∧ ((s.port r.port).cxlOk = true)
       ∧ (s.img.applied = true)
       ∧ (s.exposed r.port ld = true)
       ∧ (s.boot.neverActive = false)
       ∧ (s.boot.memActive = true)
       ∧ (s.boot.warm = 0)
       ∧ ((s.vd (16 * r.port + ld)).memClr = false)
       ∧ ((s.img.ports.getD r.port {}).ideMemRequired = false)
       ∧ ((s.port r.port).ideSwitch = false)
       ∧ (ld < 16)
       ∧ (s.mayEnter (.cxlMem r.port) (s.useCxl r.port) (((s.port r.port).held.filter fun q => !s.hostHeld q).map CxlReq.vd) (16 * r.port + ld) = true)
       ∧ (r1.era = (s.port r.port).era)
       ∧ (r1.no = s.slu.order)
       ∧ (r1.port = r.port)
       ∧ (r1.vd = 16 * r.port + ld)
       ∧ (r1.tag = r.tag)
       ∧ (r1.dpa = r.dpa)
       ∧ (r1.mv = r.mv)
       ∧ (r1.data = r.data)
       ∧ (r1.pois = r.pois)
       ∧ ((s.port r.port).credits (decide (r1.op = .memWr)) ≠ 0)
       ∧ (s1 = (({ s with slu := { s.slu with order := s.slu.order + 1 } } : State).modPort r.port fun x => { x with outst := x.outst ++ [{ tag := r.tag, vd := r1.vd, time := s.now, write := r1.op.changes, era := r1.era }], power := 0 }))
       ∧ (s.walkOf r1.vd (r.dpa / 65536) = none)
       ∧ (s.entry r1.vd (r.dpa / 65536) = some (ep, e))
       ∧ (e.kind = .page)
       ∧ (s1.lineAhead r1 = false)
       ∧ (r1.op = .memWr))
    ∧ (let r : CxlReq := { port := 0, vd := 0, tag := 5, dpa := 65536, op := .memRd }
     let r1 : CxlReq := { port := 0, vd := 0, tag := 5, dpa := 65536, op := .memClnEvct }
     let ld : Nat := 0
     let ep : Nat := 1
     let e : PEntry := { kind := .page }
     let s : State := { live with slu := { pt := [(1, e)] } }
     let s1 : State := (({ s with slu := { s.slu with order := s.slu.order + 1 } } : State).modPort r.port fun x => { x with outst := x.outst ++ [{ tag := r.tag, vd := r1.vd, time := s.now, write := r1.op.changes, era := r1.era }], power := 0 })
     (r.port < 4)
       ∧ ((s.port r.port).link = 2)
       ∧ ((s.port r.port).cxlOk = true)
       ∧ (s.img.applied = true)
       ∧ (s.exposed r.port ld = true)
       ∧ (s.boot.neverActive = false)
       ∧ (s.boot.memActive = true)
       ∧ (s.boot.warm = 0)
       ∧ ((s.vd (16 * r.port + ld)).memClr = false)
       ∧ ((s.img.ports.getD r.port {}).ideMemRequired = false)
       ∧ ((s.port r.port).ideSwitch = false)
       ∧ (ld < 16)
       ∧ (s.mayEnter (.cxlMem r.port) (s.useCxl r.port) (((s.port r.port).held.filter fun q => !s.hostHeld q).map CxlReq.vd) (16 * r.port + ld) = true)
       ∧ (r1.era = (s.port r.port).era)
       ∧ (r1.no = s.slu.order)
       ∧ (r1.port = r.port)
       ∧ (r1.vd = 16 * r.port + ld)
       ∧ (r1.tag = r.tag)
       ∧ (r1.dpa = r.dpa)
       ∧ (r1.mv = r.mv)
       ∧ (r1.data = r.data)
       ∧ (r1.pois = r.pois)
       ∧ ((s.port r.port).credits (decide (r1.op = .memWr)) ≠ 0)
       ∧ (s1 = (({ s with slu := { s.slu with order := s.slu.order + 1 } } : State).modPort r.port fun x => { x with outst := x.outst ++ [{ tag := r.tag, vd := r1.vd, time := s.now, write := r1.op.changes, era := r1.era }], power := 0 }))
       ∧ (s.walkOf r1.vd (r.dpa / 65536) = none)
       ∧ (s.entry r1.vd (r.dpa / 65536) = some (ep, e))
       ∧ (e.kind = .page)
       ∧ (s1.lineAhead r1 = false)
       ∧ (r1.op = .memClnEvct))
    ∧ (let s : State := homeS
     let r : CxlReq := { port := 0, vd := 0, tag := 5, dpa := 0, op := .memRd }
     let n : Nat := 0
     let k : Nat := 0
     let ga : Nat := 0
     let f : Frame := homeF
     (s.HomeIdle n (ga / 128) k f)
       ∧ ((s.port r.port).link = 2)
       ∧ ((s.port r.port).conflicts = [])
       ∧ (r.era = (s.port r.port).era)
       ∧ (r.op = .memRd)
       ∧ (r.mv = .none))
    ∧ (let s : State := homeS
     let r : CxlReq := { port := 0, vd := 0, tag := 5, dpa := 0, op := .memWr }
     let n : Nat := 0
     let k : Nat := 0
     let ga : Nat := 0
     let f : Frame := homeF
     (s.HomeIdle n (ga / 128) k f)
       ∧ ((s.port r.port).link = 2)
       ∧ ((s.port r.port).conflicts = [])
       ∧ (r.era = (s.port r.port).era)
       ∧ (r.op = .memWr)
       ∧ (r.mv = .none))
    ∧ (let s : State := homeS
     let r : CxlReq := { port := 0, vd := 0, tag := 5, dpa := 0, op := .memClnEvct }
     let n : Nat := 0
     let k : Nat := 0
     let ga : Nat := 0
     let f : Frame := homeF
     (s.HomeIdle n (ga / 128) k f)
       ∧ ((s.port r.port).link = 2)
       ∧ ((s.port r.port).conflicts = [])
       ∧ (r.era = (s.port r.port).era)
       ∧ (r.op = .memClnEvct))
    ∧ (let v : Nat := 0
     let page : Nat := 1
     let w : Walk := { vd := 0, page := 1 }
     let ep : Nat := 1
     let e : PEntry := { kind := .page }
     let s : State := { live with slu := { pt := [(1, e)], walks := [w] } }
     (s.walkOf v page = some w)
       ∧ (w.slot = true)
       ∧ (w.zero = none)
       ∧ (s.entry v page = some (ep, e))
       ∧ (e.kind ≠ .migrating))
    ∧ (let v : Nat := 0
     let page : Nat := 1
     let w : Walk := { vd := 0, page := 1 }
     let s : State := { live with slu := { walks := [w] } }
     (s.walkOf v page = some w)
       ∧ (w.slot = true)
       ∧ (w.zero = none)
       ∧ (s.entry v page = none)
       ∧ (s.inExtent v (page * 65536) = false))
    ∧ (let v : Nat := 0
     let page : Nat := 0
     let pick : Nat := 0
     let w : Walk := { vd := 0, page := 0 }
     let s : State := { vd0 { extents := [(0, 2 ^ 21)] } with slu := { walks := [w] } }
     let f : Nat := 0
     let big : Bool := false
     (s.walkOf v page = some w)
       ∧ (w.slot = true)
       ∧ (w.zero = none)
       ∧ (s.entry v page = none)
       ∧ (s.inExtent v (page * 65536) = true)
       ∧ (s.touchBusy v page = false)
       ∧ (s.touchFrames v page pick = .ok (f, big)))
    ∧ (let v : Nat := 0
     let page : Nat := 0
     let f : Nat := 0
     let w : Walk := { vd := 0, page := 0, zero := some (0, false) }
     let s : State := { vd0 { extents := [(0, 2 ^ 21)] } with slu := { walks := [w] } }
     (s.walkOf v page = some w)
       ∧ (w.zero = some (f, false))
       ∧ (page < 2 ^ 26))
    ∧ (let s : State := { live with limits := [{ kind := 2, who := 0, place := 0, time := 4500000000 }] }
     let r : CxlReq := { port := 0, vd := 0, tag := 5, dpa := 0, op := .memClnEvct }
     ((s.port r.port).link = 2)
       ∧ ((s.port r.port).conflicts = [])
       ∧ (r.era = (s.port r.port).era)
       ∧ ((s.limits.any fun l => decide (l.kind = 2) && decide (l.who = r.vd) && decide (l.place = r.dpa / 2097152) && decide (s.now < l.time + 10 ^ 9)) = true))
    ∧ (let port : Nat := 0
     let ld : Nat := 0
     let dpa : Nat := 65536
     let ep : Nat := 1
     let e : PEntry := { kind := .page }
     let s : State := { live with slu := { pt := [(1, e)] } }
     ((s.port port).link = 2)
       ∧ ((s.port port).cxlOk = true)
       ∧ (s.exposed port ld = true)
       ∧ (s.boot.memActive = true)
       ∧ (s.boot.warm = 0)
       ∧ ((s.port port).outst.length < 1536)
       ∧ (s.entry (16 * port + ld) (dpa / 65536) = some (ep, e))
       ∧ (e.kind = .page))
    ∧ (let s : State := live
     let port : Nat := 0
     let tag : Nat := 0
     (((s.port port).outst.any fun o => decide (o.tag = tag)) = false))
    ∧ (let s : State := { live with ports := [(0, { link := 2, outst := [{ tag := 0, vd := 0 }] })] }
     let port : Nat := 0
     let tag : Nat := 0
     (((s.port port).outst.any fun o => decide (o.tag = tag)) = true))
    ∧ (let v : Nat := 0
     let q : Nat := 0
     let c : Cmd := { rd 0x20 [] with admitted := false }
     let s : State := { withC c with queues := [(12, { waiting := [{ vd := 0, item := 0 }] })] }
     ((s.queue .hopperCmds).waiting = [{ vd := v, item := q }])
       ∧ ((s.queue .hopperCmds).arb = {})
       ∧ (s.canTake .hopperCmds s.useHopper v = true)
       ∧ (s.cmd? q = some c)) :=
  ⟨by and_intros <;> first | with_reducible rfl | decide +kernel,
   by and_intros <;> first | with_reducible rfl | decide +kernel,
   by and_intros <;> first | with_reducible rfl | decide +kernel,
   by and_intros <;> first | with_reducible rfl | decide +kernel,
   by and_intros <;> first | with_reducible rfl | decide +kernel,
   by and_intros <;> first | with_reducible rfl | decide +kernel,
   by and_intros <;> first | with_reducible rfl | decide +kernel,
   by and_intros <;> first | with_reducible rfl | decide +kernel,
   by and_intros <;> first | with_reducible rfl | decide +kernel,
   by and_intros <;> first | with_reducible rfl | decide +kernel,
   by and_intros <;> first | with_reducible rfl | decide +kernel,
   by and_intros <;> first | with_reducible rfl | decide +kernel,
   by and_intros <;> first | with_reducible rfl | decide +kernel,
   by and_intros <;> decide +kernel,
   by and_intros <;> first | with_reducible rfl | decide +kernel,
   by decide +kernel,
   by decide +kernel,
   by and_intros <;> decide +kernel⟩

/-- States and operands that meet the hypotheses of Obligations.HopperCommandsAllocateFreeAndMove, clause by clause. -/
theorem meets_HopperCommandsAllocateFreeAndMove :
    (let q : Nat := 0
     let pick : Nat := 0
     let cl : Nat := 0
     let o : Nat := 0
     let i : Nat := 0
     let c : Cmd := rd 0x20 [(0x18, 4096), (0x1C, 0xFF)]
     let s : State := withC c
     (s.engineCmd q 0x20 = some c)
       ∧ (bit (c.f 0x1D 1) 1 = false)
       ∧ (s.allocFieldsOk (c.opx % 16) (c.f 0x1C 1) (c.f 0x1D 1) true = true)
       ∧ (c.f 0x18 4 ≠ 0)
       ∧ (s.classFor (c.opx % 16) (c.f 0x18 4) = some cl)
       ∧ (s.poolBusy (c.opx % 16) = false)
       ∧ (Tab.wf s.hop.recs = true)
       ∧ ((s.vd c.vd).useBuf < s.quotaBuf c.vd)
       ∧ (s.allocPlace (c.opx % 16) (c.f 0x18 4) (bit (c.f 0x1D 1) 0) (nearSlice s (c.f 0x1C 1)) pick = .ok (cl, o, i))
       ∧ (s.blockAsleep (c.opx % 16) o (s.classSize (c.opx % 16) cl) = false)
       ∧ ((s.fresh.zeroBlock (c.opx % 16) o (s.classSize (c.opx % 16) cl)).stall = []))
    ∧ (let q : Nat := 0
     let cl : Nat := 0
     let c : Cmd := rd 0x20 [(0x18, 4096), (0x1C, 0xFF)]
     let s : State := { withC c with pol := { polT with quotaBuf := [] } }
     (s.engineCmd q 0x20 = some c)
       ∧ (bit (c.f 0x1D 1) 1 = false)
       ∧ (s.allocFieldsOk (c.opx % 16) (c.f 0x1C 1) (c.f 0x1D 1) true = true)
       ∧ (c.f 0x18 4 ≠ 0)
       ∧ (s.classFor (c.opx % 16) (c.f 0x18 4) = some cl)
       ∧ (s.poolBusy (c.opx % 16) = false)
       ∧ (Tab.wf s.hop.recs = true)
       ∧ (s.quotaBuf c.vd ≤ (s.vd c.vd).useBuf))
    ∧ (let q : Nat := 0
     let k : Nat := 0
     let c : Cmd := rd 0x20 [(0x1D, 2)]
     let s : State := { withC c with img := { imgT with pools := [(0, { kind := 1, size := 4, classes := [12] })] }, hop := { recs := [(0, { st := .retained, gen := 1 })] } }
     (s.engineCmd q 0x20 = some c)
       ∧ (bit (c.f 0x1D 1) 1 = true)
       ∧ (s.allocFieldsOk (c.opx % 16) 0xFF (c.f 0x1D 1) true = true)
       ∧ (k = handleKey (c.f 0x20 4))
       ∧ (handlePool (c.f 0x20 4) = c.opx % 16)
       ∧ (c.f 0x20 4 % 2 ^ 20 ≠ 0xFFFFF)
       ∧ ((s.hrec k).st = .retained)
       ∧ ((s.hrec k).owner = c.vd)
       ∧ ((s.hrec k).gen = handleGen (c.f 0x20 4) + 1)
       ∧ ((s.vd c.vd).useBuf < s.quotaBuf c.vd)
       ∧ (s.poolBusy (c.opx % 16) = false)
       ∧ (s.poolBusy (handlePool (c.f 0x20 4)) = false)
       ∧ (Tab.wf s.hop.recs = true))
    ∧ (let q : Nat := 0
     let c : Cmd := rd 0x21 []
     let s : State := { withC c with img := { imgT with pools := [] } }
     (s.engineCmd q 0x21 = some c)
       ∧ (s.poolBusy (handlePool (c.f 0x18 4)) = false)
       ∧ ((s.hpool (handlePool (c.f 0x18 4))).kind = 0))
    ∧ (let q : Nat := 0
     let c : Cmd := rd 0x21 [(0x18, 0xFFFFFFFF)]
     let s : State := { withC c with img := { imgT with pools := [(15, { kind := 2, size := 1, classes := [12] })] } }
     let o : Nat := 1
     (s.engineCmd q 0x21 = some c)
       ∧ (s.poolBusy (handlePool (c.f 0x18 4)) = false)
       ∧ (c.f 0x18 4 = nullHandle)
       ∧ ((s.hpool 15).kind ≠ 0))
    ∧ (let q : Nat := 0
     let c : Cmd := rd 0x21 []
     let s : State := { withC c with hop := { recs := [(0, { st := .live })] } }
     (s.engineCmd q 0x21 = some c)
       ∧ (s.poolBusy (handlePool (c.f 0x18 4)) = false)
       ∧ (c.f 0x18 4 ≠ nullHandle)
       ∧ ((s.hpool (handlePool (c.f 0x18 4))).kind ≠ 0)
       ∧ (s.handleIs c.vd (c.f 0x18 4) = .live))
    ∧ (let q : Nat := 0
     let c : Cmd := rd 0x21 []
     let s : State := { withC c with hop := { recs := [(0, { st := .live, owner := 1 })] } }
     let o : Nat := 1
     (s.engineCmd q 0x21 = some c)
       ∧ (s.poolBusy (handlePool (c.f 0x18 4)) = false)
       ∧ (c.f 0x18 4 ≠ nullHandle)
       ∧ ((s.hpool (handlePool (c.f 0x18 4))).kind ≠ 0)
       ∧ (s.handleIs c.vd (c.f 0x18 4) = .other o))
    ∧ (let q : Nat := 0
     let c : Cmd := rd 0x21 []
     let s : State := withC c
     (s.engineCmd q 0x21 = some c)
       ∧ (s.poolBusy (handlePool (c.f 0x18 4)) = false)
       ∧ (c.f 0x18 4 ≠ nullHandle)
       ∧ ((s.hpool (handlePool (c.f 0x18 4))).kind ≠ 0)
       ∧ (s.handleIs c.vd (c.f 0x18 4) = .stale)
       ∧ ((s.hrec (handleKey (c.f 0x18 4))).st ≠ .retained))
    ∧ (let r : HopRec := {}
     (r.gen ≠ 0xFF))
    ∧ (let q : Nat := 0
     let c : Cmd := rd 0x22 [(0x18, 0xFFFFF)]
     let s : State := { withC c { st := .ready, extents := [(0, 2 ^ 21)] } with slu := { pt := [(0, { kind := .page })] } }
     let x : Ext := {}
     let s1 : State := (s.fresh.vdWrite c.vd (c.f 0x20 8) (s.fresh.queryPool c.vd (handlePool (c.f 0x18 4))) false (c.who q) x).2
     (s.engineCmd q 0x22 = some c)
       ∧ (s.poolBusy (handlePool (c.f 0x18 4)) = false)
       ∧ ((s.hpool (handlePool (c.f 0x18 4))).kind ≠ 0)
       ∧ (c.f 0x20 8 % 64 = 0)
       ∧ (c.f 0x18 4 % 2 ^ 20 = 0xFFFFF)
       ∧ (s.fresh.vdWrite c.vd (c.f 0x20 8) (s.fresh.queryPool c.vd (handlePool (c.f 0x18 4))) false (c.who q) x = (none, s1))
       ∧ (s1.stall = []))
    ∧ (let q : Nat := 0
     let c : Cmd := rd 0x22 []
     let s : State := { withC c { st := .ready, extents := [(0, 2 ^ 21)] } with slu := { pt := [(0, { kind := .page })] }, hop := { recs := [(0, { st := .live })] } }
     let x : Ext := {}
     let s1 : State := (s.fresh.vdWrite c.vd (c.f 0x20 8) (s.fresh.queryBuf (c.f 0x18 4)) false (c.who q) x).2
     (s.engineCmd q 0x22 = some c)
       ∧ (s.poolBusy (handlePool (c.f 0x18 4)) = false)
       ∧ ((s.hpool (handlePool (c.f 0x18 4))).kind ≠ 0)
       ∧ (c.f 0x20 8 % 64 = 0)
       ∧ (s.handleIs c.vd (c.f 0x18 4) = .live)
       ∧ (c.f 0x18 4 % 2 ^ 20 ≠ 0xFFFFF)
       ∧ (s.fresh.vdWrite c.vd (c.f 0x20 8) (s.fresh.queryBuf (c.f 0x18 4)) false (c.who q) x = (none, s1))
       ∧ (s1.stall = []))
    ∧ (let q : Nat := 0
     let pick : Nat := 0
     let cl : Nat := 0
     let o : Nat := 4096
     let i : Nat := 1
     let c : Cmd := rd 0x23 [(0x1C, 0xFF)]
     let s : State := { withC c with hop := { recs := [(0, { st := .live, held := true })] } }
     (s.engineCmd q 0x23 = some c)
       ∧ (s.poolBusy (c.opx % 16) = false)
       ∧ (s.poolBusy (handlePool (c.f 0x18 4)) = false)
       ∧ ((s.hpool (handlePool (c.f 0x18 4))).kind ≠ 0)
       ∧ (s.handleIs c.vd (c.f 0x18 4) = .live)
       ∧ (s.allocFieldsOk (c.opx % 16) (c.f 0x1C 1) (c.f 0x1D 1) false = true)
       ∧ (s.allocPlace (c.opx % 16) (s.classSize (handlePool (c.f 0x18 4)) (s.hrec (handleKey (c.f 0x18 4))).cls) (bit (c.f 0x1D 1) 0) (nearSlice s (c.f 0x1C 1)) pick = .ok (cl, o, i))
       ∧ ((s.hrec (handleKey (c.f 0x18 4))).refs = 0))
    ∧ (let q : Nat := 0
     let pick : Nat := 0
     let cl : Nat := 0
     let o : Nat := 4096
     let i : Nat := 1
     let c : Cmd := rd 0x23 [(0x1C, 0xFF)]
     let s : State := { withC c with hop := { recs := [(0, { st := .live, refs := 1, held := true })] } }
     (s.engineCmd q 0x23 = some c)
       ∧ (s.poolBusy (c.opx % 16) = false)
       ∧ (s.poolBusy (handlePool (c.f 0x18 4)) = false)
       ∧ ((s.hpool (handlePool (c.f 0x18 4))).kind ≠ 0)
       ∧ (s.handleIs c.vd (c.f 0x18 4) = .live)
       ∧ (s.allocFieldsOk (c.opx % 16) (c.f 0x1C 1) (c.f 0x1D 1) false = true)
       ∧ (s.allocPlace (c.opx % 16) (s.classSize (handlePool (c.f 0x18 4)) (s.hrec (handleKey (c.f 0x18 4))).cls) (bit (c.f 0x1D 1) 0) (nearSlice s (c.f 0x1C 1)) pick = .ok (cl, o, i))
       ∧ (0 < (s.hrec (handleKey (c.f 0x18 4))).refs))
    ∧ (let s : State := live
     let q : Nat := 0
     let x : Ext := {}
     ((s.fresh.transferSwitch q x.pick).stall = []))
    ∧ (let q : Nat := 0
     let t0 : Transfer := { cmd := 0, vd := 0, epoch := 0, src := 0, dst := 1, cls := 0, base := 0, inRetain := false }
     let c : Cmd := rd 0x23 []
     let s : State := { withC c with hop := { recs := [(0, { st := .live })], transfers := [t0] }, img := { imgT with pools := [(0, { kind := 1, size := 1, classes := [6] })] } }
     (s.hop.transfers = [t0])
       ∧ (t0.cmd = q)
       ∧ ((s.vd t0.vd).epoch = t0.epoch)
       ∧ (s.cmd? q = some c)
       ∧ (t0.src ≠ t0.dst)
       ∧ (Tab.wf s.hop.recs = true)
       ∧ ((s.hpool (t0.src / 2 ^ 20)).kind = 1)
       ∧ ((s.hpool (t0.dst / 2 ^ 20)).kind = 1))
    ∧ (let s : State := { live with hop := { recs := [(1, { st := .quarantine })] } }
     let pool : Nat := 0
     let index : Nat := 1
     ((s.hrec (hopKey pool index)).st = .quarantine)
       ∧ ((s.hrec (hopKey pool index)).held = false)
       ∧ ((s.stampNow - (s.hrec (hopKey pool index)).stamp).toNat < 2 ^ 31)) :=
  ⟨by and_intros <;> decide +kernel,
   by and_intros <;> decide +kernel,
   by and_intros <;> decide +kernel,
   by and_intros <;> decide +kernel,
   by and_intros <;> decide +kernel,
   by and_intros <;> decide +kernel,
   by and_intros <;> decide +kernel,
   by and_intros <;> decide +kernel,
   by decide +kernel,
   by and_intros <;> decide +kernel,
   by and_intros <;> decide +kernel,
   by and_intros <;> decide +kernel,
   by and_intros <;> decide +kernel,
   by decide +kernel,
   by and_intros <;> first | with_reducible rfl | decide +kernel,
   by and_intros <;> decide +kernel⟩

/-- States and operands that meet the hypotheses of Obligations.SluiceCommandsPlacePinGrantAndAttach, clause by clause. -/
theorem meets_SluiceCommandsPlacePinGrantAndAttach :
    (let q : Nat := 0
     let c : Cmd := rd 0x28 [(0x20, 65536), (0x29, 2)]
     let e : PEntry := { kind := .page }
     let s : State := { withC c { st := .ready, extents := [(0, 2 ^ 21)] } with slu := { pt := [(0, e)] } }
     (s.engineCmd q 0x28 = some c)
       ∧ (c.addr % 65536 = 0)
       ∧ (c.len = 65536)
       ∧ (s.splits c = false)
       ∧ (c.f 0x28 1 < 128)
       ∧ (c.f 0x29 1 = 2)
       ∧ (c.addr < 2 ^ 42)
       ∧ (s.inExtent c.vd c.addr = true)
       ∧ (s.slu.pt.find (ptKey c.vd (c.addr / 65536)) = some e)
       ∧ (e.kind = .page)
       ∧ (e.big = false)
       ∧ (s.granted c.vd (c.addr / 65536) 1 = false)
       ∧ (gfDev e.gframe = c.f 0x28 1)
       ∧ (s.slu.places = []))
    ∧ (let q : Nat := 0
     let c : Cmd := rd 0x29 [(0x20, 131072)]
     let e : PEntry := { kind := .page }
     let s : State := { withC c { st := .ready, extents := [(0, 2 ^ 21)] } with slu := { pt := [(0, e)] } }
     let s1 : State := (State.pinRun c.vd true (c.len / 65536) (c.addr / 65536) s).2
     (rangeOk c 65536 = true)
       ∧ (s.splits c = false)
       ∧ (s.engineCmd q 0x29 = some c)
       ∧ (State.pinRun c.vd true (c.len / 65536) (c.addr / 65536) s = (true, s1)))
    ∧ (let q : Nat := 0
     let c : Cmd := rd 0x2A [(0x20, 131072)]
     let e : PEntry := { kind := .page }
     let s : State := { withC c { st := .ready, extents := [(0, 2 ^ 21)] } with slu := { pt := [(0, e)] } }
     let s1 : State := (State.pinRun c.vd false (c.len / 65536) (c.addr / 65536) s).2
     (rangeOk c 65536 = true)
       ∧ (s.splits c = false)
       ∧ (s.engineCmd q 0x2A = some c)
       ∧ (State.pinRun c.vd false (c.len / 65536) (c.addr / 65536) s = (true, s1)))
    ∧ (let v : Nat := 0
     let page : Nat := 0
     let e : PEntry := { kind := .page }
     let c : Cmd := rd 0x2A [(0x20, 131072)]
     let s : State := { withC c { st := .ready, extents := [(0, 2 ^ 21)] } with slu := { pt := [(0, e)] } }
     (s.inExtent v (page * 65536) = true)
       ∧ (s.slu.pt.find (ptKey v page) = some e)
       ∧ (e.kind = .page))
    ∧ (let q : Nat := 0
     let c : Cmd := rd 0x2B [(0x20, 65536)]
     let x : Ext := {}
     let e : PEntry := { kind := .page }
     let s : State := { withC c { st := .ready, extents := [(0, 2 ^ 21)] } with slu := { pt := [(0, e)] } }
     let bs : List Byte := (s.fresh.queryRun c.vd 65 (c.addr / 65536) ((c.addr + c.len) / 65536)).1
     let bad : Bool := (s.fresh.queryRun c.vd 65 (c.addr / 65536) ((c.addr + c.len) / 65536)).2
     let s1 : State := (s.fresh.vdWrite c.vd (c.f 0x28 8) bs false (c.who q) x).2
     (s.engineCmd q 0x2B = some c)
       ∧ (rangeOk c 65536 = true)
       ∧ (s.splits c = false)
       ∧ (s.fresh.pagesIn c.vd 65 (c.addr / 65536) ((c.addr + c.len) / 65536) ≤ 64)
       ∧ (s.fresh.queryRun c.vd 65 (c.addr / 65536) ((c.addr + c.len) / 65536) = (bs, bad))
       ∧ (s.fresh.vdWrite c.vd (c.f 0x28 8) bs false (c.who q) x = (none, s1))
       ∧ (s1.stall = []))
    ∧ (let s : State := gS
     let s1 : State := gS
     let q : Nat := 0
     let pick : Nat := 0
     let k : Nat := 0
     let c : Cmd := rd 0x2C [(0x20, 2 ^ 30)]
     (s.engineCmd q 0x2C = some c)
       ∧ (rangeOk c 2097152 = true)
       ∧ (2 ^ 30 ≤ c.len)
       ∧ (c.len ≤ 2 ^ 32)
       ∧ ((s.slu.pt.any fun e => decide (e.1 / 2 ^ 26 = c.vd) && decide (c.addr / 65536 ≤ e.1 % 2 ^ 26) && decide (e.1 % 2 ^ 26 < (c.addr + c.len) / 65536) && decide (e.2.kind = .migrating)) = false)
       ∧ (State.grantTouch c.vd pick (c.len / 65536) (c.addr / 65536) s.fresh = (none, s1))
       ∧ (s1.stall = [])
       ∧ (((List.range 1024).find? fun j => (s1.slu.grants.find j).isNone) = some k))
    ∧ (let q : Nat := 0
     let c : Cmd := rd 0x2D []
     let g : Grant := { vd := 0, epoch := 0, va := 0, len := 2 ^ 30, readOnly := false, key := 5 }
     let s : State := { withC c with slu := { grants := [(0, g)] } }
     (s.engineCmd q 0x2D = some c)
       ∧ (s.slu.grants.find (c.f 0x18 2) = some g)
       ∧ (g.vd = c.vd)
       ∧ (g.attach = []))
    ∧ (let q : Nat := 0
     let c : Cmd := rd 0x2D []
     let s : State := withC c
     (s.engineCmd q 0x2D = some c)
       ∧ (s.slu.grants.find (c.f 0x18 2) = none))
    ∧ (let q : Nat := 0
     let c : Cmd := rd 0x2E [(0x20, 2 ^ 21), (0x2C, 5)]
     let g : Grant := { vd := 1, epoch := 0, va := 0, len := 2 ^ 21, readOnly := false, key := 5 }
     let s : State := { withC c { st := .ready, extents := [(0, 2 ^ 21)] } with slu := { grants := [(0, g)] } }
     (s.engineCmd q 0x2E = some c)
       ∧ (rangeOk c 2097152 = true)
       ∧ (c.f 0x28 1 < 128)
       ∧ ((((List.range (c.len / 65536)).map fun i => c.addr / 65536 + i).any fun p => !s.inExtent c.vd (p * 65536) || (s.entry c.vd p).isSome) = false)
       ∧ (c.f 0x28 1 = s.pool.devnum)
       ∧ (s.slu.grants.find (c.f 0x2A 2) = some g)
       ∧ (g.key = BitVec.ofNat 32 (c.f 0x2C 4))
       ∧ (g.len = c.len)
       ∧ (g.readOnly = true → bit c.opx 0 = true)
       ∧ (g.attach.length < 16))
    ∧ (let q : Nat := 0
     let c : Cmd := rd 0x2F [(0x20, 2 ^ 21)]
     let e : PEntry := { kind := .foreign }
     let s : State := { withC c { st := .ready, extents := [(0, 2 ^ 21)] } with slu := { pt := [(0, e)] } }
     let s1 : State := (State.detachRun c.vd (c.len / 65536) (c.addr / 65536) s).2
     (s.engineCmd q 0x2F = some c)
       ∧ (rangeOk c 2097152 = true)
       ∧ (State.detachRun c.vd (c.len / 65536) (c.addr / 65536) s = (true, s1)))
    ∧ (let v : Nat := 0
     let page : Nat := 0
     let e : PEntry := { kind := .foreign }
     let c : Cmd := rd 0x2F [(0x20, 2 ^ 21)]
     let s : State := { withC c { st := .ready, extents := [(0, 2 ^ 21)] } with slu := { pt := [(0, e)] } }
     (s.inExtent v (page * 65536) = true)
       ∧ (s.slu.pt.find (ptKey v page) = some e)
       ∧ (e.kind = .foreign)) :=
  ⟨by and_intros <;> first | with_reducible rfl | decide +kernel,
   by and_intros <;> decide +kernel,
   by and_intros <;> decide +kernel,
   by and_intros <;> first | with_reducible rfl | decide +kernel,
   by and_intros <;> first | with_reducible rfl | decide +kernel | with_reducible exact pair_of _ _ (by decide +kernel),
   by refine ⟨?_, ?_, ?_, ?_, ?_, grantTouch_gS, rfl, ?_⟩ <;> decide +kernel,
   by and_intros <;> first | with_reducible rfl | decide +kernel,
   by and_intros <;> decide +kernel,
   by and_intros <;> decide +kernel,
   by and_intros <;> decide +kernel,
   by and_intros <;> first | with_reducible rfl | decide +kernel⟩

/-- States and operands that meet the hypotheses of Obligations.PagesMoveInSteps, clause by clause. -/
theorem meets_PagesMoveInSteps :
    (let i : Nat := 0
     let pick : Nat := 3
     let f : Nat := 3
     let r : MoveReq := { vd := 0, page := 0, dev := 0, by_ := .retire }
     let e : PEntry := { kind := .page }
     let s : State := { live with slu := { pt := [(0, e)], wanted := [r] } }
     (s.boot.warm = 0)
       ∧ (s.slu.wanted[i]? = some r)
       ∧ (s.slu.pt.find (ptKey r.vd r.page) = some e)
       ∧ (e.kind = .page)
       ∧ (e.promoted = false)
       ∧ (r.dev = s.pool.devnum)
       ∧ (s.mayMove r.by_ r.vd r.page e = true)
       ∧ (s.chooseFrames (pageFrames e.big) pick (decide (r.by_ = .retire)) = some f))
    ∧ (let v : Nat := 0
     let page : Nat := 0
     let m : Move := { vd := 0, page := 0, big := false, src := 0, dst := 5, step := 1, by_ := .retire }
     let e : PEntry := { kind := .page }
     let s : State := { live with slu := { pt := [(0, e)], moves := [m] } }
     (s.moveOf v page = some m)
       ∧ (m.step = 1)
       ∧ (s.framesQuiet m.src (pageFrames m.big) = true)
       ∧ (gfDev m.src = s.pool.devnum))
    ∧ (let v : Nat := 0
     let page : Nat := 0
     let m : Move := { vd := 0, page := 0, big := false, src := 0, dst := 5, step := 3, by_ := .retire }
     let e : PEntry := { kind := .page }
     let s : State := { live with slu := { pt := [(0, e)], moves := [m] } }
     let x : Ext := {}
     let s2 : State := (s.fresh.takeBackFrames (gfLocal m.src) (pageFrames m.big) v).copyFrames (gfLocal m.src) (gfLocal m.dst) (pageFrames m.big)
     (s.moveOf v page = some m)
       ∧ (m.step = 3)
       ∧ (gfDev m.src = s.pool.devnum)
       ∧ (gfDev m.dst = s.pool.devnum)
       ∧ (s2 = (s.fresh.takeBackFrames (gfLocal m.src) (pageFrames m.big) v).copyFrames (gfLocal m.src) (gfLocal m.dst) (pageFrames m.big))
       ∧ (s2.stall = [])
       ∧ (s2.slu.pt.find (ptKey v page) = some e)
       ∧ (s2.slu.places = [])
       ∧ (s2.slu.recWait = [])
       ∧ (m.by_ = .retire))
    ∧ (let s : State := live
     let f : Nat := 0
     let g : Nat := 1
     let k : Nat := 1
     let i : Nat := 65535
     (Tab.wf s.mem = true)
       ∧ (f + k ≤ g ∨ g + k ≤ f)
       ∧ (i < k * 65536))
    ∧ (let s : State := live
     let g : Nat := 1
     let k : Nat := 1
     let a : Nat := 131072
     (Tab.wf s.mem = true)
       ∧ (a < g * 65536 ∨ (g + k) * 65536 ≤ a))
    ∧ (let v : Nat := 0
     let page : Nat := 0
     let m : Move := { vd := 0, page := 0, big := false, src := 0, dst := 5, step := 5, by_ := .retire }
     let e : PEntry := { kind := .page }
     let s : State := { live with slu := { pt := [(0, e)], moves := [m] } }
     (s.moveOf v page = some m)
       ∧ (m.step = 5)
       ∧ (gfDev m.src = s.pool.devnum))
    ∧ (let v : Nat := 0
     let page : Nat := 0
     let m : Move := { vd := 0, page := 0, big := false, src := 0, dst := 2 ^ 25, step := 1, by_ := .fantail }
     let e : PEntry := { kind := .migrating }
     let s : State := { live with slu := { pt := [(0, e)], moves := [m] } }
     (s.moveOf v page = some m)
       ∧ (m.vd = v)
       ∧ (m.page = page)
       ∧ (m.step = 1)
       ∧ (gfDev m.src = s.pool.devnum)
       ∧ (gfDev m.dst ≠ s.pool.devnum)
       ∧ (m.fresh = false)
       ∧ (s.slu.pt.find (ptKey v page) = some e)
       ∧ (e.kind = .migrating)
       ∧ (s.slu.places = [])
       ∧ (s.slu.recWait = []))
    ∧ (let k : Nat := 0
     let p : Promo := { vd := 0, page := 0, frame := 0 }
     let e : PEntry := { kind := .page }
     let s : State := { live with slu := { pt := [(0, e)], promo := [(0, p)] } }
     (s.slu.promo.find k = some p)
       ∧ (p.st = .coming)
       ∧ (s.slu.pt.find (ptKey p.vd p.page) = some e)
       ∧ (e.kind = .page)
       ∧ (e.gframe = s.ownFrame p.frame)
       ∧ (∀ m ∈ s.slu.moves, m.vd ≠ p.vd ∨ m.page ≠ p.page)
       ∧ ((s.slices.any fun y => y.2.miss.any fun m => s.inFrames p.frame 1 m.1) = false))
    ∧ (let k : Nat := 0
     let p : Promo := { vd := 0, page := 0, frame := 0, st := .going }
     let e : PEntry := { kind := .page }
     let s : State := { live with slu := { pt := [(0, e)], promo := [(0, p)] } }
     (s.slu.promo.find k = some p)
       ∧ (p.st = .going)
       ∧ (p.next = none)
       ∧ (p.fantail = true)
       ∧ (Tab.wf s.slu.promo = true)
       ∧ (s.slu.pt.find (ptKey p.vd p.page) = some e))
    ∧ (let s : State := live
     (s.pol.fantailEnable = false))
    ∧ (let key : Nat := 0
     let e : PEntry := { kind := .page, gframe := 2 ^ 25 }
     let s : State := { live with pol := { polT with fantailEnable := true }, timeBase := 10 ^ 14, slu := { pt := [(0, e)], heat := [(0, 200)] } }
     (s.pol.fantailEnable = true)
       ∧ (s.slu.pt = [(key, e)])
       ∧ (s.slu.wanted = [])
       ∧ (s.slu.moves = [])
       ∧ (s.slu.promo = [])
       ∧ (e.kind = .page)
       ∧ (s.granted (key / 2 ^ 26) (key % 2 ^ 26) (pageFrames e.big) = false)
       ∧ (gfDev e.gframe ≠ s.pool.devnum)
       ∧ (128 ≤ s.slu.heat.getD key 0)
       ∧ (e.pin = false)
       ∧ (bit (s.regionPolicy (key / 2 ^ 26) (key % 2 ^ 26 * 65536)) 2 = false)
       ∧ (s.dwells e = false)) :=
  ⟨by and_intros <;> first | with_reducible rfl | decide +kernel,
   by and_intros <;> first | with_reducible rfl | decide +kernel,
   by and_intros <;> first | with_reducible rfl | decide +kernel,
   by and_intros <;> decide +kernel,
   by and_intros <;> decide +kernel,
   by and_intros <;> first | with_reducible rfl | decide +kernel,
   by and_intros <;> first | with_reducible rfl | decide +kernel,
   by and_intros <;> first | with_reducible rfl | decide +kernel,
   by and_intros <;> first | with_reducible rfl | decide +kernel,
   by decide +kernel,
   by and_intros <;> first | with_reducible rfl | decide +kernel⟩

/-- States and operands that meet the hypotheses of Obligations.CountersSaturateAndAResetSetsAnyValue, clause by clause. -/
theorem meets_CountersSaturateAndAResetSetsAnyValue :
    (let s : State := { live with pen := { pens := [(0, { st := .leased, count := 2 ^ 48 - 1 })] } }
     let p : Nat := 0
     let n : Nat := 1
     ((s.penn p).st = .leased)
       ∧ (2 ^ 48 - 1 < (s.penn p).count.toNat + n))
    ∧ (let q : Nat := 0
     let p : Nat := 0
     let c : Cmd := rd 3 [(0x16, 2)]
     let s : State := { withC c { st := .ready, bind := [(0, .lease 0 false)] } with pen := { pens := [(0, { st := .leased })] } }
     (s.penCmd q 2 = some c)
       ∧ (s.binding c.vd c.pen = some (.lease p false))
       ∧ ((s.penn p).st = .leased))
    ∧ (let q : Nat := 0
     let p : Nat := 0
     let c : Cmd := rd 3 [(0x16, 3)]
     let s : State := { withC c { st := .ready, bind := [(0, .lease 0 false)] } with pen := { pens := [(0, { st := .leased })] } }
     (s.penCmd q 3 = some c)
       ∧ (s.binding c.vd c.pen = some (.lease p false))
       ∧ ((s.penn p).st = .leased)) :=
  ⟨by and_intros <;> decide +kernel,
   by and_intros <;> decide +kernel,
   by and_intros <;> decide +kernel⟩

/-- States and operands that meet the hypotheses of Obligations.PennantsAreLeasedWaitedOnAndShared, clause by clause. -/
theorem meets_PennantsAreLeasedWaitedOnAndShared :
    (let q : Nat := 0
     let pick : Nat := 0
     let c : Cmd := rd 3 []
     let s : State := withC c
     (s.penCmd q 0 = some c)
       ∧ (s.binding c.vd c.pen = none)
       ∧ ((s.vd c.vd).bind.length < s.quotaPen c.vd)
       ∧ (s.penPresent pick = true)
       ∧ ((s.penn pick).st = .free))
    ∧ (let q : Nat := 0
     let c : Cmd := rd 3 []
     let s : State := withC c { st := .ready, bind := [(0, .lease 0 false)] }
     let b : Binding := .lease 0 false
     (s.penCmd q 0 = some c)
       ∧ (s.binding c.vd c.pen = some b))
    ∧ (let q : Nat := 0
     let p : Nat := 0
     let c : Cmd := rd 3 [(0x16, 1)]
     let s : State := { withC c { st := .ready, bind := [(0, .lease 0 false)] } with pen := { pens := [(0, { st := .leased })] } }
     (s.penCmd q 1 = some c)
       ∧ (s.binding c.vd c.pen = some (.lease p false))
       ∧ (∀ r ∈ s.pen.regs, r.pen ≠ p)
       ∧ (s.exportOf p = none)
       ∧ ((s.penn p).owner = c.vd))
    ∧ (let q : Nat := 0
     let p : Nat := 0
     let c : Cmd := rd 3 [(0x16, 4)]
     let s : State := { withC c { st := .ready, bind := [(0, .lease 0 false)] } with pen := { pens := [(0, { st := .leased })] } }
     (s.penCmd q 4 = some c)
       ∧ (s.binding c.vd c.pen = some (.lease p false)))
    ∧ (let q : Nat := 0
     let p : Nat := 0
     let c : Cmd := rd 3 [(0x16, 4)]
     let s : State := { withC c { st := .ready, bind := [(0, .lease 0 true)] } with pen := { pens := [(0, { st := .abandoned })] } }
     (s.penCmd q 4 = some c)
       ∧ (s.binding c.vd c.pen = some (.lease p true)))
    ∧ (let q : Nat := 0
     let p : Nat := 0
     let c : Cmd := rd 3 [(0x16, 5)]
     let s : State := { withC c { st := .ready, bind := [(0, .lease 0 false)] } with pen := { pens := [(0, { st := .leased })] } }
     (s.penCmd q 5 = some c)
       ∧ (s.binding c.vd c.pen = some (.lease p false))
       ∧ (c.value ≤ (s.penn p).count.toNat))
    ∧ (let q : Nat := 0
     let p : Nat := 0
     let c : Cmd := rd 3 [(0x16, 5), (0x20, 1)]
     let s : State := { withC c { st := .ready, bind := [(0, .lease 0 false)] } with pen := { pens := [(0, { st := .leased })] } }
     (s.penCmd q 5 = some c)
       ∧ (s.binding c.vd c.pen = some (.lease p false))
       ∧ ((s.penn p).count.toNat < c.value)
       ∧ ((s.pen.regs.filter fun r => decide (r.pen = p) && decide (r.place = .own)).length < 32))
    ∧ (let q : Nat := 0
     let p : Nat := 0
     let c : Cmd := rd 3 [(0x16, 6)]
     let k : Nat := 4
     let e : Export := { pen := 0, key := 9 }
     let s : State := { withC c { st := .ready, bind := [(0, .lease 0 false)] } with pen := { pens := [(0, { st := .leased })], exports := [(4, e)] } }
     (s.penCmd q 6 = some c)
       ∧ (s.binding c.vd c.pen = some (.lease p false))
       ∧ (s.exportOf p = some (k, e)))
    ∧ (let q : Nat := 0
     let pick : Nat := 1
     let p : Nat := 0
     let c : Cmd := rd 3 [(0x16, 6)]
     let s : State := { withC c { st := .ready, bind := [(0, .lease 0 false)] } with pen := { pens := [(0, { st := .leased })] } }
     let k : Nat := 1
     (s.penCmd q 6 = some c)
       ∧ (s.binding c.vd c.pen = some (.lease p false))
       ∧ (s.exportOf p = none)
       ∧ (pickFrom ((List.range 1024).filter fun k => (s.pen.exports.find k).isNone) pick = some k))
    ∧ (let q : Nat := 0
     let c : Cmd := rd 3 [(0x16, 7), (0x20, 9 * 2 ^ 17 + 4)]
     let k : Nat := 4
     let e : Export := { pen := 0, key := 9 }
     let s : State := { withC c with pen := { pens := [(0, { st := .leased })], exports := [(4, e)] } }
     (s.penCmd q 7 = some c)
       ∧ (s.binding c.vd c.pen = none)
       ∧ ((s.vd c.vd).bind.length < s.quotaPen c.vd)
       ∧ (ticketDev c.value = s.pool.devnum)
       ∧ (s.ticketPen c.value = some (k, e))
       ∧ (e.imports.length < 16))
    ∧ (let q : Nat := 0
     let c : Cmd := rd 3 [(0x16, 7), (0x20, 9 * 2 ^ 17 + 4)]
     let s : State := withC c
     (s.penCmd q 7 = some c)
       ∧ (s.binding c.vd c.pen = none)
       ∧ ((s.vd c.vd).bind.length < s.quotaPen c.vd)
       ∧ (ticketDev c.value = s.pool.devnum)
       ∧ (s.ticketPen c.value = none))
    ∧ (let q : Nat := 0
     let p : Nat := 0
     let k : Nat := 4
     let c : Cmd := rd 3 [(0x16, 8)]
     let e : Export := { pen := 0, key := 9 }
     let s : State := { withC c { st := .ready, bind := [(0, .lease 0 false)] } with pen := { pens := [(0, { st := .leased })], exports := [(4, e)] } }
     (s.penCmd q 8 = some c)
       ∧ (s.binding c.vd c.pen = some (.lease p false))
       ∧ (s.exportOf p = some (k, e))
       ∧ (e.imports = [])
       ∧ (∀ r ∈ s.pen.regs, r.pen = p → s.importWait r = false))
    ∧ (let q : Nat := 0
     let q2 : Nat := 1
     let p : Nat := 0
     let c : Cmd := rd 3 [(0x16, 2), (0x20, 1)]
     let d : Cmd := cm 1 []
     let s : State := { withC c { st := .ready, bind := [(0, .lease 0 false)] } with dax := { cmds := [(0, c), (1, d)] }, pen := { pens := [(0, { st := .leased })], regs := [{ pen := 0, who := .cmd 1, vd := 0, target := 1, place := .own }] } }
     (s.penCmd q 2 = some c)
       ∧ (s.binding c.vd c.pen = some (.lease p false))
       ∧ ((s.penn p).st = .leased)
       ∧ (s.pen.regs = [{ pen := p, who := .cmd q2, vd := c.vd, target := (s.penn p).count.toNat + 1, place := .own }])
       ∧ (1 ≤ c.value)
       ∧ (q2 ≠ q)
       ∧ ((s.penn p).count.toNat + 1 < 2 ^ 48)
       ∧ (s.cmd? q2 = some d)
       ∧ (d.st = .queued))
    ∧ (let q : Nat := 0
     let c : Cmd := rd 3 [(0x16, 1)]
     let s : State := withC c
     (s.binding c.vd c.pen = none)
       ∧ (s.penCmd q 1 = some c))
    ∧ (let q : Nat := 0
     let c : Cmd := rd 3 [(0x16, 2)]
     let s : State := withC c
     (s.binding c.vd c.pen = none)
       ∧ (s.penCmd q 2 = some c))
    ∧ (let q : Nat := 0
     let c : Cmd := rd 3 [(0x16, 3)]
     let s : State := withC c
     (s.binding c.vd c.pen = none)
       ∧ (s.penCmd q 3 = some c))
    ∧ (let q : Nat := 0
     let c : Cmd := rd 3 [(0x16, 4)]
     let s : State := withC c
     (s.binding c.vd c.pen = none)
       ∧ (s.penCmd q 4 = some c)) :=
  ⟨by and_intros <;> decide +kernel,
   by and_intros <;> decide +kernel,
   by and_intros <;> decide +kernel,
   by and_intros <;> decide +kernel,
   by and_intros <;> decide +kernel,
   by and_intros <;> decide +kernel,
   by and_intros <;> decide +kernel,
   by and_intros <;> decide +kernel,
   by and_intros <;> decide +kernel,
   by and_intros <;> decide +kernel,
   by and_intros <;> decide +kernel,
   by and_intros <;> first | with_reducible rfl | decide +kernel,
   by and_intros <;> decide +kernel,
   by and_intros <;> decide +kernel,
   by and_intros <;> decide +kernel,
   by and_intros <;> decide +kernel,
   by and_intros <;> decide +kernel⟩

/-- States and operands that meet the hypotheses of Obligations.BlockServicesAdvanceByTheirBlocks, clause by clause (1 to 12 of 26). -/
theorem meets_BlockServicesAdvanceByTheirBlocks_1 :
    (let q : Nat := 0
     let n : Nat := 0
     let t : Task := { tk with cancel := true }
     let c : Cmd := rn 0x10 [] t
     let s : State := withC c
     (s.cmd? q = some c)
       ∧ (s.taskOn q c n = some t)
       ∧ (t.cancel = true)
       ∧ (c.opcode = 0x10))
    ∧ (let q : Nat := 0
     let n : Nat := 0
     let t : Task := { tk with cancel := true }
     let c : Cmd := rn 0x11 [] t
     let s : State := withC c
     (s.cmd? q = some c)
       ∧ (s.taskOn q c n = some t)
       ∧ (t.cancel = true)
       ∧ (c.opcode = 0x11))
    ∧ (let q : Nat := 0
     let n : Nat := 0
     let t : Task := { tk with cancel := true }
     let c : Cmd := rn 0x12 [] t
     let s : State := withC c
     (s.cmd? q = some c)
       ∧ (s.taskOn q c n = some t)
       ∧ (t.cancel = true)
       ∧ (c.opcode = 0x12))
    ∧ (let q : Nat := 0
     let n : Nat := 0
     let t : Task := { tk with cancel := true }
     let c : Cmd := rn 0x14 [] t
     let s : State := withC c
     (s.cmd? q = some c)
       ∧ (s.taskOn q c n = some t)
       ∧ (t.cancel = true)
       ∧ (c.opcode = 0x14))
    ∧ (let q : Nat := 0
     let n : Nat := 0
     let t : Task := { tk with cancel := true }
     let c : Cmd := rn 0x31 [] t
     let s : State := withC c
     (s.cmd? q = some c)
       ∧ (s.taskOn q c n = some t)
       ∧ (t.cancel = true)
       ∧ (c.opcode = 0x31))
    ∧ (let q : Nat := 0
     let n : Nat := 0
     let t : Task := { tk with cancel := true }
     let c : Cmd := rn 0x39 [] t
     let s : State := withC c
     (s.cmd? q = some c)
       ∧ (s.taskOn q c n = some t)
       ∧ (t.cancel = true)
       ∧ (c.opcode = 0x39))
    ∧ (let q : Nat := 0
     let n : Nat := 0
     let t : Task := { tk with cancel := true }
     let c : Cmd := rn 0x3A [] t
     let s : State := withC c
     (s.cmd? q = some c)
       ∧ (s.taskOn q c n = some t)
       ∧ (t.cancel = true)
       ∧ (c.opcode = 0x3A))
    ∧ (let q : Nat := 0
     let n : Nat := 0
     let o : Nat := 0
     let k : Nat := 64
     let total : Nat := 64
     let c : Cmd := rn 0x10 [(0x20, 4096), (0x28, 64)]
     let s : State := withP c
     let t : Task := tk
     let x : Ext := {}
     let b : Block := (State.copyF (c.who q) { slice := n } x (k / 32 + 2) ((c.ref 0x18).add o) ((c.ref 0x20).add o) k s.fresh).1
     let s1 : State := (State.copyF (c.who q) { slice := n } x (k / 32 + 2) ((c.ref 0x18).add o) ((c.ref 0x20).add o) k s.fresh).2
     (s.cmd? q = some c)
       ∧ (s.taskOn q c n = some t)
       ∧ (t.cancel = false)
       ∧ (s1.stall = [])
       ∧ (c.opcode = 0x10)
       ∧ (s.nextBlock t (c.ref 0x20) c.len3 = (o, k, total))
       ∧ (State.copyF (c.who q) { slice := n } x (k / 32 + 2) ((c.ref 0x18).add o) ((c.ref 0x20).add o) k s.fresh = (b, s1))
       ∧ (b.fault = none))
    ∧ (let q : Nat := 0
     let n : Nat := 0
     let o : Nat := 0
     let k : Nat := 64
     let total : Nat := 64
     let c : Cmd := rn 0x10 [(0x18, 2 ^ 21), (0x28, 64)]
     let s : State := withP c
     let t : Task := tk
     let x : Ext := {}
     let b : Block := (State.copyF (c.who q) { slice := n } x (k / 32 + 2) ((c.ref 0x18).add o) ((c.ref 0x20).add o) k s.fresh).1
     let st : Status := (b.fault.getD (.ok, 0)).1
     let a : Nat := (b.fault.getD (.ok, 0)).2
     let s1 : State := (State.copyF (c.who q) { slice := n } x (k / 32 + 2) ((c.ref 0x18).add o) ((c.ref 0x20).add o) k s.fresh).2
     (s.cmd? q = some c)
       ∧ (s.taskOn q c n = some t)
       ∧ (t.cancel = false)
       ∧ (s1.stall = [])
       ∧ (c.opcode = 0x10)
       ∧ (s.nextBlock t (c.ref 0x20) c.len3 = (o, k, total))
       ∧ (State.copyF (c.who q) { slice := n } x (k / 32 + 2) ((c.ref 0x18).add o) ((c.ref 0x20).add o) k s.fresh = (b, s1))
       ∧ (b.fault = some (st, a)))
    ∧ (let q : Nat := 0
     let n : Nat := 0
     let o : Nat := 0
     let k : Nat := 64
     let total : Nat := 64
     let c : Cmd := rn 0x11 [(0x20, 64)]
     let s : State := withP c
     let t : Task := tk
     let x : Ext := {}
     let s1 : State := (s.fresh.opWrite (c.who q) { slice := n } ((c.ref 0x18).add o) (pbytes (fillBytes (c.f 0x28 8) o k) false) x).2
     (s.cmd? q = some c)
       ∧ (s.taskOn q c n = some t)
       ∧ (t.cancel = false)
       ∧ (s1.stall = [])
       ∧ (c.opcode = 0x11)
       ∧ (s.nextBlock t (c.ref 0x18) (c.f 0x20 8) = (o, k, total))
       ∧ (s.fresh.opWrite (c.who q) { slice := n } ((c.ref 0x18).add o) (pbytes (fillBytes (c.f 0x28 8) o k) false) x = (none, s1)))
    ∧ (let q : Nat := 0
     let n : Nat := 0
     let o : Nat := 0
     let k : Nat := 64
     let total : Nat := 64
     let c : Cmd := rn 0x12 [(0x20, 4096), (0x28, 64)]
     let s : State := withP c
     let t : Task := tk
     let x : Ext := {}
     let xs : PBytes := List.replicate 64 (0, false)
     let ys : PBytes := List.replicate 64 (0, false)
     let s1 : State := (State.readMarked c.vd { slice := n } x (k / 32 + 2) ((c.ref 0x18).add o) k s.fresh).2
     let s2 : State := (State.readMarked c.vd { slice := n } x (k / 32 + 2) ((c.ref 0x20).add o) k s1).2
     (s.cmd? q = some c)
       ∧ (s.taskOn q c n = some t)
       ∧ (t.cancel = false)
       ∧ (s1.stall = [])
       ∧ (c.opcode = 0x12)
       ∧ (s.nextBlock t (c.ref 0x18) c.len3 = (o, k, total))
       ∧ (State.readMarked c.vd { slice := n } x (k / 32 + 2) ((c.ref 0x18).add o) k s.fresh = (.ok xs, s1))
       ∧ (State.readMarked c.vd { slice := n } x (k / 32 + 2) ((c.ref 0x20).add o) k s1 = (.ok ys, s2))
       ∧ (s2.stall = [])
       ∧ (s2.compareKey (c.ref 0x18) (c.ref 0x20) o xs ys = none))
    ∧ (let q : Nat := 0
     let n : Nat := 0
     let o : Nat := 0
     let k : Nat := 64
     let total : Nat := 64
     let c : Cmd := rn 0x12 [(0x20, 4096), (0x28, 64)]
     let s : State := { withP c with mem := [(4099, 7)] }
     let t : Task := tk
     let x : Ext := {}
     let xs : PBytes := List.replicate 64 (0, false)
     let ys : PBytes := (List.replicate 64 (0, false)).set 3 (7, false)
     let key : Nat := 7
     let s1 : State := (State.readMarked c.vd { slice := n } x (k / 32 + 2) ((c.ref 0x18).add o) k s.fresh).2
     let s2 : State := (State.readMarked c.vd { slice := n } x (k / 32 + 2) ((c.ref 0x20).add o) k s1).2
     (s.cmd? q = some c)
       ∧ (s.taskOn q c n = some t)
       ∧ (t.cancel = false)
       ∧ (s1.stall = [])
       ∧ (c.opcode = 0x12)
       ∧ (s.nextBlock t (c.ref 0x18) c.len3 = (o, k, total))
       ∧ (State.readMarked c.vd { slice := n } x (k / 32 + 2) ((c.ref 0x18).add o) k s.fresh = (.ok xs, s1))
       ∧ (State.readMarked c.vd { slice := n } x (k / 32 + 2) ((c.ref 0x20).add o) k s1 = (.ok ys, s2))
       ∧ (s2.stall = [])
       ∧ (s2.compareKey (c.ref 0x18) (c.ref 0x20) o xs ys = some key)) :=
  ⟨by and_intros <;> first | with_reducible rfl | decide +kernel,
   by and_intros <;> first | with_reducible rfl | decide +kernel,
   by and_intros <;> first | with_reducible rfl | decide +kernel,
   by and_intros <;> first | with_reducible rfl | decide +kernel,
   by and_intros <;> first | with_reducible rfl | decide +kernel,
   by and_intros <;> first | with_reducible rfl | decide +kernel,
   by and_intros <;> first | with_reducible rfl | decide +kernel,
   by and_intros <;> first | with_reducible rfl | decide +kernel,
   by and_intros <;> first | with_reducible rfl | decide +kernel,
   by and_intros <;> decide +kernel,
   by and_intros <;> decide +kernel,
   by and_intros <;> decide +kernel⟩

/-- States and operands that meet the hypotheses of Obligations.BlockServicesAdvanceByTheirBlocks, clause by clause (13 to 24 of 26). -/
theorem meets_BlockServicesAdvanceByTheirBlocks_2 :
    (let q : Nat := 0
     let n : Nat := 0
     let c : Cmd := rn 0x14 []
     let s : State := { withP c with mem := [(4099, 7)] }
     let t : Task := tk
     let s1 : State := live
     (s.cmd? q = some c)
       ∧ (s.taskOn q c n = some t)
       ∧ (t.cancel = false)
       ∧ (s1.stall = [])
       ∧ (c.opcode = 0x14)
       ∧ (c.len3 = 0))
    ∧ (let q : Nat := 0
     let n : Nat := 0
     let o : Nat := 0
     let k : Nat := 128
     let total : Nat := 128
     let c : Cmd := rn 0x14 [(0x20, 4096), (0x28, 128)]
     let s : State := withP c
     let t : Task := tk
     let x : Ext := {}
     let b : Block := (State.reduceF c q { slice := n } x (k / 128) o s.fresh).1
     let s1 : State := (State.reduceF c q { slice := n } x (k / 128) o s.fresh).2
     (s.cmd? q = some c)
       ∧ (s.taskOn q c n = some t)
       ∧ (t.cancel = false)
       ∧ (s1.stall = [])
       ∧ (c.opcode = 0x14)
       ∧ (c.len3 ≠ 0)
       ∧ (s.nextBlock t (c.ref 0x20) c.len3 = (o, k, total))
       ∧ (State.reduceF c q { slice := n } x (k / 128) o s.fresh = (b, s1))
       ∧ (b.fault = none))
    ∧ (let q : Nat := 0
     let n : Nat := 0
     let o : Nat := 0
     let k : Nat := 64
     let total : Nat := 64
     let c : Cmd := rn 0x31 [(0x28, 16)]
     let s : State := withPlan { kind := 0x31, buckets := [{}] } c
     let t : Task := tk
     let x : Ext := {}
     let s0 : State := (if (s.planOf c).acqBay = true ∧ t.pos = 0 then s.fresh.modSlice n fun y => { y with l1 := [] } else s.fresh)
     let b : Block := (State.updateF c q { slice := n } (s.planOf c) x ((s.planOf c).groupsIn o (o + k)).2 ((s.planOf c).groupsIn o (o + k)).1 s0).1
     let s1 : State := (State.updateF c q { slice := n } (s.planOf c) x ((s.planOf c).groupsIn o (o + k)).2 ((s.planOf c).groupsIn o (o + k)).1 s0).2
     (s.cmd? q = some c)
       ∧ (s.taskOn q c n = some t)
       ∧ (t.cancel = false)
       ∧ (s1.stall = [])
       ∧ (c.opcode = 0x31)
       ∧ (t.relDue = false)
       ∧ (s.nextBlock t (c.ref 0x18) (c.updateBytes (s.planOf c)) = (o, k, total))
       ∧ (s0 = (if (s.planOf c).acqBay = true ∧ t.pos = 0 then s.fresh.modSlice n fun y => { y with l1 := [] } else s.fresh))
       ∧ (State.updateF c q { slice := n } (s.planOf c) x ((s.planOf c).groupsIn o (o + k)).2 ((s.planOf c).groupsIn o (o + k)).1 s0 = (b, s1))
       ∧ (b.fault = none))
    ∧ (let q : Nat := 0
     let n : Nat := 0
     let c : Cmd := { rn 0x39 [(0x20, 8192)] with kv := [0] }
     let s : State := withPlan { kind := 0x39, buckets := [{}], nFixed := 16 } c
     let t : Task := tk
     let x : Ext := {}
     let base : Nat := c.kv.getLast?.getD 0 + c.pos / 2 ^ 24 * (s.planOf c).headBytes
     let slot : Nat := c.pos % 2 ^ 24 % 32
     let b : Block := (s.fresh.kvRow c q { slice := n } (s.planOf c) 0 (base + slot * ((s.planOf c).nFixed * (s.planOf c).a.bytes)) x).1
     let s1 : State := (s.fresh.kvRow c q { slice := n } (s.planOf c) 0 (base + slot * ((s.planOf c).nFixed * (s.planOf c).a.bytes)) x).2
     let b2 : Block := (s1.kvRow c q { slice := n } (s.planOf c) (rowBytes (s.planOf c).nFixed (s.planOf c).x) (base + (32 + slot) * ((s.planOf c).nFixed * (s.planOf c).a.bytes)) x).1
     let s2 : State := (s1.kvRow c q { slice := n } (s.planOf c) (rowBytes (s.planOf c).nFixed (s.planOf c).x) (base + (32 + slot) * ((s.planOf c).nFixed * (s.planOf c).a.bytes)) x).2
     (s.cmd? q = some c)
       ∧ (s.taskOn q c n = some t)
       ∧ (t.cancel = false)
       ∧ (s1.stall = [])
       ∧ (c.opcode = 0x39)
       ∧ (base = c.kv.getLast?.getD 0 + c.pos / 2 ^ 24 * (s.planOf c).headBytes)
       ∧ (slot = c.pos % 2 ^ 24 % 32)
       ∧ (s.fresh.kvRow c q { slice := n } (s.planOf c) 0 (base + slot * ((s.planOf c).nFixed * (s.planOf c).a.bytes)) x = (b, s1))
       ∧ (b.fault = none)
       ∧ (s1.kvRow c q { slice := n } (s.planOf c) (rowBytes (s.planOf c).nFixed (s.planOf c).x) (base + (32 + slot) * ((s.planOf c).nFixed * (s.planOf c).a.bytes)) x = (b2, s2))
       ∧ (b2.fault = none)
       ∧ (s2.stall = []))
    ∧ (let q : Nat := 0
     let n : Nat := 0
     let c : Cmd := { rn 0x3A [(0x20, 8192)] with kv := [0] }
     let s : State := withPlan { kind := 0x3A, buckets := [{}], nFixed := 16 } c
     let t : Task := tk
     let x : Ext := {}
     let s0 : State := (if (s.planOf c).acqBay = true ∧ t.pos = 0 then s.fresh.modSlice n fun y => { y with l1 := [] } else s.fresh)
     let b : Block := (s0.attnPage c q n (t.units.headD 0) x).1
     let s1 : State := (s0.attnPage c q n (t.units.headD 0) x).2
     (s.cmd? q = some c)
       ∧ (s.taskOn q c n = some t)
       ∧ (t.cancel = false)
       ∧ (s1.stall = [])
       ∧ (c.opcode = 0x3A)
       ∧ (t.relDue = false)
       ∧ (s0 = (if (s.planOf c).acqBay = true ∧ t.pos = 0 then s.fresh.modSlice n fun y => { y with l1 := [] } else s.fresh))
       ∧ (s0.attnPage c q n (t.units.headD 0) x = (b, s1))
       ∧ (b.fault = none))
    ∧ (let q : Nat := 0
     let n : Nat := 0
     let c : Cmd := { rn 0x13 [] with old := some (some 7) }
     let s : State := { withP c with mem := [(4099, 7)] }
     let t : Task := tk
     let v : Option Nat := some 7
     (s.cmd? q = some c)
       ∧ (s.taskOn q c n = some t)
       ∧ (t.cancel = false)
       ∧ (c.opcode = 0x13)
       ∧ (c.old = some v))
    ∧ (let q : Nat := 0
     let n : Nat := 0
     let c : Cmd := rn 0x13 []
     let s : State := { withP c with mem := [(4099, 7)] }
     let t : Task := tk
     let a : Nat := 0
     let x : Ext := {}
     let ga : Nat := 0
     let s1 : State := (s.fresh.translate c.vd a (decide (c.atop ≠ 0)) { x with via := 8 + n }).2
     let u : State := (s1.lineAtom (ga / 128) (ga % 128) c { c.who q with va := a, slice := some n } x.pick).atomTake q n c.width
     (s.cmd? q = some c)
       ∧ (s.taskOn q c n = some t)
       ∧ (t.cancel = false)
       ∧ (c.opcode = 0x13)
       ∧ (c.old = none)
       ∧ (s.atomOut q = false)
       ∧ (c.ref 0x18 = .va a)
       ∧ (s.fresh.translate c.vd a (decide (c.atop ≠ 0)) { x with via := 8 + n } = (.ok ga, s1))
       ∧ (u = (s1.lineAtom (ga / 128) (ga % 128) c { c.who q with va := a, slice := some n } x.pick).atomTake q n c.width)
       ∧ (u.stall = []))
    ∧ (let q : Nat := 0
     let n : Nat := 0
     let c : Cmd := rn 0x13 []
     let s : State := { withC c with slices := homeS.slices }
     let t : Task := tk
     let w : Who := { vd := 0, cmd := some 0 }
     let n' : Nat := 0
     let gl : Nat := 0
     let k : Nat := 0
     let off : Nat := 0
     let f : Frame := homeF
     (s.HomeIdle n' gl k f)
       ∧ (s.cmd? q = some c)
       ∧ (w.cmd = some q)
       ∧ (w.errRec = false)
       ∧ (c.old = none)
       ∧ (bit f.p.toNat (off / 32) = false))
    ∧ (let s : State := { live with img := { imgT with pools := [(0, { kind := 1, size := 4, classes := [12] })], bays := [(0, { kind := 1 })] }, hop := { recs := [(0, { st := .live })], bayMap := [(0, 0)] } }
     let h : Nat := 0
     let o : Nat := 126
     let i : Nat := 1
     let a : Nat := s.poolByte (handlePool h) (s.blkOff h o / 128 * 128)
     let bs : List Byte := [1, 2]
     (o + bs.length ≤ s.blkSize h)
       ∧ (s.blkOff h o % 128 + bs.length ≤ 128)
       ∧ ((s.hpool (handlePool h)).kind = 1)
       ∧ (a = s.poolByte (handlePool h) (s.blkOff h o / 128 * 128))
       ∧ (a % 128 = 0)
       ∧ (poisonAt s.bayPoison a = 0)
       ∧ (s.blockAsleep (handlePool h) (s.blkOff h o) 1 = false)
       ∧ (Tab.wf s.bays = true)
       ∧ (i < bs.length))
    ∧ (let s : State := { live with img := { imgT with pools := [(0, { kind := 1, size := 4, classes := [12] })], bays := [(0, { kind := 1 })] }, hop := { recs := [(0, { st := .live })], bayMap := [(0, 0)] } }
     let h : Nat := 0
     let o : Nat := 126
     let a : Nat := s.poolByte (handlePool h) (s.blkOff h o / 128 * 128)
     let bs : List Byte := [1, 2]
     let e : Nat := 125
     (o + bs.length ≤ s.blkSize h)
       ∧ (s.blkOff h o % 128 + bs.length ≤ 128)
       ∧ ((s.hpool (handlePool h)).kind = 1)
       ∧ (a = s.poolByte (handlePool h) (s.blkOff h o / 128 * 128))
       ∧ (a % 128 = 0)
       ∧ (poisonAt s.bayPoison a = 0)
       ∧ (s.blockAsleep (handlePool h) (s.blkOff h o) 1 = false)
       ∧ (Tab.wf s.bays = true)
       ∧ (e < a + s.blkOff h o % 128 ∨ a + s.blkOff h o % 128 + bs.length ≤ e))
    ∧ (let n : Nat := 5
     let i : Nat := 4
     (i < n))
    ∧ (let q : Nat := 0
     let n : Nat := 0
     let t : Task := { tk with relDue := true }
     let c : Cmd := rn 0x31 [] t
     let s : State := withC c
     (s.cmd? q = some c)
       ∧ (s.taskOn q c n = some t)
       ∧ (t.cancel = false)
       ∧ (t.relDue = true)
       ∧ (c.opcode = 0x31)) :=
  ⟨by and_intros <;> decide +kernel,
   by and_intros <;> first | with_reducible rfl | decide +kernel,
   by and_intros <;> first | with_reducible rfl | decide +kernel,
   by and_intros <;> first | with_reducible rfl | decide +kernel,
   by and_intros <;> first | with_reducible rfl | decide +kernel,
   by and_intros <;> first | with_reducible rfl | decide +kernel,
   by and_intros <;> first | with_reducible rfl | decide +kernel,
   by and_intros <;> first | with_reducible rfl | decide +kernel,
   by and_intros <;> first | with_reducible rfl | decide +kernel,
   by and_intros <;> first | with_reducible rfl | decide +kernel,
   by decide +kernel,
   by and_intros <;> first | with_reducible rfl | decide +kernel⟩

/-- States and operands that meet the hypotheses of Obligations.BlockServicesAdvanceByTheirBlocks, clause by clause (25 to 26 of 26). -/
theorem meets_BlockServicesAdvanceByTheirBlocks_3 :
    (let q : Nat := 0
     let n : Nat := 0
     let t : Task := { tk with relDue := true }
     let c : Cmd := rn 0x3A [] t
     let s : State := withC c
     (s.cmd? q = some c)
       ∧ (s.taskOn q c n = some t)
       ∧ (t.cancel = false)
       ∧ (t.relDue = true)
       ∧ (c.opcode = 0x3A))
    ∧ (let q : Nat := 0
     let n : Nat := 0
     let c : Cmd := rn 0x10 []
     let s : State := withC c
     let t : Task := tk
     (s.cmd? q = some c)
       ∧ (c.runningOn n = some t)
       ∧ (s.released q = true)) :=
  ⟨by and_intros <;> first | with_reducible rfl | decide +kernel,
   by and_intros <;> decide +kernel⟩

/-- States and operands that meet the hypotheses of Obligations.RunnersLoadAccumulateSpillAndDrainTiles, clause by clause. -/
theorem meets_RunnersLoadAccumulateSpillAndDrainTiles :
    (let q : Nat := 0
     let n : Nat := 0
     let c : Cmd := rn 0x30 []
     let s : State := withPlan planT c
     let t : Task := tk
     (s.runners.find n = none)
       ∧ (s.cmd? q = some c)
       ∧ (s.taskOn q c n = some t)
       ∧ (t.cancel = false)
       ∧ (t.relDue = false)
       ∧ (c.opcode = 0x30))
    ∧ (let q : Nat := 0
     let n : Nat := 0
     let c : Cmd := rn 0x38 []
     let s : State := withPlan planT c
     let t : Task := tk
     (s.runners.find n = none)
       ∧ (s.cmd? q = some c)
       ∧ (s.taskOn q c n = some t)
       ∧ (t.cancel = false)
       ∧ (t.relDue = false)
       ∧ (c.opcode = 0x38))
    ∧ (let q : Nat := 0
     let n : Nat := 0
     let t : Task := { tk with relDue := true }
     let c : Cmd := rn 0x30 [] t
     let s : State := withPlan planT c
     (s.runners.find n = none)
       ∧ (s.cmd? q = some c)
       ∧ (s.taskOn q c n = some t)
       ∧ (t.cancel = false)
       ∧ (t.relDue = true)
       ∧ (c.opcode = 0x30))
    ∧ (let q : Nat := 0
     let n : Nat := 0
     let c : Cmd := rn 0x30 [(0x34, 16), (0x30, 1), (0x38, 1)]
     let t : Task := tk
     let y : BayTile := { m0 := 0, rows := 1, n0 := 0, cols := 1, k0 := 0, kEnd := 16 }
     let l : LocTile := { m0 := 0, rows := 1, n0 := 0, cols := 1, k0 := 0, kEnd := 16 }
     let r : Runner := { cmd := 0, bay := 0 }
     let s : State := { withPlan planT c with runners := [(0, r)] }
     let x : Ext := {}
     let as : List RdOut := (s.fresh.loadA c (s.planOf c) n l.m0 l.rows l.k0 l.kEnd x).1
     let s1 : State := (s.fresh.loadA c (s.planOf c) n l.m0 l.rows l.k0 l.kEnd x).2
     let xs : List RdOut := (s1.loadXs c (s.planOf c) n l.n0 l.cols l.k0 l.kEnd x).1
     let s2 : State := (s1.loadXs c (s.planOf c) n l.n0 l.cols l.k0 l.kEnd x).2
     (s.runnerOn n 0x30 = some (r, c, t))
       ∧ ((s.bayTiles c t)[r.bay]? = some y)
       ∧ (r.next = 0)
       ∧ (r.loaded = [])
       ∧ (r.xin = [])
       ∧ (((s.bucketOf c).locTiles y)[0]? = some l)
       ∧ (s.xFrom r.cmd n = .mem)
       ∧ (s.fresh.loadA c (s.planOf c) n l.m0 l.rows l.k0 l.kEnd x = (as, s1))
       ∧ (s1.loadXs c (s.planOf c) n l.n0 l.cols l.k0 l.kEnd x = (xs, s2))
       ∧ (s2.stall = []))
    ∧ (let n : Nat := 0
     let c : Cmd := rn 0x30 [(0x34, 16), (0x30, 1), (0x38, 1)]
     let t : Task := tk
     let y : BayTile := { m0 := 0, rows := 1, n0 := 0, cols := 1, k0 := 0, kEnd := 16 }
     let l : LocTile := { m0 := 0, rows := 1, n0 := 0, cols := 1, k0 := 0, kEnd := 16 }
     let lt : LocalTile := { loc := 0, a := [{ bytes := List.replicate 16 1 }], x := [{ bytes := List.replicate 16 2 }] }
     let r : Runner := { cmd := 0, bay := 0, next := 1, loaded := [lt] }
     let s : State := { withPlan planT c with runners := [(0, r)] }
     let v : Visit := { loc := 0, m0 := 0, rows := 1, n0 := 0, cols := 1, k0 := 0, kEnd := 16, last := true }
     (s.runnerOn n 0x30 = some (r, c, t))
       ∧ (t.cancel = false)
       ∧ (r.cur = none)
       ∧ ((s.stepsOf r c t)[r.visit]? = some v)
       ∧ ((s.bayTiles c t)[r.bay]? = some y)
       ∧ (r.loaded = [lt])
       ∧ (lt.loc = v.loc)
       ∧ (((s.bucketOf c).locTiles y)[v.loc]? = some l)
       ∧ ((lt.operands l v).fault = none)
       ∧ (r.live.find (tileKey v.m0 v.n0) = none))
    ∧ (let n : Nat := 0
     let c : Cmd := rn 0x30 [(0x34, 16), (0x30, 1), (0x38, 1)]
     let t : Task := tk
     let y : BayTile := { m0 := 0, rows := 1, n0 := 0, cols := 1, k0 := 0, kEnd := 16 }
     let l : LocTile := { m0 := 0, rows := 1, n0 := 0, cols := 1, k0 := 0, kEnd := 16 }
     let lt : LocalTile := { loc := 0, a := [{ fault := some (.badAddress, 7) }], x := [{ bytes := List.replicate 16 2 }] }
     let r : Runner := { cmd := 0, bay := 0, next := 1, loaded := [lt] }
     let s : State := { withPlan planT c with runners := [(0, r)] }
     let v : Visit := { loc := 0, m0 := 0, rows := 1, n0 := 0, cols := 1, k0 := 0, kEnd := 16, last := true }
     let st : Status := .badAddress
     let a : Nat := 7
     (s.runnerOn n 0x30 = some (r, c, t))
       ∧ (t.cancel = false)
       ∧ (r.cur = none)
       ∧ ((s.stepsOf r c t)[r.visit]? = some v)
       ∧ ((s.bayTiles c t)[r.bay]? = some y)
       ∧ (r.loaded = [lt])
       ∧ (lt.loc = v.loc)
       ∧ (((s.bucketOf c).locTiles y)[v.loc]? = some l)
       ∧ ((lt.operands l v).fault = some (st, a))
       ∧ (r.shadow = none))
    ∧ (let n : Nat := 0
     let c : Cmd := rn 0x30 [(0x34, 16), (0x30, 1), (0x38, 1)]
     let t : Task := tk
     let y : Active := { phase := .spill false, m0 := 0, n0 := 0, rows := 1, cols := 1, k := 16, kEnd := 16, acc := [5] }
     let r : Runner := { cmd := 0, bay := 0, cur := some y }
     let s : State := { withPlan planT c with runners := [(0, r)] }
     (s.runnerOn n 0x30 = some (r, c, t))
       ∧ (r.cur = some y)
       ∧ (y.phase = .spill false)
       ∧ (y.spilled = false)
       ∧ ((s.planOf c).intAcc = true)
       ∧ ((s.planOf c).ovfSaturate = false))
    ∧ (let n : Nat := 0
     let c : Cmd := rn 0x30 [(0x34, 16), (0x30, 1), (0x38, 1)]
     let t : Task := tk
     let y : Active := { phase := .swap, m0 := 0, n0 := 0, rows := 1, cols := 1, k := 16, kEnd := 16, acc := [5], poison := true }
     let r : Runner := { cmd := 0, bay := 0, cur := some y }
     let s : State := { withPlan planT c with runners := [(0, r)] }
     (s.runnerOn n 0x30 = some (r, c, t))
       ∧ (r.cur = some y)
       ∧ (y.phase = .swap)
       ∧ (r.shadow = none)
       ∧ (t.cancel = false)
       ∧ (y.poison = true))
    ∧ (let n : Nat := 0
     let c : Cmd := rn 0x30 [(0x28, 4096), (0x34, 16), (0x30, 1), (0x38, 1)]
     let t : Task := tk
     let sh : Shadow := { m0 := 0, n0 := 0, rows := 1, cols := 1, vals := [5], adj := 0, sat := false, poison := false }
     let r : Runner := { cmd := 0, bay := 0, shadow := some sh, cur := some { m0 := 0, n0 := 0, rows := 1, cols := 1, k := 16, kEnd := 16, acc := [] } }
     let s : State := { withPlan planT c with runners := [(0, r)] }
     let x : Ext := {}
     let b : Block := (s.fresh.drainTile c r.cmd n sh x).1
     let s1 : State := (s.fresh.drainTile c r.cmd n sh x).2
     (s.runners.find n = some r)
       ∧ (s.cmd? r.cmd = some c)
       ∧ (r.shadow = some sh)
       ∧ (s.taskOn r.cmd c n = some t)
       ∧ ((s.planOf c).ksplit = 0)
       ∧ (s.fresh.drainTile c r.cmd n sh x = (b, s1))
       ∧ (s1.stall = [])
       ∧ (b.fault = none)
       ∧ (r.stop = none)
       ∧ (r.cur ≠ none))
    ∧ (let p : Plan := planT
     (p.intAcc = true)) :=
  ⟨by and_intros <;> decide +kernel,
   by and_intros <;> decide +kernel,
   by and_intros <;> first | with_reducible rfl | decide +kernel,
   by and_intros <;> first | with_reducible rfl | decide +kernel,
   by and_intros <;> first | with_reducible rfl | decide +kernel,
   by and_intros <;> first | with_reducible rfl | decide +kernel,
   by and_intros <;> first | with_reducible rfl | decide +kernel,
   by and_intros <;> first | with_reducible rfl | decide +kernel,
   by and_intros <;> first | with_reducible rfl | decide +kernel,
   by decide +kernel⟩

/-- States and operands that meet the hypotheses of Obligations.FlumesAndRacesGrantInOrder, clause by clause. -/
theorem meets_FlumesAndRacesGrantInOrder :
    (let die : Nat := 0
     let g : FlumeRun := { cmd := 0, vd := 0, reduce := true, slices := [0], anchor := 0 }
     let c : Cmd := rn 0x30 []
     let s : State := { withPlan planT c with flume := [(0, { waiting := [g] })] }
     ((s.flumeOf die).run = none)
       ∧ ((s.flumeOf die).waiting = [g])
       ∧ ((s.flumeOf die).arb = {})
       ∧ (s.runAlive g = true))
    ∧ (let die : Nat := 0
     let g : FlumeRun := { cmd := 0, vd := 0, reduce := false, slices := [0], anchor := 0, supply := [[]] }
     let c : Cmd := rn 0x30 [(0x34, 16), (0x30, 1), (0x38, 1)]
     let fr : FlumeRec := { reduce := false, period := 4, variants := [] }
     let s : State := { withPlan { planT with flume := 0 } c with img := { imgT with plans := [(0, { planT with flume := 0 })], flumes := [(0, fr)] }, flume := [(0, { run := some g })] }
     let s1 : State := s.multicastPeriod die g c (fr.variant g.anchor)
     ((s.flumeOf die).run = some g)
       ∧ (s.cmd? g.cmd = some c)
       ∧ (s.img.flumes.find (s.planOf c).flume = some fr)
       ∧ (s.runStarted g c = true)
       ∧ (s.runBroken die g = false)
       ∧ ((g.reduce = true ∧ ((List.range ((s.planOf c).parts (s.bucketOf c) c.mK)).all fun i => (s.supplyOf die g c i).isSome) = true ∧ s1 = s.reducePeriod die g c fr.fmt (fr.variant g.anchor)) ∨ (g.reduce = false ∧ g.supply ≠ [] ∧ ((s.receivers die g).any fun n => decide (s.wantsX c n = some false)) = false ∧ s1 = s.multicastPeriod die g c (fr.variant g.anchor))))
    ∧ (let die : Nat := 0
     let g : FlumeRun := { cmd := 0, vd := 0, reduce := false, slices := [0], anchor := 0, periods := 100 }
     let c : Cmd := rn 0x30 [(0x34, 16), (0x30, 1), (0x38, 1)]
     let s : State := { withPlan { planT with flume := 0 } c with flume := [(0, { run := some g })] }
     ((s.flumeOf die).run = some g)
       ∧ (0 < g.periods)
       ∧ (g.total ≤ g.periods))
    ∧ (let s : State := live
     let race : Nat := 8
     let out : Nat := 7
     let m : RaceMsg := { cls := 4, inp := 3, out := 7, traffic := .offDie }
     (s.races.getD race {} = {})
       ∧ (8 ≤ race ∨ (s.die race).st = .active)
       ∧ (s.racePort race out = true)
       ∧ (s.racePort race m.inp = true)
       ∧ (m.carried race = true)
       ∧ (m.cls < 5)
       ∧ (m.out = out))
    ∧ (let r : Race := {}
     let out : Nat := 7
     let ms : List RaceMsg := [{ cls := 0, inp := 3 }, { cls := 4, inp := 2 }]
     let k : RaceMsg := { cls := 0, inp := 3 }
     let r1 : Race := ((r.choose out ms).getD (k, {})).2
     let m : RaceMsg := k
     (∀ c, r.higher.getD (out * 8 + c) 0 < 16)
       ∧ (r.choose out ms = some (m, r1))
       ∧ (k ∈ ms)) :=
  ⟨by and_intros <;> decide +kernel,
   by and_intros <;> decide +kernel,
   by and_intros <;> decide +kernel,
   by and_intros <;> first | with_reducible rfl | decide +kernel,
   (by
      and_intros
      · intro c; exact (by decide : (0 : Nat) < 16)
      all_goals first | with_reducible rfl | decide +kernel)⟩

/-- States and operands that meet the hypotheses of Obligations.HyhanLinksTrainRecoverAndFall, clause by clause (1 to 12 of 22). -/
theorem meets_HyhanLinksTrainRecoverAndFall_1 :
    (let s : State := poolS { st := .detect }
     let p : Nat := 0
     let lanes : Nat := 0x81
     ((s.hylPort p).st = .detect)
       ∧ (2 ≤ popCount 8 lanes))
    ∧ (let s : State := poolS { st := .train, seen := (List.range 8).map fun i => (i, 8), sentSeen := (List.range 8).map fun i => (i, 8) }
     let p : Nat := 0
     let lanes : Nat := 511
     let ok : Nat := 253
     let s0 : State := s.linkSync
     let up : Nat := packBits 8 (fun l => bit (lanes % 256 &&& (255 ^^^ ((s0.hylPort p).retired &&& 255))) l && (s0.hylPort p).laneSeen l)
     (s0 = s.linkSync)
       ∧ ((s0.hylPort p).st = .train)
       ∧ (up = packBits 8 (fun l => bit (lanes % 256 &&& (255 ^^^ ((s0.hylPort p).retired &&& 255))) l && (s0.hylPort p).laneSeen l))
       ∧ (2 ≤ popCount 8 up))
    ∧ (let s : State := poolS { st := .train }
     let p : Nat := 0
     let lanes : Nat := 511
     let ok : Nat := 253
     let s0 : State := s.linkSync
     let up : Nat := packBits 8 (fun l => bit (lanes % 256 &&& (255 ^^^ ((s0.hylPort p).retired &&& 255))) l && (s0.hylPort p).laneSeen l)
     (s0 = s.linkSync)
       ∧ ((s0.hylPort p).st = .train)
       ∧ (up = packBits 8 (fun l => bit (lanes % 256 &&& (255 ^^^ ((s0.hylPort p).retired &&& 255))) l && (s0.hylPort p).laneSeen l))
       ∧ (popCount 8 up < 2))
    ∧ (let s : State := poolS { st := .config }
     let p : Nat := 0
     let b : TrainBlock := blockB
     let bs : List Byte := bytesB
     let lane : Nat := 1
     let s0 : State := s.linkSync.sendBlock p lane b.lane true
     (readBlock bs = some b)
       ∧ (s0 = s.linkSync.sendBlock p lane b.lane true)
       ∧ ((s0.hylPort p).st = .train ∨ (s0.hylPort p).st = .config))
    ∧ (let s : State := poolS { l0 with st := .down }
     let p : Nat := 0
     let bs : List Byte := []
     (readBlock bs = none))
    ∧ (let s : State := poolS { st := .config }
     let s0 : State := s.linkSync
     let p : Nat := 0
     let b : TrainBlock := {}
     let t : State := s.sendBlock p lane num seen
     (t = s.sendBlock p lane num seen)
       ∧ ((s.hylPort p).st = .train ∨ (s.hylPort p).st = .config ∨ (s.hylPort p).st = .recovery ∨ (s.hylPort p).st = .widthChange)
       ∧ (Tab.wf (s.hylPort p).eqReq = true))
    ∧ (let s : State := { live with pol := { polT with hylEqHold := 255 } }
     let p : Nat := 7
     let asks : Bool := false
     let hold : Bool := true
     (hold = true))
    ∧ (let s : State := poolS { st := .config, trained := 255, peerUsable := 255, seen := (List.range 8).map fun i => (i, 8), sentSeen := (List.range 8).map fun i => (i, 8) }
     let p : Nat := 0
     let set : Nat := 255
     let s0 : State := s.linkSync
     (s0 = s.linkSync)
       ∧ ((s0.hylPort p).st = .config)
       ∧ ((s0.hylPort p).tx = [])
       ∧ (chooseSet 255 ((s0.hylPort p).trained &&& (s0.hylPort p).peerUsable &&& (255 ^^^ ((s0.hylPort p).retired &&& 255))) = some set)
       ∧ ((s0.hylPort p).blocksSeen set = true))
    ∧ (let s : State := poolS l0
     let s0 : State := s.linkSync
     let p : Nat := 0
     let lane : Nat := 7
     (s0 = s.linkSync)
       ∧ ((s.hylPort p).st = .l0)
       ∧ ((s0.hylPort p).recEnd = none)
       ∧ (bit (s.hylPort p).active lane = true))
    ∧ (let s : State := poolS { l0 with recEnd := some 5000000000, lastAttempt := 3 }
     let s0 : State := s.linkSync
     let p : Nat := 0
     let lane : Nat := 7
     let e : Nat := 5000000000
     (s0 = s.linkSync)
       ∧ ((s.hylPort p).st = .l0)
       ∧ ((s0.hylPort p).recEnd = some e)
       ∧ (s0.now < e + 10 ^ 6)
       ∧ ((s0.hylPort p).lastAttempt = 3)
       ∧ (bit (s.hylPort p).active lane = true))
    ∧ (let s : State := poolS { l0 with st := .recovery, attempt := 2 }
     let p : Nat := 0
     ((s.hylPort p).st = .recovery)
       ∧ ((s.hylPort p).attempt < 3))
    ∧ (let s : State := poolS { l0 with st := .recovery, attempt := 3 }
     let p : Nat := 0
     ((s.hylPort p).st = .recovery)
       ∧ ((s.hylPort p).attempt = 3)) :=
  ⟨by and_intros <;> decide +kernel,
   by and_intros <;> first | with_reducible rfl | decide +kernel,
   by and_intros <;> first | with_reducible rfl | decide +kernel,
   (by
      and_intros
      · exact test_block_B
      all_goals first | with_reducible rfl | decide +kernel),
   test_no_block,
   by and_intros <;> first | with_reducible rfl | decide +kernel,
   by with_reducible rfl,
   by and_intros <;> first | with_reducible rfl | decide +kernel,
   by and_intros <;> first | with_reducible rfl | decide +kernel,
   by and_intros <;> first | with_reducible rfl | decide +kernel,
   by and_intros <;> decide +kernel,
   by and_intros <;> decide +kernel⟩

/-- States and operands that meet the hypotheses of Obligations.HyhanLinksTrainRecoverAndFall, clause by clause (13 to 22 of 22). -/
theorem meets_HyhanLinksTrainRecoverAndFall_2 :
    (let n : Nat := 3
     (n ≤ 3))
    ∧ (let s : State := poolS { l0 with st := .l1d }
     let p : Nat := 0
     ((s.hylPort p).st = .widthChange ∨ (s.hylPort p).st = .l1 ∨ (s.hylPort p).st = .l1d))
    ∧ (let s : State := poolS { l0 with st := .recovery, nextTx := 7, seen := (List.range 8).map fun i => (i, 8), sentSeen := (List.range 8).map fun i => (i, 8) }
     let p : Nat := 0
     let lane : Nat := 1
     let n : Nat := 7
     let b : TrainBlock := blockB
     let set : Nat := 255
     let bs : List Byte := bytesB
     let s0 : State := s.linkSync.sendBlock p lane b.lane true
     let s1 : State := s0.modHyl p (fun x => x.heard (bit s0.pol.hylEqHold p) lane b)
     (readBlock bs = some b)
       ∧ (s0 = s.linkSync.sendBlock p lane b.lane true)
       ∧ ((s0.hylPort p).st = .recovery)
       ∧ (s1 = s0.modHyl p (fun x => x.heard (bit s0.pol.hylEqHold p) lane b))
       ∧ (b.retrain = true)
       ∧ ((s0.hylPort p).own = false)
       ∧ ((s1.hylPort p).peerNext = some n)
       ∧ (chooseSet (s1.hylPort p).active ((s1.hylPort p).trained &&& (s1.hylPort p).peerUsable &&& (255 ^^^ ((s1.hylPort p).retired &&& 255))) = some set)
       ∧ ((s1.hylPort p).blocksSeen set = true)
       ∧ ((s1.hylPort p).inRange n = true))
    ∧ (let s : State := poolS { l0 with st := .recovery, nextTx := 9, seen := (List.range 8).map fun i => (i, 8), sentSeen := (List.range 8).map fun i => (i, 8) }
     let p : Nat := 0
     let lane : Nat := 1
     let n : Nat := 7
     let b : TrainBlock := blockB
     let set : Nat := 255
     let bs : List Byte := bytesB
     let s0 : State := s.linkSync.sendBlock p lane b.lane true
     let s1 : State := s0.modHyl p (fun x => x.heard (bit s0.pol.hylEqHold p) lane b)
     (readBlock bs = some b)
       ∧ (s0 = s.linkSync.sendBlock p lane b.lane true)
       ∧ ((s0.hylPort p).st = .recovery)
       ∧ (s1 = s0.modHyl p (fun x => x.heard (bit s0.pol.hylEqHold p) lane b))
       ∧ (b.retrain = true)
       ∧ ((s0.hylPort p).own = false)
       ∧ ((s1.hylPort p).peerNext = some n)
       ∧ (chooseSet (s1.hylPort p).active ((s1.hylPort p).trained &&& (s1.hylPort p).peerUsable &&& (255 ^^^ ((s1.hylPort p).retired &&& 255))) = some set)
       ∧ ((s1.hylPort p).blocksSeen set = true)
       ∧ ((s1.hylPort p).inRange n = false))
    ∧ (let s : State := poolS { l0 with st := .down }
     let p : Nat := 0
     ((s.hylPort p).st = .down))
    ∧ (let s : State := poolS l0
     let p : Nat := 0
     let x : HylPort := s.hylPort p
     (s.linkSync = s)
       ∧ (x = s.hylPort p)
       ∧ (x.st = .l0)
       ∧ (x.tx = [])
       ∧ (x.hello = none))
    ∧ (let s : State := { live with pol := { polT with hylEqHold := 255 } }
     let p : Nat := 7
     let asks : Bool := true
     (asks = true)
       ∧ (bit s.pol.hylEqHold p = true))
    ∧ (let s : State := live
     let p : Nat := 7
     let asks : Bool := true
     let lane : Nat := 0
     (asks = true)
       ∧ (bit s.pol.hylEqHold p = false)
       ∧ ((s.hylPort p).eqAt.find lane = none))
    ∧ (let p : Nat := 7
     let asks : Bool := true
     let lane : Nat := 0
     let t : Nat := live.now - 10
     let s : State := { live with hyl := [(7, { eqAt := [(0, t)] })] }
     (asks = true)
       ∧ (bit s.pol.hylEqHold p = false)
       ∧ ((s.hylPort p).eqAt.find lane = some t)
       ∧ (s.now < t + 10 ^ 6))
    ∧ (let s : State := { live with pol := { polT with hylEqHold := 255 } }
     let p : Nat := 7
     let asks : Bool := false
     (asks = false)) :=
  ⟨by with_reducible rfl,
   by decide +kernel,
   (by
      and_intros
      · exact test_block_B
      all_goals first | with_reducible rfl | decide +kernel),
   (by
      and_intros
      · exact test_block_B
      all_goals first | with_reducible rfl | decide +kernel),
   by decide +kernel,
   by and_intros <;> first | with_reducible rfl | decide +kernel,
   by and_intros <;> first | with_reducible rfl | decide +kernel,
   by and_intros <;> first | with_reducible rfl | decide +kernel,
   by and_intros <;> first | with_reducible rfl | decide +kernel,
   by with_reducible rfl⟩

/-- States and operands that meet the hypotheses of Obligations.FlitsReplaysWidthsAndLowPower, clause by clause (1 to 12 of 24). -/
theorem meets_FlitsReplaysWidthsAndLowPower_1 :
    (let s : State := poolS l0
     let p : Nat := 0
     let w : FlitWire := wireA
     let f : LinkFlit := flitA
     let s0 : State := s.linkSync
     let s1 : State := s0.modHyl p (fun x => { x with rxScr := scrFlit x.active x.rxScr })
     let s4 : State := (s1.modHyl p fun x => { x with held := x.acked f.ack, credits := f.credit.foldl (fun t c => if c.1 < 5 then t.setD c.1 0 (min (fullCredits.getD c.1 0) (t.getD c.1 0 + c.2)) else t) x.credits }).pump p
     let d : Nat := (f.seq + 4096 - (s4.hylPort p).nextRx) % 4096
     let g : SlotRead := f.deliveries (s4.hylPort p).part
     (s0 = s.linkSync)
       ∧ ((s0.hylPort p).st = .l0)
       ∧ (s1 = s0.modHyl p (fun x => { x with rxScr := scrFlit x.active x.rxScr }))
       ∧ (f = readFlit (s0.hylPort p).active (s0.hylPort p).rxScr (fixPolarity (s0.hylPort p).inverted w))
       ∧ (f.fixed = [])
       ∧ (f.pass = true)
       ∧ (f.kind = 1)
       ∧ (f.first ≠ 14)
       ∧ (f.nak = false)
       ∧ (s4 = (s1.modHyl p fun x => { x with held := x.acked f.ack, credits := f.credit.foldl (fun t c => if c.1 < 5 then t.setD c.1 0 (min (fullCredits.getD c.1 0) (t.getD c.1 0 + c.2)) else t) x.credits }).pump p)
       ∧ (d = (f.seq + 4096 - (s4.hylPort p).nextRx) % 4096)
       ∧ (g = f.deliveries (s4.hylPort p).part)
       ∧ (d = 0)
       ∧ (g.bad = false))
    ∧ (let s : State := poolS l0
     let p : Nat := 0
     let w : FlitWire := wireB
     let f : LinkFlit := flitB
     let s0 : State := s.linkSync
     let s1 : State := s0.modHyl p (fun x => { x with rxScr := scrFlit x.active x.rxScr })
     let s4 : State := (s1.modHyl p fun x => { x with held := x.acked f.ack, credits := f.credit.foldl (fun t c => if c.1 < 5 then t.setD c.1 0 (min (fullCredits.getD c.1 0) (t.getD c.1 0 + c.2)) else t) x.credits }).pump p
     let d : Nat := (f.seq + 4096 - (s4.hylPort p).nextRx) % 4096
     let g : SlotRead := f.deliveries (s4.hylPort p).part
     (s0 = s.linkSync)
       ∧ ((s0.hylPort p).st = .l0)
       ∧ (s1 = s0.modHyl p (fun x => { x with rxScr := scrFlit x.active x.rxScr }))
       ∧ (f = readFlit (s0.hylPort p).active (s0.hylPort p).rxScr (fixPolarity (s0.hylPort p).inverted w))
       ∧ (f.fixed = [])
       ∧ (f.pass = true)
       ∧ (f.kind = 1)
       ∧ (f.first ≠ 14)
       ∧ (f.nak = false)
       ∧ (s4 = (s1.modHyl p fun x => { x with held := x.acked f.ack, credits := f.credit.foldl (fun t c => if c.1 < 5 then t.setD c.1 0 (min (fullCredits.getD c.1 0) (t.getD c.1 0 + c.2)) else t) x.credits }).pump p)
       ∧ (d = (f.seq + 4096 - (s4.hylPort p).nextRx) % 4096)
       ∧ (g = f.deliveries (s4.hylPort p).part)
       ∧ (d = 0)
       ∧ (g.bad = true))
    ∧ (let s : State := poolS { l0 with nextRx := 3073 }
     let p : Nat := 0
     let w : FlitWire := wireA
     let f : LinkFlit := flitA
     let s0 : State := s.linkSync
     let s1 : State := s0.modHyl p (fun x => { x with rxScr := scrFlit x.active x.rxScr })
     let s4 : State := (s1.modHyl p fun x => { x with held := x.acked f.ack, credits := f.credit.foldl (fun t c => if c.1 < 5 then t.setD c.1 0 (min (fullCredits.getD c.1 0) (t.getD c.1 0 + c.2)) else t) x.credits }).pump p
     let d : Nat := (f.seq + 4096 - (s4.hylPort p).nextRx) % 4096
     let g : SlotRead := f.deliveries (s4.hylPort p).part
     (s0 = s.linkSync)
       ∧ ((s0.hylPort p).st = .l0)
       ∧ (s1 = s0.modHyl p (fun x => { x with rxScr := scrFlit x.active x.rxScr }))
       ∧ (f = readFlit (s0.hylPort p).active (s0.hylPort p).rxScr (fixPolarity (s0.hylPort p).inverted w))
       ∧ (f.fixed = [])
       ∧ (f.pass = true)
       ∧ (f.kind = 1)
       ∧ (f.first ≠ 14)
       ∧ (f.nak = false)
       ∧ (s4 = (s1.modHyl p fun x => { x with held := x.acked f.ack, credits := f.credit.foldl (fun t c => if c.1 < 5 then t.setD c.1 0 (min (fullCredits.getD c.1 0) (t.getD c.1 0 + c.2)) else t) x.credits }).pump p)
       ∧ (d = (f.seq + 4096 - (s4.hylPort p).nextRx) % 4096)
       ∧ (g = f.deliveries (s4.hylPort p).part)
       ∧ (0 < d)
       ∧ (d < 1024))
    ∧ (let s : State := poolS { l0 with nextRx := 3072 }
     let p : Nat := 0
     let w : FlitWire := wireA
     let f : LinkFlit := flitA
     let s0 : State := s.linkSync
     let s1 : State := s0.modHyl p (fun x => { x with rxScr := scrFlit x.active x.rxScr })
     let s4 : State := (s1.modHyl p fun x => { x with held := x.acked f.ack, credits := f.credit.foldl (fun t c => if c.1 < 5 then t.setD c.1 0 (min (fullCredits.getD c.1 0) (t.getD c.1 0 + c.2)) else t) x.credits }).pump p
     let d : Nat := (f.seq + 4096 - (s4.hylPort p).nextRx) % 4096
     let g : SlotRead := f.deliveries (s4.hylPort p).part
     (s0 = s.linkSync)
       ∧ ((s0.hylPort p).st = .l0)
       ∧ (s1 = s0.modHyl p (fun x => { x with rxScr := scrFlit x.active x.rxScr }))
       ∧ (f = readFlit (s0.hylPort p).active (s0.hylPort p).rxScr (fixPolarity (s0.hylPort p).inverted w))
       ∧ (f.fixed = [])
       ∧ (f.pass = true)
       ∧ (f.kind = 1)
       ∧ (f.first ≠ 14)
       ∧ (f.nak = false)
       ∧ (s4 = (s1.modHyl p fun x => { x with held := x.acked f.ack, credits := f.credit.foldl (fun t c => if c.1 < 5 then t.setD c.1 0 (min (fullCredits.getD c.1 0) (t.getD c.1 0 + c.2)) else t) x.credits }).pump p)
       ∧ (d = (f.seq + 4096 - (s4.hylPort p).nextRx) % 4096)
       ∧ (g = f.deliveries (s4.hylPort p).part)
       ∧ (1024 ≤ d)
       ∧ (d < 3072))
    ∧ (let s : State := poolS { l0 with nextRx := 1024 }
     let p : Nat := 0
     let w : FlitWire := wireA
     let f : LinkFlit := flitA
     let s0 : State := s.linkSync
     let s1 : State := s0.modHyl p (fun x => { x with rxScr := scrFlit x.active x.rxScr })
     let s4 : State := (s1.modHyl p fun x => { x with held := x.acked f.ack, credits := f.credit.foldl (fun t c => if c.1 < 5 then t.setD c.1 0 (min (fullCredits.getD c.1 0) (t.getD c.1 0 + c.2)) else t) x.credits }).pump p
     let d : Nat := (f.seq + 4096 - (s4.hylPort p).nextRx) % 4096
     let g : SlotRead := f.deliveries (s4.hylPort p).part
     (s0 = s.linkSync)
       ∧ ((s0.hylPort p).st = .l0)
       ∧ (s1 = s0.modHyl p (fun x => { x with rxScr := scrFlit x.active x.rxScr }))
       ∧ (f = readFlit (s0.hylPort p).active (s0.hylPort p).rxScr (fixPolarity (s0.hylPort p).inverted w))
       ∧ (f.fixed = [])
       ∧ (f.pass = true)
       ∧ (f.kind = 1)
       ∧ (f.first ≠ 14)
       ∧ (f.nak = false)
       ∧ (s4 = (s1.modHyl p fun x => { x with held := x.acked f.ack, credits := f.credit.foldl (fun t c => if c.1 < 5 then t.setD c.1 0 (min (fullCredits.getD c.1 0) (t.getD c.1 0 + c.2)) else t) x.credits }).pump p)
       ∧ (d = (f.seq + 4096 - (s4.hylPort p).nextRx) % 4096)
       ∧ (g = f.deliveries (s4.hylPort p).part)
       ∧ (3072 ≤ d))
    ∧ (let s : State := poolS { l0 with nakSent := true }
     let p : Nat := 0
     let w : FlitWire := wireC
     let f : LinkFlit := flitC
     let s0 : State := s.linkSync
     let s1 : State := s0.modHyl p (fun x => { x with rxScr := scrFlit x.active x.rxScr })
     let s2 : State := (s1.modHyl p fun x => { x with crcErr := x.crcErr + 1 }).charge 9 p 16
     (s0 = s.linkSync)
       ∧ ((s0.hylPort p).st = .l0)
       ∧ (s1 = s0.modHyl p (fun x => { x with rxScr := scrFlit x.active x.rxScr }))
       ∧ (f = readFlit (s0.hylPort p).active (s0.hylPort p).rxScr (fixPolarity (s0.hylPort p).inverted w))
       ∧ (f.fixed = [])
       ∧ (f.pass = false ∨ f.kind = 3 ∨ f.first = 14)
       ∧ (s2 = (s1.modHyl p fun x => { x with crcErr := x.crcErr + 1 }).charge 9 p 16)
       ∧ ((s2.hylPort p).st = .l0)
       ∧ ((s2.hylPort p).nakSent = true))
    ∧ (let s : State := poolS l0
     let p : Nat := 0
     let w : FlitWire := wireC
     let f : LinkFlit := flitC
     let s0 : State := s.linkSync
     let s1 : State := s0.modHyl p (fun x => { x with rxScr := scrFlit x.active x.rxScr })
     let s2 : State := (s1.modHyl p fun x => { x with crcErr := x.crcErr + 1 }).charge 9 p 16
     (s0 = s.linkSync)
       ∧ ((s0.hylPort p).st = .l0)
       ∧ (s1 = s0.modHyl p (fun x => { x with rxScr := scrFlit x.active x.rxScr }))
       ∧ (f = readFlit (s0.hylPort p).active (s0.hylPort p).rxScr (fixPolarity (s0.hylPort p).inverted w))
       ∧ (f.fixed = [])
       ∧ (f.pass = false ∨ f.kind = 3 ∨ f.first = 14)
       ∧ (s2 = (s1.modHyl p fun x => { x with crcErr := x.crcErr + 1 }).charge 9 p 16)
       ∧ ((s2.hylPort p).st = .l0)
       ∧ ((s2.hylPort p).nakSent = false))
    ∧ (let set : Nat := 255
     let bytes : List Byte := List.replicate 256 0
     let scr : Tab (BitVec 31) := []
     (set ∈ candidateSets)
       ∧ (bytes.length = 256))
    ∧ (let m : LinkMsg := { cls := 0, dst := 1, src := 2, mtype := 2, op := 1 }
     (m.mtype < 16)
       ∧ (m.op < 256)
       ∧ (m.cls < 8)
       ∧ (m.src < 128)
       ∧ (m.dst < 128)
       ∧ (m.tag < 2 ^ 16)
       ∧ (m.addr < 2 ^ 48)
       ∧ (m.sect < 16)
       ∧ (m.pois < 16)
       ∧ (m.ovd < 64)
       ∧ (m.qcls < 4)
       ∧ (m.qweight < 32)
       ∧ (m.flags < 128)
       ∧ (m.data.length ≤ 8)
       ∧ (headerBad m.header = false))
    ∧ (let pre : List HeldFlit := []
     let post : List HeldFlit := []
     let f : HeldFlit := { seq := 5, msg := 0, cls := 0 }
     let x : HylPort := { held := [f] }
     (x.held = pre ++ f :: post)
       ∧ (∀ g ∈ pre, g.seq ≠ f.seq))
    ∧ (let p : Nat := 0
     let f : HeldFlit := { seq := 0, msg := 0, cls := 0, replays := 7 }
     let s : State := poolS { l0 with held := [f] }
     let s0 : State := s.linkSync
     let t : List HeldFlit := []
     (s0 = s.linkSync)
       ∧ ((s.hylPort p).st = .l0)
       ∧ ((s0.hylPort p).held = f :: t)
       ∧ (f.replays < 8))
    ∧ (let p : Nat := 0
     let f : HeldFlit := { seq := 0, msg := 0, cls := 0, replays := 8 }
     let s : State := poolS { l0 with held := [f] }
     let s0 : State := s.linkSync
     let t : List HeldFlit := []
     (s0 = s.linkSync)
       ∧ ((s.hylPort p).st = .l0)
       ∧ ((s0.hylPort p).held = f :: t)
       ∧ (8 ≤ f.replays)) :=
  ⟨by and_intros <;> first | exact test_flit_A _ _ (by decide +kernel) (by decide +kernel) | with_reducible rfl | decide +kernel,
   by and_intros <;> first | exact test_flit_B _ _ (by decide +kernel) (by decide +kernel) | with_reducible rfl | decide +kernel,
   by and_intros <;> first | exact test_flit_A _ _ (by decide +kernel) (by decide +kernel) | with_reducible rfl | decide +kernel,
   by and_intros <;> first | exact test_flit_A _ _ (by decide +kernel) (by decide +kernel) | with_reducible rfl | decide +kernel,
   by and_intros <;> first | exact test_flit_A _ _ (by decide +kernel) (by decide +kernel) | with_reducible rfl | decide +kernel,
   by and_intros <;> first | exact test_flit_C _ _ (by decide +kernel) (by decide +kernel) | with_reducible rfl | decide +kernel,
   by and_intros <;> first | exact test_flit_C _ _ (by decide +kernel) (by decide +kernel) | with_reducible rfl | decide +kernel,
   by and_intros <;> decide +kernel,
   by and_intros <;> decide +kernel,
   by and_intros <;> decide +kernel,
   by and_intros <;> first | with_reducible rfl | decide +kernel,
   by and_intros <;> first | with_reducible rfl | decide +kernel⟩

/-- States and operands that meet the hypotheses of Obligations.FlitsReplaysWidthsAndLowPower, clause by clause (13 to 24 of 24). -/
theorem meets_FlitsReplaysWidthsAndLowPower_2 :
    (let s : State := poolS l0
     let s0 : State := s.linkSync
     let p : Nat := 0
     let lanes : Nat := 0xC0
     (s0 = s.linkSync)
       ∧ ((s0.hylPort p).st = .l0)
       ∧ ((s0.hylPort p).own = false)
       ∧ (lanes ∈ candidateSets)
       ∧ (lanes &&& (s0.hylPort p).active = lanes))
    ∧ (let s : State := poolS { l0 with want := some 3 }
     let p : Nat := 0
     let lanes : Nat := 3
     ((s.hylPort p).st = .l0)
       ∧ ((s.hylPort p).want = some lanes))
    ∧ (let s : State := poolS { l0 with st := .widthChange, peerNext := some 0, seen := (List.range 8).map fun i => (i, 8), sentSeen := (List.range 8).map fun i => (i, 8) }
     let p : Nat := 0
     let n : Nat := 0
     let s0 : State := s.linkSync
     (s0 = s.linkSync)
       ∧ ((s0.hylPort p).st = .widthChange)
       ∧ ((s0.hylPort p).blocksSeen (s0.hylPort p).active = true)
       ∧ ((s0.hylPort p).peerNext = some n)
       ∧ ((s0.hylPort p).inRange n = true))
    ∧ (let s : State := poolS { l0 with st := .widthChange, peerNext := some 9, seen := (List.range 8).map fun i => (i, 8), sentSeen := (List.range 8).map fun i => (i, 8) }
     let p : Nat := 0
     let n : Nat := 9
     let s0 : State := s.linkSync
     (s0 = s.linkSync)
       ∧ ((s0.hylPort p).st = .widthChange)
       ∧ ((s0.hylPort p).blocksSeen (s0.hylPort p).active = true)
       ∧ ((s0.hylPort p).peerNext = some n)
       ∧ ((s0.hylPort p).inRange n = false))
    ∧ (let s : State := poolS { l0 with credits := fullCredits, pmWait := true }
     let s0 : State := s.linkSync
     let p : Nat := 0
     (s0 = s.linkSync)
       ∧ ((s0.hylPort p).st = .l0)
       ∧ ((s0.hylPort p).pmWait = true))
    ∧ (let s : State := poolS { l0 with credits := fullCredits }
     let s0 : State := s.linkSync
     let p : Nat := 0
     (s0 = s.linkSync)
       ∧ ((s0.hylPort p).st = .l0)
       ∧ ((s0.hylPort p).pmWait = false)
       ∧ (s0.hylIdle p = true))
    ∧ (let s : State := poolS l0
     let s0 : State := s.linkSync
     let p : Nat := 0
     (s0 = s.linkSync)
       ∧ ((s0.hylPort p).st = .l0)
       ∧ ((s0.hylPort p).pmWait = false)
       ∧ (s0.hylIdle p = false))
    ∧ (let s : State := poolS { l0 with credits := fullCredits, pmWait := true }
     let p : Nat := 0
     ((s.hylPort p).st = .l0)
       ∧ ((s.hylPort p).pmWait = true))
    ∧ (let s : State := poolS { l0 with st := .l1 }
     let p : Nat := 0
     ((s.hylPort p).st = .l1))
    ∧ (let s : State := poolS { l0 with st := .l1d }
     let p : Nat := 0
     ((s.hylPort p).st = .l1 ∨ (s.hylPort p).st = .l1d)
       ∧ ((s.linkSync.hylPort p).tx = [])
       ∧ ((s.linkSync.hylPort p).active &&& (s.linkSync.hylPort p).retired = 0))
    ∧ (let x : HylPort := { owed := [(0, 70)] }
     let hold : Bool := false
     let e : Nat × Nat := (0, 63)
     (e ∈ (x.giveBack hold).1))
    ∧ (let x : HylPort := { owed := [(1, 70)] }
     let e : Nat × Nat := (1, 63)
     (e ∈ (x.giveBack true).1)) :=
  ⟨by and_intros <;> first | with_reducible rfl | decide +kernel,
   by and_intros <;> decide +kernel,
   by and_intros <;> first | with_reducible rfl | decide +kernel,
   by and_intros <;> first | with_reducible rfl | decide +kernel,
   by and_intros <;> first | with_reducible rfl | decide +kernel,
   by and_intros <;> first | with_reducible rfl | decide +kernel,
   by and_intros <;> first | with_reducible rfl | decide +kernel,
   by and_intros <;> decide +kernel,
   by decide +kernel,
   by and_intros <;> decide +kernel,
   by decide +kernel,
   by decide +kernel⟩

/-- States and operands that meet the hypotheses of Obligations.MembersJoinLeaveAndAreIsolated, clause by clause (1 to 12 of 22). -/
theorem meets_MembersJoinLeaveAndAreIsolated_1 :
    (let s : State := poolS l0
     let f : Flood := { origin := 101, seq := 3, port := 5 }
     ((f.origin, f.seq) ∈ s.linkSync.pool.seen ∨ f.port ∉ s.linkSync.floodPorts))
    ∧ (let s : State := poolS l0
     let op : Nat := 0
     let f : Flood := { origin := 101, seq := 3, port := 0 }
     let vals : List Nat := []
     let s1 : State := (s.floodIn op f vals).getD s
     (s.floodIn op f vals = some s1))
    ∧ (let s : State := poolS { l0 with hello := some { serial := 101, mapDigest := 0 } } { st := .member, devnum := 0, lowest := some 3, usable := [(0, 1)] }
     let s0 : State := s.linkSync
     let p : Nat := 0
     let a : Nat := 3
     let h : Hello := { serial := 101, poolId := 9, maxDevices := 4, mode := 1, devnum := some 1, coordSerial := 5 }
     let k : Nat := s0.linkKindOf p h
     let s1 : State := { s0.modHyl p (fun x => { x with hello := some h }) with pool := { s0.pool with linkKind := s0.pool.linkKind.setD p 0 k } }
     (s0 = s.linkSync)
       ∧ ((s.hylPort p).st = .l0)
       ∧ (k = s0.linkKindOf p h)
       ∧ (s0.pool.lowest = some a)
       ∧ (s1 = { s0.modHyl p (fun x => { x with hello := some h }) with pool := { s0.pool with linkKind := s0.pool.linkKind.setD p 0 k } })
       ∧ (k = 4 ∨ k = 5)
       ∧ (s0.kindOf p = 4 ∨ s0.kindOf p = 5)
       ∧ ((s0.hylPort p).hello ≠ none)
       ∧ (s0.pool.st = .member)
       ∧ ((∃ d, h.devnum = some d ∧ (s0.pool.devnum, d) ∈ s0.pool.usable) ∨ h.devnum = none)
       ∧ (a ≤ h.coordSerial))
    ∧ (let s : State := { poolS l0 { lowest := some 3 } with img := imgT, pool := { lowest := some 3 } }
     let s0 : State := s.linkSync
     let p : Nat := 0
     let a : Nat := 3
     let h : Hello := { serial := 101, poolId := 9, maxDevices := 4, mode := 1, devnum := some 1, coordSerial := 5 }
     let k : Nat := s0.linkKindOf p h
     let s1 : State := { s0.modHyl p (fun x => { x with hello := some h }) with pool := { s0.pool with linkKind := s0.pool.linkKind.setD p 0 k } }
     (s0 = s.linkSync)
       ∧ ((s.hylPort p).st = .l0)
       ∧ (k = s0.linkKindOf p h)
       ∧ (s0.pool.lowest = some a)
       ∧ (s1 = { s0.modHyl p (fun x => { x with hello := some h }) with pool := { s0.pool with linkKind := s0.pool.linkKind.setD p 0 k } })
       ∧ (k = 1 ∨ k = 3)
       ∧ (s0.kindOf p ≠ 4 ∧ s0.kindOf p ≠ 5)
       ∧ ((s0.hylPort p).hello = none)
       ∧ ((s0.hylPort p).noted = false))
    ∧ (let s : State := poolS { l0 with hello := some { serial := 101, mapDigest := 0 } } { st := .isolated, devnum := 0, lowest := some 8 }
     let s0 : State := s.linkSync
     let p : Nat := 0
     let a : Nat := 8
     let h : Hello := { serial := 101, poolId := 9, maxDevices := 4, mode := 1, devnum := none, coordSerial := 5 }
     let k : Nat := s0.linkKindOf p h
     let s1 : State := { s0.modHyl p (fun x => { x with hello := some h }) with pool := { s0.pool with linkKind := s0.pool.linkKind.setD p 0 k } }
     (s0 = s.linkSync)
       ∧ ((s.hylPort p).st = .l0)
       ∧ (k = s0.linkKindOf p h)
       ∧ (s0.pool.lowest = some a)
       ∧ (s1 = { s0.modHyl p (fun x => { x with hello := some h }) with pool := { s0.pool with linkKind := s0.pool.linkKind.setD p 0 k } })
       ∧ (k = 4 ∨ k = 5)
       ∧ ((s0.hylPort p).hello ≠ none)
       ∧ (s0.pool.st = .isolated)
       ∧ (h.coordSerial < a)
       ∧ (0 < h.coordSerial))
    ∧ (let s : State := poolS l0 { lowest := some 8 }
     let f : Flood := { origin := 101, seq := 3, port := 0 }
     let serial : Nat := 7
     let s1 : State := (s.linkSync.floodIn 2 f [serial]).getD s
     let a : Nat := 8
     (s.linkSync.floodIn 2 f [serial] = some s1)
       ∧ (s1.pool.lowest = some a)
       ∧ (serial < a))
    ∧ (let s : State := poolS l0 { lowest := some 8 }
     let f : Flood := { origin := 101, seq := 3, port := 0 }
     let serial : Nat := 8
     let s1 : State := (s.linkSync.floodIn 2 f [serial]).getD s
     let a : Nat := 8
     (s.linkSync.floodIn 2 f [serial] = some s1)
       ∧ (s1.pool.lowest = some a)
       ∧ (a ≤ serial))
    ∧ (let s : State := { poolS l0 { lowest := some 100 } with fuses := { serial := 100 } }
     (s.eligible = true)
       ∧ (s.img.pooled = true)
       ∧ (s.pool.coord = false)
       ∧ (s.pool.lowest = none ∨ ∃ a, s.pool.lowest = some a ∧ s.fuses.serial ≤ a))
    ∧ (let s : State := poolS l0
     let f : Flood := { origin := 101, seq := 3, port := 0 }
     let serial : Nat := 8
     let s1 : State := (s.linkSync.floodIn 3 f [serial]).getD s
     (s.linkSync.floodIn 3 f [serial] = some s1))
    ∧ (let s : State := poolS l0 { st := .joining }
     (s.pool.st = .joining)
       ∧ (s.floodPorts ≠ [])
       ∧ (s.pool.leaving = false))
    ∧ (let s : State := poolS l0
     let f : Flood := { origin := 101, seq := 3, port := 0 }
     let serial : Nat := 8
     let n : Nat := 2
     let isIn : Bool := true
     let s1 : State := (s.linkSync.floodIn 4 f [serial, n, b2n isIn]).getD s
     (s.linkSync.floodIn 4 f [serial, n, b2n isIn] = some s1)
       ∧ (s1.pool.st ≠ .member ∨ s1.pool.devnum ≠ n)
       ∧ (isIn = true))
    ∧ (let s : State := poolS l0
     let f : Flood := { origin := 101, seq := 3, port := 0 }
     let serial : Nat := 8
     let n : Nat := 2
     let isIn : Bool := false
     let s1 : State := (s.linkSync.floodIn 4 f [serial, n, b2n isIn]).getD s
     (s.linkSync.floodIn 4 f [serial, n, b2n isIn] = some s1)
       ∧ (s1.pool.st ≠ .member ∨ s1.pool.devnum ≠ n)
       ∧ (isIn = false)) :=
  ⟨by decide +kernel,
   by decide +kernel,
   by and_intros <;> first | with_reducible rfl | decide +kernel,
   by and_intros <;> first | with_reducible rfl | decide +kernel,
   by and_intros <;> first | with_reducible rfl | decide +kernel,
   by and_intros <;> decide +kernel,
   by and_intros <;> first | with_reducible rfl | decide +kernel,
   by and_intros <;> decide +kernel,
   by decide +kernel,
   by and_intros <;> decide +kernel,
   by and_intros <;> first | with_reducible rfl | decide +kernel,
   by and_intros <;> first | with_reducible rfl | decide +kernel⟩

/-- States and operands that meet the hypotheses of Obligations.MembersJoinLeaveAndAreIsolated, clause by clause (13 to 22 of 22). -/
theorem meets_MembersJoinLeaveAndAreIsolated_2 :
    (let s : State := poolS l0 { st := .member, devnum := 2 }
     let f : Flood := { origin := 101, seq := 3, port := 0 }
     let serial : Nat := 8
     let n : Nat := 2
     let isIn : Bool := false
     let s1 : State := (s.linkSync.floodIn 4 f [serial, n, b2n isIn]).getD s
     (s.linkSync.floodIn 4 f [serial, n, b2n isIn] = some s1)
       ∧ (s1.pool.st = .member)
       ∧ (s1.pool.devnum = n)
       ∧ (isIn = false))
    ∧ (let s : State := poolS l0 { st := .member, devnum := 2 }
     let f : Flood := { origin := 101, seq := 3, port := 0 }
     let serial : Nat := 8
     let n : Nat := 2
     let isIn : Bool := true
     let s1 : State := (s.linkSync.floodIn 4 f [serial, n, b2n isIn]).getD s
     (s.linkSync.floodIn 4 f [serial, n, b2n isIn] = some s1)
       ∧ (s1.pool.st = .member)
       ∧ (s1.pool.devnum = n)
       ∧ (isIn = true)
       ∧ (serial ≠ s1.fuses.serial))
    ∧ (let s : State := poolS l0 { st := .member, devnum := 2 }
     let f : Flood := { origin := 101, seq := 3, port := 0 }
     let r : Nat := 0
     let d : Nat := 0
     let ok : Bool := true
     let s1 : State := (s.linkSync.floodIn 5 f [r, d, b2n ok]).getD s
     (s.linkSync.floodIn 5 f [r, d, b2n ok] = some s1))
    ∧ (let s : State := poolS l0 { devnum := 0, usable := [(0, 1)] }
     let d : Nat := 3
     (d ≠ s.pool.devnum)
       ∧ (∀ u ∈ s.pool.usable, u.2 ≠ d))
    ∧ (let s : State := poolS l0 { devnum := 0, usable := [(0, 1)] }
     let f : Flood := { origin := 101, seq := 3, port := 0 }
     let d : Nat := 3
     let s1 : State := (s.linkSync.floodIn 6 f [d]).getD s
     (s.linkSync.floodIn 6 f [d] = some s1))
    ∧ (let s : State := poolS l0 { coord := true, members := 8, serials := [(3, 103)] }
     let d : Nat := 3
     let serial : Nat := 103
     (s.pool.coord = true)
       ∧ (s.isMember d = true)
       ∧ (s.pool.serials.find d = some serial))
    ∧ (let d : Nat := 3
     let n : Nat := 2
     let s : State := poolS l0 { departed := [3], swept := (List.range 8).map fun n => (3, n) }
     (d ∈ s.pool.departed)
       ∧ ((s.pool.devnum, d) ∉ s.pool.reported)
       ∧ (∀ n ∈ s.inv.slices, (s.die (n / 8)).st ≠ .retired → (d, n) ∈ s.pool.swept))
    ∧ (let s : State := poolS l0
     let f : Flood := { origin := 101, seq := 3, port := 0 }
     let r : Nat := 0
     let d : Nat := 3
     let s1 : State := (s.linkSync.floodIn 7 f [r, d]).getD s
     (s.linkSync.floodIn 7 f [r, d] = some s1)
       ∧ ((r, d) ∉ s1.pool.reported))
    ∧ (let s : State := { live with pool := { st := .member } }
     (s.pool.st = .member)
       ∧ (s.floodPorts = []))
    ∧ (let s : State := { live with slices := [(1, { frames := [(5, { st := .rs, line := 3 * 2 ^ 34 }), (6, { st := .h, line := 0 })] })] }
     let d : Nat := 0
     let n : Nat := 1
     let k : Nat := 6
     let y : Slice := (((s.dropProxies d).slices.find n).getD {})
     let f : Frame := { st := .h, line := 0 }
     ((s.dropProxies d).slices.find n = some y)
       ∧ (y.frames.find k = some f)
       ∧ (lineDev f.line = d)) :=
  ⟨by and_intros <;> first | with_reducible rfl | decide +kernel,
   by and_intros <;> first | with_reducible rfl | decide +kernel,
   by decide +kernel,
   by and_intros <;> decide +kernel,
   by decide +kernel,
   by and_intros <;> decide +kernel,
   by and_intros <;> decide +kernel,
   by and_intros <;> decide +kernel,
   by and_intros <;> first | with_reducible rfl | decide +kernel,
   by and_intros <;> decide +kernel⟩

/-- States and operands that meet the hypotheses of Obligations.DepartedNumbersWaitForEverySweep, clause by clause. -/
theorem meets_DepartedNumbersWaitForEverySweep :
    (let s : State := { poolS l0 { coord := true, departed := [1], members := 1, candidates := [(101, [])] } with out := [] }
     let d : Nat := 1
     let k : Nat := 0
     let m : PoolMap := { mode := 1, maxDevices := 4, poolId := 9, entries := [(100, 0), (101, 1), (102, 2)] }
     let serial : Nat := 101
     (d ∈ s.pool.departed)
       ∧ (s.isMember d = false)
       ∧ (k < 128)
       ∧ (s.isMember k = true)
       ∧ ((k, d) ∉ s.pool.reported)
       ∧ (s.img.poolMap = some m)
       ∧ ((m.entries.find? fun e => decide (e.1 = serial)) = some (serial, d))
       ∧ ((s.pool.candidates.find serial).isSome = true))
    ∧ (let s : State := { poolS l0 { coord := true, departed := [1], members := 1, candidates := [(101, [])] } with out := [] }
     let f : Flood := { origin := 101, seq := 3, port := 0 }
     let m : PoolMap := { mode := 1, maxDevices := 4, poolId := 9, entries := [(100, 0), (101, 1), (102, 2)] }
     let serial : Nat := 101
     let s1 : State := (s.linkSync.floodIn 3 f [serial]).getD s
     let d : Nat := 1
     let k : Nat := 0
     (s.linkSync.floodIn 3 f [serial] = some s1)
       ∧ (s1.img.poolMap = some m)
       ∧ ((m.entries.find? fun e => decide (e.1 = serial)) = some (serial, d))
       ∧ (d ∈ s1.pool.departed)
       ∧ (s1.isMember d = false)
       ∧ (k < 128)
       ∧ (s1.isMember k = true)
       ∧ ((k, d) ∉ s1.pool.reported))
    ∧ (let s : State := { poolS l0 { coord := true, departed := [1], members := 1, candidates := [(101, [])] } with out := [] }
     let f : Flood := { origin := 101, seq := 3, port := 0 }
     let r : Nat := 5
     let d : Nat := 1
     let s1 : State := (s.linkSync.floodIn 7 f [r, d]).getD s
     let k : Nat := 0
     (s.linkSync.floodIn 7 f [r, d] = some s1)
       ∧ (d ∈ s1.pool.departed)
       ∧ (s1.isMember d = false)
       ∧ (k < 128)
       ∧ (s1.isMember k = true)
       ∧ ((k, d) ∉ s1.pool.reported)
       ∧ (r ≠ k)) :=
  ⟨by and_intros <;> decide +kernel,
   by and_intros <;> decide +kernel,
   by and_intros <;> decide +kernel⟩

/-- States and operands that meet the hypotheses of Obligations.PoolMessagesAreAnsweredRoutedAndTimedOut, clause by clause (1 to 12 of 22). -/
theorem meets_PoolMessagesAreAnsweredRoutedAndTimedOut_1 :
    (let s : State := poolS l0
     let p : Nat := 0
     ((s.hylPort p).st = .l0))
    ∧ (let s : State := poolS l0 { st := .member }
     let p : Nat := 0
     (p ∈ s.floodPorts)
       ∧ (s.pool.st = .member))
    ∧ (let i : Nat := 0
     let r : RemoteOp := { kind := .pen, dev := 1, tag := 4, who := { vd := 0 } }
     let s : State := poolS l0 { remote := [r] }
     (s.pool.remote[i]? = some r))
    ∧ (let d : Nat := 1
     let line : Nat := 2 ^ 34
     let r : RemoteOp := { kind := .mem, op := .rdS, line := 2 ^ 34, dev := 1, tag := 4, who := { vd := 0 } }
     let s : State := poolS l0 { remote := [r] }
     (s.pool.remote = [r])
       ∧ (r.dev = d)
       ∧ (r.kind = .mem)
       ∧ (r.line = line)
       ∧ (r.op.code < 0x10))
    ∧ (let d : Nat := 1
     let tag : Nat := 4
     let r : RemoteOp := { kind := .pen, dev := 1, tag := 65540, who := { vd := 0 } }
     let s : State := poolS l0 { remote := [r] }
     (s.pool.remote = [r])
       ∧ (r.dev = d)
       ∧ (r.tag % 65536 = tag)
       ∧ (r.kind = .pen))
    ∧ (let d : Nat := 1
     let tag : Nat := 4
     let r : RemoteOp := { kind := .sl, dev := 1, tag := 65540, who := { vd := 0 } }
     let s : State := poolS l0 { remote := [r] }
     (s.pool.remote = [r])
       ∧ (r.dev = d)
       ∧ (r.tag % 65536 = tag)
       ∧ (r.kind = .sl))
    ∧ (let w : Who := { vd := 0 }
     let m : CohMsg := { op := .wrNc, dev := 1, line := 2 ^ 34 }
     let s : State := poolS l0 { depWait := [(w, m)] }
     let t : List (Who × CohMsg) := []
     let s1 : State := ({ s with pool := { s.pool with depWait := t } }.postNow w m).getD s
     (s.pool.depWait = (w, m) :: t)
       ∧ ({ s with pool := { s.pool with depWait := t } }.postNow w m = some s1))
    ∧ (let w : Who := { vd := 0, cmd := some 0 }
     let m : CohMsg := { op := .wrNc, dev := 1, line := 2 ^ 34 }
     let s : State := poolS l0 { depWait := [(w, m)], dep := depFull 4096 0 }
     let t : List (Who × CohMsg) := []
     (s.pool.depWait = (w, m) :: t)
       ∧ (w.cmd ≠ none)
       ∧ (s.depChoose w = none))
    ∧ (let w : Who := { vd := 0 }
     let m : CohMsg := { op := .wrNc, dev := 1, line := 2 ^ 34 }
     let s : State := poolS l0 { depWait := [(w, m)] }
     let t : List (Who × CohMsg) := []
     (s.pool.depWait = (w, m) :: t)
       ∧ (w.cmd = none ∨ s.depChoose w ≠ none))
    ∧ (let ticket : Nat := 9 * 2 ^ 17 + 4
     let v : Nat := 5
     let k : Nat := 4
     let e : Export := { pen := 0, key := 9 }
     let s : State := { live with pen := { pens := [(0, { st := .leased, count := 5 })], exports := [(4, e)] } }
     (s.ticketPen ticket = some (k, e))
       ∧ (s.boot.warm < 2)
       ∧ (v ≤ (s.penn e.pen).count.toNat))
    ∧ (let ticket : Nat := 9 * 2 ^ 17 + 4
     let v : Nat := 6
     let k : Nat := 4
     let e : Export := { pen := 0, key := 9 }
     let s : State := { live with pen := { pens := [(0, { st := .leased, count := 5 })], exports := [(4, e)] } }
     (s.ticketPen ticket = some (k, e))
       ∧ (s.boot.warm < 2)
       ∧ ((s.penn e.pen).count.toNat < v))
    ∧ (let s : State := live
     let ticket : Nat := 9 * 2 ^ 17 + 4
     (s.ticketPen ticket = none)
       ∧ (s.boot.warm < 2)) :=
  ⟨by decide +kernel,
   by and_intros <;> decide +kernel,
   by decide +kernel,
   by and_intros <;> first | with_reducible rfl | decide +kernel,
   by and_intros <;> first | with_reducible rfl | decide +kernel,
   by and_intros <;> first | with_reducible rfl | decide +kernel,
   by and_intros <;> decide +kernel,
   ⟨by decide +kernel, by decide, depChoose_full _ _ 4095 rfl rfl (by decide) (by decide)⟩,
   by and_intros <;> decide +kernel,
   by and_intros <;> decide +kernel,
   by and_intros <;> decide +kernel,
   by and_intros <;> decide +kernel⟩

/-- States and operands that meet the hypotheses of Obligations.PoolMessagesAreAnsweredRoutedAndTimedOut, clause by clause (13 to 22 of 22). -/
theorem meets_PoolMessagesAreAnsweredRoutedAndTimedOut_2 :
    (let dev : Nat := 1
     let tag : Nat := 0
     let vd : Nat := 0
     let r : RemoteOp := { kind := .pen, dev := 1, tag := 0, who := { vd := 0 } }
     let c : Cmd := { rd 0x12 [] with wait := .registered }
     let s : State := { poolS l0 { remote := [r] } with dax := { seq := 1, cmds := [(0, c)] } }
     let s1 : State := ((s.penOp dev tag vd).getD (r, s)).2
     (s.penOp dev tag vd = some (r, s1))
       ∧ (s.oldReply r = false)
       ∧ (s1.cmd? tag = some c)
       ∧ (c.wait = .registered))
    ∧ (let dev : Nat := 1
     let tag : Nat := 0
     let vd : Nat := 0
     let r : RemoteOp := { kind := .pen, dev := 1, tag := 0, who := { vd := 0 } }
     let c : Cmd := { rd 0x12 [] with wait := .met }
     let s : State := { poolS l0 { remote := [r] } with dax := { seq := 1, cmds := [(0, c)] } }
     let s1 : State := ((s.penOp dev tag vd).getD (r, s)).2
     (s.penOp dev tag vd = some (r, s1))
       ∧ (s.oldReply r = false)
       ∧ (s1.cmd? tag = some c)
       ∧ (c.wait ≠ .registered))
    ∧ (let c : Cmd := rd 3 []
     let dev : Nat := 1
     let vd : Nat := 0
     let tag : Nat := 0
     let r : RemoteOp := { kind := .pen, dev := 1, tag := 0, who := { vd := 0, cmd := some 0 } }
     let s : State := { withC c with pool := { remote := [r] } }
     let s1 : State := ((s.penOp dev tag vd).getD (r, s)).2
     (s.penOp dev tag vd = some (r, s1))
       ∧ (s.oldReply r = false)
       ∧ (s1.cmd? tag = some c)
       ∧ (r.posted = false)
       ∧ (c.opcode = 3)
       ∧ (c.st ≠ .queued)
       ∧ (c.opx ≠ 7))
    ∧ (let s : State := live
     let k : Nat := 10 ^ 6
     let x : Ext := {}
     (s.boot.warm < 2)
       ∧ (s.chooseFrames k x.pick = none))
    ∧ (let s : State := live
     let k : Nat := 1
     let f : Nat := 0
     let x : Ext := {}
     (s.boot.warm < 2)
       ∧ (s.chooseFrames k x.pick = some f))
    ∧ (let s : State := live
     let k : Nat := 10 ^ 6
     let x : Ext := {}
     let f : Nat := 0
     let s1 : State := s.fresh.takeBackFrames f k peerVd
     (s.boot.warm < 2)
       ∧ (s1 = s.fresh.takeBackFrames f k peerVd)
       ∧ (s1.stall = []))
    ∧ (let dev : Nat := 1
     let tag : Nat := 4
     let r : RemoteOp := { kind := .sl, dev := 1, tag := 4, who := { vd := 0 } }
     let s : State := { poolS l0 { remote := [r] } with slu := { moves := [{ vd := 0, page := 4, big := false, src := 0, dst := 1, step := 0, by_ := .fantail }] } }
     let s1 : State := (((s.remoteAt fun r => decide (r.kind = .sl) && decide (r.dev = dev) && decide (r.tag = tag))).getD (r, s)).2
     ((s.remoteAt fun r => decide (r.kind = .sl) && decide (r.dev = dev) && decide (r.tag = tag)) = some (r, s1))
       ∧ (s1.moveOf (tag / 2 ^ 26) (tag % 2 ^ 26) ≠ none))
    ∧ (let s : State := { live with slu := { foreignFrames := [(0, 1)] } }
     let f : Nat := 0
     ((s.slu.moves.find? fun m => decide (m.dst = s.ownFrame f) && decide (m.step = 3) && decide (gfDev m.src ≠ s.pool.devnum)) = none)
       ∧ (s.slu.foreignFrames.find f ≠ none))
    ∧ (let m : Move := { vd := 0, page := 0, big := false, src := 2 ^ 25, dst := 0, step := 3, by_ := .place 0 }
     let s : State := { live with slu := { moves := [m] } }
     let f : Nat := 0
     ((s.slu.moves.find? fun m => decide (m.dst = s.ownFrame f) && decide (m.step = 3) && decide (gfDev m.src ≠ s.pool.devnum)) = some m))
    ∧ (let s : State := { poolS l0 with hyl := [(1, l0)], pool := { linkKind := [(1, 5)], members := 7 } }
     let dst : Nat := 2
     let d : Nat := 1
     let p : Nat := 1
     let e : Nat := 0
     (s.nextHop dst = some (d, p))
       ∧ (e < d)) :=
  ⟨by and_intros <;> first | with_reducible rfl | decide +kernel,
   by and_intros <;> decide +kernel,
   by and_intros <;> first | with_reducible rfl | decide +kernel,
   by and_intros <;> decide +kernel,
   by and_intros <;> decide +kernel,
   by and_intros <;> first | with_reducible rfl | decide +kernel,
   by and_intros <;> decide +kernel,
   by and_intros <;> decide +kernel,
   by decide +kernel,
   by and_intros <;> decide +kernel⟩

/-- States and operands that meet the hypotheses of Obligations.CollectivesPairReadyPartnersAndCount, clause by clause. -/
theorem meets_CollectivesPairReadyPartnersAndCount :
    (let q : Nat := 0
     let g : Nat := 8
     let c : Cmd := rn 0x40 [(0x28, 8)]
     let s : State := withC c
     let t : Task := tk
     (s.cmd? q = some c)
       ∧ (c.opcode = 0x40)
       ∧ (s.coll? q = none)
       ∧ (t ∈ c.tasks)
       ∧ (t.st = .running)
       ∧ (t.fin = none)
       ∧ (g = c.f 0x28 2))
    ∧ (let c : Coll := { cmd := 0, seq := 0, kind := 0, fmt := 0, count := 64, dims := [0, 1], plane := true, parts := [{}, {}, {}] }
     let j : Nat := 0
     let k : Nat := 2
     (c.dims.Nodup)
       ∧ (j < c.g)
       ∧ (k < c.g)
       ∧ (j ≠ k))
    ∧ (let r : CollReady := { dev := 1, seq := 5, kind := 0, fmt := 0, count := 64, step := 0 }
     let c : Coll := { cmd := 0, seq := 5, kind := 0, fmt := 0, count := 64, dims := [0], plane := false, parts := [{ ready := true }] }
     let s : State := { live with colls := [c] }
     let j : Nat := 0
     let x : Ext := {}
     let t : State := (s.fresh.setColl (c.setPart j { c.part j with partner := true })).collData c.cmd j x
     (s.collOf r.seq r.dev r.bridge r.step = some (c, j))
       ∧ ((c.part j).partner = false)
       ∧ (s.coll? c.cmd = some c)
       ∧ (r.kind = c.kind)
       ∧ (r.fmt = c.fmt)
       ∧ (r.count = c.count)
       ∧ (t = (s.fresh.setColl (c.setPart j { c.part j with partner := true })).collData c.cmd j x)
       ∧ (t.stall = []))
    ∧ (let r : CollReady := { dev := 1, seq := 5, kind := 0, fmt := 1, count := 64, step := 0 }
     let c : Coll := { cmd := 0, seq := 5, kind := 0, fmt := 0, count := 64, dims := [0], plane := false, parts := [{ ready := true }] }
     let s : State := { live with colls := [c] }
     let j : Nat := 0
     (s.collOf r.seq r.dev r.bridge r.step = some (c, j))
       ∧ ((c.part j).partner = false)
       ∧ (s.coll? c.cmd = some c)
       ∧ (r.kind ≠ c.kind ∨ r.fmt ≠ c.fmt ∨ r.count ≠ c.count))
    ∧ (let r : CollReady := { dev := 2, seq := 5, kind := 0, fmt := 1, count := 64, step := 0 }
     let c : Coll := { cmd := 0, seq := 5, kind := 0, fmt := 0, count := 64, dims := [0], plane := false, parts := [{ ready := true }] }
     let s : State := { live with colls := [c] }
     (s.collOf r.seq r.dev r.bridge r.step = none))
    ∧ (let m : Cmd := rn 0x40 []
     let j : Nat := 0
     let dev : Nat := 1
     let seq : Nat := 5
     let c : Coll := { cmd := 0, seq := 5, kind := 0, fmt := 0, count := 64, dims := [0], plane := false, parts := [{ ready := true }] }
     let s : State := { withP m with colls := [c] }
     let step : Nat := 0
     let line : Nat := 0
     let bridge : Bool := false
     let d : Line := 0
     let p : Sectors := 0
     let x : Ext := {}
     let b : Block := (s.fresh.collApply c c.cmd m (c.phase step).2 (128 * line) d p x).1
     let s1 : State := (s.fresh.collApply c c.cmd m (c.phase step).2 (128 * line) d p x).2
     let t : State := (((s1.finishWrites c.cmd m.vd).setColl (c.setPart j { c.part j with applied := (c.part j).applied + 1 })).send (.coll dev bridge 0x1D [seq, j, step, 0] 0)).collCheck c.cmd j x
     (s.collOf seq dev bridge step = some (c, j))
       ∧ (s.cmd? c.cmd = some m)
       ∧ (s.fresh.collApply c c.cmd m (c.phase step).2 (128 * line) d p x = (b, s1))
       ∧ (s1.stall = [])
       ∧ (b.fault = none)
       ∧ (b.poison = false)
       ∧ (t = (((s1.finishWrites c.cmd m.vd).setColl (c.setPart j { c.part j with applied := (c.part j).applied + 1 })).send (.coll dev bridge 0x1D [seq, j, step, 0] 0)).collCheck c.cmd j x)
       ∧ (t.stall = []))
    ∧ (let m : Cmd := rn 0x40 [(0x18, 2 ^ 21)]
     let j : Nat := 0
     let dev : Nat := 1
     let seq : Nat := 5
     let c : Coll := { cmd := 0, seq := 5, kind := 0, fmt := 0, count := 64, dims := [0], plane := false, parts := [{ ready := true }] }
     let s : State := { withP m with colls := [c] }
     let step : Nat := 0
     let line : Nat := 0
     let bridge : Bool := false
     let d : Line := 0
     let p : Sectors := 0
     let x : Ext := {}
     let b : Block := (s.fresh.collApply c c.cmd m (c.phase step).2 (128 * line) d p x).1
     let st : Status := (b.fault.getD (.ok, 0)).1
     let a : Nat := (b.fault.getD (.ok, 0)).2
     let s1 : State := (s.fresh.collApply c c.cmd m (c.phase step).2 (128 * line) d p x).2
     (s.collOf seq dev bridge step = some (c, j))
       ∧ (s.cmd? c.cmd = some m)
       ∧ (s.fresh.collApply c c.cmd m (c.phase step).2 (128 * line) d p x = (b, s1))
       ∧ (s1.stall = [])
       ∧ (b.fault = some (st, a)))
    ∧ (let j : Nat := 0
     let dev : Nat := 1
     let seq : Nat := 5
     let c : Coll := { cmd := 0, seq := 5, kind := 0, fmt := 0, count := 64, dims := [0], plane := false, parts := [{ ready := true }] }
     let s : State := { live with colls := [c] }
     let step : Nat := 0
     let bridge : Bool := false
     let x : Ext := {}
     let n : Nat := 1
     let t : State := (s.fresh.setColl (c.setPart j { c.part j with announced := some n })).collCheck c.cmd j x
     (s.collOf seq dev bridge step = some (c, j))
       ∧ (t = (s.fresh.setColl (c.setPart j { c.part j with announced := some n })).collCheck c.cmd j x)
       ∧ (t.stall = []))
    ∧ (let q : Nat := 0
     let j : Nat := 0
     let c : Coll := { cmd := 0, seq := 5, kind := 0, fmt := 0, count := 64, dims := [0], plane := false, parts := [{ ready := true }] }
     let m : Cmd := rn 0x40 [(0x18, 2 ^ 21)]
     let s : State := { withP m with colls := [c] }
     (s.coll? q = some c)
       ∧ (j < c.parts.length)
       ∧ ((c.part j).ready = true)
       ∧ ((c.part j).partner = false))
    ∧ (let q : Nat := 0
     let m : Cmd := cm 1 []
     let s : State := withC m
     let st : Status := .cancelled
     (s.cmd? q = some m)
       ∧ (st ≠ .ok)) :=
  ⟨by and_intros <;> decide +kernel,
   by and_intros <;> decide +kernel,
   by and_intros <;> first | with_reducible rfl | decide +kernel,
   by and_intros <;> decide +kernel,
   by decide +kernel,
   by and_intros <;> first | with_reducible rfl | decide +kernel,
   by and_intros <;> first | with_reducible rfl | decide +kernel,
   by and_intros <;> first | with_reducible rfl | decide +kernel,
   by and_intros <;> decide +kernel,
   by and_intros <;> decide +kernel⟩

/-- States and operands that meet the hypotheses of Obligations.MetersLeakSaturateAndCross, clause by clause. -/
theorem meets_MetersLeakSaturateAndCross :
    (let s : State := { live with flt := { meters := [(100, { level := 5 })] } }
     let cls : Nat := 9
     (0 < cls)
       ∧ (Tab.wf s.flt.meters = true))
    ∧ (let s : State := live
     let cls : Nat := 9
     let i : Nat := 7
     let b : Nat := 999
     let l : Nat := 999
     (0 < cls)
       ∧ (s.metered cls i = true)
       ∧ ((s.meter cls i).frozen = false)
       ∧ (l = (s.meter cls i).level.toNat + s.scaled cls b)
       ∧ (l < 2 ^ 32)
       ∧ (l < s.threshold cls))
    ∧ (let s : State := live
     let cls : Nat := 9
     let i : Nat := 7
     let b : Nat := 1000
     let l : Nat := 1000
     (0 < cls)
       ∧ (s.metered cls i = true)
       ∧ ((s.meter cls i).frozen = false)
       ∧ (l = (s.meter cls i).level.toNat + s.scaled cls b)
       ∧ (l < 2 ^ 32)
       ∧ (s.threshold cls ≤ l)
       ∧ (s.boot.memActive = true))
    ∧ (let s : State := { live with flt := { meters := [(meterKey 9 7, { level := 1000, frozen := true })] } }
     let cls : Nat := 9
     let i : Nat := 7
     (0 < cls)
       ∧ ((s.meter cls i).frozen = true))
    ∧ (let s : State := live
     let line : Nat := 5
     let sector : Nat := 3
     let ch : Nat := 0
     let m : Sectors := 8
     let s1 : State := { s with memPoison := setPoison s.memPoison (lineOff line) m m }
     let s3 : State := (s1.post { cls := .poisoned, meter := 0, unit := ch, addr := line * 128, slice := s.sliceOf line, detail := m.toNat * 16 + m.toNat }).lineEvent line 2 { kind := .generalMedia, ty := .mediaEcc, trans := 1 }
     (s.lostHome line = false)
       ∧ (ch = (s.inv.place (lineOff line)).ch)
       ∧ (m = BitVec.ofNat 4 (2 ^ (sector % 4)))
       ∧ (s1 = { s with memPoison := setPoison s.memPoison (lineOff line) m m })
       ∧ (s3 = (s1.post { cls := .poisoned, meter := 0, unit := ch, addr := line * 128, slice := s.sliceOf line, detail := m.toNat * 16 + m.toNat }).lineEvent line 2 { kind := .generalMedia, ty := .mediaEcc, trans := 1 }))
    ∧ (let cls : RecClass := .correctable
     let code : Nat := 7
     let unit : Nat := 3
     let c : Coalesce := { cls := .correctable, code := 7, unit := 3 }
     let s : State := { live with flt := { coalesce := [c] } }
     (s.flt.coalesce = [c])
       ∧ (c.cls = cls)
       ∧ (c.code = code)
       ∧ (c.unit = unit)
       ∧ (c.withheld = 0))
    ∧ (let cls : RecClass := .correctable
     let code : Nat := 7
     let unit : Nat := 3
     let c : Coalesce := { cls := .correctable, code := 7, unit := 3, withheld := 4 }
     let s : State := { live with flt := { coalesce := [c] } }
     (s.flt.coalesce = [c])
       ∧ (c.cls = cls)
       ∧ (c.code = code)
       ∧ (c.unit = unit)
       ∧ (c.withheld ≠ 0))
    ∧ (let s : State := { live with slices := [(0, { lostSets := [3], lostKnown := live.setLines 3 })] }
     let n : Nat := 0
     let set : Nat := 3
     (set ∈ (s.slice n).lostSets)
       ∧ (∀ l ∈ s.setLines (n * 2 ^ 20 + set), l ∈ (s.slice n).lostKnown)) :=
  ⟨by and_intros <;> decide +kernel,
   by and_intros <;> decide +kernel,
   by and_intros <;> decide +kernel,
   by and_intros <;> decide +kernel,
   by and_intros <;> first | with_reducible rfl | decide +kernel,
   by and_intros <;> with_reducible rfl,
   by and_intros <;> first | with_reducible rfl | decide +kernel,
   by and_intros <;> decide +kernel⟩

/-- The test image without a rescue bay, and with one. -/
def imgNone : Image := { imgT with bays := [], pools := [] }
def imgRescue : Image := { imgT with bays := [(0, { kind := 8 })], pools := [] }

/-- States and operands that meet the hypotheses of Obligations.RetirementsGoThroughTheirSteps, clause by clause. -/
theorem meets_RetirementsGoThroughTheirSteps :
    (let s : State := { live with flt := { retiring := [{ cls := 1, inst := 3, step := 0 }, { cls := 1, inst := 7, step := 0 }] } }
     let cls : Nat := 1
     let i : Nat := 3
     (({ cls := cls, inst := i, step := 0 } : Retire) ∈ s.flt.retiring)
       ∧ (∀ r ∈ s.flt.retiring, r.cls = cls → meterDie cls r.inst = meterDie cls i → r.step = 0 ∧ i ≤ r.inst))
    ∧ (let s : State := { live with img := imgNone, flt := { retiring := [{ cls := 0, inst := 17, step := 1 }] } }
     let ch : Nat := 1
     let slot : Nat := 1
     (s.retireAt 0 (16 * ch + slot) = 1)
       ∧ (s.noStaging = true))
    ∧ (let s : State := { live with img := imgRescue, flt := { retiring := [{ cls := 0, inst := 17, step := 1 }] } }
     let ch : Nat := 1
     let slot : Nat := 1
     (s.retireAt 0 (16 * ch + slot) = 1)
       ∧ (s.noStaging = false))
    ∧ (let s : State := { live with flt := { retiring := [{ cls := 0, inst := 17, step := 2 }], rows := [(17, { used := true, r := 0 })] } }
     let ch : Nat := 1
     let slot : Nat := 1
     let f : Nat := 1
     (s.retireAt 0 (16 * ch + slot) = 2)
       ∧ (s.inv.frameAt ch (s.row (16 * ch + slot)).r = some f)
       ∧ (s.slu.frames.find f = none))
    ∧ (let s : State := { live with flt := { retiring := [{ cls := 0, inst := 17, step := 2 }], rows := [(17, { used := true, r := 0 })] }, slu := { frames := [(1, { vd := 0, page := 0 })] } }
     let ch : Nat := 1
     let slot : Nat := 1
     let f : Nat := 1
     (s.retireAt 0 (16 * ch + slot) = 2)
       ∧ (s.inv.frameAt ch (s.row (16 * ch + slot)).r = some f)
       ∧ (s.slu.frames.find f ≠ none))
    ∧ (let s : State := { live with img := imgNone, flt := { retiring := [{ cls := 1, inst := 0, step := 1 }] } }
     let ch : Nat := 0
     (s.retireAt 1 ch = 1)
       ∧ (s.noStaging = true))
    ∧ (let s : State := { live with img := imgRescue, flt := { retiring := [{ cls := 1, inst := 0, step := 1 }] } }
     let ch : Nat := 0
     (s.retireAt 1 ch = 1)
       ∧ (s.noStaging = false))
    ∧ (let s : State := { live with inv := { chList := List.range 32 }, img := { imgT with pools := [] }, flt := { retiring := [{ cls := 1, inst := 0, step := 2 }] } }
     let ch : Nat := 0
     let s1 : State := s.fresh.movePools ch
     (s.retireAt 1 ch = 2)
       ∧ (∀ e ∈ s.slu.frames, s.inv.chanOf e.1 ≠ ch)
       ∧ (s1 = s.fresh.movePools ch)
       ∧ (s1.stall = [])
       ∧ (s1.metaOn ch = [])
       ∧ (∀ p < 16, (s1.hpool p).kind = 2 → ∀ k < (s1.hpool p).size, s1.inv.chanOf (s1.poolFrame p k) ≠ ch))
    ∧ (let s : State := { live with flt := { retiring := [{ cls := 3, inst := 17, step := 1 }] } }
     let b : Nat := 17
     (s.retireAt 3 b = 1))
    ∧ (let s : State := { live with img := { imgT with bays := [(0, { kind := 41 })], pools := [] }, hop := { bayMap := [(0, 0)] } }
     let b : Nat := 0
     let key : Nat := 0
     let r : Nat := 1
     let i : Nat := 262143
     (s.poolBayOf b = some key)
       ∧ (s.rescueFor b = some r)
       ∧ (r ≠ b)
       ∧ (i < bayBytes)
       ∧ (Tab.wf s.bays = true))
    ∧ (let s : State := { live with flt := { retiring := [{ cls := 4, inst := 7, step := 1 }] } }
     let n : Nat := 7
     (s.retireAt 4 n = 1)
       ∧ ((s.slice n).miss = []))
    ∧ (let s : State := { live with flt := { retiring := [{ cls := 4, inst := 7, step := 2 }] } }
     let n : Nat := 7
     (s.retireAt 4 n = 2)
       ∧ ((s.slice n).miss = [])
       ∧ ((s.slice n).inq = []))
    ∧ (let s : State := { live with flt := { retiring := [{ cls := 2, inst := 0, step := 3 }] } }
     let d : Nat := 0
     let n : Nat := 7
     (s.retireAt 2 d = 3)
       ∧ (Tab.wf s.slices = true)
       ∧ (8 * d ≤ n)
       ∧ (n < 8 * d + 8))
    ∧ (let s : State := { live with img := imgRescue, flt := { retiring := [{ cls := 2, inst := 0, step := 6 }] } }
     let d : Nat := 0
     (s.retireAt 2 d = 6)
       ∧ (s.dir = [])
       ∧ (s.noStaging = false ∨ s.activeDies = [])) :=
  ⟨by and_intros <;> decide +kernel,
   by and_intros <;> decide +kernel,
   by and_intros <;> decide +kernel,
   by and_intros <;> decide +kernel,
   by and_intros <;> decide +kernel,
   by and_intros <;> decide +kernel,
   by and_intros <;> decide +kernel,
   by and_intros <;> first | with_reducible rfl | decide +kernel,
   by decide +kernel,
   by and_intros <;> decide +kernel,
   by and_intros <;> decide +kernel,
   by and_intros <;> decide +kernel,
   by and_intros <;> decide +kernel,
   by and_intros <;> decide +kernel⟩

/-- States and operands that meet the hypotheses of Obligations.GaugesBinCaptureAndSnapshot, clause by clause. -/
theorem meets_GaugesBinCaptureAndSnapshot :
    (let g : Nat := 127
     (g < 128))
    ∧ (let s : State := live
     let v : Nat := 1
     let i : Nat := 1
     (s.WindowOpen v)
       ∧ (v < 64)
       ∧ (i < 2))
    ∧ (let n : Nat := 0
     let g : Gauge := { enable := true, wlen := 10, cur := { start := 5000000000 } }
     let s : State := { live with gauges := [(0, g)] }
     let o : Nat := 0x20
     (g = s.gauge n)
       ∧ (g.enable = true)
       ∧ (g.roll (s.gaugeEdge g) = g)
       ∧ (o ∉ [0x04, 0x08, 0x0C, 0x10, 0x14, 0x18, 0x1C]))
    ∧ (let n : Nat := 0
     let g : Gauge := { enable := true, wlen := 10, cur := { start := 5000000000 } }
     let s : State := { live with gauges := [(0, g)] }
     let o : Nat := 4
     (g = s.gauge n)
       ∧ (g.enable = true)
       ∧ (g.roll (s.gaugeEdge g) = g)
       ∧ (o ∈ [0x04, 0x08, 0x0C, 0x10, 0x14, 0x18, 0x1C]))
    ∧ (let g : Gauge := { base := 8, step := 2 }
     let b : Nat := 31
     (b ≤ 31)
       ∧ (∀ i j, i ≤ j → g.edge i ≤ g.edge j))
    ∧ (let g : Gauge := { base := 8, step := 2 }
     let v : Nat := 2 ^ 48 - 1
     let b : Nat := g.bin v
     (v < 2 ^ 48)
       ∧ (b = g.bin v)
       ∧ (Tab.wf g.cur.bins = true))
    ∧ (let g : Gauge := { enable := true, wlen := 10, cur := { start := 100 } }
     let t : Nat := 109
     (g.enable = true)
       ∧ (0 < g.wlen)
       ∧ (t < g.cur.start + g.wlen))
    ∧ (let g : Gauge := { enable := true, wlen := 10, cur := { start := 100 } }
     let t : Nat := 119
     (g.enable = true)
       ∧ (0 < g.wlen)
       ∧ (g.cur.start + g.wlen ≤ t)
       ∧ (t < g.cur.start + 2 * g.wlen)
       ∧ (g.oneShot = false))
    ∧ (let g : Gauge := { enable := true, oneShot := true, wlen := 10, cur := { start := 100 } }
     let t : Nat := 110
     (g.enable = true)
       ∧ (0 < g.wlen)
       ∧ (g.cur.start + g.wlen ≤ t)
       ∧ (g.oneShot = true))
    ∧ (let g : Gauge := { oneShot := true, wstart := 100 }
     let t : Nat := 100
     (g.oneShot = true)
       ∧ (t ≤ g.wstart))
    ∧ (let g : Gauge := { oneShot := true, wstart := 100 }
     let t : Nat := 101
     (g.oneShot = true)
       ∧ (g.wstart < t))
    ∧ (let n : Nat := 0
     let g : Gauge := { enable := true, src := 0x10, period := 10, wlen := 100 }
     let s : State := { live with gauges := [(0, g)] }
     (g = s.gauge n)
       ∧ (g.enable = true)
       ∧ (0 < g.period)
       ∧ (((s.gaugeNow g : Int) - g.wstart) % g.period = 0)
       ∧ (gLevel g.src = true))
    ∧ (let n : Nat := 0
     let g : Gauge := { enable := true, src := 0x20, period := 10, wlen := 100 }
     let s : State := { live with gauges := [(0, g)] }
     (g = s.gauge n)
       ∧ (g.enable = true)
       ∧ (0 < g.period)
       ∧ (((s.gaugeNow g : Int) - g.wstart) % g.period = 0)
       ∧ (gRate g.src = true)
       ∧ (gSource g.src ≠ 0x40)
       ∧ (g.period ≤ s.gaugeNow g)) :=
  ⟨by decide +kernel,
   by exact ⟨by simp only [State.WindowOpen, State.MailboxOpen, State.FmOpen, State.MgmtOpen]; decide +kernel, by decide +kernel, by decide +kernel⟩,
   by and_intros <;> first | with_reducible rfl | decide +kernel,
   by and_intros <;> first | with_reducible rfl | decide +kernel,
   by exact ⟨by with_reducible rfl, by intros; simp [Gauge.edge]; omega⟩,
   by and_intros <;> first | with_reducible rfl | decide +kernel,
   by and_intros <;> first | with_reducible rfl | decide +kernel,
   by and_intros <;> first | with_reducible rfl | decide +kernel,
   by and_intros <;> first | with_reducible rfl | decide +kernel,
   by and_intros <;> with_reducible rfl,
   by and_intros <;> first | with_reducible rfl | decide +kernel,
   by and_intros <;> first | with_reducible rfl | decide +kernel,
   by and_intros <;> first | with_reducible rfl | decide +kernel⟩

/-- States and operands that meet the hypotheses of Obligations.WindowAccessesFollowTheirTable, clause by clause. -/
theorem meets_WindowAccessesFollowTheirTable :
    (let s : State := live
     let m : Mmio := { vd := 0, off := 2, len := 4 }
     let u : State := (s.unsupported m).post { cls := .protocol, vd := m.vd, addr := m.off }
     let t : State := u.modVd m.vd (fun d => { d with err := { d.err with unaligned := true } })
     (m.bad = true)
       ∧ (s.running = true)
       ∧ (s.windowShut m = none)
       ∧ (u = (s.unsupported m).post { cls := .protocol, vd := m.vd, addr := m.off })
       ∧ ((s.vd m.vd).st = .ready)
       ∧ (t = u.modVd m.vd (fun d => { d with err := { d.err with unaligned := true } })))
    ∧ (let s : State := { live with vds := [] }
     let m : Mmio := { vd := 0, off := 2, len := 4 }
     let u : State := (s.unsupported m).post { cls := .protocol, vd := m.vd, addr := m.off }
     (m.bad = true)
       ∧ (s.running = true)
       ∧ (s.windowShut m = none)
       ∧ (u = (s.unsupported m).post { cls := .protocol, vd := m.vd, addr := m.off })
       ∧ ((s.vd m.vd).st ≠ .ready))
    ∧ (let s : State := { live with ports := [] }
     let m : Mmio := { vd := 5, off := 2, len := 4 }
     let p : Nat := m.vd / 16
     let ld : Nat := m.ld.getD (m.vd % 16)
     (s.running = true)
       ∧ (p = m.vd / 16)
       ∧ (ld = m.ld.getD (m.vd % 16))
       ∧ ((s.port p).link ≠ 2))
    ∧ (let s : State := live
     let m : Mmio := { vd := 5, off := 2, len := 4 }
     let p : Nat := m.vd / 16
     let ld : Nat := m.ld.getD (m.vd % 16)
     (s.running = true)
       ∧ (p = m.vd / 16)
       ∧ (ld = m.ld.getD (m.vd % 16))
       ∧ ((s.port p).link = 2)
       ∧ (16 ≤ ld ∨ s.exposed p ld = false)
       ∧ ((s.port p).mld = true))
    ∧ (let s : State := { live with ports := [(0, { link := 2, cxlOk := true })] }
     let m : Mmio := { vd := 1, off := 2, len := 4 }
     let p : Nat := m.vd / 16
     let ld : Nat := m.ld.getD (m.vd % 16)
     (s.running = true)
       ∧ (p = m.vd / 16)
       ∧ (ld = m.ld.getD (m.vd % 16))
       ∧ ((s.port p).link = 2)
       ∧ (16 ≤ ld ∨ s.exposed p ld = false)
       ∧ ((s.port p).mld = false))
    ∧ (let s : State := { live with img := { imgT with ports := [(0, { ldCount := 2, ideIoRequired := true })] } }
     let m : Mmio := { vd := 0, off := 2, len := 4 }
     let p : Nat := m.vd / 16
     let ld : Nat := m.ld.getD (m.vd % 16)
     (s.running = true)
       ∧ (p = m.vd / 16)
       ∧ (ld = m.ld.getD (m.vd % 16))
       ∧ ((s.port p).link = 2)
       ∧ (ld < 16)
       ∧ (s.exposed p ld = true)
       ∧ (s.ideBlocks p = true))
    ∧ (let s : State := { live with boot := { live.boot with warm := 2 } }
     let m : Mmio := { vd := 0, off := 0, len := 4 }
     let p : Nat := m.vd / 16
     let ld : Nat := m.ld.getD (m.vd % 16)
     (s.running = true)
       ∧ (p = m.vd / 16)
       ∧ (ld = m.ld.getD (m.vd % 16))
       ∧ (s.windowShut m = none)
       ∧ (m.bad = false)
       ∧ (s.boot.warm ≠ 0 ∨ s.portStuck (m.vd / 16) = true))
    ∧ (let s : State := live
     let m : Mmio := { vd := 0, off := 0x2FFFC, len := 4, val := 7 }
     let o : Nat := 0x2FFFC
     let n : Nat := 4
     let w : Nat := 7
     (m.bad = false)
       ∧ (s.running = true)
       ∧ (s.WindowOpen m.vd)
       ∧ (m.ld = none)
       ∧ (m.span = some (o, n))
       ∧ (w = m.val / 256 ^ (o - m.off) % 256 ^ n)
       ∧ (m.door = false)
       ∧ (0x20000 ≤ o)
       ∧ (o < 0x30000)
       ∧ (n = 4))
    ∧ (let s : State := live
     let m : Mmio := { vd := 0, off := 0x20000, len := 8, val := 7 }
     let o : Nat := 0x20000
     let n : Nat := 8
     let w : Nat := 7
     (m.bad = false)
       ∧ (s.running = true)
       ∧ (s.WindowOpen m.vd)
       ∧ (m.ld = none)
       ∧ (m.span = some (o, n))
       ∧ (w = m.val / 256 ^ (o - m.off) % 256 ^ n)
       ∧ (m.door = false)
       ∧ (0x20000 ≤ o)
       ∧ (o < 0x30000)
       ∧ (n = 8))
    ∧ (let s : State := live
     let m : Mmio := { vd := 0, off := 0x21002, len := 2, val := 7 }
     let o : Nat := 0x21002
     let n : Nat := 2
     let w : Nat := 7
     (m.bad = false)
       ∧ (s.running = true)
       ∧ (s.WindowOpen m.vd)
       ∧ (m.ld = none)
       ∧ (m.span = some (o, n))
       ∧ (w = m.val / 256 ^ (o - m.off) % 256 ^ n)
       ∧ (m.door = false)
       ∧ (0x20000 ≤ o)
       ∧ (o < 0x30000)
       ∧ (0 < n)
       ∧ (n < 4)
       ∧ (s.winReg m.vd (o / 4 * 4 - 0x20000) ≠ none))
    ∧ (let s : State := live
     let m : Mmio := { vd := 0, off := 0x30000, len := 4, val := 7 }
     let o : Nat := 0x30000
     let n : Nat := 4
     let w : Nat := 7
     (m.bad = false)
       ∧ (s.running = true)
       ∧ (s.WindowOpen m.vd)
       ∧ (m.ld = none)
       ∧ (m.span = some (o, n))
       ∧ (w = m.val / 256 ^ (o - m.off) % 256 ^ n)
       ∧ (m.door = false)
       ∧ (n = 0 ∨ o < 0x20000 ∨ 0x30000 ≤ o))
    ∧ (let s : State := live
     let m : Mmio := { vd := 0, door := true, off := 0xF000, len := 4, val := 7 }
     let o : Nat := 0xF000
     let n : Nat := 4
     let w : Nat := 7
     (m.bad = false)
       ∧ (s.running = true)
       ∧ (s.WindowOpen m.vd)
       ∧ (m.ld = none)
       ∧ (m.span = some (o, n))
       ∧ (w = m.val / 256 ^ (o - m.off) % 256 ^ n)
       ∧ (m.door = true)
       ∧ (n = 4)
       ∧ (o < 0x10000)
       ∧ (o % 0x1000 = 0))
    ∧ (let s : State := live
     let m : Mmio := { vd := 0, door := true, off := 0xF008, len := 4, val := 7 }
     let o : Nat := 0xF008
     let n : Nat := 4
     let w : Nat := 7
     (m.bad = false)
       ∧ (s.running = true)
       ∧ (s.WindowOpen m.vd)
       ∧ (m.ld = none)
       ∧ (m.span = some (o, n))
       ∧ (w = m.val / 256 ^ (o - m.off) % 256 ^ n)
       ∧ (m.door = true)
       ∧ (n = 4)
       ∧ (o < 0x10000)
       ∧ (o % 0x1000 = 8))
    ∧ (let s : State := live
     let m : Mmio := { vd := 0, door := true, off := 0x10000, len := 4, val := 7 }
     let o : Nat := 0x10000
     let n : Nat := 4
     let w : Nat := 7
     (m.bad = false)
       ∧ (s.running = true)
       ∧ (s.WindowOpen m.vd)
       ∧ (m.ld = none)
       ∧ (m.span = some (o, n))
       ∧ (w = m.val / 256 ^ (o - m.off) % 256 ^ n)
       ∧ (m.door = true)
       ∧ (doorReg (o / 4 * 4) = none))
    ∧ (let s : State := live
     let v : Nat := 1
     let i : Nat := 1
     (s.running = true)
       ∧ (v < 64)
       ∧ (i < 2)
       ∧ (s.windowShut { vd := v, off := 0 } = none)
       ∧ (s.boot.warm = 0)
       ∧ (s.portStuck (v / 16) = false))
    ∧ (let s : State := vd0 { st := .resetting }
     let v : Nat := 0
     let x : Nat := 0x1004
     (s.boot.memActive = false ∨ (s.vd v).st = .resetting ∧ x ≠ 0x1000))
    ∧ (let s : State := vd0 { st := .resetting }
     let v : Nat := 0
     let x : Nat := 0x1000
     (s.boot.memActive = true)
       ∧ ((s.vd v).st ≠ .resetting ∨ x = 0x1000)) :=
  ⟨by and_intros <;> first | with_reducible rfl | decide +kernel,
   by and_intros <;> first | with_reducible rfl | decide +kernel,
   by and_intros <;> first | with_reducible rfl | decide +kernel,
   by and_intros <;> first | with_reducible rfl | decide +kernel,
   by and_intros <;> first | with_reducible rfl | decide +kernel,
   by and_intros <;> first | with_reducible rfl | decide +kernel,
   by and_intros <;> first | with_reducible rfl | decide +kernel,
   by and_intros <;> first | with_reducible rfl | decide +kernel,
   by and_intros <;> first | with_reducible rfl | decide +kernel,
   by and_intros <;> first | with_reducible rfl | decide +kernel,
   by and_intros <;> first | with_reducible rfl | decide +kernel,
   by and_intros <;> first | with_reducible rfl | decide +kernel,
   by and_intros <;> first | with_reducible rfl | decide +kernel,
   by and_intros <;> first | with_reducible rfl | decide +kernel,
   by and_intros <;> decide +kernel,
   by decide +kernel,
   by and_intros <;> decide +kernel⟩

/-- States and operands that meet the hypotheses of Obligations.ManagementCommandsAreCheckedAndServed, clause by clause (1 to 12 of 26). -/
theorem meets_ManagementCommandsAreCheckedAndServed_1 :
    (let s : State := live
     let h : MctpHdr := { ty := 3 }
     (s.mctpUp h = true)
       ∧ (h.ty ∉ mctpTypes))
    ∧ (let s : State := live
     let h : MctpHdr := { ty := 0x7E }
     (s.mctpUp h = true)
       ∧ (h.ty ∈ mctpTypes)
       ∧ (s.duplicate h = false)
       ∧ (s.sessionOk h = true)
       ∧ (s.mgmt.bufs.length < 8)
       ∧ (s.mgmt.held = []))
    ∧ (let s : State := { live with mgmt := { bufs := (List.range 8).map fun k => { tag := k } } }
     let h : MctpHdr := { port := some 0, tag := 9 }
     (s.mctpUp h = true)
       ∧ (h.ty ∈ mctpTypes)
       ∧ (s.duplicate h = false)
       ∧ (s.sessionOk h = true)
       ∧ (8 ≤ s.mgmt.bufs.length)
       ∧ (h.port ≠ none))
    ∧ (let s : State := { live with mgmt := { bufs := (List.range 8).map fun k => { tag := k } } }
     let h : MctpHdr := { tag := 9 }
     (s.mctpUp h = true)
       ∧ (h.ty ∈ mctpTypes)
       ∧ (s.duplicate h = false)
       ∧ (s.sessionOk h = true)
       ∧ (8 ≤ s.mgmt.bufs.length)
       ∧ (h.port = none))
    ∧ (let s : State := at7 0
     let h : MctpHdr := { ty := 0 }
     let e : Nat := 254
     (s.served h 0 = true)
       ∧ (0 < e)
       ∧ (e < 255))
    ∧ (let s : State := at7 0
     let h : MctpHdr := { ty := 0 }
     let e : Nat := 255
     (s.served h 0 = true)
       ∧ (e = 0 ∨ e = 255))
    ∧ (let s : State := at7 0x7E
     let h : MctpHdr := { ty := 0x7E }
     let fl : Nat := 1
     (s.served h 0x7E = true)
       ∧ (fl ≠ 0))
    ∧ (let h : MctpHdr := { port := some 0 }
     let s : State := { live with mgmt := { bufs := [h] } }
     (s.served h 0x7E = true)
       ∧ (h.port ≠ none)
       ∧ (h.secured = false))
    ∧ (let s : State := { at7 0x7E with img := {} }
     let h : MctpHdr := {}
     let o : Nat := 0x60
     (s.served h 0x7E = true)
       ∧ (s.img.applied = false)
       ∧ (h.port = none)
       ∧ (earlyOff o = false))
    ∧ (let s : State := at7 0x7E
     let h : MctpHdr := {}
     let o : Nat := 0x5C
     (s.served h 0x7E = true)
       ∧ (s.img.applied = true ∨ earlyOff o = true ∧ earlyOff (o + 4) = true)
       ∧ (o % 4 = 0)
       ∧ (s.readWaits o = false))
    ∧ (let s : State := at7 0x7E
     let h : MctpHdr := {}
     let o : Nat := 2
     (s.served h 0x7E = true)
       ∧ (s.img.applied = true ∨ earlyOff o = true ∧ earlyOff (o + 4) = true)
       ∧ (o % 4 ≠ 0))
    ∧ (let s : State := at7 0x7E
     let h : MctpHdr := {}
     let o : Nat := 0x1008
     (s.served h 0x7E = true)
       ∧ (s.img.applied = true ∨ earlyOff o = true ∧ earlyOff (o + 4) = true)
       ∧ (o % 8 = 0)
       ∧ (s.readWaits o = false)) :=
  ⟨by and_intros <;> decide +kernel,
   by and_intros <;> decide +kernel,
   by and_intros <;> decide +kernel,
   by and_intros <;> first | with_reducible rfl | decide +kernel,
   by and_intros <;> decide +kernel,
   by and_intros <;> decide +kernel,
   by and_intros <;> decide +kernel,
   by and_intros <;> first | with_reducible rfl | decide +kernel,
   by and_intros <;> first | with_reducible rfl | decide +kernel,
   by and_intros <;> first | with_reducible rfl | decide +kernel,
   by and_intros <;> decide +kernel,
   by and_intros <;> first | with_reducible rfl | decide +kernel⟩

/-- States and operands that meet the hypotheses of Obligations.ManagementCommandsAreCheckedAndServed, clause by clause (13 to 24 of 26). -/
theorem meets_ManagementCommandsAreCheckedAndServed_2 :
    (let s : State := at7 0x7E
     let h : MctpHdr := {}
     let o : Nat := 0x1004
     (s.served h 0x7E = true)
       ∧ (s.img.applied = true ∨ earlyOff o = true ∧ earlyOff (o + 4) = true)
       ∧ (o % 8 ≠ 0))
    ∧ (let s : State := at7 0x7E
     let h : MctpHdr := {}
     let o : Nat := 0x10
     (s.MgmtOpen h)
       ∧ (o % 4 = 0)
       ∧ (polAt o = none))
    ∧ (let s : State := at7 0x7E
     let h : MctpHdr := {}
     let o : Nat := 0x4000
     let r : PolReg := (polAt o).getD .srMinIdle
     (s.MgmtOpen h)
       ∧ (o % 4 = 0)
       ∧ (polAt o = some r))
    ∧ (let s : State := at7 0x7E
     let h : MctpHdr := {}
     let o : Nat := 1
     (s.MgmtOpen h)
       ∧ (o % 4 ≠ 0))
    ∧ (let s : State := at7 0x7E
     let h : MctpHdr := {}
     let o : Nat := 4
     (s.MgmtOpen h)
       ∧ (o % 8 ≠ 0))
    ∧ (let s : State := at7 0x7E
     let h : MctpHdr := {}
     let o : Nat := 0x1000
     let d : DWord := 0
     let s1 : State := (s.mgmtWrite o (d.toNat % 2 ^ 32)).1
     let s2 : State := (s1.mgmtWrite (o + 4) (d.toNat / 2 ^ 32)).1
     let a : Bool := (s.mgmtWrite o (d.toNat % 2 ^ 32)).2
     let b : Bool := (s1.mgmtWrite (o + 4) (d.toNat / 2 ^ 32)).2
     (s.MgmtOpen h)
       ∧ (o % 8 = 0)
       ∧ (polAt o = none)
       ∧ (polAt (o + 4) = none)
       ∧ (o ≠ 0x4090)
       ∧ (gaugeAt o = none)
       ∧ (s.mgmtWrite o (d.toNat % 2 ^ 32) = (s1, a))
       ∧ (s1.mgmtWrite (o + 4) (d.toNat / 2 ^ 32) = (s2, b)))
    ∧ (let s : State := at7 0x7E
     let h : MctpHdr := {}
     let k : Nat := 60
     let n : Nat := 0
     (s.served h 0x7E = true)
       ∧ (0 < k)
       ∧ (k ≤ 60)
       ∧ (n ≤ s.flt.log.length)
       ∧ (n < 2 ^ 31)
       ∧ (s.flt.logFirst < 2 ^ 32)
       ∧ (s.flt.logFirst + n < 2 ^ 32))
    ∧ (let s : State := at7 0x7E
     let h : MctpHdr := {}
     let i : Nat := 255
     let k : Nat := 60
     let n : Nat := 0
     (s.served h 0x7E = true)
       ∧ (0 < k)
       ∧ (k ≤ 60)
       ∧ (n ≤ s.flt.log.length)
       ∧ (i < 256))
    ∧ (let s : State := at7 0x7E
     let h : MctpHdr := {}
     (s.MgmtOpen h)
       ∧ (s.boot.warm = 0)
       ∧ (s.boot.warmWait = none))
    ∧ (let s : State := at7 0x7E
     let h : MctpHdr := {}
     let v : Nat := 2
     (s.MgmtOpen h)
       ∧ (s.vdExists v = false))
    ∧ (let s : State := at7 0x7E
     let h : MctpHdr := {}
     let v : Nat := 1
     (s.MgmtOpen h)
       ∧ (s.vdExists v = true)
       ∧ ((s.vd v).st ≠ .resetting))
    ∧ (let s : State := { at7 0x7E with pool := { st := .member } }
     let h : MctpHdr := {}
     (s.MgmtOpen h)
       ∧ (s.pool.st = .member)) :=
  ⟨by and_intros <;> decide +kernel,
   by exact ⟨by simp only [State.WindowOpen, State.MailboxOpen, State.FmOpen, State.MgmtOpen]; decide +kernel, by with_reducible rfl, by decide +kernel⟩,
   by exact ⟨by simp only [State.WindowOpen, State.MailboxOpen, State.FmOpen, State.MgmtOpen]; decide +kernel, by with_reducible rfl, by decide +kernel⟩,
   by exact ⟨by simp only [State.WindowOpen, State.MailboxOpen, State.FmOpen, State.MgmtOpen]; decide +kernel, by decide +kernel⟩,
   by exact ⟨by simp only [State.WindowOpen, State.MailboxOpen, State.FmOpen, State.MgmtOpen]; decide +kernel, by decide +kernel⟩,
   by and_intros <;> first | with_reducible rfl | decide +kernel | (simp only [State.WindowOpen, State.MailboxOpen, State.FmOpen, State.MgmtOpen]; decide +kernel),
   by and_intros <;> first | with_reducible rfl | decide +kernel,
   by and_intros <;> first | with_reducible rfl | decide +kernel,
   by exact ⟨by simp only [State.WindowOpen, State.MailboxOpen, State.FmOpen, State.MgmtOpen]; decide +kernel, by decide +kernel, by decide +kernel⟩,
   by exact ⟨by simp only [State.WindowOpen, State.MailboxOpen, State.FmOpen, State.MgmtOpen]; decide +kernel, by decide +kernel⟩,
   by exact ⟨by simp only [State.WindowOpen, State.MailboxOpen, State.FmOpen, State.MgmtOpen]; decide +kernel, by decide +kernel, by decide +kernel⟩,
   by exact ⟨by simp only [State.WindowOpen, State.MailboxOpen, State.FmOpen, State.MgmtOpen]; decide +kernel, by with_reducible rfl⟩⟩

/-- States and operands that meet the hypotheses of Obligations.ManagementCommandsAreCheckedAndServed, clause by clause (25 to 26 of 26). -/
theorem meets_ManagementCommandsAreCheckedAndServed_3 :
    (let s : State := at7 0x7E
     let h : MctpHdr := {}
     (s.MgmtOpen h)
       ∧ (s.pool.st ≠ .member))
    ∧ (let s : State := at7 0x7E
     let h : MctpHdr := {}
     let x : Nat := 1
     (s.MgmtOpen h)
       ∧ (x ≤ 1)) :=
  ⟨by exact ⟨by simp only [State.WindowOpen, State.MailboxOpen, State.FmOpen, State.MgmtOpen]; decide +kernel, by decide +kernel⟩,
   by exact ⟨by simp only [State.WindowOpen, State.MailboxOpen, State.FmOpen, State.MgmtOpen]; decide +kernel, by with_reducible rfl⟩⟩

/-- States and operands that meet the hypotheses of Obligations.SpdmIsNegotiatedInOrderAndPldmTellsTheSensors, clause by clause. -/
theorem meets_SpdmIsNegotiatedInOrderAndPldmTellsTheSensors :
    (let s : State := at7 5
     let h : MctpHdr := { ty := 5 }
     (s.spdmServed h = true)
       ∧ (s.mgmt.spdm = 0))
    ∧ (let s : State := { live with mgmt := { bufs := [{ ty := 5 }], spdm := 1 } }
     let h : MctpHdr := { ty := 5 }
     (s.spdmServed h = true)
       ∧ (1 ≤ s.mgmt.spdm))
    ∧ (let s : State := { live with mgmt := { bufs := [{ ty := 5 }], spdm := 2 } }
     let h : MctpHdr := { ty := 5 }
     (s.spdmServed h = true)
       ∧ (2 ≤ s.mgmt.spdm))
    ∧ (let s : State := { live with mgmt := { bufs := [{ ty := 5 }], spdm := 2 } }
     let h : MctpHdr := { ty := 5 }
     (s.spdmServed h = true)
       ∧ (s.mgmt.spdm = 2))
    ∧ (let s : State := { live with mgmt := { bufs := [{ ty := 5 }], spdm := 3 } }
     let h : MctpHdr := { ty := 5 }
     let k : Nat := 7
     (s.spdmServed h = true)
       ∧ (3 ≤ s.mgmt.spdm)
       ∧ (k ≠ 0))
    ∧ (let s : State := { live with mgmt := { bufs := [{ ty := 5 }], spdm := 3 } }
     let h : MctpHdr := { ty := 5 }
     let k : Nat := 6
     (s.spdmServed h = true)
       ∧ (3 ≤ s.mgmt.spdm)
       ∧ (1 ≤ k)
       ∧ (k ≤ 6))
    ∧ (let s : State := { live with mgmt := { bufs := [{ ty := 5 }], spdm := 3, sessions := [(0, (none, true)), (1, (none, true)), (2, (none, true)), (3, (none, false))] } }
     let h : MctpHdr := { ty := 5 }
     (s.spdmServed h = true)
       ∧ (3 ≤ s.mgmt.spdm)
       ∧ (∀ i < 4, s.mgmt.sessions.find i ≠ none))
    ∧ (let s : State := { live with mgmt := { bufs := [{ ty := 5 }], spdm := 3, sessions := [(0, (none, true)), (1, (none, true)), (2, (none, true))] } }
     let h : MctpHdr := { ty := 5 }
     let k : Nat := 3
     (s.spdmServed h = true)
       ∧ (3 ≤ s.mgmt.spdm)
       ∧ (k < 4)
       ∧ (s.mgmt.sessions.find k = none)
       ∧ (∀ i < k, s.mgmt.sessions.find i ≠ none))
    ∧ (let s : State := { live with mgmt := { bufs := [{ ty := 5 }], spdm := 3, sessions := [(3, (none, false))] } }
     let h : MctpHdr := { ty := 5 }
     let k : Nat := 3
     (s.spdmServed h = true)
       ∧ (3 ≤ s.mgmt.spdm)
       ∧ (s.mgmt.sessions.find k = some (h.port, false)))
    ∧ (let s : State := { live with mgmt := { bufs := [{ ty := 5 }], spdm := 3, sessions := [(3, (none, true))] } }
     let h : MctpHdr := { ty := 5 }
     let k : Nat := 3
     (s.spdmServed h = true)
       ∧ (3 ≤ s.mgmt.spdm)
       ∧ (s.mgmt.sessions.find k = some (h.port, true)))
    ∧ (let s : State := at7 1
     let h : MctpHdr := { ty := 1 }
     let n : Nat := 254
     (s.served h 1 = true)
       ∧ (0 < n)
       ∧ (n < 255))
    ∧ (let s : State := at7 1
     let h : MctpHdr := { ty := 1 }
     let n : Nat := 1
     (s.served h 1 = true)
       ∧ (1 ≤ n)
       ∧ (n ≤ 11)
       ∧ (s.sensorOn n = true))
    ∧ (let s : State := at7 1
     let h : MctpHdr := { ty := 1 }
     let n : Nat := 10
     (s.served h 1 = true)
       ∧ (1 ≤ n)
       ∧ (n ≤ 11)
       ∧ (s.sensorOn n = false))
    ∧ (let s : State := at7 1
     let h : MctpHdr := { ty := 1 }
     let n : Nat := 12
     (s.served h 1 = true)
       ∧ (n = 0 ∨ 11 < n))
    ∧ (let s : State := at7 1
     let h : MctpHdr := { ty := 1 }
     let n : Nat := 12
     (s.served h 1 = true)
       ∧ (1 ≤ n)
       ∧ (n ≤ 12)
       ∧ (s.inv.fixed = true))
    ∧ (let s : State := { at7 1 with inv := {} }
     let h : MctpHdr := { ty := 1 }
     (s.served h 1 = true)
       ∧ (s.inv.fixed = false))
    ∧ (let s : State := { at7 1 with inv := {} }
     let h : MctpHdr := { ty := 1 }
     let n : Nat := 0
     let c : Nat := 6
     (s.served h 1 = true)
       ∧ (c ∉ pldmCommands n))
    ∧ (let i : Nat := 0
     let acked : Bool := false
     let e : PldmEvent := { sensor := 3, value := 1, sent := 4 }
     let s : State := { live with mgmt := { events := [e] } }
     (s.mgmt.events[i]? = some e)
       ∧ (acked = true ∨ 4 ≤ e.sent))
    ∧ (let i : Nat := 0
     let r : Nat := 9
     let acked : Bool := false
     let e : PldmEvent := { sensor := 3, value := 1, sent := 3 }
     let s : State := { live with mgmt := { events := [e], receiver := some 9 } }
     (s.mgmt.events[i]? = some e)
       ∧ (acked = false)
       ∧ (e.sent < 4)
       ∧ (s.mgmt.receiver = some r)) :=
  ⟨by and_intros <;> decide +kernel,
   by and_intros <;> first | with_reducible rfl | decide +kernel,
   by and_intros <;> first | with_reducible rfl | decide +kernel,
   by and_intros <;> first | with_reducible rfl | decide +kernel,
   by and_intros <;> first | with_reducible rfl | decide +kernel,
   by and_intros <;> first | with_reducible rfl | decide +kernel,
   by and_intros <;> first | with_reducible rfl | decide +kernel,
   by and_intros <;> first | with_reducible rfl | decide +kernel,
   by and_intros <;> first | with_reducible rfl | decide +kernel,
   by and_intros <;> first | with_reducible rfl | decide +kernel,
   by and_intros <;> decide +kernel,
   by and_intros <;> first | with_reducible rfl | decide +kernel,
   by and_intros <;> decide +kernel,
   by and_intros <;> decide +kernel,
   by and_intros <;> first | with_reducible rfl | decide +kernel,
   by and_intros <;> first | with_reducible rfl | decide +kernel,
   by and_intros <;> decide +kernel,
   by and_intros <;> decide +kernel,
   by and_intros <;> first | with_reducible rfl | decide +kernel⟩

/-- States and operands that meet the hypotheses of Obligations.HealthIsEvaluatedAndThePanelDrawsIt, clause by clause. -/
theorem meets_HealthIsEvaluatedAndThePanelDrawsIt :
    (let s : State := live
     let temp : Nat := 0
     let pw : Nat := 0
     let u : State := { s with boot := { s.boot with iodTemp := temp }, mgmt := { s.mgmt with cardPower := pw } }.sensorEvents
     (s.board.pwrOk = true)
       ∧ (2 ≤ s.boot.step)
       ∧ (u = { s with boot := { s.boot with iodTemp := temp }, mgmt := { s.mgmt with cardPower := pw } }.sensorEvents))
    ∧ (let s : State := { live with panel := { connector := true } }
     (s.boot.neverActive = true ∨ s.clk.source = 3 ∨ s.panel.connector = true ∨ s.boot.thermalHold = true ∨ ∃ r ∈ s.flt.log ++ s.flt.fatal, r.cls = RecClass.deviceFatal))
    ∧ (let s : State := disc 1
     (s.boot.neverActive = false)
       ∧ (s.clk.source ≠ 3)
       ∧ (s.panel.connector = false)
       ∧ (s.boot.thermalHold = false)
       ∧ (∀ r ∈ s.flt.log ++ s.flt.fatal, r.cls ≠ RecClass.deviceFatal)
       ∧ (s.boot.memActive = false))
    ∧ (let s : State := { live with flt := { fatal := [{ cls := .fatal }] } }
     (s.boot.neverActive = false)
       ∧ (s.clk.source ≠ 3)
       ∧ (s.panel.connector = false)
       ∧ (s.boot.thermalHold = false)
       ∧ (∀ r ∈ s.flt.log ++ s.flt.fatal, r.cls ≠ RecClass.deviceFatal)
       ∧ (s.boot.memActive = true)
       ∧ (∃ r ∈ s.flt.log ++ s.flt.fatal, r.cls = RecClass.fatal))
    ∧ (let s : State := live
     (s.boot.neverActive = false)
       ∧ (s.clk.source ≠ 3)
       ∧ (s.panel.connector = false)
       ∧ (s.boot.thermalHold = false)
       ∧ (∀ r ∈ s.flt.log ++ s.flt.fatal, r.cls ≠ RecClass.deviceFatal)
       ∧ (s.boot.memActive = true)
       ∧ (∀ r ∈ s.flt.log ++ s.flt.fatal, r.cls ≠ RecClass.fatal))
    ∧ (let s : State := { live with straps := { panel := true }, panel := { waiting := true } }
     (s.straps.panel = true)
       ∧ (s.board.pwrOk = true)
       ∧ (s.panel.mayStart = true))
    ∧ (let s : State := live
     (s.panel.mayStart = false))
    ∧ (let s : State := { live with panel := { step := 1 } }
     (s.panel.step = 1))
    ∧ (let s : State := { live with panel := { step := 2 } }
     (s.panel.step = 2))
    ∧ (let s : State := { live with panel := { step := 3 } }
     (s.panel.step = 3))
    ∧ (let s : State := { live with panel := { waiting := true, inProgress := true } }
     (s.panel.waiting = true)
       ∧ (s.panel.bootDrawn = false)
       ∧ (s.panel.inProgress = true)
       ∧ (s.panel.clearing = false)
       ∧ (s.panel.step = 0)
       ∧ (s.panel.comparator = false))
    ∧ (let s : State := { live with panel := { comparator := true, step := 2 } }
     (s.panel.comparator = true)
       ∧ (s.panel.step ≠ 0)) :=
  ⟨by and_intros <;> first | with_reducible rfl | decide +kernel,
   by decide +kernel,
   by and_intros <;> decide +kernel,
   by and_intros <;> decide +kernel,
   by and_intros <;> decide +kernel,
   by and_intros <;> first | with_reducible rfl | decide +kernel,
   by decide +kernel,
   by with_reducible rfl,
   by with_reducible rfl,
   by with_reducible rfl,
   by and_intros <;> with_reducible rfl,
   by and_intros <;> first | with_reducible rfl | decide +kernel⟩

/-- States and operands that meet the hypotheses of Obligations.StepRunsTheFrontCommand, clause by clause. -/
theorem meets_StepRunsTheFrontCommand :
    (let s : State := live
     (s.pending = [])
       ∧ (3 ≤ s.boot.step))
    ∧ (let s : State := {}
     (s.pending = [])
       ∧ (s.boot.step < 3)) :=
  ⟨by and_intros <;> decide +kernel,
   by and_intros <;> first | with_reducible rfl | decide +kernel⟩

/-- States and operands that meet the hypotheses of Obligations.CommandsLeaveTheQueueFusesAndStraps. -/
theorem meets_CommandsLeaveTheQueueFusesAndStraps :
    (let c : Instr := .vddIoInTolerance
     let s : State := live
     let t : State := { live with board := { live.board with vddIo := true } }
     (exec c s = .next t)
       ∧ (∀ a b, c ≠ .powerOn a b)) :=
  by exact ⟨by rfl, by intros; simp_all; done⟩

/-- States and operands that meet the hypotheses of Obligations.PowerUpOrderHoldsForEver. -/
theorem meets_PowerUpOrderHoldsForEver :
    (let s : State := State.reset
     let t : State := State.reset
     (s.BootOrder)
       ∧ (step s = .next t)) :=
  ⟨by unfold State.BootOrder; decide +kernel, rfl⟩

/-- States and operands that meet the hypotheses of Obligations.MemoryStaysCanonical. -/
theorem meets_MemoryStaysCanonical :
    (let s : State := State.reset
     let t : State := State.reset
     (s.MemCanonical)
       ∧ (step s = .next t)) :=
  ⟨by unfold State.MemCanonical; decide +kernel, rfl⟩

/-- States and operands that meet the hypotheses of Obligations.DeviceCommandsComplete, clause by clause (1 to 12 of 97). -/
theorem meets_DeviceCommandsComplete_1 :
    (let s : State := disc 0
     let t : State := { s.deadline 7 with dies := (s.deadline 7).dies.mapVal fun _ x => { x with st := x.fail.getD .active }, boot := { s.boot with step := 7 } }
     (s.board.pwrOk = true)
       ∧ (s.boot.step = 5)
       ∧ (t = { s.deadline 7 with dies := (s.deadline 7).dies.mapVal fun _ x => { x with st := x.fail.getD .active }, boot := { s.boot with step := 7 } })
       ∧ (s.boot.noImage = false)
       ∧ (s.boot.warmWait = none))
    ∧ (let c : Nat := 2
     let s : State := { disc 0 with boot := { step := 5, flashOk := true, warmWait := some 2 } }
     let t : State := { s.deadline 7 with dies := (s.deadline 7).dies.mapVal fun _ x => { x with st := x.fail.getD .active }, boot := { s.boot with step := 7 } }
     (s.board.pwrOk = true)
       ∧ (s.boot.step = 5)
       ∧ (t = { s.deadline 7 with dies := (s.deadline 7).dies.mapVal fun _ x => { x with st := x.fail.getD .active }, boot := { s.boot with step := 7 } })
       ∧ (s.boot.noImage = false)
       ∧ (s.boot.warmWait = some c))
    ∧ (let s : State := { disc 0 with boot := { step := 5, flashOk := true, noImage := true } }
     let t : State := { s.deadline 7 with dies := (s.deadline 7).dies.mapVal fun _ x => { x with st := x.fail.getD .active }, boot := { s.boot with step := 7 } }
     (s.board.pwrOk = true)
       ∧ (s.boot.step = 5)
       ∧ (t = { s.deadline 7 with dies := (s.deadline 7).dies.mapVal fun _ x => { x with st := x.fail.getD .active }, boot := { s.boot with step := 7 } })
       ∧ (s.boot.noImage = true)
       ∧ (s.boot.warmWait = none))
    ∧ (let d : Nat := 0
     let s : State := disc 2
     (s.dieAt d 2 = true))
    ∧ (let rev : Nat := 0
     let serial : Nat := 0
     let d : Nat := 0
     let s : State := disc 3
     let level : Nat := 1
     let t : State := s.modDie d (fun x => { x with idTries := (s.die d).idTries + 1, serial := serial % 2 ^ 32, rev := rev % 256, levelOffered := level % 256 })
     (s.dieAt d 3 = true)
       ∧ (t = s.modDie d (fun x => { x with idTries := (s.die d).idTries + 1, serial := serial % 2 ^ 32, rev := rev % 256, levelOffered := level % 256 }))
       ∧ ((s.die d).idTries < 2)
       ∧ (1 ≤ level % 256))
    ∧ (let level : Nat := 0
     let rev : Nat := 0
     let serial : Nat := 0
     let d : Nat := 0
     let s : State := disc 3
     let t : State := s.modDie d (fun x => { x with idTries := (s.die d).idTries + 1, serial := serial % 2 ^ 32, rev := rev % 256, levelOffered := level % 256 })
     (s.dieAt d 3 = true)
       ∧ (t = s.modDie d (fun x => { x with idTries := (s.die d).idTries + 1, serial := serial % 2 ^ 32, rev := rev % 256, levelOffered := level % 256 }))
       ∧ (2 ≤ (s.die d).idTries ∨ level % 256 = 0))
    ∧ (let d : Nat := 0
     let s : State := disc 6
     (s.dieAt d 6 = true))
    ∧ (let p : Nat := 0
     let s : State := { cold with ports := [(0, { refMode := 2, perst := false })] }
     (s.board.pwrOk = true)
       ∧ (5 ≤ s.boot.step)
       ∧ (p < 4)
       ∧ ((s.port p).link = 0)
       ∧ ((s.port p).perst = false)
       ∧ (s.boot.noImage = false)
       ∧ (s.clk.source ≠ 3)
       ∧ ((s.port p).refMode ≠ 3)
       ∧ ((s.port p).refMode = 2 ∨ (s.refMon p).valid = true))
    ∧ (let n : Nat := 0
     let s : State := cold
     (n < 3)
       ∧ (s.running = true)
       ∧ (5 ≤ s.boot.step)
       ∧ (s.boot.flashOk = true)
       ∧ (s.boot.done = false)
       ∧ ((s.slot n).staged = false)
       ∧ (s.stagingOpen = true))
    ∧ (let s : State := { cold with boot := { cold.boot with slots := (List.range 3).map fun i => (i, { staged := true }) } }
     (s.boot.step = 7)
       ∧ (s.boot.done = false)
       ∧ (∀ i < 3, (s.slot i).staged = true))
    ∧ (let n : Nat := 0
     let s : State := { cold with boot := { cold.boot with selected := 1, diesShort := true } }
     let img : Image := { applied := true, device := (s.slot n).img.device, ports := (s.slot n).img.ports }
     let lock : Bool := ((s.slot n).img.device.testLock && !s.boot.diesShort)
     let t : State := ((List.range 4).foldl State.applyPort { s with img := img, pol := s.imagePol img, boot := { s.boot with step := 8, testLock := lock, neverActive := s.boot.diesShort, memActive := !s.boot.diesShort }, jtag := if lock then s.jtag.lock else s.jtag, power := if lock then { s.power with testCom := [] } else s.power }).toAnchor
     (s.appliedSlot = some n)
       ∧ (s.img.applied = false)
       ∧ (s.boot.step = 7)
       ∧ (img = (if s.boot.diesShort then { applied := true, device := (s.slot n).img.device, ports := (s.slot n).img.ports } else (s.slot n).img))
       ∧ (lock = ((s.slot n).img.device.testLock && !s.boot.diesShort))
       ∧ (t = ((List.range 4).foldl State.applyPort { s with img := img, pol := s.imagePol img, boot := { s.boot with step := 8, testLock := lock, neverActive := s.boot.diesShort, memActive := !s.boot.diesShort }, jtag := if lock then s.jtag.lock else s.jtag, power := if lock then { s.power with testCom := [] } else s.power }).toAnchor)
       ∧ (s.boot.diesShort = true))
    ∧ (let n : Nat := 0
     let s : State := { cold with boot := { cold.boot with selected := 1 } }
     let img : Image := (s.slot n).img
     let lock : Bool := ((s.slot n).img.device.testLock && !s.boot.diesShort)
     let t : State := ((List.range 4).foldl State.applyPort { s with img := img, pol := s.imagePol img, boot := { s.boot with step := 8, testLock := lock, neverActive := s.boot.diesShort, memActive := !s.boot.diesShort }, jtag := if lock then s.jtag.lock else s.jtag, power := if lock then { s.power with testCom := [] } else s.power }).toAnchor
     (s.appliedSlot = some n)
       ∧ (s.img.applied = false)
       ∧ (s.boot.step = 7)
       ∧ (img = (if s.boot.diesShort then { applied := true, device := (s.slot n).img.device, ports := (s.slot n).img.ports } else (s.slot n).img))
       ∧ (lock = ((s.slot n).img.device.testLock && !s.boot.diesShort))
       ∧ (t = ((List.range 4).foldl State.applyPort { s with img := img, pol := s.imagePol img, boot := { s.boot with step := 8, testLock := lock, neverActive := s.boot.diesShort, memActive := !s.boot.diesShort }, jtag := if lock then s.jtag.lock else s.jtag, power := if lock then { s.power with testCom := [] } else s.power }).toAnchor)
       ∧ (s.boot.diesShort = false)) :=
  ⟨by and_intros <;> first | with_reducible rfl | decide +kernel,
   by and_intros <;> first | with_reducible rfl | decide +kernel,
   by and_intros <;> first | with_reducible rfl | decide +kernel,
   by decide +kernel,
   by and_intros <;> first | with_reducible rfl | decide +kernel,
   by and_intros <;> first | with_reducible rfl | decide +kernel,
   by decide +kernel,
   by and_intros <;> decide +kernel,
   by and_intros <;> decide +kernel,
   by and_intros <;> decide +kernel,
   by and_intros <;> first | with_reducible rfl | decide +kernel,
   by and_intros <;> first | with_reducible rfl | decide +kernel⟩

/-- States and operands that meet the hypotheses of Obligations.DeviceCommandsComplete, clause by clause (13 to 24 of 97). -/
theorem meets_DeviceCommandsComplete_2 :
    (let s : State := { live with boot := { live.boot with warm := 2 } }
     (s.boot.warm = 2))
    ∧ (let acked : List Nat := []
     let s : State := { live with boot := { live.boot with warm := 3 } }
     let u : State := s.fresh.demoteAll.abandonCopies.flushCaches.abandonWb acked
     let t : State := (u.vdList.foldl State.warmVd u).hopWarm.clearBays.warmUnits.dropPolicy
     (s.boot.warm = 3)
       ∧ (s.requestsDone = true)
       ∧ (u = s.fresh.demoteAll.abandonCopies.flushCaches.abandonWb acked)
       ∧ (t = (u.vdList.foldl State.warmVd u).hopWarm.clearBays.warmUnits.dropPolicy)
       ∧ (t.stall = []))
    ∧ (let s : State := { live with boot := { live.boot with warm := 5 } }
     (s.boot.warm = 5))
    ∧ (let pick : Nat := 0
     let s : State := { live with boot := { live.boot with warm := 6 } }
     let u : State := s.fresh
     let t : State := (((u.vdList.filter fun v => u.resetAt v 5).foldl State.vdReady { u with boot := { u.boot with warm := 0 }, power := { u.power with refresh := [] } }).flushHeld.answerReads.releaseAll pick).releasePeers pick
     (s.boot.warm = 6)
       ∧ (u = s.fresh)
       ∧ (t = (((u.vdList.filter fun v => u.resetAt v 5).foldl State.vdReady { u with boot := { u.boot with warm := 0 }, power := { u.power with refresh := [] } }).flushHeld.answerReads.releaseAll pick).releasePeers pick)
       ∧ (t.stall = []))
    ∧ (let p : Nat := 0
     let s : State := live
     (p < 4)
       ∧ (s.board.pwrOk = true)
       ∧ (s.running = true)
       ∧ ((s.port p).link = 2))
    ∧ (let r : Nat := 0
     let s : State := { live with img := { imgT with device := { policyVd := 0, anchorSel := 0 } } }
     let ns : Nat := 1
     (s.monitored r = true)
       ∧ (ns < 100)
       ∧ (s.anchor = some r))
    ∧ (let r : Nat := 0
     let s : State := live
     (s.monitored r = true)
       ∧ ((s.refMon r).valid = true ∨ (s.refMon r).counting = true))
    ∧ (let r : Nat := 0
     let s : State := live
     let hz : Nat := 100000000
     let m : RefMon := s.refMon r
     (s.monitored r = true)
       ∧ (m = s.refMon r)
       ∧ (s.inBand hz = true))
    ∧ (let r : Nat := 0
     let s : State := live
     let hz : Nat := 5
     let m : RefMon := s.refMon r
     (s.monitored r = true)
       ∧ (m = s.refMon r)
       ∧ (s.inBand hz = false)
       ∧ ((m.out && m.valid) = false))
    ∧ (let r : Nat := 0
     let s : State := { live with clk := { refs := [(0, { valid := true, out := true })] } }
     let hz : Nat := 5
     let m : RefMon := s.refMon r
     (s.monitored r = true)
       ∧ (m = s.refMon r)
       ∧ (s.inBand hz = false)
       ∧ ((m.out && m.valid) = true))
    ∧ (let s : State := live
     let r : Nat := 1
     (s.monitored r = true)
       ∧ ((s.refMon r).valid = false)
       ∧ ((s.refMon r).out = false)
       ∧ (s.anchor ≠ some r ∨ s.clk.source ≠ 1))
    ∧ (let r : Nat := 0
     let s : State := { live with clk := { source := 1 }, img := { imgT with device := { policyVd := 0, anchorSel := 0 } } }
     (s.monitored r = true)
       ∧ ((s.refMon r).valid = false)
       ∧ ((s.refMon r).out = false)
       ∧ (s.anchor = some r)
       ∧ (s.clk.source = 1)) :=
  ⟨by with_reducible rfl,
   by and_intros <;> first | with_reducible rfl | decide +kernel,
   by with_reducible rfl,
   by and_intros <;> first | with_reducible rfl | decide +kernel,
   by and_intros <;> decide +kernel,
   by and_intros <;> decide +kernel,
   by and_intros <;> decide +kernel,
   by and_intros <;> first | with_reducible rfl | decide +kernel,
   by and_intros <;> first | with_reducible rfl | decide +kernel,
   by and_intros <;> first | with_reducible rfl | decide +kernel,
   by and_intros <;> decide +kernel,
   by and_intros <;> first | with_reducible rfl | decide +kernel⟩

/-- States and operands that meet the hypotheses of Obligations.DeviceCommandsComplete, clause by clause (25 to 36 of 97). -/
theorem meets_DeviceCommandsComplete_3 :
    (let s : State := live
     let s1 : State := { s with clk := { s.clk with quietFail := true, quietBad := true } }
     (s.monitored 0 = true)
       ∧ (s.clk.quietBad = false)
       ∧ (s1 = { s with clk := { s.clk with quietFail := true, quietBad := true } })
       ∧ (s.clk.source = 0))
    ∧ (let s : State := { live with clk := { source := 1 } }
     let s1 : State := { s with clk := { s.clk with quietFail := true, quietBad := true } }
     (s.monitored 0 = true)
       ∧ (s.clk.quietBad = false)
       ∧ (s1 = { s with clk := { s.clk with quietFail := true, quietBad := true } })
       ∧ (s.clk.source ≠ 0))
    ∧ (let hot : Bool := false
     let d : Nat := 0
     let s : State := live
     let rs : List (Option Nat) := [some 50]
     let thr : Bool := (decide (105 ≤ stackTemp rs) || ((s.die d).throttle && decide (102 ≤ stackTemp rs)))
     let t : State := s.modDie d (fun x => { x with temp := stackTemp rs, hot := hot, throttle := thr })
     let u : State := (if (hot && !(s.die d).hot) || (thr && !(s.die d).throttle) then t.eventAll 1 { kind := .memoryModule, ty := .temperatureChange } else t)
     ((s.die d).st = .active)
       ∧ (hot = (decide (95 ≤ stackTemp rs) || ((s.die d).hot && decide (92 ≤ stackTemp rs))))
       ∧ (thr = (decide (105 ≤ stackTemp rs) || ((s.die d).throttle && decide (102 ≤ stackTemp rs))))
       ∧ (t = s.modDie d (fun x => { x with temp := stackTemp rs, hot := hot, throttle := thr }))
       ∧ (u = (if (hot && !(s.die d).hot) || (thr && !(s.die d).throttle) then t.eventAll 1 { kind := .memoryModule, ty := .temperatureChange } else t))
       ∧ (stackTemp rs < 115))
    ∧ (let d : Nat := 0
     let hot : Bool := true
     let s : State := live
     let rs : List (Option Nat) := [some 120]
     let thr : Bool := (decide (105 ≤ stackTemp rs) || ((s.die d).throttle && decide (102 ≤ stackTemp rs)))
     let t : State := s.modDie d (fun x => { x with temp := stackTemp rs, hot := hot, throttle := thr })
     let u : State := (if (hot && !(s.die d).hot) || (thr && !(s.die d).throttle) then t.eventAll 1 { kind := .memoryModule, ty := .temperatureChange } else t)
     ((s.die d).st = .active)
       ∧ (hot = (decide (95 ≤ stackTemp rs) || ((s.die d).hot && decide (92 ≤ stackTemp rs))))
       ∧ (thr = (decide (105 ≤ stackTemp rs) || ((s.die d).throttle && decide (102 ≤ stackTemp rs))))
       ∧ (t = s.modDie d (fun x => { x with temp := stackTemp rs, hot := hot, throttle := thr }))
       ∧ (u = (if (hot && !(s.die d).hot) || (thr && !(s.die d).throttle) then t.eventAll 1 { kind := .memoryModule, ty := .temperatureChange } else t))
       ∧ (115 ≤ stackTemp rs))
    ∧ (let idle : Nat := 0
     let choice : Nat := 0
     let n : Nat := 0
     let s : State := live
     let i : Nat := (s.gateBound choice (s.pol.pgMinIdle * 1000)).1
     let s1 : State := (s.gateBound choice (s.pol.pgMinIdle * 1000)).2
     (s.sliceOn n = true)
       ∧ (s.gateSt n ≠ 2)
       ∧ (s.sliceIdle n = true)
       ∧ (s.baysUsed n = false)
       ∧ (bit s.pol.keepAwake n = false)
       ∧ (s.gateBound choice (s.pol.pgMinIdle * 1000) = (i, s1))
       ∧ (idle < i))
    ∧ (let choice : Nat := 0
     let n : Nat := 0
     let s : State := { live with slices := [(0, { frames := [(0, { st := .re, line := 2 ^ 34, v := 15, d := 15 })] })] }
     let idle : Nat := 1000
     let i : Nat := (s.gateBound choice (s.pol.pgMinIdle * 1000)).1
     let s1 : State := (s.gateBound choice (s.pol.pgMinIdle * 1000)).2
     let u : State := ((s1.slice n).frames.map (·.1)).foldl (fun (s : State) k => s.evict n k) s1
     (s.sliceOn n = true)
       ∧ (s.gateSt n ≠ 2)
       ∧ (s.sliceIdle n = true)
       ∧ (s.baysUsed n = false)
       ∧ (bit s.pol.keepAwake n = false)
       ∧ (s.gateBound choice (s.pol.pgMinIdle * 1000) = (i, s1))
       ∧ (i ≤ idle)
       ∧ (u = ((s1.slice n).frames.map (·.1)).foldl (fun (s : State) k => s.evict n k) s1)
       ∧ ((u.slice n).miss ≠ []))
    ∧ (let choice : Nat := 0
     let n : Nat := 0
     let s : State := live
     let idle : Nat := 1000
     let i : Nat := (s.gateBound choice (s.pol.pgMinIdle * 1000)).1
     let s1 : State := (s.gateBound choice (s.pol.pgMinIdle * 1000)).2
     let u : State := ((s1.slice n).frames.map (·.1)).foldl (fun (s : State) k => s.evict n k) s1
     (s.sliceOn n = true)
       ∧ (s.gateSt n ≠ 2)
       ∧ (s.sliceIdle n = true)
       ∧ (s.baysUsed n = false)
       ∧ (bit s.pol.keepAwake n = false)
       ∧ (s.gateBound choice (s.pol.pgMinIdle * 1000) = (i, s1))
       ∧ (i ≤ idle)
       ∧ (u = ((s1.slice n).frames.map (·.1)).foldl (fun (s : State) k => s.evict n k) s1)
       ∧ ((u.slice n).miss = []))
    ∧ (let idle : Nat := 0
     let choice : Nat := 0
     let d : Nat := 0
     let s : State := live
     let i : Nat := (s.gateBound choice (s.pol.srMinIdle * 1000)).1
     let s1 : State := (s.gateBound choice (s.pol.srMinIdle * 1000)).2
     ((s.die d).st = .active)
       ∧ (s.dieIdle d = true)
       ∧ (s.power.refresh.contains d = false)
       ∧ (s.gateBound choice (s.pol.srMinIdle * 1000) = (i, s1))
       ∧ (idle < i))
    ∧ (let choice : Nat := 0
     let d : Nat := 0
     let s : State := live
     let idle : Nat := 1000
     let i : Nat := (s.gateBound choice (s.pol.srMinIdle * 1000)).1
     let s1 : State := (s.gateBound choice (s.pol.srMinIdle * 1000)).2
     ((s.die d).st = .active)
       ∧ (s.dieIdle d = true)
       ∧ (s.power.refresh.contains d = false)
       ∧ (s.gateBound choice (s.pol.srMinIdle * 1000) = (i, s1))
       ∧ (i ≤ idle))
    ∧ (let die : Nat := 0
     let s : State := live
     (s.leatOn die = true))
    ∧ (let v : Nat := 0
     let s : State := live
     let r : PolReg := .refreshCap
     (s.img.device.policyVd = v)
       ∧ (s.WindowOpen v))
    ∧ (let w : PolWrite := { reg := .refreshCap, val := 3900 }
     let s : State := { live with polq := { queue := [w] } }
     let ws : List PolWrite := []
     let t : State := { s with polq := { s.polq with queue := ws }.refill }
     let fin : State → State := (fun x => if x.boot.warm ≠ 0 ∨ x.boot.held = [] then x else s.orWait 0 fun f => ({ x with stall := f.stall } : State).flushHeld)
     let u : State := { t with pol := t.pol.set w.reg (s.polValue w), polq := { t.polq with cur := some w, result := 0 } }
     (s.polq.queue = w :: ws)
       ∧ (s.polq.cur = none)
       ∧ (s.polOpen = true)
       ∧ (t = { s with polq := { s.polq with queue := ws }.refill })
       ∧ (fin = (fun x => if x.boot.warm ≠ 0 ∨ x.boot.held = [] then x else s.orWait 0 fun f => ({ x with stall := f.stall } : State).flushHeld))
       ∧ (s.polInRange w.reg (s.polValue w) = true)
       ∧ (u = { t with pol := t.pol.set w.reg (s.polValue w), polq := { t.polq with cur := some w, result := 0 } })
       ∧ (w.reg = .refreshCap)) :=
  ⟨by and_intros <;> first | with_reducible rfl | decide +kernel,
   by and_intros <;> first | with_reducible rfl | decide +kernel,
   by and_intros <;> first | with_reducible rfl | decide +kernel,
   by and_intros <;> first | with_reducible rfl | decide +kernel,
   by and_intros <;> first | with_reducible rfl | decide +kernel,
   by and_intros <;> first | with_reducible rfl | decide +kernel,
   by and_intros <;> first | with_reducible rfl | decide +kernel,
   by and_intros <;> first | with_reducible rfl | decide +kernel,
   by and_intros <;> first | with_reducible rfl | decide +kernel,
   by decide +kernel,
   by and_intros <;> first | with_reducible rfl | decide +kernel,
   by and_intros <;> first | with_reducible rfl | decide +kernel⟩

/-- States and operands that meet the hypotheses of Obligations.DeviceCommandsComplete, clause by clause (37 to 48 of 97). -/
theorem meets_DeviceCommandsComplete_4 :
    (let w : PolWrite := { reg := .srMinIdle, val := 1 }
     let s : State := { live with polq := { queue := [w] } }
     let ws : List PolWrite := []
     let t : State := { s with polq := { s.polq with queue := ws }.refill }
     let fin : State → State := (fun x => if x.boot.warm ≠ 0 ∨ x.boot.held = [] then x else s.orWait 0 fun f => ({ x with stall := f.stall } : State).flushHeld)
     let u : State := { t with pol := t.pol.set w.reg (s.polValue w), polq := { t.polq with cur := some w, result := 0 } }
     (s.polq.queue = w :: ws)
       ∧ (s.polq.cur = none)
       ∧ (s.polOpen = true)
       ∧ (t = { s with polq := { s.polq with queue := ws }.refill })
       ∧ (fin = (fun x => if x.boot.warm ≠ 0 ∨ x.boot.held = [] then x else s.orWait 0 fun f => ({ x with stall := f.stall } : State).flushHeld))
       ∧ (s.polInRange w.reg (s.polValue w) = true)
       ∧ (u = { t with pol := t.pol.set w.reg (s.polValue w), polq := { t.polq with cur := some w, result := 0 } })
       ∧ (w.reg = .srMinIdle))
    ∧ (let w : PolWrite := { reg := .pgMinIdle, val := 10 }
     let s : State := { live with polq := { queue := [w] } }
     let ws : List PolWrite := []
     let t : State := { s with polq := { s.polq with queue := ws }.refill }
     let fin : State → State := (fun x => if x.boot.warm ≠ 0 ∨ x.boot.held = [] then x else s.orWait 0 fun f => ({ x with stall := f.stall } : State).flushHeld)
     let u : State := { t with pol := t.pol.set w.reg (s.polValue w), polq := { t.polq with cur := some w, result := 0 } }
     (s.polq.queue = w :: ws)
       ∧ (s.polq.cur = none)
       ∧ (s.polOpen = true)
       ∧ (t = { s with polq := { s.polq with queue := ws }.refill })
       ∧ (fin = (fun x => if x.boot.warm ≠ 0 ∨ x.boot.held = [] then x else s.orWait 0 fun f => ({ x with stall := f.stall } : State).flushHeld))
       ∧ (s.polInRange w.reg (s.polValue w) = true)
       ∧ (u = { t with pol := t.pol.set w.reg (s.polValue w), polq := { t.polq with cur := some w, result := 0 } })
       ∧ (w.reg = .pgMinIdle))
    ∧ (let w : PolWrite := { reg := .spillMaxK, val := 64 }
     let s : State := { live with polq := { queue := [w] } }
     let ws : List PolWrite := []
     let t : State := { s with polq := { s.polq with queue := ws }.refill }
     let fin : State → State := (fun x => if x.boot.warm ≠ 0 ∨ x.boot.held = [] then x else s.orWait 0 fun f => ({ x with stall := f.stall } : State).flushHeld)
     let u : State := { t with pol := t.pol.set w.reg (s.polValue w), polq := { t.polq with cur := some w, result := 0 } }
     (s.polq.queue = w :: ws)
       ∧ (s.polq.cur = none)
       ∧ (s.polOpen = true)
       ∧ (t = { s with polq := { s.polq with queue := ws }.refill })
       ∧ (fin = (fun x => if x.boot.warm ≠ 0 ∨ x.boot.held = [] then x else s.orWait 0 fun f => ({ x with stall := f.stall } : State).flushHeld))
       ∧ (s.polInRange w.reg (s.polValue w) = true)
       ∧ (u = { t with pol := t.pol.set w.reg (s.polValue w), polq := { t.polq with cur := some w, result := 0 } })
       ∧ (w.reg = .spillMaxK))
    ∧ (let w : PolWrite := { reg := .hylEqHold, val := 0 }
     let s : State := { live with polq := { queue := [w] } }
     let ws : List PolWrite := []
     let t : State := { s with polq := { s.polq with queue := ws }.refill }
     let fin : State → State := (fun x => if x.boot.warm ≠ 0 ∨ x.boot.held = [] then x else s.orWait 0 fun f => ({ x with stall := f.stall } : State).flushHeld)
     let u : State := { t with pol := t.pol.set w.reg (s.polValue w), polq := { t.polq with cur := some w, result := 0 } }
     (s.polq.queue = w :: ws)
       ∧ (s.polq.cur = none)
       ∧ (s.polOpen = true)
       ∧ (t = { s with polq := { s.polq with queue := ws }.refill })
       ∧ (fin = (fun x => if x.boot.warm ≠ 0 ∨ x.boot.held = [] then x else s.orWait 0 fun f => ({ x with stall := f.stall } : State).flushHeld))
       ∧ (s.polInRange w.reg (s.polValue w) = true)
       ∧ (u = { t with pol := t.pol.set w.reg (s.polValue w), polq := { t.polq with cur := some w, result := 0 } })
       ∧ (w.reg = .hylEqHold))
    ∧ (let k : Nat := 0
     let w : PolWrite := { reg := .fmWscale k, val := 16 }
     let s : State := { live with polq := { queue := [w] } }
     let ws : List PolWrite := []
     let t : State := { s with polq := { s.polq with queue := ws }.refill }
     let fin : State → State := (fun x => if x.boot.warm ≠ 0 ∨ x.boot.held = [] then x else s.orWait 0 fun f => ({ x with stall := f.stall } : State).flushHeld)
     let u : State := { t with pol := t.pol.set w.reg (s.polValue w), polq := { t.polq with cur := some w, result := 0 } }
     (s.polq.queue = w :: ws)
       ∧ (s.polq.cur = none)
       ∧ (s.polOpen = true)
       ∧ (t = { s with polq := { s.polq with queue := ws }.refill })
       ∧ (fin = (fun x => if x.boot.warm ≠ 0 ∨ x.boot.held = [] then x else s.orWait 0 fun f => ({ x with stall := f.stall } : State).flushHeld))
       ∧ (s.polInRange w.reg (s.polValue w) = true)
       ∧ (u = { t with pol := t.pol.set w.reg (s.polValue w), polq := { t.polq with cur := some w, result := 0 } })
       ∧ (w.reg = .fmWscale k))
    ∧ (let k : Nat := 0
     let w : PolWrite := { reg := .quotaTask k, val := 8 }
     let s : State := { live with polq := { queue := [w] } }
     let ws : List PolWrite := []
     let t : State := { s with polq := { s.polq with queue := ws }.refill }
     let fin : State → State := (fun x => if x.boot.warm ≠ 0 ∨ x.boot.held = [] then x else s.orWait 0 fun f => ({ x with stall := f.stall } : State).flushHeld)
     let u : State := { t with pol := t.pol.set w.reg (s.polValue w), polq := { t.polq with cur := some w, result := 0 } }
     (s.polq.queue = w :: ws)
       ∧ (s.polq.cur = none)
       ∧ (s.polOpen = true)
       ∧ (t = { s with polq := { s.polq with queue := ws }.refill })
       ∧ (fin = (fun x => if x.boot.warm ≠ 0 ∨ x.boot.held = [] then x else s.orWait 0 fun f => ({ x with stall := f.stall } : State).flushHeld))
       ∧ (s.polInRange w.reg (s.polValue w) = true)
       ∧ (u = { t with pol := t.pol.set w.reg (s.polValue w), polq := { t.polq with cur := some w, result := 0 } })
       ∧ (w.reg = .quotaTask k))
    ∧ (let k : Nat := 0
     let w : PolWrite := { reg := .quotaBuf k, val := 8 }
     let s : State := { live with polq := { queue := [w] } }
     let ws : List PolWrite := []
     let t : State := { s with polq := { s.polq with queue := ws }.refill }
     let fin : State → State := (fun x => if x.boot.warm ≠ 0 ∨ x.boot.held = [] then x else s.orWait 0 fun f => ({ x with stall := f.stall } : State).flushHeld)
     let u : State := { t with pol := t.pol.set w.reg (s.polValue w), polq := { t.polq with cur := some w, result := 0 } }
     (s.polq.queue = w :: ws)
       ∧ (s.polq.cur = none)
       ∧ (s.polOpen = true)
       ∧ (t = { s with polq := { s.polq with queue := ws }.refill })
       ∧ (fin = (fun x => if x.boot.warm ≠ 0 ∨ x.boot.held = [] then x else s.orWait 0 fun f => ({ x with stall := f.stall } : State).flushHeld))
       ∧ (s.polInRange w.reg (s.polValue w) = true)
       ∧ (u = { t with pol := t.pol.set w.reg (s.polValue w), polq := { t.polq with cur := some w, result := 0 } })
       ∧ (w.reg = .quotaBuf k))
    ∧ (let k : Nat := 0
     let w : PolWrite := { reg := .quotaPage k, val := 4096 }
     let s : State := { live with polq := { queue := [w] } }
     let ws : List PolWrite := []
     let t : State := { s with polq := { s.polq with queue := ws }.refill }
     let fin : State → State := (fun x => if x.boot.warm ≠ 0 ∨ x.boot.held = [] then x else s.orWait 0 fun f => ({ x with stall := f.stall } : State).flushHeld)
     let u : State := { t with pol := t.pol.set w.reg (s.polValue w), polq := { t.polq with cur := some w, result := 0 } }
     (s.polq.queue = w :: ws)
       ∧ (s.polq.cur = none)
       ∧ (s.polOpen = true)
       ∧ (t = { s with polq := { s.polq with queue := ws }.refill })
       ∧ (fin = (fun x => if x.boot.warm ≠ 0 ∨ x.boot.held = [] then x else s.orWait 0 fun f => ({ x with stall := f.stall } : State).flushHeld))
       ∧ (s.polInRange w.reg (s.polValue w) = true)
       ∧ (u = { t with pol := t.pol.set w.reg (s.polValue w), polq := { t.polq with cur := some w, result := 0 } })
       ∧ (w.reg = .quotaPage k))
    ∧ (let k : Nat := 0
     let w : PolWrite := { reg := .quotaPen k, val := 8 }
     let s : State := { live with polq := { queue := [w] } }
     let ws : List PolWrite := []
     let t : State := { s with polq := { s.polq with queue := ws }.refill }
     let fin : State → State := (fun x => if x.boot.warm ≠ 0 ∨ x.boot.held = [] then x else s.orWait 0 fun f => ({ x with stall := f.stall } : State).flushHeld)
     let u : State := { t with pol := t.pol.set w.reg (s.polValue w), polq := { t.polq with cur := some w, result := 0 } }
     (s.polq.queue = w :: ws)
       ∧ (s.polq.cur = none)
       ∧ (s.polOpen = true)
       ∧ (t = { s with polq := { s.polq with queue := ws }.refill })
       ∧ (fin = (fun x => if x.boot.warm ≠ 0 ∨ x.boot.held = [] then x else s.orWait 0 fun f => ({ x with stall := f.stall } : State).flushHeld))
       ∧ (s.polInRange w.reg (s.polValue w) = true)
       ∧ (u = { t with pol := t.pol.set w.reg (s.polValue w), polq := { t.polq with cur := some w, result := 0 } })
       ∧ (w.reg = .quotaPen k))
    ∧ (let k : Nat := 0
     let w : PolWrite := { reg := .qos k, val := 5 }
     let s : State := { live with polq := { queue := [w] } }
     let ws : List PolWrite := []
     let t : State := { s with polq := { s.polq with queue := ws }.refill }
     let fin : State → State := (fun x => if x.boot.warm ≠ 0 ∨ x.boot.held = [] then x else s.orWait 0 fun f => ({ x with stall := f.stall } : State).flushHeld)
     let u : State := { t with pol := t.pol.set w.reg (s.polValue w), polq := { t.polq with cur := some w, result := 0 } }
     (s.polq.queue = w :: ws)
       ∧ (s.polq.cur = none)
       ∧ (s.polOpen = true)
       ∧ (t = { s with polq := { s.polq with queue := ws }.refill })
       ∧ (fin = (fun x => if x.boot.warm ≠ 0 ∨ x.boot.held = [] then x else s.orWait 0 fun f => ({ x with stall := f.stall } : State).flushHeld))
       ∧ (s.polInRange w.reg (s.polValue w) = true)
       ∧ (u = { t with pol := t.pol.set w.reg (s.polValue w), polq := { t.polq with cur := some w, result := 0 } })
       ∧ (w.reg = .qos k))
    ∧ (let k : Nat := 0
     let w : PolWrite := { reg := .fmThresh k, val := 1 }
     let s : State := { live with polq := { queue := [w] } }
     let ws : List PolWrite := []
     let t : State := { s with polq := { s.polq with queue := ws }.refill }
     let fin : State → State := (fun x => if x.boot.warm ≠ 0 ∨ x.boot.held = [] then x else s.orWait 0 fun f => ({ x with stall := f.stall } : State).flushHeld)
     let u : State := { t with pol := t.pol.set w.reg (s.polValue w), polq := { t.polq with cur := some w, result := 0 } }
     (s.polq.queue = w :: ws)
       ∧ (s.polq.cur = none)
       ∧ (s.polOpen = true)
       ∧ (t = { s with polq := { s.polq with queue := ws }.refill })
       ∧ (fin = (fun x => if x.boot.warm ≠ 0 ∨ x.boot.held = [] then x else s.orWait 0 fun f => ({ x with stall := f.stall } : State).flushHeld))
       ∧ (s.polInRange w.reg (s.polValue w) = true)
       ∧ (u = { t with pol := t.pol.set w.reg (s.polValue w), polq := { t.polq with cur := some w, result := 0 } })
       ∧ (w.reg = .fmThresh k))
    ∧ (let k : Nat := 0
     let w : PolWrite := { reg := .regionPolicy k, val := 0 }
     let s : State := { live with polq := { queue := [w] } }
     let ws : List PolWrite := []
     let t : State := { s with polq := { s.polq with queue := ws }.refill }
     let u : State := { t with pol := t.pol.set w.reg (s.polValue w), polq := { t.polq with cur := some w, result := 0 } }
     let x : State := u.abandonMoves (fun m => decide (m.by_ = .fantail) && bit (u.regionPolicy m.vd (m.page * 65536)) 2)
     let fin : State → State := (fun x => if x.boot.warm ≠ 0 ∨ x.boot.held = [] then x else s.orWait 0 fun f => ({ x with stall := f.stall } : State).flushHeld)
     (s.polq.queue = w :: ws)
       ∧ (s.polq.cur = none)
       ∧ (s.polOpen = true)
       ∧ (t = { s with polq := { s.polq with queue := ws }.refill })
       ∧ (fin = (fun x => if x.boot.warm ≠ 0 ∨ x.boot.held = [] then x else s.orWait 0 fun f => ({ x with stall := f.stall } : State).flushHeld))
       ∧ (s.polInRange w.reg (s.polValue w) = true)
       ∧ (u = { t with pol := t.pol.set w.reg (s.polValue w), polq := { t.polq with cur := some w, result := 0 } })
       ∧ (x = u.abandonMoves (fun m => decide (m.by_ = .fantail) && bit (u.regionPolicy m.vd (m.page * 65536)) 2))
       ∧ (w.reg = .regionPolicy k)) :=
  ⟨by and_intros <;> first | with_reducible rfl | decide +kernel,
   by and_intros <;> first | with_reducible rfl | decide +kernel,
   by and_intros <;> first | with_reducible rfl | decide +kernel,
   by and_intros <;> first | with_reducible rfl | decide +kernel,
   by and_intros <;> first | with_reducible rfl | decide +kernel,
   by and_intros <;> first | with_reducible rfl | decide +kernel,
   by and_intros <;> first | with_reducible rfl | decide +kernel,
   by and_intros <;> first | with_reducible rfl | decide +kernel,
   by and_intros <;> first | with_reducible rfl | decide +kernel,
   by and_intros <;> first | with_reducible rfl | decide +kernel,
   by and_intros <;> first | with_reducible rfl | decide +kernel,
   by and_intros <;> first | with_reducible rfl | decide +kernel⟩

/-- States and operands that meet the hypotheses of Obligations.DeviceCommandsComplete, clause by clause (49 to 60 of 97). -/
theorem meets_DeviceCommandsComplete_5 :
    (let w : PolWrite := { reg := .fantailCtrl, val := 1 }
     let s : State := { live with polq := { queue := [w] } }
     let ws : List PolWrite := []
     let t : State := { s with polq := { s.polq with queue := ws }.refill }
     let u : State := { t with pol := t.pol.set w.reg (s.polValue w), polq := { t.polq with cur := some w, result := 0 } }
     let x : State := (if u.pol.fantailEnable then u else u.abandonMoves fun m => decide (m.by_ = .fantail))
     let fin : State → State := (fun x => if x.boot.warm ≠ 0 ∨ x.boot.held = [] then x else s.orWait 0 fun f => ({ x with stall := f.stall } : State).flushHeld)
     (s.polq.queue = w :: ws)
       ∧ (s.polq.cur = none)
       ∧ (s.polOpen = true)
       ∧ (t = { s with polq := { s.polq with queue := ws }.refill })
       ∧ (fin = (fun x => if x.boot.warm ≠ 0 ∨ x.boot.held = [] then x else s.orWait 0 fun f => ({ x with stall := f.stall } : State).flushHeld))
       ∧ (s.polInRange w.reg (s.polValue w) = true)
       ∧ (u = { t with pol := t.pol.set w.reg (s.polValue w), polq := { t.polq with cur := some w, result := 0 } })
       ∧ (x = (if u.pol.fantailEnable then u else u.abandonMoves fun m => decide (m.by_ = .fantail)))
       ∧ (w.reg = .fantailCtrl))
    ∧ (let pick : Nat := 0
     let w : PolWrite := { reg := .keepAwake, val := 0 }
     let s : State := { live with polq := { queue := [w] } }
     let ws : List PolWrite := []
     let t : State := { s with polq := { s.polq with queue := ws }.refill }
     let u : State := { t with pol := t.pol.set w.reg (s.polValue w), polq := { t.polq with cur := some w, result := 0 } }
     let x : State := (u.inv.slices.filter fun n => bit u.pol.keepAwake n && decide (u.gateSt n ≠ 0)).foldl (fun s n => s.wakeSlice n pick) u
     let fin : State → State := (fun x => if x.boot.warm ≠ 0 ∨ x.boot.held = [] then x else s.orWait 0 fun f => ({ x with stall := f.stall } : State).flushHeld)
     (s.polq.queue = w :: ws)
       ∧ (s.polq.cur = none)
       ∧ (s.polOpen = true)
       ∧ (t = { s with polq := { s.polq with queue := ws }.refill })
       ∧ (fin = (fun x => if x.boot.warm ≠ 0 ∨ x.boot.held = [] then x else s.orWait 0 fun f => ({ x with stall := f.stall } : State).flushHeld))
       ∧ (s.polInRange w.reg (s.polValue w) = true)
       ∧ (u = { t with pol := t.pol.set w.reg (s.polValue w), polq := { t.polq with cur := some w, result := 0 } })
       ∧ (x = (u.inv.slices.filter fun n => bit u.pol.keepAwake n && decide (u.gateSt n ≠ 0)).foldl (fun s n => s.wakeSlice n pick) u)
       ∧ (w.reg = .keepAwake ∨ w.reg = .keepLo ∨ w.reg = .keepHi))
    ∧ (let w : PolWrite := { reg := .fantailCtrl, val := 1 }
     let s : State := { live with polq := { cur := some w } }
     (s.polq.cur = some w))
    ∧ (let sris : Bool := false
     let mld : Bool := false
     let cxl : Bool := false
     let width : Nat := 0
     let rate : Nat := 0
     let p : Nat := 0
     let s : State := { live with ports := [(0, { link := 1, perst := false })] }
     let u : State := s.modPort p (fun x => { x with link := 2, rate := s.trainedRate p rate, width := s.trainedWidth p width, cxlOk := cxl, mld := cxl && mld, sris := sris && decide (x.refMode = 1), ideSeen := false, power := 0 })
     (p < 4)
       ∧ ((s.port p).link = 1 ∨ (s.port p).link = 2)
       ∧ ((s.port p).perst = false)
       ∧ (u = s.modPort p (fun x => { x with link := 2, rate := s.trainedRate p rate, width := s.trainedWidth p width, cxlOk := cxl, mld := cxl && mld, sris := sris && decide (x.refMode = 1), ideSeen := false, power := 0 })))
    ∧ (let ld : Nat := 0
     let p : Nat := 0
     let v : Nat := 0
     let s : State := vd0 { st := .resetting, resetStep := 5 }
     (ld < 16)
       ∧ (s.exposed p ld = true)
       ∧ (s.portStuck p = false))
    ∧ (let pick : Nat := 0
     let stream : Nat := 0
     let s : State := { live with ports := [(3, { link := 2 })], mgmt := { sessions := [(4, (some 3, true))] } }
     let p : Nat := 3
     let n : Nat := 4
     let u : State := s.modPort p (fun x => x.ioStreams (x.ideStreams.filter (· ≠ stream) ++ [stream]))
     let t : State := (u.fresh.modPort p fun x => { x with ideSwitch := false }).flushHeld.releaseHeld p pick
     (s.mgmt.sessions.find n = some (some p, true))
       ∧ ((s.port p).link = 2)
       ∧ (t = (u.fresh.modPort p fun x => { x with ideSwitch := false }).flushHeld.releaseHeld p pick)
       ∧ (t.stall = [])
       ∧ (u = s.modPort p (fun x => x.ioStreams (x.ideStreams.filter (· ≠ stream) ++ [stream]))))
    ∧ (let pick : Nat := 0
     let stream : Nat := 0
     let s : State := { live with ports := [(3, { link := 2 })], mgmt := { sessions := [(4, (some 3, true))] } }
     let p : Nat := 3
     let n : Nat := 4
     let u : State := s.modPort p (fun x => x.ioStreams (x.ideStreams.filter (· ≠ stream)))
     let t : State := (u.fresh.modPort p fun x => { x with ideSwitch := false }).flushHeld.releaseHeld p pick
     (s.mgmt.sessions.find n = some (some p, true))
       ∧ ((s.port p).link = 2)
       ∧ (t = (u.fresh.modPort p fun x => { x with ideSwitch := false }).flushHeld.releaseHeld p pick)
       ∧ (t.stall = [])
       ∧ (u = s.modPort p (fun x => x.ioStreams (x.ideStreams.filter (· ≠ stream)))))
    ∧ (let pick : Nat := 0
     let skid : Bool := false
     let s : State := { live with ports := [(3, { link := 2 })], mgmt := { sessions := [(4, (some 3, true))] } }
     let p : Nat := 3
     let n : Nat := 4
     let u : State := s.modPort p (fun x => { x with ideMem := true, ideSkid := skid })
     let t : State := (u.fresh.modPort p fun x => { x with ideSwitch := false }).flushHeld.releaseHeld p pick
     (s.mgmt.sessions.find n = some (some p, true))
       ∧ ((s.port p).link = 2)
       ∧ (t = (u.fresh.modPort p fun x => { x with ideSwitch := false }).flushHeld.releaseHeld p pick)
       ∧ (t.stall = [])
       ∧ (s.fuses.prevGen = false)
       ∧ (u = s.modPort p (fun x => { x with ideMem := true, ideSkid := skid })))
    ∧ (let pick : Nat := 0
     let s : State := { live with ports := [(3, { link := 2 })], mgmt := { sessions := [(4, (some 3, true))] } }
     let p : Nat := 3
     let n : Nat := 4
     let u : State := s.modPort p (fun x => { x with ideMem := false })
     let t : State := (u.fresh.modPort p fun x => { x with ideSwitch := false }).flushHeld.releaseHeld p pick
     (s.mgmt.sessions.find n = some (some p, true))
       ∧ ((s.port p).link = 2)
       ∧ (t = (u.fresh.modPort p fun x => { x with ideSwitch := false }).flushHeld.releaseHeld p pick)
       ∧ (t.stall = [])
       ∧ (s.fuses.prevGen = false)
       ∧ (u = s.modPort p (fun x => { x with ideMem := false })))
    ∧ (let ld : Nat := 0
     let p : Nat := 0
     let e : PEntry := { kind := .page }
     let ep : Nat := 1
     let dpa : Nat := 65536
     let s : State := { live with slu := { pt := [(1, e)] } }
     ((s.port p).link = 2)
       ∧ ((s.port p).cxlOk = true)
       ∧ (s.exposed p ld = true)
       ∧ (s.boot.memActive = true)
       ∧ (s.boot.warm = 0)
       ∧ ((s.port p).outst.length < 1536)
       ∧ (s.entry (16 * p + ld) (dpa / 65536) = some (ep, e))
       ∧ (e.kind = .page ∨ e.kind = .foreign))
    ∧ (let n : Nat := 0
     let half : Nat := 0
     let gl : Nat := 0
     let p : Nat := 0
     let m : Miss := { phase := .snoop, snpHost := [(0, 0)] }
     let s : State := missS m
     let rsp : BiRsp := BiRsp.i
     let m1 : Miss := { m with snpHost := m.snpHost.erase (p, half), keepHost := if decide (rsp = BiRsp.s) && !m.keepHost.contains p then m.keepHost ++ [p] else m.keepHost }
     (s.register? gl = some (n, m))
       ∧ (m.phase = .snoop)
       ∧ (m.snpHost.contains (p, half) = true)
       ∧ (m1 = { m with snpHost := m.snpHost.erase (p, half), keepHost := if decide (rsp = .s) && !m.keepHost.contains p then m.keepHost ++ [p] else m.keepHost }))
    ∧ (let n : Nat := 0
     let half : Nat := 0
     let gl : Nat := 0
     let p : Nat := 0
     let m : Miss := { phase := .snoop }
     let s : State := missS m
     (s.register? gl = some (n, m))
       ∧ (m.phase = .snoop)
       ∧ (m.snpHost.contains (p, half) = false)) :=
  ⟨by and_intros <;> first | with_reducible rfl | decide +kernel,
   by and_intros <;> first | with_reducible rfl | decide +kernel,
   by with_reducible rfl,
   by and_intros <;> first | with_reducible rfl | decide +kernel,
   by and_intros <;> decide +kernel,
   by and_intros <;> first | with_reducible rfl | decide +kernel,
   by and_intros <;> first | with_reducible rfl | decide +kernel,
   by and_intros <;> first | with_reducible rfl | decide +kernel,
   by and_intros <;> first | with_reducible rfl | decide +kernel,
   by and_intros <;> decide +kernel,
   by and_intros <;> first | with_reducible rfl | decide +kernel,
   by and_intros <;> first | with_reducible rfl | decide +kernel⟩

/-- States and operands that meet the hypotheses of Obligations.DeviceCommandsComplete, clause by clause (61 to 72 of 97). -/
theorem meets_DeviceCommandsComplete_6 :
    (let n : Nat := 0
     let gl : Nat := 0
     let p : Nat := 0
     let m : Miss := { phase := .snoop, snpHost := [(0, 0)] }
     let s : State := missS m
     (s.register? gl = some (n, m))
       ∧ (m.phase = .snoop)
       ∧ ((m.snpHost.any fun h => decide (h.1 = p)) = true))
    ∧ (let p : Nat := 0
     let tag : Nat := 5
     let s : State := { live with ports := [(0, { link := 2, outst := [{ tag := 5, vd := 0 }] })] }
     ((s.port p).outst.any (fun o => decide (o.tag = tag)) = true))
    ∧ (let p : Nat := 0
     let s : State := live
     let tag : Nat := 5
     ((s.port p).outst.any (fun o => decide (o.tag = tag)) = false))
    ∧ (let sh : Bool := false
     let xs : List (Nat × Nat) := []
     let k : Nat := 0
     let l : Nat := 0
     let b : Nat := 0
     let r : Nat := 0
     let v : Nat := 0
     let p : Nat := 0
     let s : State := at7 7
     let h : MctpHdr := { ty := 7 }
     let c : Instr := .getLdInfo h p
     let op : Nat := 0x5400
     (s.FmOpen h)
       ∧ ((c, op) ∈ [(Instr.getLdInfo h p, 0x5400), (.getLdAllocations h p, 0x5401), (.setLdAllocations h, 0x5402), (.getQosControl h p, 0x5403), (.setQosControl h, 0x5404), (.getQosStatus h p, 0x5405), (.getQosAllocatedBw h p, 0x5406), (.getDcdInfo h, 0x5600), (.getHostDcRegionConfiguration h v, 0x5601), (.setDcRegionConfiguration h v r b l k, 0x5602), (.getDcRegionExtentLists h v, 0x5603), (.initiateDynamicCapacityAdd h v xs sh, 0x5604)]))
    ∧ (let v : Nat := 0
     let h : MctpHdr := { ty := 7 }
     let s : State := { vd0 { st := .ready, extents := [(0, 2 ^ 21)] } with mgmt := { bufs := [h] } }
     let xs : List (Nat × Nat) := [(0, 2 ^ 21)]
     let t : State := ((s.fresh.dropExtents v .forcedRelease xs).mgmtFree h).send (.fm h 0x5605 .success [])
     (s.FmOpen h)
       ∧ (s.vdExists v = true)
       ∧ (s.releaseCheck v xs = .success)
       ∧ (t = ((s.fresh.dropExtents v .forcedRelease xs).mgmtFree h).send (.fm h 0x5605 .success []))
       ∧ (t.stall = []))
    ∧ (let b : Nat := 0
     let v : Nat := 0
     let s : State := vd0 { st := .ready, offers := [(0, 2 ^ 21, 5)] }
     let o : Nat × Nat × Nat := (0, 2 ^ 21, 5)
     ((s.vd v).offers.find? (fun o => decide (o.1 = b)) = some o))
    ∧ (let es : List (Nat × Nat) := []
     let x : DWord := 0
     let m : Option Nat := none
     let xs : List Nat := []
     let all : Bool := false
     let b : Nat := 0
     let a : Nat := 0
     let v : Nat := 0
     let s : State := live
     let c : Instr := .mbIdentify v
     let op : Nat := 0x0001
     (s.MailboxOpen v)
       ∧ ((c, op) ∈ [(Instr.mbIdentify v, 0x0001), (.backgroundOperationStatus v, 0x0002), (.getEventRecords v a, 0x0100), (.clearEventRecords v a all xs, 0x0101), (.getEventInterruptPolicy v, 0x0102), (.setEventInterruptPolicy v a m, 0x0103), (.getTimestamp v, 0x0300), (.setTimestamp v x, 0x0301), (.getSupportedLogs v, 0x0400), (.getLog v a, 0x0401), (.identifyMemoryDevice v, 0x4000), (.getHealthInfo v, 0x4200), (.getAlertConfiguration v, 0x4201), (.setAlertConfiguration v a, 0x4202), (.getPoisonList v a b, 0x4300), (.getScanMediaCapabilities v a b, 0x4303), (.scanMedia v a b, 0x4304), (.getScanMediaResults v, 0x4305), (.sanitize v, 0x4400), (.secureErase v, 0x4401), (.getDynamicCapacityConfiguration v, 0x4800), (.getDynamicCapacityExtentList v a, 0x4801), (.addDynamicCapacityResponse v es, 0x4802)]))
    ∧ (let x : Ext := {}
     let dpa : Nat := 0
     let v : Nat := 0
     let s : State := live
     let rc : RetCode := (s.fresh.writeHalf v dpa none x).1
     let vals : List Nat := (s.fresh.writeHalf v dpa none x).2.1
     let u : State := (s.fresh.writeHalf v dpa none x).2.2
     let t : State := u.send (.mb v 0x4301 rc vals)
     (s.MailboxOpen v)
       ∧ (t.stall = [])
       ∧ (s.fresh.writeHalf v dpa none x = (rc, vals, u))
       ∧ (t = u.send (.mb v 0x4301 rc vals)))
    ∧ (let x : Ext := {}
     let d : BitVec 512 := 0
     let dpa : Nat := 0
     let v : Nat := 0
     let s : State := live
     let rc : RetCode := (s.fresh.writeHalf v dpa (some d) x).1
     let vals : List Nat := (s.fresh.writeHalf v dpa (some d) x).2.1
     let u : State := (s.fresh.writeHalf v dpa (some d) x).2.2
     let t : State := u.send (.mb v 0x4302 rc vals)
     (s.MailboxOpen v)
       ∧ (t.stall = [])
       ∧ (s.fresh.writeHalf v dpa (some d) x = (rc, vals, u))
       ∧ (t = u.send (.mb v 0x4302 rc vals)))
    ∧ (let v : Nat := 0
     let s : State := vd0 { st := .ready, extents := [(0, 2 ^ 21)] }
     let es : List (Nat × Nat) := [(0, 2 ^ 21)]
     let t : State := (s.fresh.dropExtents v .released es).send (.mb v 0x4803 .success [])
     (s.MailboxOpen v)
       ∧ (t.stall = [])
       ∧ (s.releaseCheck v es = .success)
       ∧ (t = (s.fresh.dropExtents v .released es).send (.mb v 0x4803 .success [])))
    ∧ (let v : Nat := 0
     let s : State := vd0 { st := .ready, background := some .sanitize }
     let t : State := ((s.fresh.modVd v fun x => { x with background := none }).freePages v fun _ => true).drawKey v
     (t.stall = [])
       ∧ ((s.vd v).background = some .sanitize ∨ (s.vd v).background = some .erase)
       ∧ (t = ((s.fresh.modVd v fun x => { x with background := none }).freePages v fun _ => true).drawKey v))
    ∧ (let s : State := live
     let c : Nat := 1
     (1 ≤ c)
       ∧ (c ≤ 7)) :=
  ⟨by and_intros <;> first | with_reducible rfl | decide +kernel,
   by decide +kernel,
   by decide +kernel,
   by and_intros <;> first | with_reducible rfl | decide +kernel,
   by and_intros <;> first | with_reducible rfl | decide +kernel,
   by decide +kernel,
   by and_intros <;> first | with_reducible rfl | decide +kernel,
   by and_intros <;> first | with_reducible rfl | decide +kernel,
   by and_intros <;> first | with_reducible rfl | decide +kernel,
   by and_intros <;> first | with_reducible rfl | decide +kernel,
   by and_intros <;> first | with_reducible rfl | decide +kernel,
   by and_intros <;> first | with_reducible rfl | decide +kernel⟩

/-- States and operands that meet the hypotheses of Obligations.DeviceCommandsComplete, clause by clause (73 to 84 of 97). -/
theorem meets_DeviceCommandsComplete_7 :
    (let v : Nat := 0
     let s : State := vd0 { st := .resetting, resetStep := 2 }
     (s.resetAt v 2 = true))
    ∧ (let v : Nat := 0
     let s : State := vd0 { st := .resetting, resetStep := 3 }
     (s.resetAt v 3 = true))
    ∧ (let v : Nat := 0
     let s : State := vd0 { st := .resetting, resetStep := 4 }
     let t : State := (s.fresh.vdSweep v).resetTo v 5
     (s.resetAt v 4 = true)
       ∧ (t = (s.fresh.vdSweep v).resetTo v 5)
       ∧ (t.stall = []))
    ∧ (let v : Nat := 0
     let s : State := vd0 { st := .resetting, resetStep := 5 }
     (s.resetAt v 5 = true)
       ∧ (s.boot.warm = 0))
    ∧ (let v : Nat := 0
     let s : State := vd0 { st := .ready, errRing := { enable := true, sizeLog2 := 6 } }
     ((s.vd v).errRing.enable = true))
    ∧ (let v : Nat := 0
     let s : State := vd0 { st := .ready, errRing := { enable := true, sizeLog2 := 6, tail := 1, msixBusy := true, msixHeld := true } }
     ((s.vd v).errRing.msixBusy = true)
       ∧ ((s.vd v).errRing.msixHeld = true)
       ∧ ((s.vd v).errRing.tail ≠ (s.vd v).errRing.head))
    ∧ (let v : Nat := 0
     let s : State := vd0 { st := .ready, errRing := { enable := true, sizeLog2 := 6, tail := 1, msixBusy := true } }
     ((s.vd v).errRing.msixBusy = true)
       ∧ ((s.vd v).errRing.msixHeld = false ∨ (s.vd v).errRing.tail = (s.vd v).errRing.head))
    ∧ (let cls : Nat := 1
     (cls ≠ 0))
    ∧ (let choice : Nat := 0
     let c : Nat := 0
     let s : State := live
     let t : State := { s with power := { s.power with interval := s.power.interval.setD c 3900 (max 975 (min 3900 choice)) } }
     (t = { s with power := { s.power with interval := s.power.interval.setD c 3900 (max 975 (min 3900 choice)) } }))
    ∧ (let cls : Nat := 1
     let s : State := { live with flt := { retiring := [{ cls := 1, inst := 3, step := 0 }, { cls := 1, inst := 7, step := 0 }] } }
     let i : Nat := 3
     (({ cls := cls, inst := i, step := 0 } : Retire) ∈ s.flt.retiring)
       ∧ (s.retireBusy cls (meterDie cls i) = false)
       ∧ (∀ r ∈ s.flt.retiring, r.cls = cls → meterDie cls r.inst = meterDie cls i → r.step = 0 → i ≤ r.inst))
    ∧ (let n : Nat := 0
     let s : State := { live with flt := { retiring := [{ cls := 4, inst := 0, step := 2 }] } }
     let s1 : State := (s.modSlice n fun x => { x with retired := true, inq := [] }).endRetire 4 n
     (s.retireAt 4 n = 2)
       ∧ ((s.slice n).miss = [])
       ∧ (s1 = (s.modSlice n fun x => { x with retired := true, inq := [] }).endRetire 4 n))
    ∧ (let d : Nat := 0
     let s : State := { live with flt := { retiring := [{ cls := 2, inst := 0, step := 3 }] } }
     (s.retireAt 2 d = 3)) :=
  ⟨by decide +kernel,
   by decide +kernel,
   by and_intros <;> first | with_reducible rfl | decide +kernel,
   by and_intros <;> decide +kernel,
   by decide +kernel,
   by and_intros <;> decide +kernel,
   by and_intros <;> decide +kernel,
   by decide +kernel,
   by with_reducible rfl,
   by and_intros <;> decide +kernel,
   by and_intros <;> first | with_reducible rfl | decide +kernel,
   by decide +kernel⟩

/-- States and operands that meet the hypotheses of Obligations.DeviceCommandsComplete, clause by clause (85 to 96 of 97). -/
theorem meets_DeviceCommandsComplete_8 :
    (let d : Nat := 0
     let s : State := { live with img := imgNone, flt := { retiring := [{ cls := 2, inst := 0, step := 6 }] } }
     (s.retireAt 2 d = 6)
       ∧ (s.noStaging = true)
       ∧ (s.activeDies ≠ []))
    ∧ (let known : List Nat := []
     let d : Nat := 0
     let s : State := { live with img := imgRescue, flt := { retiring := [{ cls := 2, inst := 0, step := 6 }] } }
     let keys : List Nat := (((s.dir.map fun e => s.dirSet e.1).eraseDups).filter fun k => decide ((s.die (k / 2 ^ 20 / 8)).st ≠ .retired) && decide (s.inv.chanOf (s.setFrameOf k) / 32 = d))
     let s1 : State := keys.foldl (fun (s : State) k => s.loseSet k known) s
     (s.retireAt 2 d = 6)
       ∧ (s.noStaging = false ∨ s.activeDies = [])
       ∧ (keys = (((s.dir.map fun e => s.dirSet e.1).eraseDups).filter fun k => decide ((s.die (k / 2 ^ 20 / 8)).st ≠ .retired) && decide (s.inv.chanOf (s.setFrameOf k) / 32 = d)))
       ∧ (s1 = keys.foldl (fun (s : State) k => s.loseSet k known) s))
    ∧ (let ch : Nat := 0
     let s : State := live
     let t : State := s.fresh.pageMovesDone ch
     (t = s.fresh.pageMovesDone ch)
       ∧ (t.stall = []))
    ∧ (let set : Nat := 0
     let n : Nat := 0
     let s : State := { live with slices := [(0, { lostSets := [0], miss := [(live.ownLine ((live.setLines 0).headD 0), { phase := .fill })] })] }
     let s1 : State := (s.setLines (n * 2 ^ 20 + set)).foldl (fun (s : State) l => if (s.slice n).lostKnown.contains l || ((s.slice (s.liveSlice n)).missOf (s.ownLine l)).isSome then s else (s.recall (s.liveSlice n) l 65).getD s) s
     (set ∈ (s.slice n).lostSets)
       ∧ (s1 = (s.setLines (n * 2 ^ 20 + set)).foldl (fun (s : State) l => if (s.slice n).lostKnown.contains l || ((s.slice (s.liveSlice n)).missOf (s.ownLine l)).isSome then s else (s.recall (s.liveSlice n) l 65).getD s) s)
       ∧ ((s.setLines (n * 2 ^ 20 + set)).all (fun l => (s1.slice n).lostKnown.contains l) = false))
    ∧ (let set : Nat := 0
     let n : Nat := 0
     let s : State := { live with slices := [(0, { lostSets := [0], lostKnown := live.setLines 0 })] }
     let s1 : State := (s.setLines (n * 2 ^ 20 + set)).foldl (fun (s : State) l => if (s.slice n).lostKnown.contains l || ((s.slice (s.liveSlice n)).missOf (s.ownLine l)).isSome then s else (s.recall (s.liveSlice n) l 65).getD s) s
     (set ∈ (s.slice n).lostSets)
       ∧ (s1 = (s.setLines (n * 2 ^ 20 + set)).foldl (fun (s : State) l => if (s.slice n).lostKnown.contains l || ((s.slice (s.liveSlice n)).missOf (s.ownLine l)).isSome then s else (s.recall (s.liveSlice n) l 65).getD s) s)
       ∧ ((s.setLines (n * 2 ^ 20 + set)).all (fun l => (s1.slice n).lostKnown.contains l) = true))
    ∧ (let cls : RecClass := .correctable
     let code : Nat := 7
     let unit : Nat := 3
     let c : Coalesce := { cls := .correctable, code := 7, unit := 3 }
     let s : State := { live with flt := { coalesce := [c] } }
     let s1 : State := { s with flt := { s.flt with coalesce := s.flt.coalesce.filter fun c => !(decide (c.cls = cls) && decide (c.code = code) && decide (c.unit = unit)) } }
     ((s.flt.coalesce.find? fun c => decide (c.cls = cls) && decide (c.code = code) && decide (c.unit = unit)) = some c)
       ∧ (s1 = { s with flt := { s.flt with coalesce := s.flt.coalesce.filter fun c => !(decide (c.cls = cls) && decide (c.code = code) && decide (c.unit = unit)) } })
       ∧ (c.withheld = 0))
    ∧ (let cls : RecClass := .correctable
     let code : Nat := 7
     let unit : Nat := 3
     let c : Coalesce := { cls := .correctable, code := 7, unit := 3, withheld := 4 }
     let s : State := { live with flt := { coalesce := [c] } }
     let s1 : State := { s with flt := { s.flt with coalesce := s.flt.coalesce.filter fun c => !(decide (c.cls = cls) && decide (c.code = code) && decide (c.unit = unit)) } }
     ((s.flt.coalesce.find? fun c => decide (c.cls = cls) && decide (c.code = code) && decide (c.unit = unit)) = some c)
       ∧ (s1 = { s with flt := { s.flt with coalesce := s.flt.coalesce.filter fun c => !(decide (c.cls = cls) && decide (c.code = code) && decide (c.unit = unit)) } })
       ∧ (c.withheld ≠ 0))
    ∧ (let n : Nat := 0
     let s : State := { live with gauges := [(0, { enable := true, src := 0x10, period := 10, wlen := 100 })] }
     let t : Nat := s.gaugeNow (s.gauge n)
     ((s.gauge n).enable = true)
       ∧ ((s.gauge n).period ≠ 0)
       ∧ (t = s.gaugeNow (s.gauge n))
       ∧ (((t : Int) - (s.gauge n).wstart) % (s.gauge n).period = 0)
       ∧ (gLevel (s.gauge n).src = true))
    ∧ (let n : Nat := 0
     let s : State := { live with gauges := [(0, { enable := true, src := 0x20, period := 10, wlen := 100 })] }
     let t : Nat := s.gaugeNow (s.gauge n)
     ((s.gauge n).enable = true)
       ∧ ((s.gauge n).period ≠ 0)
       ∧ (t = s.gaugeNow (s.gauge n))
       ∧ (((t : Int) - (s.gauge n).wstart) % (s.gauge n).period = 0)
       ∧ (gLevel (s.gauge n).src = false)
       ∧ (gRate (s.gauge n).src = true)
       ∧ (gSource (s.gauge n).src ≠ 0x40))
    ∧ (let s : State := live
     let m : Mmio := { vd := 0, off := 2, len := 4 }
     (s.running = true)
       ∧ (m.bad = true))
    ∧ (let s : State := at7 0x7E
     let h : MctpHdr := { ty := 0x7E }
     let k : Nat := 1
     (s.served h 0x7E = true)
       ∧ (0 < k)
       ∧ (k ≤ 60))
    ∧ (let r : Option Nat := none
     let n : Nat := 0
     let s : State := at7 1
     let h : MctpHdr := { ty := 1 }
     let m : Nat := 255
     let c : Instr := .getTid h
     let op : Nat := 2
     (s.served h 1 = true)
       ∧ (m ∉ pldmCommands n)
       ∧ ((c, op) ∈ [(Instr.getTid h, 0x02), (.setTid h n, 0x01), (.getPldmVersion h n, 0x03), (.getPldmTypes h, 0x04), (.getPldmCommands h n, 0x05), (.setEventReceiver h r, 0x04), (.getSensorReading h n, 0x11), (.getStateSensorReadings h n, 0x21), (.getSensorThresholds h n, 0x12), (.getPdrRepositoryInfo h, 0x50), (.getPdr h n, 0x51), (.pldmUnsupported h n m, m)]))
    ∧ (let n : Nat := 0
     let s : State := at7 5
     let h : MctpHdr := { ty := 5 }
     let c : Instr := .getVersion h
     let op : Nat := 0x84
     (s.spdmServed h = true)
       ∧ ((c, op) ∈ [(Instr.getVersion h, 0x84), (.getCapabilities h, 0xE1), (.negotiateAlgorithms h, 0xE3), (.getDigests h, 0x81), (.getCertificate h n, 0x82), (.challenge h n, 0x83), (.getMeasurements h n, 0xE0), (.keyExchange h, 0xE4), (.finish h n, 0xE5), (.endSession h n, 0xEC)])) :=
  ⟨by and_intros <;> decide +kernel,
   by and_intros <;> first | with_reducible rfl | decide +kernel,
   by and_intros <;> first | with_reducible rfl | decide +kernel,
   by and_intros <;> first | with_reducible rfl | decide +kernel,
   by and_intros <;> first | with_reducible rfl | decide +kernel,
   by and_intros <;> first | with_reducible rfl | decide +kernel,
   by and_intros <;> first | with_reducible rfl | decide +kernel,
   by and_intros <;> first | with_reducible rfl | decide +kernel,
   by and_intros <;> first | with_reducible rfl | decide +kernel,
   by and_intros <;> decide +kernel,
   by and_intros <;> decide +kernel,
   by and_intros <;> decide +kernel,
   by and_intros <;> decide +kernel⟩

/-- States and operands that meet the hypotheses of Obligations.DeviceCommandsComplete (97 to 97 of 97). -/
theorem meets_DeviceCommandsComplete_9 :
    (let i : Nat := 0
     let e : PldmEvent := { sensor := 1, value := 2 }
     let s : State := { live with mgmt := { events := [e] } }
     (s.mgmt.events[i]? = some e)
       ∧ (e.sent < 4)
       ∧ (s.mgmt.receiver = none)) :=
  by and_intros <;> first | with_reducible rfl | decide +kernel

/-- States and operands that meet the hypotheses of Obligations.UnitCommandsComplete, clause by clause (1 to 12 of 153). -/
theorem meets_UnitCommandsComplete_1 :
    (let s : State := live
     let r : Req := { op := .red, line := 0 }
     (r.fmt < 4))
    ∧ (let s : State := live
     let r : Req := { op := .atomic, line := 0 }
     (atomicOk r.atop r.width r.off = true))
    ∧ (let pick : Nat := 0
     let s : State := { poolS l0 with slices := homeS.slices }
     let op : ReqOp := .rdS
     let m : CohMsg := { op := .rdS, dev := 1, line := 0 }
     let c : Instr := .rdS m pick
     (s.atHome m = true)
       ∧ (s.poolNumber m.dev = true)
       ∧ ((c, op) ∈ [(Instr.rdS m pick, .rdS), (.rdX m pick, .rdX), (.upg m pick, .upg), (.rdNc m pick, .rdNc), (.wrNc m pick, .write), (.red m pick, .red), (.atom m pick, .atomic)])
       ∧ (s.boot.warm < 2))
    ∧ (let pick : Nat := 0
     let s : State := { poolS l0 with boot := { live.boot with warm := 2 } }
     let op : ReqOp := .rdS
     let m : CohMsg := { op := .rdS, dev := 1, line := 0 }
     let c : Instr := .rdS m pick
     (s.atHome m = true)
       ∧ (s.poolNumber m.dev = true)
       ∧ ((c, op) ∈ [(Instr.rdS m pick, .rdS), (.rdX m pick, .rdX), (.upg m pick, .upg), (.rdNc m pick, .rdNc), (.wrNc m pick, .write), (.red m pick, .red), (.atom m pick, .atomic)])
       ∧ (2 ≤ s.boot.warm))
    ∧ (let s : State := poolS l0
     let m : CohMsg := { op := .rdS, dev := 1, line := 2 ^ 34 }
     (lineDev m.line = m.dev)
       ∧ (m.dev ≠ s.pool.devnum))
    ∧ (let n : Nat := 0
     let r : Miss := { phase := .snoop, snpDev := [1] }
     let s : State := missS r
     let m : CohMsg := { op := .rspI, dev := 1, line := 0 }
     (s.register? m.line = some (n, r))
       ∧ (r.phase = .snoop)
       ∧ (r.snpDev.contains m.dev = true))
    ∧ (let n : Nat := 0
     let r : Miss := { phase := .grant, gnt := [1] }
     let s : State := missS r
     let m : CohMsg := { op := .rspI, dev := 1, line := 0 }
     (s.register? m.line = some (n, r))
       ∧ (r.phase = .grant)
       ∧ (r.gnt.contains m.dev = true)
       ∧ ((r.gnt.erase m.dev).isEmpty = true))
    ∧ (let n : Nat := 0
     let r : Miss := { phase := .grant, gnt := [1, 2] }
     let s : State := missS r
     let m : CohMsg := { op := .rspI, dev := 1, line := 0 }
     (s.register? m.line = some (n, r))
       ∧ (r.phase = .grant)
       ∧ (r.gnt.contains m.dev = true)
       ∧ ((r.gnt.erase m.dev).isEmpty = false))
    ∧ (let n : Nat := 0
     let r : Miss := { phase := .remote, upgSent := true }
     let s : State := missS r [(0, homeF)]
     let m : CohMsg := { op := .rspI, dev := 1, line := 0 }
     (s.register? m.line = some (n, r))
       ∧ (r.upgSent = true)
       ∧ (((s.slice n).hit m.line).isSome = true))
    ∧ (let n : Nat := 0
     let r : Miss := { phase := .wb }
     let s : State := missS r
     let m : CohMsg := { op := .rspI, dev := 1, line := 0 }
     (s.register? m.line = some (n, r))
       ∧ (r.phase = .wb))
    ∧ (let n : Nat := 0
     let s : State := { missS { phase := .snoop, snpDev := [1] } with pool := { departed := [1] } }
     let d : Nat := 1
     let s1 : State := s.dirSweep n d
     (s.pool.departed.contains d = true)
       ∧ (s1 = s.dirSweep n d)
       ∧ (s1.sweepDone n d = false))
    ∧ (let n : Nat := 0
     let s : State := { live with pool := { departed := [1] } }
     let d : Nat := 1
     let s1 : State := s.dirSweep n d
     (s.pool.departed.contains d = true)
       ∧ (s1 = s.dirSweep n d)
       ∧ (s1.sweepDone n d = true)) :=
  ⟨by decide +kernel,
   by decide +kernel,
   by and_intros <;> decide +kernel,
   by and_intros <;> first | with_reducible rfl | decide +kernel,
   by and_intros <;> decide +kernel,
   by and_intros <;> first | with_reducible rfl | decide +kernel,
   by and_intros <;> first | with_reducible rfl | decide +kernel,
   by and_intros <;> first | with_reducible rfl | decide +kernel,
   by and_intros <;> first | with_reducible rfl | decide +kernel,
   by and_intros <;> first | with_reducible rfl | decide +kernel,
   by and_intros <;> first | with_reducible rfl | decide +kernel,
   by and_intros <;> first | with_reducible rfl | decide +kernel⟩

/-- States and operands that meet the hypotheses of Obligations.UnitCommandsComplete, clause by clause (13 to 24 of 153). -/
theorem meets_UnitCommandsComplete_2 :
    (let r : RemoteOp := { op := .rdNc, dev := 1, line := 2 ^ 34, tag := 0, who := { vd := 0 } }
     let s : State := poolS l0 { remote := [r] }
     let m : CohMsg := { op := .datS, dev := 1, line := 2 ^ 34 }
     let s1 : State := ((s.remoteAt (fun r => decide (r.kind = .mem) && decide (r.dev = m.dev) && decide (r.line = m.line) && decide (r.tag = m.tag) && !(decide (r.op = .wrNc) || decide (r.op = .red)))).getD (r, s)).2
     (s.remoteAt (fun r => decide (r.kind = .mem) && decide (r.dev = m.dev) && decide (r.line = m.line) && decide (r.tag = m.tag) && !(decide (r.op = .wrNc) || decide (r.op = .red))) = some (r, s1))
       ∧ (r.op = .rdNc)
       ∧ (∀ p, r.src ≠ .host p))
    ∧ (let p : Nat := 0
     let r : RemoteOp := { op := .rdNc, dev := 1, line := 2 ^ 34, tag := 0, who := { vd := 0 }, src := .host 0 }
     let s : State := poolS l0 { remote := [r] }
     let m : CohMsg := { op := .datS, dev := 1, line := 2 ^ 34 }
     let s1 : State := ((s.remoteAt (fun r => decide (r.kind = .mem) && decide (r.dev = m.dev) && decide (r.line = m.line) && decide (r.tag = m.tag) && !(decide (r.op = .wrNc) || decide (r.op = .red)))).getD (r, s)).2
     (s.remoteAt (fun r => decide (r.kind = .mem) && decide (r.dev = m.dev) && decide (r.line = m.line) && decide (r.tag = m.tag) && !(decide (r.op = .wrNc) || decide (r.op = .red))) = some (r, s1))
       ∧ (r.op = .rdNc)
       ∧ (r.src = .host p))
    ∧ (let r : RemoteOp := { op := .atom, dev := 1, line := 2 ^ 34, tag := 0, who := { vd := 0 } }
     let s : State := poolS l0 { remote := [r] }
     let m : CohMsg := { op := .datS, dev := 1, line := 2 ^ 34 }
     let s1 : State := ((s.remoteAt (fun r => decide (r.kind = .mem) && decide (r.dev = m.dev) && decide (r.line = m.line) && decide (r.tag = m.tag) && !(decide (r.op = .wrNc) || decide (r.op = .red)))).getD (r, s)).2
     (s.remoteAt (fun r => decide (r.kind = .mem) && decide (r.dev = m.dev) && decide (r.line = m.line) && decide (r.tag = m.tag) && !(decide (r.op = .wrNc) || decide (r.op = .red))) = some (r, s1))
       ∧ (r.op = .atom)
       ∧ (r.who.cmd = none))
    ∧ (let r : RemoteOp := { op := .rdX, dev := 1, line := 2 ^ 34, tag := 0, who := { vd := 0 } }
     let s : State := poolS l0 { remote := [r] }
     let m : CohMsg := { op := .datS, dev := 1, line := 2 ^ 34 }
     let s1 : State := ((s.remoteAt (fun r => decide (r.kind = .mem) && decide (r.dev = m.dev) && decide (r.line = m.line) && decide (r.tag = m.tag) && !(decide (r.op = .wrNc) || decide (r.op = .red)))).getD (r, s)).2
     (s.remoteAt (fun r => decide (r.kind = .mem) && decide (r.dev = m.dev) && decide (r.line = m.line) && decide (r.tag = m.tag) && !(decide (r.op = .wrNc) || decide (r.op = .red))) = some (r, s1))
       ∧ (r.op ≠ .rdNc)
       ∧ (r.op ≠ .atom))
    ∧ (let r : RemoteOp := { op := .wrNc, dev := 1, line := 2 ^ 34, tag := 0, who := { vd := 0 } }
     let s : State := poolS l0 { remote := [r] }
     let m : CohMsg := { op := .cmp, dev := 1, line := 2 ^ 34 }
     let s1 : State := ((s.remoteAt (fun r => decide (r.kind = .mem) && decide (r.dev = m.dev) && decide (r.line = m.line) && decide (r.tag = m.tag) && (decide (r.op = .wrNc) || decide (r.op = .red) || decide (r.op = .atom)))).getD (r, s)).2
     (m.coll = false)
       ∧ (s.remoteAt (fun r => decide (r.kind = .mem) && decide (r.dev = m.dev) && decide (r.line = m.line) && decide (r.tag = m.tag) && (decide (r.op = .wrNc) || decide (r.op = .red) || decide (r.op = .atom))) = some (r, s1))
       ∧ (r.op ≠ .atom)
       ∧ (m.status = .ok))
    ∧ (let r : RemoteOp := { op := .wrNc, dev := 1, line := 2 ^ 34, tag := 0, who := { vd := 0 } }
     let s : State := poolS l0 { remote := [r] }
     let m : CohMsg := { op := .cmp, dev := 1, line := 2 ^ 34, status := .badAddress }
     let s1 : State := ((s.remoteAt (fun r => decide (r.kind = .mem) && decide (r.dev = m.dev) && decide (r.line = m.line) && decide (r.tag = m.tag) && (decide (r.op = .wrNc) || decide (r.op = .red) || decide (r.op = .atom)))).getD (r, s)).2
     (m.coll = false)
       ∧ (s.remoteAt (fun r => decide (r.kind = .mem) && decide (r.dev = m.dev) && decide (r.line = m.line) && decide (r.tag = m.tag) && (decide (r.op = .wrNc) || decide (r.op = .red) || decide (r.op = .atom))) = some (r, s1))
       ∧ (r.op ≠ .atom)
       ∧ (m.status ≠ .ok))
    ∧ (let r : RemoteOp := { op := .atom, dev := 1, line := 2 ^ 34, tag := 0, who := { vd := 0 } }
     let s : State := poolS l0 { remote := [r] }
     let m : CohMsg := { op := .cmp, dev := 1, line := 2 ^ 34 }
     let s1 : State := ((s.remoteAt (fun r => decide (r.kind = .mem) && decide (r.dev = m.dev) && decide (r.line = m.line) && decide (r.tag = m.tag) && (decide (r.op = .wrNc) || decide (r.op = .red) || decide (r.op = .atom)))).getD (r, s)).2
     (m.coll = false)
       ∧ (s.remoteAt (fun r => decide (r.kind = .mem) && decide (r.dev = m.dev) && decide (r.line = m.line) && decide (r.tag = m.tag) && (decide (r.op = .wrNc) || decide (r.op = .red) || decide (r.op = .atom))) = some (r, s1))
       ∧ (r.op = .atom)
       ∧ (r.who.cmd = none))
    ∧ (let q : Nat := 0
     let r : RemoteOp := { op := .atom, dev := 1, line := 2 ^ 34, tag := 0, who := { vd := 0, cmd := some 0 } }
     let s : State := poolS l0 { remote := [r] }
     let m : CohMsg := { op := .cmp, dev := 1, line := 2 ^ 34 }
     let s1 : State := ((s.remoteAt (fun r => decide (r.kind = .mem) && decide (r.dev = m.dev) && decide (r.line = m.line) && decide (r.tag = m.tag) && (decide (r.op = .wrNc) || decide (r.op = .red) || decide (r.op = .atom)))).getD (r, s)).2
     (m.coll = false)
       ∧ (s.remoteAt (fun r => decide (r.kind = .mem) && decide (r.dev = m.dev) && decide (r.line = m.line) && decide (r.tag = m.tag) && (decide (r.op = .wrNc) || decide (r.op = .red) || decide (r.op = .atom))) = some (r, s1))
       ∧ (r.op = .atom)
       ∧ (r.who.cmd = some q))
    ∧ (let x : Ext := {}
     let m : CohMsg := { op := .cmp, dev := 1, line := 2 ^ 34, coll := true }
     let s : State := live
     let t : State := s.fresh.collAck m x
     (m.coll = true)
       ∧ (t = s.fresh.collAck m x)
       ∧ (t.stall = []))
    ∧ (let n : Nat := 0
     let q : Nat := 0
     let c : Cmd := rn 0x10 []
     let t : Task := tk
     let s : State := withC c
     (s.cmd? q = some c)
       ∧ (c.runningOn n = some t)
       ∧ (s.released q = true))
    ∧ (let x : Ext := {}
     let pick : Nat := 0
     let q : QueueId := .cxlMem 0
     let s : State := live
     let t : State := s.fresh.grantEntry q pick x
     (t = s.fresh.grantEntry q pick x)
       ∧ (t.stall = []))
    ∧ (let pick : Nat := 0
     let q : Nat := 0
     let c : Cmd := rd 0x20 []
     let s : State := withC c
     let t : State := s.fresh.hopAlloc q c pick
     (s.hopCmd q 0x20 (fun c => [c.opx % 16]) = some c)
       ∧ (bit (c.f 0x1D 1) 1 = false)
       ∧ (t = s.fresh.hopAlloc q c pick)
       ∧ (t.stall = [])) :=
  ⟨by exact ⟨by decide +kernel, by with_reducible rfl, by intro _ h; cases h; done⟩,
   by and_intros <;> first | with_reducible rfl | decide +kernel,
   by and_intros <;> first | with_reducible rfl | decide +kernel,
   by and_intros <;> decide +kernel,
   by and_intros <;> first | with_reducible rfl | decide +kernel,
   by and_intros <;> first | with_reducible rfl | decide +kernel,
   by and_intros <;> first | with_reducible rfl | decide +kernel,
   by and_intros <;> first | with_reducible rfl | decide +kernel,
   by and_intros <;> first | with_reducible rfl | decide +kernel,
   by and_intros <;> decide +kernel,
   by and_intros <;> first | with_reducible rfl | decide +kernel,
   by and_intros <;> first | with_reducible rfl | decide +kernel⟩

/-- States and operands that meet the hypotheses of Obligations.UnitCommandsComplete, clause by clause (25 to 36 of 153). -/
theorem meets_UnitCommandsComplete_3 :
    (let pick : Nat := 0
     let q : Nat := 0
     let c : Cmd := rd 0x20 [(0x1D, 2)]
     let s : State := withC c
     let t : State := s.fresh.hopAlloc q c pick
     (s.hopCmd q 0x20 (fun c => [c.opx % 16, handlePool (c.f 0x20 4)]) = some c)
       ∧ (bit (c.f 0x1D 1) 1 = true)
       ∧ (t = s.fresh.hopAlloc q c pick)
       ∧ (t.stall = []))
    ∧ (let q : Nat := 0
     let c : Cmd := rd 0x21 []
     let s : State := withC c
     (s.hopCmd q 0x21 (fun c => [handlePool (c.f 0x18 4)]) = some c))
    ∧ (let x : Ext := {}
     let q : Nat := 0
     let c : Cmd := rd 0x22 []
     let s : State := withC c
     let t : State := s.fresh.hopQuery q c x
     (s.hopCmd q 0x22 (fun c => [handlePool (c.f 0x18 4)]) = some c)
       ∧ (t = s.fresh.hopQuery q c x)
       ∧ (t.stall = []))
    ∧ (let q : Nat := 0
     let c : Cmd := rd 0x23 []
     let s : State := withC c
     (s.hopCmd q 0x23 (fun c => [c.opx % 16, handlePool (c.f 0x18 4)]) = some c))
    ∧ (let x : Ext := {}
     let pick : Nat := 0
     let q : Nat := 0
     let s : State := live
     let t : State := s.fresh.transferSwitch q x.pick
     (t = s.fresh.transferSwitch q x.pick)
       ∧ (t.stall = []))
    ∧ (let big : Bool := false
     let f : Nat := 0
     let page : Nat := 0
     let v : Nat := 0
     let w : Walk := { vd := 0, page := 0, zero := some (0, false) }
     let s : State := { vd0 { extents := [(0, 2 ^ 21)] } with slu := { walks := [w], pt := [(0, { kind := .page })] } }
     let s1 : State := (s.dropWalk v page).touchDone v page f big
     let e : PEntry := ((s1.entry v page).getD (0, { kind := .page })).2
     let ep : Nat := ((s1.entry v page).getD (0, { kind := .page })).1
     (s.walkOf v page = some w)
       ∧ (w.zero = some (f, big))
       ∧ (s1 = (s.dropWalk v page).touchDone v page f big)
       ∧ (s1.entry v page = some (ep, e)))
    ∧ (let big : Bool := false
     let f : Nat := 0
     let v : Nat := 0
     let page : Nat := 2 ^ 26
     let w : Walk := { vd := 0, page := 2 ^ 26, zero := some (0, false) }
     let s : State := { vd0 { extents := [(0, 2 ^ 21)] } with slu := { walks := [w] } }
     let s1 : State := (s.dropWalk v page).touchDone v page f big
     (s.walkOf v page = some w)
       ∧ (w.zero = some (f, big))
       ∧ (s1 = (s.dropWalk v page).touchDone v page f big)
       ∧ (s1.entry v page = none))
    ∧ (let i : Nat := 0
     let r : MoveReq := { vd := 0, page := 0, dev := 0, by_ := .fantail }
     let s : State := { live with slu := { wanted := [r] } }
     (s.boot.warm = 0)
       ∧ (s.slu.wanted[i]? = some r))
    ∧ (let x : Ext := {}
     let page : Nat := 0
     let v : Nat := 0
     let s : State := live
     let t : State := s.fresh.moveCommit v page x.pick
     (t = s.fresh.moveCommit v page x.pick)
       ∧ (t.stall = []))
    ∧ (let page : Nat := 0
     let v : Nat := 0
     let m : Move := { vd := 0, page := 0, big := false, src := 2 ^ 25, dst := 0, step := 3, by_ := .fantail }
     let s : State := { live with slu := { moves := [m] } }
     (s.moveOf v page = some m)
       ∧ (m.step < 5)
       ∧ (gfDev m.src ≠ gfDev m.dst)
       ∧ (m.fresh = false))
    ∧ (let q : Nat := 0
     let c : Cmd := rd 0x28 [(0x20, 65536), (0x29, 2)]
     let s : State := { withC c { st := .ready, extents := [(0, 2 ^ 21)] } with slu := { pt := [(0, { kind := .page })] } }
     (s.engineCmd q 0x28 = some c)
       ∧ (rangeOk c 65536 = true)
       ∧ (s.splits c = false)
       ∧ (c.f 0x28 1 < 128)
       ∧ (c.f 0x29 1 ≤ 3))
    ∧ (let q : Nat := 0
     let c : Cmd := rd 0x28 [(0x20, 65536), (0x29, 4)]
     let s : State := withC c
     (s.engineCmd q 0x28 = some c)
       ∧ (rangeOk c 65536 = false ∨ s.splits c = true ∨ 128 ≤ c.f 0x28 1 ∨ 3 < c.f 0x29 1)) :=
  ⟨by and_intros <;> first | with_reducible rfl | decide +kernel,
   by decide +kernel,
   by and_intros <;> first | with_reducible rfl | decide +kernel,
   by decide +kernel,
   by and_intros <;> first | with_reducible rfl | decide +kernel,
   by and_intros <;> first | with_reducible rfl | decide +kernel,
   by and_intros <;> first | with_reducible rfl | decide +kernel,
   by and_intros <;> decide +kernel,
   by and_intros <;> first | with_reducible rfl | decide +kernel,
   by and_intros <;> first | with_reducible rfl | decide +kernel,
   by and_intros <;> decide +kernel,
   by and_intros <;> decide +kernel⟩

/-- States and operands that meet the hypotheses of Obligations.UnitCommandsComplete, clause by clause (37 to 48 of 153). -/
theorem meets_UnitCommandsComplete_4 :
    (let q : Nat := 0
     let c : Cmd := rd 0x29 []
     let s : State := withC c
     (s.engineCmd q 0x29 = some c))
    ∧ (let q : Nat := 0
     let c : Cmd := rd 0x2A []
     let s : State := withC c
     (s.engineCmd q 0x2A = some c))
    ∧ (let q : Nat := 0
     let c : Cmd := rd 0x2B [(0x20, 65537)]
     let s : State := withC c
     (s.engineCmd q 0x2B = some c)
       ∧ (rangeOk c 65536 = false ∨ s.fresh.splits c = true ∨ 64 < s.fresh.pagesIn c.vd 65 (c.addr / 65536) ((c.addr + c.len) / 65536)))
    ∧ (let q : Nat := 0
     let x : Ext := {}
     let c : Cmd := rd 0x2B [(0x20, 65537)]
     let s : State := withC c
     let t : State := s.fresh.slQuery q c x
     (s.engineCmd q 0x2B = some c)
       ∧ (t = s.fresh.slQuery q c x)
       ∧ (t.stall = []))
    ∧ (let pick : Nat := 0
     let q : Nat := 0
     let c : Cmd := rd 0x2C [(0x20, 2 ^ 30)]
     let s : State := withC c
     let st : Status := ((State.grantTouch c.vd pick (c.len / 65536) (c.addr / 65536) s).1).getD .ok
     let s1 : State := (State.grantTouch c.vd pick (c.len / 65536) (c.addr / 65536) s.fresh).2
     (s.engineCmd q 0x2C = some c)
       ∧ (rangeOk c 2097152 = true)
       ∧ (2 ^ 30 ≤ c.len)
       ∧ (c.len ≤ 2 ^ 32)
       ∧ ((s.slu.pt.any fun e => decide (e.1 / 2 ^ 26 = c.vd) && decide (c.addr / 65536 ≤ e.1 % 2 ^ 26) && decide (e.1 % 2 ^ 26 < (c.addr + c.len) / 65536) && decide (e.2.kind = .migrating)) = false)
       ∧ (s1.stall = [])
       ∧ (State.grantTouch c.vd pick (c.len / 65536) (c.addr / 65536) s.fresh = (some st, s1)))
    ∧ (let s : State := gFull
     let s1 : State := gFull
     let q : Nat := 0
     let pick : Nat := 0
     let c : Cmd := rd 0x2C [(0x20, 2 ^ 30)]
     (s.engineCmd q 0x2C = some c)
       ∧ (rangeOk c 2097152 = true)
       ∧ (2 ^ 30 ≤ c.len)
       ∧ (c.len ≤ 2 ^ 32)
       ∧ ((s.slu.pt.any fun e => decide (e.1 / 2 ^ 26 = c.vd) && decide (c.addr / 65536 ≤ e.1 % 2 ^ 26) && decide (e.1 % 2 ^ 26 < (c.addr + c.len) / 65536) && decide (e.2.kind = .migrating)) = false)
       ∧ (s1.stall = [])
       ∧ (State.grantTouch c.vd pick (c.len / 65536) (c.addr / 65536) s.fresh = (none, s1))
       ∧ ((List.range 1024).find? (fun k => (s1.slu.grants.find k).isNone) = none))
    ∧ (let s : State := gS
     let s1 : State := gS
     let q : Nat := 0
     let pick : Nat := 0
     let c : Cmd := rd 0x2C [(0x20, 2 ^ 30)]
     let k : Nat := 0
     let key : Word := s1.draw.1.setWidth 32
     let s2 : State := s1.draw.2
     (s.engineCmd q 0x2C = some c)
       ∧ (rangeOk c 2097152 = true)
       ∧ (2 ^ 30 ≤ c.len)
       ∧ (c.len ≤ 2 ^ 32)
       ∧ ((s.slu.pt.any fun e => decide (e.1 / 2 ^ 26 = c.vd) && decide (c.addr / 65536 ≤ e.1 % 2 ^ 26) && decide (e.1 % 2 ^ 26 < (c.addr + c.len) / 65536) && decide (e.2.kind = .migrating)) = false)
       ∧ (s1.stall = [])
       ∧ (State.grantTouch c.vd pick (c.len / 65536) (c.addr / 65536) s.fresh = (none, s1))
       ∧ ((List.range 1024).find? (fun k => (s1.slu.grants.find k).isNone) = some k)
       ∧ (key = s1.draw.1.setWidth 32)
       ∧ (s2 = s1.draw.2))
    ∧ (let q : Nat := 0
     let g : Grant := { vd := 0, epoch := 0, va := 0, len := 2 ^ 30, readOnly := false, key := 5 }
     let c : Cmd := rd 0x2D []
     let s : State := { withC c with slu := { grants := [(0, g)] } }
     (s.engineCmd q 0x2D = some c)
       ∧ (s.slu.grants.find (c.f 0x18 2) = some g)
       ∧ (g.vd = c.vd))
    ∧ (let q : Nat := 0
     let c : Cmd := rd 0x2D []
     let s : State := withC c
     (s.engineCmd q 0x2D = some c)
       ∧ (∀ g, s.slu.grants.find (c.f 0x18 2) = some g → g.vd ≠ c.vd))
    ∧ (let q : Nat := 0
     let c : Cmd := rd 0x2E [(0x20, 2 ^ 21), (0x2C, 5)]
     let key : Word := BitVec.ofNat 32 (c.f 0x2C 4)
     let s : State := { withC c { st := .ready, extents := [(0, 2 ^ 21)] } with slu := { grants := [(0, { vd := 1, epoch := 0, va := 0, len := 2 ^ 21, readOnly := false, key := 5 })] } }
     let fs : List (Nat × Bool) := ((s.attachCheck (c.f 0x28 1) c.vd (c.f 0x2A 2) c.len key (bit c.opx 0) c.addr).1).getD []
     let s1 : State := (s.attachCheck (c.f 0x28 1) c.vd (c.f 0x2A 2) c.len key (bit c.opx 0) c.addr).2
     (s.engineCmd q 0x2E = some c)
       ∧ (rangeOk c 2097152 = true)
       ∧ (c.f 0x28 1 < 128)
       ∧ (key = BitVec.ofNat 32 (c.f 0x2C 4))
       ∧ (∀ i < c.len / 65536, s.inExtent c.vd ((c.addr / 65536 + i) * 65536) = true ∧ s.entry c.vd (c.addr / 65536 + i) = none)
       ∧ (c.f 0x28 1 = s.pool.devnum)
       ∧ (s.attachCheck (c.f 0x28 1) c.vd (c.f 0x2A 2) c.len key (bit c.opx 0) c.addr = (some fs, s1)))
    ∧ (let q : Nat := 0
     let c : Cmd := rd 0x2E [(0x20, 2 ^ 21), (0x2C, 5)]
     let s : State := withC c { st := .ready, extents := [(0, 2 ^ 21)] }
     let key : Word := BitVec.ofNat 32 (c.f 0x2C 4)
     let s1 : State := (s.attachCheck (c.f 0x28 1) c.vd (c.f 0x2A 2) c.len key (bit c.opx 0) c.addr).2
     (s.engineCmd q 0x2E = some c)
       ∧ (rangeOk c 2097152 = true)
       ∧ (c.f 0x28 1 < 128)
       ∧ (key = BitVec.ofNat 32 (c.f 0x2C 4))
       ∧ (∀ i < c.len / 65536, s.inExtent c.vd ((c.addr / 65536 + i) * 65536) = true ∧ s.entry c.vd (c.addr / 65536 + i) = none)
       ∧ (c.f 0x28 1 = s.pool.devnum)
       ∧ (s.attachCheck (c.f 0x28 1) c.vd (c.f 0x2A 2) c.len key (bit c.opx 0) c.addr = (none, s1)))
    ∧ (let q : Nat := 0
     let c : Cmd := rd 0x2E [(0x20, 2 ^ 21), (0x28, 1), (0x2C, 5)]
     let s : State := withC c { st := .ready, extents := [(0, 2 ^ 21)] }
     let key : Word := BitVec.ofNat 32 (c.f 0x2C 4)
     (s.engineCmd q 0x2E = some c)
       ∧ (rangeOk c 2097152 = true)
       ∧ (c.f 0x28 1 < 128)
       ∧ (key = BitVec.ofNat 32 (c.f 0x2C 4))
       ∧ (∀ i < c.len / 65536, s.inExtent c.vd ((c.addr / 65536 + i) * 65536) = true ∧ s.entry c.vd (c.addr / 65536 + i) = none)
       ∧ (c.f 0x28 1 ≠ s.pool.devnum)
       ∧ (s.gone (c.f 0x28 1) = true)) :=
  ⟨by decide +kernel,
   by decide +kernel,
   by refine ⟨?_, .inl ?_⟩ <;> decide +kernel,
   by and_intros <;> first | with_reducible rfl | decide +kernel,
   by and_intros <;> decide +kernel,
   by refine ⟨?_, ?_, ?_, ?_, ?_, rfl, grantTouch_gFull, no_grant_gFull⟩ <;> decide +kernel,
   by refine ⟨?_, ?_, ?_, ?_, ?_, rfl, grantTouch_gS, ?_, rfl, rfl⟩ <;> decide +kernel,
   by and_intros <;> decide +kernel,
   by and_intros <;> decide +kernel,
   by and_intros <;> first | with_reducible rfl | decide +kernel,
   by and_intros <;> first | with_reducible rfl | decide +kernel,
   by and_intros <;> first | with_reducible rfl | decide +kernel⟩

/-- States and operands that meet the hypotheses of Obligations.UnitCommandsComplete, clause by clause (49 to 60 of 153). -/
theorem meets_UnitCommandsComplete_5 :
    (let q : Nat := 0
     let c : Cmd := rd 0x2E [(0x20, 2 ^ 21), (0x28, 1), (0x2C, 5)]
     let s : State := { withC c { st := .ready, extents := [(0, 2 ^ 21)] } with pool := { members := 3 } }
     let key : Word := BitVec.ofNat 32 (c.f 0x2C 4)
     (s.engineCmd q 0x2E = some c)
       ∧ (rangeOk c 2097152 = true)
       ∧ (c.f 0x28 1 < 128)
       ∧ (key = BitVec.ofNat 32 (c.f 0x2C 4))
       ∧ (∀ i < c.len / 65536, s.inExtent c.vd ((c.addr / 65536 + i) * 65536) = true ∧ s.entry c.vd (c.addr / 65536 + i) = none)
       ∧ (c.f 0x28 1 ≠ s.pool.devnum)
       ∧ (s.gone (c.f 0x28 1) = false))
    ∧ (let q : Nat := 0
     let c : Cmd := rd 0x2F [(0x20, 2 ^ 21)]
     let s : State := withC c { st := .ready, extents := [(0, 2 ^ 21)] }
     let s1 : State := (State.detachRun c.vd (c.len / 65536) (c.addr / 65536) s).2
     (s.engineCmd q 0x2F = some c)
       ∧ (rangeOk c 2097152 = true)
       ∧ (State.detachRun c.vd (c.len / 65536) (c.addr / 65536) s = (true, s1)))
    ∧ (let q : Nat := 0
     let c : Cmd := rd 0x2F [(0x20, 2 ^ 21)]
     let s : State := withC c
     let s1 : State := (State.detachRun c.vd (c.len / 65536) (c.addr / 65536) s).2
     (s.engineCmd q 0x2F = some c)
       ∧ (rangeOk c 2097152 = true)
       ∧ (State.detachRun c.vd (c.len / 65536) (c.addr / 65536) s = (false, s1)))
    ∧ (let v : Nat := 0
     let s : State := live
     let w : DWord := 0 * 2 ^ 48
     (s.WindowOpen v)
       ∧ (field w.toNat 48 2 = 0))
    ∧ (let v : Nat := 0
     let s : State := live
     let w : DWord := 1 * 2 ^ 48
     (s.WindowOpen v)
       ∧ (field w.toNat 48 2 = 1))
    ∧ (let v : Nat := 0
     let s : State := live
     let w : DWord := 2 * 2 ^ 48
     (s.WindowOpen v)
       ∧ (field w.toNat 48 2 = 2))
    ∧ (let v : Nat := 0
     let s : State := live
     let w : DWord := 3 * 2 ^ 48
     (s.WindowOpen v)
       ∧ (field w.toNat 48 2 = 3))
    ∧ (let ring : Nat := 0
     let v : Nat := 0
     let s : State := { live with vds := [(0, { st := .ready, useTask := 8, rings := [(0, { enable := true, sizeLog2 := 4, tail := 1 })] }), (1, { st := .ready, rings := [(0, { enable := true, sizeLog2 := 4, tail := 1 })] })], queues := [(8, { waiting := [{ vd := 1, item := 0 }] })], pol := { polT with quotaTask := [(0, 4096), (1, 8)] } }
     (s.mayRead v = true)
       ∧ (s.nextRing v = some ring)
       ∧ (s.slotNow v = false))
    ∧ (let x : Ext := {}
     let ring : Nat := 0
     let v : Nat := 0
     let s : State := { vd0 { st := .ready, extents := [(0, 2 ^ 21)], rings := [(0, { enable := true, sizeLog2 := 4, tail := 1 })] } with slu := { pt := [(0, { kind := .page })] } }
     let t : State := s.fresh.readEntry v ring x
     (s.mayRead v = true)
       ∧ (s.nextRing v = some ring)
       ∧ (s.slotNow v = true)
       ∧ (t = s.fresh.readEntry v ring x)
       ∧ (t.stall = []))
    ∧ (let x : Ext := {}
     let ring : Nat := 0
     let v : Nat := 0
     let s : State := { vd0 { st := .ready, extents := [(0, 2 ^ 21)], rings := [(0, { enable := true, sizeLog2 := 4, tail := 1, captured := 1 })] } with slu := { pt := [(0, { kind := .page })] } }
     let t : State := s.fresh.readCaptured v ring x
     (0 < (s.ring v ring).captured)
       ∧ ((s.ring v ring).cqFree = true)
       ∧ ((s.vd v).st = .ready)
       ∧ (s.boot.warm = 0)
       ∧ (t = s.fresh.readCaptured v ring x)
       ∧ (t.stall = []))
    ∧ (let ring : Nat := 0
     let v : Nat := 0
     let s : State := vd0 { st := .ready, rings := [(0, { enable := true, sizeLog2 := 4, reserved := 1 })] }
     ((s.ring v ring).cqLost = none)
       ∧ (0 < (s.ring v ring).reserved))
    ∧ (let ring : Nat := 0
     let v : Nat := 0
     let s : State := vd0 { st := .ready, rings := [(0, { enable := true, sizeLog2 := 4, reserved := 1, cqLost := some 64 })] }
     let a : Nat := 64
     ((s.ring v ring).cqLost = some a)) :=
  ⟨by and_intros <;> first | with_reducible rfl | decide +kernel,
   by and_intros <;> decide +kernel,
   by and_intros <;> decide +kernel,
   by and_intros <;> first | with_reducible rfl | decide +kernel,
   by and_intros <;> first | with_reducible rfl | decide +kernel,
   by and_intros <;> first | with_reducible rfl | decide +kernel,
   by and_intros <;> first | with_reducible rfl | decide +kernel,
   by and_intros <;> decide +kernel,
   by and_intros <;> first | with_reducible rfl | decide +kernel,
   by and_intros <;> first | with_reducible rfl | decide +kernel,
   by and_intros <;> decide +kernel,
   by decide +kernel⟩

/-- States and operands that meet the hypotheses of Obligations.UnitCommandsComplete, clause by clause (61 to 72 of 153). -/
theorem meets_UnitCommandsComplete_6 :
    (let q : Nat := 0
     let c : Cmd := cm 0x48 []
     let s : State := withC c
     (s.cmd? q = some c)
       ∧ (c.queued = true)
       ∧ (c.decoded = false)
       ∧ (c.opcode = 0x48)
       ∧ (s.startOk q c = true))
    ∧ (let x : Ext := {}
     let q : Nat := 0
     let c : Cmd := { cm 1 [] with decoded := true, wait := .met }
     let s : State := withC c
     let t : State := s.fresh.ready q c x
     (s.cmd? q = some c)
       ∧ (c.queued = true)
       ∧ (c.decoded = true)
       ∧ (s.current c = true)
       ∧ (t = s.fresh.ready q c x)
       ∧ (t.stall = []))
    ∧ (let q : Nat := 0
     let c : Cmd := { rd 0x11 [] with uncreated := [(0, [0])] }
     let s : State := withC c
     (s.cmd? q = some c)
       ∧ (s.current c = true)
       ∧ (c.uncreated ≠ [])
       ∧ (c.ownSlot = true))
    ∧ (let q : Nat := 0
     let c : Cmd := { rd 0x11 [] with uncreated := [(0, [0])], tasks := [{ tk with slice := 5 }] }
     let s : State := withC c
     (s.cmd? q = some c)
       ∧ (s.current c = true)
       ∧ (c.uncreated ≠ [])
       ∧ (c.ownSlot = false)
       ∧ (s.createFirst q c = true)
       ∧ (s.useTask c.vd < s.quotaTask c.vd)
       ∧ (s.slotNow c.vd = true))
    ∧ (let q : Nat := 0
     let c : Cmd := { rd 0x11 [] with uncreated := [(0, [0])], tasks := [{ tk with slice := 5 }] }
     let s : State := { withC c with vds := [(0, { st := .ready, useTask := 8 }), (1, { st := .ready, rings := [(0, { enable := true, sizeLog2 := 4, tail := 1 })] })], queues := [(8, { waiting := [{ vd := 1, item := 0 }] })], pol := { polT with quotaTask := [(0, 4096), (1, 8)] } }
     (s.cmd? q = some c)
       ∧ (s.current c = true)
       ∧ (c.uncreated ≠ [])
       ∧ (c.ownSlot = false)
       ∧ (s.createFirst q c = true)
       ∧ (s.useTask c.vd < s.quotaTask c.vd)
       ∧ (s.slotNow c.vd = false))
    ∧ (let pick : Nat := 0
     let n : Nat := 0
     let s : State := withC (rn 0x10 [])
     let s1 : State := s.stage n pick
     (s.sliceUp n = true)
       ∧ (s1 = s.stage n pick)
       ∧ (s1.tasksAt n .running ≠ []))
    ∧ (let pick : Nat := 0
     let n : Nat := 0
     let s : State := live
     let s1 : State := s.stage n pick
     (s.sliceUp n = true)
       ∧ (s1 = s.stage n pick)
       ∧ (s1.tasksAt n .running = [])
       ∧ (s1.tasksAt n .staged = []))
    ∧ (let pick : Nat := 0
     let n : Nat := 0
     let q : Nat := 0
     let t : Task := { slice := 0, st := .staged }
     let c : Cmd := { rd 0x11 [] with tasks := [t] }
     let ts : List (Nat × Task) := []
     let s : State := withC c
     let s1 : State := s.stage n pick
     (s.sliceUp n = true)
       ∧ (s1 = s.stage n pick)
       ∧ (s1.tasksAt n .running = [])
       ∧ (s1.tasksAt n .staged = (q, t) :: ts)
       ∧ (s1.cmd? q = some c))
    ∧ (let x : Ext := {}
     let n : Nat := 0
     let q : Nat := 0
     let s : State := live
     let t : State := s.fresh.taskTerminate q n x
     (t = s.fresh.taskTerminate q n x)
       ∧ (t.stall = []))
    ∧ (let q : Nat := 0
     let c : Cmd := rd 1 []
     let s : State := withC c
     (s.engineCmd q 1 = some c))
    ∧ (let q : Nat := 0
     let c : Cmd := rd 2 []
     let s : State := withC c
     (s.engineCmd q 2 = some c))
    ∧ (let n : Nat := 0
     let q : Nat := 0
     let c : Cmd := { rn 0x13 [] with old := some (some 7) }
     let t : Task := tk
     let s : State := withC c
     (s.cmd? q = some c)
       ∧ (s.taskOn q c n = some t)
       ∧ (t.cancel = false)
       ∧ (c.opcode = 0x13)
       ∧ (c.old.isSome = true)) :=
  ⟨by and_intros <;> decide +kernel,
   by and_intros <;> first | with_reducible rfl | decide +kernel,
   by and_intros <;> decide +kernel,
   by and_intros <;> decide +kernel,
   by and_intros <;> decide +kernel,
   by and_intros <;> first | with_reducible rfl | decide +kernel,
   by and_intros <;> first | with_reducible rfl | decide +kernel,
   by and_intros <;> first | with_reducible rfl | decide +kernel,
   by and_intros <;> first | with_reducible rfl | decide +kernel,
   by decide +kernel,
   by decide +kernel,
   by and_intros <;> decide +kernel⟩

/-- States and operands that meet the hypotheses of Obligations.UnitCommandsComplete, clause by clause (73 to 84 of 153). -/
theorem meets_UnitCommandsComplete_7 :
    (let x : Ext := {}
     let n : Nat := 0
     let q : Nat := 0
     let a : Nat := 0
     let ga : Nat := 0
     let c : Cmd := rn 0x13 []
     let t : Task := tk
     let s : State := withP c
     let s1 : State := (s.fresh.translate c.vd a (decide (c.atop ≠ 0)) { x with via := 8 + n }).2
     let u : State := (s1.lineAtom (ga / 128) (ga % 128) c { c.who q with va := a, slice := some n } x.pick).atomTake q n c.width
     (s.cmd? q = some c)
       ∧ (s.taskOn q c n = some t)
       ∧ (t.cancel = false)
       ∧ (c.opcode = 0x13)
       ∧ (c.old = none)
       ∧ (s.atomOut q = false)
       ∧ (c.ref 0x18 = .va a)
       ∧ (s.fresh.translate c.vd a (decide (c.atop ≠ 0)) { x with via := 8 + n } = (.ok ga, s1))
       ∧ (u = (s1.lineAtom (ga / 128) (ga % 128) c { c.who q with va := a, slice := some n } x.pick).atomTake q n c.width)
       ∧ (u.stall = []))
    ∧ (let x : Ext := {}
     let n : Nat := 0
     let q : Nat := 0
     let h : Nat := 0
     let o : Nat := 0
     let t : Task := { tk with held := [0] }
     let c : Cmd := rn 0x13 [(0x18, 2 ^ 63)] t
     let s : State := withC c
     let a : Nat := s.poolByte (handlePool h) (s.blkOff h o)
     let u : State := (s.fresh.lineAtom (s.ownLine (a / 128)) (a % 128) c { c.who q with va := boundsAddr o, slice := some n } x.pick).atomTake q n c.width
     (s.cmd? q = some c)
       ∧ (s.taskOn q c n = some t)
       ∧ (t.cancel = false)
       ∧ (c.opcode = 0x13)
       ∧ (c.old = none)
       ∧ (s.atomOut q = false)
       ∧ (c.ref 0x18 = .blk h o)
       ∧ (t.held ≠ [])
       ∧ (o + c.width / 8 ≤ s.blkSize h)
       ∧ ((s.hpool (handlePool h)).kind ≠ 1)
       ∧ (a = s.poolByte (handlePool h) (s.blkOff h o))
       ∧ (u = (s.fresh.lineAtom (s.ownLine (a / 128)) (a % 128) c { c.who q with va := boundsAddr o, slice := some n } x.pick).atomTake q n c.width)
       ∧ (u.stall = []))
    ∧ (let n : Nat := 0
     let q : Nat := 0
     let c : Cmd := rn 0x30 []
     let t : Task := tk
     let s : State := withC c
     (s.cmd? q = some c)
       ∧ (s.taskOn q c n = some t)
       ∧ (t.cancel = false)
       ∧ (c.opcode = 0x30)
       ∧ (s.runners.find n = none))
    ∧ (let n : Nat := 0
     let q : Nat := 0
     let c : Cmd := rn 0x38 []
     let t : Task := tk
     let s : State := withC c
     (s.cmd? q = some c)
       ∧ (s.taskOn q c n = some t)
       ∧ (t.cancel = false)
       ∧ (c.opcode = 0x38)
       ∧ (s.runners.find n = none))
    ∧ (let x : Ext := {}
     let n : Nat := 0
     let q : Nat := 0
     let r : Runner := { cmd := 0, bay := 0 }
     let c : Cmd := rn 0x38 []
     let t : Task := tk
     let s : State := { withC c with runners := [(0, r)] }
     let u : State := s.fresh.gatherStep q n c t r x
     (s.cmd? q = some c)
       ∧ (s.taskOn q c n = some t)
       ∧ (t.cancel = false)
       ∧ (c.opcode = 0x38)
       ∧ (s.runners.find n = some r)
       ∧ (u = s.fresh.gatherStep q n c t r x)
       ∧ (u.stall = []))
    ∧ (let x : Ext := {}
     let n : Nat := 0
     let r : Runner := { cmd := 0, bay := 0 }
     let c : Cmd := rn 0x30 [(0x34, 16), (0x30, 1), (0x38, 1)]
     let s : State := { withPlan planT c with runners := [(0, r)] }
     let t : Task := tk
     let u : State := s.fresh.loadTile n r c t x
     (s.runnerOn n 0x30 = some (r, c, t))
       ∧ (u = s.fresh.loadTile n r c t x)
       ∧ (u.stall = []))
    ∧ (let x : Ext := {}
     let n : Nat := 0
     let c : Cmd := rn 0x30 [(0x34, 16), (0x30, 1), (0x38, 1)]
     let t : Task := tk
     let y : BayTile := { m0 := 0, rows := 1, n0 := 0, cols := 1, k0 := 0, kEnd := 16 }
     let l : LocTile := { m0 := 0, rows := 1, n0 := 0, cols := 1, k0 := 0, kEnd := 16 }
     let lt : LocalTile := { loc := 0, a := [{ bytes := List.replicate 16 1 }], x := [{ bytes := List.replicate 16 2 }] }
     let r : Runner := { cmd := 0, bay := 0, next := 1, loaded := [lt] }
     let s : State := { withPlan planT c with runners := [(0, r)] }
     let u : State := s.fresh.tileAttempt n r c t x
     (s.runnerOn n 0x30 = some (r, c, t))
       ∧ (u = s.fresh.tileAttempt n r c t x)
       ∧ (u.stall = []))
    ∧ (let x : Ext := {}
     let n : Nat := 0
     let c : Cmd := rn 0x30 [(0x34, 16), (0x30, 1), (0x38, 1)]
     let t : Task := tk
     let y : BayTile := { m0 := 0, rows := 1, n0 := 0, cols := 1, k0 := 0, kEnd := 16 }
     let l : LocTile := { m0 := 0, rows := 1, n0 := 0, cols := 1, k0 := 0, kEnd := 16 }
     let lt : LocalTile := { loc := 0, a := [{ bytes := List.replicate 16 1 }], x := [{ bytes := List.replicate 16 2 }] }
     let r : Runner := { cmd := 0, bay := 0, next := 1, loaded := [lt] }
     let s : State := { withPlan planT c with runners := [(0, r)] }
     let u : State := ((s.fresh.tileAttempt n r c t x).tileError n).charge 4 n 64
     (s.runnerOn n 0x30 = some (r, c, t))
       ∧ (u = ((s.fresh.tileAttempt n r c t x).tileError n).charge 4 n 64)
       ∧ (u.stall = []))
    ∧ (let n : Nat := 0
     let c : Cmd := rn 0x30 [(0x34, 16), (0x30, 1), (0x38, 1)]
     let t : Task := tk
     let y : Active := { phase := .spill false, m0 := 0, n0 := 0, rows := 1, cols := 1, k := 16, kEnd := 16, acc := [5] }
     let r : Runner := { cmd := 0, bay := 0, cur := some y }
     let s : State := { withPlan planT c with runners := [(0, r)] }
     let leave : Bool := false
     (s.runnerOn n 0x30 = some (r, c, t))
       ∧ (r.cur = some y)
       ∧ (y.phase = .spill leave))
    ∧ (let n : Nat := 0
     let c : Cmd := rn 0x30 [(0x34, 16), (0x30, 1), (0x38, 1)]
     let t : Task := tk
     let y : Active := { phase := .swap, m0 := 0, n0 := 0, rows := 1, cols := 1, k := 16, kEnd := 16, acc := [5], poison := true }
     let r : Runner := { cmd := 0, bay := 0, cur := some y }
     let s : State := { withPlan planT c with runners := [(0, r)] }
     (s.runnerOn n 0x30 = some (r, c, t))
       ∧ (r.cur = some y)
       ∧ (y.phase = .swap))
    ∧ (let x : Ext := {}
     let n : Nat := 0
     let sh : Shadow := { m0 := 0, n0 := 0, rows := 1, cols := 1, vals := [5], adj := 0, sat := false, poison := false }
     let r : Runner := { cmd := 0, bay := 0, shadow := some sh }
     let c : Cmd := rn 0x30 [(0x34, 16), (0x30, 1), (0x38, 1)]
     let t : Task := tk
     let s : State := { withPlan planT c with runners := [(0, r)] }
     let u : State := s.fresh.drainDone n r c t sh x
     (s.runners.find n = some r)
       ∧ (s.cmd? r.cmd = some c)
       ∧ (r.shadow = some sh)
       ∧ (s.taskOn r.cmd c n = some t)
       ∧ (u = s.fresh.drainDone n r c t sh x)
       ∧ (u.stall = []))
    ∧ (let pick : Nat := 0
     let q : Nat := 0
     let c : Cmd := rd 3 []
     let s : State := withC c
     (s.penCmd q 0 = some c)
       ∧ (s.binding c.vd c.pen = none)
       ∧ ((s.vd c.vd).bind.length < s.quotaPen c.vd)
       ∧ (s.penPresent pick = true)
       ∧ ((s.penn pick).st = .free)) :=
  ⟨by and_intros <;> first | with_reducible rfl | decide +kernel,
   by and_intros <;> first | with_reducible rfl | decide +kernel,
   by and_intros <;> decide +kernel,
   by and_intros <;> decide +kernel,
   by and_intros <;> first | with_reducible rfl | decide +kernel,
   by and_intros <;> first | with_reducible rfl | decide +kernel,
   by and_intros <;> first | with_reducible rfl | decide +kernel,
   by and_intros <;> first | with_reducible rfl | decide +kernel,
   by and_intros <;> first | with_reducible rfl | decide +kernel,
   by and_intros <;> first | with_reducible rfl | decide +kernel,
   by and_intros <;> first | with_reducible rfl | decide +kernel,
   by and_intros <;> decide +kernel⟩

/-- States and operands that meet the hypotheses of Obligations.UnitCommandsComplete, clause by clause (85 to 96 of 153). -/
theorem meets_UnitCommandsComplete_8 :
    (let p : Nat := 0
     let q : Nat := 0
     let c : Cmd := rd 3 [(0x16, 1)]
     let s : State := { withC c { st := .ready, bind := [(0, .lease 0 false)] } with pen := { pens := [(0, { st := .leased })] } }
     (s.binding c.vd c.pen = some (.lease p false))
       ∧ (s.penCmd q 1 = some c))
    ∧ (let p : Nat := 0
     let q : Nat := 0
     let c : Cmd := rd 3 [(0x16, 2)]
     let s : State := { withC c { st := .ready, bind := [(0, .lease 0 false)] } with pen := { pens := [(0, { st := .leased })] } }
     (s.binding c.vd c.pen = some (.lease p false))
       ∧ (s.penCmd q 2 = some c))
    ∧ (let p : Nat := 0
     let q : Nat := 0
     let c : Cmd := rd 3 [(0x16, 3)]
     let s : State := { withC c { st := .ready, bind := [(0, .lease 0 false)] } with pen := { pens := [(0, { st := .leased })] } }
     (s.binding c.vd c.pen = some (.lease p false))
       ∧ (s.penCmd q 3 = some c))
    ∧ (let p : Nat := 0
     let q : Nat := 0
     let c : Cmd := rd 3 [(0x16, 4)]
     let s : State := { withC c { st := .ready, bind := [(0, .lease 0 false)] } with pen := { pens := [(0, { st := .leased })] } }
     (s.binding c.vd c.pen = some (.lease p false))
       ∧ (s.penCmd q 4 = some c))
    ∧ (let p : Nat := 0
     let q : Nat := 0
     let c : Cmd := rd 3 [(0x16, 5)]
     let s : State := { withC c { st := .ready, bind := [(0, .lease 0 false)] } with pen := { pens := [(0, { st := .leased })] } }
     (s.binding c.vd c.pen = some (.lease p false))
       ∧ (s.penCmd q 5 = some c))
    ∧ (let p : Nat := 0
     let q : Nat := 0
     let k : Nat := 4
     let e : Export := { pen := 0, key := 9 }
     let c : Cmd := rd 3 [(0x16, 6)]
     let s : State := { withC c { st := .ready, bind := [(0, .lease 0 false)] } with pen := { pens := [(0, { st := .leased })], exports := [(4, e)] } }
     (s.binding c.vd c.pen = some (.lease p false))
       ∧ (s.penCmd q 6 = some c)
       ∧ (s.exportOf p = some (k, e)))
    ∧ (let pick : Nat := 0
     let p : Nat := 0
     let q : Nat := 0
     let k : Nat := 0
     let c : Cmd := rd 3 [(0x16, 6)]
     let s : State := { withC c { st := .ready, bind := [(0, .lease 0 false)] } with pen := { pens := [(0, { st := .leased })] } }
     let key : BitVec 31 := s.draw.1.setWidth 31
     let s1 : State := s.draw.2
     (s.binding c.vd c.pen = some (.lease p false))
       ∧ (s.penCmd q 6 = some c)
       ∧ (s.exportOf p = none)
       ∧ (pickFrom ((List.range 1024).filter fun k => (s.pen.exports.find k).isNone) pick = some k)
       ∧ (key = s.draw.1.setWidth 31)
       ∧ (s1 = s.draw.2))
    ∧ (let p : Nat := 0
     let q : Nat := 0
     let c : Cmd := rd 3 [(0x16, 8)]
     let s : State := { withC c { st := .ready, bind := [(0, .lease 0 false)] } with pen := { pens := [(0, { st := .leased })] } }
     (s.binding c.vd c.pen = some (.lease p false))
       ∧ (s.penCmd q 8 = some c))
    ∧ (let q : Nat := 0
     let t : Nat := 1024
     let c : Cmd := rd 3 [(0x16, 1)]
     let s : State := withC c { st := .ready, bind := [(0, .imported t false)] }
     (s.binding c.vd c.pen = some (.imported t false))
       ∧ (ticketDev t ≠ s.pool.devnum)
       ∧ (s.penCmd q 1 = some c))
    ∧ (let q : Nat := 0
     let t : Nat := 1024
     let c : Cmd := rd 3 [(0x16, 2)]
     let s : State := withC c { st := .ready, bind := [(0, .imported t false)] }
     (s.binding c.vd c.pen = some (.imported t false))
       ∧ (ticketDev t ≠ s.pool.devnum)
       ∧ (s.penCmd q 2 = some c))
    ∧ (let q : Nat := 0
     let t : Nat := 1024
     let c : Cmd := rd 3 [(0x16, 4)]
     let s : State := withC c { st := .ready, bind := [(0, .imported t false)] }
     (s.binding c.vd c.pen = some (.imported t false))
       ∧ (ticketDev t ≠ s.pool.devnum)
       ∧ (s.penCmd q 4 = some c))
    ∧ (let q : Nat := 0
     let t : Nat := 1024
     let c : Cmd := rd 3 [(0x16, 5)]
     let s : State := withC c { st := .ready, bind := [(0, .imported t false)] }
     (s.binding c.vd c.pen = some (.imported t false))
       ∧ (ticketDev t ≠ s.pool.devnum)
       ∧ (s.penCmd q 5 = some c)) :=
  ⟨by and_intros <;> decide +kernel,
   by and_intros <;> decide +kernel,
   by and_intros <;> decide +kernel,
   by and_intros <;> decide +kernel,
   by and_intros <;> decide +kernel,
   by and_intros <;> decide +kernel,
   by and_intros <;> first | with_reducible rfl | decide +kernel,
   by and_intros <;> decide +kernel,
   by and_intros <;> decide +kernel,
   by and_intros <;> decide +kernel,
   by and_intros <;> decide +kernel,
   by and_intros <;> decide +kernel⟩

/-- States and operands that meet the hypotheses of Obligations.UnitCommandsComplete, clause by clause (97 to 108 of 153). -/
theorem meets_UnitCommandsComplete_9 :
    (let n : Nat := 0
     let q : Nat := 0
     let c : Cmd := rd 3 [(0x16, 7), (0x20, 9 * 2 ^ 17 + 4)]
     let s : State := { withC c with pen := { pens := [(0, { st := .leased })], exports := [(4, { pen := 0, key := 9 })] } }
     let s1 : State := (s.importCheck c.value s.pool.devnum c.vd).2
     (s.penCmd q 7 = some c)
       ∧ (s.binding c.vd c.pen = none)
       ∧ ((s.vd c.vd).bind.length < s.quotaPen c.vd)
       ∧ (ticketDev c.value = s.pool.devnum)
       ∧ (s.importCheck c.value s.pool.devnum c.vd = (some n, s1)))
    ∧ (let q : Nat := 0
     let c : Cmd := rd 3 [(0x16, 7), (0x20, 9 * 2 ^ 17 + 4)]
     let s : State := withC c
     let s1 : State := (s.importCheck c.value s.pool.devnum c.vd).2
     (s.penCmd q 7 = some c)
       ∧ (s.binding c.vd c.pen = none)
       ∧ ((s.vd c.vd).bind.length < s.quotaPen c.vd)
       ∧ (ticketDev c.value = s.pool.devnum)
       ∧ (s.importCheck c.value s.pool.devnum c.vd = (none, s1)))
    ∧ (let q : Nat := 0
     let c : Cmd := rd 3 [(0x16, 7), (0x20, 1024)]
     let s : State := withC c
     (s.penCmd q 7 = some c)
       ∧ (s.binding c.vd c.pen = none)
       ∧ ((s.vd c.vd).bind.length < s.quotaPen c.vd)
       ∧ (ticketDev c.value ≠ s.pool.devnum))
    ∧ (let pick : Nat := 0
     let d : Nat := 0
     let s : State := { withPlan planT (rn 0x30 []) with flume := [(0, { waiting := [{ cmd := 0, vd := 0, reduce := true, slices := [0], anchor := 0 }] })] }
     let ws : List FlumeRun := (s.flumeOf d).waiting.filter s.runAlive
     let from_ : List FlumeRun := (if (ws.filter s.runBegun).isEmpty then ws else ws.filter s.runBegun)
     let i : Nat := (((s.flumeOf d).arb.choose (from_.map fun r => s.ask r.vd) pick).getD (0, {})).1
     let a : Arb := (((s.flumeOf d).arb.choose (from_.map fun r => s.ask r.vd) pick).getD (0, {})).2
     let g : FlumeRun := from_[i]?.getD { cmd := 0, vd := 0, reduce := true, slices := [0], anchor := 0 }
     ((s.flumeOf d).run = none)
       ∧ (ws = (s.flumeOf d).waiting.filter s.runAlive)
       ∧ (from_ = (if (ws.filter s.runBegun).isEmpty then ws else ws.filter s.runBegun))
       ∧ ((s.flumeOf d).arb.choose (from_.map fun r => s.ask r.vd) pick = some (i, a))
       ∧ (from_[i]? = some g))
    ∧ (let d : Nat := 0
     let g : FlumeRun := { cmd := 0, vd := 0, reduce := false, slices := [0], anchor := 0, periods := 100 }
     let c : Cmd := rn 0x30 [(0x34, 16), (0x30, 1), (0x38, 1)]
     let s : State := { withPlan { planT with flume := 0 } c with flume := [(0, { run := some g })] }
     ((s.flumeOf d).run = some g)
       ∧ (0 < g.periods)
       ∧ (g.total ≤ g.periods))
    ∧ (let wait : Nat := 0
     let d : Nat := 0
     let g : FlumeRun := { cmd := 0, vd := 0, reduce := false, slices := [0], anchor := 0, periods := 5, total := 100 }
     let s : State := { live with flume := [(0, { run := some g })] }
     let s1 : State := (s.setFlume d { s.flumeOf d with wait := (s.flumeOf d).wait + BitVec.ofNat 32 wait }).runOver d g true
     ((s.flumeOf d).run = some g)
       ∧ (¬ (0 < g.periods ∧ g.total ≤ g.periods))
       ∧ (s.runBroken d g = true)
       ∧ (s1 = (s.setFlume d { s.flumeOf d with wait := (s.flumeOf d).wait + BitVec.ofNat 32 wait }).runOver d g true))
    ∧ (let d : Nat := 0
     let g : FlumeRun := { cmd := 0, vd := 0, reduce := false, slices := [0], anchor := 0, supply := [[]] }
     let c : Cmd := rn 0x30 [(0x34, 16), (0x30, 1), (0x38, 1)]
     let fr : FlumeRec := { reduce := false, period := 4, variants := [] }
     let s : State := { withPlan { planT with flume := 0 } c with img := { imgT with plans := [(0, { planT with flume := 0 })], flumes := [(0, fr)] }, flume := [(0, { run := some g })] }
     let u : State := (if g.reduce then s.reducePeriod d g c fr.fmt (fr.variant g.anchor) else s.multicastPeriod d g c (fr.variant g.anchor))
     ((s.flumeOf d).run = some g)
       ∧ (s.cmd? g.cmd = some c)
       ∧ (s.img.flumes.find (s.planOf c).flume = some fr)
       ∧ (s.runReady d g c = true)
       ∧ (u = (if g.reduce then s.reducePeriod d g c fr.fmt (fr.variant g.anchor) else s.multicastPeriod d g c (fr.variant g.anchor))))
    ∧ (let cr : List Nat := []
     let k : Nat := 8
     let out : Nat := 7
     let m : RaceMsg := { cls := 4, inp := 3, out := 7, traffic := .offDie }
     let ms : List RaceMsg := [m]
     let s : State := live
     let r0 : Race := (s.races.getD k {}).returned out cr
     let new : List RaceMsg := (ms.map fun m => { m with out := out }).filter (fun m => s.racePort k m.inp && m.carried k)
     let r : Race := { r0 with waiting := r0.waiting ++ new }
     let r1 : Race := ((r.choose out [m]).getD (m, r)).2
     (8 ≤ k ∨ (s.die k).st = .active)
       ∧ (s.racePort k out = true)
       ∧ (r0 = (s.races.getD k {}).returned out cr)
       ∧ (new = (ms.map fun m => { m with out := out }).filter (fun m => s.racePort k m.inp && m.carried k))
       ∧ (r = { r0 with waiting := r0.waiting ++ new })
       ∧ (r.choose out (r.waiting.filter fun m => decide (m.out = out) && decide (r.used.getD (out * 8 + m.cls) 0 < Config.raceCredits k m.cls + 1)) = some (m, r1)))
    ∧ (let cr : List Nat := []
     let k : Nat := 8
     let out : Nat := 7
     let m : RaceMsg := { cls := 4, inp := 3, out := 7 }
     let ms : List RaceMsg := [m]
     let s : State := live
     let r0 : Race := (s.races.getD k {}).returned out cr
     let new : List RaceMsg := (ms.map fun m => { m with out := out }).filter (fun m => s.racePort k m.inp && m.carried k)
     let r : Race := { r0 with waiting := r0.waiting ++ new }
     let r1 : Race := ((r.choose out (r.waiting.filter fun m => decide (m.out = out))).getD (m, r)).2
     (8 ≤ k ∨ (s.die k).st = .active)
       ∧ (s.racePort k out = true)
       ∧ (r0 = (s.races.getD k {}).returned out cr)
       ∧ (new = (ms.map fun m => { m with out := out }).filter (fun m => s.racePort k m.inp && m.carried k))
       ∧ (r = { r0 with waiting := r0.waiting ++ new })
       ∧ (r.choose out (r.waiting.filter fun m => decide (m.out = out) && decide (r.used.getD (out * 8 + m.cls) 0 < Config.raceCredits k m.cls + 1)) = none))
    ∧ (let p : Nat := 0
     let s : State := poolS { st := .detect }
     let lanes : Nat := 0x81
     let x : State := s.linkSync
     (x = s.linkSync)
       ∧ ((s.hylPort p).st = .detect)
       ∧ (2 ≤ popCount 8 lanes))
    ∧ (let p : Nat := 0
     let s : State := poolS { st := .train, seen := (List.range 8).map fun i => (i, 8), sentSeen := (List.range 8).map fun i => (i, 8) }
     let lanes : Nat := 511
     let x : State := s.linkSync
     let up : Nat := packBits 8 (fun l => bit (lanes % 256 &&& (255 ^^^ ((x.hylPort p).retired &&& 255))) l && (x.hylPort p).laneSeen l)
     (x = s.linkSync)
       ∧ ((x.hylPort p).st = .train)
       ∧ (up = packBits 8 (fun l => bit (lanes % 256 &&& (255 ^^^ ((x.hylPort p).retired &&& 255))) l && (x.hylPort p).laneSeen l))
       ∧ (2 ≤ popCount 8 up))
    ∧ (let p : Nat := 0
     let set : Nat := 255
     let s : State := poolS { st := .config, trained := 255, peerUsable := 255, seen := (List.range 8).map fun i => (i, 8), sentSeen := (List.range 8).map fun i => (i, 8) }
     let x : State := s.linkSync
     (x = s.linkSync)
       ∧ ((x.hylPort p).st = .config)
       ∧ (chooseSet 255 ((x.hylPort p).trained &&& (x.hylPort p).peerUsable &&& (255 ^^^ ((x.hylPort p).retired &&& 255))) = some set)
       ∧ ((x.hylPort p).blocksSeen set = true)) :=
  ⟨by and_intros <;> decide +kernel,
   by and_intros <;> decide +kernel,
   by and_intros <;> decide +kernel,
   by and_intros <;> first | with_reducible rfl | decide +kernel,
   by and_intros <;> decide +kernel,
   by and_intros <;> first | with_reducible rfl | decide +kernel,
   by and_intros <;> first | with_reducible rfl | decide +kernel,
   (by
      and_intros
      · exact .inl (by decide)
      all_goals first | with_reducible rfl | decide +kernel | exact some_pair _ _ _ (by decide +kernel)),
   by and_intros <;> first | with_reducible rfl | decide +kernel,
   by and_intros <;> first | with_reducible rfl | decide +kernel,
   by and_intros <;> first | with_reducible rfl | decide +kernel,
   by and_intros <;> first | with_reducible rfl | decide +kernel⟩

/-- States and operands that meet the hypotheses of Obligations.UnitCommandsComplete, clause by clause (109 to 120 of 153). -/
theorem meets_UnitCommandsComplete_10 :
    (let p : Nat := 0
     let s : State := poolS { st := .config }
     let x : State := s.linkSync
     (x = s.linkSync)
       ∧ ((x.hylPort p).st = .config)
       ∧ (chooseSet 255 ((x.hylPort p).trained &&& (x.hylPort p).peerUsable &&& (255 ^^^ ((x.hylPort p).retired &&& 255))) = none))
    ∧ (let p : Nat := 0
     let s : State := poolS l0
     let lane : Nat := 7
     let x : State := s.linkSync
     (x = s.linkSync)
       ∧ ((s.hylPort p).st = .l0)
       ∧ (bit (s.hylPort p).active lane = true))
    ∧ (let p : Nat := 0
     let s : State := poolS { l0 with st := .recovery }
     let x : State := s.linkSync
     (x = s.linkSync)
       ∧ ((s.hylPort p).st = .recovery))
    ∧ (let p : Nat := 0
     let s : State := poolS { l0 with st := .l1 }
     let x : State := s.linkSync
     (x = s.linkSync)
       ∧ ((s.hylPort p).st = .widthChange ∨ (s.hylPort p).st = .l1 ∨ (s.hylPort p).st = .l1d))
    ∧ (let p : Nat := 0
     let s : State := poolS { st := .down }
     let x : State := s.linkSync
     (x = s.linkSync)
       ∧ ((s.hylPort p).st = .down))
    ∧ (let p : Nat := 0
     let s : State := poolS { l0 with want := some 3 }
     let lanes : Nat := 3
     let x : State := s.linkSync
     (x = s.linkSync)
       ∧ ((s.hylPort p).st = .l0)
       ∧ ((s.hylPort p).want = some lanes))
    ∧ (let p : Nat := 0
     let s : State := poolS { l0 with pmWait := true }
     let x : State := s.linkSync
     (x = s.linkSync)
       ∧ ((s.hylPort p).st = .l0)
       ∧ ((s.hylPort p).pmWait = true))
    ∧ (let p : Nat := 0
     let s : State := poolS { l0 with st := .l1 }
     let x : State := s.linkSync
     (x = s.linkSync)
       ∧ ((s.hylPort p).st = .l1))
    ∧ (let p : Nat := 0
     let s : State := poolS { l0 with st := .l1 }
     let x : State := s.linkSync
     (x = s.linkSync)
       ∧ ((s.hylPort p).st = .l1 ∨ (s.hylPort p).st = .l1d))
    ∧ (let p : Nat := 0
     let s : State := { poolS l0 with pol := { polT with hylEqHold := 1 } }
     let x : State := s.linkSync
     (x = s.linkSync)
       ∧ (bit s.pol.hylEqHold p = true))
    ∧ (let p : Nat := 0
     let s : State := poolS l0
     let lanes : Nat := 0xC0
     let x : State := s.linkSync
     (x = s.linkSync)
       ∧ ((x.hylPort p).st = .l0)
       ∧ ((x.hylPort p).own = false)
       ∧ (candidateSets.contains lanes = true)
       ∧ (lanes &&& (x.hylPort p).active = lanes))
    ∧ (let p : Nat := 0
     let n : Nat := 0
     let s : State := poolS { l0 with st := .widthChange, peerNext := some n, seen := (List.range 8).map fun i => (i, 8), sentSeen := (List.range 8).map fun i => (i, 8) }
     let x : State := s.linkSync
     (x = s.linkSync)
       ∧ ((x.hylPort p).st = .widthChange)
       ∧ ((x.hylPort p).blocksSeen (x.hylPort p).active = true)
       ∧ ((x.hylPort p).peerNext = some n)
       ∧ ((x.hylPort p).inRange n = true)) :=
  ⟨by and_intros <;> first | with_reducible rfl | decide +kernel,
   by and_intros <;> first | with_reducible rfl | decide +kernel,
   by and_intros <;> first | with_reducible rfl | decide +kernel,
   by and_intros <;> first | with_reducible rfl | decide +kernel,
   by and_intros <;> first | with_reducible rfl | decide +kernel,
   by and_intros <;> first | with_reducible rfl | decide +kernel,
   by and_intros <;> first | with_reducible rfl | decide +kernel,
   by and_intros <;> first | with_reducible rfl | decide +kernel,
   by and_intros <;> first | with_reducible rfl | decide +kernel,
   by and_intros <;> first | with_reducible rfl | decide +kernel,
   by and_intros <;> first | with_reducible rfl | decide +kernel,
   by and_intros <;> first | with_reducible rfl | decide +kernel⟩

/-- States and operands that meet the hypotheses of Obligations.UnitCommandsComplete, clause by clause (121 to 132 of 153). -/
theorem meets_UnitCommandsComplete_11 :
    (let p : Nat := 0
     let n : Nat := 9
     let s : State := poolS { l0 with st := .widthChange, peerNext := some n, seen := (List.range 8).map fun i => (i, 8), sentSeen := (List.range 8).map fun i => (i, 8) }
     let x : State := s.linkSync
     (x = s.linkSync)
       ∧ ((x.hylPort p).st = .widthChange)
       ∧ ((x.hylPort p).blocksSeen (x.hylPort p).active = true)
       ∧ ((x.hylPort p).peerNext = some n)
       ∧ ((x.hylPort p).inRange n = false))
    ∧ (let p : Nat := 0
     let s : State := poolS { l0 with credits := fullCredits, pmWait := true }
     let x : State := s.linkSync
     (x = s.linkSync)
       ∧ ((x.hylPort p).st = .l0)
       ∧ ((x.hylPort p).pmWait = true))
    ∧ (let p : Nat := 0
     let s : State := poolS { l0 with credits := fullCredits }
     let x : State := s.linkSync
     (x = s.linkSync)
       ∧ ((x.hylPort p).st = .l0)
       ∧ ((x.hylPort p).pmWait = false)
       ∧ (x.hylIdle p = true))
    ∧ (let p : Nat := 0
     let s : State := poolS l0
     let x : State := s.linkSync
     (x = s.linkSync)
       ∧ ((x.hylPort p).st = .l0)
       ∧ ((x.hylPort p).pmWait = false)
       ∧ (x.hylIdle p = false))
    ∧ (let i : Nat := 0
     let r : RemoteOp := { op := .rdX, dev := 1, line := 2 ^ 34, tag := 0, who := { vd := 0 } }
     let s : State := poolS l0 { remote := [r] }
     let s1 : State := s.dropRemote r
     (s.pool.remote[i]? = some r)
       ∧ (s1 = s.dropRemote r))
    ∧ (let serial : Nat := 0
     let f : Flood := { origin := 101, seq := 3, port := 0 }
     let s : State := poolS l0
     let s1 : State := (s.linkSync.floodIn 2 f [serial]).getD s
     (s.linkSync.floodIn 2 f [serial] = some s1)
       ∧ (s1.pool.lowest = none))
    ∧ (let serial : Nat := 0
     let f : Flood := { origin := 101, seq := 3, port := 0 }
     let a : Nat := 8
     let s : State := poolS l0 { lowest := some 8 }
     let s1 : State := (s.linkSync.floodIn 2 f [serial]).getD s
     (s.linkSync.floodIn 2 f [serial] = some s1)
       ∧ (s1.pool.lowest = some a))
    ∧ (let serial : Nat := 0
     let f : Flood := { origin := 101, seq := 3, port := 0 }
     let s : State := poolS l0
     let s1 : State := (s.linkSync.floodIn 3 f [serial]).getD s
     (s.linkSync.floodIn 3 f [serial] = some s1))
    ∧ (let serial : Nat := 0
     let f : Flood := { origin := 101, seq := 3, port := 0 }
     let s : State := poolS l0
     let n : Nat := 2
     let s1 : State := (s.linkSync.floodIn 4 f [serial, n, 1]).getD s
     (s.linkSync.floodIn 4 f [serial, n, 1] = some s1)
       ∧ (s1.pool.st ≠ .member ∨ s1.pool.devnum ≠ n ∨ serial = s1.fuses.serial))
    ∧ (let serial : Nat := 0
     let f : Flood := { origin := 101, seq := 3, port := 0 }
     let s : State := poolS l0 { st := .member, devnum := 2 }
     let n : Nat := 2
     let s1 : State := (s.linkSync.floodIn 4 f [serial, n, 0]).getD s
     (s.linkSync.floodIn 4 f [serial, n, 0] = some s1)
       ∧ (s1.pool.st = .member)
       ∧ (s1.pool.devnum = n))
    ∧ (let serial : Nat := 0
     let f : Flood := { origin := 101, seq := 3, port := 0 }
     let s : State := poolS l0
     let n : Nat := 2
     let s1 : State := (s.linkSync.floodIn 4 f [serial, n, 0]).getD s
     (s.linkSync.floodIn 4 f [serial, n, 0] = some s1)
       ∧ (s1.pool.st ≠ .member ∨ s1.pool.devnum ≠ n))
    ∧ (let ok : Bool := false
     let d : Nat := 0
     let n : Nat := 0
     let f : Flood := { origin := 101, seq := 3, port := 0 }
     let s : State := poolS l0
     let s1 : State := (s.linkSync.floodIn 5 f [n, d, b2n ok]).getD s
     (s.linkSync.floodIn 5 f [n, d, b2n ok] = some s1)) :=
  ⟨by and_intros <;> first | with_reducible rfl | decide +kernel,
   by and_intros <;> first | with_reducible rfl | decide +kernel,
   by and_intros <;> first | with_reducible rfl | decide +kernel,
   by and_intros <;> first | with_reducible rfl | decide +kernel,
   by and_intros <;> first | with_reducible rfl | decide +kernel,
   by and_intros <;> decide +kernel,
   by and_intros <;> decide +kernel,
   by decide +kernel,
   by and_intros <;> decide +kernel,
   by and_intros <;> decide +kernel,
   by and_intros <;> decide +kernel,
   by decide +kernel⟩

/-- States and operands that meet the hypotheses of Obligations.UnitCommandsComplete, clause by clause (133 to 144 of 153). -/
theorem meets_UnitCommandsComplete_12 :
    (let d : Nat := 0
     let f : Flood := { origin := 101, seq := 3, port := 0 }
     let s : State := poolS l0
     let s1 : State := (s.linkSync.floodIn 6 f [d]).getD s
     (s.linkSync.floodIn 6 f [d] = some s1))
    ∧ (let d : Nat := 0
     let n : Nat := 0
     let f : Flood := { origin := 101, seq := 3, port := 0 }
     let s : State := poolS l0
     let s1 : State := (s.linkSync.floodIn 7 f [n, d]).getD s
     (s.linkSync.floodIn 7 f [n, d] = some s1))
    ∧ (let s : State := { poolS l0 with fuses := { serial := 100 } }
     (s.eligible = true)
       ∧ (s.img.pooled = true)
       ∧ (s.pool.coord = false)
       ∧ (∀ a, s.pool.lowest = some a → s.fuses.serial ≤ a))
    ∧ (let s : State := poolS l0 { st := .joining }
     (s.pool.st = .joining)
       ∧ (s.floodPorts ≠ [])
       ∧ (s.pool.leaving = false))
    ∧ (let s : State := live
     let d : Nat := 1
     (∀ u ∈ s.pool.usable, u.2 ≠ d)
       ∧ (d ≠ s.pool.devnum))
    ∧ (let s : State := { live with pool := { st := .member } }
     (s.pool.st = .member)
       ∧ (s.floodPorts = []))
    ∧ (let p : Nat := 0
     let s : State := poolS l0 { st := .member }
     (s.floodPorts.contains p = true)
       ∧ (s.pool.st = .member))
    ∧ (let s : State := { live with pool := { departed := [1], swept := (List.range 8).map fun n => (1, n) } }
     let d : Nat := 1
     let s1 : State := s.sluiceSweep d
     (s.pool.departed.contains d = true)
       ∧ (s1 = s.sluiceSweep d)
       ∧ (s.pool.reported.contains (s.pool.devnum, d) = false)
       ∧ (∀ n ∈ s.inv.slices, (s.die (n / 8)).st ≠ .retired → s.pool.swept.contains (d, n) = true))
    ∧ (let op : Nat := 0x10
     let line : Nat := 1
     let s : State := live
     (0x10 ≤ op)
       ∧ (op ≤ 0x12)
       ∧ (line ≠ 0))
    ∧ (let op : Nat := 0x18
     let s : State := live
     (0x18 ≤ op))
    ∧ (let tag : Nat := 0
     let d : Nat := 1
     let line : Nat := 2 ^ 34
     let r : RemoteOp := { op := .rdX, dev := 1, line := 2 ^ 34, tag := 0, who := { vd := 0 } }
     let op : Nat := r.op.code
     let s : State := poolS l0 { remote := [r] }
     (¬ (0x10 ≤ op ∧ op ≤ 0x12 ∧ line ≠ 0))
       ∧ (¬ (0x18 ≤ op ∧ line = 0))
       ∧ (s.pool.remote.find? (fun r => decide (r.dev = d) && decide (r.tag % 65536 = tag % 65536) && (match r.kind with | .mem => decide (r.op.code = op) && decide (r.line = line) | .pen => decide (op = 0x11) | .sl => decide (op = 0x13) | .coll => false)) = some r))
    ∧ (let w : Who := { vd := 0 }
     let m : CohMsg := { op := .wrNc, dev := 1, line := 2 ^ 34 }
     let ws : List (Who × CohMsg) := []
     let s : State := poolS l0 { depWait := [(w, m)] }
     (s.pool.depWait = (w, m) :: ws)) :=
  ⟨by decide +kernel,
   by decide +kernel,
   by and_intros <;> decide +kernel,
   by and_intros <;> decide +kernel,
   by and_intros <;> decide +kernel,
   by and_intros <;> first | with_reducible rfl | decide +kernel,
   by and_intros <;> decide +kernel,
   by and_intros <;> first | with_reducible rfl | decide +kernel,
   by and_intros <;> first | with_reducible rfl | decide +kernel,
   by with_reducible rfl,
   by and_intros <;> decide +kernel,
   by decide +kernel⟩

/-- States and operands that meet the hypotheses of Obligations.UnitCommandsComplete, clause by clause (145 to 153 of 153). -/
theorem meets_UnitCommandsComplete_13 :
    (let x : Ext := {}
     let s : State := live
     let d : Nat := 1
     let m : SlMsg := .giveBack 0 1
     let t : State := s.fresh.slServe d m x.pick
     (s.boot.warm < 2)
       ∧ (t = s.fresh.slServe d m x.pick)
       ∧ (t.stall = []))
    ∧ (let tag : Nat := 0
     let v : Nat := 0
     let c : Cmd := rd 3 []
     let st : Status := .ok
     let r : RemoteOp := { kind := .pen, dev := 1, tag := 0, who := { vd := 0, cmd := some 0 } }
     let d : Nat := 1
     let s : State := { withC c with pool := { remote := [r] } }
     let s1 : State := ((s.penOp d tag v).getD (r, s)).2
     (s.penOp d tag v = some (r, s1))
       ∧ (s.oldReply r = false)
       ∧ (r.posted = false)
       ∧ (s1.cmd? tag = some c)
       ∧ (c.opcode = 3)
       ∧ (c.st ≠ .queued)
       ∧ (c.opx ≠ 7 ∨ st ≠ .ok))
    ∧ (let tag : Nat := 0
     let v : Nat := 0
     let c : Cmd := rd 3 [(0x16, 7)]
     let r : RemoteOp := { kind := .pen, dev := 1, tag := 0, who := { vd := 0, cmd := some 0 } }
     let d : Nat := 1
     let s : State := { withC c with pool := { remote := [r] } }
     let s1 : State := ((s.penOp d tag v).getD (r, s)).2
     (s.penOp d tag v = some (r, s1))
       ∧ (s.oldReply r = false)
       ∧ (r.posted = false)
       ∧ (s1.cmd? tag = some c)
       ∧ (c.opcode = 3)
       ∧ (c.st ≠ .queued)
       ∧ (c.opx = 7))
    ∧ (let tag : Nat := 0
     let c : Cmd := rd 0x2E []
     let r : RemoteOp := { kind := .sl, dev := 1, tag := 0, who := { vd := 0, cmd := some 0 } }
     let d : Nat := 1
     let s : State := { withC c with pool := { remote := [r] } }
     let s1 : State := ((s.remoteAt (fun r => decide (r.kind = .sl) && decide (r.dev = d) && decide (r.tag = tag))).getD (r, s)).2
     (s.remoteAt (fun r => decide (r.kind = .sl) && decide (r.dev = d) && decide (r.tag = tag)) = some (r, s1))
       ∧ (s.oldReply r = false)
       ∧ (s1.cmd? tag = some c))
    ∧ (let x : Ext := {}
     let q : Nat := 0
     let m : Cmd := rn 0x40 [(0x28, 8)]
     let t : Task := tk
     let s : State := withC m
     let c : Coll := { cmd := q, seq := m.f 0x2C 4, kind := m.opx % 4, fmt := m.opx / 4, count := m.f 0x20 8, dims := bitsOf 7 (m.f 0x28 2), plane := bit (m.f 0x28 2) 7, parts := [] }
     let u : State := (List.range c.g).foldl (fun (s : State) j => s.collBegin q j x) { s.fresh with colls := s.colls ++ [{ c with parts := List.replicate c.g {} }] }
     (s.cmd? q = some m)
       ∧ (m.opcode = 0x40)
       ∧ (s.coll? q = none)
       ∧ (t ∈ m.tasks)
       ∧ (t.st = .running)
       ∧ (t.fin = none)
       ∧ (c = { cmd := q, seq := m.f 0x2C 4, kind := m.opx % 4, fmt := m.opx / 4, count := m.f 0x20 8, dims := bitsOf 7 (m.f 0x28 2), plane := bit (m.f 0x28 2) 7, parts := [] })
       ∧ (u = (List.range c.g).foldl (fun (s : State) j => s.collBegin q j x) { s.fresh with colls := s.colls ++ [{ c with parts := List.replicate c.g {} }] })
       ∧ (u.stall = []))
    ∧ (let x : Ext := {}
     let c : Coll := { cmd := 0, seq := 5, kind := 0, fmt := 0, count := 64, dims := [0], plane := false, parts := [{ ready := true }] }
     let j : Nat := 0
     let r : CollReady := { dev := 1, seq := 5, kind := 0, fmt := 0, count := 64, step := 0 }
     let s : State := { live with colls := [c] }
     let u : State := s.fresh.collMeet c.cmd j r x
     (s.collOf r.seq r.dev r.bridge r.step = some (c, j))
       ∧ ((c.part j).partner = false)
       ∧ (u = s.fresh.collMeet c.cmd j r x)
       ∧ (u.stall = []))
    ∧ (let r : CollReady := { dev := 2, seq := 5, kind := 0, fmt := 1, count := 64, step := 0 }
     let s : State := live
     (s.collOf r.seq r.dev r.bridge r.step = none))
    ∧ (let x : Ext := {}
     let br : Bool := false
     let step : Nat := 0
     let part : Nat := 0
     let d : Nat := 1
     let seq : Nat := 5
     let c : Coll := { cmd := 0, seq := 5, kind := 0, fmt := 0, count := 64, dims := [0], plane := false, parts := [{ ready := true }] }
     let n : Nat := 1
     let s : State := { live with colls := [c] }
     let u : State := (s.fresh.setColl (c.setPart part { c.part part with announced := some n })).collCheck c.cmd part x
     (s.collOf seq d br step = some (c, part))
       ∧ (u = (s.fresh.setColl (c.setPart part { c.part part with announced := some n })).collCheck c.cmd part x)
       ∧ (u.stall = []))
    ∧ (let q : Nat := 0
     let c : Coll := { cmd := 0, seq := 5, kind := 0, fmt := 0, count := 64, dims := [0], plane := false, parts := [{ ready := true }] }
     let s : State := { live with colls := [c] }
     (s.coll? q = some c)
       ∧ ((c.parts.any fun p => p.ready && !p.partner) = true)) :=
  ⟨by and_intros <;> first | with_reducible rfl | decide +kernel,
   by and_intros <;> first | with_reducible rfl | decide +kernel,
   by and_intros <;> first | with_reducible rfl | decide +kernel,
   by and_intros <;> decide +kernel,
   by and_intros <;> first | with_reducible rfl | decide +kernel,
   by and_intros <;> first | with_reducible rfl | decide +kernel,
   by decide +kernel,
   by and_intros <;> first | with_reducible rfl | decide +kernel,
   by and_intros <;> decide +kernel⟩

end Sys2Proof.Machine
end

section
/-!
The scope rows: what a write to an open window does, doorbells and ring registers (R299, R300, R304), the error ring (R177-R179) and
CANCEL (R309).
-/
namespace Sys2Proof.Machine

/-! ### Tables, and a ring of a VD -/

/-- An entry that differs from the default reads back, whatever the table's form. -/
theorem Tab.getD_setD_self_of_ne {α : Type} [DecidableEq α] (t : Tab α) (n : Nat) {d x : α} (h : x ≠ d) :
    Tab.getD (Tab.setD t n d x) n d = x := by
  simp [Tab.getD, Tab.setD, h, Tab.find_put_same]

/-- A ready VD is listed, so that it reads back as written. -/
theorem State.vd_setVd_ready (s : State) (v : Nat) {x : Vd} (h : x.st = .ready) : (s.setVd v x).vd v = x :=
  Tab.getD_setD_self_of_ne _ _ (by rintro rfl; cases h)

/-- An update of a ring counts by what it makes of the ring as it stands. -/
theorem State.modRing_congr {s : State} {v i : Nat} {f g : Ring → Ring} (h : f (s.ring v i) = g (s.ring v i)) :
    s.modRing v i f = s.modRing v i g :=
  congrArg (fun r => s.setVd v { s.vd v with rings := (s.vd v).rings.setD i {} r }) h

/-! ### Rows that write to an open window -/

theorem exec_errRingCtrlWrite {s : State} {v : Nat} (h : s.WindowOpen v) (w : Word) :
    exec (.errRingCtrlWrite v w) s = .next (s.errCtrl v w.toNat) :=
  congrArg Host.Outcome.next (State.winWrite_open _ _ h rfl)

theorem exec_errRingHeadWrite {s : State} {v : Nat} (h : s.WindowOpen v) (w : Word) :
    exec (.errRingHeadWrite v w) s = .next (s.errHead v w.toNat) :=
  congrArg Host.Outcome.next (State.winWrite_open _ _ h rfl)

theorem exec_errRingBaseWrite {s : State} {v : Nat} (h : s.WindowOpen v) (hi : Bool) (w : Word) :
    exec (.errRingBaseWrite v hi w) s = .next (s.errBase v hi w.toNat) :=
  congrArg Host.Outcome.next (State.winWrite_open _ _ h rfl)

theorem exec_ringDb {s : State} {v i : Nat} (h : s.WindowOpen v) (hi : i < 16) (w : Word) :
    exec (.ringDb v i w) s = .next (s.ringDb v i w) := by
  show Host.Outcome.next _ = _
  rw [State.winWrite_open _ _ h rfl, Nat.mod_eq_of_lt hi]

theorem exec_cqDb {s : State} {v i : Nat} (h : s.WindowOpen v) (hi : i < 16) (w : Word) :
    exec (.cqDb v i w) s = .next (s.cqDb v i w) := by
  show Host.Outcome.next _ = _
  rw [State.winWrite_open _ _ h rfl, Nat.mod_eq_of_lt hi]

theorem exec_ringCtrlWrite {s : State} {v i : Nat} (h : s.WindowOpen v) (hi : i < 16) (w : Word) :
    exec (.ringCtrlWrite v i w) s = .next (s.ringCtrl v i w) := by
  show Host.Outcome.next _ = _
  rw [State.winWrite_open _ _ h rfl, Nat.mod_eq_of_lt hi]

theorem exec_ringBaseWrite {s : State} {v i reg : Nat} (h : s.WindowOpen v) (hi : i < 16) (hr : reg < 4) (w : Word) :
    exec (.ringBaseWrite v i reg w) s = .next (s.ringBase v i reg w) := by
  show Host.Outcome.next _ = _
  rw [State.winWrite_open _ _ h rfl, Nat.mod_eq_of_lt hi, Nat.mod_eq_of_lt hr]

/-! ### The error ring (R177-R179) -/

/-- R177: a size of 64 to 4096 records. -/
theorem State.errCtrl_disabled {s : State} {v w : Nat} (he : (s.vd v).errRing.enable = false) (h6 : 6 ≤ w % 16) (h12 : w % 16 ≤ 12) :
    s.errCtrl v w = s.modVd v fun x => { x with errRing := { x.errRing with
      sizeLog2 := w % 16, enable := bit w 4, vector := w / 256 % 32 } } := by
  simp [State.errCtrl, field, he, h6, h12, State.modVd]

/-- R177, R11: the size of an enabled ring stays. -/
theorem State.errCtrl_live {s : State} {v w : Nat} (he : (s.vd v).errRing.enable = true) (h6 : 6 ≤ w % 16) (h12 : w % 16 ≤ 12)
    (hne : w % 16 ≠ (s.vd v).errRing.sizeLog2) :
    s.errCtrl v w = s.modVd v fun x => { x with err := { x.err with liveWrite := true } } := by
  simp [State.errCtrl, field, he, h6, h12, hne]

theorem State.errHead_below {s : State} {v w : Nat} (h : w % 65536 < (s.vd v).errRing.size) :
    s.errHead v w = s.modVd v fun x => { x with errRing := { x.errRing with head := w % 65536 } } := by
  have hs : (s.vd v).errRing.size ≠ 0 := by omega
  simp [State.errHead, hs, h]

/-- An index that the ring does not have; a ring of no size has index 0. -/
theorem State.errHead_beyond {s : State} {v w : Nat} (h : (s.vd v).errRing.size ≤ w % 65536) (h0 : w % 65536 ≠ 0) :
    s.errHead v w = s.rsvdEnc v := by
  have hn : ¬ w % 65536 < (if (s.vd v).errRing.size = 0 then 1 else (s.vd v).errRing.size) := by split <;> omega
  simp only [State.errHead, if_neg hn]

theorem State.errBase_disabled {s : State} {v : Nat} (he : (s.vd v).errRing.enable = false) (hi : Bool) (w : Nat) :
    s.errBase v hi w = s.modVd v fun x => { x with errRing := { x.errRing with
      base := if hi then BitVec.ofNat 64 (w * 2 ^ 32 + x.errRing.base.toNat % 2 ^ 32)
              else BitVec.ofNat 64 (x.errRing.base.toNat / 2 ^ 32 * 2 ^ 32 + w / 4096 * 4096) } } := by
  simp [State.errBase, he, State.modVd]

theorem State.errBase_live {s : State} {v : Nat} (he : (s.vd v).errRing.enable = true) (hi : Bool) (w : Nat) :
    s.errBase v hi w = s.modVd v fun x => { x with err := { x.err with liveWrite := true } } := by
  simp [State.errBase, he]

theorem exec_errorRecordWriteFail {s : State} {v : Nat} (he : (s.vd v).errRing.enable = true) :
    exec (.errorRecordWriteFail v) s = .next (s.errFault v) :=
  if_pos he

/-- R178: the microsecond of a message ends with one held, for records still unread. -/
theorem exec_errRingMsixDefer_held {s : State} {v : Nat} (hb : (s.vd v).errRing.msixBusy = true) (hh : (s.vd v).errRing.msixHeld = true)
    (hr : (s.vd v).errRing.tail ≠ (s.vd v).errRing.head) :
    exec (.errRingMsixDefer v) s = .next ((s.send (.msix v (s.vd v).errRing.vector)).modVd v fun x =>
      { x with errRing := { x.errRing with msixHeld := false } }) := by
  show execErrRingMsixDefer v s = _
  simp [execErrRingMsixDefer, hb, hh, hr]

/-- R178: it ends with none held, or with nothing left to read. -/
theorem exec_errRingMsixDefer_idle {s : State} {v : Nat} (hb : (s.vd v).errRing.msixBusy = true)
    (h : (s.vd v).errRing.msixHeld = false ∨ (s.vd v).errRing.tail = (s.vd v).errRing.head) :
    exec (.errRingMsixDefer v) s = .next (s.modVd v fun x =>
      { x with errRing := { x.errRing with msixBusy := false, msixHeld := false } }) := by
  show execErrRingMsixDefer v s = _
  rcases h with h | h <;> simp [execErrRingMsixDefer, hb, h]

/-- Settles O21: each row is its register's operation, and each case of the operation is one of the lemmas above. -/
theorem errorRingRegistersFollowTheirRules : Obligations.ErrorRingRegistersFollowTheirRules := by
  unfold Obligations.ErrorRingRegistersFollowTheirRules
  refine ⟨fun s v hw => ⟨?ctrl, ?ctrlLive, ?head, ?headBeyond, ?base, ?baseLive⟩, ?fail, ?held, ?idle⟩
  case ctrl =>
    intro w he h6 h12
    rw [exec_errRingCtrlWrite hw, State.errCtrl_disabled he h6 h12]; rfl
  case ctrlLive =>
    intro w he h6 h12 hne
    rw [exec_errRingCtrlWrite hw, State.errCtrl_live he h6 h12 hne]; rfl
  case head =>
    intro w h
    rw [exec_errRingHeadWrite hw, State.errHead_below h]; rfl
  case headBeyond =>
    intro w h h0
    rw [exec_errRingHeadWrite hw, State.errHead_beyond h h0]; rfl
  case base =>
    intro w he
    rw [exec_errRingBaseWrite hw, exec_errRingBaseWrite hw, State.errBase_disabled he, State.errBase_disabled he]
    exact ⟨rfl, rfl⟩
  case baseLive =>
    intro w hi he
    rw [exec_errRingBaseWrite hw, State.errBase_live he]; rfl
  case fail => exact fun s v he => exec_errorRecordWriteFail he
  case held => exact fun s v hb hh hr => exec_errRingMsixDefer_held hb hh hr
  case idle => exact fun s v hb h => exec_errRingMsixDefer_idle hb h

/-! ### Doorbells and ring registers (R299, R300, R304) -/

/-- R300: RING_DB with its upper half 0 and no more entries than the ring has. -/
theorem State.ringDb_good {s : State} {v i : Nat} {w : Word} (he : (s.ring v i).enable = true) (hw : w.toNat < 65536)
    (hs : (w.setWidth 16 - (s.ring v i).head).toNat ≤ (s.ring v i).size) :
    s.ringDb v i w = s.modRing v i fun r => { r with tail := w.setWidth 16 } :=
  State.modRing_congr (if_neg (by rw [he, decide_eq_false (Nat.not_le.2 hw), decide_eq_false (Nat.not_lt.2 hs)]; decide))

theorem State.ringDb_bad {s : State} {v i : Nat} {w : Word}
    (h : (s.ring v i).enable = false ∨ 65536 ≤ w.toNat ∨ (s.ring v i).size < (w.setWidth 16 - (s.ring v i).head).toNat) :
    s.ringDb v i w = s.modRing v i fun r => { r with badDoorbell := true } :=
  State.modRing_congr (if_pos (by simpa [or_assoc] using h))

/-- R300: CQ_DB, which follows the completion tail by no more than the ring's size. -/
theorem State.cqDb_good {s : State} {v i : Nat} {w : Word} (he : (s.ring v i).enable = true) (hw : w.toNat < 65536)
    (hs : ((s.ring v i).cqTail - w.setWidth 16).toNat ≤ (s.ring v i).size) :
    s.cqDb v i w = s.modRing v i fun r => { r with cqHead := w.setWidth 16 } :=
  State.modRing_congr (if_neg (by rw [he, decide_eq_false (Nat.not_le.2 hw), decide_eq_false (Nat.not_lt.2 hs)]; decide))

theorem State.cqDb_bad {s : State} {v i : Nat} {w : Word}
    (h : (s.ring v i).enable = false ∨ 65536 ≤ w.toNat ∨ (s.ring v i).size < ((s.ring v i).cqTail - w.setWidth 16).toNat) :
    s.cqDb v i w = s.modRing v i fun r => { r with badDoorbell := true } :=
  State.modRing_congr (if_pos (by simpa [or_assoc] using h))

theorem Ring.enable_of_idle {r : Ring} (h : r.idle = true) : r.enable = false := by
  simp only [Ring.idle, Bool.and_eq_true, Bool.not_eq_true'] at h
  obtain ⟨⟨⟨henable, -⟩, -⟩, -⟩ := h
  exact henable

theorem ringSizeOk_of {n : Nat} (h4 : 4 ≤ n) (h12 : n ≤ 12) : ringSizeOk n = true := by simp [ringSizeOk, h4, h12]

/-- R299: an idle ring of a valid size starts with its indices at 0. -/
theorem State.ringCtrl_start {s : State} {v i : Nat} {w : Word} (hi : (s.ring v i).idle = true) (h4 : 4 ≤ w.toNat % 16)
    (h12 : w.toNat % 16 ≤ 12) (hen : bit w.toNat 4 = true) :
    s.ringCtrl v i w = s.modRing v i fun r => { r with
      sizeLog2 := w.toNat % 16, enable := true, vector := w.toNat / 256 % 32, head := 0, tail := 0, cqTail := 0, cqHead := 0
      discard := false } := by
  have he := Ring.enable_of_idle hi
  have hok := ringSizeOk_of h4 h12
  simp only [State.ringCtrl, field, pow_zero, Nat.div_one, Nat.reducePow, hok, ↓reduceIte, he, hi, hen, Bool.not_true, Bool.or_self,
    Bool.and_false, Bool.not_false, Bool.and_self, Bool.false_eq_true, Bool.true_and, Bool.not_eq_eq_eq_not]
  exact State.modRing_congr (if_pos he)

/-- R299, R11: an enabled ring keeps its size. -/
theorem State.ringCtrl_live {s : State} {v i : Nat} {w : Word} (he : (s.ring v i).enable = true) (h4 : 4 ≤ w.toNat % 16)
    (h12 : w.toNat % 16 ≤ 12) (hne : w.toNat % 16 ≠ (s.ring v i).sizeLog2) :
    s.ringCtrl v i w = s.modRing v i fun r => { r with liveWrite := true } := by
  simp [State.ringCtrl, field, ringSizeOk_of h4 h12, he, hne]

/-- The register that a base write of an idle ring sets (R299, R590). -/
def Ring.setBase (r : Ring) (reg : Nat) (w : Word) : Ring :=
  match reg with
  | 0 => { r with base := BitVec.ofNat 64 (r.base.toNat / 2 ^ 32 * 2 ^ 32 + w.toNat / 4096 * 4096) }
  | 1 => { r with base := BitVec.ofNat 64 (r.base.toNat % 2 ^ 32 + w.toNat * 2 ^ 32) }
  | 2 => { r with cqBase := BitVec.ofNat 64 (r.cqBase.toNat / 2 ^ 32 * 2 ^ 32 + w.toNat / 4096 * 4096) }
  | _ => { r with cqBase := BitVec.ofNat 64 (r.cqBase.toNat % 2 ^ 32 + w.toNat * 2 ^ 32) }

theorem State.ringBase_idle {s : State} {v i : Nat} (hi : (s.ring v i).idle = true) (reg : Nat) (w : Word) :
    s.ringBase v i reg w = s.modRing v i fun r => r.setBase reg w := by
  have hlive : ((s.ring v i).enable || !(s.ring v i).idle) = false := by simp [Ring.enable_of_idle hi, hi]
  exact State.modRing_congr ((if_neg (by simp [hlive])).trans rfl)

theorem State.ringBase_live {s : State} {v i : Nat} (he : (s.ring v i).enable = true) (reg : Nat) (w : Word) :
    s.ringBase v i reg w = s.modRing v i fun r => { r with liveWrite := true } :=
  State.modRing_congr (if_pos (by simp [he]))

/-- R304: the microsecond of a ring's message ends with one held, for records still unread. -/
theorem exec_ringMsixDefer_held {s : State} {v i : Nat} (hh : (s.ring v i).msixHeld = true)
    (hr : (s.ring v i).cqHead ≠ (s.ring v i).cqTail) :
    exec (.ringMsixDefer v i) s = .next ((s.send (.msix v (s.ring v i).vector)).modRing v i fun r =>
      { r with msixBusy := true, msixHeld := false }) :=
  if_pos (by simp [hh, hr])

theorem exec_ringMsixDefer_idle {s : State} {v i : Nat}
    (h : (s.ring v i).msixHeld = false ∨ (s.ring v i).cqHead = (s.ring v i).cqTail) :
    exec (.ringMsixDefer v i) s = .next (s.modRing v i fun r => { r with msixBusy := false, msixHeld := false }) :=
  if_neg (by rcases h with h | h <;> simp [h])

/-- Settles O22: each row is its register's operation, and each case of the operation is one of the lemmas above. -/
theorem ringRegistersAndDoorbellsFollowTheirRules : Obligations.RingRegistersAndDoorbellsFollowTheirRules := by
  unfold Obligations.RingRegistersAndDoorbellsFollowTheirRules
  refine ⟨fun s v i w hw hi => ⟨?db, ?dbBad, ?cq, ?cqBad, ?ctrl, ?ctrlLive, ?base, ?baseLive⟩, ?held, ?idle⟩
  case db => exact fun he h16 hs => by rw [exec_ringDb hw hi, State.ringDb_good he h16 hs]
  case dbBad => exact fun h => by rw [exec_ringDb hw hi, State.ringDb_bad h]
  case cq => exact fun he h16 hs => by rw [exec_cqDb hw hi, State.cqDb_good he h16 hs]
  case cqBad => exact fun h => by rw [exec_cqDb hw hi, State.cqDb_bad h]
  case ctrl => exact fun hid h4 h12 hen => by rw [exec_ringCtrlWrite hw hi, State.ringCtrl_start hid h4 h12 hen]
  case ctrlLive => exact fun he h4 h12 hne => by rw [exec_ringCtrlWrite hw hi, State.ringCtrl_live he h4 h12 hne]
  case base =>
    intro hid
    have hbase : ∀ reg < 4, exec (.ringBaseWrite v i reg w) s = .next (s.modRing v i fun r => r.setBase reg w) :=
      fun reg hr => by rw [exec_ringBaseWrite hw hi hr, State.ringBase_idle hid]
    exact ⟨hbase 0 (by decide), hbase 1 (by decide), hbase 2 (by decide), hbase 3 (by decide)⟩
  case baseLive => exact fun reg hr he => by rw [exec_ringBaseWrite hw hi hr, State.ringBase_live he]
  case held => exact fun s v i hh hr => exec_ringMsixDefer_held hh hr
  case idle => exact fun s v i h => exec_ringMsixDefer_idle h

end Sys2Proof.Machine
end

section
/-! CANCEL (R309, Table 11-11): what a write of each mode cancels and captures; and one step of the machine (R12, R60). -/
namespace Sys2Proof.Machine

/-- R309: a CANCEL write to an open window acts in the mode that its row names. -/
theorem State.cancelRow_open {s : State} {v mode : Nat} {w : DWord} (h : s.WindowOpen v) (hm : w.toNat / 2 ^ 48 % 4 = mode) :
    s.cancelRow mode v w = s.cancelWrite v w :=
  (if_pos hm).trans (State.winWrite_open _ _ h rfl)

theorem State.cancelWrite_clean {s : State} {v : Nat} {w : DWord} (h43 : w.toNat / 2 ^ 43 % 32 = 0) (h50 : w.toNat / 2 ^ 50 % 4 = 0)
    (h56 : w.toNat / 2 ^ 56 = 0) : s.cancelWrite v w = s.cancelMode v w := by
  refine if_neg ?_
  rw [show field w.toNat 43 5 = 0 from h43, show field w.toNat 50 2 = 0 from h50,
    show field w.toNat 56 8 = 0 by rw [field, h56, Nat.zero_mod]]
  decide

/-- R309, R11: bits 56 to 63 are reserved. -/
theorem State.cancelWrite_reserved {s : State} {v : Nat} {w : DWord} (h56 : w.toNat / 2 ^ 56 ≠ 0) :
    s.cancelWrite v w = s.rsvdEnc v := by
  have hw := w.isLt
  have hf : field w.toNat 56 8 ≠ 0 := by
    rw [field, Nat.mod_eq_of_lt (by omega)]; exact h56
  exact if_pos (.inr (.inr hf))

/-! ### The modes (Table 11-11) -/

section
variable {s : State} {v : Nat} {w : DWord}

theorem State.cancelMode_tag (h : w.toNat / 2 ^ 48 % 4 = 0) : s.cancelMode v w = s.cancelAll fun _ c =>
    decide (c.vd = v) && decide (c.epoch = (s.vd v).epoch) && decide (c.stream = w.toNat / 2 ^ 32 % 2 ^ 11) &&
      decide (c.tag = w.toNat % 2 ^ 32) := by
  have htag : field w.toNat 0 32 = w.toNat % 2 ^ 32 := by rw [field, Nat.pow_zero, Nat.div_one]
  rw [State.cancelMode, show field w.toNat 48 2 = 0 from h, htag]; rfl

theorem State.cancelMode_stream (h : w.toNat / 2 ^ 48 % 4 = 1) : s.cancelMode v w = s.cancelAll fun _ c =>
    decide (c.vd = v) && decide (c.epoch = (s.vd v).epoch) && decide (c.stream = w.toNat / 2 ^ 32 % 2 ^ 11) := by
  rw [State.cancelMode, show field w.toNat 48 2 = 1 from h]; rfl

theorem State.cancelMode_ring (h : w.toNat / 2 ^ 48 % 4 = 2) : s.cancelMode v w = (s.cancelAll fun _ c =>
    decide (c.vd = v) && decide (c.epoch = (s.vd v).epoch) && decide (c.ring = w.toNat / 2 ^ 52 % 16)).capture v (w.toNat / 2 ^ 52 % 16) := by
  rw [State.cancelMode, show field w.toNat 48 2 = 2 from h]; rfl

theorem State.cancelMode_all (h : w.toNat / 2 ^ 48 % 4 = 3) : s.cancelMode v w =
    (List.range 16).foldl (fun s i => s.capture v i) (s.cancelAll fun _ c => decide (c.vd = v) && decide (c.epoch = (s.vd v).epoch)) := by
  rw [State.cancelMode, show field w.toNat 48 2 = 3 from h]; rfl

end

/-- With no command in flight there is none to cancel. -/
theorem State.cancelAll_nil {s : State} (h : s.dax.cmds = []) (f : Nat → Cmd → Bool) : s.cancelAll f = s := by
  simp [State.cancelAll, h]

/-! ### Captured entries (R309) -/

/-- A ring's entries captured, as the ring then reads. -/
def Ring.captureUnread (r : Ring) : Ring := { r with captured := (r.tail - r.head).toNat }

theorem State.vd_capture {s : State} {v : Nat} (hst : (s.vd v).st = .ready) (i : Nat) :
    (s.capture v i).vd v = { s.vd v with rings := (s.vd v).rings.setD i {} (s.ring v i).captureUnread } :=
  State.vd_setVd_ready s v hst

theorem State.ring_capture {s : State} {v : Nat} (hst : (s.vd v).st = .ready) (hwf : Tab.wf (s.vd v).rings = true) (i j : Nat) :
    (s.capture v i).ring v j = if j = i then (s.ring v i).captureUnread else s.ring v j := by
  rw [State.ring, State.vd_capture hst]
  exact Tab.getD_setD hwf j i {} _

theorem Tab.wf_setD {α : Type} [DecidableEq α] {t : Tab α} (h : Tab.wf t = true) (n : Nat) (d x : α) :
    Tab.wf (Tab.setD t n d x) = true := by
  unfold Tab.setD
  split
  · exact Tab.wf_del h n
  · exact Tab.wf_put h n x

theorem State.wf_rings_capture {s : State} {v : Nat} (hst : (s.vd v).st = .ready) (hwf : Tab.wf (s.vd v).rings = true) (i : Nat) :
    Tab.wf ((s.capture v i).vd v).rings = true := by
  rw [State.vd_capture hst]; exact Tab.wf_setD hwf i {} _

theorem State.ready_capture {s : State} {v : Nat} (hst : (s.vd v).st = .ready) (i : Nat) : ((s.capture v i).vd v).st = .ready := by
  rw [State.vd_capture hst]; exact hst

/-- Captures of rings of a ready VD touch those rings alone, and a second capture of one finds what the first left. -/
theorem State.ring_captures {v : Nat} (l : List Nat) {s : State} (hst : (s.vd v).st = .ready) (hwf : Tab.wf (s.vd v).rings = true) (j : Nat) :
    (l.foldl (fun s i => s.capture v i) s).ring v j = if j ∈ l then (s.ring v j).captureUnread else s.ring v j := by
  induction l generalizing s with
  | nil => rfl
  | cons i l ih =>
    rw [List.foldl_cons, ih (State.ready_capture hst i) (State.wf_rings_capture hst hwf i), State.ring_capture hst hwf]
    by_cases hj : j = i
    · subst hj; simp [Ring.captureUnread]
    · simp [hj]

theorem State.captures_frame (v : Nat) (l : List Nat) (s : State) :
    l.foldl (fun s i => s.capture v i) s = { s with vds := (l.foldl (fun s i => s.capture v i) s).vds } := by
  induction l generalizing s with
  | nil => rfl
  | cons i l ih => rw [List.foldl_cons, ih]; rfl

/-! ### A command that waits for nothing (R307-R309) -/

theorem State.unwait_queues (s : State) (q : QueueId) (item : Nat) : ∃ qs, s.unwait q item = { s with queues := qs } := by
  simp only [State.unwait]
  split
  · exact ⟨_, rfl⟩
  · exact ⟨s.queues, rfl⟩

/-- R326: a command without a wait, where no pennant has a registration, gives up only requests that wait for a shared entry. -/
theorem State.withdrawCmd_of_no_wait {s : State} {q : Nat} {c : Cmd} (hw : c.wait = .none) (hp : s.pen.regs = []) :
    ∃ pn po qs, s.withdrawCmd q c = { s with pen := pn, pool := po, queues := qs } := by
  have hon : c.waitsOn = none := by simp [Cmd.waitsOn, hw]
  simp only [State.withdrawCmd, hon, Option.bind_none, State.withdraw, hp, List.filter_nil, List.foldl_nil]
  generalize hs1 : State.unwait _ QueueId.tasks _ = s1
  obtain ⟨qs1, h1⟩ := State.unwait_queues _ QueueId.tasks (16 + q)
  obtain ⟨qs2, h2⟩ := State.unwait_queues s1 QueueId.hopperCmds q
  rw [h2, ← hs1, h1]
  exact ⟨_, _, _, rfl⟩

/-- R309: such a command, still in its queue, ends CANCELLED and stays in flight until it terminates. -/
theorem State.cancelCmd_queued {s : State} {q : Nat} {c : Cmd} (hc : s.cmd? q = some c) (hst : c.st = .queued) (hf : c.engineFin = none)
    (hw : c.wait = .none) (hp : s.pen.regs = []) :
    ∃ pn po qs, s.cancelCmd q =
      ({ s with pen := pn, pool := po, queues := qs } : State).setCmd q
        { c with engineFin := some { term := .cancelled, status := .cancelled } } := by
  obtain ⟨pn, po, qs, hd⟩ := State.withdrawCmd_of_no_wait (q := q) hw hp
  have hc' : ({ s with pen := pn, pool := po, queues := qs } : State).cmd? q = some c := hc
  refine ⟨pn, po, qs, ?_⟩
  simp only [State.cancelCmd, hc, hf, Option.isSome_none, hst, if_true, Bool.false_eq_true, if_false, State.endEarly, hd,
    State.modCmd, hc']
  rw [← hw]

/-- Settles O25: the write acts in its mode; the captures of mode 3 are `State.ring_captures`, and a queued command ends by
`State.cancelCmd_queued`. -/
theorem cancelEndsTheCommandsItNames : Obligations.CancelEndsTheCommandsItNames := by
  unfold Obligations.CancelEndsTheCommandsItNames
  refine ⟨fun s v w ho h43 h50 h56 => ?modes, fun s v q c w ho h43 h48 h56 hq hv he hs ht hst hf hw hp => ?queued,
    fun s v w ho hm h56 => ?reserved⟩
  case modes =>
    have hrow : ∀ mode, w.toNat / 2 ^ 48 % 4 = mode → s.cancelRow mode v w = s.cancelMode v w := fun mode hm =>
      (State.cancelRow_open ho hm).trans (State.cancelWrite_clean h43 h50 h56)
    refine ⟨fun hm => ?tag, fun hm => ?stream, fun hm => ?ring, fun hm hnil => ?all, fun hm hnil => ?none⟩
    case tag => exact congrArg Host.Outcome.next ((hrow 0 hm).trans (State.cancelMode_tag hm))
    case stream => exact congrArg Host.Outcome.next ((hrow 1 hm).trans (State.cancelMode_stream hm))
    case ring => exact congrArg Host.Outcome.next ((hrow 2 hm).trans (State.cancelMode_ring hm))
    case all =>
      obtain ⟨-, -, -, -, -, -, -, hready⟩ := ho
      have hall := (hrow 3 hm).trans (State.cancelMode_all hm)
      rw [State.cancelAll_nil hnil] at hall
      refine ⟨_, congrArg Host.Outcome.next hall, State.captures_frame v _ s, fun i hi => ?_⟩
      cases hwf : Tab.wf (s.vd v).rings with
      | false => exact .inr rfl
      | true => rw [State.ring_captures _ hready hwf, if_pos (List.mem_range.2 hi)]; exact .inl rfl
    case none =>
      exact congrArg Host.Outcome.next (((hrow 0 hm).trans (State.cancelMode_tag hm)).trans (State.cancelAll_nil hnil _))
  case queued =>
    have hc : s.cmd? q = some c := by simp [State.cmd?, hq, Tab.find]
    obtain ⟨pn, po, qs, hcan⟩ := State.cancelCmd_queued hc hst hf hw hp
    have hm : w.toNat / 2 ^ 48 % 4 = 0 := by omega
    have hrow : s.cancelRow 0 v w = s.cancelCmd q := by
      rw [State.cancelRow_open ho hm, State.cancelWrite_clean h43 (by omega) h56, State.cancelMode_tag hm]
      simp [State.cancelAll, hq, hv, he, hs, ht]
    exact ⟨_, congrArg Host.Outcome.next (hrow.trans hcan), Tab.find_put_same _ _ _, rfl, rfl⟩
  case reserved =>
    exact congrArg Host.Outcome.next ((State.cancelRow_open ho hm).trans (State.cancelWrite_reserved h56))

/-! ### One step of the machine (R12, R60) -/

@[simp] theorem State.putControl_timeBase (s : State) (p op lanes : Nat) : (s.putControl p op lanes).timeBase = s.timeBase := rfl

@[simp] theorem State.askAgain_timeBase (s : State) (p : Nat) : (s.askAgain p).timeBase = s.timeBase := by
  simp only [State.askAgain]
  split
  · split
    · rw [State.putControl_timeBase]; rfl
    · rfl
  · rfl

theorem State.foldl_askAgain_timeBase (l : List Nat) (s : State) : (l.foldl State.askAgain s).timeBase = s.timeBase := by
  induction l generalizing s with
  | nil => rfl
  | cons p l ih => rw [List.foldl_cons, ih, State.askAgain_timeBase]

theorem State.tickNs_early {s : State} (h : s.boot.step < 3) : s.tickNs = s := if_pos h

theorem State.tickNs_timeBase {s : State} (h : 3 ≤ s.boot.step) : s.tickNs.timeBase = s.linkSync.timeBase + 1 := by
  simp only [State.tickNs, if_neg (Nat.not_lt.2 h), State.foldl_askAgain_timeBase]

theorem step_empty {s : State} (h : s.pending = []) : step s = .next s.tickNs := by simp only [step, h]

/-- Settles O53: a step is its command's meaning, or a tick of the time base. -/
theorem stepRunsTheFrontCommand : Obligations.StepRunsTheFrontCommand :=
  ⟨fun _ _ _ => rfl, fun _ h => ⟨step_empty h, State.tickNs_timeBase, State.tickNs_early⟩⟩

end Sys2Proof.Machine
end

section
/-!
Every row answers a next state (R10, R11, R23): one lemma for each shape that the meanings of the rows have, and one for each meaning
that looks up or branches further.
-/
namespace Sys2Proof.Machine

/-- The block goes on: the outcome is a next state. -/
def Goes (r : Res) : Prop := ∃ t, r = .next t

theorem goes_next (s : State) : Goes (.next s) := ⟨s, rfl⟩

theorem goes_ite {c : Prop} [Decidable c] {a b : Res} (ha : Goes a) (hb : Goes b) : Goes (if c then a else b) := by
  split
  · exact ha
  · exact hb

/-- A row that acts where its rule lets it, and otherwise does something else or nothing. -/
theorem goes_guard (c : Prop) [Decidable c] (a b : State) : Goes (if c then .next a else .next b) := goes_ite (goes_next a) (goes_next b)

/-! ### Boot (chapters 02 to 04) -/

theorem execLeatWireTraining_goes (die : Nat) (dn up : List Nat) (s : State) : Goes (execLeatWireTraining die dn up s) := by
  simp only [execLeatWireTraining]
  repeat' (split <;> try with_reducible exact goes_next _)

theorem execIdentityMessage_goes (die serial rev level : Nat) (good : Bool) (s : State) :
    Goes (execIdentityMessage die serial rev level good s) := by
  simp only [execIdentityMessage]
  repeat' (split <;> try with_reducible exact goes_next _)

theorem execSlotSelection_goes (s : State) : Goes (execSlotSelection s) := by
  simp only [execSlotSelection]
  repeat' (split <;> try with_reducible exact goes_next _)

theorem execImageApply_goes (pick : Nat) (s : State) : Goes (execImageApply pick s) := by
  simp only [execImageApply]
  repeat' (split <;> try with_reducible exact goes_next _)

/-! ### Clocks and power (chapter 03) -/

theorem execPortReset_goes (port : Nat) (perst : Option Bool) (pick : Nat) (s : State) : Goes (execPortReset port perst pick s) := by
  simp only [execPortReset]
  repeat' (split <;> try with_reducible exact goes_next _)

theorem execFreqWindowEnd_goes (ref hz pick : Nat) (s : State) : Goes (execFreqWindowEnd ref hz pick s) := by
  simp only [execFreqWindowEnd]
  repeat' (split <;> try with_reducible exact goes_next _)

theorem execSlicePowerGate_goes (slice choice idle : Nat) (s : State) : Goes (execSlicePowerGate slice choice idle s) := by
  simp only [execSlicePowerGate]
  repeat' (split <;> try with_reducible exact goes_next _)

/-! ### Memory faults and retirement (chapter 19) -/

theorem execLeatEccError_goes (die : Nat) (double : Bool) (line : Option Nat) (sec : Sectors) (s : State) :
    Goes (execLeatEccError die double line sec s) := by
  simp only [execLeatEccError]
  repeat' (split <;> try with_reducible exact goes_next _)

theorem execPatrolScrub_goes (line found : Nat) (s : State) : Goes (execPatrolScrub line found s) := by
  simp only [execPatrolScrub]
  repeat' (split <;> try with_reducible exact goes_next _)

theorem execRowPprDone_goes (channel slot : Nat) (s : State) : Goes (execRowPprDone channel slot s) := by
  simp only [execRowPprDone]
  repeat' (split <;> try with_reducible exact goes_next _)

theorem execLogCoalesceTimer_goes (cls : RecClass) (code unit : Nat) (s : State) : Goes (execLogCoalesceTimer cls code unit s) := by
  simp only [execLogCoalesceTimer]
  repeat' (split <;> try with_reducible exact goes_next _)

theorem execCxlReceiverError_goes (port : Nat) (lane : Option Nat) (s : State) : Goes (execCxlReceiverError port lane s) := by
  unfold execCxlReceiverError
  split <;> exact goes_next _

/-! ### Policy writes (chapter 04) -/

theorem execPolicyWriteArrive_goes (reg : PolReg) (val : Nat) (vd : Option Nat) (s : State) :
    Goes (execPolicyWriteArrive reg val vd s) := by
  simp only [execPolicyWriteArrive]
  repeat' (split <;> try with_reducible exact goes_next _)

theorem execPolicyWriteComplete_goes (s : State) : Goes (execPolicyWriteComplete s) := by
  unfold execPolicyWriteComplete
  split <;> exact goes_next _

/-! ### CXL.mem (chapter 05) -/

theorem execMemSpecRd_goes (port ld dpa : Nat) (hit : Bool) (pick : Nat) (s : State) : Goes (execMemSpecRd port ld dpa hit pick s) := by
  simp only [execMemSpecRd]
  repeat' (split <;> try with_reducible exact goes_next _)

theorem execBirsp_goes (port line half : Nat) (rsp : BiRsp) (pick : Nat) (s : State) : Goes (execBirsp port line half rsp pick s) := by
  simp only [execBirsp]
  repeat' (split <;> try with_reducible exact goes_next _)

theorem execBisnpTimeout_goes (port line pick : Nat) (s : State) : Goes (execBisnpTimeout port line pick s) := by
  simp only [execBisnpTimeout]
  repeat' (split <;> try with_reducible exact goes_next _)

theorem execPageZeroDone_goes (vd page pick : Nat) (s : State) : Goes (execPageZeroDone vd page pick s) := by
  simp only [execPageZeroDone]
  repeat' (split <;> try with_reducible exact goes_next _)

/-! ### Extents (chapter 05) -/

theorem execExtentOfferTimeout_goes (vd base : Nat) (s : State) : Goes (execExtentOfferTimeout vd base s) := by
  unfold execExtentOfferTimeout
  split <;> exact goes_next _

/-! ### Coherence (chapter 08) -/

theorem execRspNp_goes (m : CohMsg) (pick : Nat) (s : State) : Goes (execRspNp m pick s) := by
  simp only [execRspNp]
  repeat' (split <;> try with_reducible exact goes_next _)

theorem execGntAck_goes (m : CohMsg) (pick : Nat) (s : State) : Goes (execGntAck m pick s) := by
  simp only [execGntAck]
  repeat' (split <;> try with_reducible exact goes_next _)

theorem execCmpE_goes (m : CohMsg) (pick : Nat) (s : State) : Goes (execCmpE m pick s) := by
  simp only [execCmpE]
  repeat' (split <;> try with_reducible exact goes_next _)

theorem execWbAck_goes (m : CohMsg) (pick : Nat) (s : State) : Goes (execWbAck m pick s) := by
  simp only [execWbAck]
  repeat' (split <;> try with_reducible exact goes_next _)

theorem execRdDat_goes (m : CohMsg) (x : Ext) (s : State) : Goes (execRdDat m x s) := by
  simp only [execRdDat]
  repeat' (split <;> try with_reducible exact goes_next _)

theorem execRelease_goes (cmd slice : Nat) (full : Bool) (s : State) : Goes (execRelease cmd slice full s) := by
  simp only [execRelease]
  repeat' (split <;> try with_reducible exact goes_next _)

/-! ### Collectives (chapter 17) -/

theorem execCmp_goes (m : CohMsg) (x : Ext) (s : State) : Goes (execCmp m x s) := by
  simp only [execCmp]
  repeat' (split <;> try with_reducible exact goes_next _)

theorem execCollective_goes (cmd : Nat) (x : Ext) (s : State) : Goes (execCollective cmd x s) := by
  simp only [execCollective]
  repeat' (split <;> try with_reducible exact goes_next _)

theorem execCollReady_goes (r : CollReady) (x : Ext) (s : State) : Goes (execCollReady r x s) := by
  simp only [execCollReady]
  repeat' (split <;> try with_reducible exact goes_next _)

theorem execCollData_goes (dev : Nat) (bridge : Bool) (seq part step line : Nat) (data : Line) (pois : Sectors) (x : Ext) (s : State) :
    Goes (execCollData dev bridge seq part step line data pois x s) := by
  simp only [execCollData]
  repeat' (split <;> try with_reducible exact goes_next _)

theorem execCollStep_goes (dev : Nat) (bridge : Bool) (seq part step count : Nat) (x : Ext) (s : State) :
    Goes (execCollStep dev bridge seq part step count x s) := by
  simp only [execCollStep]
  repeat' (split <;> try with_reducible exact goes_next _)

theorem execCollReadyTimeout_goes (cmd : Nat) (s : State) : Goes (execCollReadyTimeout cmd s) := by
  simp only [execCollReadyTimeout]
  repeat' (split <;> try with_reducible exact goes_next _)

/-! ### Hopper (chapter 09) -/

theorem execHopFree_goes (cmd : Nat) (s : State) : Goes (execHopFree cmd s) := by
  unfold execHopFree
  split <;> exact goes_next _

theorem execHopTransfer_goes (cmd pick : Nat) (s : State) : Goes (execHopTransfer cmd pick s) := by
  unfold execHopTransfer
  split <;> exact goes_next _

/-! ### Sluice (chapter 10) -/

theorem execPageMoveStart_goes (i pick : Nat) (s : State) : Goes (execPageMoveStart i pick s) := by
  unfold execPageMoveStart
  split <;> exact goes_next _

theorem execMoveDeadline_goes (vd page pick : Nat) (s : State) : Goes (execMoveDeadline vd page pick s) := by
  simp only [execMoveDeadline]
  repeat' (split <;> try with_reducible exact goes_next _)

theorem execSlPlace_goes (cmd pick : Nat) (s : State) : Goes (execSlPlace cmd pick s) := by
  simp only [execSlPlace]
  repeat' (split <;> try with_reducible exact goes_next _)

theorem execSlPin_goes (cmd : Nat) (s : State) : Goes (execSlPin cmd s) := by
  unfold execSlPin
  split <;> exact goes_next _

theorem execSlUnpin_goes (cmd : Nat) (s : State) : Goes (execSlUnpin cmd s) := by
  unfold execSlUnpin
  split <;> exact goes_next _

theorem execSlRevoke_goes (cmd : Nat) (s : State) : Goes (execSlRevoke cmd s) := by
  simp only [execSlRevoke]
  repeat' (split <;> try with_reducible exact goes_next _)

theorem execSlAttach_goes (cmd : Nat) (s : State) : Goes (execSlAttach cmd s) := by
  simp only [execSlAttach]
  repeat' (split <;> try with_reducible exact goes_next _)

theorem execSlDetach_goes (cmd : Nat) (s : State) : Goes (execSlDetach cmd s) := by
  simp only [execSlDetach]
  repeat' (split <;> try with_reducible exact goes_next _)

/-! ### HyhanLink (chapter 16) -/

theorem execEqualisationDecision_goes (port : Nat) (asks : Bool) (s : State) (lane : Nat) (req : Nat) :
    Goes (execEqualisationDecision port asks s lane req) := by
  simp only [execEqualisationDecision]
  repeat' (split <;> try with_reducible exact goes_next _)

theorem execHylTrainDone_goes (port lanes : Nat) (expired : Bool) (precode : Nat) (s : State) :
    Goes (execHylTrainDone port lanes expired precode s) := by
  simp only [execHylTrainDone]
  repeat' (split <;> try with_reducible exact goes_next _)

theorem execTrainingBlockReceive_goes (port lane : Nat) (bytes : List Byte) (s : State) :
    Goes (execTrainingBlockReceive port lane bytes s) := by
  unfold execTrainingBlockReceive
  cases readBlock bytes with
  | none => exact goes_next _
  | some b =>
    dsimp only
    generalize s.linkSync.sendBlock port lane b.lane true = s0
    cases (s0.hylPort port).st with
    | l0 => exact goes_ite (goes_guard _ _ _) (goes_guard _ _ _)
    | recovery | widthChange => exact goes_guard _ _ _
    | _ => exact goes_next _

theorem execHylConfigDone_goes (port : Nat) (s : State) : Goes (execHylConfigDone port s) := by
  simp only [execHylConfigDone]
  repeat' (split <;> try with_reducible exact goes_next _)

theorem execWreq_goes (port lanes : Nat) (devnum : Option Nat) (serial : Nat) (s : State) : Goes (execWreq port lanes devnum serial s) := by
  simp only [execWreq]
  repeat' (split <;> try with_reducible exact goes_next _)

theorem execWidthChangeDone_goes (port : Nat) (s : State) : Goes (execWidthChangeDone port s) := by
  simp only [execWidthChangeDone]
  repeat' (split <;> try with_reducible exact goes_next _)

theorem execPmReq_goes (port : Nat) (s : State) : Goes (execPmReq port s) := by
  simp only [execPmReq]
  repeat' (split <;> try with_reducible exact goes_next _)

/-! ### Commands (chapter 11) -/

theorem execCommandDecode_goes (cmd : Nat) (s : State) : Goes (execCommandDecode cmd s) := by
  simp only [execCommandDecode]
  repeat' (split <;> try with_reducible exact goes_next _)

theorem execCommandReady_goes (cmd : Nat) (x : Ext) (s : State) : Goes (execCommandReady cmd x s) := by
  simp only [execCommandReady]
  repeat' (split <;> try with_reducible exact goes_next _)

theorem execTaskCreate_goes (cmd : Nat) (s : State) : Goes (execTaskCreate cmd s) := by
  simp only [execTaskCreate]
  repeat' (split <;> try with_reducible exact goes_next _)

theorem execTaskLaunch_goes (slice pick : Nat) (s : State) : Goes (execTaskLaunch slice pick s) := by
  simp only [execTaskLaunch]
  repeat' (split <;> try with_reducible exact goes_next _)

theorem execCompletionWriteFail_goes (vd ring : Nat) (x : Ext) (s : State) : Goes (execCompletionWriteFail vd ring x s) := by
  simp only [execCompletionWriteFail]
  repeat' (split <;> try with_reducible exact goes_next _)

theorem execNop_goes (cmd : Nat) (s : State) : Goes (execNop cmd s) := by
  unfold execNop
  split <;> exact goes_next _

theorem execFence_goes (cmd : Nat) (s : State) : Goes (execFence cmd s) := by
  unfold execFence
  split <;> exact goes_next _

/-! ### The Runner (chapter 13) -/

theorem execMatmul_goes (cmd slice : Nat) (s : State) : Goes (execMatmul cmd slice s) := by
  unfold execMatmul
  split <;> exact goes_next _

theorem execSpill_goes (slice : Nat) (s : State) : Goes (execSpill slice s) := by
  simp only [execSpill]
  repeat' (split <;> try with_reducible exact goes_next _)

theorem execLocalTileLoaded_goes (slice : Nat) (x : Ext) (s : State) : Goes (execLocalTileLoaded slice x s) := by
  unfold execLocalTileLoaded
  split <;> exact goes_next _

theorem execAccSetSwap_goes (slice wait : Nat) (s : State) : Goes (execAccSetSwap slice wait s) := by
  simp only [execAccSetSwap]
  repeat' (split <;> try with_reducible exact goes_next _)

theorem execDrainDone_goes (slice : Nat) (x : Ext) (s : State) : Goes (execDrainDone slice x s) := by
  simp only [execDrainDone]
  repeat' (split <;> try with_reducible exact goes_next _)

/-! ### EMB_GATHER (chapter 18) -/

theorem execEmbGather_goes (cmd slice : Nat) (x : Ext) (s : State) : Goes (execEmbGather cmd slice x s) := by
  simp only [execEmbGather]
  repeat' (split <;> try with_reducible exact goes_next _)

/-! ### SERVICE (chapter 18) -/

theorem execServiceCall_goes (cmd : Nat) (s : State) : Goes (execServiceCall cmd s) := by
  simp only [execServiceCall]
  repeat' (split <;> try with_reducible exact goes_next _)

/-! ### Pennants (chapter 12) -/

theorem execPenLease_goes (cmd pick : Nat) (s : State) : Goes (execPenLease cmd pick s) := by
  simp only [execPenLease]
  repeat' (split <;> try with_reducible exact goes_next _)

theorem execPenDrop_goes (cmd : Nat) (s : State) : Goes (execPenDrop cmd s) := by
  simp only [execPenDrop]
  repeat' (split <;> try with_reducible exact goes_next _)

theorem execPenSignal_goes (cmd : Nat) (s : State) : Goes (execPenSignal cmd s) := by
  simp only [execPenSignal]
  repeat' (split <;> try with_reducible exact goes_next _)

theorem execPenReset_goes (cmd : Nat) (s : State) : Goes (execPenReset cmd s) := by
  simp only [execPenReset]
  repeat' (split <;> try with_reducible exact goes_next _)

theorem execPenRead_goes (cmd : Nat) (s : State) : Goes (execPenRead cmd s) := by
  simp only [execPenRead]
  repeat' (split <;> try with_reducible exact goes_next _)

theorem execPenArm_goes (cmd : Nat) (s : State) : Goes (execPenArm cmd s) := by
  simp only [execPenArm]
  repeat' (split <;> try with_reducible exact goes_next _)

theorem execPenExport_goes (cmd pick : Nat) (s : State) : Goes (execPenExport cmd pick s) := by
  simp only [execPenExport]
  repeat' (split <;> try with_reducible exact goes_next _)

theorem execPenImport_goes (cmd : Nat) (s : State) : Goes (execPenImport cmd s) := by
  simp only [execPenImport]
  repeat' (split <;> try with_reducible exact goes_next _)

theorem execPenUnexport_goes (cmd : Nat) (s : State) : Goes (execPenUnexport cmd s) := by
  simp only [execPenUnexport]
  repeat' (split <;> try with_reducible exact goes_next _)

/-! ### Flume and Races (chapter 15) -/

theorem execFlumeRunGrant_goes (die pick : Nat) (s : State) : Goes (execFlumeRunGrant die pick s) := by
  simp only [execFlumeRunGrant]
  repeat' (split <;> try with_reducible exact goes_next _)

theorem execFlumePeriodStart_goes (die wait slips : Nat) (s : State) : Goes (execFlumePeriodStart die wait slips s) := by
  simp only [execFlumePeriodStart]
  repeat' (split <;> try with_reducible exact goes_next _)

theorem execFlumeRunEnd_goes (die : Nat) (s : State) (wait : Nat) : Goes (execFlumeRunEnd die s wait) := by
  simp only [execFlumeRunEnd]
  repeat' (split <;> try with_reducible exact goes_next _)

theorem execRaceGrant_goes (race out : Nat) (arrived : List RaceMsg) (s : State) (credits : List Nat) :
    Goes (execRaceGrant race out arrived s credits) := by
  simp only [execRaceGrant]
  repeat' (split <;> try with_reducible exact goes_next _)

/-! ### The pool (chapter 17) -/

theorem execElect_goes (f : Flood) (serial : Nat) (s : State) : Goes (execElect f serial s) := by
  simp only [execElect]
  repeat' (split <;> try with_reducible exact goes_next _)

theorem execJoinReq_goes (f : Flood) (serial : Nat) (links : List (Nat × Option Nat)) (s : State) :
    Goes (execJoinReq f serial links s) := by
  unfold execJoinReq
  split <;> exact goes_next _

theorem execPoolMember_goes (f : Flood) (serial number : Nat) (isIn : Bool) (offset : Int) (x : Ext) (s : State) :
    Goes (execPoolMember f serial number isIn offset x s) := by
  simp only [execPoolMember]
  repeat' (split <;> try with_reducible exact goes_next _)

theorem execLinkState_goes (f : Flood) (reporter device : Nat) (ok : Bool) (s : State) : Goes (execLinkState f reporter device ok s) := by
  unfold execLinkState
  split <;> exact goes_next _

theorem execLeave_goes (f : Flood) (device : Nat) (x : Ext) (s : State) : Goes (execLeave f device x s) := by
  unfold execLeave
  split <;> exact goes_next _

theorem execSweepDone_goes (f : Flood) (reporter device : Nat) (s : State) : Goes (execSweepDone f reporter device s) := by
  unfold execSweepDone
  split <;> exact goes_next _

theorem execUnreach_goes (device op tag line : Nat) (x : Ext) (s : State) : Goes (execUnreach device op tag line x s) := by
  simp only [execUnreach]
  repeat' (split <;> try with_reducible exact goes_next _)

theorem execPenRsp_goes (dev vd tag : Nat) (ans : PenAns) (s : State) : Goes (execPenRsp dev vd tag ans s) := by
  simp only [execPenRsp]
  repeat' (split <;> try with_reducible exact goes_next _)

theorem execSlRsp_goes (dev : Nat) (m : SlMsg) (x : Ext) (s : State) : Goes (execSlRsp dev m x s) := by
  simp only [execSlRsp]
  repeat' (split <;> try with_reducible exact goes_next _)

theorem execRemoteOpTimeout_goes (i : Nat) (x : Ext) (s : State) : Goes (execRemoteOpTimeout i x s) := by
  unfold execRemoteOpTimeout
  split <;> exact goes_next _

theorem execDepartedWriteEntryAge_goes (s : State) : Goes (execDepartedWriteEntryAge s) := by
  unfold execDepartedWriteEntryAge
  split <;> exact goes_next _

/-! ### Gauges (chapter 20) -/

theorem execGaugeCtrlWrite_goes (gauge : Nat) (value : Word) (s : State) : Goes (execGaugeCtrlWrite gauge value s) := by
  simp only [execGaugeCtrlWrite]
  repeat' (split <;> try with_reducible exact goes_next _)

theorem execGaugeConfigWrite_goes (gauge off : Nat) (wide : Bool) (value : DWord) (s : State) :
    Goes (execGaugeConfigWrite gauge off wide value s) := by
  simp only [execGaugeConfigWrite]
  repeat' (split <;> try with_reducible exact goes_next _)

theorem execGaugeSampleInstant_goes (gauge units : Nat) (s : State) : Goes (execGaugeSampleInstant gauge units s) := by
  simp only [execGaugeSampleInstant]
  repeat' (split <;> try with_reducible exact goes_next _)

/-! ### Management messages (chapter 21) -/

theorem execMctpMessageReceive_goes (h : MctpHdr) (s : State) : Goes (execMctpMessageReceive h s) := by
  simp only [execMctpMessageReceive]
  repeat' (split <;> try with_reducible exact goes_next _)

/-! ### Sensor events (chapter 21) -/

theorem execPlatformEventResend_goes (i : Nat) (acked : Bool) (s : State) : Goes (execPlatformEventResend i acked s) := by
  simp only [execPlatformEventResend]
  repeat' (split <;> try with_reducible exact goes_next _)

/-! ### Keys of a CXL port (chapter 05) -/

theorem execIdeKm_goes (port session : Nat) (mem : Bool) (op : IdeOp) (s : State) (stream : Nat) (skid : Bool) (pick : Nat) :
    Goes (execIdeKm port session mem op s stream skid pick) := by
  simp only [execIdeKm]
  repeat' (split <;> try with_reducible exact goes_next _)

/-! ### Every row -/

/-- Every row answers a next state; the cases stand together by the shape of their meanings. -/
theorem exec_goes (c : Instr) (s : State) : Goes (exec c s) := by
  cases c
  case warmResetFlush | warmResetComplete | sliceWake | fmThreshWrite | fmWscaleWrite | refreshCapWrite | srMinIdleWrite | pgMinIdleWrite |
      keepAwakeWrite | spillMaxKWrite | hylEqHoldWrite | fantailCtrlWrite | regionPolicyWrite | vdQuotaTaskWrite | vdQuotaBufWrite |
      vdQuotaPageWrite | vdQuotaPenWrite | vdQosWrite | functionLevelReset | cxlReset | memRd | memWr | memClnEvct | devloadUpdate |
      getLdInfo | getLdAllocations | setLdAllocations | getQosControl | setQosControl | getQosStatus | getQosAllocatedBw | getDcdInfo |
      getHostDcRegionConfiguration | setDcRegionConfiguration | getDcRegionExtentLists | initiateDynamicCapacityAdd |
      initiateDynamicCapacityRelease | mbIdentify | backgroundOperationStatus | getEventRecords | clearEventRecords |
      getEventInterruptPolicy | setEventInterruptPolicy | getTimestamp | setTimestamp | getSupportedLogs | getLog | identifyMemoryDevice |
      getHealthInfo | getAlertConfiguration | setAlertConfiguration | getPoisonList | injectPoison | clearPoison |
      getScanMediaCapabilities | scanMedia | getScanMediaResults | sanitize | secureErase | backgroundOperationDone |
      getDynamicCapacityConfiguration | getDynamicCapacityExtentList | addDynamicCapacityResponse | releaseDynamicCapacity | vdResetSweep
      | errRingCtrlWrite | errRingHeadWrite | errRingBaseWrite | sharedEntryGrant | localRead | localWrite | dramFillReturn |
      memSideAtomicDone | rspI | rspS | rspE | fillS | fillE | datI | datS | datE | snoopTimeout | hopAlloc | hopAdopt | hopQuery |
      transferSwitch | quarantineEnd | hopperBackgroundPass | sluiceWalk | moveAckComplete | moveCopyDone | moveSourceFree |
      fantailEvaluation | promoteDone | demoteDone | slQuery | slGrant | grantRevocation | ringDb | cqDb | ringCtrlWrite | ringBaseWrite |
      cancelTag | cancelStream | cancelRing | cancelAllRings | taskTerminate | copy | fill | compare | atomic | reduce | paramUpdate |
      kvAppend | attnDecode | runnerTileAttempt | pmNak | timeSyncTimer | penReq | slReq | channelPageMovesDone | gaugeWindowEnd | read32
      | write32 | read64 | write64 | logRead | fatalLogRead | coldReset | warmReset | vdReset | poolLeave | identify | panelUpdate |
      getVersion | getCapabilities | negotiateAlgorithms | getDigests | getCertificate | challenge | getMeasurements | keyExchange |
      finish | endSession | getTid | setTid | getPldmVersion | getPldmTypes | getPldmCommands | setEventReceiver | getSensorReading |
      getStateSensorReadings | getSensorThresholds | getPdrRepositoryInfo | getPdr | panelIntervalEnd | powerFailComparator |
      comparatorDeassert | vddIoInTolerance | cxlLinkRecovery =>
    exact goes_next _
  case powerOn | mgmtIslandStart | quietClockLock | sfdpParse | discoveryStart | slicePllLock | channelFailureMaskReport |
      discoveryDeadline | inventoryFix | cxlTrainingStart | slotStage | coldRstNAssert | warmRstNAssert | warmResetTaskStop | powerLoss |
      refGlitch | refLoss | iodThermalTrip | sliceClockGate | runnerGate | cardPowerSense | testLogicReset | idcode | sample | clamp |
      highz | dieSummary | bypass | sibUpdate | dieComPowered | linkUp | ideIntegrityFailure | biconflict | fmApiUnsupported |
      mailboxUnsupported | vdResetTrigger | vdResetTaskStop | vdResetAbandon | vdResetComplete | errorRecordWriteFail | localReduction |
      sliceAtomic | rdS | rdX | upg | rdNc | wrNc | red | atom | snpInv | snpData | snpCur | wb | directoryDepartureSweep |
      refreshLoopDecision | capturedEntryRead | ringMsixDefer | hylDetectPoll | flitReceive | replayTimeout | laneLockLoss | noFlitTimeout
      | recoveryAttemptTimeout | wack | hylIdleTimer | pmAck | l1ToL1d | hylWake | hylDownTimer | qsfpModuleDetect | helloTimer |
      electTimeout | joinReqTimer | departureSweepDone | departureTimer | isolationTimer | timeReq | timeRsp | meterLeak |
      waitingRetirementStart | channelMetadataCopyDone | bayCopyDone | sliceDrainDone | sliceRetired | dieProxyWritebackDone |
      dieMetadataRestoreDone | pldmUnsupported | healthEvaluate | panelClearingWaveform | panelUpdateStart | panelBandHatched |
      panelFullRefreshDone | panelBandWhite | pgmReq | unsupportedAccess | registerWrite | thermalHoldRelease | panelHoldUpFail |
      flumeRaceClockGate | relockFail =>
    exact goes_guard _ _ _
  case warmImageReapply | refReturn | stackSelfRefresh | descriptorRead | lostSetSweep =>
    exact goes_ite (goes_guard _ _ _) (goes_next _)
  case quietClockFail | thermalSample | extest | preload | ijtagAccess | linkDown | l1EntryRequest | errRingMsixDefer | hello |
      dramUeReread | setEndpointId =>
    exact goes_ite (goes_next _) (goes_guard _ _ _)
  case leatWireTraining die dn up => exact execLeatWireTraining_goes die dn up s
  case identityMessage die serial rev level good => exact execIdentityMessage_goes die serial rev level good s
  case slotSelection => exact execSlotSelection_goes s
  case imageApply pick => exact execImageApply_goes pick s
  case portReset port perst pick => exact execPortReset_goes port perst pick s
  case freqWindowEnd ref hz pick => exact execFreqWindowEnd_goes ref hz pick s
  case slicePowerGate slice choice idle => exact execSlicePowerGate_goes slice choice idle s
  case leatEccError die double line sec => exact execLeatEccError_goes die double line sec s
  case patrolScrub line found => exact execPatrolScrub_goes line found s
  case rowPprDone channel slot => exact execRowPprDone_goes channel slot s
  case logCoalesceTimer cls code unit => exact execLogCoalesceTimer_goes cls code unit s
  case cxlReceiverError port lane => exact execCxlReceiverError_goes port lane s
  case policyWriteArrive reg val vd => exact execPolicyWriteArrive_goes reg val vd s
  case policyWriteComplete => exact execPolicyWriteComplete_goes s
  case memSpecRd port ld dpa hit pick => exact execMemSpecRd_goes port ld dpa hit pick s
  case birsp port line half rsp pick => exact execBirsp_goes port line half rsp pick s
  case bisnpTimeout port line pick => exact execBisnpTimeout_goes port line pick s
  case pageZeroDone vd page pick => exact execPageZeroDone_goes vd page pick s
  case extentOfferTimeout vd base => exact execExtentOfferTimeout_goes vd base s
  case rspNp m pick => exact execRspNp_goes m pick s
  case gntAck m pick => exact execGntAck_goes m pick s
  case cmpE m pick => exact execCmpE_goes m pick s
  case wbAck m pick => exact execWbAck_goes m pick s
  case rdDat m x => exact execRdDat_goes m x s
  case release cmd slice full => exact execRelease_goes cmd slice full s
  case cmp m x => exact execCmp_goes m x s
  case collective cmd x => exact execCollective_goes cmd x s
  case collReady r x => exact execCollReady_goes r x s
  case collData dev bridge seq part step line data pois x => exact execCollData_goes dev bridge seq part step line data pois x s
  case collStep dev bridge seq part step count x => exact execCollStep_goes dev bridge seq part step count x s
  case collReadyTimeout cmd => exact execCollReadyTimeout_goes cmd s
  case hopFree cmd => exact execHopFree_goes cmd s
  case hopTransfer cmd pick => exact execHopTransfer_goes cmd pick s
  case pageMoveStart place pick => exact execPageMoveStart_goes place pick s
  case moveDeadline vd page pick => exact execMoveDeadline_goes vd page pick s
  case slPlace cmd pick => exact execSlPlace_goes cmd pick s
  case slPin cmd => exact execSlPin_goes cmd s
  case slUnpin cmd => exact execSlUnpin_goes cmd s
  case slRevoke cmd => exact execSlRevoke_goes cmd s
  case slAttach cmd => exact execSlAttach_goes cmd s
  case slDetach cmd => exact execSlDetach_goes cmd s
  case equalisationDecision port asks lane req => exact execEqualisationDecision_goes port asks s lane req
  case hylTrainDone port lanes expired precode => exact execHylTrainDone_goes port lanes expired precode s
  case trainingBlockReceive port lane bytes => exact execTrainingBlockReceive_goes port lane bytes s
  case hylConfigDone port => exact execHylConfigDone_goes port s
  case wreq port lanes devnum serial => exact execWreq_goes port lanes devnum serial s
  case widthChangeDone port => exact execWidthChangeDone_goes port s
  case pmReq port => exact execPmReq_goes port s
  case commandDecode cmd => exact execCommandDecode_goes cmd s
  case commandReady cmd x => exact execCommandReady_goes cmd x s
  case taskCreate cmd => exact execTaskCreate_goes cmd s
  case taskLaunch slice pick => exact execTaskLaunch_goes slice pick s
  case completionWriteFail vd ring x => exact execCompletionWriteFail_goes vd ring x s
  case nop cmd => exact execNop_goes cmd s
  case fence cmd => exact execFence_goes cmd s
  case matmul cmd slice => exact execMatmul_goes cmd slice s
  case spill slice => exact execSpill_goes slice s
  case localTileLoaded slice x => exact execLocalTileLoaded_goes slice x s
  case accSetSwap slice wait => exact execAccSetSwap_goes slice wait s
  case drainDone slice x => exact execDrainDone_goes slice x s
  case embGather cmd slice x => exact execEmbGather_goes cmd slice x s
  case serviceCall cmd => exact execServiceCall_goes cmd s
  case penLease cmd pick => exact execPenLease_goes cmd pick s
  case penDrop cmd => exact execPenDrop_goes cmd s
  case penSignal cmd => exact execPenSignal_goes cmd s
  case penReset cmd => exact execPenReset_goes cmd s
  case penRead cmd => exact execPenRead_goes cmd s
  case penArm cmd => exact execPenArm_goes cmd s
  case penExport cmd pick => exact execPenExport_goes cmd pick s
  case penImport cmd => exact execPenImport_goes cmd s
  case penUnexport cmd => exact execPenUnexport_goes cmd s
  case flumeRunGrant die pick => exact execFlumeRunGrant_goes die pick s
  case flumePeriodStart die wait slips => exact execFlumePeriodStart_goes die wait slips s
  case flumeRunEnd die wait => exact execFlumeRunEnd_goes die s wait
  case raceGrant race out arrived credits => exact execRaceGrant_goes race out arrived s credits
  case elect f serial => exact execElect_goes f serial s
  case joinReq f serial links => exact execJoinReq_goes f serial links s
  case poolMember f serial number isIn offset x => exact execPoolMember_goes f serial number isIn offset x s
  case linkState f reporter device ok => exact execLinkState_goes f reporter device ok s
  case leave f device x => exact execLeave_goes f device x s
  case sweepDone f reporter device => exact execSweepDone_goes f reporter device s
  case unreach device op tag line x => exact execUnreach_goes device op tag line x s
  case penRsp dev vd tag ans => exact execPenRsp_goes dev vd tag ans s
  case slRsp dev m x => exact execSlRsp_goes dev m x s
  case remoteOpTimeout place x => exact execRemoteOpTimeout_goes place x s
  case departedWriteEntryAge => exact execDepartedWriteEntryAge_goes s
  case gaugeCtrlWrite gauge value => exact execGaugeCtrlWrite_goes gauge value s
  case gaugeConfigWrite gauge off wide value => exact execGaugeConfigWrite_goes gauge off wide value s
  case gaugeSampleInstant gauge units => exact execGaugeSampleInstant_goes gauge units s
  case mctpMessageReceive h => exact execMctpMessageReceive_goes h s
  case platformEventResend place acked => exact execPlatformEventResend_goes place acked s
  case ideKm port session mem op stream skid pick => exact execIdeKm_goes port session mem op s stream skid pick

theorem step_goes (s : State) : Goes (step s) := by
  unfold step
  cases s.pending with
  | nil => exact goes_next _
  | cons c rest => exact exec_goes c _

theorem run_succ_of_step {M : Host.Core} {k : Nat} {s t : M.State} (h : M.step s = .next t) : M.run (k + 1) s = M.run k t := by
  simp only [Host.Core.run, h]

/-- R23: a run goes on as long as its steps do. -/
theorem State.safeFor (s : State) (k : Nat) : s.SafeFor k := by
  induction k generalizing s with
  | zero => exact ⟨s, rfl⟩
  | succ k ih =>
    obtain ⟨t, ht⟩ := step_goes s
    obtain ⟨u, hu⟩ := ih t
    exact ⟨u, (run_succ_of_step (M := Sys2Proof.core) ht).trans hu⟩

/-- Settles O54: every row goes on, hence every step, hence, by induction on its length, every run. -/
theorem noCommandStopsTheBlock : Obligations.NoCommandStopsTheBlock :=
  ⟨exec_goes, step_goes, State.safeFor⟩

end Sys2Proof.Machine
end

section
/-! The refutation of O26: a held line whose frame stands out of order in its slice's table. -/
namespace Sys2Proof.Machine

/-- Slice 0 holds line 0 in frame 0, which stands in its table behind an entry of a greater key. -/
def unsortedFrames : State :=
  { inv := { active := 1, chList := List.range 32 }, slices := [(0, { frames := [(1, {}), (0, { st := .h, v := 15 })] })] }

theorem unsortedFrames_homeIdle : unsortedFrames.HomeIdle 0 0 0 { st := .h, v := 15 } := by
  unfold State.HomeIdle
  and_intros <;> decide +kernel

/-- Refutes O26: `HomeIdle` asks nothing of the form of the slice's table. `Slice.hit` finds the frame of line 0 of `unsortedFrames` by
scanning the list, and `Tab.find` stops at the greater key before it, so that after a LOCAL_READ it finds no frame 0.
With the frames in canonical form the clause holds: `localRequests_of_canonical_frames`. -/
theorem not_localRequestsOnAHeldLineAreServedAtOnce : ¬ Obligations.LocalRequestsOnAHeldLineAreServedAtOnce := by
  unfold Obligations.LocalRequestsOnAHeldLineAreServedAtOnce
  rintro ⟨h, -⟩
  obtain ⟨⟨t, ht, -, hframe, -⟩, -⟩ := h unsortedFrames 0 0 0 _ { op := .read, line := 0 } unsortedFrames_homeIdle rfl rfl
  have hnone : (match exec (.localRead { op := .read, line := 0 } 0 none) unsortedFrames with
      | .next u => ((u.slice 0).frames.find 0).isNone
      | _ => false) = true := by decide +kernel
  rw [ht] at hnone
  simp [hframe] at hnone

end Sys2Proof.Machine
end

section
/-!
Requests of this device on a line that its home holds whole, in a table of frames of canonical form (R199, R208, R211, R226): what O26
says of them holds there (`homeS` of the tests is such a state). The first part says what a line idle at its home lets any request do.
-/
namespace Sys2Proof.Machine

/-! ### Sorted tables -/

theorem Tab.find_of_mem {α : Type} {t : Tab α} {lo k : Nat} {x : α} (h : Tab.sortedFrom lo t = true) (hm : (k, x) ∈ t) :
    t.find k = some x := by
  induction t generalizing lo with
  | nil => cases hm
  | cons e t ih =>
    obtain ⟨j, y⟩ := e
    simp only [Tab.sortedFrom, Bool.and_eq_true, decide_eq_true_eq] at h
    rcases List.mem_cons.1 hm with he | ht
    · cases he; simp [Tab.find]
    · have hk := ih h.2 ht
      have hj : ¬ k < j + 1 := fun hlt => by simp [Tab.find_below h.2 hlt] at hk
      simp only [Tab.find]
      rw [if_neg (by omega), if_neg (by omega), hk]

/-- The first entry that meets a test stays the first when it takes a value that meets it too. -/
theorem Tab.find?_put {α : Type} {t : Tab α} {lo k : Nat} {x y : α} {p : Nat × α → Bool} (h : Tab.sortedFrom lo t = true)
    (hf : List.find? p t = some (k, x)) (hp : p (k, y) = true) : List.find? p (Tab.put t k y) = some (k, y) := by
  induction t generalizing lo with
  | nil => cases hf
  | cons e t ih =>
    obtain ⟨j, z⟩ := e
    simp only [Tab.sortedFrom, Bool.and_eq_true, decide_eq_true_eq] at h
    rw [List.find?_cons] at hf
    split at hf
    · cases hf; simp [Tab.put, hp]
    · next hz =>
      have hk : Tab.find t k = some x := Tab.find_of_mem h.2 (List.mem_of_find?_eq_some hf)
      have hj : ¬ k < j + 1 := fun hlt => by simp [Tab.find_below h.2 hlt] at hk
      simp only [Tab.put]
      rw [if_neg (by omega), if_neg (by omega), List.find?_cons, hz]
      exact ih h.2 hf

/-! ### A line idle at its home -/

theorem State.stackFor_awake {s : State} (h : s.power.refresh = []) (fr : Nat) : s.stackFor fr = s := by
  simp only [State.stackFor, h, List.erase_nil]
  rw [← h]

/-- With no register in use none tries again. -/
theorem State.wake_of_no_miss {s : State} {n : Nat} (h : (s.slice n).miss = []) (pick : Nat) : s.wake n pick = s := by
  simp [State.wake, h]

theorem Slice.missOf_nil {x : Slice} (h : x.miss = []) (gl : Nat) : x.missOf gl = none := by
  simp [Slice.missOf, h, Tab.find]

/-- R226: a line that nobody else holds has nobody to snoop. -/
theorem snoopPlan_free (r : Req) : snoopPlan {} r = {} := by
  have hP : bitsOf 128 (({} : DirEntry).sharers.toNat) = [] := by decide
  have hH : bitsOf 4 (({} : DirEntry).hosts.toNat) = [] := by decide
  simp only [snoopPlan, hP, hH, Req.isHolder]
  cases r.op with
  | memRd => cases r.mv <;> rfl
  | _ => rfl

theorem State.dropDeparted_none (s : State) (n gl : Nat) (e : DirEntry) : s.dropDeparted n gl e {} = ({}, s) := rfl

theorem State.slotOf_of_not_promoted {s : State} {gl : Nat} (h : s.promoted gl = false) : s.slotOf gl = none := by
  simpa [State.promoted] using h

/-- A line's entry in the directory is written, and nothing else. -/
def State.withEntry (s : State) (gl : Nat) (e : DirEntry) : State := { s with dir := s.dir.setD (ownNum gl) {} e }

section
variable {s : State} {n gl k : Nat} {f : Frame}

theorem State.view_of_hit (hp : s.promoted gl = false) (hh : (s.slice n).hit gl = some (k, f)) :
    s.view n gl = { v := f.v, data := f.data, p := f.p } := by
  simp [State.view, State.slotOf_of_not_promoted hp, hh]

theorem State.storeLine_of_hit (hp : s.promoted gl = false) (hh : (s.slice n).hit gl = some (k, f)) (mask : BitVec 128) (x : Line)
    (p : Sectors) :
    s.storeLine n gl mask x p = s.setFrame n k (f.merge mask x p) := by
  simp [State.storeLine, State.slotOf_of_not_promoted hp, hh]

/-- Every sector of the line is valid, so that a request is applied without a fill (Table 07-5). -/
theorem State.dataPhase_of_hit (hp : s.promoted gl = false) (hh : (s.slice n).hit gl = some (k, f)) (hv : f.v = 15) {r : Req}
    (hb : r.bulk = false) (hm : r.memAtomic = false) (pick : Nat) (kd kh : List Nat) :
    s.dataPhase n gl pick r kd kh = s.finish n gl r kd kh := by
  simp [State.dataPhase, State.atController, hb, hm, State.view_of_hit hp hh, hv, hh]

/-- A request meets an idle line that its home holds: it is applied at once (R226). -/
theorem State.serve_homeIdle (h : s.HomeIdle n gl k f) {r : Req} (hperf : r.performed = false) (hst : s.stale r = false)
    (hb : r.bulk = false) (hm : r.memAtomic = false) (pick : Nat) : s.serve n gl pick r = s.finish n gl r [] [] := by
  obtain ⟨hdev, -, -, -, -, -, -, -, -, -, hprom, hhit, -, hv, -, -, hent, hways, -⟩ := h
  have hroom : ¬ 8 ≤ (s.dirWays (ownNum gl)).length + s.dirComing (ownNum gl) := by omega
  have hstart : s.startReq n gl pick r = s.finish n gl r [] [] := by
    simp only [State.startReq, hent, snoopPlan_free, State.dropDeparted_none]
    exact State.dataPhase_of_hit hprom hhit hv hb hm pick [] []
  simp [State.serve, hperf, hst, hdev, State.tryReq, hroom, hstart]

theorem State.setDir_homeIdle (h : s.HomeIdle n gl k f) (e : DirEntry) : s.setDir (ownNum gl) e = s.withEntry gl e := by
  obtain ⟨-, -, -, -, -, -, -, -, -, -, -, -, -, -, -, -, -, -, hlost⟩ := h
  refine if_neg ?_
  show ¬ (s.slice (s.dirSet (ownNum gl) / 2 ^ 20)).lostSets.contains _ = true
  rw [hlost]; exact Bool.false_ne_true

end

/-! ### A request of this device, from its arrival to its answer -/

/-- What a request of this device that no command made brings to its home, from a page that is neither BULK nor MEM_ATOMIC (R95). -/
def Req.plain (r : Req) : Req := { r with performed := false, epoch := 0, bulk := false, memAtomic := false }

/-- The request that an agent of this device makes at a row (Table 07-5). -/
def Req.ofAgent (r : Req) (op : ReqOp) : Req := { r with op := op, src := .loc }

/-- A slice where nothing waits serves what arrives (R202, R205). -/
theorem State.arrive_homeIdle {s s1 : State} {n gl k pick : Nat} {f : Frame} {r : Req} (h : s.HomeIdle n gl k f) (hl : r.line = gl)
    (hs : s.serve n gl pick r = (s1, none)) : s.arrive n pick r = s1.wake n pick := by
  obtain ⟨-, -, -, -, -, hstop, hsleep, hinq, hmiss, -⟩ := h
  subst hl
  simp [State.arrive, hstop, hsleep, hinq, State.enterIf, Slice.missOf_nil hmiss, hs]

section
variable {s : State} {n k pick : Nat} {f : Frame} {r : Req}

theorem State.finish_local (hsrc : r.src = .loc) (gl : Nat) (kd kh : List Nat) : s.finish n gl r kd kh =
    (s.applyReq n gl r (s.dirEntry (ownNum gl)) (finalDir (s.dirEntry (ownNum gl)) r kd kh), none) := by
  simp [State.finish, State.grants, Req.granted, State.finalEntry, hsrc]

/-- A request of this device on a line idle at its home is applied at once, and whoever waits at the slice tries again. -/
theorem State.localReq_homeIdle (h : s.HomeIdle n r.line k f) (hsrc : r.src = .loc) (hw : r.who = none) :
    s.localReq r pick = (s.applyReq n r.line r.plain {} (finalDir {} r.plain [] [])).wake n pick := by
  have hplain : s.withAttrs (s.stamp r) = r.plain := by
    obtain ⟨-, -, -, -, -, -, -, -, -, -, -, -, -, -, -, hattr, -⟩ := h
    simp [State.withAttrs, hattr, State.stamp, hw, Req.plain]
  have hstale : s.stale r.plain = false := by
    have hw' : r.plain.who = none := hw
    simp [State.stale, hw']
  have hserve := (State.serve_homeIdle h (r := r.plain) rfl hstale rfl rfl pick).trans
    (State.finish_local (r := r.plain) hsrc r.line [] [])
  obtain ⟨hdev, hoff, hlost, hslice, hrefresh, -, -, -, -, -, -, -, -, -, -, -, hent, -⟩ := id h
  rw [hent] at hserve
  rw [State.localReq, if_pos hdev, hplain, State.homeAccept, if_neg (by rw [show r.plain.line = r.line from rfl, hoff]; decide),
    if_neg (by rw [show r.plain.line = r.line from rfl, hlost]; decide), State.stackFor_awake hrefresh,
    show r.plain.line = r.line from rfl, hslice]
  exact State.arrive_homeIdle h rfl hserve

/-- Where what a request does is a new entry, a change of the slices and an answer `o`, and no register of the slice is in use
afterwards, that is all that comes of it. -/
theorem State.localReq_outcome {u : State} {o : OutMsg} (h : s.HomeIdle n r.line k f) (hsrc : r.src = .loc) (hw : r.who = none)
    (happ : s.applyReq n r.line r.plain {} (finalDir {} r.plain [] []) = u.send o)
    (hframe : ∃ sl, u = { s.withEntry r.line (finalDir {} r.plain [] []) with slices := sl })
    (hm : (u.slice n).miss = []) :
    ∃ t, s.localReq r pick = t ∧ t.out = s.out ++ [o] ∧ t.slice n = u.slice n
      ∧ t = { s with out := t.out, slices := t.slices, dir := t.dir } := by
  obtain ⟨sl, rfl⟩ := hframe
  refine ⟨State.send { s.withEntry r.line (finalDir {} r.plain [] []) with slices := sl } o, ?_, rfl, rfl, rfl⟩
  rw [State.localReq_homeIdle h hsrc hw, happ]
  refine State.wake_of_no_miss ?_ pick
  exact hm

/-- The answer to a request of this device that no command made (Table 07-5). -/
theorem State.answer_local (hsrc : r.src = .loc) (hw : r.who = none) (gl : Nat) (st : Status) (x : Line) (p : Sectors) (e : DirEntry) :
    s.answer gl r st x p e = s.send (.rsp r.tag st x p) := by
  simp [State.answer, hsrc, hw]

theorem State.touchL1_none (hl : r.l1 = none) (gl : Nat) (v : Sectors) (x : Line) : s.touchL1 gl r v x = s := by
  simp [State.touchL1, hl]

end

/-! ### What each request does to a held line -/

section
variable {s : State} {n gl k : Nat} {f : Frame} {r : Req}

/-- A slice that holds a frame is listed, so that it reads back as written. -/
theorem State.slice_modSlice_listed {g : Slice → Slice} (h : (g (s.slice n)).frames ≠ []) : (s.modSlice n g).slice n = g (s.slice n) :=
  Tab.getD_setD_self_of_ne _ _ fun h0 => h (congrArg Slice.frames h0)

theorem Tab.put_ne_nil {α : Type} (t : Tab α) (m : Nat) (x : α) : Tab.put t m x ≠ [] := fun h0 => by
  have hfind := Tab.find_put_same t m x
  simp [h0, Tab.find] at hfind

theorem Slice.frames_of_hit {x : Slice} (hh : x.hit gl = some (k, f)) : x.frames ≠ [] :=
  List.ne_nil_of_mem (List.mem_of_find?_eq_some hh)

/-- The frame of a held line takes new contents. -/
theorem State.slice_setFrame (f' : Frame) (hf : f'.st = .h) :
    (s.setFrame n k f').slice n = { s.slice n with frames := (s.slice n).frames.put k f' } := by
  have hput : (s.slice n).frames.setD k {} f' = (s.slice n).frames.put k f' := if_neg (by rintro rfl; cases hf)
  rw [State.setFrame, State.slice_modSlice_listed (by rw [hput]; exact Tab.put_ne_nil _ _ _), hput]

theorem State.slice_countNan (hne : (s.slice n).frames ≠ []) (c : Nat) :
    (s.countNan n c).slice n = { s.slice n with redNan := (s.slice n).redNan + BitVec.ofNat 32 c } := State.slice_modSlice_listed hne

theorem State.slice_countSat (hne : (s.slice n).frames ≠ []) (c : Nat) :
    (s.countSat n c).slice n = { s.slice n with redSat := (s.slice n).redSat + BitVec.ofNat 32 c } := State.slice_modSlice_listed hne

/-- In a table of canonical form the frame that holds a line is the one that its key finds, before and after it takes new contents. -/
theorem State.find_of_hit (hwf : Tab.wf (s.slice n).frames = true) (hh : (s.slice n).hit gl = some (k, f)) :
    (s.slice n).frames.find k = some f :=
  Tab.find_of_mem hwf (List.mem_of_find?_eq_some hh)

theorem State.hit_setFrame (hwf : Tab.wf (s.slice n).frames = true) (hh : (s.slice n).hit gl = some (k, f)) {f' : Frame} (hst : f'.st = .h)
    (hline : f'.line = f.line) : ((s.setFrame n k f').slice n).hit gl = some (k, f') := by
  have hkey := List.find?_some hh
  simp only [Bool.and_eq_true, decide_eq_true_eq] at hkey
  rw [State.slice_setFrame f' hst]
  exact Tab.find?_put hwf hh (by simp [hst, hline, hkey.2])

theorem State.lineNow_poison (hp : s.promoted gl = false) (hh : (s.slice n).hit gl = some (k, f)) (hv : f.v = 15) :
    (s.lineNow n gl).2 = f.p := by
  have hout : ~~~ (15 : Sectors) = 0 := rfl
  have hall : (15 : Sectors) = BitVec.allOnes 4 := rfl
  simp only [State.lineNow, State.view_of_hit hp hh, hv]
  rw [hout, hall, BitVec.and_allOnes]
  simp

/-- The frame after each of a reduction's two stores: the sums, then the operand's poison. -/
def Frame.reduced (f : Frame) (r : Req) : Frame × Frame :=
  let f1 := f.merge (redBytes r.fmt r.emask &&& sectorBytes (~~~ (f.p ||| r.pois))) (redLine r.fmt r.emask (f.p ||| r.pois) f.data r.data).1 0
  (f1, f1.merge (sectorBytes r.pois) 0 r.pois)

/-- A reduction's NaNs and saturations (R215). -/
def Frame.redCounts (f : Frame) (r : Req) : Nat × Nat := (redLine r.fmt r.emask (f.p ||| r.pois) f.data r.data).2

/-- The value that an atomic finds, and the frame that it leaves. -/
def Frame.atomicOld (f : Frame) (r : Req) : Nat := (f.data.extractLsb' (8 * r.off) r.width).toNat
def Frame.atomicSet (f : Frame) (r : Req) : Frame :=
  f.merge (BitVec.ofNat 128 ((2 ^ (r.width / 8) - 1) * 2 ^ r.off))
    (putField 0 (8 * r.off) r.width (atomicNew r.atop r.width (f.atomicOld r) r.opA r.opB)) 0

/-- The slice's state after a reduction and after an atomic on the line of frame `k`. -/
def State.reduceAt (s : State) (n k : Nat) (f : Frame) (r : Req) : State :=
  (((s.setFrame n k (f.reduced r).1).setFrame n k (f.reduced r).2).countNan n (f.redCounts r).1).countSat n (f.redCounts r).2
def State.atomicAt (s : State) (n k : Nat) (f : Frame) (r : Req) : State :=
  (s.countNan n (b2n (atomicNan r.atop (f.atomicOld r) r.opA))).setFrame n k (f.atomicSet r)

theorem State.slice_reduceAt (hf : f.st = .h) (r : Req) : (s.reduceAt n k f r).slice n = { s.slice n with
    frames := ((s.slice n).frames.put k (f.reduced r).1).put k (f.reduced r).2
    redNan := (s.slice n).redNan + BitVec.ofNat 32 (f.redCounts r).1
    redSat := (s.slice n).redSat + BitVec.ofNat 32 (f.redCounts r).2 } := by
  have h1 : (s.setFrame n k (f.reduced r).1).slice n = _ := State.slice_setFrame _ hf
  have h2 : ((s.setFrame n k (f.reduced r).1).setFrame n k (f.reduced r).2).slice n = _ := State.slice_setFrame _ hf
  rw [h1] at h2
  have h3 := State.slice_countNan (by rw [h2]; exact Tab.put_ne_nil _ _ _) (f.redCounts r).1
  rw [h2] at h3
  rw [State.reduceAt, State.slice_countSat (by rw [h3]; exact Tab.put_ne_nil _ _ _), h3]

theorem State.slice_atomicAt (hh : (s.slice n).hit gl = some (k, f)) (hf : f.st = .h) (r : Req) : (s.atomicAt n k f r).slice n =
    { s.slice n with
      frames := (s.slice n).frames.put k (f.atomicSet r)
      redNan := (s.slice n).redNan + BitVec.ofNat 32 (b2n (atomicNan r.atop (f.atomicOld r) r.opA)) } := by
  have h1 := State.slice_countNan (Slice.frames_of_hit hh) (b2n (atomicNan r.atop (f.atomicOld r) r.opA))
  rw [State.atomicAt, State.slice_setFrame (f.atomicSet r) hf, h1]

theorem State.modSlice_frame (s : State) (n : Nat) (g : Slice → Slice) : ∃ sl, s.modSlice n g = { s with slices := sl } := ⟨_, rfl⟩

theorem State.setFrame_frame (s : State) (n k : Nat) (f : Frame) : ∃ sl, s.setFrame n k f = { s with slices := sl } := s.modSlice_frame n _

theorem State.reduceAt_frame (s : State) (n k : Nat) (f : Frame) (r : Req) : ∃ sl, s.reduceAt n k f r = { s with slices := sl } := by
  obtain ⟨a, ha⟩ := s.setFrame_frame n k (f.reduced r).1
  obtain ⟨b, hb⟩ := State.setFrame_frame { s with slices := a } n k (f.reduced r).2
  obtain ⟨c, hc⟩ := State.modSlice_frame { s with slices := b } n fun y => { y with redNan := y.redNan + BitVec.ofNat 32 (f.redCounts r).1 }
  obtain ⟨d, hd⟩ := State.modSlice_frame { s with slices := c } n fun y => { y with redSat := y.redSat + BitVec.ofNat 32 (f.redCounts r).2 }
  exact ⟨d, by rw [State.reduceAt, ha, hb, State.countNan, hc, State.countSat, hd]⟩

theorem State.atomicAt_frame (s : State) (n k : Nat) (f : Frame) (r : Req) : ∃ sl, s.atomicAt n k f r = { s with slices := sl } := by
  obtain ⟨a, ha⟩ := s.modSlice_frame n fun y =>
    { y with redNan := y.redNan + BitVec.ofNat 32 (b2n (atomicNan r.atop (f.atomicOld r) r.opA)) }
  obtain ⟨b, hb⟩ := State.setFrame_frame { s with slices := a } n k (f.atomicSet r)
  exact ⟨b, by rw [State.atomicAt, State.countNan, ha, hb]⟩

variable (h : s.HomeIdle n gl k f) (hsrc : r.src = .loc) (hw : r.who = none)
include h hsrc hw

/-- R199: a read answers the frame's data, and the poison of the sectors read. -/
theorem State.applyReq_read (hl : r.l1 = none) (hop : r.op = .read) (e e' : DirEntry) : s.applyReq n gl r e e' = (s.withEntry gl e').send
    (.rsp r.tag (if f.p &&& bytesSectors r.bytes = 0 then .ok else .poisoned) f.data (f.p &&& bytesSectors r.bytes)) := by
  have hdir := State.setDir_homeIdle h e'
  obtain ⟨-, -, -, -, -, -, -, -, -, -, hprom, hhit, -⟩ := h
  simp only [State.applyReq, hop, hdir, State.view_of_hit hprom hhit, Req.need, State.touchL1_none hl, State.answer_local hsrc hw]

/-- R145, R199: a write merges its bytes into the frame, but none into a part of a poisoned sector. -/
theorem State.applyReq_write (hl : r.l1 = none) (hop : r.op = .write) (e e' : DirEntry) : s.applyReq n gl r e e' =
    ((s.withEntry gl e').setFrame n k (f.merge r.bytes r.data r.pois)).send
      (.rsp r.tag (if partialSectors r.bytes &&& f.p = 0 then .ok else .poisoned) 0 0) := by
  have hdir := State.setDir_homeIdle h e'
  obtain ⟨-, -, -, -, -, -, -, -, -, -, hprom, hhit, -, hv, -⟩ := h
  have hstore := State.storeLine_of_hit (s := s.withEntry gl e') hprom hhit r.bytes r.data r.pois
  have hhurt : (decide (partialSectors r.bytes ≠ 0) && decide (partialSectors r.bytes &&& f.p ≠ 0))
      = decide (partialSectors r.bytes &&& f.p ≠ 0) := by
    by_cases hz : partialSectors r.bytes = 0
    · simp [hz]
    · rw [decide_eq_true hz, Bool.true_and]
  have hpeer : r.fromPeer = false := by simp [Req.fromPeer, hsrc]
  simp only [State.applyReq, hop, hdir, hstore, State.lineNow_poison hprom hhit hv, hhurt, hpeer, Bool.false_and, Bool.false_eq_true, if_false,
    State.touchL1_none hl, State.answer_local hsrc hw, decide_eq_true_eq, ne_eq, ite_not]

/-- R208, R209: a reduction merges the elements of the sectors that no poison touches, and poisons those that its operand poisons. -/
theorem State.applyReq_red (hwf : Tab.wf (s.slice n).frames = true) (hop : r.op = .red) (e e' : DirEntry) :
    s.applyReq n gl r e e' = ((s.withEntry gl e').reduceAt n k f r).send (.rsp r.tag .ok 0 0) := by
  have hdir := State.setDir_homeIdle h e'
  obtain ⟨-, -, -, -, -, -, -, -, -, -, hprom, hhit, hst, -⟩ := h
  have hstore := State.storeLine_of_hit (s := s.withEntry gl e') hprom hhit
    (redBytes r.fmt r.emask &&& sectorBytes (~~~ (f.p ||| r.pois))) (redLine r.fmt r.emask (f.p ||| r.pois) f.data r.data).1 0
  have hhit' := State.hit_setFrame (s := s.withEntry gl e') (f' := (f.reduced r).1) hwf hhit hst rfl
  have hstore' := State.storeLine_of_hit (s := (s.withEntry gl e').setFrame n k (f.reduced r).1) hprom hhit' (sectorBytes r.pois) 0 r.pois
  simp only [State.applyReq, hop, hdir, State.view_of_hit hprom hhit, hstore, State.answer_local hsrc hw]
  exact congrArg (fun u : State => ((u.countNan n _).countSat n _).send _) hstore'

/-- R211, R212: an atomic on a sound sector writes the new value and answers the old one. -/
theorem State.applyReq_atomic (hop : r.op = .atomic) (hp : bit f.p.toNat (r.off / 32) = false) (e e' : DirEntry) :
    s.applyReq n gl r e e' = ((s.withEntry gl e').atomicAt n k f r).send (.rsp r.tag .ok (BitVec.ofNat 1024 (f.atomicOld r)) 0) := by
  have hdir := State.setDir_homeIdle h e'
  obtain ⟨-, -, -, -, -, -, -, -, -, -, hprom, hhit, -⟩ := h
  generalize hs2 : (s.withEntry gl e').countNan n (b2n (atomicNan r.atop (f.atomicOld r) r.opA)) = s2
  have hhit2 : (s2.slice n).hit gl = some (k, f) := by
    rw [← hs2, State.slice_countNan (Slice.frames_of_hit (x := (s.withEntry gl e').slice n) hhit)]; exact hhit
  have hprom2 : s2.promoted gl = false := by rw [← hs2]; exact hprom
  have hstore := State.storeLine_of_hit hprom2 hhit2 (BitVec.ofNat 128 ((2 ^ (r.width / 8) - 1) * 2 ^ r.off))
    (putField 0 (8 * r.off) r.width (atomicNew r.atop r.width (f.atomicOld r) r.opA r.opB)) 0
  simp only [State.applyReq, hop, hdir, State.view_of_hit hprom hhit, hp, Bool.false_eq_true, if_false, State.answer_local hsrc hw]
  rw [show (f.data.extractLsb' (8 * r.off) r.width).toNat = f.atomicOld r from rfl, hs2, hstore, State.atomicAt, hs2, Frame.atomicSet]

end

/-! ### O26 in tables of canonical form -/

theorem State.HomeIdle.miss {s : State} {n gl k : Nat} {f : Frame} (h : s.HomeIdle n gl k f) : (s.slice n).miss = [] := by
  obtain ⟨-, -, -, -, -, -, -, -, hmiss, -⟩ := h
  exact hmiss

theorem State.HomeIdle.hit {s : State} {n gl k : Nat} {f : Frame} (h : s.HomeIdle n gl k f) : (s.slice n).hit gl = some (k, f) := by
  obtain ⟨-, -, -, -, -, -, -, -, -, -, -, hhit, -⟩ := h
  exact hhit

theorem State.HomeIdle.frame_st {s : State} {n gl k : Nat} {f : Frame} (h : s.HomeIdle n gl k f) : f.st = .h := by
  obtain ⟨-, -, -, -, -, -, -, -, -, -, -, -, hst, -⟩ := h
  exact hst

theorem State.reduceAt_ofAgent (s : State) (n k : Nat) (f : Frame) (r : Req) (op : ReqOp) :
    s.reduceAt n k f (r.ofAgent op).plain = s.reduceAt n k f r := rfl
theorem State.atomicAt_ofAgent (s : State) (n k : Nat) (f : Frame) (r : Req) (op : ReqOp) :
    s.atomicAt n k f (r.ofAgent op).plain = s.atomicAt n k f r := rfl
theorem Frame.atomicOld_ofAgent (f : Frame) (r : Req) (op : ReqOp) : f.atomicOld (r.ofAgent op).plain = f.atomicOld r := rfl

section
variable {s : State} {n k : Nat} {f : Frame} {r : Req} (h : s.HomeIdle n r.line k f) (hw : r.who = none)
include h hw

/-- LOCAL_READ on a held line. -/
theorem exec_localRead_held (hwf : Tab.wf (s.slice n).frames = true) (hl : r.l1 = none) (pick : Nat) :
    ∃ t, exec (.localRead r pick none) s = .next t
      ∧ t.out = s.out ++ [.rsp r.tag (if f.p &&& bytesSectors r.bytes = 0 then .ok else .poisoned) f.data (f.p &&& bytesSectors r.bytes)]
      ∧ (t.slice n).frames.find k = some f ∧ t = { s with out := t.out, slices := t.slices, dir := t.dir } := by
  obtain ⟨t, ht, hout, hslice, hframe⟩ := State.localReq_outcome (r := r.ofAgent .read) (pick := pick) h rfl hw
    (State.applyReq_read (r := (r.ofAgent .read).plain) h rfl hw hl rfl _ _) ⟨s.slices, rfl⟩ h.miss
  refine ⟨t, congrArg Host.Outcome.next ht, hout, ?_, hframe⟩
  rw [hslice]; exact State.find_of_hit hwf h.hit

/-- LOCAL_WRITE on a held line. -/
theorem exec_localWrite_held (hl : r.l1 = none) (pick : Nat) :
    ∃ t, exec (.localWrite r pick) s = .next t
      ∧ t.out = s.out ++ [.rsp r.tag (if partialSectors r.bytes &&& f.p = 0 then .ok else .poisoned) 0 0]
      ∧ (t.slice n).frames.find k = some (f.merge r.bytes r.data r.pois)
      ∧ t = { s with out := t.out, slices := t.slices, dir := t.dir } := by
  have hset := fun e' => State.slice_setFrame (s := s.withEntry r.line e') (n := n) (k := k) (f.merge r.bytes r.data r.pois) h.frame_st
  obtain ⟨t, ht, hout, hslice, hframe⟩ := State.localReq_outcome (r := r.ofAgent .write) (pick := pick) h rfl hw
    (State.applyReq_write (r := (r.ofAgent .write).plain) h rfl hw hl rfl _ _) (State.setFrame_frame _ _ _ _)
    ((congrArg Slice.miss (hset _)).trans h.miss)
  refine ⟨t, congrArg Host.Outcome.next ht, hout, ?_, hframe⟩
  rw [hslice]
  exact (congrArg (fun x : Slice => x.frames.find k) (hset _)).trans (Tab.find_put_same _ _ _)

/-- LOCAL_REDUCTION of a defined format on a held line. -/
theorem exec_localReduction_held (hwf : Tab.wf (s.slice n).frames = true) (hfmt : r.fmt < 4) (pick : Nat) :
    ∃ t, exec (.localReduction r pick) s = .next t ∧ t.out = s.out ++ [.rsp r.tag .ok 0 0]
      ∧ (t.slice n).frames.find k = some (f.reduced r).2
      ∧ (t.slice n).redNan = (s.slice n).redNan + BitVec.ofNat 32 (f.redCounts r).1
      ∧ (t.slice n).redSat = (s.slice n).redSat + BitVec.ofNat 32 (f.redCounts r).2
      ∧ t = { s with out := t.out, slices := t.slices, dir := t.dir } := by
  have happ := State.applyReq_red (r := (r.ofAgent .red).plain) h rfl hw hwf rfl {} (finalDir {} (r.ofAgent .red).plain [] [])
  rw [State.reduceAt_ofAgent] at happ
  have hset := fun e' => State.slice_reduceAt (s := s.withEntry r.line e') (n := n) (k := k) h.frame_st r
  obtain ⟨t, ht, hout, hslice, hframe⟩ := State.localReq_outcome (r := r.ofAgent .red) (pick := pick) h rfl hw happ
    (State.reduceAt_frame _ _ _ _ _) ((congrArg Slice.miss (hset _)).trans h.miss)
  refine ⟨t, (if_neg (Nat.not_le.2 hfmt)).trans (congrArg Host.Outcome.next ht), hout, ?_, ?_, ?_, hframe⟩ <;> rw [hslice, hset]
  · exact Tab.find_put_same _ _ _
  · rfl
  · rfl

/-- SLICE_ATOMIC with a defined code, width and offset on a sound sector of a held line. -/
theorem exec_sliceAtomic_held (hok : atomicOk r.atop r.width r.off = true) (hp : bit f.p.toNat (r.off / 32) = false) (pick : Nat) :
    ∃ t, exec (.sliceAtomic r pick) s = .next t
      ∧ t.out = s.out ++ [.rsp r.tag .ok (BitVec.ofNat 1024 (f.atomicOld r)) 0]
      ∧ (t.slice n).frames.find k = some (f.atomicSet r)
      ∧ t = { s with out := t.out, slices := t.slices, dir := t.dir } := by
  have happ := State.applyReq_atomic (r := (r.ofAgent .atomic).plain) h rfl hw rfl hp {} (finalDir {} (r.ofAgent .atomic).plain [] [])
  rw [State.atomicAt_ofAgent, Frame.atomicOld_ofAgent] at happ
  have hset := fun e' => State.slice_atomicAt (s := s.withEntry r.line e') (n := n) h.hit h.frame_st r
  obtain ⟨t, ht, hout, hslice, hframe⟩ := State.localReq_outcome (r := r.ofAgent .atomic) (pick := pick) h rfl hw happ
    (State.atomicAt_frame _ _ _ _ _) ((congrArg Slice.miss (hset _)).trans h.miss)
  refine ⟨t, (if_neg (by rw [hok]; decide)).trans (congrArg Host.Outcome.next ht), hout, ?_, hframe⟩
  rw [hslice, hset]; exact Tab.find_put_same _ _ _

end

/-- The clause of O26 that fails holds once the frames of the slice are in canonical form. -/
theorem localRequests_of_canonical_frames (s : State) (n k pick : Nat) (f : Frame) (r : Req) (h : s.HomeIdle n r.line k f)
    (hwf : Tab.wf (s.slice n).frames = true) (hl : r.l1 = none) (hw : r.who = none) :
    (∃ t, exec (.localRead r pick none) s = .next t
      ∧ t.out = s.out ++ [.rsp r.tag (if f.p &&& bytesSectors r.bytes = 0 then .ok else .poisoned) f.data (f.p &&& bytesSectors r.bytes)]
      ∧ (t.slice n).frames.find k = some f ∧ t = { s with out := t.out, slices := t.slices, dir := t.dir }) ∧
    (∃ t, exec (.localWrite r pick) s = .next t
      ∧ t.out = s.out ++ [.rsp r.tag (if partialSectors r.bytes &&& f.p = 0 then .ok else .poisoned) 0 0]
      ∧ (t.slice n).frames.find k = some (f.merge r.bytes r.data r.pois)
      ∧ t = { s with out := t.out, slices := t.slices, dir := t.dir }) ∧
    (r.fmt < 4 → ∃ t, exec (.localReduction r pick) s = .next t ∧ t.out = s.out ++ [.rsp r.tag .ok 0 0]
      ∧ (t.slice n).frames.find k = some ((f.merge (redBytes r.fmt r.emask &&& sectorBytes (~~~ (f.p ||| r.pois)))
          (redLine r.fmt r.emask (f.p ||| r.pois) f.data r.data).1 0).merge (sectorBytes r.pois) 0 r.pois)
      ∧ (t.slice n).redNan = (s.slice n).redNan + BitVec.ofNat 32 (redLine r.fmt r.emask (f.p ||| r.pois) f.data r.data).2.1
      ∧ (t.slice n).redSat = (s.slice n).redSat + BitVec.ofNat 32 (redLine r.fmt r.emask (f.p ||| r.pois) f.data r.data).2.2
      ∧ t = { s with out := t.out, slices := t.slices, dir := t.dir }) ∧
    (atomicOk r.atop r.width r.off = true → bit f.p.toNat (r.off / 32) = false → ∃ t, exec (.sliceAtomic r pick) s = .next t
      ∧ t.out = s.out ++ [.rsp r.tag .ok (BitVec.ofNat 1024 (f.data.extractLsb' (8 * r.off) r.width).toNat) 0]
      ∧ (t.slice n).frames.find k = some (f.merge (BitVec.ofNat 128 ((2 ^ (r.width / 8) - 1) * 2 ^ r.off))
          (putField 0 (8 * r.off) r.width (atomicNew r.atop r.width (f.data.extractLsb' (8 * r.off) r.width).toNat r.opA r.opB)) 0)
      ∧ t = { s with out := t.out, slices := t.slices, dir := t.dir }) :=
  ⟨exec_localRead_held h hw hwf hl pick, exec_localWrite_held h hw hl pick, fun hfmt => exec_localReduction_held h hw hwf hfmt pick,
    fun hok hp => exec_sliceAtomic_held h hw hok hp pick⟩

/-! ### Refused requests, and errors of a Leat link -/

theorem exec_localReduction_reserved (s : State) {r : Req} (h : 4 ≤ r.fmt) (pick : Nat) :
    exec (.localReduction r pick) s = .next (s.send (.rsp r.tag .invalidField 0 0)) := if_pos h

theorem exec_sliceAtomic_reserved (s : State) {r : Req} (h : atomicOk r.atop r.width r.off = false) (pick : Nat) :
    exec (.sliceAtomic r pick) s = .next (s.send (.rsp r.tag .invalidField 0 0)) := if_pos (by rw [h]; rfl)

theorem exec_leatEccError_single {s : State} {die : Nat} (h : s.leatOn die = true) (line : Option Nat) (sec : Sectors) :
    exec (.leatEccError die false line sec) s = .next ((s.charge 5 die 1).corrected 5 die) := by
  show execLeatEccError die false line sec s = _
  simp [execLeatEccError, h]

theorem exec_leatEccError_off {s : State} {die : Nat} (h : s.leatOn die = false) (double : Bool) (line : Option Nat) (sec : Sectors) :
    exec (.leatEccError die double line sec) s = .next s := by
  show execLeatEccError die double line sec s = _
  simp [execLeatEccError, h]

end Sys2Proof.Machine
end

section
/-!
Fault meters (R502-R507): leaks, charges and crossings; the errors that leave a record and a charge; and the sweep of LOST directory
sets (R519).
-/
namespace Sys2Proof.Machine

/-! ### Tables changed entry by entry -/

theorem Tab.find_mapVal {α : Type} (t : Tab α) (f : Nat → α → α) (n : Nat) : Tab.find (Tab.mapVal t f) n = (Tab.find t n).map (f n) := by
  induction t with
  | nil => rfl
  | cons e t ih =>
    obtain ⟨k, v⟩ := e
    show Tab.find ((k, f k v) :: Tab.mapVal t f) n = _
    simp only [Tab.find, ih]
    split
    · subst_vars; rfl
    · split <;> rfl

/-- A change that keeps the default changes what every key reads as. -/
theorem Tab.getD_mapVal {α : Type} (t : Tab α) {f : Nat → α → α} {n : Nat} {d : α} (hd : f n d = d) :
    Tab.getD (Tab.mapVal t f) n d = f n (Tab.getD t n d) := by
  rw [Tab.getD, Tab.getD, Tab.find_mapVal]
  cases Tab.find t n with
  | none => exact hd.symm
  | some x => rfl

/-- The entries of a list whose keys a test takes are written, changed, over a table. -/
def Tab.rewrite {α : Type} [DecidableEq α] (d : α) (P : Nat → Prop) [DecidablePred P] (g : α → α) (l t : Tab α) : Tab α :=
  l.foldl (fun t e => if P e.1 then t.setD e.1 d (g e.2) else t) t

theorem Tab.getD_rewrite {α : Type} [DecidableEq α] {d : α} {P : Nat → Prop} [DecidablePred P] {g : α → α} {l t : Tab α} {lo : Nat}
    (hl : Tab.sortedFrom lo l = true) (ht : Tab.wf t = true) (n : Nat) :
    Tab.getD (Tab.rewrite d P g l t) n d = if P n then ((Tab.find l n).map g).getD (Tab.getD t n d) else Tab.getD t n d := by
  induction l generalizing lo t with
  | nil => simp [Tab.rewrite, Tab.find]
  | cons e l ih =>
    obtain ⟨k, v⟩ := e
    obtain ⟨-, hl'⟩ : lo ≤ k ∧ Tab.sortedFrom (k + 1) l = true := by simpa [Tab.sortedFrom] using hl
    have hwf : Tab.wf (if P k then t.setD k d (g v) else t) = true := by
      split
      · exact Tab.wf_setD ht k d _
      · exact ht
    have hread : Tab.getD (if P k then t.setD k d (g v) else t) n d = if P k ∧ n = k then g v else Tab.getD t n d := by
      by_cases hP : P k
      · simp [hP, Tab.getD_setD ht]
      · simp [hP]
    show Tab.getD (Tab.rewrite d P g l (if P k then t.setD k d (g v) else t)) n d = _
    rw [ih hl' hwf, hread]
    by_cases hk : n = k
    · subst hk
      simp [Tab.find, Tab.find_below hl' (Nat.lt_succ_self n)]
    · rcases Nat.lt_or_gt_of_ne hk with hlt | hgt
      · simp [Tab.find, hk, hlt, Tab.find_below hl' (show n < k + 1 by omega)]
      · simp [Tab.find, hk, show ¬ n < k by omega]

/-- Each entry rewritten in its own table: where the default is kept, every key that the test takes reads changed. -/
theorem Tab.getD_rewrite_self {α : Type} [DecidableEq α] {d : α} {P : Nat → Prop} [DecidablePred P] {g : α → α} {t : Tab α}
    (ht : Tab.wf t = true) (hd : g d = d) (n : Nat) :
    Tab.getD (Tab.rewrite d P g t t) n d = if P n then g (Tab.getD t n d) else Tab.getD t n d := by
  rw [Tab.getD_rewrite ht ht]
  refine if_congr Iff.rfl ?_ rfl
  rw [Tab.getD]
  cases Tab.find t n with
  | none => exact hd.symm
  | some x => rfl

/-! ### Leaks (R503) -/

def RowSlot.leak (r : RowSlot) : RowSlot := if r.frozen then r else { r with level := BitVec.ofNat 32 (r.level.toNat - 1) }

/-- The state after a leak period of the row meters, and of the meters of another class. -/
def State.leakRows (s : State) : State := { s with flt := { s.flt with rows := s.flt.rows.mapVal fun _ => RowSlot.leak } }
def State.leakClass (s : State) (cls : Nat) : State := { s with flt := { s.flt with
  meters := Tab.rewrite {} (fun k => k / 65536 = cls) (·.leak (leakAmount cls)) s.flt.meters s.flt.meters } }

theorem exec_meterLeak_row (s : State) : exec (.meterLeak 0) s = .next s.leakRows := rfl

theorem exec_meterLeak_class {cls : Nat} (h : cls ≠ 0) (s : State) : exec (.meterLeak cls) s = .next (s.leakClass cls) := if_neg h

theorem State.row_leakRows (s : State) (i : Nat) : s.leakRows.row i = (s.row i).leak :=
  Tab.getD_mapVal (f := fun _ => RowSlot.leak) s.flt.rows (n := i) rfl

theorem Meter.leak_default (n : Nat) : ({} : Meter).leak n = {} := by simp [Meter.leak]

theorem State.meter_leakClass {s : State} (hwf : Tab.wf s.flt.meters = true) (cls k : Nat) {i : Nat} (hi : i < 65536) :
    (s.leakClass cls).meter k i = if k = cls then (s.meter k i).leak (leakAmount cls) else s.meter k i := by
  have hkey : meterKey k i / 65536 = k := by unfold meterKey; omega
  have hread := Tab.getD_rewrite_self (P := fun k => k / 65536 = cls) (g := (·.leak (leakAmount cls))) hwf (Meter.leak_default _) (meterKey k i)
  rw [hkey] at hread
  exact hread

/-! ### Charges and crossings (R502-R504) -/

section
variable {s : State} {cls i b : Nat}

theorem State.level_of_class (h : 0 < cls) (s : State) (i : Nat) : s.level cls i = s.meter cls i := if_neg (by omega)

theorem State.addLevel_frozen (h : (s.level cls i).frozen = true) : s.addLevel cls i b = (s, false) :=
  if_pos (by rw [h]; rfl)

theorem State.addLevel_counts {l : Nat} (hc : 0 < cls) (hm : s.metered cls i = true) (hf : (s.meter cls i).frozen = false)
    (hl : l = (s.meter cls i).level.toNat + s.scaled cls b) (h32 : l < 2 ^ 32) :
    s.addLevel cls i b = (s.setMeter cls i { level := BitVec.ofNat 32 l, frozen := s.boot.memActive && decide (s.threshold cls ≤ l) },
      s.boot.memActive && decide (s.threshold cls ≤ l)) := by
  have hmin : min (2 ^ 32 - 1) l = l := by omega
  simp only [State.addLevel, State.level_of_class hc, hf, hm, ← hl, hmin, State.setLevel, if_neg (Nat.ne_of_gt hc)]
  rfl

theorem State.charge_below {s1 : State} (h : s.addLevel cls i b = (s1, false)) : s.charge cls i b = s1 := by
  simp only [State.charge, State.chargeF, h]

theorem State.charge_crosses {s1 : State} (h : s.addLevel cls i b = (s1, true)) : s.charge cls i b = s1.crossed (State.chargeF 7) cls i := by
  simp only [State.charge, State.chargeF, h]

end

/-! ### Errors of memory (R145, R502, R507) -/

theorem exec_patrolScrub_clean (s : State) (line : Nat) : exec (.patrolScrub line 0) s = .next s := rfl

section
variable {s : State} {line : Nat} (hl : s.lostHome line = false)
include hl

/-- A corrected bit or symbol: the row is charged, and the sector recorded. -/
theorem exec_patrolScrub_corrected {found : Nat} (h : found = 1 ∨ found = 2) :
    exec (.patrolScrub line found) s = .next ((s.chargeRow line (if found = 1 then 1 else 16)).post
      { cls := .correctable, meter := 0, unit := (s.inv.place (lineOff line)).ch, addr := line * 128 }) := by
  show execPatrolScrub line found s = _
  rcases h with rfl | rfl <;> simp [execPatrolScrub, hl]

theorem exec_patrolScrub_parity : exec (.patrolScrub line 3) s =
    .next ((s.corrected 1 (s.inv.place (lineOff line)).ch).charge 1 (s.inv.place (lineOff line)).ch 16) := by
  show execPatrolScrub line 3 s = _
  simp [execPatrolScrub, hl]

theorem exec_patrolScrub_tsv : exec (.patrolScrub line 4) s = .next (s.charge 2 ((s.inv.place (lineOff line)).ch / 32) 256) := by
  show execPatrolScrub line 4 s = _
  simp [execPatrolScrub, hl]

theorem exec_dramUeReread_good (sector : Nat) (oneRow : Bool) : exec (.dramUeReread line sector false oneRow) s = .next (s.post
    { cls := .correctable, meter := 0, unit := (s.inv.place (lineOff line)).ch, addr := line * 128 }) := by
  show execDramUeReread line sector false oneRow s = _
  simp [execDramUeReread, hl]

/-- R145: the sector that stays bad is poison, recorded, told to the owner, and charged. -/
theorem exec_dramUeReread_bad {m : Sectors} {sector : Nat} (hm : m = BitVec.ofNat 4 (2 ^ (sector % 4))) (oneRow : Bool) {s3 : State}
    (h3 : s3 = (({ s with memPoison := setPoison s.memPoison (lineOff line) m m } : State).post
      { cls := .poisoned, meter := 0, unit := (s.inv.place (lineOff line)).ch, addr := line * 128, slice := s.sliceOf line,
        detail := m.toNat * 16 + m.toNat }).lineEvent line 2 { kind := .generalMedia, ty := .mediaEcc, trans := 1 }) :
    exec (.dramUeReread line sector true oneRow) s =
      .next ((if oneRow then s3.chargeRow line 256 else s3.charge 1 (s.inv.place (lineOff line)).ch 128).dieWide line) := by
  subst hm h3
  exact (if_neg (by rw [hl]; decide)).trans (if_neg (by decide))

end

/-! ### The log's seconds (R528) -/

/-- The open second of a class, code and unit. -/
def Coalesce.isOf (cls : RecClass) (code unit : Nat) (c : Coalesce) : Bool :=
  decide (c.cls = cls) && decide (c.code = code) && decide (c.unit = unit)

/-- R528: the second ends, and a summary tells what it withheld. -/
theorem exec_logCoalesceTimer {s s1 : State} {cls : RecClass} {code unit : Nat} {c : Coalesce}
    (hc : s.flt.coalesce.find? (Coalesce.isOf cls code unit) = some c)
    (h1 : s1 = { s with flt := { s.flt with coalesce := s.flt.coalesce.filter fun c => !c.isOf cls code unit } }) :
    exec (.logCoalesceTimer cls code unit) s = if c.withheld = 0 then .next s1
      else .next (s1.post { cls := cls, code := code, unit := unit, count := c.withheld }) := by
  have hc' : (s.flt.coalesce.find? fun c => decide (c.cls = cls) && decide (c.code = code) && decide (c.unit = unit)) = some c := hc
  subst h1
  show execLogCoalesceTimer cls code unit s = _
  simp only [execLogCoalesceTimer, hc']
  rfl

/-! ### The sweep of a LOST set (R519) -/

/-- R519: the lines of a set that are neither known nor on their way are recalled. -/
def State.recallLost (s : State) (n : Nat) (ls : List Nat) : State :=
  ls.foldl (fun s l => if (s.slice n).lostKnown.contains l || ((s.slice (s.liveSlice n)).missOf (s.ownLine l)).isSome then s
    else (s.recall (s.liveSlice n) l ownShare).getD s) s

/-- R519: a set is whole again. -/
def Slice.setWhole (x : Slice) (set : Nat) (ls : List Nat) : Slice :=
  { x with
    lostSets := x.lostSets.filter fun y => decide (y ≠ set)
    dirLostSets := BitVec.ofNat 32 (x.lostSets.filter fun y => decide (y ≠ set)).length
    lostKnown := x.lostKnown.filter fun l => !ls.contains l }

section
variable {s s1 : State} {n set : Nat} (hs : set ∈ (s.slice n).lostSets) (h1 : s1 = s.recallLost n (s.setLines (n * 2 ^ 20 + set)))
include hs h1

theorem exec_lostSetSweep_open (h : (s.setLines (n * 2 ^ 20 + set)).all (fun l => (s1.slice n).lostKnown.contains l) = false) :
    exec (.lostSetSweep n set) s = .next s1 := by
  subst h1
  exact (if_pos (List.contains_iff_mem.2 hs)).trans (if_neg (by rw [Bool.not_eq_true]; exact h))

theorem exec_lostSetSweep_whole (h : (s.setLines (n * 2 ^ 20 + set)).all (fun l => (s1.slice n).lostKnown.contains l) = true) :
    exec (.lostSetSweep n set) s = .next ((s1.modSlice n (·.setWhole set (s.setLines (n * 2 ^ 20 + set)))).relocate (n * 2 ^ 20 + set)) := by
  subst h1
  exact (if_pos (List.contains_iff_mem.2 hs)).trans (if_pos h)

end

/-- Lines that are known already need no recall. -/
theorem State.recallLost_known {s : State} {n : Nat} {ls : List Nat} (h : ∀ l ∈ ls, l ∈ (s.slice n).lostKnown) : s.recallLost n ls = s := by
  induction ls with
  | nil => rfl
  | cons l ls ih =>
    have hl : (s.slice n).lostKnown.contains l = true := List.contains_iff_mem.2 (h l List.mem_cons_self)
    rw [State.recallLost, List.foldl_cons, hl, Bool.true_or, if_pos rfl]
    exact ih fun k hk => h k (List.mem_cons_of_mem _ hk)

/-- Settles O46: a leak rewrites the meters of its class, a charge is one `State.addLevel`, each error's row is its own effect, and a set
whose lines are all known needs no recall. -/
theorem metersLeakSaturateAndCross : Obligations.MetersLeakSaturateAndCross := by
  unfold Obligations.MetersLeakSaturateAndCross
  refine ⟨?leak, ?leakRow, ?count, ?frozen, ?cxl, ?scrub, ?reread, ?coalesce, ?sweep⟩
  case leak =>
    intro s cls hc hwf
    refine ⟨_, exec_meterLeak_class (Nat.ne_of_gt hc) s, rfl, fun k i hi => ?_⟩
    rw [State.meter_leakClass hwf cls k hi]
    exact ⟨fun h => if_pos h, fun h => if_neg h⟩
  case leakRow => exact fun s => ⟨_, exec_meterLeak_row s, rfl, s.row_leakRows⟩
  case count =>
    intro s cls i b l hc hm hf hl h32
    have hadd := State.addLevel_counts hc hm hf hl h32
    refine ⟨fun hlt => ?_, fun hle hact => ⟨State.chargeF 7, ?_⟩⟩
    · rw [decide_eq_false (Nat.not_le.2 hlt), Bool.and_false] at hadd
      exact State.charge_below hadd
    · rw [decide_eq_true hle, hact, Bool.and_true] at hadd
      exact State.charge_crosses hadd
  case frozen =>
    exact fun s cls i b hc hf => State.charge_below (State.addLevel_frozen ((congrArg Meter.frozen (State.level_of_class hc s i)).trans hf))
  case cxl => exact fun s p l => ⟨rfl, rfl, rfl⟩
  case scrub =>
    rintro s line ch hl rfl
    exact ⟨exec_patrolScrub_clean s line, exec_patrolScrub_corrected hl (.inl rfl), exec_patrolScrub_corrected hl (.inr rfl), exec_patrolScrub_parity hl,
      exec_patrolScrub_tsv hl⟩
  case reread =>
    rintro s s1 line sector ch oneRow m hl rfl hm rfl
    exact ⟨exec_dramUeReread_good hl sector oneRow, fun s3 h3 => ⟨exec_dramUeReread_bad hl hm true h3, exec_dramUeReread_bad hl hm false h3⟩⟩
  case coalesce =>
    rintro s cls code unit c hs rfl rfl rfl
    have hc : s.flt.coalesce.find? (Coalesce.isOf c.cls c.code c.unit) = some c := by simp [hs, Coalesce.isOf]
    have h1 : ({ s with flt := { s.flt with coalesce := [] } } : State)
        = { s with flt := { s.flt with coalesce := s.flt.coalesce.filter fun d => !d.isOf c.cls c.code c.unit } } := by
      simp [hs, Coalesce.isOf]
    exact ⟨fun hw => (exec_logCoalesceTimer hc h1).trans (if_pos hw), fun hw => (exec_logCoalesceTimer hc h1).trans (if_neg hw)⟩
  case sweep =>
    intro s n set hs hall
    exact exec_lostSetSweep_whole hs (State.recallLost_known hall).symm
      (List.all_eq_true.2 fun l hl => List.contains_iff_mem.2 (hall l hl))

end Sys2Proof.Machine
end

section
/-!
Discovery (R30-R42): what each message records of its die; and the test access port (R45-R50).
-/
namespace Sys2Proof.Machine

/-! ### Dies -/

theorem Tab.put_put {α : Type} (t : Tab α) (n : Nat) (x y : α) : Tab.put (Tab.put t n x) n y = Tab.put t n y := by
  induction t with
  | nil => simp [Tab.put]
  | cons e t ih =>
    obtain ⟨k, v⟩ := e
    simp only [Tab.put]
    split
    · simp [Tab.put]
    · split
      · simp [Tab.put]
      · simp [Tab.put, *]

/-- Of two values listed at a key one after the other the later stays. -/
theorem Tab.setD_setD_of_ne {α : Type} [DecidableEq α] (t : Tab α) (n : Nat) {d x y : α} (hx : x ≠ d) (hy : y ≠ d) :
    Tab.setD (Tab.setD t n d x) n d y = Tab.setD t n d y := by
  simp only [Tab.setD, if_neg hx, if_neg hy, Tab.put_put]

/-- Two changes of a die are one, where neither leaves a die at its cold values. -/
theorem State.modDie_modDie {s : State} {d : Nat} {f g : Die → Die} (hf : f (s.die d) ≠ {}) (hg : g (f (s.die d)) ≠ {}) :
    (s.modDie d f).modDie d g = s.modDie d (g ∘ f) := by
  have hread : (s.modDie d f).die d = f (s.die d) := Tab.getD_setD_self_of_ne _ _ hf
  show ({ s with dies := Tab.setD (Tab.setD s.dies d {} (f (s.die d))) d {} (g ((s.modDie d f).die d)) } : State) = _
  rw [hread, Tab.setD_setD_of_ne _ _ hf hg]
  rfl

theorem State.fail_of_dieAt {s : State} {d n : Nat} (h : s.dieAt d n = true) : (s.die d).fail = none := by
  simp only [State.dieAt, Bool.and_eq_true, Option.isNone_iff_eq_none] at h
  exact h.2

/-! ### Messages of discovery (Table 02-3) -/

theorem exec_slicePllLock {s : State} {d : Nat} (h : s.dieAt d 1 = true) :
    exec (.slicePllLock d) s = .next (s.modDie d fun x => { x with step := 2 }) := if_pos h

/-- R31: the failing wires of group `i` that the training counts. -/
def failing (xs : List Nat) (i : Nat) : Nat := min groupWires (xs.getD i 0)

/-- R31: no wire of any group is aligned. -/
def noWire (dn up : List Nat) : Bool := (List.range 8).all fun i => failing dn i == groupWires && failing up i == groupWires

/-- R31: the spares of every group are enough. -/
def wiresOk (dn up : List Nat) : Bool := (List.range 8).all fun i => decide (failing dn i ≤ 2) && decide (failing up i ≤ 2)

/-- R31: the spares used in a direction. -/
def sparesUsed (xs : List Nat) : Nat := (List.range 8).foldl (fun a i => a + failing xs i) 0

/-- R31: what the training of a link makes of its die. -/
def Die.trained (x : Die) (dn up : List Nat) : Die :=
  if noWire dn up then { x with fail := some .absent }
  else if wiresOk dn up then { x with step := 3, spareDn := sparesUsed dn, spareUp := sparesUsed up }
  else { x with fail := some .linkFail }

theorem exec_leatWireTraining {s : State} {d : Nat} (h : s.dieAt d 2 = true) (dn up : List Nat) :
    exec (.leatWireTraining d dn up) s = .next (s.modDie d (·.trained dn up)) := by
  refine (if_pos h).trans ?_
  show (if noWire dn up then _ else if wiresOk dn up then _ else _) = Host.Outcome.next (s.modDie d (·.trained dn up))
  simp only [Die.trained]
  split
  · rfl
  · split <;> rfl

theorem failing_of_le {xs : List Nat} {i : Nat} (h : xs.getD i 0 ≤ 2) : failing xs i = xs.getD i 0 :=
  Nat.min_eq_right (by unfold groupWires; omega)

theorem Die.trained_ok {dn up : List Nat} (h : ∀ i < 8, dn.getD i 0 ≤ 2 ∧ up.getD i 0 ≤ 2) (x : Die) :
    x.trained dn up = { x with step := 3, spareDn := sparesUsed dn, spareUp := sparesUsed up } := by
  have hok : wiresOk dn up = true := List.all_eq_true.2 fun i hi => by
    obtain ⟨hd, hu⟩ := h i (List.mem_range.1 hi)
    rw [failing_of_le hd, failing_of_le hu, decide_eq_true hd, decide_eq_true hu]; rfl
  have hno : noWire dn up = false := by
    have h0 := failing_of_le (h 0 (by decide)).1
    have hle := (h 0 (by decide)).1
    have hne : failing dn 0 ≠ groupWires := by unfold groupWires; omega
    refine List.all_eq_false.2 ⟨0, by decide, ?_⟩
    simp [hne]
  simp [Die.trained, hno, hok]

/-- R31: a group with three failing wires or more, of which some are aligned. -/
theorem Die.trained_linkFail {dn : List Nat} {i : Nat} (hi : i < 8) (h3 : 3 ≤ dn.getD i 0) (h139 : dn.getD i 0 < 139) (up : List Nat) (x : Die) :
    x.trained dn up = { x with fail := some .linkFail } := by
  have hf : failing dn i = dn.getD i 0 := Nat.min_eq_right (by unfold groupWires; omega)
  have hne : failing dn i ≠ groupWires := by unfold groupWires; omega
  have hno : noWire dn up = false := List.all_eq_false.2 ⟨i, List.mem_range.2 hi, by simp [hne]⟩
  have hok : wiresOk dn up = false := List.all_eq_false.2 ⟨i, List.mem_range.2 hi, by simp only [Bool.and_eq_true, decide_eq_true_eq]; omega⟩
  simp [Die.trained, hno, hok]

theorem sparesUsed_of_le {xs : List Nat} (h : ∀ i < 8, xs.getD i 0 ≤ 2) : sparesUsed xs =
    xs.getD 0 0 + xs.getD 1 0 + xs.getD 2 0 + xs.getD 3 0 + xs.getD 4 0 + xs.getD 5 0 + xs.getD 6 0 + xs.getD 7 0 := by
  have hf : ∀ i < 8, failing xs i = xs.getD i 0 := fun i hi => failing_of_le (h i hi)
  show 0 + failing xs 0 + failing xs 1 + failing xs 2 + failing xs 3 + failing xs 4 + failing xs 5 + failing xs 6 + failing xs 7 = _
  rw [hf 0, hf 1, hf 2, hf 3, hf 4, hf 5, hf 6, hf 7, Nat.zero_add] <;> decide

theorem exec_identityMessage_bad {s : State} {d : Nat} (h : s.dieAt d 3 = true) (serial rev level : Nat) :
    exec (.identityMessage d serial rev level false) s = .next (s.modDie d fun x => { x with idTries := (s.die d).idTries + 1 }) :=
  (if_pos h).trans (if_pos rfl)

theorem exec_identityMessage_passes {s : State} {d level : Nat} (h : s.dieAt d 3 = true) (ht : (s.die d).idTries < 2) (hl : 1 ≤ level % 256)
    (serial rev : Nat) : exec (.identityMessage d serial rev level true) s = .next ((s.modDie d fun x =>
      { x with idTries := (s.die d).idTries + 1, serial := serial % 2 ^ 32, rev := rev % 256, levelOffered := level % 256 }).modDie d fun x =>
        { x with step := 6, levelUsed := min (level % 256) s.iodLevel }) :=
  ((if_pos h).trans (if_neg (by decide))).trans (if_pos ⟨ht, hl⟩)

theorem exec_identityMessage_fails {s : State} {d level : Nat} (h : s.dieAt d 3 = true) (hf : 2 ≤ (s.die d).idTries ∨ level % 256 = 0)
    (serial rev : Nat) : exec (.identityMessage d serial rev level true) s = .next ((s.modDie d fun x =>
      { x with idTries := (s.die d).idTries + 1, serial := serial % 2 ^ 32, rev := rev % 256, levelOffered := level % 256 }).modDie d fun x =>
        { x with fail := some .idFail }) :=
  ((if_pos h).trans (if_neg (by decide))).trans (if_neg (by omega))

theorem exec_channelFailureMaskReport {s : State} {d : Nat} (h : s.dieAt d 6 = true) (mask : Nat) :
    exec (.channelFailureMaskReport d mask) s = .next (s.modDie d fun x => { x with
      chFail := mask % 2 ^ 32, step := 7, fail := if 8 < popCount 32 (mask % 2 ^ 32) then some .stackFail else none }) := if_pos h

/-- Settles O4: each message's row is one change of its die, and two changes of a die that has tried are one. -/
theorem discoveryRecordsWhatEachDieReports : Obligations.DiscoveryRecordsWhatEachDieReports := by
  unfold Obligations.DiscoveryRecordsWhatEachDieReports
  refine ⟨fun s d h => exec_slicePllLock h, ?train, ?linkFail, ?identity, ?channels, ?deadline⟩
  case train =>
    intro s d dn up h hle
    rw [exec_leatWireTraining h, State.modDie, Die.trained_ok hle, sparesUsed_of_le fun i hi => (hle i hi).1,
      sparesUsed_of_le fun i hi => (hle i hi).2]
  case linkFail =>
    intro s d i dn up h hi h3 h139
    rw [exec_leatWireTraining h, State.modDie, Die.trained_linkFail hi h3 h139]
  case identity =>
    intro s d serial rev level h ht hl h256
    have hmod : level % 256 = level := Nat.mod_eq_of_lt h256
    rw [exec_identityMessage_passes h (by omega) (by omega), State.modDie_modDie, hmod]
    · rfl
    all_goals exact fun h0 => by simpa using congrArg Die.idTries h0
  case channels =>
    intro s d mask h h32
    rw [exec_channelFailureMaskReport h, Nat.mod_eq_of_lt h32]
    rfl
  case deadline => exact fun s n h5 h2 h7 => if_pos ⟨h5, h2, h7⟩

/-! ### The test access port -/

section
variable {s : State} (hp : s.board.pwrOk = true)

theorem State.tapLoad_unlocked (h : s.boot.testLock = false) (code : Nat) : s.tapLoad code = { s with jtag := { s.jtag with ir := code } } := by
  simp [State.tapLoad, h]

/-- R50: an instruction outside the closed set is taken with and without the test lock. -/
theorem State.tapLoad_free {code : Nat} (h : [0x00, 0x03, 0x08, 0x09, 0x20].contains code = false) :
    s.tapLoad code = { s with jtag := { s.jtag with ir := code } } := by
  simp only [State.tapLoad, h, Bool.and_false]
  rfl

theorem State.tapLoad_locked (hl : s.boot.testLock = true) {code : Nat} (h : [0x00, 0x03, 0x08, 0x09, 0x20].contains code = true) :
    s.tapLoad code = { s with jtag := { s.jtag with ir := 0xFF } } := by
  simp only [State.tapLoad, hl, h, Bool.and_self]
  rfl

include hp

theorem exec_idcode : exec .idcode s
    = .next { s with jtag := { s.jtag with ir := 0x01 }, out := s.out ++ [.tdo (bitList 32 s.idcode)] } := by
  refine (if_pos hp).trans ?_
  rw [State.tapLoad_free (by decide)]
  rfl

theorem exec_sample (pins : List Bool) : exec (.sample pins) s
    = .next { s with jtag := { s.jtag with ir := 0x02, bsr := pins }, out := s.out ++ [.tdo pins] } := by
  refine (if_pos hp).trans ?_
  rw [State.tapLoad_free (by decide)]
  rfl

theorem exec_bypass : exec .bypass s = .next { s with jtag := { s.jtag with ir := 0xFF } } := by
  refine (if_pos hp).trans ?_
  rw [State.tapLoad_free (by decide)]

/-- R33: the dies that are in use or excluded. -/
theorem exec_dieSummary : exec .dieSummary s = .next { s with jtag := { s.jtag with ir := 0x21 }, out := s.out ++
    [.tdo ((List.range 8).map fun d => decide ((s.die d).st = .active) || decide ((s.die d).st = .excluded))] } := by
  refine (if_pos hp).trans ?_
  rw [State.tapLoad_free (by decide)]
  rfl

theorem exec_testLogicReset : exec .testLogicReset s
    = .next { s with jtag := { s.jtag with ir := 1, sibs := 0 }, power := { s.power with testCom := [] } } := if_pos hp

theorem exec_sibUpdate (h : s.jtag.ir = 0x20) (n : Nat) : exec (.sibUpdate n) s = .next { s with
    jtag := { s.jtag with sibs := n % 256 }, power := { s.power with testCom := s.power.testCom.filter fun d => bit n d } } :=
  if_pos (by rw [State.tapOk, hp, decide_eq_true h]; rfl)

theorem exec_dieComPowered {d : Nat} (hb : bit s.jtag.sibs d = true) (hd : d < 8) (hoff : s.comOn d = false) :
    exec (.dieComPowered d) s = .next { s with power := { s.power with testCom := s.power.testCom ++ [d] } } :=
  if_pos (by rw [State.tapOk, hp, hb, decide_eq_true hd, hoff]; rfl)

/-! The closed set of R50, without and with the test lock. -/

section
variable (hl : s.boot.testLock = false)
include hl

theorem exec_extest_unlocked (pins bits : List Bool) : exec (.extest pins bits) s
    = .next { s with jtag := { s.jtag with ir := 0x00, bsr := bits }, out := s.out ++ [.tdo pins] } := by
  show execExtest s pins bits = _
  simp [execExtest, State.tapOk, hp, State.tapLoad_unlocked hl, State.send]

theorem exec_preload_unlocked (bits : List Bool) : exec (.preload bits) s
    = .next { s with jtag := { s.jtag with ir := 0x03, bsr := bits } } := by
  show execPreload bits s = _
  simp [execPreload, State.tapOk, hp, State.tapLoad_unlocked hl]

theorem exec_clamp_unlocked : exec .clamp s = .next { s with jtag := { s.jtag with ir := 0x08 } } :=
  (if_pos hp).trans (congrArg Host.Outcome.next (State.tapLoad_unlocked hl _))

theorem exec_highz_unlocked : exec .highz s = .next { s with jtag := { s.jtag with ir := 0x09 } } :=
  (if_pos hp).trans (congrArg Host.Outcome.next (State.tapLoad_unlocked hl _))

end

section
variable (hl : s.boot.testLock = true)
include hl

theorem exec_extest_locked (pins bits : List Bool) : exec (.extest pins bits) s = .next { s with jtag := { s.jtag with ir := 0xFF } } := by
  show execExtest s pins bits = _
  simp [execExtest, State.tapOk, hp, State.tapLoad_locked hl]

theorem exec_preload_locked (bits : List Bool) : exec (.preload bits) s = .next { s with jtag := { s.jtag with ir := 0xFF } } := by
  show execPreload bits s = _
  simp [execPreload, State.tapOk, hp, State.tapLoad_locked hl]

theorem exec_clamp_locked : exec .clamp s = .next { s with jtag := { s.jtag with ir := 0xFF } } :=
  (if_pos hp).trans (congrArg Host.Outcome.next (State.tapLoad_locked hl (by decide)))

theorem exec_highz_locked : exec .highz s = .next { s with jtag := { s.jtag with ir := 0xFF } } :=
  (if_pos hp).trans (congrArg Host.Outcome.next (State.tapLoad_locked hl (by decide)))

theorem exec_ijtagAccess_locked : exec .ijtagAccess s = .next { s with jtag := { s.jtag with ir := 0xFF } } := by
  show execIjtagAccess s = _
  simp [execIjtagAccess, State.tapOk, hp, State.tapLoad_locked hl]

end

theorem exec_ijtagAccess_unlocked (hl : s.boot.testLock = false) {bs : List Bool} {t : State}
    (h : State.scanF (List.range 8) { s with jtag := { s.jtag with ir := 0x20 } } = (bs, t)) :
    exec .ijtagAccess s = .next (t.send (.tdo bs.reverse)) := by
  show execIjtagAccess s = _
  simp [execIjtagAccess, State.tapOk, hp, State.tapLoad_unlocked hl, h]

end

/-! ### The scan path (R46-R48) -/

theorem foldl_add_b2n (f : Nat → Bool) (l : List Nat) (a : Nat) : l.foldl (fun a i => a + b2n (f i)) a = a + l.countP f := by
  induction l generalizing a with
  | nil => rfl
  | cons i l ih =>
    rw [List.foldl_cons, ih, List.countP_cons]
    cases f i with
    | true => simp only [b2n, if_true]; omega
    | false => rfl

theorem popCount_eq_countP (n x : Nat) : popCount n x = (List.range n).countP (bit x) := by
  rw [popCount, foldl_add_b2n, Nat.zero_add]

/-- One bit for each SIB and one more behind an open one, whose content is a free value. -/
theorem State.scanF_path (l : List Nat) (s : State) : ∃ bs c, State.scanF l s = (bs, { s with freeCtr := c })
    ∧ bs.length = l.length + l.countP (bit s.jtag.sibs) := by
  induction l generalizing s with
  | nil => exact ⟨[], s.freeCtr, rfl, rfl⟩
  | cons n l ih =>
    cases hb : bit s.jtag.sibs n with
    | true =>
      obtain ⟨bs, c, hs, hlen⟩ := ih s.draw.2
      refine ⟨true :: s.draw.1.getLsbD 0 :: bs, c, ?_, ?_⟩
      · simp only [State.scanF, hb, if_true, hs]; rfl
      · simp only [List.length_cons, hlen, List.countP_cons, hb, State.draw_jtag, if_true]; omega
    | false =>
      obtain ⟨bs, c, hs, hlen⟩ := ih s
      refine ⟨false :: bs, c, ?_, ?_⟩
      · simp [State.scanF, hb, hs]
      · simp only [List.length_cons, hlen, List.countP_cons, hb, Bool.false_eq_true, if_false]; omega

theorem bit_zero (i : Nat) : bit 0 i = false := by simp [bit]

/-- With every SIB closed the path is the eight SIBs. -/
theorem State.scanF_closed {s : State} (h : s.jtag.sibs = 0) (l : List Nat) : State.scanF l s = (List.replicate l.length false, s) := by
  induction l with
  | nil => rfl
  | cons n l ih => simp [State.scanF, h, bit_zero, ih, List.replicate_succ]

/-- R37: a die out of use is off outside discovery, unless test holds its common domain. -/
theorem State.comOn_off {s : State} {d : Nat} (hst : (s.die d).st ≠ .active) (hb : s.boot.step < 5 ∨ 7 ≤ s.boot.step)
    (hc : s.power.testCom.contains d = false) : s.comOn d = false := by
  have hstep : (decide (5 ≤ s.boot.step) && decide (s.boot.step < 7)) = false := by
    rw [← Bool.decide_and, decide_eq_false (by omega)]
  rw [State.comOn, Bool.and_assoc, hstep, hc, decide_eq_false hst]
  simp

/-- Settles O11: each row is one lemma above; the length of the scan path is `State.scanF_path`. -/
theorem tapInstructionsSelectTheirRegisters : Obligations.TapInstructionsSelectTheirRegisters := by
  unfold Obligations.TapInstructionsSelectTheirRegisters
  refine ⟨fun s pins bits hp hl => ?unlocked, fun s hp => ?summary, fun s hp hl h0 => ?closed, fun s hp hl => ?path,
    fun s pins bits hp hl => ?locked, fun s hp => exec_testLogicReset hp, fun s n hp h => exec_sibUpdate hp h n,
    fun s d hp hd hb hst hstep hc => exec_dieComPowered hp hb hd (State.comOn_off hst hstep hc)⟩
  case unlocked =>
    exact ⟨exec_extest_unlocked hp hl pins bits, exec_idcode hp, exec_sample hp pins, exec_preload_unlocked hp hl bits,
      exec_clamp_unlocked hp hl, exec_highz_unlocked hp hl, exec_bypass hp⟩
  case summary =>
    refine ⟨_, exec_dieSummary hp, by simp, fun d hd => ?_⟩
    simp [List.getD_eq_getElem?_getD, hd]
  case closed =>
    exact exec_ijtagAccess_unlocked hp hl (State.scanF_closed (s := { s with jtag := { s.jtag with ir := 0x20 } }) h0 (List.range 8))
  case path =>
    obtain ⟨bs, c, hs, hlen⟩ := State.scanF_path (List.range 8) { s with jtag := { s.jtag with ir := 0x20 } }
    refine ⟨_, bs.reverse, exec_ijtagAccess_unlocked hp hl hs, ?_, rfl⟩
    rw [List.length_reverse, hlen, popCount_eq_countP, List.length_range]
  case locked =>
    exact ⟨exec_extest_locked hp hl pins bits, exec_preload_locked hp hl bits, exec_clamp_locked hp hl, exec_highz_locked hp hl,
      exec_ijtagAccess_locked hp hl⟩

end Sys2Proof.Machine
end

section
/-! The FM API (R130, R559): what each query row reports, and what it refuses. -/
namespace Sys2Proof.Machine

theorem foldl_add_eq_sum_map (f : Nat → Nat) (l : List Nat) : l.foldl (fun a i => a + f i) 0 = (l.map f).sum := by
  rw [List.sum_eq_foldl, List.foldl_map]

section
variable {s : State} {h : MctpHdr} (ho : s.FmOpen h)
include ho

/-- A row that only reports answers Success. -/
theorem State.fmTell_open (op : Nat) (vals : List Nat) : s.fmTell h op vals = (s.mgmtFree h).send (.fm h op .success vals) :=
  State.fmServe_open op _ ho

theorem exec_getLdInfo (p : Nat) : exec (.getLdInfo h p) s
    = .next ((s.mgmtFree h).send (.fm h 0x5400 .success [s.totalCapacity, (s.ldsOf p).length])) :=
  congrArg Host.Outcome.next (State.fmTell_open ho _ _)

theorem exec_getLdAllocations (p : Nat) : exec (.getLdAllocations h p) s
    = .next ((s.mgmtFree h).send (.fm h 0x5401 .success ((s.ldsOf p).map fun l => (s.vd (16 * p + l)).accepted))) :=
  congrArg Host.Outcome.next (State.fmTell_open ho _ _)

theorem exec_setLdAllocations : exec (.setLdAllocations h) s = .next ((s.mgmtFree h).send (.fm h 0x5402 .unsupported [])) :=
  congrArg Host.Outcome.next (State.fmServe_open _ _ ho)

theorem exec_getQosControl (p : Nat) : exec (.getQosControl h p) s
    = .next ((s.mgmtFree h).send (.fm h 0x5403 .success ((s.ldsOf p).map fun l => s.pol.qos.getD (16 * p + l) 0))) :=
  congrArg Host.Outcome.next (State.fmTell_open ho _ _)

theorem exec_setQosControl : exec (.setQosControl h) s = .next ((s.mgmtFree h).send (.fm h 0x5404 .unsupported [])) :=
  congrArg Host.Outcome.next (State.fmServe_open _ _ ho)

theorem exec_getQosStatus (p : Nat) : exec (.getQosStatus h p) s
    = .next ((s.mgmtFree h).send (.fm h 0x5405 .success [(s.port p).devLoad])) :=
  congrArg Host.Outcome.next (State.fmTell_open ho _ _)

/-- R130: each LD's share of the weights of its port, in 1/256. -/
theorem exec_getQosAllocatedBw {p : Nat} {ws : List Nat} (hw : (s.ldsOf p).map (fun l => s.qosWeight (16 * p + l)) = ws) :
    exec (.getQosAllocatedBw h p) s = .next ((s.mgmtFree h).send (.fm h 0x5406 .success (ws.map fun w => 256 * w / ws.sum))) := by
  show execGetQosAllocatedBw h p s = _
  rw [execGetQosAllocatedBw, foldl_add_eq_sum_map fun l => s.qosWeight (16 * p + l), State.fmTell_open ho, ← hw, List.map_map]
  rfl

theorem exec_getDcdInfo : exec (.getDcdInfo h) s
    = .next ((s.mgmtFree h).send (.fm h 0x5600 .success [8, 2097152, s.totalCapacity])) :=
  congrArg Host.Outcome.next (State.fmTell_open ho _ _)

theorem exec_getHostDcRegionConfiguration {v : Nat} (hv : s.vdExists v = true) : exec (.getHostDcRegionConfiguration h v) s
    = .next ((s.mgmtFree h).send (.fm h 0x5601 .success dcRegions)) := by
  show execGetHostDcRegionConfiguration h v s = _
  rw [execGetHostDcRegionConfiguration, State.fmServe_open _ _ ho, hv]
  rfl

/-- R131: only the values of the fixed region are taken. -/
theorem exec_setDcRegionConfiguration (v r base len block : Nat) : exec (.setDcRegionConfiguration h v r base len block) s
    = .next ((s.mgmtFree h).send (.fm h 0x5602
      (if s.vdExists v && decide (r < 8) && decide ([base, len, block] = [r * 2 ^ 39, 2 ^ 39, 2097152]) then .success else .invalidInput) [])) :=
  congrArg Host.Outcome.next (State.fmServe_open _ _ ho)

theorem exec_getDcRegionExtentLists {v : Nat} (hv : s.vdExists v = true) : exec (.getDcRegionExtentLists h v) s
    = .next ((s.mgmtFree h).send (.fm h 0x5603 .success (s.vd v).extentList)) := by
  show execGetDcRegionExtentLists h v s = _
  rw [execGetDcRegionExtentLists, State.fmServe_open _ _ ho, hv]
  rfl

/-- R130: the opcodes of Table 05-4 begin at 5400h. -/
theorem exec_fmApiUnsupported {op : Nat} (hop : op < 0x5400) : exec (.fmApiUnsupported h op) s
    = .next ((s.mgmtFree h).send (.fm h op .unsupported [])) := by
  have hnot : [0x5400, 0x5401, 0x5402, 0x5403, 0x5404, 0x5405, 0x5406, 0x5600, 0x5601, 0x5602, 0x5603, 0x5604, 0x5605].contains op = false := by
    simp
    omega
  exact (if_neg (by rw [hnot]; decide)).trans (congrArg Host.Outcome.next (State.fmServe_open _ _ ho))

end

/-- Settles O16: each row is its lemma above. -/
theorem fmApiReportsTheDevice : Obligations.FmApiReportsTheDevice := by
  unfold Obligations.FmApiReportsTheDevice
  intro s h ho
  refine ⟨exec_getLdInfo ho, exec_getLdAllocations ho, exec_setLdAllocations ho, exec_getQosControl ho, exec_setQosControl ho,
    exec_getQosStatus ho, fun p ws hw => exec_getQosAllocatedBw ho hw, exec_getDcdInfo ho, fun v hv => exec_getHostDcRegionConfiguration ho hv,
    ?fixed, ?other, fun v hv => exec_getDcRegionExtentLists ho hv, fun op hop => exec_fmApiUnsupported ho hop⟩
  case fixed =>
    intro v r hv hr
    rw [exec_setDcRegionConfiguration ho, if_pos]
    simp [hv, hr]
  case other =>
    intro v r base len block hne
    rw [exec_setDcRegionConfiguration ho, if_neg]
    simp only [Bool.and_eq_true, decide_eq_true_eq, List.cons.injEq]
    rintro ⟨-, hb, hl, hk, -⟩
    exact hne.elim (· hb) fun h => h.elim (· hl) (· hk)

end Sys2Proof.Machine
end

section
/-! Power-up, slots, resets, clocks and gates: what each row does in a state that lets it act (chapters 02 to 04). -/
namespace Sys2Proof.Machine

/-! ### Discovery and the inventory -/

/-- R33: the dies take the states that they keep. -/
def State.diesFixed (s : State) : State :=
  { s.deadline 7 with dies := (s.deadline 7).dies.mapVal fun _ x => { x with st := x.fail.getD .active }, boot := { s.boot with step := 7 } }

/-- R69: a warm reset that waited for discovery begins. -/
def State.warmNow (s : State) : Option Nat → State
  | some c => s.startWarm c
  | none => s

theorem exec_inventoryFix {s : State} (hp : s.board.pwrOk = true) (h5 : s.boot.step = 5) : exec .inventoryFix s =
    .next ((if s.boot.noImage then s.diesFixed.fixInventory 0 0 else s.diesFixed.holdCom).warmNow s.boot.warmWait) := by
  refine (if_pos ⟨h5, hp⟩).trans (congrArg Host.Outcome.next ?_)
  show State.warmNow (if s.boot.noImage then s.diesFixed.fixInventory 0 0 else s.diesFixed.holdCom)
    (if s.boot.noImage then s.diesFixed.fixInventory 0 0 else s.diesFixed.holdCom).boot.warmWait = _
  split <;> rfl

/-- Table 02-6: a link that trains passes step 3, or fails with one of two codes. -/
theorem Die.trained_outcome {x : Die} (h : x.fail = none) (dn up : List Nat) : (x.trained dn up).fail = none ∧ (x.trained dn up).step = 3
    ∨ (x.trained dn up).fail = some .absent ∨ (x.trained dn up).fail = some .linkFail := by
  unfold Die.trained
  split
  · exact .inr (.inl rfl)
  · split
    · exact .inl ⟨h, rfl⟩
    · exact .inr (.inr rfl)

/-! ### Slots (R99 to R108) -/

theorem exec_slotStage {s : State} {n : Nat} (hn : n < 3) (hr : s.running = true) (h5 : 5 ≤ s.boot.step) (hf : s.boot.flashOk = true)
    (hd : s.boot.done = false) (hs : (s.slot n).staged = false) (ho : s.stagingOpen = true) (bytes : List Byte) :
    ∃ t : State, exec (.slotStage n bytes) s = .next (if t.outcomeCertain then t.noImage else t) ∧
      ((∃ b, t = (s.modBootSlot n fun x => { x with staged := true }).rejectSlot n b) ∨
        ∃ f, t = (s.modBootSlot n fun x => { x with staged := true }).modBootSlot n f ∧ ∀ x, (f x).sound = true) := by
  refine ⟨_, if_pos ⟨hn, hr, h5, hf, by rw [hd]; rfl, by rw [hs]; rfl, ho⟩, ?_⟩
  split
  case h_1 b _ => exact .inl ⟨b, rfl⟩
  case h_2 => exact .inr ⟨_, rfl, fun _ => rfl⟩

@[simp] theorem State.bootDraw_boot (s : State) : s.bootDraw.boot = s.boot := by
  unfold State.bootDraw
  split <;> rfl

theorem State.noImage_done (s : State) : s.noImage.boot.done = true ∧ s.noImage.boot.flashOwn = false := by
  simp only [State.noImage, State.bootDraw_boot]
  split <;> exact ⟨rfl, rfl⟩

/-- R85: the selection ends the boot, whatever it selects. -/
theorem exec_slotSelection {s : State} (h7 : s.boot.step = 7) (hd : s.boot.done = false) (hs : ∀ i < 3, (s.slot i).staged = true) :
    ∃ t, exec .slotSelection s = .next t ∧ t.boot.done = true ∧ t.boot.flashOwn = false := by
  have hall : (List.range 3).all (fun n => (s.slot n).staged) = true := List.all_eq_true.2 fun i hi => hs i (List.mem_range.1 hi)
  show ∃ t, execSlotSelection s = .next t ∧ _
  rw [execSlotSelection, if_pos ⟨h7, by rw [hd]; rfl, hall⟩]
  dsimp only
  generalize State.selectFrom s.slotOrder s none = r
  obtain ⟨s1, got⟩ := r
  cases got with
  | some n => exact ⟨_, rfl, rfl, rfl⟩
  | none =>
    dsimp only
    split
    · exact ⟨_, rfl, rfl, rfl⟩
    · exact ⟨_, rfl, s1.noImage_done⟩

/-! ### Application of the image (R102, R107) -/

/-- R102, R115, R50: the image, its policy and the test lock take effect, and the ports and the anchor follow. -/
def State.imageSet (s : State) (img : Image) (lock : Bool) : State :=
  ((List.range 4).foldl State.applyPort { s with
    img := img, pol := s.imagePol img
    boot := { s.boot with step := 8, testLock := lock, neverActive := s.boot.diesShort, memActive := !s.boot.diesShort }
    jtag := if lock then s.jtag.lock else s.jtag
    power := if lock then { s.power with testCom := [] } else s.power }).toAnchor

theorem exec_imageApply {s : State} {n : Nat} {img : Image} {lock : Bool} (ha : s.appliedSlot = some n) (hi : s.img.applied = false)
    (h7 : s.boot.step = 7)
    (himg : img = if s.boot.diesShort then { applied := true, device := (s.slot n).img.device, ports := (s.slot n).img.ports } else (s.slot n).img)
    (hlock : lock = ((s.slot n).img.device.testLock && !s.boot.diesShort)) (pick : Nat) :
    exec (.imageApply pick) s = if s.boot.diesShort then
        .next (((s.imageSet img lock).mediaError.postAs { cls := .deviceFatal } (0x0DF30000 + popCount 8 s.inv.active)).releaseAll pick).bootDraw
      else .next (((s.imageSet img lock).drawKeys.vdList.foldl (fun s v => s.modVd v fun x => { x with st := .ready })
        (s.imageSet img lock).drawKeys).hopStart.startLinks.releaseAll pick).bootDraw := by
  have hdev : img.device = (s.slot n).img.device := by
    rw [himg]
    split <;> rfl
  rw [← hdev] at hlock
  show execImageApply pick s = _
  dsimp only [execImageApply]
  rw [ha]
  dsimp only
  rw [if_neg (by simp [hi, h7]), ← himg, ← hlock, State.imageSet]

/-! ### Warm reset (Table 03-7) -/

/-- A row that acts, and waits for nothing, answers with its effect. -/
theorem State.orWait_if {s : State} {pick : Nat} {p : State → Prop} [DecidablePred p] {f g : State → State} (hp : p s.fresh)
    (hst : (f s.fresh).stall = []) : (s.orWait pick fun s => if p s then f s else g s) = f s.fresh := by
  have hact : (if p s.fresh then f s.fresh else g s.fresh) = f s.fresh := if_pos hp
  rw [State.orWait_next (by rw [hact]; exact hst), hact]

/-- R67: steps 4 and 5, but for the step's own number. -/
def State.warmFlushed (s : State) (acked : List Nat) : State :=
  let u := s.demoteAll.abandonCopies.flushCaches.abandonWb acked
  (u.vdList.foldl State.warmVd u).hopWarm.clearBays.warmUnits.dropPolicy

theorem exec_warmResetFlush {s : State} {acked : List Nat} (h3 : s.boot.warm = 3) (hd : s.requestsDone = true)
    (hst : (s.fresh.warmFlushed acked).stall = []) (pick : Nat) : exec (.warmResetFlush acked pick) s =
      .next { s.fresh.warmFlushed acked with boot := { (s.fresh.warmFlushed acked).boot with warm := 5 } } := by
  have hact := State.orWait_if (s := s) (pick := pick) (p := fun s => s.boot.warm = 3 ∧ s.requestsDone = true)
    (f := fun s => { s.warmFlushed acked with boot := { (s.warmFlushed acked).boot with warm := 5 } }) (g := id) ⟨h3, hd⟩
    (by dsimp only; exact hst)
  rw [← hact]
  show execWarmResetFlush acked pick s = _
  dsimp only [execWarmResetFlush, State.warmFlushed, id]

/-- R68: step 7. -/
def State.warmCompleted (s : State) (pick : Nat) : State :=
  (((s.vdList.filter fun v => s.resetAt v 5).foldl State.vdReady
    { s with boot := { s.boot with warm := 0 }, power := { s.power with refresh := [] } }).flushHeld.answerReads.releaseAll pick).releasePeers pick

theorem exec_warmResetComplete {s : State} {pick : Nat} (h6 : s.boot.warm = 6) (hst : (s.fresh.warmCompleted pick).stall = []) :
    exec (.warmResetComplete pick) s = .next (s.fresh.warmCompleted pick) :=
  congrArg Host.Outcome.next (State.orWait_if (p := fun s => s.boot.warm = 6) (f := fun s => s.warmCompleted pick) (g := id) h6 hst)

/-! ### Gates (R73 to R75) -/

section
variable {s s1 : State} {choice idle i : Nat}

theorem exec_slicePowerGate {n : Nat} (hon : s.sliceOn n = true) (hg : s.gateSt n ≠ 2) (hi : s.sliceIdle n = true) (hb : s.baysUsed n = false)
    (hk : bit s.pol.keepAwake n = false) (hs1 : s.gateBound choice (s.pol.pgMinIdle * 1000) = (i, s1)) :
    exec (.slicePowerGate n choice idle) s = if idle < i then .next s1
      else if ((((s1.slice n).frames.map (·.1)).foldl (fun (s : State) k => s.evict n k) s1).slice n).miss.isEmpty then
        .next (((((s1.slice n).frames.map (·.1)).foldl (fun (s : State) k => s.evict n k) s1).modSlice n fun x =>
          { x with frames := [], l1 := [], ro := {} }).setGate n 2)
      else .next (((s1.slice n).frames.map (·.1)).foldl (fun (s : State) k => s.evict n k) s1) := by
  show execSlicePowerGate n choice idle s = _
  rw [execSlicePowerGate, if_pos (by simp [hon, hg, hi, hb, hk]), hs1]

theorem exec_stackSelfRefresh {d : Nat} (ha : (s.die d).st = .active) (hi : s.dieIdle d = true) (hr : s.power.refresh.contains d = false)
    (hs1 : s.gateBound choice (s.pol.srMinIdle * 1000) = (i, s1)) : exec (.stackSelfRefresh d choice idle) s =
      if idle < i then .next s1 else .next { s1 with power := { s1.power with refresh := s1.power.refresh ++ [d] } } := by
  show execStackSelfRefresh d choice idle s = _
  rw [execStackSelfRefresh, if_pos (by rw [decide_eq_true ha, hi, hr]; rfl), hs1]

end

end Sys2Proof.Machine
end

section
/-! Policy writes, the CXL ports and what they carry, the management island: what each row does in a state that lets it act (chapters 04
to 06 and 21). -/
namespace Sys2Proof.Machine

/-! ### Policy writes (R112 to R116) -/

/-- R112: a port goes on with what a held policy write kept waiting, outside a warm reset. -/
def State.polGoOn (s x : State) : State :=
  if x.boot.warm ≠ 0 ∨ x.boot.held = [] then x else s.orWait 0 fun f => ({ x with stall := f.stall } : State).flushHeld

/-- R112, R115: the write at the head is taken, and its value in range takes effect. -/
theorem State.polTake_inRange {s t : State} {w : PolWrite} {ws : List PolWrite} {is : PolReg → Bool} {effect : State → PolReg → State}
    (hq : s.polq.queue = w :: ws) (hc : s.polq.cur = none) (ho : s.polOpen = true)
    (ht : t = { s with polq := { s.polq with queue := ws }.refill }) (hr : s.polInRange w.reg (s.polValue w) = true) (his : is w.reg = true) :
    s.polTake is effect = s.polGoOn (effect
      { t with pol := t.pol.set w.reg (s.polValue w), polq := { t.polq with cur := some w, result := 0 } } w.reg) := by
  subst ht
  simp only [State.polTake, State.polGoOn, hq, hc, ho, hr, his, List.isEmpty_iff, Option.isSome_none, Bool.not_true, Bool.or_self,
    Bool.false_eq_true, if_false, if_true]

/-! ### Links and IDE (R123, R149, R151, R556) -/

section
variable {s : State} {p : Nat}

theorem exec_linkUp (hp : p < 4) (hl : (s.port p).link = 1 ∨ (s.port p).link = 2) (hr : (s.port p).perst = false) {u : State}
    {rate width : Nat} {cxl mld sris : Bool} (hu : u = s.modPort p fun x => { x with
      link := 2, rate := s.trainedRate p rate, width := s.trainedWidth p width, cxlOk := cxl, mld := cxl && mld,
      sris := sris && decide (x.refMode = 1), ideSeen := false, power := 0 }) (pick : Nat) :
    exec (.linkUp p rate width cxl mld sris pick) s = .next ((if s.boot.neverActive then u.mediaError else u).releaseHeld p pick) := by
  subst hu
  refine if_neg ?_
  simp only [hr, Bool.false_eq_true, or_false]
  omega

theorem exec_ldReset {ld cause : Nat} (hl : ld < 16) (he : s.exposed p ld = true) (hk : s.portStuck p = false) :
    s.ldResetArrive p ld cause = s.vdTrigger (16 * p + ld) cause :=
  (if_neg (by rw [hk]; decide)).trans (if_pos ⟨hl, he⟩)

/-- R149: the keys of a stream are in place, and the port goes on with what it held. -/
def State.ideResumed (s : State) (p pick : Nat) : State :=
  (s.modPort p fun x => { x with ideSwitch := false }).flushHeld.releaseHeld p pick

/-- R556: a key message inside an established session of the port, over its link. -/
theorem ideKm_takes {n : Nat} (hs : s.mgmt.sessions.find n = some (some p, true)) (hl : (s.port p).link = 2) {mem : Bool}
    (hm : mem = true → s.fuses.prevGen = false) :
    ¬ (s.mgmt.sessions.find n ≠ some (some p, true) ∨ (s.port p).link ≠ 2 ∨ (mem = true ∧ s.fuses.prevGen = true)) := by
  rintro (h | h | ⟨h, hg⟩)
  · exact h hs
  · exact h hl
  · rw [hm h] at hg; cases hg

end

/-! ### CXL.mem (R139, R140, R143) -/

theorem exec_memSpecRd {s : State} {p ld dpa ep : Nat} {e : PEntry} (hl : (s.port p).link = 2) (hc : (s.port p).cxlOk = true)
    (hx : s.exposed p ld = true) (ha : s.boot.memActive = true) (hw : s.boot.warm = 0) (ho : (s.port p).outst.length < 1536)
    (he : s.entry (16 * p + ld) (dpa / 65536) = some (ep, e)) (hk : e.kind = .page ∨ e.kind = .foreign) (pick : Nat) :
    exec (.memSpecRd p ld dpa true pick) s = .next (s.prefetch (e.gaddr ep dpa) pick) := by
  refine (if_pos ⟨hl, hc, hx, ha, hw, rfl, ho⟩).trans ?_
  rw [he]
  exact if_pos hk

section
variable {s : State} {p gl half pick n : Nat} {rsp : BiRsp} {m : Miss} (hr : s.register? gl = some (n, m)) (hm : m.phase = .snoop)
include hr

theorem exec_birsp_stray (hs : m.snpHost.contains (p, half) = false) :
    exec (.birsp p gl half rsp pick) s = .next (s.modPort p fun x => { x with biStray := x.biStray + 1 }) := by
  show execBirsp p gl half rsp pick s = _
  simp only [execBirsp, hr, hs, Bool.false_eq_true, and_false, if_false]

include hm

theorem exec_birsp_awaited (hs : m.snpHost.contains (p, half) = true) {m1 : Miss} (h1 : m1 = { m with
      snpHost := m.snpHost.erase (p, half), keepHost := if decide (rsp = .s) && !m.keepHost.contains p then m.keepHost ++ [p] else m.keepHost }) :
    exec (.birsp p gl half rsp pick) s = .next (((s.hostAnswered (ownNum gl) p m1).answered n gl pick m1).wakeAll pick) := by
  subst h1
  show execBirsp p gl half rsp pick s = _
  simp only [execBirsp, hr]
  exact if_pos ⟨hm, hs⟩

theorem exec_bisnpTimeout (hs : (m.snpHost.any fun h => decide (h.1 = p)) = true) : exec (.bisnpTimeout p gl pick) s = .next
    (((s.lineEvent gl 1 { kind := .generalMedia, ty := .dataPath }).post { cls := .correctable, code := 4, addr := gl * 128, unit := p }).hostLost
      p gl pick) := by
  show execBisnpTimeout p gl pick s = _
  simp only [execBisnpTimeout, hr]
  exact if_pos ⟨hm, hs⟩

end

/-! ### Answers: the last message out is the answer -/

theorem State.getLast_send (s : State) (o : OutMsg) : (s.send o).out.getLast? = some o := by simp

theorem State.getLast_mgmtAnswer (s : State) (h : MctpHdr) (cmd code : Nat) (vals : List Nat) :
    (s.mgmtAnswer h cmd code vals).out.getLast? = some (.mgmt h cmd code vals) := State.getLast_send _ _

theorem fmRow_answers {s : State} {h : MctpHdr} {c : Instr} {op : Nat} {f : State → RetCode × List Nat × State} (ho : s.FmOpen h)
    (he : exec c s = .next (s.fmServe h op f)) : ∃ t rc vals, exec c s = .next t ∧ t.out.getLast? = some (.fm h op rc vals) :=
  ⟨_, _, _, he, by rw [State.fmServe_open op f ho]; exact State.getLast_send _ _⟩

theorem pldmRow_answers {s : State} {h : MctpHdr} {c : Instr} {op : Nat} {f : State → Nat × List Nat × State} (ho : s.served h 1 = true)
    (he : exec c s = .next (s.pldmServe h op f)) : ∃ t code vals, exec c s = .next t ∧ t.out.getLast? = some (.mgmt h op code vals) :=
  ⟨_, _, _, he, by rw [State.pldmServe, if_pos ho]; exact State.getLast_mgmtAnswer _ _ _ _ _⟩

/-- R553: a request that the negotiation does not allow yet, or that fails, is answered with an error. -/
theorem spdmRow_answers {s : State} {h : MctpHdr} {c : Instr} {op need : Nat} {f : State → Option (List Nat × State)} (ho : s.spdmServed h = true)
    (he : exec c s = .next (s.spdmServe h op need f)) : ∃ t code vals, exec c s = .next t ∧ t.out.getLast? = some (.mgmt h op code vals) := by
  obtain ⟨u, code, vals, hu⟩ : ∃ (u : State) (code : Nat) (vals : List Nat), s.spdmServe h op need f = u.mgmtAnswer h op code vals := by
    rw [State.spdmServe, if_neg (by rw [ho]; decide)]
    split
    · exact ⟨_, _, _, rfl⟩
    · split <;> exact ⟨_, _, _, rfl⟩
  exact ⟨_, code, vals, he, by rw [hu]; exact State.getLast_mgmtAnswer _ _ _ _ _⟩

/-! ### The mailbox (R148) -/

/-- Table 05-8: the opcode of a mailbox command. -/
def MbCmd.opcode : MbCmd → Nat
  | .identify => 0x0001 | .backgroundStatus => 0x0002 | .getEvents _ => 0x0100 | .clearEvents _ _ _ => 0x0101 | .getEventInterrupt => 0x0102
  | .setEventInterrupt _ _ => 0x0103 | .getTimestamp => 0x0300 | .setTimestamp _ => 0x0301 | .supportedLogs => 0x0400 | .getLog _ => 0x0401
  | .identifyMemory => 0x4000 | .healthInfo => 0x4200 | .getAlerts => 0x4201 | .setAlerts _ => 0x4202 | .poisonList _ _ => 0x4300
  | .injectPoison _ _ => 0x4301 | .clearPoison _ _ _ => 0x4302 | .scanCapabilities _ _ => 0x4303 | .scanMedia _ _ => 0x4304
  | .scanResults => 0x4305 | .sanitize => 0x4400 | .secureErase => 0x4401 | .dcConfiguration => 0x4800 | .dcExtentList _ => 0x4801
  | .dcAddResponse _ => 0x4802 | .dcRelease _ => 0x4803 | .unsupported op => op

/-- Every mailbox command is served under its opcode. -/
theorem State.mbDo_serves (s : State) (v : Nat) (m : MbCmd) : ∃ early f, s.mbDo v m = s.mbServe v m.opcode early f := by
  cases m <;> dsimp only [State.mbDo, State.mbTell] <;> exact ⟨_, _, rfl⟩

section
variable {s : State} {v : Nat} (ho : s.MailboxOpen v)
include ho

theorem State.not_stuck_of_mailboxOpen : ¬ (s.mbReach v && decide (s.boot.warm = 0) && s.portStuck (v / 16)) = true := by
  obtain ⟨-, -, hk, -⟩ := ho
  rw [hk, Bool.and_false]
  decide

theorem State.mailbox_quick {m : MbCmd} (hm : m.stalls = false) (pick : Nat) : s.mailbox v m pick = s.mbDo v m :=
  (if_neg (State.not_stuck_of_mailboxOpen ho)).trans (if_neg (by rw [hm]; decide))

theorem State.mailbox_stalls {m : MbCmd} (hm : m.stalls = true) (pick : Nat) : s.mailbox v m pick = s.orWait pick fun s => s.mbDo v m :=
  (if_neg (State.not_stuck_of_mailboxOpen ho)).trans (if_pos hm)

theorem State.fresh_mailboxOpen : s.fresh.MailboxOpen v := by
  obtain ⟨hr, hw, hk, ha⟩ := ho
  exact ⟨(State.fresh_mbReach s v).trans hr, hw, hk, ha⟩

theorem mailboxRow_answers {c : Instr} {m : MbCmd} {op : Nat} (he : exec c s = .next (s.mailbox v m)) (hm : m.stalls = false)
    (hop : m.opcode = op) : ∃ t rc vals, exec c s = .next t ∧ t.out.getLast? = some (.mb v op rc vals) := by
  subst hop
  obtain ⟨early, f, hf⟩ := s.mbDo_serves v m
  refine ⟨_, (f s).1, (f s).2.1, he, ?_⟩
  rw [State.mailbox_quick ho hm, hf, State.mbServe_open _ _ _ ho]
  exact State.getLast_send _ _

/-- A command that writes lines or frees pages answers once nothing is awaited. -/
theorem exec_mailbox_stalls {c : Instr} {m : MbCmd} {op pick : Nat} {early : Bool} {f : State → RetCode × List Nat × State} {rc : RetCode}
    {vals : List Nat} {u : State} (he : exec c s = .next (s.mailbox v m pick)) (hm : m.stalls = true)
    (hdo : s.fresh.mbDo v m = s.fresh.mbServe v op early f) (hf : f s.fresh = (rc, vals, u)) (hst : (u.send (.mb v op rc vals)).stall = []) :
    exec c s = .next (u.send (.mb v op rc vals)) := by
  have hanswer : s.fresh.mbDo v m = u.send (.mb v op rc vals) := by
    rw [hdo, State.mbServe_open _ _ _ (State.fresh_mailboxOpen ho), hf]
  rw [he, State.mailbox_stalls ho hm, State.orWait_next (by rw [hanswer]; exact hst), hanswer]

end

/-- R148, R181: a VD that is sanitized or erased holds no page and has a new key. -/
def State.erased (s : State) (v : Nat) : State := ((s.modVd v fun x => { x with background := none }).freePages v fun _ => true).drawKey v

theorem exec_backgroundOperationDone_erase {s : State} {v : Nat} (hb : (s.vd v).background = some .sanitize ∨ (s.vd v).background = some .erase)
    (hst : (s.fresh.erased v).stall = []) (pick : Nat) : exec (.backgroundOperationDone v pick) s = .next (s.fresh.erased v) := by
  refine congrArg Host.Outcome.next ((State.orWait_next (Eq.trans (congrArg State.stall ?done) hst)).trans ?done)
  rcases hb with hb | hb <;> simp only [State.fresh_vd, hb] <;> rfl

/-! ### The management island: gauges and logs (R531, R547) -/

section
variable {s : State} {n t : Nat} (he : (s.gauge n).enable = true) (hp : (s.gauge n).period ≠ 0) (ht : s.gaugeNow (s.gauge n) = t)
  (hgrid : ((t : Int) - (s.gauge n).wstart) % (s.gauge n).period = 0)
include he hp ht hgrid

/-- R531: a gauge is sampled where it is enabled and its time is on its grid. -/
theorem State.gauge_due : ¬ (!(s.gauge n).enable || decide ((s.gauge n).period = 0) ||
    decide (((s.gaugeNow (s.gauge n) : Int) - (s.gauge n).wstart) % (s.gauge n).period ≠ 0)) = true := by
  rw [ht]
  simp [he, hp, hgrid]

theorem exec_gaugeSampleInstant_level (hl : gLevel (s.gauge n).src = true) (units : Nat) :
    exec (.gaugeSampleInstant n units) s = .next (s.modGauge n fun g => g.capture t (s.gaugeLevel n (s.gauge n))) := by
  subst ht
  exact (if_neg (State.gauge_due he hp rfl hgrid)).trans (if_pos hl)

theorem exec_gaugeSampleInstant_rate (hl : gLevel (s.gauge n).src = false) (hr : gRate (s.gauge n).src = true)
    (hs : gSource (s.gauge n).src ≠ 0x40) (units : Nat) : exec (.gaugeSampleInstant n units) s =
      .next (s.modGauge n fun g => { (if g.period ≤ t then g.capture (t - g.period) units else g) with last := 0 }) := by
  subst ht
  refine (if_neg (State.gauge_due he hp rfl hgrid)).trans ((if_neg (by rw [hl]; decide)).trans ((if_pos hr).trans ?_))
  simp only [hs, if_false]

end

/-- R547: a message without flags that is served, and that needs neither security nor an image. -/
theorem State.mgmtServe_served {s : State} {h : MctpHdr} (ho : s.served h 0x7E = true) (cmd : Nat) (f : State → State) :
    s.mgmtServe h cmd 0 false true f = f s := by
  simp [State.mgmtServe, ho]

/-! ### Extents (R133) -/

@[simp] theorem State.event_stall (s : State) (v log : Nat) (r : EvRec) : (s.event v log r).stall = s.stall := by
  unfold State.event
  dsimp only
  split <;> rfl

theorem State.foldl_event_stall {α : Type} (v log : Nat) (r : α → EvRec) (l : List α) (s : State) :
    (l.foldl (fun s e => s.event v log (r e)) s).stall = s.stall := by
  induction l generalizing s with
  | nil => rfl
  | cons e l ih => rw [List.foldl_cons, ih, State.event_stall]

@[simp] theorem State.mgmtFree_stall (s : State) (h : MctpHdr) : (s.mgmtFree h).stall = s.stall := by
  unfold State.mgmtFree
  dsimp only
  split <;> rfl

/-- R133: what a release that was accepted does: it asks the host, or drops the extents. -/
def State.releaseExtents (s : State) (v : Nat) (xs : List (Nat × Nat)) (forced : Bool) : State :=
  if forced then s.dropExtents v .forcedRelease xs
  else xs.foldl (fun s e => s.event v 4 { kind := .dynamicCapacity, ty := .releaseRequested, dpa := e.1, len := e.2 }) s

theorem exec_initiateDynamicCapacityRelease {s : State} {h : MctpHdr} {v : Nat} {xs : List (Nat × Nat)} {forced : Bool} (ho : s.FmOpen h)
    (hv : s.vdExists v = true) (hr : s.releaseCheck v xs = .success) (hst : (s.fresh.releaseExtents v xs forced).stall = []) (pick : Nat) :
    exec (.initiateDynamicCapacityRelease h v xs forced pick) s =
      .next (((s.fresh.releaseExtents v xs forced).mgmtFree h).send (.fm h 0x5605 .success [])) := by
  have hf : s.fresh.FmOpen h := ho
  have hv' : s.fresh.vdExists v = true := hv
  have hr' : s.fresh.releaseCheck v xs = .success := hr
  have hserve : (s.fresh.fmServe h 0x5605 fun s =>
      if !s.vdExists v then (.invalidInput, [], s)
      else match s.releaseCheck v xs with
        | .success => (.success, [], s.releaseExtents v xs forced)
        | rc => (rc, [], s)) = ((s.fresh.releaseExtents v xs forced).mgmtFree h).send (.fm h 0x5605 .success []) := by
    rw [State.fmServe_open _ _ hf, hv', hr']
    rfl
  refine congrArg Host.Outcome.next ((State.orWait_next ?_).trans hserve)
  exact (congrArg State.stall hserve).trans (by simpa using hst)

end Sys2Proof.Machine
end

section
/-! O59: the commands of the device have their effect. -/
namespace Sys2Proof.Machine

/-- Settles O59: each row is its lemma above, or the branch of its meaning that the state's conditions select. -/
theorem deviceCommandsComplete : Obligations.DeviceCommandsComplete := by
  unfold Obligations.DeviceCommandsComplete
  refine ⟨?inventory, ?wires, ?identity, ?channels, ?training, ?stage, ?select, ?apply, ?resets, ?taskStop, ?flush, ?reapply, ?complete,
    ?portReset, ?glitch, ?loss, ?window, ?refReturn, ?quiet, ?thermal, ?powerGate, ?wake, ?selfRefresh, ?leatEcc, ?tap, ?policyArrive,
    ?policyTake, ?policyComplete, ?linkUp, ?linkDown, ?ldReset, ?ide, ?mem, ?specRd, ?snoopAnswer, ?conflict, ?fm, ?release, ?offer,
    ?mailbox, ?poison, ?erase, ?vdTrigger, ?vdSteps, ?errWrites, ?errRing, ?leak, ?retireStart, ?sliceRetired, ?dieRetired, ?pageMoves,
    ?lostSet, ?coalesce, ?gauge, ?register, ?logs, ?pldm, ?spdm, ?event⟩
  case inventory =>
    rintro s t hp h5 rfl
    refine ⟨fun hn hw => ?_, fun hn c hw => ?_, fun hn hw => ?_⟩ <;> rw [exec_inventoryFix hp h5, hn, hw] <;> rfl
  case wires =>
    exact fun s d dn up h => ⟨_, exec_leatWireTraining h dn up, Die.trained_outcome (State.fail_of_dieAt h) dn up⟩
  case identity =>
    rintro s t d serial rev level h
    refine ⟨exec_identityMessage_bad h serial rev level, ?_⟩
    rintro rfl
    exact ⟨fun ht hl => exec_identityMessage_passes h ht hl serial rev, fun hf => exec_identityMessage_fails h hf serial rev⟩
  case channels => exact fun s d mask h => exec_channelFailureMaskReport h mask
  case training =>
    exact fun s p hp h5 hp4 hl hperst hn hc hm hr => if_pos (by rcases hr with hr | hr <;> simp [hp, h5, hp4, hl, hperst, hn, hc, hm, hr])
  case stage => exact fun s n bytes hn hr h5 hf hd hs ho => exec_slotStage hn hr h5 hf hd hs ho bytes
  case select => exact fun s h7 hd hs => exec_slotSelection h7 hd hs
  case apply =>
    rintro s t n pick img lock ha hi h7 himg hlock ht
    obtain rfl : s.imageSet img lock = t := by rw [ht, State.imageSet]
    exact ⟨fun h => (exec_imageApply ha hi h7 himg hlock pick).trans (if_pos h),
      fun h => (exec_imageApply ha hi h7 himg hlock pick).trans (if_neg (by rw [h]; decide))⟩
  case resets => exact fun s hr => ⟨if_pos hr, if_pos hr⟩
  case taskStop => exact fun s h => if_pos h
  case flush =>
    rintro s u t acked pick h3 hd rfl ht hst
    obtain rfl : s.fresh.warmFlushed acked = t := by rw [ht, State.warmFlushed]
    exact exec_warmResetFlush h3 hd hst pick
  case reapply => exact fun s h => ⟨(if_pos h).trans (if_pos rfl), (if_pos h).trans (if_neg (by decide))⟩
  case complete =>
    rintro s t u pick h6 rfl ht hst
    obtain rfl : s.fresh.warmCompleted pick = t := by rw [ht, State.warmCompleted]
    exact exec_warmResetComplete h6 hst
  case portReset =>
    intro s p pick hp hpwr
    have hon : ¬ (4 ≤ p ∨ (!s.board.pwrOk) = true) := by rw [hpwr]; simp [hp]
    refine ⟨if_neg hon, fun hr => (if_neg hon).trans ?_, fun hr hl => (if_neg hon).trans (if_pos ⟨hr, hl⟩)⟩
    exact congrArg (fun t : State => Host.Outcome.next (t.modPort p fun x => { x with perst := true })) (if_pos hr)
  case glitch => exact fun s r ns hm hns ha => if_pos (by simp [hm, hns, ha])
  case loss => exact fun s r pick hm h => if_pos (by simpa [hm] using h)
  case window =>
    rintro s r hz pick m hm rfl
    have hon : ¬ (!s.monitored r) = true := by rw [hm]; decide
    exact ⟨fun hi => (if_neg hon).trans (if_pos hi), fun hi hv => (if_neg hon).trans ((if_neg (by rw [hi]; decide)).trans (if_neg (by rw [hv]; decide))),
      fun hi hv => (if_neg hon).trans ((if_neg (by rw [hi]; decide)).trans (if_pos hv))⟩
  case refReturn =>
    intro s r hm hv ho
    have hon : (s.monitored r && !(s.refMon r).valid && !(s.refMon r).out) = true := by rw [hm, hv, ho]; rfl
    exact ⟨fun ha => (if_pos hon).trans (if_neg fun h => ha.elim (· h.1) (· h.2)), fun ha hs => (if_pos hon).trans (if_pos ⟨ha, hs⟩)⟩
  case quiet =>
    rintro s s1 pick hm hb rfl
    have hon : ¬ (!s.monitored 0 || s.clk.quietBad) = true := by rw [hm, hb]; decide
    exact ⟨fun h => (if_neg hon).trans (if_pos h), fun h => (if_neg hon).trans (if_neg h)⟩
  case thermal =>
    rintro s t u d rs hot thr ha rfl rfl rfl rfl
    have hon : ¬ (s.die d).st ≠ .active := not_not.2 ha
    exact ⟨fun h => (if_neg hon).trans (if_neg (by omega)), fun h => (if_neg hon).trans (if_pos h)⟩
  case powerGate =>
    intro s s1 n choice idle i hon hg hi hb hk hs1
    have hrow := exec_slicePowerGate (idle := idle) hon hg hi hb hk hs1
    refine ⟨fun h => hrow.trans (if_pos h), fun u h hu => ⟨fun hm => ?_, fun hm => ?_⟩⟩ <;> rw [hrow, if_neg (by omega), ← hu]
    · exact if_neg (by simpa using hm)
    · exact if_pos (by simpa using hm)
  case wake => exact fun s n pick => rfl
  case selfRefresh =>
    intro s s1 d choice idle i ha hi hr hs1
    have hrow := exec_stackSelfRefresh (idle := idle) ha hi hr hs1
    exact ⟨fun h => hrow.trans (if_pos h), fun h => hrow.trans (if_neg (by omega))⟩
  case leatEcc =>
    intro s die gl sec h
    have hon : ¬ (!s.leatOn die) = true := by rw [h]; decide
    exact ⟨if_neg hon, if_neg hon⟩
  case tap => exact fun s pins hp => ⟨exec_idcode hp, exec_sample hp pins, exec_bypass hp⟩
  case policyArrive =>
    exact fun s r x v hv hw => (if_pos hv).trans (congrArg Host.Outcome.next (State.winWrite_open _ _ hw rfl))
  case policyTake =>
    intro s t u fin w ws pick hq hc ho ht hfin hr hu
    have hrow : ∀ is effect, is w.reg = true → s.polTake is effect = fin (effect u w.reg) := fun is effect his => by
      rw [State.polTake_inRange hq hc ho ht hr his, hu, hfin]
      rfl
    have hnext : ∀ {is effect x}, is w.reg = true → effect u w.reg = x → Host.Outcome.next (s.polTake is effect) = (.next (fin x) : Res) :=
      fun his hx => congrArg Host.Outcome.next ((hrow _ _ his).trans (congrArg fin hx))
    refine ⟨fun h => hnext (by rw [h]) rfl, fun h => hnext (by rw [h]) rfl, fun h => hnext (by rw [h]) rfl, fun h => hnext (by rw [h]) rfl,
      fun h => hnext (by rw [h]) rfl, fun k => ⟨fun h => hnext (by rw [h]) rfl, fun h => hnext (by rw [h]) rfl,
        fun h => hnext (by rw [h]) rfl, fun h => hnext (by rw [h]) rfl, fun h => hnext (by rw [h]) rfl, fun h => hnext (by rw [h]) rfl,
        fun h => hnext (by rw [h]) (by rw [h]), fun x hx h => hnext (by rw [h]) hx.symm⟩,
      fun x hx h => hnext (by rw [h]) hx.symm, fun x hx h => hnext (by rcases h with h | h | h <;> rw [h]) hx.symm⟩
  case policyComplete =>
    intro s w h
    show execPolicyWriteComplete s = _
    simp only [execPolicyWriteComplete, h]
  case linkUp => exact fun s u p rate width pick cxl mld sris hp hl hr hu => exec_linkUp hp hl hr hu pick
  case linkDown =>
    intro s p pick hl
    have hup : ¬ ((s.port p).link = 0 ∨ (s.port p).link = 3) := by omega
    exact ⟨(if_neg hup).trans (if_pos rfl), (if_neg hup).trans (if_neg (by decide)), if_neg hup⟩
  case ldReset =>
    exact fun s p ld hl he hk => ⟨congrArg Host.Outcome.next (exec_ldReset hl he hk), congrArg Host.Outcome.next (exec_ldReset hl he hk),
      congrArg Host.Outcome.next (exec_ldReset hl he hk)⟩
  case ide =>
    intro s u t p n stream pick skid hs hl ht hst
    obtain rfl : u.fresh.ideResumed p pick = t := by rw [ht, State.ideResumed]
    have hgo : u.orWait pick (fun s => s.ideResumed p pick) = u.fresh.ideResumed p pick := State.orWait_next hst
    have hio : ¬ _ := ideKm_takes (mem := false) hs hl (fun h => nomatch h)
    refine ⟨?_, ?_, fun hg => ?_, fun hg => ?_⟩ <;> rintro rfl
    · exact (if_neg hio).trans (congrArg Host.Outcome.next hgo)
    · exact (if_neg hio).trans (congrArg Host.Outcome.next hgo)
    · exact (if_neg (ideKm_takes hs hl fun _ => hg)).trans (congrArg Host.Outcome.next hgo)
    · exact (if_neg (ideKm_takes hs hl fun _ => hg)).trans (congrArg Host.Outcome.next hgo)
  case mem => exact fun s r ld pick hit => ⟨rfl, rfl, rfl⟩
  case specRd => exact fun s p ld dpa pick ep e hl hc hx ha hw ho he hk => exec_memSpecRd hl hc hx ha hw ho he hk pick
  case snoopAnswer =>
    exact fun s p gl half pick n rsp m m1 hr hm => ⟨fun hs h1 => exec_birsp_awaited hr hm hs h1, fun hs => exec_birsp_stray hr hs,
      fun hs => exec_bisnpTimeout hr hm hs⟩
  case conflict => exact fun s p gl tag => ⟨fun h => if_pos h, fun h => if_neg (by rw [h]; decide)⟩
  case fm =>
    intro s h p v r b l k xs sh c op ho hc
    simp only [List.mem_cons, Prod.mk.injEq, List.not_mem_nil, or_false] at hc
    rcases hc with ⟨rfl, rfl⟩ | ⟨rfl, rfl⟩ | ⟨rfl, rfl⟩ | ⟨rfl, rfl⟩ | ⟨rfl, rfl⟩ | ⟨rfl, rfl⟩ | ⟨rfl, rfl⟩ | ⟨rfl, rfl⟩ | ⟨rfl, rfl⟩
      | ⟨rfl, rfl⟩ | ⟨rfl, rfl⟩ | ⟨rfl, rfl⟩
    all_goals exact fmRow_answers ho rfl
  case release =>
    intro s h v pick xs ho hv hr
    refine ⟨exec_initiateDynamicCapacityRelease (forced := false) ho hv hr ?_ pick, ?_⟩
    · exact State.foldl_event_stall v 4 _ xs s.fresh
    · rintro t rfl hst
      exact exec_initiateDynamicCapacityRelease (forced := true) ho hv hr (by rw [State.send_stall, State.mgmtFree_stall] at hst; exact hst) pick
  case offer =>
    intro s v b o h
    show execExtentOfferTimeout v b s = _
    simp only [execExtentOfferTimeout, h]
  case mailbox =>
    intro s v a b all xs m x es c op ho hc
    simp only [List.mem_cons, Prod.mk.injEq, List.not_mem_nil, or_false] at hc
    rcases hc with ⟨rfl, rfl⟩ | ⟨rfl, rfl⟩ | ⟨rfl, rfl⟩ | ⟨rfl, rfl⟩ | ⟨rfl, rfl⟩ | ⟨rfl, rfl⟩ | ⟨rfl, rfl⟩ | ⟨rfl, rfl⟩ | ⟨rfl, rfl⟩
      | ⟨rfl, rfl⟩ | ⟨rfl, rfl⟩ | ⟨rfl, rfl⟩ | ⟨rfl, rfl⟩ | ⟨rfl, rfl⟩ | ⟨rfl, rfl⟩ | ⟨rfl, rfl⟩ | ⟨rfl, rfl⟩ | ⟨rfl, rfl⟩ | ⟨rfl, rfl⟩
      | ⟨rfl, rfl⟩ | ⟨rfl, rfl⟩ | ⟨rfl, rfl⟩ | ⟨rfl, rfl⟩
    all_goals exact mailboxRow_answers ho rfl rfl rfl
  case poison =>
    intro s t v dpa pick d es x ho hst
    have hact : s.fresh.boot.memActive = true := ho.2.2.2
    refine ⟨fun rc vals u hw ht => ?_, fun rc vals u hw ht => ?_, fun hr ht => ?_⟩ <;> rw [ht] at hst ⊢
    · exact exec_mailbox_stalls ho (m := .injectPoison dpa x) (early := false)
        (f := fun s => if s.boot.memActive then s.writeHalf v dpa none x else (.refused, [], s)) rfl rfl rfl ((if_pos hact).trans hw) hst
    · exact exec_mailbox_stalls ho (m := .clearPoison dpa d x) (early := false)
        (f := fun s => s.writeHalf v dpa (some d) x) rfl rfl rfl hw hst
    · have hr' : s.fresh.releaseCheck v es = .success := hr
      exact exec_mailbox_stalls ho (m := .dcRelease es) (early := false) (f := fun s => match s.releaseCheck v es with
        | .success => (.success, [], s.dropExtents v .released es)
        | rc => (rc, [], s)) rfl rfl rfl (by simp only [hr']) hst
  case erase =>
    intro s t v pick hst hb ht
    obtain rfl : s.fresh.erased v = t := by rw [ht, State.erased]
    exact exec_backgroundOperationDone_erase hb hst pick
  case vdTrigger => exact fun s v c h1 h7 => if_pos ⟨h1, h7⟩
  case vdSteps =>
    refine fun s v pick x => ⟨fun h => if_pos h, fun h => if_pos h, fun t h ht hst => ?_, fun h hw => if_pos ⟨h, hw⟩⟩
    rw [ht] at hst ⊢
    exact congrArg Host.Outcome.next (State.orWait_if (p := fun s => s.resetAt v 4 = true) (f := fun s => (s.vdSweep v).resetTo v 5) (g := id) h hst)
  case errWrites =>
    exact fun s v hi w hw => ⟨exec_errRingCtrlWrite hw w, exec_errRingHeadWrite hw w, exec_errRingBaseWrite hw hi w⟩
  case errRing =>
    exact fun s v => ⟨exec_errorRecordWriteFail, fun hb hh hr => exec_errRingMsixDefer_held hb hh hr, fun hb h => exec_errRingMsixDefer_idle hb h⟩
  case leak =>
    rintro s t cls c choice
    refine ⟨rfl, fun h => exec_meterLeak_class h s, ?_⟩
    rintro rfl
    exact (apply_ite Host.Outcome.next _ _ _).symm
  case retireStart =>
    intro s cls i hmem hbusy hleast
    have hmine : ({ cls := cls, inst := i, step := 0 } : Retire) ∈ s.flt.retiring.filter fun r =>
        decide (r.cls = cls) && decide (meterDie cls r.inst = meterDie cls i) && decide (r.step = 0) := List.mem_filter.2 ⟨hmem, by simp⟩
    refine if_pos ⟨List.any_eq_true.2 ⟨_, hmine, by simp⟩, List.all_eq_true.2 fun r hr => ?_, by rw [hbusy]; rfl⟩
    obtain ⟨hr, hsame⟩ := List.mem_filter.1 hr
    simp only [Bool.and_eq_true, decide_eq_true_eq] at hsame ⊢
    exact hleast r hr hsame.1.1 hsame.1.2 hsame.2
  case sliceRetired =>
    intro s s1 n pick h2 hm h1
    rw [h1]
    exact if_pos ⟨h2, by rw [hm]; rfl⟩
  case dieRetired =>
    intro s s1 d known keys
    refine ⟨fun h3 => if_pos h3, fun h6 hn ha => if_neg ?_, fun h6 hgo hk h1 => ?_⟩
    · rintro ⟨-, hgo⟩
      simp [hn, ha] at hgo
    · rw [h1, hk]
      exact if_pos ⟨h6, by simpa using hgo⟩
  case pageMoves =>
    intro s t ch pick ht hst
    rw [ht] at hst ⊢
    exact congrArg Host.Outcome.next (State.orWait_next hst)
  case lostSet =>
    rintro s s1 n set hs rfl
    exact ⟨exec_lostSetSweep_open hs rfl, exec_lostSetSweep_whole hs rfl⟩
  case coalesce =>
    intro s s1 cls code unit c hc h1
    exact ⟨fun hw => (exec_logCoalesceTimer hc h1).trans (if_pos hw), fun hw => (exec_logCoalesceTimer hc h1).trans (if_neg hw)⟩
  case gauge =>
    exact fun s n units t he hp ht hgrid => ⟨fun hl => exec_gaugeSampleInstant_level he hp ht.symm hgrid hl units,
      fun hl hr h40 => exec_gaugeSampleInstant_rate he hp ht.symm hgrid hl hr h40 units⟩
  case register => exact fun s m w hr => ⟨if_pos hr, fun hb => if_pos (by rw [hb, hr]; rfl)⟩
  case logs =>
    intro s h seq k ho h0 h60
    have hk : ¬ (k = 0 ∨ 60 < k) := by omega
    exact ⟨congrArg Host.Outcome.next ((State.mgmtServe_served ho 0x10 _).trans (if_neg hk)),
      congrArg Host.Outcome.next ((State.mgmtServe_served ho 0x11 _).trans (if_neg hk))⟩
  case pldm =>
    intro s h n m r c op ho hm hc
    simp only [List.mem_cons, Prod.mk.injEq, List.not_mem_nil, or_false] at hc
    rcases hc with ⟨rfl, rfl⟩ | ⟨rfl, rfl⟩ | ⟨rfl, rfl⟩ | ⟨rfl, rfl⟩ | ⟨rfl, rfl⟩ | ⟨rfl, rfl⟩ | ⟨rfl, rfl⟩ | ⟨rfl, rfl⟩ | ⟨rfl, rfl⟩
      | ⟨rfl, rfl⟩ | ⟨rfl, rfl⟩ | ⟨rfl, rfl⟩
    case inr.inr.inr.inr.inr.inr.inr.inr.inr.inr.inr => exact pldmRow_answers ho (if_neg (by simpa using hm))
    all_goals exact pldmRow_answers ho rfl
  case spdm =>
    intro s h n c op ho hc
    simp only [List.mem_cons, Prod.mk.injEq, List.not_mem_nil, or_false] at hc
    rcases hc with ⟨rfl, rfl⟩ | ⟨rfl, rfl⟩ | ⟨rfl, rfl⟩ | ⟨rfl, rfl⟩ | ⟨rfl, rfl⟩ | ⟨rfl, rfl⟩ | ⟨rfl, rfl⟩ | ⟨rfl, rfl⟩ | ⟨rfl, rfl⟩
      | ⟨rfl, rfl⟩
    all_goals exact spdmRow_answers ho rfl
  case event =>
    intro s i e he h4 hr
    show execPlatformEventResend i false s = _
    simp only [execPlatformEventResend, he, hr, Bool.false_or, decide_eq_true_eq, if_neg (Nat.not_le.2 h4)]

end Sys2Proof.Machine
end

section
/-!
O57 and O58 speak of every step, so each operation that a row can reach has one lemma here that says that it keeps the state
(`Keeps`): an update of fields that the invariants do not read, or a composition of operations that keep it. The lemmas follow the
model's files; a row's lemma (`exec…_keeps`) follows from those of the operations it calls. Only the rows of power, reset and boot
change what the power-up order reads, and are proved apart (`Upholds`).
-/
namespace Sys2Proof.Machine

/-! ### The byte memories -/

theorem Tab.sortedFrom_keep {α : Type} {t : Tab α} {lo : Nat} (h : Tab.sortedFrom lo t = true) (f : Nat → α → Bool) :
    Tab.sortedFrom lo (Tab.keep t f) = true := by
  induction t generalizing lo with
  | nil => rfl
  | cons e t ih =>
    obtain ⟨k, v⟩ := e
    simp only [Tab.sortedFrom, Bool.and_eq_true, decide_eq_true_eq] at h
    simp only [Tab.keep, List.filter_cons]
    split
    · simp only [Tab.sortedFrom, Bool.and_eq_true, decide_eq_true_eq]
      exact ⟨h.1, ih h.2⟩
    · exact ih (Tab.sortedFrom_mono (by omega) h.2)

theorem Memory.wf_keep {m : List Host.Cell} (h : Memory.wf m) (f : Nat → Byte → Bool) : Memory.wf (Tab.keep m f) := by
  simp only [Memory.wf, Tab.wfD, Bool.and_eq_true, List.all_eq_true] at h ⊢
  exact ⟨Tab.sortedFrom_keep h.1 f, fun e he => h.2 e (List.mem_of_mem_filter he)⟩

/-- Cells moved to other addresses, over a memory in canonical form. -/
theorem Memory.wf_foldl_setD {m : List Host.Cell} (h : Memory.wf m) (cells : List Host.Cell) (at_ : Host.Cell → Nat) :
    Memory.wf (cells.foldl (fun t c => Tab.setD t (at_ c) 0 c.2) m) := by
  induction cells generalizing m with
  | nil => exact h
  | cons c cells ih => exact ih (Tab.wfD_setD h (at_ c) c.2)

theorem Memory.wf_splice {dst : List Host.Cell} (h : Memory.wf dst) (src : List Host.Cell) (lo base n : Nat) :
    Memory.wf (splice 0 src lo dst base n) :=
  Memory.wf_foldl_setD (Memory.wf_keep h _) _ fun c => c.1 - lo + base

/-! ### What an operation keeps -/

/-- What only a few rows change: the queue, the fuses, the straps and the board's pins, and how far the power-up has come. -/
def State.core (s : State) : List Instr × Fuses × Straps × Board × Nat × Bool × Nat :=
  (s.pending, s.fuses, s.straps, s.board, s.boot.step, s.boot.thermalHold, s.boot.warm)

/-- From `s` to `t` the power-up stands where it stood, Memory Active is not newly reported, and memory stays canonical; of a `strict` one the
boot's registers do not change at all. Every operation that the units share keeps the state in this sense, and so does every row but those
of power, reset and boot. -/
structure Keeps (strict : Bool) (s t : State) : Prop where
  core : t.core = s.core
  active : t.boot.memActive = true → s.boot.memActive = true
  mem : s.MemCanonical → t.MemCanonical
  boot : strict = true → t.boot = s.boot

section
variable {κ : Bool} {s₀ s t : State} {α β : Type}

theorem Keeps.refl (s : State) : Keeps κ s s := ⟨rfl, id, id, fun _ => rfl⟩

theorem Keeps.trans (h : Keeps κ s₀ s) (h' : Keeps κ s t) : Keeps κ s₀ t :=
  ⟨h'.core.trans h.core, fun e => h.active (h'.active e), fun e => h'.mem (h.mem e), fun e => (h'.boot e).trans (h.boot e)⟩

/-- What an update may set without touching what the invariants read: the other fields, each to anything, and of the boot's registers
all but those of `State.core`, with Memory Active at most given up. -/
theorem Keeps.updateBoot
    {freeCtr : Nat} {out : List OutMsg} {stall : List Stall} {ends : List ReadEnd} {dies : Tab Die} {inv : Inventory} {clk :
    Clk} {power : Power} {jtag : Jtag} {polq : PolicyQ} {mgmt : Mgmt} {panel : Panel} {pool : Pool} {img : Image} {pol : Policy}
    {timeBase : DWord} {memPoison bayPoison : Tab Bool} {slices : Tab Slice} {dir : Tab DirEntry} {vds : Tab Vd} {ports : Tab
    CxlPort} {hyl : Tab HylPort} {colls : List Coll} {collHeld : List (CollReady × Nat)} {limits : List Limit} {queues : Tab
    SharedQ} {hop : Hopper} {slu : Sluice} {dax : Dax} {spill : Tab SpillLoop} {flume : Tab Flume} {runners : Tab Runner} {races
    : Tab Race} {pen : Pennants} {flt : Faults} {gauges : Tab Gauge}
    {boot : Boot} (h : Keeps false s₀ s)
    (e : (boot.step, boot.thermalHold, boot.warm) = (s.boot.step, s.boot.thermalHold, s.boot.warm))
    (ha : boot.memActive = true → s.boot.memActive = true) : Keeps false s₀ { s with
      boot := boot,
      freeCtr := freeCtr, out := out, stall := stall, ends := ends, dies := dies, inv := inv, clk := clk, power := power, jtag
      := jtag, polq := polq, mgmt := mgmt, panel := panel, pool := pool, img := img, pol := pol, timeBase := timeBase, memPoison
      := memPoison, bayPoison := bayPoison, slices := slices, dir := dir, vds := vds, ports := ports, hyl := hyl, colls :=
      colls, collHeld := collHeld, limits := limits, queues := queues, hop := hop, slu := slu, dax := dax, spill := spill, flume
      := flume, runners := runners, races := races, pen := pen, flt := flt, gauges := gauges } := by
  simp only [Prod.mk.injEq] at e
  obtain ⟨hs, hh, hw⟩ := e
  exact h.trans ⟨by simp only [State.core, hs, hh, hw], ha, id, nofun⟩

theorem Keeps.update
    {freeCtr : Nat} {out : List OutMsg} {stall : List Stall} {ends : List ReadEnd} {dies : Tab Die} {inv : Inventory} {clk :
    Clk} {power : Power} {jtag : Jtag} {polq : PolicyQ} {mgmt : Mgmt} {panel : Panel} {pool : Pool} {img : Image} {pol : Policy}
    {timeBase : DWord} {memPoison bayPoison : Tab Bool} {slices : Tab Slice} {dir : Tab DirEntry} {vds : Tab Vd} {ports : Tab
    CxlPort} {hyl : Tab HylPort} {colls : List Coll} {collHeld : List (CollReady × Nat)} {limits : List Limit} {queues : Tab
    SharedQ} {hop : Hopper} {slu : Sluice} {dax : Dax} {spill : Tab SpillLoop} {flume : Tab Flume} {runners : Tab Runner} {races
    : Tab Race} {pen : Pennants} {flt : Faults} {gauges : Tab Gauge}
    (h : Keeps κ s₀ s) : Keeps κ s₀ { s with
      freeCtr := freeCtr, out := out, stall := stall, ends := ends, dies := dies, inv := inv, clk := clk, power := power, jtag
      := jtag, polq := polq, mgmt := mgmt, panel := panel, pool := pool, img := img, pol := pol, timeBase := timeBase, memPoison
      := memPoison, bayPoison := bayPoison, slices := slices, dir := dir, vds := vds, ports := ports, hyl := hyl, colls :=
      colls, collHeld := collHeld, limits := limits, queues := queues, hop := hop, slu := slu, dax := dax, spill := spill, flume
      := flume, runners := runners, races := races, pen := pen, flt := flt, gauges := gauges } :=
  ⟨h.core, h.active, h.mem, h.boot⟩

/-- The memories are written, with what lies in canonical form. -/
theorem Keeps.updateMem {mem bays : List Host.Cell} {memPoison bayPoison : Tab Bool} {slices : Tab Slice} {hop : Hopper} (h : Keeps κ s₀ s)
    (hm : Memory.wf s.mem → Memory.wf mem) (hb : Memory.wf s.bays → Memory.wf bays) : Keeps κ s₀ { s with
      mem := mem, memPoison := memPoison, bays := bays, bayPoison := bayPoison, slices := slices, hop := hop } :=
  h.trans ⟨rfl, id, fun w => ⟨hm w.1, hb w.2⟩, fun _ => rfl⟩

theorem Keeps.ite {c : Prop} {d : Decidable c} {a b : State} (ha : Keeps κ s₀ a) (hb : Keeps κ s₀ b) :
    Keeps κ s₀ (if c then a else b) := by
  split
  · exact ha
  · exact hb

theorem Keeps.ite_fst {c : Prop} {d : Decidable c} {a b : State × α} (ha : Keeps κ s₀ a.1) (hb : Keeps κ s₀ b.1) :
    Keeps κ s₀ (if c then a else b).1 := by
  split
  · exact ha
  · exact hb

theorem Keeps.ite_snd {c : Prop} {d : Decidable c} {a b : α × State} (ha : Keeps κ s₀ a.2) (hb : Keeps κ s₀ b.2) :
    Keeps κ s₀ (if c then a else b).2 := by
  split
  · exact ha
  · exact hb

theorem Keeps.foldl {f : State → α → State} {l : List α} (h : Keeps κ s₀ s) (hf : ∀ {s x}, Keeps κ s₀ s → Keeps κ s₀ (f s x)) :
    Keeps κ s₀ (l.foldl f s) := by
  induction l generalizing s with
  | nil => exact h
  | cons x l ih => exact ih (hf h)

theorem Keeps.foldl_fst {f : State × β → α → State × β} {l : List α} {p : State × β} (h : Keeps κ s₀ p.1)
    (hf : ∀ {p x}, Keeps κ s₀ p.1 → Keeps κ s₀ (f p x).1) : Keeps κ s₀ (l.foldl f p).1 := by
  induction l generalizing p with
  | nil => exact h
  | cons x l ih => exact ih (hf h)

theorem Keeps.foldl_snd {f : β × State → α → β × State} {l : List α} {p : β × State} (h : Keeps κ s₀ p.2)
    (hf : ∀ {p x}, Keeps κ s₀ p.2 → Keeps κ s₀ (f p x).2) : Keeps κ s₀ (l.foldl f p).2 := by
  induction l generalizing p with
  | nil => exact h
  | cons x l ih => exact ih (hf h)

theorem Keeps.of_fst {p : State × α} {x : α} (h : Keeps κ s₀ p.1) (e : p = (t, x)) : Keeps κ s₀ t := by
  subst e
  exact h

theorem Keeps.of_snd {p : α × State} {x : α} (h : Keeps κ s₀ p.2) (e : p = (x, t)) : Keeps κ s₀ t := by
  subst e
  exact h

theorem Keeps.of_snd_snd {p : α × β × State} {x : α} {y : β} (h : Keeps κ s₀ p.2.2) (e : p = (x, y, t)) : Keeps κ s₀ t := by
  subst e
  exact h

theorem Keeps.fst {x : α} (h : Keeps κ s₀ s) : Keeps κ s₀ (s, x).1 := h

theorem Keeps.snd {x : α} (h : Keeps κ s₀ s) : Keeps κ s₀ (x, s).2 := h

theorem Keeps.snd_snd {x : α} {y : β} (h : Keeps κ s₀ s) : Keeps κ s₀ (x, y, s).2.2 := h

/-- An operation that may find nothing to do: what it answers, seen through `g`, keeps the state. -/
def Yields (κ : Bool) (s : State) (g : α → State) (o : Option α) : Prop := ∀ a, o = some a → Keeps κ s (g a)

theorem Yields.none {g : α → State} : Yields κ s₀ g none := by
  intro a e
  cases e

theorem Yields.some {g : α → State} {a : α} (h : Keeps κ s₀ (g a)) : Yields κ s₀ g (some a) := by
  intro b e
  cases e
  exact h

theorem Yields.ite {c : Prop} {d : Decidable c} {g : α → State} {a b : Option α} (ha : Yields κ s₀ g a) (hb : Yields κ s₀ g b) :
    Yields κ s₀ g (if c then a else b) := by
  split
  · exact ha
  · exact hb

theorem Yields.map {g : α → State} {g' : β → State} {o : Option α} {f : α → β} (ho : Yields κ s₀ g o)
    (hf : ∀ {a}, Keeps κ s₀ (g a) → Keeps κ s₀ (g' (f a))) : Yields κ s₀ g' (o.map f) := by
  intro b e
  obtain ⟨a, ha, rfl⟩ := Option.map_eq_some_iff.1 e
  exact hf (ho a ha)

theorem Yields.map' {g' : β → State} {o : Option α} {f : α → β} (hf : ∀ {a}, Keeps κ s₀ (g' (f a))) : Yields κ s₀ g' (o.map f) := by
  intro b e
  obtain ⟨a, -, rfl⟩ := Option.map_eq_some_iff.1 e
  exact hf

theorem Yields.bind {g : α → State} {g' : β → State} {o : Option α} {f : α → Option β} (ho : Yields κ s₀ g o)
    (hf : ∀ {a}, Keeps κ s₀ (g a) → Yields κ s₀ g' (f a)) : Yields κ s₀ g' (o.bind f) := by
  intro b e
  obtain ⟨a, ha, hb⟩ := Option.bind_eq_some_iff.1 e
  exact hf (ho a ha) b hb

theorem Yields.bind' {g' : β → State} {o : Option α} {f : α → Option β} (hf : ∀ {a}, Yields κ s₀ g' (f a)) :
    Yields κ s₀ g' (o.bind f) := by
  intro b e
  obtain ⟨a, -, hb⟩ := Option.bind_eq_some_iff.1 e
  exact hf b hb

theorem Keeps.getD {o : Option State} (ho : Yields κ s₀ id o) (h : Keeps κ s₀ s) : Keeps κ s₀ (o.getD s) := by
  cases o with
  | none => exact h
  | some t => exact ho t rfl

/-- A row whose next state, if it answers one, keeps the state. -/
def Answers (s : State) (r : Res) : Prop := ∀ t, r = .next t → Keeps false s t

theorem Answers.next (h : Keeps false s₀ s) : Answers s₀ (.next s) := by
  intro t e
  cases e
  exact h

theorem Answers.ite {c : Prop} {d : Decidable c} {a b : Res} (ha : Answers s₀ a) (hb : Answers s₀ b) :
    Answers s₀ (if c then a else b) := by
  split
  · exact ha
  · exact hb

end
end Sys2Proof.Machine
end

section
/-! What keeps the state: the shared operations. -/
namespace Sys2Proof.Machine
variable {κ : Bool} {s₀ s : State}

theorem Keeps.setVd {v : Nat} {x : Vd} (h : Keeps κ s₀ s) : Keeps κ s₀ (s.setVd v x) := by
  unfold State.setVd
  exact h.update

theorem Keeps.modVd {v : Nat} {f : Vd → Vd} (h : Keeps κ s₀ s) : Keeps κ s₀ (s.modVd v f) := by
  unfold State.modVd
  exact h.setVd

theorem Keeps.modRing {v i : Nat} {f : Ring → Ring} (h : Keeps κ s₀ s) : Keeps κ s₀ (s.modRing v i f) := by
  unfold State.modRing
  exact h.modVd

theorem Keeps.setSlice {n : Nat} {x : Slice} (h : Keeps κ s₀ s) : Keeps κ s₀ (s.setSlice n x) := by
  unfold State.setSlice
  exact h.update

theorem Keeps.modSlice {n : Nat} {f : Slice → Slice} (h : Keeps κ s₀ s) : Keeps κ s₀ (s.modSlice n f) := by
  unfold State.modSlice
  exact h.setSlice

theorem Keeps.setQueue {q : QueueId} {x : SharedQ} (h : Keeps κ s₀ s) : Keeps κ s₀ (s.setQueue q x) := by
  unfold State.setQueue
  exact h.update

theorem Keeps.modPort {p : Nat} {f : CxlPort → CxlPort} (h : Keeps κ s₀ s) : Keeps κ s₀ (s.modPort p f) := by
  unfold State.modPort
  exact h.update

theorem Keeps.send {o : OutMsg} (h : Keeps κ s₀ s) : Keeps κ s₀ (s.send o) := by
  unfold State.send
  exact h.update

theorem Keeps.draw (h : Keeps κ s₀ s) : Keeps κ s₀ s.draw.2 := by
  unfold State.draw
  exact h.update

theorem Keeps.drawKey {v : Nat} (h : Keeps κ s₀ s) : Keeps κ s₀ (s.drawKey v) := by
  unfold State.drawKey
  exact h.modVd.update

theorem Keeps.setCmd {q : Nat} {c : Cmd} (h : Keeps κ s₀ s) : Keeps κ s₀ (s.setCmd q c) := by
  unfold State.setCmd
  exact h.update

theorem Keeps.modCmd {q : Nat} {f : Cmd → Cmd} (h : Keeps κ s₀ s) : Keeps κ s₀ (s.modCmd q f) := by
  unfold State.modCmd
  split
  · exact h.setCmd
  · exact h

theorem Keeps.modTask {q n : Nat} {f : Task → Task} (h : Keeps κ s₀ s) : Keeps κ s₀ (s.modTask q n f) := by
  unfold State.modTask
  exact h.modCmd

theorem Keeps.dramWrite {a : Nat} {mask : Sectors} {x : Line} {p : Sectors} (h : Keeps κ s₀ s) : Keeps κ s₀ (s.dramWrite a mask x p) := by
  unfold State.dramWrite
  exact h.updateMem (fun w => Memory.wf_writeLine w a _ x) id

end Sys2Proof.Machine
end

section
/-! What keeps the state: the log. -/
namespace Sys2Proof.Machine
variable {κ : Bool} {s₀ s : State}

theorem Keeps.panelAsk (h : Keeps κ s₀ s) : Keeps κ s₀ s.panelAsk := by
  unfold State.panelAsk
  exact .ite h.update h

theorem Keeps.bootDraw (h : Keeps κ s₀ s) : Keeps κ s₀ s.bootDraw := by
  unfold State.bootDraw
  exact .ite h.update h

theorem Keeps.logWrite {r : Rec} (h : Keeps κ s₀ s) : Keeps κ s₀ (s.logWrite r) := by
  unfold State.logWrite
  extract_lets
  split
  · exact h.update.update.panelAsk
  · exact h.update

theorem Keeps.post {r0 : Rec} (h : Keeps κ s₀ s) : Keeps κ s₀ (s.post r0) := by
  unfold State.post
  exact .ite (.ite h.update h.logWrite.update) h.logWrite

theorem Keeps.postAs {r : Rec} {code : Nat} (h : Keeps κ s₀ s) : Keeps κ s₀ (s.postAs r code) := by
  unfold State.postAs
  exact h.post.update

theorem Keeps.event {v log : Nat} {r : EvRec} (h : Keeps κ s₀ s) : Keeps κ s₀ (s.event v log r) := by
  unfold State.event
  extract_lets
  split
  · exact h.modVd.send
  · exact h.modVd

theorem Keeps.eventAll {log : Nat} {r : EvRec} (h : Keeps κ s₀ s) : Keeps κ s₀ (s.eventAll log r) := by
  unfold State.eventAll
  exact h.foldl (fun h => h.event)

theorem Keeps.limited {kind who place : Nat} (h : Keeps κ s₀ s) : Keeps κ s₀ (s.limited kind who place).2 := by
  unfold State.limited
  exact .ite_snd h h.update

theorem Keeps.lineEvent {gl log : Nat} {r : EvRec} (h : Keeps κ s₀ s) : Keeps κ s₀ (s.lineEvent gl log r) := by
  unfold State.lineEvent
  split
  · exact h.event
  · exact h

theorem Keeps.mgmtFree {h : MctpHdr} (hs : Keeps κ s₀ s) : Keeps κ s₀ (s.mgmtFree h) := by
  unfold State.mgmtFree
  exact .ite hs.update hs

theorem Keeps.mgmtAnswer {h : MctpHdr} {cmd code : Nat} {vals : List Nat} (hs : Keeps κ s₀ s) :
    Keeps κ s₀ (s.mgmtAnswer h cmd code vals) := by
  unfold State.mgmtAnswer
  exact hs.mgmtFree.send

end Sys2Proof.Machine
end

section
/-! What keeps the state: the gauges. -/
namespace Sys2Proof.Machine
variable {κ : Bool} {s₀ s : State}

theorem Keeps.modGauge {g : Nat} {f : Gauge → Gauge} (h : Keeps κ s₀ s) : Keeps κ s₀ (s.modGauge g f) := by
  unfold State.modGauge
  exact h.update

theorem Keeps.gaugeEvent {src inst : Nat} {vd : Option Nat} {value : Nat} (h : Keeps κ s₀ s) :
    Keeps κ s₀ (s.gaugeEvent src inst vd value) := by
  unfold State.gaugeEvent
  exact h.update

theorem Keeps.capture {v i : Nat} (h : Keeps κ s₀ s) : Keeps κ s₀ (s.capture v i) := by
  unfold State.capture
  exact h.modRing

end Sys2Proof.Machine
end

section
/-! What keeps the state: requests of peers. -/
namespace Sys2Proof.Machine
variable {κ : Bool} {s₀ s : State}

theorem Keeps.hostAnswer {p vd : Nat} {tag era : Nat} {data : Line} {pois : Sectors} {mv : Meta} (h : Keeps κ s₀ s) :
    Keeps κ s₀ (s.hostAnswer p vd tag era data pois mv) := by
  unfold State.hostAnswer
  extract_lets _ _ _ s1
  have h1 : Keeps κ s₀ s1 := by
    unfold s1
    split
    · exact h.modPort.gaugeEvent
    · exact h.modPort
  exact .ite h1 (h1.modPort.send.foldl (fun h => h.send))

theorem Keeps.sendRemote {r : RemoteOp} {m : OutMsg} (h : Keeps κ s₀ s) : Keeps κ s₀ (s.sendRemote r m) := by
  unfold State.sendRemote
  exact .ite h.send.update h.update

theorem Keeps.postNow {w : Who} {m : CohMsg} (h : Keeps κ s₀ s) : Yields κ s₀ id (s.postNow w m) := by
  unfold State.postNow
  extract_lets
  split
  · exact .some h.sendRemote
  · exact .map' h.update.sendRemote

theorem Keeps.sendPosted {w : Who} {m : CohMsg} (h : Keeps κ s₀ s) : Keeps κ s₀ (s.sendPosted w m) := by
  unfold State.sendPosted
  exact .ite h.update (.getD h.postNow h.update)

end Sys2Proof.Machine
end

section
/-! What keeps the state: the home agents and the slices. -/
namespace Sys2Proof.Machine
variable {κ : Bool} {s₀ s : State}

theorem Keeps.setFrame {n key : Nat} {f : Frame} (h : Keeps κ s₀ s) : Keeps κ s₀ (s.setFrame n key f) := by
  unfold State.setFrame
  exact h.modSlice

theorem Keeps.sendWb {m : CohMsg} (h : Keeps κ s₀ s) : Keeps κ s₀ (s.sendWb m) := by
  unfold State.sendWb
  exact .ite h.update.send h.update

theorem Keeps.wbCredit {d : Nat} (h : Keeps κ s₀ s) : Keeps κ s₀ (s.wbCredit d) := by
  unfold State.wbCredit
  extract_lets
  split
  · exact h.update.update.send
  · exact h.update

theorem Keeps.stackFor {f : Nat} (h : Keeps κ s₀ s) : Keeps κ s₀ (s.stackFor f) := by
  unfold State.stackFor
  exact h.update

theorem Keeps.evict {n key : Nat} (h : Keeps κ s₀ s) : Keeps κ s₀ (s.evict n key) := by
  unfold State.evict
  extract_lets
  exact .ite h.setFrame (by
    split
    · exact h.setFrame.stackFor.dramWrite
    · exact h.setFrame.sendWb.modSlice
    · exact h.setFrame)

theorem Keeps.freeWay {n gl pick : Nat} (h : Keeps κ s₀ s) : Yields κ s₀ Prod.snd (s.freeWay n gl pick) := by
  unfold State.freeWay
  exact .map' h.evict

theorem Keeps.allocFrame {n gl pick : Nat} (h : Keeps κ s₀ s) : Yields κ s₀ Prod.snd (s.allocFrame n gl pick) := by
  unfold State.allocFrame
  exact .map h.freeWay (fun h => h.setFrame)

theorem Keeps.dramMerge {a : Nat} {mask : BitVec 128} {x : Line} {p : Sectors} (h : Keeps κ s₀ s) :
    Keeps κ s₀ (s.dramMerge a mask x p) := by
  unfold State.dramMerge
  exact h.updateMem (fun w => Memory.wf_writeLine w a _ x) id

theorem Keeps.bayMerge {a : Nat} {mask : BitVec 128} {x : Line} {p : Sectors} (h : Keeps κ s₀ s) : Keeps κ s₀ (s.bayMerge a mask x p) := by
  unfold State.bayMerge
  exact h.updateMem id fun w => Memory.wf_writeLine w a _ x

theorem Keeps.storeLine {n gl : Nat} {mask : BitVec 128} {x : Line} {p : Sectors} (h : Keeps κ s₀ s) :
    Keeps κ s₀ (s.storeLine n gl mask x p) := by
  unfold State.storeLine
  split
  · exact h.bayMerge
  · split
    · exact h.setFrame
    · exact h.dramMerge

theorem Keeps.poisonLine {n gl : Nat} (h : Keeps κ s₀ s) : Keeps κ s₀ (s.poisonLine n gl) := by
  unfold State.poisonLine
  split
  · exact h.update
  · split
    · exact h.setFrame
    · exact h.update

theorem Keeps.fillLine {n gl : Nat} {sec : Sectors} {bulk : Bool} (h : Keeps κ s₀ s) : Keeps κ s₀ (s.fillLine n gl sec bulk) := by
  unfold State.fillLine
  split
  · exact h.setFrame
  · exact h

theorem Keeps.fillWay {n gl key : Nat} {sec : Sectors} {bulk : Bool} (h : Keeps κ s₀ s) : Keeps κ s₀ (s.fillWay n gl key sec bulk) := by
  unfold State.fillWay
  exact h.setFrame

theorem Keeps.fillOthers {n gl : Nat} {pick way : Nat} (h : Keeps κ s₀ s) : Keeps κ s₀ (s.fillOthers n gl pick way) := by
  unfold State.fillOthers
  exact h.foldl (fun h => .ite h (by
    split
    · exact h.fillLine
    · extract_lets
      exact .ite h.evict.fillWay (by
        split
        · rename_i e
          exact (h.freeWay _ e).fillWay
        · exact h)))

theorem Keeps.fillInto {n gl pick : Nat} {way : Option Nat} {sec : Sectors} {bulk : Bool} (h : Keeps κ s₀ s) :
    Keeps κ s₀ (s.fillInto n gl pick way sec bulk) := by
  unfold State.fillInto
  split
  · exact .ite h.fillLine.fillOthers h.fillLine
  · exact .ite h.fillWay.fillOthers h.fillWay
  · exact h

theorem Keeps.setDir {l : Nat} {e : DirEntry} (h : Keeps κ s₀ s) : Keeps κ s₀ (s.setDir l e) := by
  unfold State.setDir
  exact .ite h.update.modSlice h.update

theorem Keeps.errMsix {v : Nat} (h : Keeps κ s₀ s) : Keeps κ s₀ (s.errMsix v) := by
  unfold State.errMsix
  exact .ite h.modVd h.send.modVd

theorem Keeps.errLost {v : Nat} (h : Keeps κ s₀ s) : Keeps κ s₀ (s.errLost v) := by
  unfold State.errLost
  exact h.modVd

theorem Keeps.errFault {v : Nat} (h : Keeps κ s₀ s) : Keeps κ s₀ (s.errFault v) := by
  unfold State.errFault
  exact h.modVd

theorem Keeps.ringMsix {v i : Nat} (h : Keeps κ s₀ s) : Keeps κ s₀ (s.ringMsix v i) := by
  unfold State.ringMsix
  exact .ite h.modRing h.send.modRing

theorem Keeps.cqDone {v i va : Nat} (h : Keeps κ s₀ s) : Keeps κ s₀ (s.cqDone v i va) := by
  unfold State.cqDone
  exact .ite h.modRing.ringMsix h.modRing

theorem Keeps.recDone {v va : Nat} (h : Keeps κ s₀ s) : Keeps κ s₀ (s.recDone v va) := by
  unfold State.recDone
  extract_lets
  split
  · exact h.cqDone
  · exact .ite h.modVd h.modVd.errMsix

theorem Keeps.recFailed {v va : Nat} (h : Keeps κ s₀ s) : Keeps κ s₀ (s.recFailed v va) := by
  unfold State.recFailed
  extract_lets
  split
  · exact h.modRing
  · exact .ite h.errFault.modVd h

theorem Keeps.whoFailed {w : Who} {st : Status} (h : Keeps κ s₀ s) : Keeps κ s₀ (s.whoFailed w st) := by
  unfold State.whoFailed
  extract_lets
  split
  · exact .ite h.recFailed h
  · exact h.modCmd

theorem Keeps.whoPoisoned {w : Who} (h : Keeps κ s₀ s) : Keeps κ s₀ (s.whoPoisoned w) := by
  unfold State.whoPoisoned
  split
  · exact h
  · exact h.modCmd

theorem Keeps.whoAnswer {w : Who} {op : ReqOp} {st : Status} {old : Nat} (h : Keeps κ s₀ s) : Keeps κ s₀ (s.whoAnswer w op st old) := by
  unfold State.whoAnswer
  exact .ite (.ite h.recDone h.recFailed) (by
    split
    · exact h.modCmd
    · exact h.modCmd
    · exact h
    · exact h
    · exact h.whoPoisoned
    · exact h.whoFailed)

theorem Keeps.answer {gl : Nat} {r : Req} {st : Status} {data : Line} {p : Sectors} {e : DirEntry} (h : Keeps κ s₀ s) :
    Keeps κ s₀ (s.answer gl r st data p e) := by
  unfold State.answer
  extract_lets
  split
  · split
    · exact h.whoAnswer
    · exact h.send
  · exact h.hostAnswer
  · extract_lets
    exact .ite h (by
      split
      · exact h.send
      · exact h.send
      · exact .ite h.send h.send
      · exact h.send
      · exact h.send
      · exact h.send)

theorem Keeps.l1Take {n gl : Nat} {v : Sectors} {data : Line} {pick : Nat} (h : Keeps κ s₀ s) : Keeps κ s₀ (s.l1Take n gl v data pick) := by
  unfold State.l1Take
  exact h.modSlice

theorem Keeps.l1Store {n gl : Nat} {mask : BitVec 128} {data : Line} {p : Sectors} (h : Keeps κ s₀ s) :
    Keeps κ s₀ (s.l1Store n gl mask data p) := by
  unfold State.l1Store
  exact h.modSlice

theorem Keeps.touchL1 {gl : Nat} {r : Req} {v : Sectors} {data : Line} (h : Keeps κ s₀ s) : Keeps κ s₀ (s.touchL1 gl r v data) := by
  unfold State.touchL1
  split
  · exact h.l1Take
  · exact h.l1Store
  · exact h

theorem Keeps.deferredRecord {r : Req} {st : Status} (h : Keeps κ s₀ s) : Keeps κ s₀ (s.deferredRecord r st) := by
  unfold State.deferredRecord
  exact h.post

theorem Keeps.countNan {n k : Nat} (h : Keeps κ s₀ s) : Keeps κ s₀ (s.countNan n k) := by
  unfold State.countNan
  exact h.modSlice

theorem Keeps.countSat {n k : Nat} (h : Keeps κ s₀ s) : Keeps κ s₀ (s.countSat n k) := by
  unfold State.countSat
  exact h.modSlice

theorem Keeps.applyReq {n gl : Nat} {r : Req} {e e' : DirEntry} (h : Keeps κ s₀ s) : Keeps κ s₀ (s.applyReq n gl r e e') := by
  unfold State.applyReq
  extract_lets
  split
  · exact .ite h.setDir.storeLine.deferredRecord.answer h.setDir.storeLine.touchL1.answer
  · exact h.setDir.storeLine.answer
  · exact h.setDir.storeLine.storeLine.countNan.countSat.answer
  · exact .ite h.setDir.answer h.setDir.countNan.storeLine.answer
  · exact h.setDir.answer
  · exact h.setDir.touchL1.answer

theorem Keeps.dropHolder {l dev : Nat} (h : Keeps κ s₀ s) : Keeps κ s₀ (s.dropHolder l dev) := by
  unfold State.dropHolder
  exact .ite h.setDir h

theorem Keeps.dropHost {l p : Nat} (h : Keeps κ s₀ s) : Keeps κ s₀ (s.dropHost l p) := by
  unfold State.dropHost
  exact .ite h.setDir h

theorem Keeps.dropDeparted {n gl : Nat} {e : DirEntry} {sn : Snoops} (h : Keeps κ s₀ s) : Keeps κ s₀ (s.dropDeparted n gl e sn).2 := by
  unfold State.dropDeparted
  extract_lets _ s1
  have h1 : Keeps κ s₀ s1 := .ite h.poisonLine h
  exact h1.foldl (fun h => h.dropHolder)

theorem Keeps.sendSnoops {gl : Nat} {sn : Snoops} (h : Keeps κ s₀ s) : Keeps κ s₀ (s.sendSnoops gl sn) := by
  unfold State.sendSnoops
  exact (h.foldl (fun h => h.send)).foldl (fun h => h.send)

theorem Keeps.setBusy {n gl : Nat} {b : Bool} (h : Keeps κ s₀ s) : Keeps κ s₀ (s.setBusy n gl b) := by
  unfold State.setBusy
  extract_lets s1
  have h1 : Keeps κ s₀ s1 := by
    unfold s1
    split
    · exact .ite h.setFrame h
    · exact h
  split
  · exact h1.modSlice
  · exact h1.modSlice.gaugeEvent
  · exact h1

theorem Keeps.mergeHome {n gl pick : Nat} {sec : Sectors} {d : Line} {p : Sectors} (h : Keeps κ s₀ s) :
    Keeps κ s₀ (s.mergeHome n gl pick sec d p) := by
  unfold State.mergeHome
  extract_lets s1
  have h1 : Keeps κ s₀ s1 := .ite h (by
      split
      · rename_i e
        exact h.allocFrame _ e
      · exact h)
  exact h1.storeLine

theorem Keeps.putReg {n gl : Nat} {m : Miss} (h : Keeps κ s₀ s) : Keeps κ s₀ (s.putReg n gl m) := by
  unfold State.putReg
  exact h.modSlice

theorem Keeps.finish {n gl : Nat} {r : Req} {kd kh : List Nat} (h : Keeps κ s₀ s) : Keeps κ s₀ (s.finish n gl r kd kh).1 := by
  unfold State.finish
  exact .ite_fst h.applyReq h.applyReq.setBusy

theorem Keeps.dataPhase {n gl pick : Nat} {r : Req} {kd kh : List Nat} (h : Keeps κ s₀ s) :
    Keeps κ s₀ (s.dataPhase n gl pick r kd kh).1 := by
  unfold State.dataPhase
  extract_lets _ _ s1
  have h1 : Keeps κ s₀ s1 := h.foldl (fun h => (by
      split
      · exact h.evict
      · exact h))
  exact .ite_fst (.ite_fst h h1) (.ite_fst h (.ite_fst (.ite_fst h.finish h) (.ite_fst (.ite_fst (by
    split
    · exact h
    · rename_i e
      exact (h.allocFrame _ e).finish) (by
    split
    · exact h
    · rename_i e
      exact h.freeWay _ e)) (.ite_fst h.finish h))))

theorem Keeps.takeCopies {n gl share : Nat} (h : Keeps κ s₀ s) : Yields κ s₀ id (s.takeCopies n gl share) := by
  unfold State.takeCopies
  exact .ite (.some h.dropDeparted.setDir) (.ite .none (.some h.dropDeparted.sendSnoops.setBusy.putReg))

theorem Keeps.recall {n l share : Nat} (h : Keeps κ s₀ s) : Yields κ s₀ id (s.recall n l share) := by
  unfold State.recall
  exact .map h.takeCopies (fun h => h.modSlice)

theorem Keeps.startReq {n gl pick : Nat} {r : Req} (h : Keeps κ s₀ s) : Keeps κ s₀ (s.startReq n gl pick r).1 := by
  unfold State.startReq
  exact .ite_fst h.dropDeparted.dataPhase (.ite_fst h h.dropDeparted.sendSnoops.setBusy)

theorem Keeps.tryReq {n gl pick : Nat} {r : Req} (h : Keeps κ s₀ s) : Keeps κ s₀ (s.tryReq n gl pick r).1 := by
  unfold State.tryReq
  extract_lets
  exact .ite_fst (.ite_fst h (by
    split
    · exact h
    · rename_i e
      exact .ite_fst (.startReq (Yields.bind' h.recall _ e)) (Yields.bind' h.recall _ e))) h.startReq

theorem Keeps.goneRecord {v gl : Nat} (h : Keeps κ s₀ s) : Keeps κ s₀ (s.goneRecord v gl) := by
  unfold State.goneRecord
  split
  · rename_i e
    exact h.limited.of_snd e
  · rename_i e
    exact (h.limited.of_snd e).post

theorem Keeps.goneAnswer {r : Req} (h : Keeps κ s₀ s) : Keeps κ s₀ (s.goneAnswer r) := by
  unfold State.goneAnswer
  exact h.answer.goneRecord

theorem Keeps.proxyServe {n gl : Nat} {r : Req} {k : Nat} {f : Frame} (h : Keeps κ s₀ s) : Keeps κ s₀ (s.proxyServe n gl r k f) := by
  unfold State.proxyServe
  exact .ite h.setFrame.touchL1.answer h.touchL1.answer

theorem Keeps.proxyTry {n gl pick : Nat} {r : Req} (h : Keeps κ s₀ s) : Keeps κ s₀ (s.proxyTry n gl pick r).1 := by
  unfold State.proxyTry
  extract_lets _ f1
  have h1 : ∀ {x0}, Keeps κ s₀ (f1 x0).1 := by
    intro x0
    unfold f1
    exact .ite h.sendPosted.touchL1 h.sendPosted.touchL1.answer
  exact .ite_fst h.goneAnswer (by
    split
    · exact h1
    · exact h.sendRemote
    · exact h.answer
    · exact .ite_fst (.ite_fst h1 (.ite_fst h.proxyServe h.sendRemote)) (.ite_fst h.proxyServe (.ite_fst h.sendRemote h1))
    · extract_lets
      exact .ite_fst h1 (.ite_fst h.sendRemote (by
        split
        · exact h
        · rename_i e
          exact (h.freeWay _ e).sendRemote)))

theorem Keeps.serve {n gl pick : Nat} {r : Req} (h : Keeps κ s₀ s) : Keeps κ s₀ (s.serve n gl pick r).1 := by
  unfold State.serve
  exact .ite_fst h.answer (.ite_fst h (.ite_fst h.tryReq h.proxyTry))

theorem Keeps.takeOver {s0 s1 : State} {n gl : Nat} {r : Req} {ws : List Req} {m : Miss} (h : Keeps κ s₀ s0) (h' : Keeps κ s₀ s1) :
    Keeps κ s₀ (s0.takeOver s1 n gl r ws m) := by
  unfold State.takeOver
  exact .ite h.modSlice h'.modSlice

theorem Keeps.serveWaiters {n pick : Nat} {ws : List Req} {gl : Nat} (h : Keeps κ s₀ s) :
    Keeps κ s₀ (State.serveWaiters n pick ws gl s) := by
  induction ws generalizing s with
  | nil => exact h.modSlice
  | cons r ws ih =>
    rw [State.serveWaiters]
    split
    · rename_i e
      exact ih (h.modSlice.serve.of_fst e)
    · rename_i e
      exact h.modSlice.takeOver (h.modSlice.serve.of_fst e)

theorem Keeps.drain {n gl pick : Nat} {ws : List Req} (h : Keeps κ s₀ s) : Keeps κ s₀ (State.drain n gl pick ws s) := by
  unfold State.drain
  exact h.setBusy.serveWaiters

theorem Keeps.settle {n gl pick : Nat} {ws : List Req} {e : State × Option Miss} (h : Keeps κ s₀ e.1) :
    Keeps κ s₀ (State.settle n gl pick ws e) := by
  unfold State.settle
  split
  · exact h.drain
  · exact h.putReg

theorem Keeps.answered {n gl pick : Nat} {m : Miss} (h : Keeps κ s₀ s) : Keeps κ s₀ (s.answered n gl pick m) := by
  unfold State.answered
  exact .ite (by
    split
    · exact .settle (.dataPhase (.ite h.setBusy h))
    · exact h.setDir.drain) h.modSlice

theorem Keeps.requeue {n gl : Nat} (h : Keeps κ s₀ s) : Keeps κ s₀ (s.requeue n gl) := by
  unfold State.requeue
  split
  · exact h.modSlice
  · exact h

theorem Keeps.wake {n pick : Nat} (h : Keeps κ s₀ s) : Keeps κ s₀ (s.wake n pick) := by
  unfold State.wake
  exact h.foldl (fun h => (by
    split
    · split
      · exact .ite h.dataPhase.settle (.ite h.requeue h.serve.settle)
      · exact h.serve.settle
      · exact h
    · exact h))

theorem Keeps.enterIf {n pick : Nat} {r : Req} {may : QueueId → (Nat → Nat) → Bool} (h : Keeps κ s₀ s) :
    Keeps κ s₀ (s.enterIf n pick r may) := by
  unfold State.enterIf
  extract_lets
  split
  · exact .ite h.modSlice h.modSlice
  · split
    · rename_i e
      exact (h.serve.of_fst e).wake
    · rename_i e
      exact .ite (h.serve.of_fst e).putReg h.modSlice

theorem Keeps.enter {n pick : Nat} {r : Req} (h : Keeps κ s₀ s) : Keeps κ s₀ (s.enter n pick r) := by
  unfold State.enter
  exact h.enterIf

theorem Keeps.refuseOffset {r : Req} (h : Keeps κ s₀ s) : Keeps κ s₀ (s.refuseOffset r) := by
  unfold State.refuseOffset
  extract_lets _ s1
  have h1 : Keeps κ s₀ s1 := .ite h.post.deferredRecord h.post
  exact h1.answer

theorem Keeps.lostAnswer {r : Req} (h : Keeps κ s₀ s) : Keeps κ s₀ (s.lostAnswer r) := by
  unfold State.lostAnswer
  extract_lets
  split
  · exact h.deferredRecord.send
  · exact h.deferredRecord.send
  · exact h.send
  · exact h.send
  · split
    · exact h
    · exact h.send
  · split
    · exact h.whoFailed
    · exact h.send
  · exact h.hostAnswer.lineEvent

theorem Keeps.arrive {n pick : Nat} {r : Req} (h : Keeps κ s₀ s) : Keeps κ s₀ (s.arrive n pick r) := by
  unfold State.arrive
  exact .ite h.modSlice h.enterIf

theorem Keeps.homeAccept {r : Req} {pick : Nat} (h : Keeps κ s₀ s) : Keeps κ s₀ (s.homeAccept r pick) := by
  unfold State.homeAccept
  exact .ite h.refuseOffset (.ite h.lostAnswer h.stackFor.arrive)

theorem Keeps.localReq {r : Req} {pick : Nat} (h : Keeps κ s₀ s) : Keeps κ s₀ (s.localReq r pick) := by
  unfold State.localReq
  exact .ite h.homeAccept h.arrive

end Sys2Proof.Machine
end

section
/-! What keeps the state: the tables of the Sluice. -/
namespace Sys2Proof.Machine
variable {κ : Bool} {s₀ s : State}

theorem Keeps.withTables {v page : Nat} {big : Bool} (h : Keeps κ s₀ s) : Yields κ s₀ id (s.withTables v page big) := by
  simp only [State.withTables]
  split
  · split
    · exact .some h
    · exact .map' h.update
  · split
    · split
      · exact .some h.update
      · exact .map' h.update.update
    · exact .none

theorem Keeps.countShootdown (h : Keeps κ s₀ s) : Keeps κ s₀ s.countShootdown := by
  unfold State.countShootdown
  exact h.update

theorem Keeps.putEntry {v page : Nat} {e : PEntry} (h : Keeps κ s₀ s) : Keeps κ s₀ (s.putEntry v page e) := by
  unfold State.putEntry
  exact h.update

theorem Keeps.setEntry {v page : Nat} {e : PEntry} (h : Keeps κ s₀ s) : Keeps κ s₀ (s.setEntry v page e) := by
  unfold State.setEntry
  exact .putEntry (.ite h.countShootdown h)

theorem Keeps.delEntry {v page : Nat} (h : Keeps κ s₀ s) : Keeps κ s₀ (s.delEntry v page) := by
  unfold State.delEntry
  extract_lets s1
  have h1 : Keeps κ s₀ s1 := by
    unfold s1
    split
    · exact .ite h.countShootdown h
    · exact h
  exact h1.update

theorem Keeps.revokeEntries {f : Nat → PEntry → Bool} (h : Keeps κ s₀ s) : Keeps κ s₀ (s.revokeEntries f) := by
  unfold State.revokeEntries
  exact h.update

end Sys2Proof.Machine
end

section
/-! What keeps the state: accesses of VDs. -/
namespace Sys2Proof.Machine
variable {κ : Bool} {s₀ s : State}

theorem Keeps.dropCached {f k : Nat} (h : Keeps κ s₀ s) : Keeps κ s₀ (s.dropCached f k) := by
  unfold State.dropCached
  exact h.update

theorem Keeps.zeroFrames {f k : Nat} (h : Keeps κ s₀ s) : Keeps κ s₀ (s.zeroFrames f k) := by
  unfold State.zeroFrames
  exact .updateMem (.dropCached (h.foldl fun h => h.stackFor)) (fun w => Memory.wf_keep w _) id

theorem Keeps.tagFrames {f k : Nat} {v page : Nat} (h : Keeps κ s₀ s) : Keeps κ s₀ (s.tagFrames f k v page) := by
  unfold State.tagFrames
  exact h.update

theorem Keeps.untagFrames {f k : Nat} (h : Keeps κ s₀ s) : Keeps κ s₀ (s.untagFrames f k) := by
  unfold State.untagFrames
  exact h.update

theorem Keeps.touchRefused {st : Status} (h : Keeps κ s₀ s) : Keeps κ s₀ (s.touchRefused st) := by
  unfold State.touchRefused
  exact h.update

theorem Keeps.touchTake {v page f : Nat} {big : Bool} (h : Keeps κ s₀ s) : Keeps κ s₀ (s.touchTake v page f big) := by
  unfold State.touchTake
  extract_lets _ _ s1
  have h1 : Keeps κ s₀ s1 := .modVd (.tagFrames (.getD h.withTables h))
  exact h1.update

theorem Keeps.touchDone {v page f : Nat} {big : Bool} (h : Keeps κ s₀ s) : Keeps κ s₀ (s.touchDone v page f big) := by
  unfold State.touchDone
  exact h.zeroFrames.setEntry

theorem Keeps.sampleHeat {via v page : Nat} (h : Keeps κ s₀ s) : Keeps κ s₀ (s.sampleHeat via v page) := by
  unfold State.sampleHeat
  extract_lets
  exact .ite h (.ite h.update (.ite h.update (.ite h.update (by
    split <;> exact h.update))))

theorem Keeps.stalled {y : Stall} (h : Keeps κ s₀ s) : Keeps κ s₀ (s.stalled y) := by
  unfold State.stalled
  exact h.update

theorem Keeps.walked (h : Keeps κ s₀ s) : Keeps κ s₀ s.walked := by
  unfold State.walked
  exact h.update

theorem Keeps.translate {s0 : State} {v va : Nat} {write : Bool} {x : Ext} (h : Keeps κ s₀ s0) :
    Keeps κ s₀ (s0.translate v va write x).2 := by
  unfold State.translate
  extract_lets _ s1
  have h1 : Keeps κ s₀ s1 := .ite h.walked h
  exact .ite_snd h.stalled (by
    split
    · exact .ite_snd (.ite_snd h1 h1.sampleHeat) h1
    · exact .ite_snd (by
        split
        · exact h1.touchRefused
        · exact h1.touchTake.touchDone.sampleHeat) h1)

theorem Keeps.serveNow {n pick : Nat} {r : Req} (h : Keeps κ s₀ s) : Yields κ s₀ id (s.serveNow n pick r) := by
  unfold State.serveNow
  exact .ite (by
    split
    · rename_i e
      exact .some (h.tryReq.of_fst e)
    · rename_i e
      exact .ite (by
        split
        · rename_i e'
          exact .some ((h.tryReq.of_fst e).fillInto.gaugeEvent.dataPhase.of_fst e')
        · exact .none) (.ite (.some (h.tryReq.of_fst e).finish) .none)) (.ite (.some h) .none)

theorem Keeps.lineRead {gl : Nat} {sec : Sectors} {w : Who} {pick : Nat} (h : Keeps κ s₀ s) : Keeps κ s₀ (s.lineRead gl sec w pick).2 := by
  unfold State.lineRead
  extract_lets _ _ _ s1
  have h1 : Keeps κ s₀ s1 := .ite h.stackFor h
  split
  · exact h.update
  · exact .ite_snd h.refuseOffset (.ite_snd h (.ite_snd h.goneRecord (.ite_snd (by
      split
      · exact .ite_snd h.stalled h.stalled
      · exact h.stalled) (by
      split
      · exact h.stalled
      · rename_i e
        exact h1.serveNow _ e))))

theorem Keeps.takeLine {gl v : Nat} (h : Keeps κ s₀ s) : Keeps κ s₀ (s.takeLine gl v) := by
  unfold State.takeLine
  exact .ite h (.ite h.stalled h)

theorem Keeps.startStall {pick : Nat} {y : Stall} (h : Keeps κ s₀ s) : Keeps κ s₀ (s.startStall pick y) := by
  unfold State.startStall
  split
  · exact .ite h h.localReq
  · exact .ite (.ite h h.localReq) (.ite h (.getD h.takeCopies h))
  · exact h

theorem Keeps.orWait {pick : Nat} {f : State → State} (h : Keeps κ s₀ s) (hf : ∀ {s}, Keeps κ s₀ s → Keeps κ s₀ (f s)) :
    Keeps κ s₀ (s.orWait pick f) := by
  unfold State.orWait
  extract_lets s1
  have h1 : Keeps κ s₀ s1 := hf h.update
  exact .ite h1 (h.foldl (fun h => h.startStall))

theorem Keeps.rowReq {r0 : Req} {pick : Nat} (h : Keeps κ s₀ s) : Keeps κ s₀ (s.rowReq r0 pick) := by
  unfold State.rowReq
  exact .ite h.localReq (.getD h.stackFor.serveNow h.localReq)

theorem Keeps.lineWrite {gl : Nat} {mask : BitVec 128} {x : Line} {p : Sectors} {w : Who} {pick : Nat} (h : Keeps κ s₀ s) :
    Keeps κ s₀ (s.lineWrite gl mask x p w pick).2 := by
  unfold State.lineWrite
  exact .ite_snd (.ite_snd h.goneRecord h.rowReq) (.ite_snd h h.rowReq)

theorem Keeps.readChunk {v va n : Nat} {x : Ext} (h : Keeps κ s₀ s) : Keeps κ s₀ (s.readChunk v va n x).2 := by
  unfold State.readChunk
  split
  · rename_i e
    exact h.translate.of_snd e
  · rename_i e
    exact (h.translate.of_snd e).lineRead

theorem Keeps.vdReadF {x : Ext} {k v : Nat} {va n : Nat} (h : Keeps κ s₀ s) : Keeps κ s₀ (State.vdReadF x k v va n s).2 := by
  induction k generalizing va n s with
  | zero => exact h
  | succ k ih =>
    rw [State.vdReadF]
    exact .ite_snd h (.ite_snd h.readChunk (ih h.readChunk))

theorem Keeps.vdRead {v va n : Nat} {x : Ext} (h : Keeps κ s₀ s) : Keeps κ s₀ (s.vdRead v va n x).2 := by
  unfold State.vdRead
  exact h.vdReadF

theorem Keeps.writeChunk {v va : Nat} {bs : List Byte} {pois : Bool} {w : Who} {x : Ext} (h : Keeps κ s₀ s) :
    Keeps κ s₀ (s.writeChunk v va bs pois w x).2 := by
  unfold State.writeChunk
  extract_lets
  exact .ite_snd h.update (by
    split
    · rename_i e
      exact h.translate.of_snd e
    · rename_i e
      extract_lets
      split <;>
        (rename_i e'; exact (h.translate.of_snd e).lineWrite.of_snd e'))

theorem Keeps.vdWriteF {x : Ext} {pois : Bool} {w : Who} {k v va : Nat} {bs : List Byte} (h : Keeps κ s₀ s) :
    Keeps κ s₀ (State.vdWriteF x pois w k v va bs s).2 := by
  induction k generalizing va bs s with
  | zero => exact h
  | succ k ih =>
    unfold State.vdWriteF
    split
    · exact h
    · extract_lets
      split
      · rename_i e
        exact h.writeChunk.of_snd e
      · rename_i e
        exact ih (h.writeChunk.of_snd e)

theorem Keeps.vdWrite {v va : Nat} {bs : List Byte} {pois : Bool} {w : Who} {x : Ext} (h : Keeps κ s₀ s) :
    Keeps κ s₀ (s.vdWrite v va bs pois w x).2 := by
  unfold State.vdWrite
  exact h.vdWriteF

theorem Keeps.recFlush {pick : Nat} (h : Keeps κ s₀ s) : Keeps κ s₀ (s.recFlush pick) := by
  unfold State.recFlush
  exact h.update.foldl (fun h => (by
    split
    · rename_i e
      exact (h.writeChunk.of_snd e).recFailed
    · rename_i e
      exact h.writeChunk.of_snd e))

theorem Keeps.postVd {v : Nat} {r0 : Rec} {x : Ext} (h : Keeps κ s₀ s) : Keeps κ s₀ (s.postVd v r0 x) := by
  unfold State.postVd
  extract_lets
  exact .ite (by
    split
    · rename_i e
      exact (h.modVd.vdWrite.of_snd e).errFault.modVd
    · rename_i e
      exact h.modVd.vdWrite.of_snd e) h.errLost

end Sys2Proof.Machine
end

section
/-! What keeps the state: descriptors. -/
namespace Sys2Proof.Machine
variable {κ : Bool} {s₀ s : State}

theorem Keeps.engineDone {q : Nat} {st : Status} {result : Nat} {term : Term} {addr : Nat} (h : Keeps κ s₀ s) :
    Keeps κ s₀ (s.engineDone q st result term addr) := by
  unfold State.engineDone
  exact h.modCmd

end Sys2Proof.Machine
end

section
/-! What keeps the state: the Hopper. -/
namespace Sys2Proof.Machine
variable {κ : Bool} {s₀ s : State}

theorem Keeps.setHrec {k : Nat} {r : HopRec} (h : Keeps κ s₀ s) : Keeps κ s₀ (s.setHrec k r) := by
  unfold State.setHrec
  exact h.update

theorem Keeps.mapHrec {f : HopRec → HopRec} (h : Keeps κ s₀ s) : Keeps κ s₀ (s.mapHrec f) := by
  unfold State.mapHrec
  exact h.update

theorem Keeps.zeroBlock {p o n : Nat} (h : Keeps κ s₀ s) : Keeps κ s₀ (s.zeroBlock p o n) := by
  unfold State.zeroBlock
  exact .ite (h.updateMem id fun w => Memory.wf_keep w _) (h.updateMem (fun w => Memory.wf_keep w _) id)

theorem Keeps.poolLine {p o : Nat} {sec : Sectors} {w : Who} {pick : Nat} (h : Keeps κ s₀ s) :
    Keeps κ s₀ (s.poolLine p o sec w pick).2 := by
  unfold State.poolLine
  exact .ite_snd h.stalled (.ite_snd h h.lineRead)

theorem Keeps.poolWrite {p o : Nat} {mask : BitVec 128} {x : Line} {po : Sectors} {w : Who} {pick : Nat} (h : Keeps κ s₀ s) :
    Keeps κ s₀ (s.poolWrite p o mask x po w pick) := by
  unfold State.poolWrite
  exact .ite h.stalled (.ite (.ite h.bayMerge h.bayMerge.whoPoisoned) h.lineWrite)

theorem Keeps.freeLive {k : Nat} (h : Keeps κ s₀ s) : Keeps κ s₀ (s.freeLive k) := by
  unfold State.freeLive
  exact h.setHrec

theorem Keeps.unref {k : Nat} (h : Keeps κ s₀ s) : Keeps κ s₀ (s.unref k) := by
  unfold State.unref
  exact h.setHrec

theorem Keeps.misused {owner caller : Nat} (h : Keeps κ s₀ s) : Keeps κ s₀ (s.misused owner caller) := by
  unfold State.misused
  exact h.update.post

theorem Keeps.countNoSpace {p : Nat} {st : Status} (h : Keeps κ s₀ s) : Keeps κ s₀ (s.countNoSpace p st) := by
  unfold State.countNoSpace
  exact .ite h.update h

theorem Keeps.hopAlloc {q : Nat} {c : Cmd} {pick : Nat} (h : Keeps κ s₀ s) : Keeps κ s₀ (s.hopAlloc q c pick) := by
  unfold State.hopAlloc
  extract_lets
  exact .ite (.ite h.engineDone (.ite (.ite h.engineDone h.setHrec.modVd.update.engineDone) h.engineDone)) (.ite h.engineDone (by
    split
    · exact h.engineDone
    · exact .ite h.engineDone (by
        split
        · exact h.countNoSpace.engineDone
        · exact .ite h.stalled h.zeroBlock.setHrec.modVd.update.engineDone)))

theorem Keeps.hopFree {q : Nat} {c : Cmd} (h : Keeps κ s₀ s) : Keeps κ s₀ (s.hopFree q c) := by
  unfold State.hopFree
  extract_lets
  exact .ite h.engineDone (.ite h.engineDone (.ite h.setHrec.update.engineDone (by
    split
    · exact h.misused.engineDone
    · exact h.freeLive.modVd.update.engineDone
    · exact h.engineDone)))

theorem Keeps.hopQuery {q : Nat} {c : Cmd} {x : Ext} (h : Keeps κ s₀ s) : Keeps κ s₀ (s.hopQuery q c x) := by
  unfold State.hopQuery
  extract_lets _ _ f1
  have h1 : ∀ {x0}, Keeps κ s₀ (f1 x0) := by
    intro x0
    unfold f1
    split <;>
      (rename_i e; exact (h.vdWrite.of_snd e).engineDone)
  exact .ite h.engineDone (.ite h1 (by
    split
    · exact h.engineDone
    · exact h1
    · exact h.engineDone))

theorem Keeps.hopTransfer {q : Nat} {c : Cmd} {pick : Nat} (h : Keeps κ s₀ s) : Keeps κ s₀ (s.hopTransfer q c pick) := by
  unfold State.hopTransfer
  extract_lets
  exact .ite h.engineDone (by
    split
    · exact h.misused.engineDone
    · exact .ite h.engineDone (by
        split
        · exact h.countNoSpace.engineDone
        · exact .ite h.engineDone h.update.modCmd)
    · exact h.engineDone)

theorem Keeps.copyHalf {w : Who} {pick p : Nat} {o p' o' : Nat} (h : Keeps κ s₀ s) : Keeps κ s₀ (State.copyHalf w pick p o p' o' s) := by
  unfold State.copyHalf
  exact h.poolLine.poolWrite

theorem Keeps.copyBlock {w : Who} {pick p : Nat} {o p' : Nat} {o' n : Nat} (h : Keeps κ s₀ s) :
    Keeps κ s₀ (s.copyBlock w pick p o p' o' n) := by
  unfold State.copyBlock
  exact h.foldl (fun h => h.copyHalf)

theorem Keeps.transferSwitch {q pick : Nat} (h : Keeps κ s₀ s) : Keeps κ s₀ (s.transferSwitch q pick) := by
  unfold State.transferSwitch
  extract_lets
  split
  · exact h
  · exact .ite h.update h.update.zeroBlock.copyBlock.setHrec.freeLive.update.engineDone

theorem Keeps.quarantineEnd {k : Nat} (h : Keeps κ s₀ s) : Keeps κ s₀ (s.quarantineEnd k) := by
  unfold State.quarantineEnd
  exact .ite h.setHrec h

theorem Keeps.hopperPass (h : Keeps κ s₀ s) : Keeps κ s₀ s.hopperPass := by
  unfold State.hopperPass
  exact h.mapHrec

theorem Keeps.hopStart (h : Keeps κ s₀ s) : Keeps κ s₀ s.hopStart := by
  unfold State.hopStart
  exact h.mapHrec

theorem Keeps.revokeRec {k : Nat} (h : Keeps κ s₀ s) : Keeps κ s₀ (s.revokeRec k) := by
  unfold State.revokeRec
  extract_lets _ _ s1
  have h1 : Keeps κ s₀ s1 := .ite h.zeroBlock h
  exact .ite h.setHrec h1.setHrec

theorem Keeps.hopSweep {v : Nat} (h : Keeps κ s₀ s) : Keeps κ s₀ (s.hopSweep v) := by
  unfold State.hopSweep
  exact (h.update.foldl (fun h => h.revokeRec)).modVd

theorem Keeps.hopWarm (h : Keeps κ s₀ s) : Keeps κ s₀ s.hopWarm := by
  unfold State.hopWarm
  exact h.mapHrec.update

theorem execHopAlloc_keeps {cmd pick : Nat} (h : Keeps false s₀ s) : Answers s₀ (execHopAlloc cmd pick s) := by
  unfold execHopAlloc
  exact .next (h.orWait (fun h => (by
    split
    · exact .ite h h.hopAlloc
    · exact h)))

theorem execHopAdopt_keeps {cmd pick : Nat} (h : Keeps false s₀ s) : Answers s₀ (execHopAdopt cmd pick s) := by
  unfold execHopAdopt
  exact .next (h.orWait (fun h => (by
    split
    · exact .ite h.hopAlloc h
    · exact h)))

theorem execHopFree_keeps {cmd : Nat} (h : Keeps false s₀ s) : Answers s₀ (execHopFree cmd s) := by
  unfold execHopFree
  split
  · exact .next h.hopFree
  · exact .next h

theorem execHopQuery_keeps {cmd : Nat} {x : Ext} (h : Keeps false s₀ s) : Answers s₀ (execHopQuery cmd x s) := by
  unfold execHopQuery
  exact .next (h.orWait (fun h => (by
    split
    · exact h.hopQuery
    · exact h)))

theorem execHopTransfer_keeps {cmd pick : Nat} (h : Keeps false s₀ s) : Answers s₀ (execHopTransfer cmd pick s) := by
  unfold execHopTransfer
  split
  · exact .next h.hopTransfer
  · exact .next h

theorem execTransferSwitch_keeps {cmd : Nat} {x : Ext} (h : Keeps false s₀ s) : Answers s₀ (execTransferSwitch cmd x s) := by
  unfold execTransferSwitch
  exact .next (h.orWait (fun h => h.transferSwitch))

theorem execQuarantineEnd_keeps {pool index : Nat} (h : Keeps false s₀ s) : Answers s₀ (execQuarantineEnd pool index s) := by
  unfold execQuarantineEnd
  exact .next h.quarantineEnd

theorem execHopperBackgroundPass_keeps (h : Keeps false s₀ s) : Answers s₀ (execHopperBackgroundPass s) := by
  unfold execHopperBackgroundPass
  exact .next h.hopperPass

end Sys2Proof.Machine
end

section
/-! What keeps the state: the pennants. -/
namespace Sys2Proof.Machine
variable {κ : Bool} {s₀ s : State}

theorem Keeps.setPenn {p : Nat} {x : Pen} (h : Keeps κ s₀ s) : Keeps κ s₀ (s.setPenn p x) := by
  unfold State.setPenn
  exact h.update

theorem Keeps.setBinding {v n : Nat} {b : Binding} (h : Keeps κ s₀ s) : Keeps κ s₀ (s.setBinding v n b) := by
  unfold State.setBinding
  exact h.modVd

theorem Keeps.unbind {v n : Nat} (h : Keeps κ s₀ s) : Keeps κ s₀ (s.unbind v n) := by
  unfold State.unbind
  exact h.modVd

theorem Keeps.armEnd {q : Nat} {st : Status} {n : Nat} (h : Keeps κ s₀ s) : Keeps κ s₀ (s.armEnd q st n) := by
  unfold State.armEnd
  exact h.engineDone.modCmd

theorem Keeps.release {r : PenReg} {met : Bool} (h : Keeps κ s₀ s) : Keeps κ s₀ (s.release r met) := by
  unfold State.release
  split
  · split
    · exact h
    · exact .ite (.ite h.armEnd h.armEnd) h.setCmd
  · exact h.send

theorem Keeps.checkWaits {p : Nat} (h : Keeps κ s₀ s) : Keeps κ s₀ (s.checkWaits p) := by
  unfold State.checkWaits
  exact h.update.foldl (fun h => h.release)

theorem Keeps.penAdd {p n : Nat} (h : Keeps κ s₀ s) : Keeps κ s₀ (s.penAdd p n) := by
  unfold State.penAdd
  exact h.setPenn.checkWaits

theorem Keeps.armRecorded {q : Nat} {c : Cmd} (h : Keeps κ s₀ s) : Keeps κ s₀ (s.armRecorded q c) := by
  unfold State.armRecorded
  exact .ite h.setCmd.modVd h

theorem Keeps.recorded {r : PenReg} (h : Keeps κ s₀ s) : Keeps κ s₀ (s.recorded r) := by
  unfold State.recorded
  split
  · split
    · exact h.armRecorded
    · exact h
  · exact h.send

theorem Keeps.register {p vd target : Nat} {who : PenWho} {qos : Nat} (h : Keeps κ s₀ s) : Keeps κ s₀ (s.register p vd target who qos) := by
  unfold State.register
  exact .ite h.update.update h.update.recorded

theorem Keeps.penTake {r : PenReg} {place : RegPlace} (h : Keeps κ s₀ s) : Keeps κ s₀ (s.penTake r place) := by
  unfold State.penTake
  exact .ite h.update.checkWaits h.update.recorded

theorem Keeps.withdraw {f : PenReg → Bool} (h : Keeps κ s₀ s) : Keeps κ s₀ (s.withdraw f) := by
  unfold State.withdraw
  exact h.update.foldl (fun h => (by
    split
    · exact h.recorded
    · exact h))

theorem Keeps.revokeExport {p : Nat} (h : Keeps κ s₀ s) : Keeps κ s₀ (s.revokeExport p) := by
  unfold State.revokeExport
  extract_lets _ s1
  have h1 : Keeps κ s₀ s1 := h.withdraw.foldl (fun h => (by
      split
      · exact h.release
      · exact h))
  split
  · exact h
  · exact h1.update.foldl (fun h => .ite h.modVd h.send)

theorem Keeps.penAbandon {p : Nat} (h : Keeps κ s₀ s) : Keeps κ s₀ (s.penAbandon p) := by
  unfold State.penAbandon
  extract_lets _ _ _ s1
  have h1 : Keeps κ s₀ s1 := (h.withdraw.foldl (fun h => h.release)).revokeExport.modVd
  exact h1.setPenn.update

theorem Keeps.penDone {q : Nat} {st : Status} {result : Nat} (h : Keeps κ s₀ s) : Keeps κ s₀ (s.penDone q st result) := by
  unfold State.penDone
  exact h.engineDone

theorem Keeps.penRemote {q : Nat} {c : Cmd} {op ticket value : Nat} (h : Keeps κ s₀ s) : Keeps κ s₀ (s.penRemote q c op ticket value) := by
  unfold State.penRemote
  exact .ite h.penDone h.sendRemote.modCmd

theorem Keeps.penArm {q : Nat} {c : Cmd} {p : Nat} (h : Keeps κ s₀ s) : Keeps κ s₀ (s.penArm q c p) := by
  unfold State.penArm
  exact .ite h.penDone h.modCmd.register

theorem Keeps.armRemote {q : Nat} {c : Cmd} {t : Nat} (h : Keeps κ s₀ s) : Keeps κ s₀ (s.armRemote q c t) := by
  unfold State.armRemote
  exact h.penRemote.modCmd

theorem Keeps.importCheck {t dev vd : Nat} (h : Keeps κ s₀ s) : Keeps κ s₀ (s.importCheck t dev vd).2 := by
  unfold State.importCheck
  extract_lets
  split
  · exact .ite_snd (.snd h.update) (.snd h.post)
  · exact .snd h.post

theorem Keeps.terminationSignal {v n inc : Nat} (h : Keeps κ s₀ s) : Keeps κ s₀ (s.terminationSignal v n inc) := by
  unfold State.terminationSignal
  extract_lets
  split
  · exact h.penAdd
  · exact .ite (by
      split
      · exact h.penAdd
      · exact h.update.modVd) h.sendRemote
  · exact h.modVd

theorem execPenLease_keeps {cmd pick : Nat} (h : Keeps false s₀ s) : Answers s₀ (execPenLease cmd pick s) := by
  unfold execPenLease
  extract_lets
  split
  · exact .next h
  · exact .ite (.next h.penDone) (.ite (.next h.penDone) (by
      split
      · exact .next h.penDone
      · exact .next h.setPenn.setBinding.penDone))

theorem execPenDrop_keeps {cmd : Nat} (h : Keeps false s₀ s) : Answers s₀ (execPenDrop cmd s) := by
  unfold execPenDrop
  split
  · exact .next h
  · extract_lets
    split
    · exact .next h.penDone
    · exact .next (.penDone (.ite h.unbind h.unbind.penAbandon))
    · exact .ite (.next h.unbind.penDone) (.ite (by
        split
        · exact .next h.unbind.withdraw.update.penDone
        · exact .next h.unbind.penDone) (.next h.unbind.sendRemote.penDone))

theorem execPenSignal_keeps {cmd : Nat} (h : Keeps false s₀ s) : Answers s₀ (execPenSignal cmd s) := by
  unfold execPenSignal
  extract_lets
  split
  · exact .next h
  · split
    · exact .next h.penDone
    · exact .ite (.next h.penDone) (.next h.penAdd.penDone)
    · exact .ite (.next h.penDone) (.ite (by
        split
        · exact .next h.penAdd.penDone
        · exact .next h.update.penDone) (.next h.penRemote))

theorem execPenReset_keeps {cmd : Nat} (h : Keeps false s₀ s) : Answers s₀ (execPenReset cmd s) := by
  unfold execPenReset
  split
  · exact .next h
  · split
    · exact .next h.penDone
    · exact .next h.penDone
    · exact .ite (.next h.penDone) (.next h.setPenn.checkWaits.penDone)

theorem execPenRead_keeps {cmd : Nat} (h : Keeps false s₀ s) : Answers s₀ (execPenRead cmd s) := by
  unfold execPenRead
  extract_lets
  split
  · exact .next h
  · split
    · exact .next h.penDone
    · exact .next h.penDone
    · exact .ite (.next h.penDone) (.ite (by
        split
        · exact .next h.penDone
        · exact .next h.update.penDone) (.next h.penRemote))

theorem execPenArm_keeps {cmd : Nat} (h : Keeps false s₀ s) : Answers s₀ (execPenArm cmd s) := by
  unfold execPenArm
  extract_lets
  split
  · exact .next h
  · split
    · exact .next h.penDone
    · exact .ite (.next h.penDone) (.next h.penArm)
    · exact .ite (.next h.penDone) (.ite (by
        split
        · exact .next h.penArm
        · exact .next h.update.penDone) (.next h.armRemote))

theorem execPenExport_keeps {cmd pick : Nat} (h : Keeps false s₀ s) : Answers s₀ (execPenExport cmd pick s) := by
  unfold execPenExport
  extract_lets
  split
  · exact .next h
  · split
    · exact .next h.penDone
    · exact .next h.penDone
    · exact .ite (.next h.penDone) (by
        split
        · exact .next h.penDone
        · split
          · exact .next h.penDone
          · exact .next h.draw.update.penDone)

theorem execPenImport_keeps {cmd : Nat} (h : Keeps false s₀ s) : Answers s₀ (execPenImport cmd s) := by
  unfold execPenImport
  split
  · exact .next h
  · extract_lets
    exact .ite (.next h.penDone) (.ite (.next h.penDone) (.ite (by
      split
      · rename_i e
        exact .next (h.importCheck.of_snd e).setBinding.penDone
      · rename_i e
        exact .next (h.importCheck.of_snd e).penDone) (.next h.penRemote)))

theorem execPenUnexport_keeps {cmd : Nat} (h : Keeps false s₀ s) : Answers s₀ (execPenUnexport cmd s) := by
  unfold execPenUnexport
  split
  · exact .next h
  · split
    · exact .next h.penDone
    · exact .next h.penDone
    · exact .ite (.next h.penDone) (.next h.revokeExport.penDone)

end Sys2Proof.Machine
end

section
/-! What keeps the state: the Sluice. -/
namespace Sys2Proof.Machine
variable {κ : Bool} {s₀ s : State}

theorem Keeps.evictFrames {f k : Nat} (h : Keeps κ s₀ s) : Keeps κ s₀ (s.evictFrames f k) := by
  unfold State.evictFrames
  exact h.foldl (fun h => h.foldl (fun h => .ite h.evict h))

theorem Keeps.takeBackFrames {f k v : Nat} (h : Keeps κ s₀ s) : Keeps κ s₀ (s.takeBackFrames f k v) := by
  unfold State.takeBackFrames
  exact (h.foldl (fun h => h.takeLine)).evictFrames

theorem Keeps.copyFrames {f g k : Nat} (h : Keeps κ s₀ s) : Keeps κ s₀ (s.copyFrames f g k) := by
  unfold State.copyFrames
  exact .updateMem (.dropCached (h.foldl fun h => h.stackFor.stackFor)) (fun w => Memory.wf_splice w _ _ _ _) id

theorem Keeps.landLines {src f k : Nat} {lines : List RemLine} (h : Keeps κ s₀ s) : Keeps κ s₀ (s.landLines src f k lines) := by
  unfold State.landLines
  exact h.zeroFrames.foldl (fun h => h.dramWrite)

theorem Keeps.freeFramesOf {g k : Nat} (h : Keeps κ s₀ s) : Keeps κ s₀ (s.freeFramesOf g k) := by
  unfold State.freeFramesOf
  exact .ite h.untagFrames h.send

theorem Keeps.setPromo {k : Nat} {p : Promo} (h : Keeps κ s₀ s) : Keeps κ s₀ (s.setPromo k p) := by
  unfold State.setPromo
  exact h.update

theorem Keeps.promoteStart {k v : Nat} {page frame : Nat} (h : Keeps κ s₀ s) : Keeps κ s₀ (s.promoteStart k v page frame) := by
  unfold State.promoteStart
  exact h.setPromo

theorem Keeps.demoteStart {v page : Nat} {fantail : Bool} {next : Option (Nat × Nat)} (h : Keeps κ s₀ s) :
    Keeps κ s₀ (s.demoteStart v page fantail next) := by
  unfold State.demoteStart
  split
  · exact .ite h.setPromo h
  · exact h

theorem Keeps.slotIn {f k : Nat} (h : Keeps κ s₀ s) : Keeps κ s₀ (s.slotIn f k) := by
  unfold State.slotIn
  exact h.updateMem id fun w => Memory.wf_splice w _ _ _ _

theorem Keeps.slotOut {f k : Nat} (h : Keeps κ s₀ s) : Keeps κ s₀ (s.slotOut f k) := by
  unfold State.slotOut
  exact h.updateMem (fun w => Memory.wf_splice w _ _ _ _) id

theorem Keeps.promoteDone {k : Nat} (h : Keeps κ s₀ s) : Keeps κ s₀ (s.promoteDone k) := by
  unfold State.promoteDone
  extract_lets
  split
  · exact h
  · extract_lets
    exact .ite h (by
      split
      · exact .ite h.evictFrames.slotIn.setPromo.putEntry.update h.update
      · exact h.update)

theorem Keeps.demoteDone {k : Nat} (h : Keeps κ s₀ s) : Keeps κ s₀ (s.demoteDone k) := by
  unfold State.demoteDone
  split
  · exact h
  · extract_lets _ _ _ s1
    have h1 : Keeps κ s₀ s1 := by
      unfold s1
      split
      · exact h.slotOut.update.setEntry
      · exact h.slotOut.update
    exact .ite h (by
      split
      · exact h1
      · split
        · exact .ite h1.promoteStart h1
        · exact h1)

theorem Keeps.touchNow {v page pick : Nat} (h : Keeps κ s₀ s) : Keeps κ s₀ (s.touchNow v page pick).2 := by
  unfold State.touchNow
  split
  · exact h.touchRefused
  · exact h.touchTake.touchDone

theorem Keeps.placeDrop {q : Nat} (h : Keeps κ s₀ s) : Keeps κ s₀ (s.placeDrop q) := by
  unfold State.placeDrop
  exact h.update

theorem Keeps.placeKeep {p : Placing} (h : Keeps κ s₀ s) : Keeps κ s₀ (s.placeKeep p) := by
  unfold State.placeKeep
  exact h.placeDrop.update

theorem Keeps.placeEnd {p : Placing} {st : Status} (h : Keeps κ s₀ s) : Keeps κ s₀ (s.placeEnd p st) := by
  unfold State.placeEnd
  exact h.placeDrop.engineDone

theorem Keeps.want {r : MoveReq} (h : Keeps κ s₀ s) : Keeps κ s₀ (s.want r) := by
  unfold State.want
  exact .ite h h.update

theorem Keeps.freshTake {p : Placing} {big : Bool} (h : Keeps κ s₀ s) : Yields κ s₀ id (s.freshTake p big) := by
  unfold State.freshTake
  exact .map h.withTables (fun h => h.sendRemote.modVd.update.placeKeep)

theorem Keeps.placeRun {fuel : Nat} {p : Placing} {pick : Nat} (h : Keeps κ s₀ s) : Keeps κ s₀ (State.placeRun fuel p pick s) := by
  induction fuel generalizing p s with
  | zero => exact h.placeKeep
  | succ fuel ih =>
    rw [State.placeRun]
    exact .ite h.placeEnd (.ite h.placeEnd (by
      split
      · exact .ite (ih h) (.ite h.placeKeep (.ite (by
          split
          · rename_i e
            exact (h.touchNow.of_snd e).placeEnd
          · rename_i e
            exact ih (h.touchNow.of_snd e)) (.ite h.placeEnd (.ite h.placeEnd (.ite h.touchRefused.placeEnd (by
          split
          · rename_i e
            exact h.freshTake _ e
          · exact h.touchRefused.placeEnd))))))
      · extract_lets _ s1
        have h1 : Keeps κ s₀ s1 := .ite h.setEntry h
        split
        · exact ih h
        · exact ih h
        · exact h.placeKeep
        · exact .ite h.placeEnd (.ite (ih h1) (.ite h.placeEnd (.ite h.placeEnd h.want.placeKeep)))))

theorem Keeps.placeGo {p : Placing} {pick : Nat} (h : Keeps κ s₀ s) : Keeps κ s₀ (s.placeGo p pick) := by
  unfold State.placeGo
  exact h.placeRun

theorem Keeps.placeResume {v page pick : Nat} (h : Keeps κ s₀ s) : Keeps κ s₀ (s.placeResume v page pick) := by
  unfold State.placeResume
  exact (h.foldl (fun h => h.placeGo)).recFlush

theorem Keeps.dropMove {v page : Nat} (h : Keeps κ s₀ s) : Keeps κ s₀ (s.dropMove v page) := by
  unfold State.dropMove
  exact h.update

theorem Keeps.putMove {m : Move} (h : Keeps κ s₀ s) : Keeps κ s₀ (s.putMove m) := by
  unfold State.putMove
  exact h.dropMove.update

theorem Keeps.moveBegin {m : Move} {e : PEntry} (h : Keeps κ s₀ s) : Keeps κ s₀ (s.moveBegin m e) := by
  unfold State.moveBegin
  exact h.putMove.setEntry

theorem Keeps.moveRefused {by_ : MoveBy} (h : Keeps κ s₀ s) : Keeps κ s₀ (s.moveRefused by_) := by
  unfold State.moveRefused
  split
  · exact h.placeDrop.engineDone
  · exact h

theorem Keeps.moveStart {r : MoveReq} {pick : Nat} (h : Keeps κ s₀ s) : Keeps κ s₀ (s.moveStart r pick) := by
  unfold State.moveStart
  extract_lets
  split
  · exact h.update.placeResume
  · extract_lets
    exact .ite h.update.placeResume (.ite h.update.moveRefused (.ite h.demoteStart (.ite (by
      split
      · exact h.update.tagFrames.moveBegin
      · split
        · exact h.update
        · exact h
        · exact h
        · exact h.update.placeDrop.engineDone) h.update.sendRemote.putMove)))

theorem Keeps.moveAbandon {m : Move} (h : Keeps κ s₀ s) : Keeps κ s₀ (s.moveAbandon m) := by
  unfold State.moveAbandon
  extract_lets _ s1 s2
  have h1 : Keeps κ s₀ s1 := .ite h.dropMove h.dropMove.freeFramesOf
  have h2 : Keeps κ s₀ s2 := by
    unfold s2
    split
    · exact .ite h1.setEntry h1
    · exact h1
  exact .ite h.dropMove.modVd h2.update

theorem Keeps.abandonMoves {f : MoveReq → Bool} (h : Keeps κ s₀ s) : Keeps κ s₀ (s.abandonMoves f) := by
  unfold State.abandonMoves
  exact (h.update.foldl (fun h => h.moveAbandon)).recFlush

theorem Keeps.moveAcked {v page : Nat} (h : Keeps κ s₀ s) : Keeps κ s₀ (s.moveAcked v page) := by
  unfold State.moveAcked
  split
  · exact h
  · exact .ite (.ite h.putMove h.putMove.send) h

theorem Keeps.pageLands {f k : Nat} {lines : List RemLine} (h : Keeps κ s₀ s) : Keeps κ s₀ (s.pageLands f k lines) := by
  unfold State.pageLands
  split
  · exact h.landLines.putMove
  · exact .ite h.landLines h

theorem Keeps.moveCommit {v page pick : Nat} (h : Keeps κ s₀ s) : Keeps κ s₀ (s.moveCommit v page pick) := by
  unfold State.moveCommit
  extract_lets
  split
  · exact h
  · extract_lets _ s1 s2
    have h1 : Keeps κ s₀ s1 := .ite h.takeBackFrames h
    have h2 : Keeps κ s₀ s2 := .ite h1.copyFrames (.ite h1.send h1)
    exact .ite h (by
      split
      · exact h2
      · extract_lets _ _ s3
        have h3 : Keeps κ s₀ s3 := .ite h2.setEntry.putMove.update h2.setEntry.putMove
        exact h3.placeResume)

theorem Keeps.moveFree {v page : Nat} (h : Keeps κ s₀ s) : Keeps κ s₀ (s.moveFree v page) := by
  unfold State.moveFree
  split
  · exact .ite h.freeFramesOf.dropMove h
  · exact h

theorem Keeps.tugAt {c : FtCand} {why : Nat} (h : Keeps κ s₀ s) : Keeps κ s₀ (s.tugAt c why) := by
  unfold State.tugAt
  exact h.modVd.update

theorem Keeps.ftTry {c : FtCand} {budget : Nat} (h : Keeps κ s₀ s) : Keeps κ s₀ (s.ftTry c budget).2 := by
  unfold State.ftTry
  extract_lets
  split
  · exact h.tugAt
  · exact .ite_snd h.update (.ite_snd h (by
      split
      · exact h.want
      · exact h.demoteStart
      · split
        · exact .ite_snd h h.promoteStart
        · split
          · exact h.demoteStart
          · exact h.update))

theorem Keeps.ftRun {t : List FtCand} {budget : Nat} (h : Keeps κ s₀ s) : Keeps κ s₀ (State.ftRun t budget s) := by
  induction t generalizing budget s with
  | nil => exact h
  | cons c t ih =>
    rw [State.ftRun]
    exact ih h.ftTry

theorem Keeps.fantail (h : Keeps κ s₀ s) : Keeps κ s₀ s.fantail := by
  unfold State.fantail
  extract_lets _ _ s1
  have h1 : Keeps κ s₀ s1 := .ite h.update.ftRun h.update
  exact h1.update

theorem Keeps.revokeGrant {dev slot : Nat} (h : Keeps κ s₀ s) : Keeps κ s₀ (s.revokeGrant dev slot) := by
  unfold State.revokeGrant
  exact h.revokeEntries

theorem Keeps.endGrant {slot : Nat} (h : Keeps κ s₀ s) : Keeps κ s₀ (s.endGrant slot) := by
  unfold State.endGrant
  extract_lets
  split
  · exact h
  · exact h.update.foldl (fun h => .ite h.revokeGrant h.send)

theorem Keeps.endGrants {f : Grant → Bool} (h : Keeps κ s₀ s) : Keeps κ s₀ (s.endGrants f) := by
  unfold State.endGrants
  exact h.foldl (fun h => h.endGrant)

theorem Keeps.attachCheck {dev vd : Nat} {slot len : Nat} {key : Word} {ro : Bool} {va : Nat} (h : Keeps κ s₀ s) :
    Keeps κ s₀ (s.attachCheck dev vd slot len key ro va).2 := by
  unfold State.attachCheck
  extract_lets
  split
  · exact .ite_snd (.snd h.update) (.snd h.post)
  · exact .snd h.post

theorem Keeps.attachPages {v dev slot page : Nat} {ro : Bool} {fs : List (Nat × Bool)} (h : Keeps κ s₀ s) :
    Yields κ s₀ id (s.attachPages v dev slot ro page fs) := by
  induction fs generalizing page s with
  | nil => exact .some h
  | cons f fs ih =>
    unfold State.attachPages
    split
    · exact .none
    · rename_i e
      exact ih (h.withTables _ e).setEntry

theorem Keeps.attachEnd {q v : Nat} {dev slot : Nat} {ro : Bool} {page : Nat} {fs : List (Nat × Bool)} (h : Keeps κ s₀ s) :
    Keeps κ s₀ (s.attachEnd q v dev slot ro page fs) := by
  unfold State.attachEnd
  split
  · rename_i e
    exact (h.attachPages _ e).engineDone
  · exact h.engineDone

theorem Keeps.pinRun {v : Nat} {on : Bool} {n page : Nat} (h : Keeps κ s₀ s) : Keeps κ s₀ (State.pinRun v on n page s).2 := by
  induction n generalizing page s with
  | zero => exact h
  | succ n ih =>
    rw [State.pinRun]
    exact .ite_snd h (by
      split
      · exact ih (.ite h.setEntry h)
      · exact ih h)

theorem Keeps.slPin {q : Nat} {c : Cmd} {on : Bool} (h : Keeps κ s₀ s) : Keeps κ s₀ (s.slPin q c on) := by
  unfold State.slPin
  exact .ite h.engineDone (by
    split <;>
      (rename_i e; exact (h.pinRun.of_snd e).engineDone))

theorem Keeps.slQuery {cmd : Nat} {c : Cmd} {x : Ext} (h : Keeps κ s₀ s) : Keeps κ s₀ (s.slQuery cmd c x) := by
  unfold State.slQuery
  extract_lets
  exact .ite h.engineDone (by
    split
    split <;>
      (rename_i e; exact (h.vdWrite.of_snd e).engineDone))

theorem Keeps.grantTouch {v pick : Nat} {n page : Nat} (h : Keeps κ s₀ s) : Keeps κ s₀ (State.grantTouch v pick n page s).2 := by
  induction n generalizing page s with
  | zero => exact h
  | succ n ih =>
    rw [State.grantTouch]
    exact .ite_snd h (by
      split
      · exact .ite_snd (ih h) h
      · exact .ite_snd h.stalled (by
          split
          · rename_i e
            exact h.touchNow.of_snd e
          · rename_i e
            exact ih (h.touchNow.of_snd e)))

theorem Keeps.slGrant {cmd : Nat} {c : Cmd} {pick : Nat} (h : Keeps κ s₀ s) : Keeps κ s₀ (s.slGrant cmd c pick) := by
  unfold State.slGrant
  exact .ite h.engineDone (.ite h (by
    split
    · rename_i e
      exact (h.grantTouch.of_snd e).engineDone
    · rename_i e
      split
      · exact (h.grantTouch.of_snd e).engineDone
      · exact (h.grantTouch.of_snd e).draw.update.engineDone))

theorem Keeps.detachRun {v n page : Nat} (h : Keeps κ s₀ s) : Keeps κ s₀ (State.detachRun v n page s).2 := by
  induction n generalizing page s with
  | zero => exact h
  | succ n ih =>
    rw [State.detachRun]
    exact .ite_snd h (by
      split
      · exact ih (.ite h.delEntry h)
      · exact ih h)

theorem Keeps.freePage {v page : Nat} (h : Keeps κ s₀ s) : Keeps κ s₀ (s.freePage v page) := by
  unfold State.freePage
  extract_lets
  split
  · exact h
  · extract_lets _ s1
    have h1 : Keeps κ s₀ s1 := .ite h.moveFree.takeBackFrames h.moveFree
    split
    · exact h.setEntry
    · exact h
    · exact h.stalled
    · exact h1.delEntry.freeFramesOf.modVd.update

theorem Keeps.freePages {v : Nat} {f : Nat → Bool} (h : Keeps κ s₀ s) : Keeps κ s₀ (s.freePages v f) := by
  unfold State.freePages
  extract_lets _ s1 _ _ _ s2
  have h1 : Keeps κ s₀ s1 := h.foldl (fun h => (by
      split
      · exact h.freeFramesOf.modVd
      · exact h))
  have h2 : Keeps κ s₀ s2 := (h1.update.foldl (fun h => h.moveAbandon)).foldl (fun h => h.freePage)
  exact h2.foldl (fun h => h.placeGo)

theorem Keeps.releaseExtent {v base len : Nat} (h : Keeps κ s₀ s) : Keeps κ s₀ (s.releaseExtent v base len) := by
  unfold State.releaseExtent
  exact h.endGrants.freePages

theorem execPageMoveStart_keeps {i pick : Nat} (h : Keeps false s₀ s) : Answers s₀ (execPageMoveStart i pick s) := by
  unfold execPageMoveStart
  split
  · exact .next h.moveStart
  · exact .next h

theorem execMoveAckComplete_keeps {vd page : Nat} (h : Keeps false s₀ s) : Answers s₀ (execMoveAckComplete vd page s) := by
  unfold execMoveAckComplete
  exact .next h.moveAcked

theorem execMoveCopyDone_keeps {vd page : Nat} {x : Ext} (h : Keeps false s₀ s) : Answers s₀ (execMoveCopyDone vd page x s) := by
  unfold execMoveCopyDone
  exact .next (h.orWait (fun h => h.moveCommit))

theorem execMoveSourceFree_keeps {vd page : Nat} (h : Keeps false s₀ s) : Answers s₀ (execMoveSourceFree vd page s) := by
  unfold execMoveSourceFree
  exact .next h.moveFree

theorem execMoveDeadline_keeps {vd page pick : Nat} (h : Keeps false s₀ s) : Answers s₀ (execMoveDeadline vd page pick s) := by
  unfold execMoveDeadline
  split
  · exact .ite (.next h.moveAbandon.placeResume) (.next h)
  · exact .next h

theorem execPromoteDone_keeps {slot : Nat} (h : Keeps false s₀ s) : Answers s₀ (execPromoteDone slot s) := by
  unfold execPromoteDone
  exact .next h.promoteDone

theorem execDemoteDone_keeps {slot : Nat} (h : Keeps false s₀ s) : Answers s₀ (execDemoteDone slot s) := by
  unfold execDemoteDone
  exact .next h.demoteDone

theorem execFantailEvaluation_keeps (h : Keeps false s₀ s) : Answers s₀ (execFantailEvaluation s) := by
  unfold execFantailEvaluation
  exact .next h.fantail

theorem execSlPlace_keeps {cmd pick : Nat} (h : Keeps false s₀ s) : Answers s₀ (execSlPlace cmd pick s) := by
  unfold execSlPlace
  split
  · exact .next h
  · exact .ite (.next h.engineDone) (.next h.modCmd.placeGo)

theorem execSlPin_keeps {cmd : Nat} (h : Keeps false s₀ s) : Answers s₀ (execSlPin cmd s) := by
  unfold execSlPin
  split
  · exact .next h.slPin
  · exact .next h

theorem execSlUnpin_keeps {cmd : Nat} (h : Keeps false s₀ s) : Answers s₀ (execSlUnpin cmd s) := by
  unfold execSlUnpin
  split
  · exact .next h.slPin
  · exact .next h

theorem execSlQuery_keeps {cmd : Nat} {x : Ext} (h : Keeps false s₀ s) : Answers s₀ (execSlQuery cmd x s) := by
  unfold execSlQuery
  exact .next (h.orWait (fun h => (by
    split
    · exact h.slQuery
    · exact h)))

theorem execSlGrant_keeps {cmd pick : Nat} (h : Keeps false s₀ s) : Answers s₀ (execSlGrant cmd pick s) := by
  unfold execSlGrant
  exact .next (h.orWait (fun h => (by
    split
    · exact h.slGrant
    · exact h)))

theorem execSlRevoke_keeps {cmd : Nat} (h : Keeps false s₀ s) : Answers s₀ (execSlRevoke cmd s) := by
  unfold execSlRevoke
  split
  · exact .next h
  · split
    · exact .ite (.next h.endGrant.engineDone) (.next h.engineDone)
    · exact .next h.engineDone

theorem execSlAttach_keeps {cmd : Nat} (h : Keeps false s₀ s) : Answers s₀ (execSlAttach cmd s) := by
  unfold execSlAttach
  split
  · exact .next h
  · extract_lets
    exact .ite (.next h.engineDone) (.ite (.next h.engineDone) (.ite (by
      split
      · rename_i e
        exact .next (h.attachCheck.of_snd e).attachEnd
      · rename_i e
        exact .next (h.attachCheck.of_snd e).engineDone) (.ite (.next h.engineDone) (.next h.sendRemote.modCmd))))

theorem execSlDetach_keeps {cmd : Nat} (h : Keeps false s₀ s) : Answers s₀ (execSlDetach cmd s) := by
  unfold execSlDetach
  split
  · exact .next h
  · exact .ite (.next h.engineDone) (by
      split <;>
        (rename_i e; exact .next (h.detachRun.of_snd e).engineDone))

theorem execGrantRevocation_keeps {dev slot : Nat} (h : Keeps false s₀ s) : Answers s₀ (execGrantRevocation dev slot s) := by
  unfold execGrantRevocation
  exact .next h.revokeGrant

end Sys2Proof.Machine
end

section
/-! What keeps the state: the command queues. -/
namespace Sys2Proof.Machine
variable {κ : Bool} {s₀ s : State}

theorem Keeps.unsupported {m : Mmio} (h : Keeps κ s₀ s) : Keeps κ s₀ (s.unsupported m) := by
  unfold State.unsupported
  exact h.send

theorem Keeps.noLd {p ld : Nat} (h : Keeps κ s₀ s) : Keeps κ s₀ (s.noLd p ld) := by
  unfold State.noLd
  exact h.send.post

theorem Keeps.windowShut {m : Mmio} (h : Keeps κ s₀ s) : Yields κ s₀ id (s.windowShut m) := by
  unfold State.windowShut
  exact .ite (.some h) (.ite (.some (.ite h.noLd h)) (.ite (.some h.unsupported) .none))

theorem Keeps.winWrite {m : Mmio} {f : State → State} {w : RegWrite} (h : Keeps false s₀ s) (hf : ∀ {s}, Keeps false s₀ s → Keeps false s₀ (f s)) :
    Keeps false s₀ (s.winWrite m f w) := by
  unfold State.winWrite
  extract_lets
  split
  · rename_i e
    exact h.windowShut _ e
  · exact .ite (h.updateBoot rfl id) (.ite (hf h) h)

theorem Keeps.rsvdEnc {v : Nat} (h : Keeps κ s₀ s) : Keeps κ s₀ (s.rsvdEnc v) := by
  unfold State.rsvdEnc
  exact h.modVd

theorem Keeps.ringDb {v i : Nat} {w : Word} (h : Keeps κ s₀ s) : Keeps κ s₀ (s.ringDb v i w) := by
  unfold State.ringDb
  exact h.modRing

theorem Keeps.cqDb {v i : Nat} {w : Word} (h : Keeps κ s₀ s) : Keeps κ s₀ (s.cqDb v i w) := by
  unfold State.cqDb
  exact h.modRing

theorem Keeps.ringCtrl {v i : Nat} {w : Word} (h : Keeps κ s₀ s) : Keeps κ s₀ (s.ringCtrl v i w) := by
  unfold State.ringCtrl
  extract_lets _ _ _ _ _ _ s1
  have h1 : Keeps κ s₀ s1 := .ite h.rsvdEnc h
  exact .ite h.modRing h1.modRing

theorem Keeps.ringBase {v i reg : Nat} {w : Word} (h : Keeps κ s₀ s) : Keeps κ s₀ (s.ringBase v i reg w) := by
  unfold State.ringBase
  exact h.modRing

theorem Keeps.ringFault {v i : Nat} {st : Status} {a : Nat} {x : Ext} (h : Keeps κ s₀ s) : Keeps κ s₀ (s.ringFault v i st a x) := by
  unfold State.ringFault
  exact h.modRing.postVd.post

theorem Keeps.cqFaulted {v i : Nat} {st : Status} {a : Nat} {x : Ext} (h : Keeps κ s₀ s) : Keeps κ s₀ (s.cqFaulted v i st a x) := by
  unfold State.cqFaulted
  exact h.modRing.postVd.post

theorem Keeps.putRecord {v i : Nat} {irq : Bool} {tag opcode stream : Nat} {d : Done} {x : Ext} (h : Keeps κ s₀ s) :
    Keeps κ s₀ (s.putRecord v i irq tag opcode stream d x) := by
  unfold State.putRecord
  extract_lets
  exact .ite h (by
    split
    · rename_i e
      exact (h.modRing.vdWrite.of_snd e).cqFaulted
    · rename_i e
      exact h.modRing.vdWrite.of_snd e)

theorem Keeps.readEntry {v i : Nat} {x : Ext} (h : Keeps κ s₀ s) : Keeps κ s₀ (s.readEntry v i x) := by
  unfold State.readEntry
  extract_lets
  split
  rename_i e
  extract_lets
  split
  · exact (h.vdRead.of_snd e).ringFault
  · exact .ite (h.vdRead.of_snd e).ringFault (h.vdRead.of_snd e).modRing.modVd.update

theorem Keeps.waitShared {q : QueueId} {v item : Nat} (h : Keeps κ s₀ s) : Keeps κ s₀ (s.waitShared q v item) := by
  unfold State.waitShared
  exact .ite h h.setQueue

theorem Keeps.unwait {q : QueueId} {item : Nat} (h : Keeps κ s₀ s) : Keeps κ s₀ (s.unwait q item) := by
  unfold State.unwait
  exact .ite h.setQueue h

theorem Keeps.withdrawCmd {q : Nat} {c : Cmd} (h : Keeps κ s₀ s) : Keeps κ s₀ (s.withdrawCmd q c) := by
  unfold State.withdrawCmd
  extract_lets
  split
  · exact .ite h.withdraw.update.unwait.unwait h.withdraw.update.unwait.unwait.sendRemote
  · exact h.withdraw.update.unwait.unwait

theorem Keeps.endEarly {q : Nat} {term : Term} {st : Status} (h : Keeps κ s₀ s) : Keeps κ s₀ (s.endEarly q term st) := by
  unfold State.endEarly
  split
  · exact h.withdrawCmd.modCmd
  · exact h

theorem Keeps.cancelCmd {q : Nat} (h : Keeps κ s₀ s) : Keeps κ s₀ (s.cancelCmd q) := by
  unfold State.cancelCmd
  split
  · exact h
  · exact .ite h (.ite h.endEarly (.ite (.ite h.endEarly (.ite h h.setCmd)) (.ite h h.setCmd)))

theorem Keeps.cancelAll {f : Nat → Cmd → Bool} (h : Keeps κ s₀ s) : Keeps κ s₀ (s.cancelAll f) := by
  unfold State.cancelAll
  exact h.foldl (fun h => h.cancelCmd)

theorem Keeps.cancelMode {v : Nat} {w : DWord} (h : Keeps κ s₀ s) : Keeps κ s₀ (s.cancelMode v w) := by
  unfold State.cancelMode
  extract_lets
  split
  · exact h.cancelAll
  · exact h.cancelAll
  · exact h.cancelAll.capture
  · exact h.cancelAll.foldl (fun h => h.capture)

theorem Keeps.cancelWrite {v : Nat} {w : DWord} (h : Keeps κ s₀ s) : Keeps κ s₀ (s.cancelWrite v w) := by
  unfold State.cancelWrite
  exact .ite h.rsvdEnc h.cancelMode

theorem Keeps.cancelRow {mode v : Nat} {w : DWord} (h : Keeps false s₀ s) : Keeps false s₀ (s.cancelRow mode v w) := by
  unfold State.cancelRow
  exact .ite (h.winWrite (fun h => h.cancelWrite)) h

theorem Keeps.streamFailed {v stream q : Nat} (h : Keeps κ s₀ s) : Keeps κ s₀ (s.streamFailed v stream q) := by
  unfold State.streamFailed
  exact h.modVd

theorem Keeps.readCaptured {v i : Nat} {x : Ext} (h : Keeps κ s₀ s) : Keeps κ s₀ (s.readCaptured v i x) := by
  unfold State.readCaptured
  extract_lets
  split
  rename_i e
  extract_lets _ _ _ _ s2
  have h2 : Keeps κ s₀ s2 := .ite (h.vdRead.of_snd e).modRing.streamFailed.update.terminationSignal
    (h.vdRead.of_snd e).modRing.streamFailed.update
  split
  · exact (h.vdRead.of_snd e).ringFault
  · exact .ite (h.vdRead.of_snd e).ringFault h2.putRecord

theorem Keeps.registerWait {q : Nat} {c : Cmd} (h : Keeps κ s₀ s) : Keeps κ s₀ (s.registerWait q c) := by
  unfold State.registerWait
  extract_lets _ f1
  have h1 : ∀ {x0}, Keeps κ s₀ (f1 x0) := by
    intro x0
    unfold f1
    exact .ite h.setCmd h.setCmd.register
  exact .ite h.setCmd (by
    split
    · exact h.setCmd
    · exact .ite h.setCmd h1
    · exact .ite h.setCmd (.ite (by
        split
        · exact h1
        · exact h.setCmd) h.setCmd.sendRemote))

theorem Keeps.decode {q : Nat} {c : Cmd} (h : Keeps κ s₀ s) : Keeps κ s₀ (s.decode q c) := by
  unfold State.decode
  extract_lets _ f1
  have h1 : ∀ {x0}, Keeps κ s₀ (f1 x0) := by
    intro x0
    unfold f1
    split
    · exact h.setCmd
    · exact h.registerWait
  exact .ite (.ite h.setCmd (by
    split
    · exact h.setCmd
    · exact h1)) h1

theorem Keeps.countHandle {v : Nat} {f : Status × Nat} (h : Keeps κ s₀ s) : Keeps κ s₀ (s.countHandle v f) := by
  unfold State.countHandle
  exact .ite h.misused h

theorem Keeps.refSlice {v : Nat} {r : OpRef} {x : Ext} (h : Keeps κ s₀ s) : Keeps κ s₀ (s.refSlice v r x).2 := by
  unfold State.refSlice
  split
  · split <;>
      (rename_i e; exact h.translate.of_snd e)
  · exact h

theorem Keeps.assign {f : Nat → State → Nat × State} {us : List Nat} {t : Tab (List Nat)}
    (hf : ∀ {x0 s}, Keeps κ s₀ s → Keeps κ s₀ (f x0 s).2) (h : Keeps κ s₀ s) : Keeps κ s₀ (State.assign f us t s).2 := by
  induction us generalizing t s with
  | nil => exact h
  | cons u us ih =>
    rw [State.assign]
    exact ih (hf h)

theorem Keeps.split {c : Cmd} {x : Ext} (h : Keeps κ s₀ s) : Keeps κ s₀ (s.split c x).2 := by
  unfold State.split
  extract_lets
  split <;> exact h.assign (fun h => h.refSlice)

theorem Keeps.kvWalkF {v : Nat} {x : Ext} {fuel a n : Nat} (h : Keeps κ s₀ s) : Keeps κ s₀ (State.kvWalkF v x fuel a n s).2 := by
  induction fuel generalizing a n s with
  | zero => exact h
  | succ fuel ih =>
    rw [State.kvWalkF]
    split
    rename_i e
    extract_lets
    split
    · exact h.vdRead.of_snd e
    · exact .ite_snd (h.vdRead.of_snd e) (by
        split
        · exact h.vdRead.of_snd e
        · exact .ite_snd (h.vdRead.of_snd e) (.ite_snd (h.vdRead.of_snd e) (by
            split <;>
              (rename_i e'; exact .of_snd (ih (h.vdRead.of_snd e)) e'))))

theorem Keeps.touchRange {v : Nat} {x : Ext} {as : List Nat} (h : Keeps κ s₀ s) : Keeps κ s₀ (State.touchRange v x as s).2 := by
  induction as generalizing s with
  | nil => exact h
  | cons a as ih =>
    rw [State.touchRange]
    split
    · rename_i e
      exact h.translate.of_snd e
    · rename_i e
      exact ih (h.translate.of_snd e)

theorem Keeps.kvWalk {c : Cmd} {x : Ext} (h : Keeps κ s₀ s) : Keeps κ s₀ (s.kvWalk c x).2 := by
  unfold State.kvWalk
  extract_lets
  split
  · rename_i e
    exact h.kvWalkF.of_snd e
  · rename_i e
    extract_lets
    split <;>
      (rename_i e'; exact (h.kvWalkF.of_snd e).touchRange.of_snd e')

theorem Keeps.queueRun {r : Nat × FlumeRun} (h : Keeps κ s₀ s) : Keeps κ s₀ (s.queueRun r) := by
  unfold State.queueRun
  exact h.update

theorem Keeps.readySplit {q : Nat} {c : Cmd} {x : Ext} (h : Keeps κ s₀ s) : Keeps κ s₀ (s.readySplit q c x) := by
  unfold State.readySplit
  exact h.split.setCmd.update.foldl (fun h => h.queueRun)

theorem Keeps.readySlice {q : Nat} {c : Cmd} {x : Ext} (h : Keeps κ s₀ s) : Keeps κ s₀ (s.readySlice q c x) := by
  unfold State.readySlice
  extract_lets
  split
  · exact h.countHandle.setCmd
  · split
    · exact h.setCmd
    · extract_lets
      exact .ite (by
        split
        · rename_i e
          exact (h.kvWalk.of_snd e).setCmd
        · rename_i e
          exact (h.kvWalk.of_snd e).readySplit) h.readySplit

theorem Keeps.readyEngine {q : Nat} {c : Cmd} (h : Keeps κ s₀ s) : Keeps κ s₀ (s.readyEngine q c) := by
  unfold State.readyEngine
  exact .ite h.setCmd.update h.setCmd.update.waitShared

theorem Keeps.ready {q : Nat} {c : Cmd} {x : Ext} (h : Keeps κ s₀ s) : Keeps κ s₀ (s.ready q c x) := by
  unfold State.ready
  exact .ite h.endEarly (.ite h.endEarly (.ite (.ite h.readyEngine h.readySlice) h))

theorem Keeps.createTask {q : Nat} {c : Cmd} (h : Keeps κ s₀ s) : Keeps κ s₀ (s.createTask q c) := by
  unfold State.createTask
  split
  · exact h
  · extract_lets _ s1
    have h1 : Keeps κ s₀ s1 := .ite h.unwait h
    exact .ite h1.setCmd (.ite h1.setCmd.update h1.setCmd.update.modVd)

theorem Keeps.stage {n pick : Nat} (h : Keeps κ s₀ s) : Keeps κ s₀ (s.stage n pick) := by
  unfold State.stage
  extract_lets
  exact .ite h (by
    split
    · exact h
    · exact h.update.modTask)

theorem Keeps.spillInterval {n : Nat} {c : Cmd} (h : Keeps κ s₀ s) : Keeps κ s₀ (s.spillInterval n c).2 := by
  unfold State.spillInterval
  exact .ite_snd h.update.update h.update

theorem Keeps.holdHandles {hs : List Nat} (h : Keeps κ s₀ s) : Keeps κ s₀ (s.holdHandles hs) := by
  unfold State.holdHandles
  exact h.foldl (fun h => h.setHrec)

theorem Keeps.launch {q n : Nat} {c : Cmd} (h : Keeps κ s₀ s) : Keeps κ s₀ (s.launch q n c) := by
  unfold State.launch
  split
  · exact h.countHandle.modTask
  · extract_lets _ s1 s2
    have h1 : Keeps κ s₀ s1 := h.update
    have h2 : Keeps κ s₀ s2 := .modSlice (.holdHandles (.update h1))
    have h3 : Keeps κ s₀ (if planOp c.opcode then s2.spillInterval n c else (5, s2)).2 := .ite_snd h2.spillInterval h2
    exact .ite h (.modCmd (.modTask (.foldl h3 fun h => h.gaugeEvent)))

theorem execRingDb_keeps {vd ring : Nat} {value : Word} (h : Keeps false s₀ s) : Answers s₀ (execRingDb vd ring value s) := by
  unfold execRingDb
  exact .next (h.winWrite (fun h => h.ringDb))

theorem execCqDb_keeps {vd ring : Nat} {value : Word} (h : Keeps false s₀ s) : Answers s₀ (execCqDb vd ring value s) := by
  unfold execCqDb
  exact .next (h.winWrite (fun h => h.cqDb))

theorem execRingCtrlWrite_keeps {vd ring : Nat} {value : Word} (h : Keeps false s₀ s) : Answers s₀ (execRingCtrlWrite vd ring value s) := by
  unfold execRingCtrlWrite
  exact .next (h.winWrite (fun h => h.ringCtrl))

theorem execRingBaseWrite_keeps {vd ring reg : Nat} {value : Word} (h : Keeps false s₀ s) :
    Answers s₀ (execRingBaseWrite vd ring reg value s) := by
  unfold execRingBaseWrite
  exact .next (h.winWrite (fun h => h.ringBase))

theorem execDescriptorRead_keeps {vd ring : Nat} {x : Ext} (h : Keeps false s₀ s) : Answers s₀ (execDescriptorRead vd ring x s) := by
  unfold execDescriptorRead
  exact .ite (.ite (.next (h.orWait (fun h => h.readEntry))) (.next h.waitShared)) (.next h)

theorem execCancelTag_keeps {vd : Nat} {value : DWord} (h : Keeps false s₀ s) : Answers s₀ (execCancelTag vd value s) := by
  unfold execCancelTag
  exact .next h.cancelRow

theorem execCancelStream_keeps {vd : Nat} {value : DWord} (h : Keeps false s₀ s) : Answers s₀ (execCancelStream vd value s) := by
  unfold execCancelStream
  exact .next h.cancelRow

theorem execCancelRing_keeps {vd : Nat} {value : DWord} (h : Keeps false s₀ s) : Answers s₀ (execCancelRing vd value s) := by
  unfold execCancelRing
  exact .next h.cancelRow

theorem execCancelAllRings_keeps {vd : Nat} {value : DWord} (h : Keeps false s₀ s) : Answers s₀ (execCancelAllRings vd value s) := by
  unfold execCancelAllRings
  exact .next h.cancelRow

theorem execCapturedEntryRead_keeps {vd ring : Nat} {x : Ext} (h : Keeps false s₀ s) : Answers s₀ (execCapturedEntryRead vd ring x s) := by
  unfold execCapturedEntryRead
  exact .ite (.next (h.orWait (fun h => h.readCaptured))) (.next h)

theorem execCommandDecode_keeps {cmd : Nat} (h : Keeps false s₀ s) : Answers s₀ (execCommandDecode cmd s) := by
  unfold execCommandDecode
  split
  · exact .ite (.next h.decode) (.next h)
  · exact .next h

theorem execCommandReady_keeps {cmd : Nat} {x : Ext} (h : Keeps false s₀ s) : Answers s₀ (execCommandReady cmd x s) := by
  unfold execCommandReady
  split
  · exact .ite (.next (h.orWait (fun h => h.ready))) (.next h)
  · exact .next h

theorem execTaskCreate_keeps {cmd : Nat} (h : Keeps false s₀ s) : Answers s₀ (execTaskCreate cmd s) := by
  unfold execTaskCreate
  split
  · exact .ite (.next h) (.ite (.next h.createTask) (.ite (.ite (.next h.createTask) (.next h.waitShared)) (.next h)))
  · exact .next h

theorem execTaskLaunch_keeps {slice pick : Nat} (h : Keeps false s₀ s) : Answers s₀ (execTaskLaunch slice pick s) := by
  unfold execTaskLaunch
  extract_lets
  exact .ite (.next h) (.ite (.next h.stage) (by
    split
    · split
      · exact .next h.stage.launch
      · exact .next h.stage
    · exact .next h.stage))

theorem execNop_keeps {cmd : Nat} (h : Keeps false s₀ s) : Answers s₀ (execNop cmd s) := by
  unfold execNop
  split
  · exact .next h.engineDone
  · exact .next h

theorem execFence_keeps {cmd : Nat} (h : Keeps false s₀ s) : Answers s₀ (execFence cmd s) := by
  unfold execFence
  split
  · exact .next h.engineDone
  · exact .next h

theorem execRingMsixDefer_keeps {vd ring : Nat} (h : Keeps false s₀ s) : Answers s₀ (execRingMsixDefer vd ring s) := by
  unfold execRingMsixDefer
  exact .ite (.next h.send.modRing) (.next h.modRing)

theorem execCompletionWriteFail_keeps {vd ring : Nat} {x : Ext} (h : Keeps false s₀ s) :
    Answers s₀ (execCompletionWriteFail vd ring x s) := by
  unfold execCompletionWriteFail
  extract_lets
  split
  · exact .next h.modRing.cqFaulted
  · exact .ite (.next h.cqFaulted) (.next h)

end Sys2Proof.Machine
end

section
/-! What keeps the state: tasks. -/
namespace Sys2Proof.Machine
variable {κ : Bool} {s₀ s : State}

theorem Keeps.cachedRead {t : Port} {key : Nat} {sec : Sectors} {x : Ext} {fetch : State → LineOut × State} (h : Keeps κ s₀ s)
    (hfetch : ∀ {s}, Keeps κ s₀ s → Keeps κ s₀ (fetch s).2) : Keeps κ s₀ (s.cachedRead t key sec x fetch).2 := by
  unfold State.cachedRead
  extract_lets _ copy
  cases copy with
  | some d => exact h
  | none => exact .ite (hfetch h) (.ite (.modSlice (hfetch h)) (.l1Take (hfetch h)))

theorem Keeps.opChunk {v : Nat} {t : Port} {r : OpRef} {n : Nat} {x : Ext} (h : Keeps κ s₀ s) : Keeps κ s₀ (s.opChunk v t r n x).2 := by
  unfold State.opChunk
  extract_lets
  split
  · split
    · rename_i e
      exact h.translate.of_snd e
    · rename_i e
      exact .ite_snd ((h.translate.of_snd e).cachedRead (fun h => h.lineRead)) (h.translate.of_snd e).lineRead
  · exact .ite_snd h (.ite_snd (h.cachedRead (fun h => h.poolLine)) h.poolLine)

theorem Keeps.opReadF {v : Nat} {t : Port} {x : Ext} {k : Nat} {r : OpRef} {n : Nat} (h : Keeps κ s₀ s) :
    Keeps κ s₀ (State.opReadF v t x k r n s).2 := by
  induction k generalizing r n s with
  | zero => exact h
  | succ k ih =>
    rw [State.opReadF]
    exact .ite_snd h (.ite_snd h.opChunk (ih h.opChunk))

theorem Keeps.opRead {v : Nat} {t : Port} {r : OpRef} {n : Nat} {x : Ext} (h : Keeps κ s₀ s) : Keeps κ s₀ (s.opRead v t r n x).2 := by
  unfold State.opRead
  exact h.opReadF

theorem Keeps.opPut {w : Who} {t : Port} {r : OpRef} {bs : PBytes} {x : Ext} (h : Keeps κ s₀ s) : Keeps κ s₀ (s.opPut w t r bs x).2 := by
  unfold State.opPut
  extract_lets
  split
  · split
    · rename_i e
      exact h.translate.of_snd e
    · rename_i e
      split
      split
      · rename_i e'
        exact ((h.translate.of_snd e).lineWrite.of_snd e').l1Store
      · rename_i e'
        exact (h.translate.of_snd e).lineWrite.of_snd e'
  · exact .ite_snd h h.poolWrite.l1Store

theorem Keeps.opWriteF {w : Who} {t : Port} {x : Ext} {k : Nat} {r : OpRef} {bs : PBytes} (h : Keeps κ s₀ s) :
    Keeps κ s₀ (State.opWriteF w t x k r bs s).2 := by
  induction k generalizing r bs s with
  | zero => exact h
  | succ k ih =>
    unfold State.opWriteF
    split
    · exact h
    · extract_lets
      split
      · rename_i e
        exact h.opPut.of_snd e
      · rename_i e
        exact ih (h.opPut.of_snd e)

theorem Keeps.opWrite {w : Who} {t : Port} {r : OpRef} {bs : PBytes} {x : Ext} (h : Keeps κ s₀ s) :
    Keeps κ s₀ (s.opWrite w t r bs x).2 := by
  unfold State.opWrite
  exact h.opWriteF

theorem Keeps.lineRed {gl fmt : Nat} {d : Line} {p : Sectors} {w : Who} {pick : Nat} {em : BitVec 64} (h : Keeps κ s₀ s) :
    Keeps κ s₀ (s.lineRed gl fmt d p w pick em).2 := by
  unfold State.lineRed
  exact .ite_snd (.ite_snd h.goneRecord h.rowReq) (.ite_snd h h.rowReq)

theorem Keeps.poolRed {p o fmt : Nat} {d : Line} {po : Sectors} {w : Who} {pick : Nat} {em : BitVec 64} (h : Keeps κ s₀ s) :
    Keeps κ s₀ (s.poolRed p o fmt d po w pick em).2 := by
  unfold State.poolRed
  exact .ite_snd h.stalled (.ite_snd h.bayMerge.bayMerge.countNan.countSat h.lineRed)

theorem Keeps.lineAtom {gl off : Nat} {c : Cmd} {w : Who} {pick : Nat} (h : Keeps κ s₀ s) : Keeps κ s₀ (s.lineAtom gl off c w pick) := by
  unfold State.lineAtom
  exact .ite h.goneRecord.whoFailed (.ite h.whoFailed h.rowReq)

theorem Keeps.finishWrites {q vd : Nat} (h : Keeps κ s₀ s) : Keeps κ s₀ (s.finishWrites q vd) := by
  unfold State.finishWrites
  exact h.foldl (fun h => h.stalled)

theorem Keeps.readDescs {q n : Nat} {c : Cmd} (h : Keeps κ s₀ s) : Keeps κ s₀ (s.readDescs q n c) := by
  unfold State.readDescs
  exact h.modSlice

theorem Keeps.taskStep {q n op : Nat} {f : Cmd → Task → State} (h : Keeps κ s₀ s) (hf : ∀ {x0 x1}, Keeps κ s₀ (f x0 x1)) :
    Keeps κ s₀ (s.taskStep q n op f) := by
  unfold State.taskStep
  split
  · exact h
  · split
    · exact h
    · exact .ite h (.ite h.modTask hf.readDescs)

theorem Keeps.taskFault {q n : Nat} {f : Status × Nat} (h : Keeps κ s₀ s) : Keeps κ s₀ (s.taskFault q n f) := by
  unfold State.taskFault
  exact h.modTask

end Sys2Proof.Machine
end

section
/-! What keeps the state: draining results. -/
namespace Sys2Proof.Machine
variable {κ : Bool} {s₀ s : State}

theorem Keeps.countCvt {n sat nan : Nat} (h : Keeps κ s₀ s) : Keeps κ s₀ (s.countCvt n sat nan) := by
  unfold State.countCvt
  exact h.modSlice

theorem Keeps.useConsts {n plan : Nat} {p : Plan} {ins : List FVal} (h : Keeps κ s₀ s) : Keeps κ s₀ (s.useConsts n plan p ins) := by
  unfold State.useConsts
  exact h.modSlice

end Sys2Proof.Machine
end

section
/-! What keeps the state: service calls. -/
namespace Sys2Proof.Machine
variable {κ : Bool} {s₀ s : State}

theorem Keeps.blockDone {q n : Nat} {b : Block} {len total count : Nat} (h : Keeps κ s₀ s) :
    Keeps κ s₀ (s.blockDone q n b len total count) := by
  unfold State.blockDone
  split
  · exact h.taskFault
  · exact h.modTask

theorem Keeps.unitFence {q n : Nat} {p : Plan} {t : Task} {f : State → State} (h : Keeps κ s₀ s)
    (hf : ∀ {s}, Keeps κ s₀ s → Keeps κ s₀ (f s)) : Keeps κ s₀ (s.unitFence q n p t f) := by
  unfold State.unitFence
  exact .ite h (.modTask (hf (.ite h.modSlice h)))

theorem Keeps.copyPiece {w : Who} {t : Port} {src dst : OpRef} {n : Nat} {x : Ext} (h : Keeps κ s₀ s) :
    Keeps κ s₀ (s.copyPiece w t src dst n x).2 := by
  unfold State.copyPiece
  split
  rename_i e
  split
  · exact h.opRead.of_snd e
  · exact (h.opRead.of_snd e).opWrite

theorem Keeps.copyF {w : Who} {t : Port} {x : Ext} {k : Nat} {src dst : OpRef} {n : Nat} (h : Keeps κ s₀ s) :
    Keeps κ s₀ (State.copyF w t x k src dst n s).2 := by
  induction k generalizing src dst n s with
  | zero => exact h
  | succ k ih =>
    rw [State.copyF]
    exact .ite_snd h (.ite_snd h.copyPiece (ih h.copyPiece))

theorem Keeps.readMarked {v : Nat} {t : Port} {x : Ext} {k : Nat} {r : OpRef} {n : Nat} (h : Keeps κ s₀ s) :
    Keeps κ s₀ (State.readMarked v t x k r n s).2 := by
  induction k generalizing r n s with
  | zero => exact h
  | succ k ih =>
    rw [State.readMarked]
    extract_lets
    exact .ite_snd h (by
      split
      rename_i e
      split
      · exact h.opRead.of_snd e
      · split <;>
          (rename_i e'; exact .of_snd (ih (h.opRead.of_snd e)) e'))

theorem Keeps.addLine {s1 : State} {w : Who} {fmt : Nat} {t : Port} {r : OpRef} {d : Line} {p : Sectors} {x : Ext}
    {em : BitVec 64} {n : Nat} (h : Keeps κ s₀ s1) : Keeps κ s₀ (s1.addLine w fmt t r d p x em n).2 := by
  unfold State.addLine
  split
  · split
    · rename_i e
      exact h.translate.of_snd e
    · rename_i e
      split <;>
        (rename_i e'; exact (h.translate.of_snd e).lineRed.of_snd e')
  · exact .ite_snd h (by
      split <;>
        (rename_i e; exact h.poolRed.of_snd e))

theorem Keeps.reduceLine {c : Cmd} {q : Nat} {t : Port} {o : Nat} {x : Ext} (h : Keeps κ s₀ s) : Keeps κ s₀ (s.reduceLine c q t o x).2 := by
  unfold State.reduceLine
  split
  · rename_i e
    exact h.readMarked.of_snd e
  · rename_i e
    exact (h.readMarked.of_snd e).addLine

theorem Keeps.reduceF {c : Cmd} {q : Nat} {t : Port} {x : Ext} {k o : Nat} (h : Keeps κ s₀ s) :
    Keeps κ s₀ (State.reduceF c q t x k o s).2 := by
  induction k generalizing o s with
  | zero => exact h
  | succ k ih =>
    rw [State.reduceF]
    exact .ite_snd h.reduceLine (ih h.reduceLine)

theorem Keeps.atomDone {q n : Nat} {old : Option Nat} {width : Nat} (h : Keeps κ s₀ s) : Keeps κ s₀ (s.atomDone q n old width) := by
  unfold State.atomDone
  split
  · exact h.modCmd.modTask
  · exact h.draw.draw.modCmd.modTask

theorem Keeps.atomTake {q n width : Nat} (h : Keeps κ s₀ s) : Keeps κ s₀ (s.atomTake q n width) := by
  unfold State.atomTake
  split
  · split
    · exact h.setCmd.atomDone
    · exact h
  · exact h

theorem Keeps.updateGroup {c : Cmd} {q : Nat} {t0 : Port} {p : Plan} {grp : Nat} {x : Ext} (h : Keeps κ s₀ s) :
    Keeps κ s₀ (s.updateGroup c q t0 p grp x).2 := by
  unfold State.updateGroup
  extract_lets
  split
  rename_i e
  split
  · exact h.opRead.of_snd e
  · split
    rename_i e'
    extract_lets
    split
    · exact (h.opRead.of_snd e).opRead.of_snd e'
    · exact ((h.opRead.of_snd e).opRead.of_snd e').opWrite.countCvt

theorem Keeps.updateF {c : Cmd} {q : Nat} {t : Port} {p : Plan} {x : Ext} {k grp : Nat} (h : Keeps κ s₀ s) :
    Keeps κ s₀ (State.updateF c q t p x k grp s).2 := by
  induction k generalizing grp s with
  | zero => exact h
  | succ k ih =>
    rw [State.updateF]
    exact .ite_snd h.updateGroup (ih h.updateGroup)

theorem Keeps.kvRow {c : Cmd} {q : Nat} {t : Port} {p : Plan} {src dst : Nat} {x : Ext} (h : Keeps κ s₀ s) :
    Keeps κ s₀ (s.kvRow c q t p src dst x).2 := by
  unfold State.kvRow
  extract_lets
  split
  rename_i e
  extract_lets
  split
  · exact h.opRead.of_snd e
  · exact (h.opRead.of_snd e).useConsts.opWrite.countCvt

theorem Keeps.kvRows {v : Nat} {t : Port} {row : Nat} {x : Ext} {n a : Nat} (h : Keeps κ s₀ s) :
    Keeps κ s₀ (State.kvRows v t row x n a s).2 := by
  induction n generalizing a s with
  | zero => exact h
  | succ n ih =>
    rw [State.kvRows]
    split
    rename_i e
    split
    · exact h.opRead.of_snd e
    · split <;>
        (rename_i e'; exact .of_snd (ih (h.opRead.of_snd e)) e')

theorem Keeps.attnPage {c : Cmd} {q n u : Nat} {x : Ext} (h : Keeps κ s₀ s) : Keeps κ s₀ (s.attnPage c q n u x).2 := by
  unfold State.attnPage
  extract_lets
  split
  rename_i e
  extract_lets
  split
  · exact h.opRead.of_snd e
  · split
    · rename_i e'
      exact (h.opRead.of_snd e).kvRows.of_snd e'
    · rename_i e'
      extract_lets
      split
      · rename_i e''
        exact ((h.opRead.of_snd e).kvRows.of_snd e').kvRows.of_snd e''
      · rename_i e''
        extract_lets _ _ s3 s4
        have h3 : Keeps κ s₀ s3 := (((h.opRead.of_snd e).kvRows.of_snd e').kvRows.of_snd e'').countCvt
        have h4 : Keeps κ s₀ s4 := .ite h3 h3.modSlice
        exact h4.modCmd

theorem Keeps.drainRow {c : Cmd} {q : Nat} {t : Port} {p : Plan} {mode : Nat → Rounding} {dst : OpRef} {vs : List FVal}
    {bad : Nat → Bool} {x : Ext} (h : Keeps κ s₀ s) : Keeps κ s₀ (s.drainRow c q t p mode dst vs bad x).2 := by
  unfold State.drainRow
  extract_lets
  split
  · rename_i e
    exact .of_snd (.ite_snd h.readMarked h) e
  · rename_i e
    exact .countCvt (.opWrite (.useConsts (.of_snd (.ite_snd h.readMarked h) e)))

theorem Keeps.attnFold {c : Cmd} {q n : Nat} {poison : Bool} {x : Ext} (h : Keeps κ s₀ s) : Keeps κ s₀ (s.attnFold c q n poison x).2 := by
  unfold State.attnFold
  extract_lets
  split
  · exact h
  · exact h.drainRow

theorem execCopy_keeps {cmd slice : Nat} {x : Ext} (h : Keeps false s₀ s) : Answers s₀ (execCopy cmd slice x s) := by
  unfold execCopy
  refine .next (h.orWait fun h => h.taskStep ?_)
  intro c t
  split
  split
  rename_i e
  exact (h.copyF.of_snd e).blockDone

theorem execFill_keeps {cmd slice : Nat} {x : Ext} (h : Keeps false s₀ s) : Answers s₀ (execFill cmd slice x s) := by
  unfold execFill
  exact .next (h.orWait (fun h => h.taskStep h.opWrite.blockDone))

theorem execCompare_keeps {cmd slice : Nat} {x : Ext} (h : Keeps false s₀ s) : Answers s₀ (execCompare cmd slice x s) := by
  unfold execCompare
  refine .next (h.orWait fun h => h.taskStep ?_)
  intro c t
  extract_lets
  split
  split
  · rename_i e
    exact (h.readMarked.of_snd e).taskFault
  · rename_i e
    split
    · rename_i e'
      exact ((h.readMarked.of_snd e).readMarked.of_snd e').taskFault
    · rename_i e'
      split
      · exact ((h.readMarked.of_snd e).readMarked.of_snd e').blockDone
      · exact ((h.readMarked.of_snd e).readMarked.of_snd e').modCmd.blockDone

theorem execReduce_keeps {cmd slice : Nat} {x : Ext} (h : Keeps false s₀ s) : Answers s₀ (execReduce cmd slice x s) := by
  unfold execReduce
  exact .next (h.orWait (fun h => h.taskStep (.ite h.modTask h.reduceF.blockDone)))

theorem execAtomic_keeps {cmd slice : Nat} {x : Ext} (h : Keeps false s₀ s) : Answers s₀ (execAtomic cmd slice x s) := by
  unfold execAtomic
  exact .next (h.orWait (fun h => h.taskStep (.ite h.atomTake (.ite h (by
    extract_lets
    split
    · split
      · rename_i e
        exact (h.translate.of_snd e).taskFault
      · rename_i e
        exact (h.translate.of_snd e).lineAtom.atomTake
    · exact .ite h (.ite h.taskFault (.ite (.ite h.atomDone h.poolWrite.atomDone) h.lineAtom.atomTake)))))))

theorem execParamUpdate_keeps {cmd slice : Nat} {x : Ext} (h : Keeps false s₀ s) : Answers s₀ (execParamUpdate cmd slice x s) := by
  unfold execParamUpdate
  exact .next (h.orWait (fun h => h.taskStep (h.unitFence (fun h => h.updateF.blockDone))))

theorem execKvAppend_keeps {cmd slice : Nat} {x : Ext} (h : Keeps false s₀ s) : Answers s₀ (execKvAppend cmd slice x s) := by
  unfold execKvAppend
  exact .next (h.orWait (fun h => h.taskStep (.ite h.kvRow.blockDone h.kvRow.kvRow.blockDone)))

theorem execAttnDecode_keeps {cmd slice : Nat} {x : Ext} (h : Keeps false s₀ s) : Answers s₀ (execAttnDecode cmd slice x s) := by
  unfold execAttnDecode
  exact .next (h.orWait (fun h => h.taskStep (h.unitFence (fun h => h.attnPage.blockDone))))

end Sys2Proof.Machine
end

section
/-! What keeps the state: the Runners. -/
namespace Sys2Proof.Machine
variable {κ : Bool} {s₀ s : State}

theorem Keeps.setRunner {n : Nat} {r : Runner} (h : Keeps κ s₀ s) : Keeps κ s₀ (s.setRunner n r) := by
  unfold State.setRunner
  exact h.update

theorem Keeps.dropRunner {n : Nat} (h : Keeps κ s₀ s) : Keeps κ s₀ (s.dropRunner n) := by
  unfold State.dropRunner
  exact h.update

theorem Keeps.runnerStop {n : Nat} {r : Runner} {f : Fin} (h : Keeps κ s₀ s) : Keeps κ s₀ (s.runnerStop n r f) := by
  unfold State.runnerStop
  exact .ite h.dropRunner.modTask h.setRunner

theorem Keeps.startBay {q n : Nat} {c : Cmd} {t : Task} (h : Keeps κ s₀ s) : Keeps κ s₀ (s.startBay q n c t) := by
  unfold State.startBay
  extract_lets s1
  have h1 : Keeps κ s₀ s1 := .ite h.modSlice h
  exact .ite h h1.setRunner

theorem Keeps.endBay {n : Nat} {r : Runner} {c : Cmd} {t : Task} (h : Keeps κ s₀ s) : Keeps κ s₀ (s.endBay n r c t) := by
  unfold State.endBay
  exact .ite h.dropRunner.modTask h.dropRunner.modTask

theorem Keeps.readRows {v : Nat} {t : Port} {r : OpRef} {stride len : Nat} {x : Ext} {n i : Nat} (h : Keeps κ s₀ s) :
    Keeps κ s₀ (State.readRows v t r stride len x n i s).2 := by
  induction n generalizing i s with
  | zero => exact h
  | succ n ih =>
    rw [State.readRows]
    exact ih h.opRead

theorem Keeps.loadA {c : Cmd} {p : Plan} {n m0 : Nat} {rows k0 kEnd : Nat} {x : Ext} (h : Keeps κ s₀ s) :
    Keeps κ s₀ (s.loadA c p n m0 rows k0 kEnd x).2 := by
  unfold State.loadA
  exact h.readRows

theorem Keeps.loadXs {c : Cmd} {p : Plan} {n n0 : Nat} {cols k0 kEnd : Nat} {x : Ext} (h : Keeps κ s₀ s) :
    Keeps κ s₀ (s.loadXs c p n n0 cols k0 kEnd x).2 := by
  unfold State.loadXs
  exact h.readRows.countCvt

theorem Keeps.setRun {d : Nat} {r : Option FlumeRun} (h : Keeps κ s₀ s) : Keeps κ s₀ (s.setRun d r) := by
  unfold State.setRun
  exact h.update

theorem Keeps.supplyX {n : Nat} {xs : List RdOut} (h : Keeps κ s₀ s) : Keeps κ s₀ (s.supplyX n xs) := by
  unfold State.supplyX
  split
  · exact h.setRun
  · exact h

theorem Keeps.loadTile {n : Nat} {r : Runner} {c : Cmd} {t : Task} {x : Ext} (h : Keeps κ s₀ s) : Keeps κ s₀ (s.loadTile n r c t x) := by
  unfold State.loadTile
  extract_lets
  split
  · exact h
  · extract_lets _ prev
    split
    · exact h
    · extract_lets
      refine .ite h (.ite h (.ite h ?_))
      cases prev with
      | none =>
        split
        rename_i e
        split
        rename_i e'
        have h1 := h.loadA.of_snd e
        have h2 := Keeps.of_snd (.ite_snd h1 h1.loadXs) e'
        exact .setRunner (.ite h2.supplyX h2)
      | some d =>
        split
        rename_i e
        split
        rename_i e'
        have h1 := Keeps.of_snd (.ite_snd h h.loadA) e
        have h2 := Keeps.of_snd (.ite_snd h1 (.ite_snd h1 h1.loadXs)) e'
        exact .setRunner (.ite h2.supplyX h2)

theorem Keeps.beginAttempt {n : Nat} {p : Plan} {adj : Nat} (h : Keeps κ s₀ s) : Keeps κ s₀ (s.beginAttempt n p adj) := by
  unfold State.beginAttempt
  exact .ite h.modSlice h

theorem Keeps.overflow {n : Nat} {r : Runner} {p : Plan} {y : Active} {kLo : Nat} (h : Keeps κ s₀ s) :
    Keeps κ s₀ (s.overflow n r p y kLo) := by
  unfold State.overflow
  exact .ite h.runnerStop h.modSlice.modTask.setRunner

theorem Keeps.runActive {n : Nat} {r : Runner} {c : Cmd} {t : Task} {y : Active} {o : Operands} {v : Visit} {next : Option Visit}
    {kLo : Nat} (h : Keeps κ s₀ s) : Keeps κ s₀ (s.runActive n r c t y o v next kLo) := by
  unfold State.runActive
  extract_lets
  split
  extract_lets s2
  have h2 : Keeps κ s₀ s2 := .ite h h.modSlice
  exact .ite h2.overflow h2.setRunner

theorem Keeps.tileAttempt {n : Nat} {r0 : Runner} {c : Cmd} {t : Task} {x : Ext} (h : Keeps κ s₀ s) :
    Keeps κ s₀ (s.tileAttempt n r0 c t x) := by
  unfold State.tileAttempt
  extract_lets _ _ f2
  have h2 : ∀ {x0 x1}, Keeps κ s₀ (f2 x0 x1) := by
    intro x0 x1
    unfold f2
    split
    · extract_lets
      split
      · extract_lets _ _ s1
        have h1 : Keeps κ s₀ s1 := .ite h.beginAttempt h
        exact .ite h (by
          split
          · exact h.runnerStop
          · exact h1.runActive)
      · exact h
    · exact h
  exact .ite h.runnerStop (by
    split
    · exact h2
    · split
      · exact h2
      · split
        · exact h.runActive
        · split
          · exact h.runActive
          · exact h
      · exact .ite h (by
          split
          rename_i e
          split
          rename_i e'
          extract_lets
          split
          · exact ((h.loadA.of_snd e).loadXs.of_snd e').runnerStop
          · exact .runActive (.ite ((h.loadA.of_snd e).loadXs.of_snd e').beginAttempt ((h.loadA.of_snd e).loadXs.of_snd e')))
      · exact h)

theorem Keeps.tileError {n : Nat} (h : Keeps κ s₀ s) : Keeps κ s₀ (s.tileError n) := by
  unfold State.tileError
  split
  · split
    · exact .ite h.setRunner h.setRunner
    · exact h
  · exact h

theorem Keeps.spillTile {n : Nat} {r : Runner} {c : Cmd} {t : Task} {y : Active} {leave : Bool} (h : Keeps κ s₀ s) :
    Keeps κ s₀ (s.spillTile n r c t y leave) := by
  unfold State.spillTile
  extract_lets
  exact .ite (by
    split
    · exact h.modSlice.overflow
    · exact h.modSlice) (.ite h.modSlice.setRunner h.modSlice.setRunner)

theorem Keeps.swapSets {n : Nat} {r : Runner} {p : Plan} {t : Task} {y : Active} {wait : Nat} (h : Keeps κ s₀ s) :
    Keeps κ s₀ (s.swapSets n r p t y wait) := by
  unfold State.swapSets
  extract_lets _ _ _ s1
  have h1 : Keeps κ s₀ s1 := .ite h.modSlice h.modSlice.modSlice
  exact .ite h.modSlice (.ite h.modSlice.runnerStop h1.setRunner)

theorem Keeps.auxVec {c : Cmd} {n off : Nat} {m0 rows : Nat} {x : Ext} (h : Keeps κ s₀ s) : Keeps κ s₀ (s.auxVec c n off m0 rows x).2 := by
  unfold State.auxVec
  split <;>
    (rename_i e; exact h.readMarked.of_snd e)

theorem Keeps.stageVec {c : Cmd} {n : Nat} {on src : Bool} {const off : Nat} {m0 rows : Nat} {x : Ext} (h : Keeps κ s₀ s) :
    Keeps κ s₀ (s.stageVec c n on src const off m0 rows x).2 := by
  unfold State.stageVec
  exact .ite_snd h.auxVec h

theorem Keeps.residual {c : Cmd} {p : Plan} {n m0 : Nat} {rows col : Nat} {x : Ext} (h : Keeps κ s₀ s) :
    Keeps κ s₀ (s.residual c p n m0 rows col x).2 := by
  unfold State.residual
  extract_lets
  exact .ite_snd h (by
    split
    · rename_i e
      exact h.readMarked.of_snd e
    · rename_i e
      exact (h.readMarked.of_snd e).countCvt)

theorem Keeps.drainCol {c : Cmd} {q n : Nat} {p : Plan} {sh : Shadow} {sc bi : List (FVal × Bool)} {j : Nat} {x : Ext}
    (h : Keeps κ s₀ s) : Keeps κ s₀ (s.drainCol c q n p sh sc bi j x).2 := by
  unfold State.drainCol
  extract_lets
  split
  · rename_i e
    exact h.residual.of_snd e
  · rename_i e
    exact (h.residual.of_snd e).useConsts.opWrite.countCvt

theorem Keeps.drainCols {c : Cmd} {q n : Nat} {p : Plan} {sh : Shadow} {sc bi : List (FVal × Bool)} {x : Ext} {k j : Nat}
    (h : Keeps κ s₀ s) : Keeps κ s₀ (State.drainCols c q n p sh sc bi x k j s).2 := by
  induction k generalizing j s with
  | zero => exact h
  | succ k ih =>
    rw [State.drainCols]
    exact .ite_snd h.drainCol (ih h.drainCol)

theorem Keeps.drainTile {c : Cmd} {q n : Nat} {sh : Shadow} {x : Ext} (h : Keeps κ s₀ s) : Keeps κ s₀ (s.drainTile c q n sh x).2 := by
  unfold State.drainTile
  extract_lets
  split
  · rename_i e
    exact h.stageVec.of_snd e
  · rename_i e
    split
    · rename_i e'
      exact (h.stageVec.of_snd e).stageVec.of_snd e'
    · rename_i e'
      exact .ite_snd ((h.stageVec.of_snd e).stageVec.of_snd e').drainCols ((h.stageVec.of_snd e).stageVec.of_snd e').drainCols.opWrite

theorem Keeps.shadowFree {n : Nat} {r : Runner} {c : Cmd} {t : Task} (h : Keeps κ s₀ s) : Keeps κ s₀ (s.shadowFree n r c t) := by
  unfold State.shadowFree
  split
  · exact h.dropRunner.modTask
  · exact .ite h.endBay h.setRunner

theorem Keeps.queuePartial {n : Nat} {r : Runner} {c : Cmd} {t : Task} {sh : Shadow} (h : Keeps κ s₀ s) :
    Keeps κ s₀ (s.queuePartial n r c t sh) := by
  unfold State.queuePartial
  extract_lets
  split
  · exact h
  · exact .ite h.setRun.shadowFree h

theorem Keeps.drainDone {n : Nat} {r : Runner} {c : Cmd} {t : Task} {sh : Shadow} {x : Ext} (h : Keeps κ s₀ s) :
    Keeps κ s₀ (s.drainDone n r c t sh x) := by
  unfold State.drainDone
  extract_lets
  exact .ite h.shadowFree (.ite h.queuePartial (by
    split
    rename_i e
    split
    · exact (h.drainTile.of_snd e).dropRunner.modTask
    · exact (h.drainTile.of_snd e).modTask.shadowFree))

theorem execMatmul_keeps {cmd slice : Nat} (h : Keeps false s₀ s) : Answers s₀ (execMatmul cmd slice s) := by
  unfold execMatmul
  split
  · exact .next h
  · exact .next (h.taskStep h.startBay)

theorem execLocalTileLoaded_keeps {slice : Nat} {x : Ext} (h : Keeps false s₀ s) : Answers s₀ (execLocalTileLoaded slice x s) := by
  unfold execLocalTileLoaded
  split
  · exact .next (h.orWait (fun h => h.loadTile))
  · exact .next h

theorem execSpill_keeps {slice : Nat} (h : Keeps false s₀ s) : Answers s₀ (execSpill slice s) := by
  unfold execSpill
  split
  · split
    · split
      · exact .next h.spillTile
      · exact .next h
    · exact .next h
  · exact .next h

theorem execAccSetSwap_keeps {slice wait : Nat} (h : Keeps false s₀ s) : Answers s₀ (execAccSetSwap slice wait s) := by
  unfold execAccSetSwap
  split
  · split
    · exact .ite (.next h.swapSets) (.next h)
    · exact .next h
  · exact .next h

theorem execDrainDone_keeps {slice : Nat} {x : Ext} (h : Keeps false s₀ s) : Answers s₀ (execDrainDone slice x s) := by
  unfold execDrainDone
  split
  · exact .next h
  · split
    · split
      · exact .next (h.orWait (fun h => h.drainDone))
      · exact .next h
    · exact .next h

end Sys2Proof.Machine
end

section
/-! What keeps the state: gathering. -/
namespace Sys2Proof.Machine
variable {κ : Bool} {s₀ s : State}

theorem Keeps.gatherRow {c : Cmd} {p : Plan} {n row : Nat} {n0 cols : Nat} {x : Ext} (h : Keeps κ s₀ s) :
    Keeps κ s₀ (s.gatherRow c p n row n0 cols x).2 := by
  unfold State.gatherRow
  extract_lets
  split
  · rename_i e
    exact h.readMarked.of_snd e
  · rename_i e
    exact (h.readMarked.of_snd e).countCvt

theorem Keeps.gatherEntry {c : Cmd} {p : Plan} {n : Nat} {v : Visit} {l : LiveTile} {i k : Nat} {list : RdOut} {k0 : Nat}
    {x : Ext} (h : Keeps κ s₀ s) : Keeps κ s₀ (s.gatherEntry c p n v l i k list k0 x).2 := by
  unfold State.gatherEntry
  extract_lets
  exact .ite_snd h (.ite_snd h (.ite_snd h (by
    split <;>
      (rename_i e; exact h.gatherRow.of_snd e))))

theorem Keeps.gatherEntries {c : Cmd} {p : Plan} {n : Nat} {v : Visit} {lists : List RdOut} {x : Ext} {t : List (Nat × Nat)}
    {l : LiveTile} (h : Keeps κ s₀ s) : Keeps κ s₀ (State.gatherEntries c p n v lists x t l s).2 := by
  induction t generalizing l s with
  | nil => exact h
  | cons e t ih =>
    unfold State.gatherEntries
    split
    · rename_i e
      exact h.gatherEntry.of_snd e
    · rename_i e
      exact ih (h.gatherEntry.of_snd e)

theorem Keeps.gatherDrain {c : Cmd} {q n : Nat} {p : Plan} {v : Visit} {l : LiveTile} {x : Ext} {k i : Nat} (h : Keeps κ s₀ s) :
    Keeps κ s₀ (State.gatherDrain c q n p v l x k i s).2 := by
  induction k generalizing i s with
  | zero => exact h
  | succ k ih =>
    rw [State.gatherDrain]
    exact .ite_snd (.ite_snd h.drainRow h.update.opWrite) (ih (.ite_snd h.drainRow h.update.opWrite))

theorem Keeps.gatherLists {c : Cmd} {n : Nat} {r : Runner} {y : BayTile} {v : Visit} {lt : LocTile} {x : Ext} (h : Keeps κ s₀ s) :
    Keeps κ s₀ (s.gatherLists c n r y v lt x).2 := by
  unfold State.gatherLists
  extract_lets
  split
  · exact h
  · exact h.readRows

theorem Keeps.gatherStep {q n : Nat} {c : Cmd} {t : Task} {r : Runner} {x : Ext} (h : Keeps κ s₀ s) :
    Keeps κ s₀ (s.gatherStep q n c t r x) := by
  unfold State.gatherStep
  extract_lets
  split
  · extract_lets
    split
    · exact h
    · split
      rename_i e
      extract_lets
      split
      · exact (h.gatherLists.of_snd e).dropRunner.taskFault
      · split
        · rename_i e'
          exact ((h.gatherLists.of_snd e).gatherEntries.of_snd e').dropRunner.taskFault
        · rename_i e'
          exact .ite ((h.gatherLists.of_snd e).gatherEntries.of_snd e').setRunner (by
            split
            rename_i e''
            extract_lets s3
            have h3 : Keeps κ s₀ s3 := (((h.gatherLists.of_snd e).gatherEntries.of_snd e').gatherDrain.of_snd e'').modTask
            split
            · exact (((h.gatherLists.of_snd e).gatherEntries.of_snd e').gatherDrain.of_snd e'').dropRunner.taskFault
            · exact .ite h3.endBay h3.setRunner)
  · exact h

theorem execEmbGather_keeps {cmd slice : Nat} {x : Ext} (h : Keeps false s₀ s) : Answers s₀ (execEmbGather cmd slice x s) := by
  unfold execEmbGather
  split
  · exact .next h
  · split
    · exact .next h
    · exact .ite (.next h) (.ite (.next h.dropRunner.modTask) (by
        split
        · exact .next h.startBay.readDescs
        · exact .next (h.orWait (fun h => h.gatherStep))))

end Sys2Proof.Machine
end

section
/-! What keeps the state: the Flumes and Races. -/
namespace Sys2Proof.Machine
variable {κ : Bool} {s₀ s : State}

theorem Keeps.setFlume {d : Nat} {f : Flume} (h : Keeps κ s₀ s) : Keeps κ s₀ (s.setFlume d f) := by
  unfold State.setFlume
  exact h.update

theorem Keeps.dieClockOn {d : Nat} (h : Keeps κ s₀ s) : Keeps κ s₀ (s.dieClockOn d) := by
  unfold State.dieClockOn
  exact h.update

theorem Keeps.supplyTaken {die : Nat} {g : FlumeRun} {i : Nat} (h : Keeps κ s₀ s) : Keeps κ s₀ (s.supplyTaken die g i) := by
  unfold State.supplyTaken
  extract_lets
  split
  · exact h.setRun
  · split
    · exact h.setRunner
    · exact h

theorem Keeps.reducePeriod {die : Nat} {g : FlumeRun} {c : Cmd} {fmt : Nat} {v : FlumeVariant} (h : Keeps κ s₀ s) :
    Keeps κ s₀ (s.reducePeriod die g c fmt v) := by
  unfold State.reducePeriod
  extract_lets _ _ parts _ _ _ s1 s2
  have h1 : Keeps κ s₀ s1 := h.update.foldl fun h => h.countNan.countSat
  have h2 : Keeps κ s₀ s2 := h1.foldl fun h => h.supplyTaken.countCvt
  clear_value s1 s2
  cases parts with
  | nil => exact h
  | cons d _ =>
    cases d with
    | none => exact h
    | some d =>
      refine .ite h ?_
      split
      split
      · exact h2.setRunner
      · exact h2

theorem Keeps.multicastPeriod {die : Nat} {g : FlumeRun} {c : Cmd} {v : FlumeVariant} (h : Keeps κ s₀ s) :
    Keeps κ s₀ (s.multicastPeriod die g c v) := by
  unfold State.multicastPeriod
  split
  · exact h
  · exact h.update.setRun.foldl (fun h => (by
      split
      · exact .ite h.setRunner h
      · exact h))

theorem Keeps.dropUnsummed {n q : Nat} (h : Keeps κ s₀ s) : Keeps κ s₀ (s.dropUnsummed n q) := by
  unfold State.dropUnsummed
  split
  · split
    · exact .ite h.shadowFree h
    · exact h
  · exact h

theorem Keeps.runOver {die : Nat} {g : FlumeRun} {early : Bool} (h : Keeps κ s₀ s) : Keeps κ s₀ (s.runOver die g early) := by
  unfold State.runOver
  exact h.setFlume.gaugeEvent

theorem Keeps.setRace {i : Nat} {r : Race} (h : Keeps κ s₀ s) : Keeps κ s₀ (s.setRace i r) := by
  unfold State.setRace
  exact h.update

theorem execFlumeRunGrant_keeps {die pick : Nat} (h : Keeps false s₀ s) : Answers s₀ (execFlumeRunGrant die pick s) := by
  unfold execFlumeRunGrant
  extract_lets
  split
  · exact .next h
  · split
    · exact .next h.dieClockOn.setFlume
    · exact .next h.setFlume

theorem execFlumePeriodStart_keeps {die wait slips : Nat} (h : Keeps false s₀ s) : Answers s₀ (execFlumePeriodStart die wait slips s) := by
  unfold execFlumePeriodStart
  split
  · exact .next h
  · split
    · exact .next h
    · extract_lets
      split
      · exact .next h
      · extract_lets _ s1
        have h1 : Keeps false s₀ s1 := .ite h.reducePeriod h.multicastPeriod
        exact .ite (.next h) (.next h1.setFlume)

theorem execFlumeRunEnd_keeps {die wait : Nat} (h : Keeps false s₀ s) : Answers s₀ (execFlumeRunEnd die s wait) := by
  unfold execFlumeRunEnd
  extract_lets
  split
  · exact .next h
  · exact .ite (.next h.runOver) (.ite (.next (.ite (h.setFlume.runOver.foldl (fun h => h.dropUnsummed)) h.setFlume.runOver)) (.next h))

theorem execRaceGrant_keeps {race out : Nat} {arrived : List RaceMsg} {credits : List Nat} (h : Keeps false s₀ s) :
    Answers s₀ (execRaceGrant race out arrived s credits) := by
  unfold execRaceGrant
  extract_lets
  exact .ite (.next h) (by
    split
    · exact .next h.dieClockOn.setRace
    · exact .next h.setRace)

end Sys2Proof.Machine
end

section
/-! What keeps the state: the end of a task. -/
namespace Sys2Proof.Machine
variable {κ : Bool} {s₀ s : State}

theorem Keeps.spillNote {c : Cmd} {t : Task} (h : Keeps κ s₀ s) : Keeps κ s₀ (s.spillNote c t) := by
  unfold State.spillNote
  exact .ite h h.update

theorem Keeps.freeSlot {v : Nat} (h : Keeps κ s₀ s) : Keeps κ s₀ (s.freeSlot v) := by
  unfold State.freeSlot
  exact h.modVd

theorem Keeps.attnLast {q : Nat} {c : Cmd} {t : Task} {x : Ext} (h : Keeps κ s₀ s) : Keeps κ s₀ (s.attnLast q c t x) := by
  unfold State.attnLast
  exact h.attnFold.modTask

theorem Keeps.taskEnd {q : Nat} {c : Cmd} {t : Task} {f : Fin} (h : Keeps κ s₀ s) : Keeps κ s₀ (s.taskEnd q c t f) := by
  unfold State.taskEnd
  extract_lets _ s1 s2 s3
  have h1 : Keeps κ s₀ s1 := by
    unfold s1
    split
    · exact .ite (h.update.foldl (fun h => h.unref)).dropRunner (h.update.foldl (fun h => h.unref))
    · exact h.update.foldl (fun h => h.unref)
  have h2 : Keeps κ s₀ s2 := .ite h1.spillNote h1
  have h3 : Keeps κ s₀ s3 := .ite h2.freeSlot h2
  exact h3.modCmd

theorem Keeps.endRecord {c : Cmd} {d : Done} {x : Ext} (h : Keeps κ s₀ s) : Keeps κ s₀ (s.endRecord c d x) := by
  unfold State.endRecord
  exact .ite h.postVd (.ite h.postVd.post h)

theorem Keeps.cmdEnd {q : Nat} {c : Cmd} {x : Ext} (h : Keeps κ s₀ s) : Keeps κ s₀ (s.cmdEnd q c x) := by
  unfold State.cmdEnd
  extract_lets _ _ _ s1
  have h1 : Keeps κ s₀ s1 := .ite h.withdrawCmd.update.gaugeEvent.freeSlot h.withdrawCmd.update.gaugeEvent
  split
  extract_lets _ s5 s6 s7
  have h5 : Keeps κ s₀ s5 := .ite h1.terminationSignal h1
  have h6 : Keeps κ s₀ s6 := .ite h5 h5.streamFailed
  have h7 : Keeps κ s₀ s7 := .endRecord (.ite h6.modVd h6)
  exact .ite h.withdrawCmd.update.gaugeEvent (.ite h7.modRing h7.modRing.putRecord)

theorem Keeps.cmdEndIfDone {q : Nat} {x : Ext} (h : Keeps κ s₀ s) : Keeps κ s₀ (s.cmdEndIfDone q x) := by
  unfold State.cmdEndIfDone
  split
  · exact .ite h.cmdEnd h
  · exact h

theorem Keeps.terminate {q slice : Nat} {x : Ext} (h : Keeps κ s₀ s) : Keeps κ s₀ (s.terminate q slice x) := by
  unfold State.terminate
  split
  · exact h
  · split
    · exact h
    · exact .ite h.taskEnd.cmdEndIfDone h

theorem Keeps.taskTerminate {cmd slice : Nat} {x : Ext} (h : Keeps κ s₀ s) : Keeps κ s₀ (s.taskTerminate cmd slice x) := by
  unfold State.taskTerminate
  exact .ite h (by
    split
    · exact h
    · exact .ite (.ite h.cmdEndIfDone h) (by
        split
        · exact h
        · exact .ite h (.ite h.attnLast.terminate h.terminate)))

theorem execTaskTerminate_keeps {cmd slice : Nat} {x : Ext} (h : Keeps false s₀ s) : Answers s₀ (execTaskTerminate cmd slice x s) := by
  unfold execTaskTerminate
  exact .next (h.orWait (fun h => h.taskTerminate))

theorem execServiceCall_keeps {cmd : Nat} (h : Keeps false s₀ s) : Answers s₀ (execServiceCall cmd s) := by
  unfold execServiceCall
  split
  · exact .ite (.next h.decode) (.next h)
  · exact .next h

end Sys2Proof.Machine
end

section
/-! What keeps the state: coherence. -/
namespace Sys2Proof.Machine
variable {κ : Bool} {s₀ s : State}

theorem Keeps.wakeAll {pick : Nat} (h : Keeps κ s₀ s) : Keeps κ s₀ (s.wakeAll pick) := by
  unfold State.wakeAll
  exact h.foldl (fun h => h.wake)

theorem Keeps.putMiss {n gl : Nat} {m : Miss} (h : Keeps κ s₀ s) : Keeps κ s₀ (s.putMiss n gl m) := by
  unfold State.putMiss
  exact h.modSlice

theorem Keeps.fillReturn {gl pick : Nat} (h : Keeps κ s₀ s) : Keeps κ s₀ (s.fillReturn gl pick) := by
  unfold State.fillReturn
  split
  · exact h
  · extract_lets
    split
    · exact h
    · split
      · exact h.gaugeEvent.fillInto.dataPhase.settle.wakeAll
      · exact h.finish.settle.wakeAll
      · exact h

theorem Keeps.memAtomicDone {gl pick : Nat} (h : Keeps κ s₀ s) : Keeps κ s₀ (s.memAtomicDone gl pick) := by
  unfold State.memAtomicDone
  split
  · exact h
  · extract_lets
    split
    · extract_lets _ _ _ s1
      have h1 : Keeps κ s₀ s1 := .ite h.setDir.modSlice h.setDir.modSlice.countNan.dramMerge
      exact h1.answer.settle.wakeAll
    · exact h

theorem Keeps.holdReq {h : HeldReq} (hs : Keeps κ s₀ s) : Keeps κ s₀ (s.holdReq h) := by
  unfold State.holdReq
  exact hs.update

theorem Keeps.refusePeer {m : CohMsg} {op : ReqOp} (h : Keeps κ s₀ s) : Keeps κ s₀ (s.refusePeer m op) := by
  unfold State.refusePeer
  extract_lets s1
  have h1 : Keeps κ s₀ s1 := .ite h.deferredRecord h
  exact h1.send

theorem Keeps.peerServe {m : CohMsg} {op : ReqOp} {pick : Nat} (h : Keeps κ s₀ s) : Keeps κ s₀ (s.peerServe m op pick) := by
  unfold State.peerServe
  exact .ite h.refusePeer h.homeAccept

theorem peerReq_keeps {m : CohMsg} {op : ReqOp} {pick : Nat} (h : Keeps false s₀ s) : Answers s₀ (s.peerReq m op pick) := by
  unfold State.peerReq
  exact .ite (.next (.ite h.holdReq h.peerServe)) (.next h)

theorem Keeps.snoopAnswer {msg : CohMsg} {keep dirty wait : Bool} {pick : Nat} (h : Keeps κ s₀ s) :
    Keeps κ s₀ (s.snoopAnswer msg keep dirty wait pick) := by
  unfold State.snoopAnswer
  split
  · exact h
  · extract_lets s1
    have h1 : Keeps κ s₀ s1 := .ite h.mergeHome h
    exact .ite h1.answered.wakeAll h

theorem Keeps.writeBack {msg : CohMsg} {pick : Nat} (h : Keeps κ s₀ s) : Keeps κ s₀ (s.writeBack msg pick) := by
  unfold State.writeBack
  extract_lets _ _ _ _ _ _ _ s1
  have h1 : Keeps κ s₀ s1 := .ite h.mergeHome.send.setDir h.mergeHome.send
  exact .ite h.post.send (by
    split
    · exact .ite h1.answered.wakeAll (.ite h1.putMiss h.modSlice.send)
    · exact .ite h1.wakeAll h.modSlice.send)

theorem Keeps.snoopLost {gl dev pick : Nat} (h : Keeps κ s₀ s) : Keeps κ s₀ (s.snoopLost gl dev pick) := by
  unfold State.snoopLost
  extract_lets
  split
  · exact h
  · extract_lets s1
    have h1 : Keeps κ s₀ s1 := .ite h.poisonLine h
    exact .ite h1.post.modSlice.dropHolder.answered.wakeAll h

theorem Keeps.forgetDev {n gl dev : Nat} (h : Keeps κ s₀ s) : Keeps κ s₀ (s.forgetDev n gl dev) := by
  unfold State.forgetDev
  split
  · exact h
  · exact .ite h.drain h.putMiss

theorem Keeps.dirSweep {n dev : Nat} (h : Keeps κ s₀ s) : Keeps κ s₀ (s.dirSweep n dev) := by
  unfold State.dirSweep
  exact h.foldl (fun h => (by
    extract_lets _ _ s1
    have h1 : Keeps κ s₀ s1 := .ite h.poisonLine h
    exact .ite h h1.setDir.forgetDev))

theorem Keeps.keepWay {n gl k : Nat} (h : Keeps κ s₀ s) : Keeps κ s₀ (s.keepWay n gl k) := by
  unfold State.keepWay
  split
  · exact .ite h.putMiss h
  · exact h

theorem Keeps.snooped {msg : CohMsg} {kind : SnpKind} (h : Keeps κ s₀ s) : Keeps κ s₀ (s.snooped msg kind) := by
  unfold State.snooped
  extract_lets
  split
  · extract_lets
    split
    · exact h.setFrame.keepWay.send
    · exact h.setFrame.send
    · exact h.send
    · exact h.setFrame.send
    · exact h.send
  · exact .ite h.update h.send

theorem snoopCmd_keeps {m : CohMsg} {kind : SnpKind} {pick : Nat} (h : Keeps false s₀ s) : Answers s₀ (s.snoopCmd m kind pick) := by
  unfold State.snoopCmd
  exact .ite (.next h.snooped.wakeAll) (.next h)

theorem Keeps.remoteAt {f : RemoteOp → Bool} (h : Keeps κ s₀ s) : Yields κ s₀ Prod.snd (s.remoteAt f) := by
  unfold State.remoteAt
  extract_lets
  split
  · exact .none
  · exact .some h.update.gaugeEvent

theorem Keeps.postedRecord {r : RemoteOp} {cls : RecClass} {st : Status} {x : Ext} (h : Keeps κ s₀ s) :
    Keeps κ s₀ (s.postedRecord r cls st x) := by
  unfold State.postedRecord
  exact .ite h.postVd.event h.postVd

theorem Keeps.recLost {r : RemoteOp} (h : Keeps κ s₀ s) : Keeps κ s₀ (s.recLost r) := by
  unfold State.recLost
  exact .ite h.recFailed h

theorem Keeps.deferredWrite {r : RemoteOp} {st : Status} {x : Ext} (h : Keeps κ s₀ s) : Keeps κ s₀ (s.deferredWrite r st x) := by
  unfold State.deferredWrite
  exact h.recLost.postedRecord.update

theorem Keeps.unconfirmed {r : RemoteOp} {x : Ext} (h : Keeps κ s₀ s) : Keeps κ s₀ (s.unconfirmed r x) := by
  unfold State.unconfirmed
  exact h.recLost.postedRecord.update

theorem Keeps.proxyFail {gl pick : Nat} {st : Status} (h : Keeps κ s₀ s) : Keeps κ s₀ (s.proxyFail gl pick st) := by
  unfold State.proxyFail
  split
  · exact h
  · extract_lets s1
    have h1 : Keeps κ s₀ s1 := by
      unfold s1
      split
      · exact h.setFrame
      · exact h
    split
    · extract_lets s2
      have h2 : Keeps κ s₀ s2 := by
        unfold s2
        split
        · exact .ite h1.update h1
        · exact h1
      exact h2.answer.settle.wakeAll
    · exact h

theorem Keeps.ncDone {r : RemoteOp} {pick : Nat} (h : Keeps κ s₀ s) : Keeps κ s₀ (s.ncDone r pick) := by
  unfold State.ncDone
  split
  · exact .ite h.settle.wakeAll h
  · exact h

theorem Keeps.remoteFailed {r : RemoteOp} {x : Ext} (h : Keeps κ s₀ s) : Keeps κ s₀ (s.remoteFailed r x) := by
  unfold State.remoteFailed
  split
  · exact h.proxyFail
  · exact h.proxyFail
  · exact h.proxyFail
  · exact h.unconfirmed
  · exact h.unconfirmed
  · exact .ncDone (by
      split
      · exact h.hostAnswer.event
      · exact .ite h h.whoFailed
      · exact h.send)

theorem Keeps.install {n gl pick : Nat} {way : Option Nat} {f : Frame} (h : Keeps κ s₀ s) : Keeps κ s₀ (s.install n gl pick way f).2 := by
  unfold State.install
  split
  · exact h.setFrame
  · exact h.setFrame
  · split
    · rename_i e
      exact (h.freeWay _ e).setFrame
    · exact h

theorem Keeps.granted1 {msg : CohMsg} {excl keepData : Bool} {pick : Nat} (h : Keeps κ s₀ s) :
    Keeps κ s₀ (s.granted1 msg excl keepData pick) := by
  unfold State.granted1
  extract_lets
  split
  · rename_i e
    extract_lets
    split
    · extract_lets
      split
      · rename_i e'
        exact .wakeAll (.settle (.ite ((h.remoteAt _ e).send.install.of_snd e') ((h.remoteAt _ e).send.install.of_snd e').proxyServe))
      · rename_i e'
        exact .ite ((h.remoteAt _ e).send.install.of_snd e').settle.wakeAll
          (.ite ((h.remoteAt _ e).send.install.of_snd e').answer.sendWb.putMiss
            ((h.remoteAt _ e).send.install.of_snd e').answer.settle.wakeAll)
    · exact h
  · exact h

theorem execLocalWrite_keeps {r : Req} {pick : Nat} (h : Keeps false s₀ s) : Answers s₀ (execLocalWrite r pick s) := by
  unfold execLocalWrite
  exact .next h.localReq

theorem execLocalReduction_keeps {r : Req} {pick : Nat} (h : Keeps false s₀ s) : Answers s₀ (execLocalReduction r pick s) := by
  unfold execLocalReduction
  exact .ite (.next h.send) (.next h.localReq)

theorem execSliceAtomic_keeps {r : Req} {pick : Nat} (h : Keeps false s₀ s) : Answers s₀ (execSliceAtomic r pick s) := by
  unfold execSliceAtomic
  exact .ite (.next h.send) (.next h.localReq)

theorem execDramFillReturn_keeps {line pick : Nat} (h : Keeps false s₀ s) : Answers s₀ (execDramFillReturn line pick s) := by
  unfold execDramFillReturn
  exact .next h.fillReturn

theorem execMemSideAtomicDone_keeps {line pick : Nat} (h : Keeps false s₀ s) : Answers s₀ (execMemSideAtomicDone line pick s) := by
  unfold execMemSideAtomicDone
  exact .next h.memAtomicDone

theorem execRdS_keeps {m : CohMsg} {pick : Nat} (h : Keeps false s₀ s) : Answers s₀ (execRdS m pick s) := by
  unfold execRdS
  exact peerReq_keeps h

theorem execRdX_keeps {m : CohMsg} {pick : Nat} (h : Keeps false s₀ s) : Answers s₀ (execRdX m pick s) := by
  unfold execRdX
  exact peerReq_keeps h

theorem execUpg_keeps {m : CohMsg} {pick : Nat} (h : Keeps false s₀ s) : Answers s₀ (execUpg m pick s) := by
  unfold execUpg
  exact peerReq_keeps h

theorem execRdNc_keeps {m : CohMsg} {pick : Nat} (h : Keeps false s₀ s) : Answers s₀ (execRdNc m pick s) := by
  unfold execRdNc
  exact peerReq_keeps h

theorem execWrNc_keeps {m : CohMsg} {pick : Nat} (h : Keeps false s₀ s) : Answers s₀ (execWrNc m pick s) := by
  unfold execWrNc
  exact peerReq_keeps h

theorem execRed_keeps {m : CohMsg} {pick : Nat} (h : Keeps false s₀ s) : Answers s₀ (execRed m pick s) := by
  unfold execRed
  exact peerReq_keeps h

theorem execAtom_keeps {m : CohMsg} {pick : Nat} (h : Keeps false s₀ s) : Answers s₀ (execAtom m pick s) := by
  unfold execAtom
  exact peerReq_keeps h

theorem execRspI_keeps {m : CohMsg} {pick : Nat} (h : Keeps false s₀ s) : Answers s₀ (execRspI m pick s) := by
  unfold execRspI
  exact .next h.snoopAnswer

theorem execRspS_keeps {m : CohMsg} {pick : Nat} (h : Keeps false s₀ s) : Answers s₀ (execRspS m pick s) := by
  unfold execRspS
  exact .next h.snoopAnswer

theorem execRspE_keeps {m : CohMsg} {pick : Nat} (h : Keeps false s₀ s) : Answers s₀ (execRspE m pick s) := by
  unfold execRspE
  exact .next h.snoopAnswer

theorem execRspNp_keeps {m : CohMsg} {pick : Nat} (h : Keeps false s₀ s) : Answers s₀ (execRspNp m pick s) := by
  unfold execRspNp
  split
  · exact .ite (.next h.modSlice.dropHolder.snoopAnswer) (.next h)
  · exact .next h

theorem execDatI_keeps {m : CohMsg} {pick : Nat} (h : Keeps false s₀ s) : Answers s₀ (execDatI m pick s) := by
  unfold execDatI
  exact .next h.snoopAnswer

theorem execDatS_keeps {m : CohMsg} {pick : Nat} (h : Keeps false s₀ s) : Answers s₀ (execDatS m pick s) := by
  unfold execDatS
  exact .next h.snoopAnswer

theorem execDatE_keeps {m : CohMsg} {pick : Nat} (h : Keeps false s₀ s) : Answers s₀ (execDatE m pick s) := by
  unfold execDatE
  exact .next h.snoopAnswer

theorem execGntAck_keeps {m : CohMsg} {pick : Nat} (h : Keeps false s₀ s) : Answers s₀ (execGntAck m pick s) := by
  unfold execGntAck
  split
  · exact .ite (.ite (.next h.drain.wakeAll) (.next h.putMiss)) (.next h)
  · exact .next h

theorem execWb_keeps {m : CohMsg} {pick : Nat} (h : Keeps false s₀ s) : Answers s₀ (execWb m pick s) := by
  unfold execWb
  exact .ite (.next h.writeBack) (.next h)

theorem execSnoopTimeout_keeps {line dev pick : Nat} (h : Keeps false s₀ s) : Answers s₀ (execSnoopTimeout line dev pick s) := by
  unfold execSnoopTimeout
  exact .next h.snoopLost

theorem execDirectoryDepartureSweep_keeps {slice dev : Nat} (h : Keeps false s₀ s) :
    Answers s₀ (execDirectoryDepartureSweep slice dev s) := by
  unfold execDirectoryDepartureSweep
  exact .ite (.next (.ite h.dirSweep.update h.dirSweep)) (.next h)

theorem execSnpInv_keeps {m : CohMsg} {pick : Nat} (h : Keeps false s₀ s) : Answers s₀ (execSnpInv m pick s) := by
  unfold execSnpInv
  exact snoopCmd_keeps h

theorem execSnpData_keeps {m : CohMsg} {pick : Nat} (h : Keeps false s₀ s) : Answers s₀ (execSnpData m pick s) := by
  unfold execSnpData
  exact snoopCmd_keeps h

theorem execSnpCur_keeps {m : CohMsg} {pick : Nat} (h : Keeps false s₀ s) : Answers s₀ (execSnpCur m pick s) := by
  unfold execSnpCur
  exact snoopCmd_keeps h

theorem execRdDat_keeps {m : CohMsg} {x : Ext} (h : Keeps false s₀ s) : Answers s₀ (execRdDat m x s) := by
  unfold execRdDat
  split
  · exact .next h
  · rename_i e
    split
    · split
      · exact .ite (.next (h.remoteAt _ e)) (.next (h.remoteAt _ e).whoAnswer.atomTake)
      · exact .next (h.remoteAt _ e).send
    · exact .next (.ncDone (by
        split
        · exact (h.remoteAt _ e).hostAnswer
        · exact .ite (h.remoteAt _ e) (h.remoteAt _ e).send))
    · exact .next (h.remoteAt _ e).proxyFail

theorem execFillS_keeps {m : CohMsg} {pick : Nat} (h : Keeps false s₀ s) : Answers s₀ (execFillS m pick s) := by
  unfold execFillS
  exact .next h.granted1

theorem execFillE_keeps {m : CohMsg} {pick : Nat} (h : Keeps false s₀ s) : Answers s₀ (execFillE m pick s) := by
  unfold execFillE
  exact .next h.granted1

theorem execCmpE_keeps {m : CohMsg} {pick : Nat} (h : Keeps false s₀ s) : Answers s₀ (execCmpE m pick s) := by
  unfold execCmpE
  split
  · exact .ite (.next h) (.ite (.next h.granted1) (by
      split
      · rename_i e
        exact .next (h.remoteAt _ e).send.serve.settle.wakeAll
      · exact .next h))
  · exact .next h

theorem execWbAck_keeps {m : CohMsg} {pick : Nat} (h : Keeps false s₀ s) : Answers s₀ (execWbAck m pick s) := by
  unfold execWbAck
  split
  · exact .ite (.next h.wbCredit.drain.wakeAll) (.next h)
  · exact .next h

theorem execRelease_keeps {cmd slice : Nat} {full : Bool} (h : Keeps false s₀ s) : Answers s₀ (execRelease cmd slice full s) := by
  unfold execRelease
  extract_lets
  split
  · split
    · exact .ite (.next (.ite h.modTask.modSlice h.modTask)) (.next h)
    · exact .next h
  · exact .next h

end Sys2Proof.Machine
end

section
/-! What keeps the state: VD resets. -/
namespace Sys2Proof.Machine
variable {κ : Bool} {s₀ s : State}

theorem Keeps.epochEnds {v : Nat} (h : Keeps κ s₀ s) : Keeps κ s₀ (s.epochEnds v) := by
  unfold State.epochEnds
  exact h.endGrants.revokeEntries

theorem Keeps.vdTrigger {v cause : Nat} (h : Keeps κ s₀ s) : Keeps κ s₀ (s.vdTrigger v cause) := by
  unfold State.vdTrigger
  exact .ite h (.ite (.ite h.setVd (.ite h.setVd h)) h.setVd.epochEnds)

theorem Keeps.stopCmds {s0 : State} {old : List (Nat × Cmd)} (h : Keeps κ s₀ s0) : Keeps κ s₀ (s0.stopCmds old) := by
  unfold State.stopCmds
  extract_lets _ _ s1
  have h1 : Keeps κ s₀ s1 := h.update.foldl (fun h => h.foldl (fun h => h.foldl (fun h => h.unref)))
  exact h1.update.foldl (fun h => h.modCmd)

theorem Keeps.vdStop {v : Nat} (h : Keeps κ s₀ s) : Keeps κ s₀ (s.vdStop v) := by
  unfold State.vdStop
  exact h.stopCmds

theorem Keeps.unimport {v t : Nat} (h : Keeps κ s₀ s) : Keeps κ s₀ (s.unimport v t) := by
  unfold State.unimport
  extract_lets
  exact .ite (by
    split
    · exact h.update
    · exact h) h.sendRemote

theorem Keeps.vdAbandon {v : Nat} (h : Keeps κ s₀ s) : Keeps κ s₀ (s.vdAbandon v) := by
  unfold State.vdAbandon
  extract_lets _ _ s1 s2
  have h1 : Keeps κ s₀ s1 := (h.foldl (fun h => h.withdrawCmd.update)).foldl (fun h => (by
      split
      · exact h.unimport
      · exact h))
  have h2 : Keeps κ s₀ s2 := h1.foldl (fun h => (by
      split
      · exact h.penAbandon
      · exact h))
  exact h2.modVd

theorem Keeps.vdClear {v : Nat} (h : Keeps κ s₀ s) : Keeps κ s₀ (s.vdClear v) := by
  unfold State.vdClear
  extract_lets _ _ _ _ s1
  have h1 : Keeps κ s₀ s1 := (h.modVd.update.foldl (fun h => h.setQueue)).update
  exact .ite h1.update.freePages.modVd.drawKey h1.update

theorem Keeps.vdSweep {v : Nat} (h : Keeps κ s₀ s) : Keeps κ s₀ (s.vdSweep v) := by
  unfold State.vdSweep
  exact h.hopSweep.vdClear

theorem Keeps.vdReady {v : Nat} (h : Keeps κ s₀ s) : Keeps κ s₀ (s.vdReady v) := by
  unfold State.vdReady
  exact h.modVd.update.foldl (fun h => h.mgmtAnswer)

theorem Keeps.resetTo {v step : Nat} (h : Keeps κ s₀ s) : Keeps κ s₀ (s.resetTo v step) := by
  unfold State.resetTo
  exact h.modVd

theorem Keeps.errCtrl {v w : Nat} (h : Keeps κ s₀ s) : Keeps κ s₀ (s.errCtrl v w) := by
  unfold State.errCtrl
  exact .ite h.modVd (.ite h.modVd.rsvdEnc h.modVd)

theorem Keeps.errHead {vd w : Nat} (h : Keeps κ s₀ s) : Keeps κ s₀ (s.errHead vd w) := by
  unfold State.errHead
  exact .ite h.modVd h.rsvdEnc

theorem Keeps.errBase {vd : Nat} {hi : Bool} {w : Nat} (h : Keeps κ s₀ s) : Keeps κ s₀ (s.errBase vd hi w) := by
  unfold State.errBase
  exact .ite h.modVd h.modVd

theorem execVdResetTrigger_keeps {vd cause : Nat} (h : Keeps false s₀ s) : Answers s₀ (execVdResetTrigger vd cause s) := by
  unfold execVdResetTrigger
  exact .ite (.next h.vdTrigger) (.next h)

theorem execVdResetTaskStop_keeps {vd : Nat} (h : Keeps false s₀ s) : Answers s₀ (execVdResetTaskStop vd s) := by
  unfold execVdResetTaskStop
  exact .ite (.next h.vdStop.resetTo) (.next h)

theorem execVdResetAbandon_keeps {vd : Nat} (h : Keeps false s₀ s) : Answers s₀ (execVdResetAbandon vd s) := by
  unfold execVdResetAbandon
  exact .ite (.next h.vdAbandon.resetTo) (.next h)

theorem execVdResetSweep_keeps {vd : Nat} {x : Ext} (h : Keeps false s₀ s) : Answers s₀ (execVdResetSweep vd x s) := by
  unfold execVdResetSweep
  exact .next (h.orWait (fun h => .ite h.vdSweep.resetTo h))

theorem execErrRingCtrlWrite_keeps {vd : Nat} {value : Word} (h : Keeps false s₀ s) : Answers s₀ (execErrRingCtrlWrite vd value s) := by
  unfold execErrRingCtrlWrite
  exact .next (h.winWrite (fun h => h.errCtrl))

theorem execErrRingHeadWrite_keeps {vd : Nat} {value : Word} (h : Keeps false s₀ s) : Answers s₀ (execErrRingHeadWrite vd value s) := by
  unfold execErrRingHeadWrite
  exact .next (h.winWrite (fun h => h.errHead))

theorem execErrRingBaseWrite_keeps {vd : Nat} {hi : Bool} {value : Word} (h : Keeps false s₀ s) :
    Answers s₀ (execErrRingBaseWrite vd hi value s) := by
  unfold execErrRingBaseWrite
  exact .next (h.winWrite (fun h => h.errBase))

theorem execErrorRecordWriteFail_keeps {vd : Nat} (h : Keeps false s₀ s) : Answers s₀ (execErrorRecordWriteFail vd s) := by
  unfold execErrorRecordWriteFail
  exact .ite (.next h.errFault) (.next h)

theorem execErrRingMsixDefer_keeps {vd : Nat} (h : Keeps false s₀ s) : Answers s₀ (execErrRingMsixDefer vd s) := by
  unfold execErrRingMsixDefer
  exact .ite (.next h) (.ite (.next h.send.modVd) (.next h.modVd))

end Sys2Proof.Machine
end

section
/-! What keeps the state: the CXL ports. -/
namespace Sys2Proof.Machine
variable {κ : Bool} {s₀ s : State}

theorem Keeps.hostRefuse {r : CxlReq} {err : Bool} (h : Keeps κ s₀ s) : Keeps κ s₀ (s.hostRefuse r err) := by
  unfold State.hostRefuse
  exact h.hostAnswer

theorem Keeps.hostOutside {r : CxlReq} {quota : Bool} (h : Keeps κ s₀ s) : Keeps κ s₀ (s.hostOutside r quota) := by
  unfold State.hostOutside
  split
  · rename_i e
    exact (h.hostRefuse.limited.of_snd e).event
  · rename_i e
    exact h.hostRefuse.limited.of_snd e

theorem Keeps.metaUnderSnoop {l p : Nat} {mv : Meta} (h : Keeps κ s₀ s) : Keeps κ s₀ (s.metaUnderSnoop l p mv) := by
  unfold State.metaUnderSnoop
  extract_lets
  split
  · exact h
  · exact .ite h.setDir h
  · exact h.dropHost

theorem Keeps.writeUnderSnoop {p : Nat} {r : Req} {pick : Nat} (h : Keeps κ s₀ s) : Yields κ s₀ id (s.writeUnderSnoop p r pick) := by
  unfold State.writeUnderSnoop
  split
  · exact .ite (.some (.ite h.mergeHome.metaUnderSnoop.homeAccept h.mergeHome.metaUnderSnoop.hostAnswer)) .none
  · exact .none

theorem Keeps.hostServe {r : CxlReq} {ga pick : Nat} (h : Keeps κ s₀ s) : Keeps κ s₀ (s.hostServe r ga pick) := by
  unfold State.hostServe
  extract_lets _ _ _ _ s1
  have h1 : Keeps κ s₀ s1 := .ite h.event h
  exact .ite (by
    split
    · rename_i e
      exact h.writeUnderSnoop _ e
    · exact h.homeAccept) h1.localReq

theorem Keeps.hostEntry {r : CxlReq} {page : Nat} {e : PEntry} {pick : Nat} (h : Keeps κ s₀ s) :
    Yields κ s₀ id (s.hostEntry r page e pick) := by
  unfold State.hostEntry
  exact .ite .none (by
    split
    · exact .some h.sampleHeat.hostServe
    · exact .ite (.some h.hostOutside) (.some h.sampleHeat.hostServe)
    · exact .some h.hostOutside
    · exact .none)

theorem Keeps.setWalks {f : List Walk → List Walk} (h : Keeps κ s₀ s) : Keeps κ s₀ (s.setWalks f) := by
  unfold State.setWalks
  exact h.update

theorem Keeps.hostWalk {r : CxlReq} (h : Keeps κ s₀ s) : Keeps κ s₀ (s.hostWalk r) := by
  unfold State.hostWalk
  extract_lets
  split <;> exact h.setWalks

theorem Keeps.dropWalk {v page : Nat} (h : Keeps κ s₀ s) : Keeps κ s₀ (s.dropWalk v page) := by
  unfold State.dropWalk
  extract_lets s1
  have h1 : Keeps κ s₀ s1 := by
    unfold s1
    split
    · exact h.walked.gaugeEvent
    · exact h
  exact h1.setWalks

theorem Keeps.walkServe {acc : List CxlReq} {page : Nat} {e : PEntry} {pick : Nat} (h : Keeps κ s₀ s) :
    Keeps κ s₀ (s.walkServe acc page e pick) := by
  unfold State.walkServe
  exact h.foldl (fun h => .getD h.hostEntry h.hostWalk)

theorem Keeps.sluiceWalk {v page pick : Nat} (h : Keeps κ s₀ s) : Keeps κ s₀ (s.sluiceWalk v page pick) := by
  unfold State.sluiceWalk
  split
  · exact h
  · exact .ite h (by
      split
      · exact .ite h h.dropWalk.walkServe
      · exact .ite (h.dropWalk.foldl (fun h => h.hostOutside)) (.ite h (by
          split
          · exact h.dropWalk.touchRefused.foldl (fun h => h.hostOutside)
          · exact h.touchTake.setWalks)))

theorem Keeps.ideRecord {p : Nat} (h : Keeps κ s₀ s) : Keeps κ s₀ (s.ideRecord p) := by
  unfold State.ideRecord
  exact .ite h h.post.modPort

theorem Keeps.hostTake {r : CxlReq} (h : Keeps κ s₀ s) : Keeps κ s₀ (s.hostTake r).2 := by
  unfold State.hostTake
  exact h.modPort.update

theorem Keeps.hostAccept {r0 : CxlReq} {hit : Bool} {pick : Nat} (h : Keeps κ s₀ s) : Keeps κ s₀ (s.hostAccept r0 hit pick) := by
  unfold State.hostAccept
  split
  rename_i e
  exact .ite (h.hostTake.of_snd e).hostRefuse (.ite (h.hostTake.of_snd e).ideRecord.hostRefuse (by
    split
    · exact .getD (h.hostTake.of_snd e).hostEntry (h.hostTake.of_snd e).hostWalk
    · exact (h.hostTake.of_snd e).hostWalk))

theorem Keeps.hostNoLd {r0 : CxlReq} {ld : Nat} (h : Keeps κ s₀ s) : Keeps κ s₀ (s.hostNoLd r0 ld) := by
  unfold State.hostNoLd
  exact h.hostTake.hostRefuse.post

theorem Keeps.hostArrive {r0 : CxlReq} {ld : Nat} {hit : Bool} {pick : Nat} (h : Keeps κ s₀ s) :
    Keeps κ s₀ (s.hostArrive r0 ld hit pick) := by
  unfold State.hostArrive
  exact .ite h (.ite h.hostNoLd (.ite h.modPort h.hostAccept))

theorem Keeps.releaseHeld {p pick : Nat} (h : Keeps κ s₀ s) : Keeps κ s₀ (s.releaseHeld p pick) := by
  unfold State.releaseHeld
  exact .ite h (h.modPort.foldl (fun h => h.hostArrive))

theorem Keeps.prefetch {s0 : State} {ga pick : Nat} (h : Keeps κ s₀ s0) : Keeps κ s₀ (s0.prefetch ga pick) := by
  unfold State.prefetch
  extract_lets
  exact .ite h (.ite h (.ite (.ite h.stackFor h.stackFor.fillInto) (by
    split
    · rename_i e
      exact (h.stackFor.freeWay _ e).fillInto
    · exact h.stackFor)))

theorem Keeps.hostAnswered {l p : Nat} {m : Miss} (h : Keeps κ s₀ s) : Keeps κ s₀ (s.hostAnswered l p m) := by
  unfold State.hostAnswered
  exact .ite h.dropHost h

theorem Keeps.hostLost {port gl pick : Nat} (h : Keeps κ s₀ s) : Keeps κ s₀ (s.hostLost port gl pick) := by
  unfold State.hostLost
  extract_lets
  split
  · extract_lets s1
    have h1 : Keeps κ s₀ s1 := .dropHost (.ite h.poisonLine h)
    exact h1.answered.wakeAll
  · exact h

theorem Keeps.clearHost {port : Nat} (h : Keeps κ s₀ s) : Keeps κ s₀ (s.clearHost port) := by
  unfold State.clearHost
  exact h.foldl (fun h => (by
    extract_lets _ _ s1
    have h1 : Keeps κ s₀ s1 := .ite h.poisonLine.lineEvent h
    exact h1.setDir))

theorem Keeps.forgetHost {port : Nat} (h : Keeps κ s₀ s) : Keeps κ s₀ (s.forgetHost port) := by
  unfold State.forgetHost
  exact h.update

theorem Keeps.linkDown {port pick : Nat} (h : Keeps false s₀ s) : Keeps false s₀ (s.linkDown port pick) := by
  unfold State.linkDown
  extract_lets _ _ _ _ _ s1
  have h1 : Keeps false s₀ s1 := .foldl (h.modPort.updateBoot rfl id) (fun h => .ite h.hostLost.lineEvent h.hostLost)
  exact h1.clearHost.forgetHost

theorem Keeps.portVds {port : Nat} (h : Keeps κ s₀ s) : Keeps κ s₀ (s.portVds port) := by
  unfold State.portVds
  exact h.foldl (fun h => h.vdTrigger)

theorem Keeps.mediaError (h : Keeps κ s₀ s) : Keeps κ s₀ s.mediaError := by
  unfold State.mediaError
  exact h.foldl (fun h => h.event.modVd)

theorem Keeps.ldReset {p ld cause : Nat} (h : Keeps κ s₀ s) : Keeps κ s₀ (s.ldReset p ld cause) := by
  unfold State.ldReset
  exact .ite h.vdTrigger (.ite h.noLd h)

theorem Keeps.ldResetArrive {p ld cause : Nat} (h : Keeps false s₀ s) : Keeps false s₀ (s.ldResetArrive p ld cause) := by
  unfold State.ldResetArrive
  exact .ite (h.updateBoot rfl id) h.ldReset

theorem Keeps.arbGrant {q : QueueId} {use : Nat → Nat} {xs : List Ask} {pick : Nat} (h : Keeps κ s₀ s) :
    Yields κ s₀ Prod.snd (s.arbGrant q use xs pick) := by
  unfold State.arbGrant
  extract_lets
  split
  · exact .some h
  · split
    · exact .none
    · split
      · exact .some h.setQueue
      · exact .none

theorem Keeps.grantListed {q : QueueId} {use : Nat → Nat} {pick : Nat} (h : Keeps κ s₀ s) :
    Yields κ s₀ Prod.snd (s.grantListed q use pick) := by
  unfold State.grantListed
  extract_lets
  split
  · exact .none
  · rename_i e
    extract_lets
    split
    · exact .some (h.arbGrant _ e).setQueue
    · exact .none

theorem Keeps.unwaitOf {q : QueueId} {w : QWait} (h : Keeps κ s₀ s) : Keeps κ s₀ (s.unwaitOf q w) := by
  unfold State.unwaitOf
  exact h.setQueue

theorem Keeps.goOn {n pick : Nat} {r : Req} (h : Keeps κ s₀ s) : Keeps κ s₀ (s.goOn n pick r) := by
  unfold State.goOn
  exact .ite h.lostAnswer h.enter

theorem Keeps.grantSlice {q : QueueId} {n : Nat} {use : Nat → Nat} {pick : Nat} {x : Ext} (h : Keeps κ s₀ s) :
    Keeps κ s₀ (s.grantSlice q n use pick x) := by
  unfold State.grantSlice
  extract_lets
  exact .ite h (by
    split
    · exact h
    · rename_i e
      split
      · exact h.arbGrant _ e
      · exact .ite (h.arbGrant _ e).modSlice.goOn h)

theorem Keeps.grantEntry {q : QueueId} {pick : Nat} {x : Ext} (h : Keeps κ s₀ s) : Keeps κ s₀ (s.grantEntry q pick x) := by
  unfold State.grantEntry
  split
  · extract_lets ws
    split
    · exact h
    · rename_i e
      have h1 := Yields.bind (g' := Prod.snd) h.arbGrant (fun h => .map' h.unwaitOf) _ e
      refine .ite (.ite h1.readEntry h1) ?_
      split
      · exact .ite h1.createTask h1
      · exact h1
  · split
    · rename_i e
      exact (h.grantListed _ e).modCmd
    · exact h
  · extract_lets
    split
    · exact h.penTake
    · split
      · exact h
      · rename_i e
        split
        · exact (h.arbGrant _ e).penTake
        · exact h.arbGrant _ e
  · extract_lets
    split
    · exact h
    · rename_i e
      split
      · exact (h.arbGrant _ e).send.update
      · exact h.arbGrant _ e
  · extract_lets
    split
    · exact h
    · rename_i e
      split
      · exact (h.arbGrant _ e).setWalks
      · exact h.arbGrant _ e
  · extract_lets
    split
    · exact h
    · rename_i e
      split
      · exact (h.arbGrant _ e).modPort.hostAccept
      · exact h.arbGrant _ e
  · exact h.grantSlice
  · exact h.grantSlice

theorem execSluiceWalk_keeps {vd page pick : Nat} (h : Keeps false s₀ s) : Answers s₀ (execSluiceWalk vd page pick s) := by
  unfold execSluiceWalk
  exact .next h.sluiceWalk.recFlush

theorem execPageZeroDone_keeps {vd page pick : Nat} (h : Keeps false s₀ s) : Answers s₀ (execPageZeroDone vd page pick s) := by
  unfold execPageZeroDone
  split
  · split
    · extract_lets
      split
      · exact .next h.dropWalk.touchDone.walkServe.placeResume
      · exact .next h.dropWalk.touchDone
    · exact .next h
  · exact .next h

theorem execMemRd_keeps {r : CxlReq} {ld : Nat} {hit : Bool} {pick : Nat} (h : Keeps false s₀ s) :
    Answers s₀ (execMemRd r ld hit pick s) := by
  unfold execMemRd
  exact .next h.hostArrive

theorem execMemWr_keeps {r : CxlReq} {ld : Nat} {hit : Bool} {pick : Nat} (h : Keeps false s₀ s) :
    Answers s₀ (execMemWr r ld hit pick s) := by
  unfold execMemWr
  exact .next h.hostArrive

theorem execMemClnEvct_keeps {r : CxlReq} {ld : Nat} {hit : Bool} {pick : Nat} (h : Keeps false s₀ s) :
    Answers s₀ (execMemClnEvct r ld hit pick s) := by
  unfold execMemClnEvct
  exact .next h.hostArrive

theorem execMemSpecRd_keeps {port ld dpa : Nat} {hit : Bool} {pick : Nat} (h : Keeps false s₀ s) :
    Answers s₀ (execMemSpecRd port ld dpa hit pick s) := by
  unfold execMemSpecRd
  exact .ite (by
    split
    · exact .ite (.next h.prefetch) (.next h)
    · exact .next h) (.next h)

theorem execDevloadUpdate_keeps {port : Nat} (h : Keeps false s₀ s) : Answers s₀ (execDevloadUpdate port s) := by
  unfold execDevloadUpdate
  exact .next h.modPort

theorem execBirsp_keeps {port line half : Nat} {rsp : BiRsp} {pick : Nat} (h : Keeps false s₀ s) :
    Answers s₀ (execBirsp port line half rsp pick s) := by
  unfold execBirsp
  split
  · exact .ite (.next h.hostAnswered.answered.wakeAll) (.next h.modPort)
  · exact .next h.modPort

theorem execBisnpTimeout_keeps {port line pick : Nat} (h : Keeps false s₀ s) : Answers s₀ (execBisnpTimeout port line pick s) := by
  unfold execBisnpTimeout
  extract_lets
  split
  · exact .ite (.next h.lineEvent.post.hostLost) (.next h)
  · exact .next h

theorem execBiconflict_keeps {port line tag : Nat} (h : Keeps false s₀ s) : Answers s₀ (execBiconflict port line tag s) := by
  unfold execBiconflict
  exact .ite (.next h.modPort) (.next h.send)

theorem execLinkUp_keeps {port rate width : Nat} {cxl mld sris : Bool} {pick : Nat} (h : Keeps false s₀ s) :
    Answers s₀ (execLinkUp port rate width cxl mld s sris pick) := by
  unfold execLinkUp
  exact .ite (.next h) (.next (.releaseHeld (.ite h.modPort.mediaError h.modPort)))

theorem execL1EntryRequest_keeps {port level : Nat} (h : Keeps false s₀ s) : Answers s₀ (execL1EntryRequest port level s) := by
  unfold execL1EntryRequest
  exact .ite (.next h) (.ite (.next h.send) (.next h.modPort.send))

theorem execFunctionLevelReset_keeps {port ld : Nat} (h : Keeps false s₀ s) : Answers s₀ (execFunctionLevelReset port ld s) := by
  unfold execFunctionLevelReset
  exact .next h.ldResetArrive

theorem execCxlReset_keeps {port ld : Nat} {memClr : Bool} (h : Keeps false s₀ s) : Answers s₀ (execCxlReset port ld memClr s) := by
  unfold execCxlReset
  exact .next h.ldResetArrive

theorem execVdResetComplete_keeps {vd pick : Nat} (h : Keeps false s₀ s) : Answers s₀ (execVdResetComplete vd pick s) := by
  unfold execVdResetComplete
  exact .ite (.next h.vdReady.releaseHeld) (.next h)

theorem execSharedEntryGrant_keeps {q : QueueId} {pick : Nat} {x : Ext} (h : Keeps false s₀ s) :
    Answers s₀ (execSharedEntryGrant q pick x s) := by
  unfold execSharedEntryGrant
  exact .next (h.orWait (fun h => h.grantEntry))

end Sys2Proof.Machine
end

section
/-! What keeps the state: discovery and boot. -/
namespace Sys2Proof.Machine
variable {κ : Bool} {s₀ s : State}

theorem Keeps.holdCom (h : Keeps κ s₀ s) : Keeps κ s₀ s.holdCom := by
  unfold State.holdCom
  exact h.update

theorem Keeps.fixInventory {exclude minDies : Nat} (h : Keeps κ s₀ s) : Keeps κ s₀ (s.fixInventory exclude minDies) := by
  unfold State.fixInventory
  exact h.update.holdCom

theorem Keeps.modBootSlot {n : Nat} {f : Slot → Slot} (h : Keeps false s₀ s) : Keeps false s₀ (s.modBootSlot n f) := by
  unfold State.modBootSlot
  exact h.updateBoot rfl id

theorem Keeps.rejectSlot {n : Nat} {b : Bad} (h : Keeps false s₀ s) : Keeps false s₀ (s.rejectSlot n b) := by
  unfold State.rejectSlot
  exact h.modBootSlot.post

theorem Keeps.noImage (h : Keeps false s₀ s) : Keeps false s₀ s.noImage := by
  unfold State.noImage
  extract_lets _ _ s1
  have h1 : Keeps false s₀ s1 := .ite (.fixInventory (h.updateBoot rfl id)) (h.updateBoot rfl id)
  exact h1.update.bootDraw

theorem Keeps.modDie {d : Nat} {f : Die → Die} (h : Keeps κ s₀ s) : Keeps κ s₀ (s.modDie d f) := by
  unfold State.modDie
  exact h.update

theorem Keeps.deadline {step : Nat} (h : Keeps κ s₀ s) : Keeps κ s₀ (s.deadline step) := by
  unfold State.deadline
  exact h.update

theorem Keeps.selectFrom {l : List Nat} {got : Option Nat} (h : Keeps false s₀ s) : Keeps false s₀ (State.selectFrom l s got).1 := by
  induction l generalizing s got with
  | nil => exact h
  | cons n l ih =>
    cases got with
    | some g => exact ih h.modBootSlot
    | none =>
      unfold State.selectFrom
      split
      · exact ih h
      · exact ih h.rejectSlot.modBootSlot

theorem Keeps.applyPort {p : Nat} (h : Keeps κ s₀ s) : Keeps κ s₀ (s.applyPort p) := by
  unfold State.applyPort
  extract_lets _ _ _ s1
  have h1 : Keeps κ s₀ s1 := .ite h.modPort.post h
  exact .ite h.modPort h1.modPort

theorem Keeps.toAnchor (h : Keeps κ s₀ s) : Keeps κ s₀ s.toAnchor := by
  unfold State.toAnchor
  exact .ite h (.ite h.update (.ite h.update h))

theorem Keeps.drawKeys (h : Keeps κ s₀ s) : Keeps κ s₀ s.drawKeys := by
  unfold State.drawKeys
  exact h.foldl (fun h => h.drawKey)

theorem Keeps.releaseAll {pick : Nat} (h : Keeps κ s₀ s) : Keeps κ s₀ (s.releaseAll pick) := by
  unfold State.releaseAll
  exact h.foldl (fun h => h.releaseHeld)

theorem Keeps.startLinks (h : Keeps κ s₀ s) : Keeps κ s₀ s.startLinks := by
  unfold State.startLinks
  exact h.update

theorem execSlicePllLock_keeps {die : Nat} (h : Keeps false s₀ s) : Answers s₀ (execSlicePllLock die s) := by
  unfold execSlicePllLock
  exact .ite (.next h.modDie) (.next h)

theorem execLeatWireTraining_keeps {die : Nat} {dn up : List Nat} (h : Keeps false s₀ s) : Answers s₀ (execLeatWireTraining die dn up s) := by
  unfold execLeatWireTraining
  exact .ite (.ite (.next h.modDie) (.ite (.next h.modDie) (.next h.modDie))) (.next h)

theorem execIdentityMessage_keeps {die serial : Nat} {rev level : Nat} {good : Bool} (h : Keeps false s₀ s) :
    Answers s₀ (execIdentityMessage die serial rev level good s) := by
  unfold execIdentityMessage
  exact .ite (.ite (.next h.modDie) (.ite (.next h.modDie.modDie) (.next h.modDie.modDie))) (.next h)

theorem execChannelFailureMaskReport_keeps {die mask : Nat} (h : Keeps false s₀ s) :
    Answers s₀ (execChannelFailureMaskReport die mask s) := by
  unfold execChannelFailureMaskReport
  exact .ite (.next h.modDie) (.next h)

theorem execDiscoveryDeadline_keeps {step : Nat} (h : Keeps false s₀ s) : Answers s₀ (execDiscoveryDeadline step s) := by
  unfold execDiscoveryDeadline
  exact .ite (.next h.deadline) (.next h)

theorem execSlotStage_keeps {slot : Nat} {bytes : List Byte} (h : Keeps false s₀ s) : Answers s₀ (execSlotStage slot bytes s) := by
  unfold execSlotStage
  extract_lets _ _ _ _ s1
  have h1 : Keeps false s₀ s1 := by
    unfold s1
    split
    · exact h.modBootSlot.rejectSlot
    · exact h.modBootSlot.modBootSlot
  exact .ite (.next (.ite h1.noImage h1)) (.next h)

theorem execSlotSelection_keeps (h : Keeps false s₀ s) : Answers s₀ (execSlotSelection s) := by
  unfold execSlotSelection
  extract_lets
  exact .ite (by
    split
    rename_i e
    split
    · exact .next (.fixInventory ((h.selectFrom.of_fst e).updateBoot rfl id))
    · split
      · exact .next (.fixInventory ((h.selectFrom.of_fst e).updateBoot rfl id))
      · exact .next (h.selectFrom.of_fst e).noImage) (.next h)

end Sys2Proof.Machine
end

section
/-! What keeps the state: messages between devices. -/
namespace Sys2Proof.Machine
variable {κ : Bool} {s₀ s : State}

theorem Keeps.modHyl {p : Nat} {f : HylPort → HylPort} (h : Keeps κ s₀ s) : Keeps κ s₀ (s.modHyl p f) := by
  unfold State.modHyl
  exact h.update

theorem Keeps.putBytes {p header : Nat} {slots : List (BitVec 128)} (h : Keeps κ s₀ s) : Keeps κ s₀ (s.putBytes p header slots) := by
  unfold State.putBytes
  exact h.modHyl

theorem Keeps.putFlit {p kind : Nat} {seq ack : Nat} {nak : Bool} {cr : List (Nat × Nat)} {msg : Option Nat} (h : Keeps κ s₀ s) :
    Keeps κ s₀ (s.putFlit p kind seq ack nak cr msg) := by
  unfold State.putFlit
  exact h.putBytes.send

theorem Keeps.putControl {p op lanes : Nat} (h : Keeps κ s₀ s) : Keeps κ s₀ (s.putControl p op lanes) := by
  unfold State.putControl
  exact h.putBytes.send

theorem Keeps.idleFlit {p : Nat} {nak : Bool} (h : Keeps κ s₀ s) : Keeps κ s₀ (s.idleFlit p nak) := by
  unfold State.idleFlit
  exact .ite h.modHyl.putFlit h

theorem Keeps.pumpF {p k : Nat} (h : Keeps κ s₀ s) : Keeps κ s₀ (State.pumpF p k s) := by
  induction k generalizing s with
  | zero => exact h
  | succ k ih =>
    rw [State.pumpF]
    exact .ite (by
      split
      · exact h
      · exact ih h.modHyl.putFlit) h

theorem Keeps.pump {p : Nat} (h : Keeps κ s₀ s) : Keeps κ s₀ (s.pump p) := by
  unfold State.pump
  exact h.pumpF

theorem Keeps.resend {p : Nat} (h : Keeps κ s₀ s) : Keeps κ s₀ (s.resend p) := by
  unfold State.resend
  exact h.foldl (fun h => h.putFlit)

theorem Keeps.unreachable {m : LinkMsg} (h : Keeps κ s₀ s) : Keeps κ s₀ (s.unreachable m) := by
  unfold State.unreachable
  extract_lets _ _ s1
  have h1 : Keeps κ s₀ s1 := by
    unfold s1
    split
    · rename_i e
      exact (h.update.limited.of_snd e).post
    · rename_i e
      exact h.update.limited.of_snd e
  exact .ite h1 h1.send

theorem Keeps.enqueue {p i cls : Nat} (h : Keeps κ s₀ s) : Keeps κ s₀ (s.enqueue p i cls) := by
  unfold State.enqueue
  exact h.modHyl.pump

theorem Keeps.routeOne {i : Nat} (h : Keeps κ s₀ s) : Keeps κ s₀ (s.routeOne i) := by
  unfold State.routeOne
  extract_lets
  split
  · exact h
  · exact h.enqueue
  · exact h.foldl (fun h => h.enqueue)
  · exact .ite h.enqueue h
  · split
    · exact h
    · extract_lets
      exact .ite h (by
        split
        · exact h.unreachable
        · exact h.update.enqueue)

theorem Keeps.linkSync (h : Keeps κ s₀ s) : Keeps κ s₀ s.linkSync := by
  unfold State.linkSync
  exact (h.foldl (fun h => h.routeOne)).update

theorem Keeps.floodOut {op : Nat} {vals : List Nat} (h : Keeps κ s₀ s) : Keeps κ s₀ (s.floodOut op vals) := by
  unfold State.floodOut
  exact h.update.send

theorem Keeps.floodIn {op : Nat} {f : Flood} {vals : List Nat} (h : Keeps κ s₀ s) : Yields κ s₀ id (s.floodIn op f vals) := by
  unfold State.floodIn
  exact .ite .none (.some h.update.send)

theorem Keeps.noteLink {p : Nat} {ok : Bool} (h : Keeps κ s₀ s) : Keeps κ s₀ (s.noteLink p ok) := by
  unfold State.noteLink
  extract_lets
  split
  · exact .ite h h.update.floodOut
  · exact h

theorem Keeps.recoveryDone {p : Nat} (h : Keeps κ s₀ s) : Keeps κ s₀ (s.recoveryDone p) := by
  unfold State.recoveryDone
  exact .ite h.gaugeEvent.modHyl h

theorem Keeps.hylDrop {p : Nat} {st : HylSt} (h : Keeps κ s₀ s) : Keeps κ s₀ (s.hylDrop p st) := by
  unfold State.hylDrop
  exact h.linkSync.recoveryDone.noteLink.modHyl.update.foldl (fun h => h.routeOne)

theorem Keeps.hylRetire {p : Nat} (h : Keeps κ s₀ s) : Keeps κ s₀ (s.hylRetire p) := by
  unfold State.hylRetire
  exact h.hylDrop

theorem Keeps.hylWant {p : Nat} (h : Keeps κ s₀ s) : Keeps κ s₀ (s.hylWant p) := by
  unfold State.hylWant
  extract_lets
  exact .ite h (by
    split
    · exact h.hylRetire
    · exact .ite h.modHyl.putControl h)

theorem Keeps.askAgain {p : Nat} (h : Keeps κ s₀ s) : Keeps κ s₀ (s.askAgain p) := by
  unfold State.askAgain
  extract_lets
  split
  · exact .ite h.modHyl.putControl h
  · exact h

theorem Keeps.laneRetire {p lane : Nat} (h : Keeps κ s₀ s) : Keeps κ s₀ (s.laneRetire p lane) := by
  unfold State.laneRetire
  exact h.modHyl.hylWant

theorem Keeps.freshLink {p active : Nat} (h : Keeps κ s₀ s) : Keeps κ s₀ (s.freshLink p active) := by
  unfold State.freshLink
  exact h.modHyl

theorem Keeps.resume {p n : Nat} (h : Keeps κ s₀ s) : Keeps κ s₀ (s.resume p n) := by
  unfold State.resume
  exact h.recoveryDone.modHyl.resend.pump.hylWant

theorem Keeps.reconfigure {p : Nat} (h : Keeps κ s₀ s) : Keeps κ s₀ (s.reconfigure p) := by
  unfold State.reconfigure
  exact h.recoveryDone.modHyl.update

end Sys2Proof.Machine
end

section
/-! What keeps the state: errors and retirement. -/
namespace Sys2Proof.Machine
variable {κ : Bool} {s₀ s : State}

theorem Keeps.askRelease {k : Nat} {t : List (Nat × List (Nat × Nat))} {excess : Nat} (h : Keeps κ s₀ s) :
    Keeps κ s₀ (State.askRelease k t excess s) := by
  induction k generalizing t excess s with
  | zero => exact h
  | succ k ih =>
    rw [State.askRelease]
    exact .ite h (by
      split
      · exact h
      · split
        · exact h
        · exact ih h.event)

theorem Keeps.shrunk {log : Nat} (h : Keeps κ s₀ s) : Keeps κ s₀ (s.shrunk log) := by
  unfold State.shrunk
  exact h.eventAll.askRelease

theorem Keeps.setMeter {cls inst : Nat} {m : Meter} (h : Keeps κ s₀ s) : Keeps κ s₀ (s.setMeter cls inst m) := by
  unfold State.setMeter
  exact h.update

theorem Keeps.setRow {i : Nat} {r : RowSlot} (h : Keeps κ s₀ s) : Keeps κ s₀ (s.setRow i r) := by
  unfold State.setRow
  exact h.update

theorem Keeps.setLevel {cls inst : Nat} {m : Meter} (h : Keeps κ s₀ s) : Keeps κ s₀ (s.setLevel cls inst m) := by
  unfold State.setLevel
  exact .ite h.setRow h.setMeter

theorem Keeps.addLevel {cls inst b : Nat} (h : Keeps κ s₀ s) : Keeps κ s₀ (s.addLevel cls inst b).1 := by
  unfold State.addLevel
  exact .ite_fst h h.setLevel

theorem Keeps.endRetire {cls inst : Nat} (h : Keeps κ s₀ s) : Keeps κ s₀ (s.endRetire cls inst) := by
  unfold State.endRetire
  exact h.update

theorem Keeps.retireTo {cls inst step : Nat} (h : Keeps κ s₀ s) : Keeps κ s₀ (s.retireTo cls inst step) := by
  unfold State.retireTo
  exact h.endRetire.update

theorem Keeps.absorb {f : Retire → Bool} (h : Keeps κ s₀ s) : Keeps κ s₀ (s.absorb f) := by
  unfold State.absorb
  exact h.update

theorem Keeps.stopTasks {n : Nat} {all : Bool} (h : Keeps κ s₀ s) : Keeps κ s₀ (s.stopTasks n all) := by
  unfold State.stopTasks
  exact h.update

theorem Keeps.holdWb {gl : Nat} (h : Keeps κ s₀ s) : Keeps κ s₀ (s.holdWb gl) := by
  unfold State.holdWb
  exact h.modSlice

theorem Keeps.answerLost {n : Nat} (h : Keeps κ s₀ s) : Keeps κ s₀ (s.answerLost n) := by
  unfold State.answerLost
  extract_lets _ _ _ s1
  have h1 : Keeps κ s₀ s1 := h.setSlice.foldl (fun h => .ite h.lostAnswer h.answer)
  exact h1.foldl (fun h => h.holdWb)

theorem Keeps.dieRetire {d : Nat} {keep trip : Bool} (h : Keeps false s₀ s) : Keeps false s₀ (s.dieRetire d keep trip) := by
  unfold State.dieRetire
  extract_lets _ _ s1 _ _ _ s2 _ _ _ _ s3 s4 _ _ _ _ s5 _ s6
  have h1 : Keeps false s₀ s1 := h.modDie.holdCom.foldl (fun h => h.stopTasks.answerLost)
  have h2 : Keeps false s₀ s2 := .ite ((h1.foldl (fun h => h.modSlice)).foldl (fun h => h.holdWb)) (h1.foldl (fun h => h.modSlice)).update
  have h3 : Keeps false s₀ s3 := (h2.absorb.update.foldl (fun h => h.moveAbandon)).foldl (fun h => h.penAbandon)
  have h4 : Keeps false s₀ s4 := h3.foldl (fun h => (by
      split
      · exact h.setEntry
      · exact h))
  have h5 : Keeps false s₀ s5 := by
    unfold s5
    split
    · exact h4.update.post.gaugeEvent
    · exact h4.update.post
  have h6 : Keeps false s₀ s6 := .ite h5.shrunk.retireTo h5.shrunk.retireTo
  exact .ite h (.ite (.post (h6.updateBoot rfl (fun e => absurd e Bool.false_ne_true))) h6)

theorem Keeps.linkLost {port pick : Nat} (h : Keeps false s₀ s) : Keeps false s₀ (s.linkLost port pick) := by
  unfold State.linkLost
  exact h.linkDown.modPort.portVds

theorem Keeps.portReset {port pick : Nat} (h : Keeps false s₀ s) : Keeps false s₀ (s.portReset port pick) := by
  unfold State.portReset
  exact .portVds (.modPort (.linkDown (h.updateBoot rfl id)))

theorem Keeps.cxlRetire {p : Nat} (h : Keeps false s₀ s) : Keeps false s₀ (s.cxlRetire p) := by
  unfold State.cxlRetire
  exact h.linkDown.modPort.portVds.post

theorem Keeps.poisonBay {b : Nat} (h : Keeps κ s₀ s) : Keeps κ s₀ (s.poisonBay b) := by
  unfold State.poisonBay
  exact h.update

theorem Keeps.replaceBay {b : Nat} (h : Keeps κ s₀ s) : Keeps κ s₀ (s.replaceBay b) := by
  unfold State.replaceBay
  split
  · exact h
  · split
    · exact h.poisonBay
    · exact h.updateMem id fun w => Memory.wf_foldl_setD (Memory.wf_keep w _) _ Prod.fst

theorem Keeps.demoteBay {b : Nat} (h : Keeps κ s₀ s) : Keeps κ s₀ (s.demoteBay b) := by
  unfold State.demoteBay
  exact h.update.foldl (fun h => h.setPromo.demoteDone)

theorem Keeps.dropWay {b : Nat} (h : Keeps κ s₀ s) : Keeps κ s₀ (s.dropWay b) := by
  unfold State.dropWay
  exact (h.foldl (fun h => h.evict)).modSlice

theorem Keeps.bayGone {b : Nat} (h : Keeps κ s₀ s) : Keeps κ s₀ (s.bayGone b) := by
  unfold State.bayGone
  exact h.update

theorem Keeps.sliceStart {n : Nat} (h : Keeps κ s₀ s) : Keeps κ s₀ (s.sliceStart n) := by
  unfold State.sliceStart
  exact .ite (h.retireTo.foldl (fun h => h.retireTo)) (h.modSlice.stopTasks.foldl (fun h => h.setCmd.modVd))

theorem Keeps.splitPage {v page : Nat} {e : PEntry} (h : Keeps κ s₀ s) : Yields κ s₀ id (s.splitPage v page e) := by
  unfold State.splitPage
  exact .map h.delEntry.withTables (fun h => h.foldl (fun h => h.setEntry))

theorem Keeps.moveOff {by_ : MoveBy} {f : Nat} (h : Keeps κ s₀ s) : Keeps κ s₀ (s.moveOff by_ f) := by
  unfold State.moveOff
  split
  · exact h
  · extract_lets
    split
    · rename_i e
      exact .want (Yields.ite h.splitPage .none _ e)
    · exact h.want

theorem Keeps.startRetire {ch : Nat → Nat → Nat → State → State} {cls inst : Nat}
    (hch : ∀ {x0 x1 x2 s}, Keeps false s₀ s → Keeps false s₀ (ch x0 x1 x2 s)) (h : Keeps false s₀ s) : Keeps false s₀ (State.startRetire ch cls inst s) := by
  unfold State.startRetire
  extract_lets _ s1 _ _ s2 _ s3
  have h1 : Keeps false s₀ s1 := hch h
  have h2 : Keeps false s₀ s2 := hch h.dropWay.bayGone.endRetire
  have h3 : Keeps false s₀ s3 := hch h.update
  split
  · exact .ite h.endRetire (.ite h (.ite h1.endRetire (by
      split
      · exact h1.moveOff.retireTo
      · exact h1.endRetire)))
  · exact h.absorb.update
  · exact h.dieRetire
  · exact .ite h.endRetire (by
      split
      · exact .ite h2.retireTo.absorb.sliceStart h2
      · exact .ite h.demoteBay (hch h.bayGone.endRetire)
      · exact h.demoteBay)
  · exact h.absorb.sliceStart
  · exact h.dieRetire
  · exact .ite h3 (by
      split
      · exact h3.modPort
      · exact h3.cxlRetire)
  · exact h.cxlRetire
  · exact hch h.laneRetire
  · exact h.hylRetire

theorem Keeps.crossed {ch : Nat → Nat → Nat → State → State} {cls inst : Nat}
    (hch : ∀ {x0 x1 x2 s}, Keeps false s₀ s → Keeps false s₀ (ch x0 x1 x2 s)) (h : Keeps false s₀ s) : Keeps false s₀ (State.crossed ch cls inst s) := by
  unfold State.crossed
  exact .ite (h.post.startRetire (fun h => hch h)) (.ite h.post.retireTo (h.post.retireTo.startRetire (fun h => hch h)))

theorem Keeps.chargeF {k cls : Nat} {inst b : Nat} (h : Keeps false s₀ s) : Keeps false s₀ (State.chargeF k cls inst b s) := by
  induction k generalizing cls inst b s with
  | zero => exact h.addLevel
  | succ k ih =>
    rw [State.chargeF]
    split
    · rename_i e
      exact (h.addLevel.of_fst e).crossed (fun h => ih h)
    · rename_i e
      exact h.addLevel.of_fst e

theorem Keeps.charge {cls inst b : Nat} (h : Keeps false s₀ s) : Keeps false s₀ (s.charge cls inst b) := by
  unfold State.charge
  exact h.chargeF

theorem Keeps.recheck {cls : Nat} (h : Keeps false s₀ s) : Keeps false s₀ (s.recheck cls) := by
  unfold State.recheck
  exact h.foldl (fun h => h.charge)

theorem Keeps.rowSlot {c r bank : Nat} (h : Keeps κ s₀ s) : Keeps κ s₀ (s.rowSlot c r bank).2 := by
  unfold State.rowSlot
  extract_lets
  split
  · exact h
  · split
    · exact h.setRow
    · exact h.setRow.update

theorem Keeps.chargeRow {gl b : Nat} (h : Keeps false s₀ s) : Keeps false s₀ (s.chargeRow gl b) := by
  unfold State.chargeRow
  exact .ite h h.rowSlot.charge

end Sys2Proof.Machine
end

section
/-! What keeps the state: repairs and retirement. -/
namespace Sys2Proof.Machine
variable {κ : Bool} {s₀ s : State}

theorem Keeps.corrected {cls inst : Nat} (h : Keeps κ s₀ s) : Keeps κ s₀ (s.corrected cls inst) := by
  unfold State.corrected
  exact h.post

theorem Keeps.poisonSectors {gl : Nat} {sec : Sectors} (h : Keeps κ s₀ s) : Keeps κ s₀ (s.poisonSectors gl sec) := by
  unfold State.poisonSectors
  extract_lets
  split
  · exact h.setFrame.update
  · exact h.update

theorem Keeps.sramBad {n bay off : Nat} (h : Keeps κ s₀ s) : Keeps κ s₀ (s.sramBad n bay off) := by
  unfold State.sramBad
  exact .ite (.ite h (.ite h.setFrame.post (.ite h.setFrame (.ite h.setFrame.keepWay h.evict)))) h.update.post

theorem Keeps.sramError {n : Nat} {e : SramErr} (h : Keeps false s₀ s) : Keeps false s₀ (s.sramError n e) := by
  unfold State.sramError
  split
  · exact .ite h.corrected.charge h
  · exact .ite h.sramBad.charge h
  · exact h.charge

theorem Keeps.dieWide {gl : Nat} (h : Keeps false s₀ s) : Keeps false s₀ (s.dieWide gl) := by
  unfold State.dieWide
  exact .ite h.update.charge h.update

theorem Keeps.loseSet {key : Nat} {known : List Nat} (h : Keeps κ s₀ s) : Keeps κ s₀ (s.loseSet key known) := by
  unfold State.loseSet
  exact .ite h h.update.modSlice

theorem Keeps.movePools {channel : Nat} (h : Keeps κ s₀ s) : Keeps κ s₀ (s.movePools channel) := by
  unfold State.movePools
  exact .ite h (h.foldl (fun h => (by
    extract_lets
    exact .ite h (by
      split
      · exact h
      · exact h.takeBackFrames.copyFrames.update))))

theorem Keeps.pairDone {n : Nat} (h : Keeps κ s₀ s) : Keeps κ s₀ (s.pairDone n) := by
  unfold State.pairDone
  exact h.foldl (fun h => .ite h.stopTasks.modSlice.endRetire.update h)

theorem Keeps.pageMovesDone {channel : Nat} (h : Keeps false s₀ s) : Keeps false s₀ (s.pageMovesDone channel) := by
  unfold State.pageMovesDone
  extract_lets _ _ _ _ _ _ s1
  have h1 : Keeps false s₀ s1 := .ite h.movePools.update.endRetire.eventAll.shrunk h.movePools.update.endRetire.eventAll
  exact .ite h (.ite h.movePools h1.charge.pairDone)

theorem Keeps.relocate {key : Nat} (h : Keeps κ s₀ s) : Keeps κ s₀ (s.relocate key) := by
  unfold State.relocate
  extract_lets
  exact .ite h (by
    split
    · exact h.update
    · exact h)

theorem execMeterLeak_keeps {cls : Nat} (h : Keeps false s₀ s) : Answers s₀ (execMeterLeak cls s) := by
  unfold execMeterLeak
  exact .ite (.next h.update) (.next h.update)

theorem execLeatEccError_keeps {die : Nat} {double : Bool} {line : Option Nat} {sec : Sectors} (h : Keeps false s₀ s) :
    Answers s₀ (execLeatEccError die double line sec s) := by
  unfold execLeatEccError
  extract_lets
  exact .ite (.next h) (.ite (by
    split
    · exact .next h.charge.poisonSectors.post
    · exact .next h.charge) (.next h.charge.corrected))

theorem execPatrolScrub_keeps {line found : Nat} (h : Keeps false s₀ s) : Answers s₀ (execPatrolScrub line found s) := by
  unfold execPatrolScrub
  exact .ite (.next h) (.ite (.next h.corrected.charge) (.ite (.next h.charge) (.next h.chargeRow.post)))

theorem execLocalRead_keeps {r : Req} {pick : Nat} {err : Option SramErr} (h : Keeps false s₀ s) :
    Answers s₀ (execLocalRead r pick err s) := by
  unfold execLocalRead
  extract_lets
  exact .next (by
    split
    · exact h.localReq.sramError
    · exact h.localReq)

theorem execRunnerTileAttempt_keeps {slice : Nat} {err : Bool} {x : Ext} (h : Keeps false s₀ s) :
    Answers s₀ (execRunnerTileAttempt slice err x s) := by
  unfold execRunnerTileAttempt
  exact .next (h.orWait (fun h => (by
    split
    · exact .ite h.tileAttempt.tileError.charge h.tileAttempt
    · exact h)))

theorem execDramUeReread_keeps {line sector : Nat} {bad oneRow : Bool} (h : Keeps false s₀ s) :
    Answers s₀ (execDramUeReread line sector bad oneRow s) := by
  unfold execDramUeReread
  extract_lets _ _ _ _ _ s1
  have h1 : Keeps false s₀ s1 := .ite h.update.post.lineEvent.chargeRow h.update.post.lineEvent.charge
  exact .ite (.next h) (.ite (.next h.post) (.next h1.dieWide))

theorem execCxlReceiverError_keeps {port : Nat} {lane : Option Nat} (h : Keeps false s₀ s) :
    Answers s₀ (execCxlReceiverError port lane s) := by
  unfold execCxlReceiverError
  split <;> exact .next h.corrected.charge

theorem execCxlLinkRecovery_keeps {port : Nat} (h : Keeps false s₀ s) : Answers s₀ (execCxlLinkRecovery port s) := by
  unfold execCxlLinkRecovery
  exact .next h.corrected.charge

theorem execLinkDown_keeps {port : Nat} {surprise : Bool} {pick : Nat} (h : Keeps false s₀ s) :
    Answers s₀ (execLinkDown port surprise pick s) := by
  unfold execLinkDown
  exact .ite (.next h) (.ite (.next h.linkLost.charge) (.next h.portReset))

theorem execIdeIntegrityFailure_keeps {port pick : Nat} (h : Keeps false s₀ s) : Answers s₀ (execIdeIntegrityFailure port pick s) := by
  unfold execIdeIntegrityFailure
  exact .ite (.next h) (.next h.linkLost.charge)

theorem execThermalSample_keeps {die : Nat} {readings : List (Option Nat)} (h : Keeps false s₀ s) :
    Answers s₀ (execThermalSample die readings s) := by
  unfold execThermalSample
  extract_lets _ _ _ _ _ s1
  have h1 : Keeps false s₀ s1 := .ite h.modDie.eventAll h.modDie
  exact .ite (.next h) (.ite (.next h1.dieRetire) (.next h1))

theorem execWaitingRetirementStart_keeps {cls inst : Nat} (h : Keeps false s₀ s) : Answers s₀ (execWaitingRetirementStart cls inst s) := by
  unfold execWaitingRetirementStart
  exact .ite (.next (h.retireTo.startRetire (fun h => h.chargeF))) (.next h)

theorem execRowPprDone_keeps {channel slot : Nat} (h : Keeps false s₀ s) : Answers s₀ (execRowPprDone channel slot s) := by
  unfold execRowPprDone
  extract_lets
  split
  · exact .ite (.next h) (.next h.update.endRetire.eventAll.charge)
  · split
    · exact .ite (.next h.update.endRetire) (.next h)
    · exact .next h.endRetire
  · exact .next h

theorem execChannelMetadataCopyDone_keeps {channel : Nat} {lost known : List Nat} (h : Keeps false s₀ s) :
    Answers s₀ (execChannelMetadataCopyDone channel lost known s) := by
  unfold execChannelMetadataCopyDone
  extract_lets s1
  have h1 : Keeps false s₀ s1 := h.foldl (fun h => (by
      split
      · exact h.update
      · exact h))
  exact .ite (.next h) (.next ((h1.foldl (fun h => h.loseSet)).foldl (fun h => h.moveOff)).retireTo)

theorem execChannelPageMovesDone_keeps {channel pick : Nat} (h : Keeps false s₀ s) :
    Answers s₀ (execChannelPageMovesDone channel pick s) := by
  unfold execChannelPageMovesDone
  exact .next (h.orWait (fun h => h.pageMovesDone))

theorem execBayCopyDone_keeps {bay : Nat} (h : Keeps false s₀ s) : Answers s₀ (execBayCopyDone bay s) := by
  unfold execBayCopyDone
  exact .ite (.next h.replaceBay.bayGone.endRetire.charge) (.next h)

theorem execSliceDrainDone_keeps {slice : Nat} {lost known : List Nat} (h : Keeps false s₀ s) :
    Answers s₀ (execSliceDrainDone slice s lost known) := by
  unfold execSliceDrainDone
  extract_lets _ _ s1
  have h1 : Keeps false s₀ s1 := (h.foldl (fun h => h.evict)).foldl (fun h => h.demoteBay.replaceBay)
  exact .ite (.next (h1.foldl (fun h => h.loseSet)).retireTo) (.next h)

theorem execSliceRetired_keeps {slice pick : Nat} (h : Keeps false s₀ s) : Answers s₀ (execSliceRetired slice pick s) := by
  unfold execSliceRetired
  exact .ite (.next (h.modSlice.endRetire.update.foldl (fun h => h.arrive))) (.next h)

theorem execDieProxyWritebackDone_keeps {die : Nat} (h : Keeps false s₀ s) : Answers s₀ (execDieProxyWritebackDone die s) := by
  unfold execDieProxyWritebackDone
  exact .ite (.next (h.foldl (fun h => (h.foldl (fun h => h.sendWb)).modSlice)).retireTo) (.next h)

theorem execDieMetadataRestoreDone_keeps {die : Nat} {known : List Nat} (h : Keeps false s₀ s) :
    Answers s₀ (execDieMetadataRestoreDone die known s) := by
  unfold execDieMetadataRestoreDone
  exact .ite (.next (h.foldl (fun h => h.loseSet)).update.endRetire) (.next h)

theorem execLostSetSweep_keeps {slice set : Nat} (h : Keeps false s₀ s) : Answers s₀ (execLostSetSweep slice set s) := by
  unfold execLostSetSweep
  extract_lets _ _ s1
  have h1 : Keeps false s₀ s1 := h.foldl (fun h => .ite h (.getD h.recall h))
  exact .ite (.ite (.next h1.modSlice.relocate) (.next h1)) (.next h)

theorem execLogCoalesceTimer_keeps {cls : RecClass} {code unit : Nat} (h : Keeps false s₀ s) :
    Answers s₀ (execLogCoalesceTimer cls code unit s) := by
  unfold execLogCoalesceTimer
  extract_lets
  split
  · exact .next h
  · exact .ite (.next h.update) (.next h.update.post)

theorem execRefreshLoopDecision_keeps {channel choice : Nat} (h : Keeps false s₀ s) :
    Answers s₀ (execRefreshLoopDecision channel choice s) := by
  unfold execRefreshLoopDecision
  exact .ite (.next h.update.update) (.next h.update)

end Sys2Proof.Machine
end

section
/-! What keeps the state: the links between devices. -/
namespace Sys2Proof.Machine
variable {κ : Bool} {s₀ s : State}

theorem Keeps.attempt {p n : Nat} (h : Keeps false s₀ s) : Keeps false s₀ (s.attempt p n) := by
  unfold State.attempt
  exact .ite h.hylDrop h.modHyl.charge

theorem Keeps.recover {p : Nat} (h : Keeps false s₀ s) : Keeps false s₀ (s.recover p) := by
  unfold State.recover
  extract_lets
  split <;> exact h.linkSync.attempt

theorem Keeps.recoveryBlocks {p : Nat} (h : Keeps κ s₀ s) : Keeps κ s₀ (s.recoveryBlocks p) := by
  unfold State.recoveryBlocks
  extract_lets
  split
  · exact .ite (.ite h.modHyl.resume h.modHyl.reconfigure) h
  · exact h

theorem Keeps.sendBlock {port lane num : Nat} {seen : Bool} (h : Keeps κ s₀ s) : Keeps κ s₀ (s.sendBlock port lane num seen) := by
  unfold State.sendBlock
  exact .ite h.modHyl h

theorem Keeps.replayNow {p : Nat} (h : Keeps false s₀ s) : Keeps false s₀ (s.replayNow p) := by
  unfold State.replayNow
  split
  · exact h
  · exact .ite h.recover h.modHyl.resend

theorem Keeps.discard {p : Nat} (h : Keeps κ s₀ s) : Keeps κ s₀ (s.discard p) := by
  unfold State.discard
  exact .ite h h.modHyl.idleFlit

theorem Keeps.deliver {p : Nat} {m : LinkMsg} (h : Keeps κ s₀ s) : Keeps κ s₀ (s.deliver p m) := by
  unfold State.deliver
  exact .ite h.modHyl h.modHyl.send

theorem Keeps.payload {p : Nat} {f : LinkFlit} (h : Keeps false s₀ s) : Keeps false s₀ (s.payload p f) := by
  unfold State.payload
  extract_lets _ _ _ s1
  have h1 : Keeps false s₀ s1 := .ite h.modHyl.modHyl.post (h.modHyl.foldl (fun h => h.deliver))
  exact .ite h1.idleFlit (.ite h.discard (.ite h.recover h.idleFlit))

theorem Keeps.fecFixed {p : Nat} {lanes : List Nat} (h : Keeps false s₀ s) : Keeps false s₀ (s.fecFixed p lanes) := by
  unfold State.fecFixed
  exact h.foldl (fun h => h.modHyl.charge)

theorem Keeps.flitAck {p : Nat} {f : LinkFlit} (h : Keeps κ s₀ s) : Keeps κ s₀ (s.flitAck p f) := by
  unfold State.flitAck
  exact h.modHyl

theorem Keeps.flitTaken {port : Nat} {f : LinkFlit} (h : Keeps false s₀ s) : Keeps false s₀ (s.flitTaken port f) := by
  unfold State.flitTaken
  extract_lets _ _ _ s1
  have h1 : Keeps false s₀ s1 := .ite h.fecFixed.flitAck.replayNow h.fecFixed.flitAck
  exact .ite h.fecFixed (.ite (.ite h.fecFixed.modHyl.charge.discard h.fecFixed.modHyl.charge) (.ite h1 (by
    split
    · exact h1.pump
    · exact .ite h1.pump.modHyl h1.pump
    · exact h1.pump.payload)))

theorem Keeps.enterWidth {p set : Nat} (h : Keeps κ s₀ s) : Keeps κ s₀ (s.enterWidth p set) := by
  unfold State.enterWidth
  exact h.modHyl

theorem Keeps.enterL1 {p : Nat} (h : Keeps κ s₀ s) : Keeps κ s₀ (s.enterL1 p) := by
  unfold State.enterL1
  exact h.modHyl

theorem execHylDetectPoll_keeps {port lanes : Nat} (h : Keeps false s₀ s) : Answers s₀ (execHylDetectPoll port lanes s) := by
  unfold execHylDetectPoll
  exact .ite (.next h.modHyl) (.next h)

theorem execHylTrainDone_keeps {port lanes : Nat} {expired : Bool} {precode : Nat} (h : Keeps false s₀ s) :
    Answers s₀ (execHylTrainDone port lanes expired precode s) := by
  unfold execHylTrainDone
  exact .ite (.ite (.next h.linkSync.modHyl) (.ite (.next h.linkSync.modHyl) (.next h.linkSync)))
    (.ite (.next (h.linkSync.modHyl.foldl (fun h => h.charge))) (.next h.linkSync))

theorem execTrainingBlockReceive_keeps {port lane : Nat} {bytes : List Byte} (h : Keeps false s₀ s) :
    Answers s₀ (execTrainingBlockReceive port lane bytes s) := by
  unfold execTrainingBlockReceive
  split
  · exact .next h.linkSync.sendBlock
  · extract_lets _ _ _ s1
    have h1 : Keeps false s₀ s1 := .ite h.linkSync.sendBlock (.ite h.linkSync.sendBlock.modHyl h.linkSync.sendBlock.modHyl)
    split
    · exact .next h.linkSync.sendBlock.modHyl
    · exact .next h.linkSync.sendBlock.modHyl
    · exact .ite (.ite (.next h.linkSync.sendBlock) (.next h.linkSync.sendBlock.attempt.modHyl.modHyl))
        (.ite (.next h.linkSync.sendBlock.modHyl) (.next h.linkSync.sendBlock))
    · exact .ite (.next h.linkSync.sendBlock.reconfigure.modHyl) (.next h1.modHyl.recoveryBlocks)
    · exact .ite (.next h.linkSync.sendBlock.reconfigure.modHyl) (.next h.linkSync.sendBlock.modHyl.modHyl)
    · exact .next h.linkSync.sendBlock

theorem execHylConfigDone_keeps {port : Nat} (h : Keeps false s₀ s) : Answers s₀ (execHylConfigDone port s) := by
  unfold execHylConfigDone
  extract_lets
  exact .ite (.next h.linkSync) (by
    split
    · exact .next h.linkSync.modHyl
    · exact .ite (.next h.linkSync.freshLink.pump) (.next h.linkSync))

theorem execLaneLockLoss_keeps {port lane : Nat} (h : Keeps false s₀ s) : Answers s₀ (execLaneLockLoss port lane s) := by
  unfold execLaneLockLoss
  exact .ite (.next h.recover) (.next h)

theorem execNoFlitTimeout_keeps {port : Nat} (h : Keeps false s₀ s) : Answers s₀ (execNoFlitTimeout port s) := by
  unfold execNoFlitTimeout
  exact .ite (.next h.recover) (.next h)

theorem execRecoveryAttemptTimeout_keeps {port : Nat} (h : Keeps false s₀ s) : Answers s₀ (execRecoveryAttemptTimeout port s) := by
  unfold execRecoveryAttemptTimeout
  exact .ite (.next h.linkSync.attempt) (.next h)

theorem execRelockFail_keeps {port : Nat} (h : Keeps false s₀ s) : Answers s₀ (execRelockFail port s) := by
  unfold execRelockFail
  exact .ite (.next h.linkSync.attempt) (.next h)

theorem execHylDownTimer_keeps {port : Nat} (h : Keeps false s₀ s) : Answers s₀ (execHylDownTimer port s) := by
  unfold execHylDownTimer
  exact .ite (.next h.modHyl) (.next h)

theorem execReplayTimeout_keeps {port : Nat} (h : Keeps false s₀ s) : Answers s₀ (execReplayTimeout port s) := by
  unfold execReplayTimeout
  exact .ite (.next h.linkSync.replayNow) (.next h)

theorem execFlitReceive_keeps {port : Nat} {wire : FlitWire} (h : Keeps false s₀ s) : Answers s₀ (execFlitReceive port wire s) := by
  unfold execFlitReceive
  exact .ite (.next h.linkSync) (.next h.linkSync.modHyl.flitTaken)

theorem execWreq_keeps {port lanes : Nat} {devnum : Option Nat} {serial : Nat} (h : Keeps false s₀ s) :
    Answers s₀ (execWreq port lanes devnum serial s) := by
  unfold execWreq
  extract_lets
  exact .ite (.next h.linkSync) (by
    split
    · exact .ite (.ite (.next h.linkSync) (.next h.linkSync.putControl.modHyl.enterWidth)) (.next h.linkSync.putControl.enterWidth)
    · exact .ite (.next h.linkSync.recoveryDone.putControl.modHyl.enterWidth) (.next h.linkSync)
    · exact .next h.linkSync)

theorem execWack_keeps {port lanes : Nat} (h : Keeps false s₀ s) : Answers s₀ (execWack port lanes s) := by
  unfold execWack
  exact .ite (.next h.linkSync.enterWidth) (.next h)

theorem execWidthChangeDone_keeps {port : Nat} (h : Keeps false s₀ s) : Answers s₀ (execWidthChangeDone port s) := by
  unfold execWidthChangeDone
  extract_lets
  exact .ite (by
    split
    · exact .ite (.next h.linkSync.resume) (.next h.linkSync.reconfigure)
    · exact .next h.linkSync) (.next h.linkSync)

theorem execHylIdleTimer_keeps {port : Nat} (h : Keeps false s₀ s) : Answers s₀ (execHylIdleTimer port s) := by
  unfold execHylIdleTimer
  exact .ite (.next h.linkSync.modHyl.putControl) (.next h.linkSync)

theorem execPmReq_keeps {port : Nat} (h : Keeps false s₀ s) : Answers s₀ (execPmReq port s) := by
  unfold execPmReq
  exact .ite (.next h.linkSync) (.ite (.next h.linkSync.enterL1)
    (.ite (.next h.linkSync.putControl.enterL1) (.next h.linkSync.putControl)))

theorem execPmAck_keeps {port : Nat} (h : Keeps false s₀ s) : Answers s₀ (execPmAck port s) := by
  unfold execPmAck
  exact .ite (.next h.linkSync.enterL1) (.next h)

theorem execPmNak_keeps {port : Nat} (h : Keeps false s₀ s) : Answers s₀ (execPmNak port s) := by
  unfold execPmNak
  exact .next h.modHyl

theorem execL1ToL1d_keeps {port : Nat} (h : Keeps false s₀ s) : Answers s₀ (execL1ToL1d port s) := by
  unfold execL1ToL1d
  exact .ite (.next h.modHyl) (.next h)

theorem execHylWake_keeps {port : Nat} (h : Keeps false s₀ s) : Answers s₀ (execHylWake port s) := by
  unfold execHylWake
  exact .ite (.next h.linkSync.modHyl.pump.hylWant) (.next h)

theorem execEqualisationDecision_keeps {port : Nat} {asks : Bool} {lane req : Nat} (h : Keeps false s₀ s) :
    Answers s₀ (execEqualisationDecision port asks s lane req) := by
  unfold execEqualisationDecision
  exact .ite (.next h) (.ite (.next h.update) (.ite (.next h) (.next h.modHyl)))

end Sys2Proof.Machine
end

section
/-! What keeps the state: the pool. -/
namespace Sys2Proof.Machine
variable {κ : Bool} {s₀ s : State}

theorem Keeps.penFailed {r : RemoteOp} (h : Keeps κ s₀ s) : Keeps κ s₀ (s.penFailed r) := by
  unfold State.penFailed
  exact .ite h (by
    split
    · exact h
    · split
      · exact h
      · exact .ite h.armEnd (.ite h h.endEarly))

theorem Keeps.takeFailed {key : Nat} {st : Status} {pick : Nat} (h : Keeps κ s₀ s) : Keeps κ s₀ (s.takeFailed key st pick) := by
  unfold State.takeFailed
  extract_lets
  split
  · exact h
  · extract_lets s1
    have h1 : Keeps κ s₀ s1 := .ite h.dropMove h.moveAbandon
    exact .ite h (by
      split
      · split
        · exact .ite h1.placeEnd (by
            split
            · rename_i e
              exact Yields.ite h1.freshTake .none _ e
            · exact h1.touchRefused.placeEnd)
        · exact h1
      · exact h1)

theorem Keeps.slFailed {r : RemoteOp} {pick : Nat} (h : Keeps κ s₀ s) : Keeps κ s₀ (s.slFailed r pick) := by
  unfold State.slFailed
  split
  · split
    · exact .ite h.engineDone h.takeFailed
    · exact h.takeFailed
  · exact h.takeFailed

theorem Keeps.collEnd {q : Nat} {term : Term} {st : Status} {addr : Nat} (h : Keeps κ s₀ s) : Keeps κ s₀ (s.collEnd q term st addr) := by
  unfold State.collEnd
  exact h.update.modCmd

theorem Keeps.opFailed {r : RemoteOp} {x : Ext} (h : Keeps κ s₀ s) : Keeps κ s₀ (s.opFailed r x) := by
  unfold State.opFailed
  split
  · exact h.remoteFailed
  · exact h.penFailed
  · exact h.slFailed
  · split
    · exact .ite h.collEnd h
    · exact h

theorem Keeps.dropRemote {r : RemoteOp} (h : Keeps κ s₀ s) : Keeps κ s₀ (s.dropRemote r) := by
  unfold State.dropRemote
  exact h.update

theorem Keeps.pennantsGone {d : Nat} (h : Keeps κ s₀ s) : Keeps κ s₀ (s.pennantsGone d) := by
  unfold State.pennantsGone
  exact h.update.update.withdraw.update

theorem Keeps.dropProxies {d : Nat} (h : Keeps κ s₀ s) : Keeps κ s₀ (s.dropProxies d) := by
  unfold State.dropProxies
  exact h.update

theorem Keeps.elect {l : Option Nat} (h : Keeps κ s₀ s) : Keeps κ s₀ (s.elect l) := by
  unfold State.elect
  extract_lets own low
  cases low with
  | none => exact h.update
  | some a => exact h.update.floodOut

theorem Keeps.dropPeer {d : Nat} (h : Keeps κ s₀ s) : Keeps κ s₀ (s.dropPeer d) := by
  unfold State.dropPeer
  exact h.update

theorem Keeps.depart {d : Nat} {x : Ext} (h : Keeps κ s₀ s) : Keeps κ s₀ (s.depart d x) := by
  unfold State.depart
  extract_lets _ _ _ _ _ s1 _ _ _ _ _ s2
  have h1 : Keeps κ s₀ s1 := h.linkSync.update.dropPeer.dropProxies.pennantsGone.abandonMoves
  have h2 : Keeps κ s₀ s2 := (h1.update.foldl (fun h => h.opFailed)).foldl (fun h => h.placeGo)
  exact .ite h (.ite (h2.foldl (fun h => h.collEnd)).elect (h2.foldl (fun h => h.collEnd)))

theorem Keeps.isolate {x : Ext} (h : Keeps κ s₀ s) : Keeps κ s₀ (s.isolate x) := by
  unfold State.isolate
  exact (h.foldl (fun h => h.depart)).update.panelAsk

theorem Keeps.renumber {b : Nat} (h : Keeps κ s₀ s) : Keeps κ s₀ (s.renumber b) := by
  unfold State.renumber
  exact h.update

theorem Keeps.cutGauges {old new : Nat} (h : Keeps κ s₀ s) : Keeps κ s₀ (s.cutGauges old new) := by
  unfold State.cutGauges
  exact h.update

theorem Keeps.joined {serial d : Nat} {offset : ℤ} (h : Keeps κ s₀ s) : Keeps κ s₀ (s.joined serial d offset) := by
  unfold State.joined
  exact .ite h (.ite h.update (h.update.renumber.update.cutGauges.foldl (fun h => h.noteLink)).panelAsk)

theorem Keeps.numberPass {k : Nat} (h : Keeps κ s₀ s) : Keeps κ s₀ (State.numberPass k s) := by
  induction k generalizing s with
  | zero => exact h
  | succ k ih =>
    rw [State.numberPass]
    split
    · exact h
    · split
      · exact h
      · exact ih (h.joined.foldl (fun h => h.floodOut))

theorem Keeps.coordinate (h : Keeps κ s₀ s) : Keeps κ s₀ s.coordinate := by
  unfold State.coordinate
  extract_lets _ s1
  have h1 : Keeps κ s₀ s1 := .ite h h.update
  exact .ite h h1.numberPass

theorem Keeps.sendHello {port : Nat} (h : Keeps κ s₀ s) : Keeps κ s₀ (s.sendHello port) := by
  unfold State.sendHello
  exact h.send

theorem Keeps.declareGone {d : Nat} {x : Ext} (h : Keeps κ s₀ s) : Keeps κ s₀ (s.declareGone d x) := by
  unfold State.declareGone
  split
  · exact .ite h.floodOut.depart h
  · exact h

theorem Keeps.sluiceSweep {d : Nat} (h : Keeps κ s₀ s) : Keeps κ s₀ (s.sluiceSweep d) := by
  unfold State.sluiceSweep
  exact h.revokeEntries.update

theorem Keeps.penServe {dev vd : Nat} {tag op : Nat} {ticket value qos : Nat} (h : Keeps κ s₀ s) :
    Keeps κ s₀ (s.penServe dev vd tag op ticket value qos) := by
  unfold State.penServe
  extract_lets
  exact .ite (by
    split <;>
      (rename_i e; exact (h.importCheck.of_snd e).send)) (by
    split
    · exact h.update.send
    · extract_lets
      split
      · exact h.withdraw.update.send
      · exact h.penAdd.send
      · exact h.send
      · exact .ite h.send h.register
      · exact h.penAdd.send
      · exact h.withdraw.send
      · exact h.update.send
      · exact h.send)

theorem Keeps.penOp {dev tag vd : Nat} (h : Keeps κ s₀ s) : Yields κ s₀ Prod.snd (s.penOp dev tag vd) := by
  unfold State.penOp
  exact h.remoteAt

theorem Keeps.woken {vd q : Nat} {st : Status} {value : Nat} (h : Keeps κ s₀ s) : Keeps κ s₀ (s.woken vd q st value) := by
  unfold State.woken
  split
  · exact h
  · exact .ite h (.ite h.armEnd h.setCmd)

theorem Keeps.imported {q : Nat} {c : Cmd} {dev n : Nat} (h : Keeps κ s₀ s) : Keeps κ s₀ (s.imported q c dev n) := by
  unfold State.imported
  exact .ite h.sendRemote.penDone (.ite h.sendRemote.penDone h.setBinding.penDone)

theorem Keeps.slServe {dev : Nat} {m : SlMsg} {pick : Nat} (h : Keeps κ s₀ s) : Keeps κ s₀ (s.slServe dev m pick) := by
  unfold State.slServe
  split
  · exact h.attachCheck.send
  · exact h.revokeGrant
  · split
    · exact h.send
    · exact h.zeroFrames.update.send
  · exact h.takeBackFrames.update
  · exact h.takeBackFrames.send
  · exact h

theorem Keeps.taken {m : Move} {dev g pick : Nat} (h : Keeps κ s₀ s) : Keeps κ s₀ (s.taken m dev g pick) := by
  unfold State.taken
  extract_lets
  exact .ite h.dropMove.setEntry.update.placeResume (by
    split
    · exact h.dropMove.send
    · exact .ite h.dropMove.placeResume.send (.ite h.dropMove.moveRefused.send h.moveBegin))

theorem execRemoteOpTimeout_keeps {i : Nat} {x : Ext} (h : Keeps false s₀ s) : Answers s₀ (execRemoteOpTimeout i x s) := by
  unfold execRemoteOpTimeout
  split
  · exact .next h
  · exact .next h.dropRemote.update.opFailed

theorem execHello_keeps {port : Nat} {h : Hello} (hs : Keeps false s₀ s) : Answers s₀ (execHello port h s) := by
  unfold execHello
  extract_lets _ _ _ _ _ _ _ s1 s2 _ s3 _ s4
  have h1 : Keeps false s₀ s1 := .ite hs.linkSync.modHyl.update.modHyl.post hs.linkSync.modHyl.update
  have h2 : Keeps false s₀ s2 := .ite h1.sendHello h1
  have h3 : Keeps false s₀ s3 := .ite h2.noteLink (.ite h2.noteLink h2)
  have h4 : Keeps false s₀ s4 := .ite h3.update h3
  exact .ite (.next hs) (.ite (.next h4.elect) (.next h4))

theorem execHelloTimer_keeps {port : Nat} (h : Keeps false s₀ s) : Answers s₀ (execHelloTimer port s) := by
  unfold execHelloTimer
  exact .ite (.next h.sendHello.linkSync) (.next h)

theorem execElect_keeps {f : Flood} {serial : Nat} (h : Keeps false s₀ s) : Answers s₀ (execElect f serial s) := by
  unfold execElect
  split
  · exact .next h
  · rename_i e
    split
    · exact .ite (.next (h.linkSync.floodIn _ e).elect) (.next (h.linkSync.floodIn _ e))
    · exact .next (h.linkSync.floodIn _ e).elect

theorem execElectTimeout_keeps (h : Keeps false s₀ s) : Answers s₀ (execElectTimeout s) := by
  unfold execElectTimeout
  exact .ite (.next h.update.coordinate) (.next h)

theorem execJoinReq_keeps {f : Flood} {serial : Nat} {links : List (Nat × Option Nat)} (h : Keeps false s₀ s) :
    Answers s₀ (execJoinReq f serial links s) := by
  unfold execJoinReq
  split
  · exact .next h
  · rename_i e
    exact .next (h.linkSync.floodIn _ e).update.coordinate

theorem execJoinReqTimer_keeps (h : Keeps false s₀ s) : Answers s₀ (execJoinReqTimer s) := by
  unfold execJoinReqTimer
  exact .ite (.next h.floodOut.linkSync) (.next h)

theorem execPoolMember_keeps {f : Flood} {serial number : Nat} {isIn : Bool} {offset : ℤ} {x : Ext} (h : Keeps false s₀ s) :
    Answers s₀ (execPoolMember f serial number isIn offset x s) := by
  unfold execPoolMember
  split
  · exact .next h
  · rename_i e
    exact .ite (.ite (.next (h.linkSync.floodIn _ e).isolate.update.joined) (.next (h.linkSync.floodIn _ e).joined))
      (.ite (.next (h.linkSync.floodIn _ e).isolate) (.next (h.linkSync.floodIn _ e).depart))

theorem execLinkState_keeps {f : Flood} {reporter device : Nat} {ok : Bool} (h : Keeps false s₀ s) :
    Answers s₀ (execLinkState f reporter device ok s) := by
  unfold execLinkState
  split
  · exact .next h
  · rename_i e
    exact .next (h.linkSync.floodIn _ e).update

theorem execDepartureTimer_keeps {device : Nat} {x : Ext} (h : Keeps false s₀ s) : Answers s₀ (execDepartureTimer device x s) := by
  unfold execDepartureTimer
  exact .ite (.next h) (.next h.linkSync.declareGone)

theorem execLeave_keeps {f : Flood} {device : Nat} {x : Ext} (h : Keeps false s₀ s) : Answers s₀ (execLeave f device x s) := by
  unfold execLeave
  split
  · exact .next h
  · rename_i e
    exact .next (h.linkSync.floodIn _ e).declareGone

theorem execDepartureSweepDone_keeps {device : Nat} (h : Keeps false s₀ s) : Answers s₀ (execDepartureSweepDone device s) := by
  unfold execDepartureSweepDone
  exact .ite (.next h.sluiceSweep.update.floodOut.coordinate) (.next h)

theorem execSweepDone_keeps {f : Flood} {reporter device : Nat} (h : Keeps false s₀ s) : Answers s₀ (execSweepDone f reporter device s) := by
  unfold execSweepDone
  split
  · exact .next h
  · rename_i e
    exact .next (h.linkSync.floodIn _ e).update.coordinate

theorem execIsolationTimer_keeps {x : Ext} (h : Keeps false s₀ s) : Answers s₀ (execIsolationTimer x s) := by
  unfold execIsolationTimer
  exact .ite (.next h.isolate) (.next h)

theorem execTimeSyncTimer_keeps (h : Keeps false s₀ s) : Answers s₀ (execTimeSyncTimer s) := by
  unfold execTimeSyncTimer
  exact .next (h.foldl (fun h => h.send)).linkSync

theorem execTimeReq_keeps {port : Nat} (h : Keeps false s₀ s) : Answers s₀ (execTimeReq port s) := by
  unfold execTimeReq
  exact .ite (.next h.send.linkSync) (.next h)

theorem execTimeRsp_keeps {port : Nat} {delta : ℤ} {upstream : Bool} (h : Keeps false s₀ s) :
    Answers s₀ (execTimeRsp port delta upstream s) := by
  unfold execTimeRsp
  exact .ite (.next h.update) (.next h)

theorem execUnreach_keeps {device op : Nat} {tag line : Nat} {x : Ext} (h : Keeps false s₀ s) :
    Answers s₀ (execUnreach device op tag line x s) := by
  unfold execUnreach
  extract_lets
  exact .ite (.next h.snoopLost) (.ite (.next (h.foldl (fun h => h.collEnd))) (by
    split
    · exact .next h.dropRemote.opFailed
    · exact .next h))

theorem execDepartedWriteEntryAge_keeps (h : Keeps false s₀ s) : Answers s₀ (execDepartedWriteEntryAge s) := by
  unfold execDepartedWriteEntryAge
  extract_lets
  split
  · exact .next h
  · exact .next (.getD h.update.postNow h)

theorem execPenReq_keeps {dev vd : Nat} {tag op : Nat} {ticket value qos : Nat} (h : Keeps false s₀ s) :
    Answers s₀ (execPenReq dev vd tag op ticket value s qos) := by
  unfold execPenReq
  exact .next (.ite h.holdReq h.penServe)

theorem execPenRsp_keeps {dev vd tag : Nat} {ans : PenAns} (h : Keeps false s₀ s) : Answers s₀ (execPenRsp dev vd tag ans s) := by
  unfold execPenRsp
  split
  · exact .next (h.modVd.foldl (fun h => h.woken))
  · exact .next (by
      split
      · rename_i e
        exact .ite (h.penOp _ e) (h.penOp _ e).woken
      · exact h.woken)
  · split
    · rename_i e
      exact .next (by
        split
        · exact .ite (h.penOp _ e).armRecorded (h.penOp _ e)
        · exact h.penOp _ e)
    · exact .next h
  · split
    · rename_i e
      exact .next (.ite (h.penOp _ e) (h.penOp _ e).modVd)
    · exact .next h
  · split
    · exact .next h
    · rename_i e
      exact .ite (.next (h.penOp _ e)) (by
        split
        · exact .next (h.penOp _ e)
        · exact .ite (.ite (.next (h.penOp _ e).imported) (.next (h.penOp _ e).penDone.modCmd)) (.next (h.penOp _ e).woken))

theorem execSlReq_keeps {dev : Nat} {m : SlMsg} {x : Ext} (h : Keeps false s₀ s) : Answers s₀ (execSlReq dev m x s) := by
  unfold execSlReq
  exact .next (.ite h.holdReq (h.orWait (fun h => h.slServe)))

theorem execSlRsp_keeps {dev : Nat} {m : SlMsg} {x : Ext} (h : Keeps false s₀ s) : Answers s₀ (execSlRsp dev m x s) := by
  unfold execSlRsp
  extract_lets
  split
  · split
    · exact .next h
    · rename_i e
      exact .ite (.next (h.remoteAt _ e)) (by
        split
        · exact .next (h.remoteAt _ e).attachEnd
        · exact .next (h.remoteAt _ e).engineDone
        · exact .next (h.remoteAt _ e))
  · extract_lets f1
    have h1 : ∀ {s}, Keeps false s₀ s → Keeps false s₀ (f1 s) := by
      intro s h0
      unfold f1
      split
      · exact h0.send
      · exact h0
    split
    · exact .next (h1 h)
    · rename_i e
      split
      · exact .next (h1 (h.remoteAt _ e))
      · exact .next (h.remoteAt _ e).takeFailed
      · exact .next (.ite (h1 (h.remoteAt _ e)) (.ite (h1 (h.remoteAt _ e).moveAbandon.placeResume) (h.remoteAt _ e).taken))
  · exact .next h.pageLands
  · exact .next h

end Sys2Proof.Machine
end

section
/-! What keeps the state: collectives. -/
namespace Sys2Proof.Machine
variable {κ : Bool} {s₀ s : State}

theorem Keeps.setColl {c : Coll} (h : Keeps κ s₀ s) : Keeps κ s₀ (s.setColl c) := by
  unfold State.setColl
  exact h.update

theorem Keeps.collPoison {q : Nat} (h : Keeps κ s₀ s) : Keeps κ s₀ (s.collPoison q) := by
  unfold State.collPoison
  exact h.modCmd

theorem Keeps.collLines {q : Nat} {c : Cmd} {vals : List Nat} {dev : Nat} {bridge : Bool} {x : Ext} {k o : Nat} (h : Keeps κ s₀ s) :
    Keeps κ s₀ (State.collLines q c vals dev bridge x k o s).2 := by
  induction k generalizing o s with
  | zero => exact h
  | succ k ih =>
    rw [State.collLines]
    extract_lets
    split
    · rename_i e
      exact h.readMarked.of_snd e
    · rename_i e
      exact ih (h.readMarked.of_snd e).sendRemote

theorem Keeps.collData {q j : Nat} {x : Ext} (h : Keeps κ s₀ s) : Keeps κ s₀ (s.collData q j x) := by
  unfold State.collData
  split
  · extract_lets
    split
    split
    split
    rename_i e
    extract_lets s8
    have h8 : Keeps κ s₀ s8 := .ite (h.collLines.of_snd e).collPoison (h.collLines.of_snd e)
    split
    · exact (h.collLines.of_snd e).collEnd
    · exact h8.setColl.send
  · exact h.update

theorem Keeps.collMeet {q j : Nat} {r : CollReady} {x : Ext} (h : Keeps κ s₀ s) : Keeps κ s₀ (s.collMeet q j r x) := by
  unfold State.collMeet
  split
  · exact h
  · exact .ite h.setColl.collData h.collEnd

theorem Keeps.collBegin {q j : Nat} {x : Ext} (h : Keeps κ s₀ s) : Keeps κ s₀ (s.collBegin q j x) := by
  unfold State.collBegin
  split
  · exact h
  · extract_lets
    split
    extract_lets
    exact .ite h.collEnd (by
      split
      · exact h.setColl.send.update
      · exact h.setColl.send.update.collMeet)

theorem Keeps.collCheck {q j : Nat} {x : Ext} (h : Keeps κ s₀ s) : Keeps κ s₀ (s.collCheck q j x) := by
  unfold State.collCheck
  split
  · exact h
  · exact .ite (.ite h.setColl.collBegin (.ite h.setColl.collEnd h.setColl)) h

theorem Keeps.addSplit {c : Coll} {q : Nat} {m : Cmd} {r : OpRef} {k : Nat} {d : Line} {p : Sectors} {x : Ext} (h : Keeps κ s₀ s) :
    Keeps κ s₀ (s.addSplit c q m r k d p x).2 := by
  unfold State.addSplit
  exact .ite_snd h.addLine h.addLine.addLine

theorem Keeps.collApply {c : Coll} {q : Nat} {m : Cmd} {red : Bool} {o : Nat} {d : Line} {p : Sectors} {x : Ext} (h : Keeps κ s₀ s) :
    Keeps κ s₀ (s.collApply c q m red o d p x).2 := by
  unfold State.collApply
  extract_lets
  exact .ite_snd h.opWrite (.ite_snd h.addLine (.ite_snd h.addSplit (by
    split
    · rename_i e
      exact h.readMarked.of_snd e
    · rename_i e
      exact (h.readMarked.of_snd e).countNan.countSat.opWrite)))

theorem Keeps.collAck {m : CohMsg} {x : Ext} (h : Keeps κ s₀ s) : Keeps κ s₀ (s.collAck m x) := by
  unfold State.collAck
  extract_lets s1
  have h1 : Keeps κ s₀ s1 := by
    unfold s1
    split
    · rename_i e
      exact h.remoteAt _ e
    · exact h
  split
  · exact h1
  · exact .ite h1 (.ite h1.collEnd h1.setColl.collCheck)

theorem execCollective_keeps {cmd : Nat} {x : Ext} (h : Keeps false s₀ s) : Answers s₀ (execCollective cmd x s) := by
  unfold execCollective
  split
  · exact .next h
  · exact .ite (.next (h.orWait (fun h => h.update.foldl (fun h => h.collBegin)))) (.next h)

theorem execCollReady_keeps {r : CollReady} {x : Ext} (h : Keeps false s₀ s) : Answers s₀ (execCollReady r x s) := by
  unfold execCollReady
  split
  · exact .ite (.next h) (.next (h.orWait (fun h => h.collMeet)))
  · exact .next h.update

theorem execCollData_keeps {dev : Nat} {bridge : Bool} {seq part : Nat} {step line : Nat} {data : Line} {pois : Sectors} {x : Ext}
    (h : Keeps false s₀ s) : Answers s₀ (execCollData dev bridge seq part step line data pois x s) := by
  unfold execCollData
  extract_lets
  split
  · exact .next h
  · extract_lets
    split
    · exact .next h
    · exact .ite (.next h) (.next (h.orWait (fun h => (by
        split
        rename_i e
        extract_lets s2
        have h2 : Keeps false s₀ s2 := .finishWrites (.ite (h.collApply.of_snd e).collPoison (h.collApply.of_snd e))
        split
        · exact (h.collApply.of_snd e).send.collEnd
        · exact h2.setColl.send.collCheck))))

theorem execCollStep_keeps {dev : Nat} {bridge : Bool} {seq part : Nat} {step count : Nat} {x : Ext} (h : Keeps false s₀ s) :
    Answers s₀ (execCollStep dev bridge seq part step count x s) := by
  unfold execCollStep
  split
  · exact .next h
  · exact .ite (.next h) (.next (h.orWait (fun h => h.setColl.collCheck)))

theorem execCollReadyTimeout_keeps {cmd : Nat} (h : Keeps false s₀ s) : Answers s₀ (execCollReadyTimeout cmd s) := by
  unfold execCollReadyTimeout
  split
  · exact .next h
  · exact .ite (.next h.collEnd) (.next h)

theorem execCmp_keeps {m : CohMsg} {x : Ext} (h : Keeps false s₀ s) : Answers s₀ (execCmp m x s) := by
  unfold execCmp
  exact .ite (.next (h.orWait (fun h => h.collAck))) (by
    split
    · exact .next h
    · rename_i e
      exact .ite (by
        split
        · exact .next (.ite (h.remoteAt _ e) (h.remoteAt _ e).whoFailed)
        · exact .next (h.remoteAt _ e).send) (.ite (.next (.ite (h.remoteAt _ e).recDone (h.remoteAt _ e)))
            (.next (h.remoteAt _ e).deferredWrite)))

end Sys2Proof.Machine
end

section
/-! What keeps the state: clocks and gating. -/
namespace Sys2Proof.Machine
variable {κ : Bool} {s₀ s : State}

theorem Keeps.setRef {r : Nat} {m : RefMon} (h : Keeps κ s₀ s) : Keeps κ s₀ (s.setRef r m) := by
  unfold State.setRef
  exact h.update

theorem Keeps.portLost {port pick : Nat} (h : Keeps false s₀ s) : Keeps false s₀ (s.portLost port pick) := by
  unfold State.portLost
  split
  · exact h.linkLost.charge
  · exact h.modPort
  · exact h

theorem Keeps.freeRun {pick : Nat} (h : Keeps false s₀ s) : Keeps false s₀ (s.freeRun pick) := by
  unfold State.freeRun
  exact .ite h ((h.update.postAs.foldl (fun h => h.portLost)).foldl (fun h => (by
    split
    · exact h
    · exact h
    · exact h
    · exact h.hylDrop)))

theorem Keeps.refLost {ref pick : Nat} (h : Keeps false s₀ s) : Keeps false s₀ (s.refLost ref pick) := by
  unfold State.refLost
  extract_lets _ _ _ _ _ s1
  have h1 : Keeps false s₀ s1 := .ite (.ite h.setRef.update (.ite h.setRef.update.freeRun h.setRef.update.update)) h.setRef
  exact .ite h1.portLost h1

theorem Keeps.setGate {n g : Nat} (h : Keeps κ s₀ s) : Keeps κ s₀ (s.setGate n g) := by
  unfold State.setGate
  exact h.update

theorem Keeps.gateBound {choice bound : Nat} (h : Keeps κ s₀ s) : Keeps κ s₀ (s.gateBound choice bound).2 := by
  unfold State.gateBound
  exact .ite_snd h.update h

theorem Keeps.wakeSlice {n pick : Nat} (h : Keeps κ s₀ s) : Keeps κ s₀ (s.wakeSlice n pick) := by
  unfold State.wakeSlice
  exact .ite h (h.setGate.modSlice.foldl (fun h => h.arrive))

theorem Keeps.keepAwake {pick : Nat} (h : Keeps κ s₀ s) : Keeps κ s₀ (s.keepAwake pick) := by
  unfold State.keepAwake
  exact h.foldl (fun h => h.wakeSlice)

theorem execRefGlitch_keeps {ref ns : Nat} (h : Keeps false s₀ s) : Answers s₀ (execRefGlitch ref ns s) := by
  unfold execRefGlitch
  exact .ite (.next h.update.gaugeEvent) (.next h)

theorem execRefLoss_keeps {ref pick : Nat} (h : Keeps false s₀ s) : Answers s₀ (execRefLoss ref pick s) := by
  unfold execRefLoss
  exact .ite (.next h.refLost) (.next h)

theorem execFreqWindowEnd_keeps {ref hz pick : Nat} (h : Keeps false s₀ s) : Answers s₀ (execFreqWindowEnd ref hz pick s) := by
  unfold execFreqWindowEnd
  exact .ite (.next h) (.ite (.next h.setRef) (.ite (.next h.setRef.refLost) (.next h.setRef)))

theorem execRefReturn_keeps {ref : Nat} (h : Keeps false s₀ s) : Answers s₀ (execRefReturn ref s) := by
  unfold execRefReturn
  exact .ite (.ite (.next h.setRef.update) (.next h.setRef)) (.next h)

theorem execQuietClockFail_keeps {pick : Nat} (h : Keeps false s₀ s) : Answers s₀ (execQuietClockFail pick s) := by
  unfold execQuietClockFail
  exact .ite (.next h) (.ite (.next h.update.post) (.next h.update.freeRun))

theorem execCxlTrainingStart_keeps {port : Nat} (h : Keeps false s₀ s) : Answers s₀ (execCxlTrainingStart port s) := by
  unfold execCxlTrainingStart
  exact .ite (.next h.modPort) (.next h)

theorem execPortReset_keeps {port : Nat} {perst : Option Bool} {pick : Nat} (h : Keeps false s₀ s) :
    Answers s₀ (execPortReset port perst pick s) := by
  unfold execPortReset
  exact .ite (.next h) (by
    split
    · exact .next h.modPort
    · exact .next (.modPort (.ite h.portReset h))
    · exact .ite (.next h.portReset) (.next h))

theorem execSliceClockGate_keeps {slice : Nat} (h : Keeps false s₀ s) : Answers s₀ (execSliceClockGate slice s) := by
  unfold execSliceClockGate
  exact .ite (.next h.setGate) (.next h)

theorem execSlicePowerGate_keeps {slice choice idle : Nat} (h : Keeps false s₀ s) : Answers s₀ (execSlicePowerGate slice choice idle s) := by
  unfold execSlicePowerGate
  exact .ite (.ite (.next h.gateBound) (.ite (.next (h.gateBound.foldl (fun h => h.evict)).modSlice.setGate)
    (.next (h.gateBound.foldl (fun h => h.evict))))) (.next h)

theorem execSliceWake_keeps {slice pick : Nat} (h : Keeps false s₀ s) : Answers s₀ (execSliceWake slice pick s) := by
  unfold execSliceWake
  exact .next h.wakeSlice

theorem execRunnerGate_keeps {slice : Nat} (h : Keeps false s₀ s) : Answers s₀ (execRunnerGate slice s) := by
  unfold execRunnerGate
  exact .ite (.next h.update) (.next h)

theorem execStackSelfRefresh_keeps {die choice idle : Nat} (h : Keeps false s₀ s) : Answers s₀ (execStackSelfRefresh die choice idle s) := by
  unfold execStackSelfRefresh
  exact .ite (.ite (.next h.gateBound) (.next h.gateBound.update)) (.next h)

theorem execFlumeRaceClockGate_keeps {die : Nat} (h : Keeps false s₀ s) : Answers s₀ (execFlumeRaceClockGate die s) := by
  unfold execFlumeRaceClockGate
  exact .ite (.next h.update) (.next h)

end Sys2Proof.Machine
end

section
/-! What keeps the state: the test port. -/
namespace Sys2Proof.Machine
variable {κ : Bool} {s₀ s : State}

theorem Keeps.tapLoad {code : Nat} (h : Keeps κ s₀ s) : Keeps κ s₀ (s.tapLoad code) := by
  unfold State.tapLoad
  exact h.update

theorem Keeps.scanF {as : List Nat} (h : Keeps κ s₀ s) : Keeps κ s₀ (State.scanF as s).2 := by
  induction as generalizing s with
  | nil => exact h
  | cons a as ih =>
    rw [State.scanF]
    exact .ite_snd (ih h.draw) (ih h)

theorem execTestLogicReset_keeps (h : Keeps false s₀ s) : Answers s₀ (execTestLogicReset s) := by
  unfold execTestLogicReset
  exact .ite (.next h.update) (.next h)

theorem execExtest_keeps {pins bits : List Bool} (h : Keeps false s₀ s) : Answers s₀ (execExtest s pins bits) := by
  unfold execExtest
  exact .ite (.next h) (.ite (.next h.tapLoad.update.send) (.next h.tapLoad))

theorem execIdcode_keeps (h : Keeps false s₀ s) : Answers s₀ (execIdcode s) := by
  unfold execIdcode
  exact .ite (.next h.tapLoad.send) (.next h)

theorem execSample_keeps {pins : List Bool} (h : Keeps false s₀ s) : Answers s₀ (execSample pins s) := by
  unfold execSample
  exact .ite (.next h.tapLoad.update.send) (.next h)

theorem execPreload_keeps {bits : List Bool} (h : Keeps false s₀ s) : Answers s₀ (execPreload bits s) := by
  unfold execPreload
  exact .ite (.next h) (.ite (.next h.tapLoad.update) (.next h.tapLoad))

theorem execClamp_keeps (h : Keeps false s₀ s) : Answers s₀ (execClamp s) := by
  unfold execClamp
  exact .ite (.next h.tapLoad) (.next h)

theorem execHighz_keeps (h : Keeps false s₀ s) : Answers s₀ (execHighz s) := by
  unfold execHighz
  exact .ite (.next h.tapLoad) (.next h)

theorem execBypass_keeps (h : Keeps false s₀ s) : Answers s₀ (execBypass s) := by
  unfold execBypass
  exact .ite (.next h.tapLoad) (.next h)

theorem execIjtagAccess_keeps (h : Keeps false s₀ s) : Answers s₀ (execIjtagAccess s) := by
  unfold execIjtagAccess
  extract_lets s1
  have h1 : Keeps false s₀ s1 := h.tapLoad
  refine .ite (.next h) (.ite ?_ (.next h1))
  split
  rename_i e
  exact .next (h1.scanF.of_snd e).send

theorem execDieSummary_keeps (h : Keeps false s₀ s) : Answers s₀ (execDieSummary s) := by
  unfold execDieSummary
  exact .ite (.next h.tapLoad.send) (.next h)

theorem execSibUpdate_keeps {sibs : Nat} (h : Keeps false s₀ s) : Answers s₀ (execSibUpdate sibs s) := by
  unfold execSibUpdate
  exact .ite (.next h.update) (.next h)

theorem execDieComPowered_keeps {die : Nat} (h : Keeps false s₀ s) : Answers s₀ (execDieComPowered die s) := by
  unfold execDieComPowered
  exact .ite (.next h.update) (.next h)

end Sys2Proof.Machine
end

section
/-! What keeps the state: policy writes. -/
namespace Sys2Proof.Machine
variable {κ : Bool} {s₀ s : State}

theorem Keeps.polArrive {w : PolWrite} (h : Keeps κ s₀ s) : Keeps κ s₀ (s.polArrive w) := by
  unfold State.polArrive
  exact .ite h.update h.update

end Sys2Proof.Machine
end

section
/-! What keeps the state: registers. -/
namespace Sys2Proof.Machine
variable {κ : Bool} {s₀ s : State}

theorem Keeps.gaugeConfig {n o w : Nat} {wide : Bool} (h : Keeps κ s₀ s) : Keeps κ s₀ (s.gaugeConfig n o w wide).1 := by
  unfold State.gaugeConfig
  extract_lets
  exact .ite_fst (.fst h) (.ite_fst (.fst h.modGauge.modGauge) (by
    split
    · exact .fst h.modGauge.modGauge
    · exact .fst h.modGauge.modGauge
    · exact .fst h.modGauge.modGauge
    · exact .fst h.modGauge.modGauge
    · exact .fst h.modGauge.modGauge
    · exact .fst h.modGauge.modGauge
    · exact .fst h.modGauge.modGauge
    · exact .fst h))

theorem Keeps.gaugeCtrl {n w : Nat} (h : Keeps κ s₀ s) : Keeps κ s₀ (s.gaugeCtrl n w).1 := by
  unfold State.gaugeCtrl
  exact .ite_fst (.fst h.modGauge.modGauge) (.ite_fst (.fst h.modGauge.modGauge)
    (.ite_fst (.fst h.modGauge.modGauge) (.fst h.modGauge.modGauge)))

theorem Keeps.viewWrite {v : Nat} {r : State × Bool} (_h : Keeps κ s₀ s) (h' : Keeps κ s₀ r.1) : Keeps κ s₀ (s.viewWrite v r) := by
  unfold State.viewWrite
  exact .ite h' h'.rsvdEnc

theorem Keeps.winWrite32 {v x w : Nat} (h : Keeps κ s₀ s) : Keeps κ s₀ (s.winWrite32 v x w) := by
  unfold State.winWrite32
  extract_lets
  exact .ite (.ite h.modVd h) (.ite h.modVd (.ite h.modVd (.ite h.errBase (.ite h.errBase (.ite h.errCtrl (.ite h.errHead (.ite (by
    split
    · exact h.ringCtrl
    · exact h.modRing
    · exact h.ringBase
    · exact h.ringBase
    · exact h.ringBase
    · exact h.ringBase
    · exact h) (.ite (h.viewWrite (.ite_fst h.gaugeCtrl h.gaugeConfig)) (.ite (by
    split
    · exact h.polArrive
    · exact h) h)))))))))

theorem Keeps.winWrite64 {v x w : Nat} (h : Keeps κ s₀ s) : Keeps κ s₀ (s.winWrite64 v x w) := by
  unfold State.winWrite64
  exact .ite h.cancelWrite (.ite (.ite h.errBase h.errBase.errBase)
    (.ite (.ite h.ringBase h.ringBase.ringBase) (.ite (h.viewWrite h.gaugeConfig) (.ite h.polArrive h.winWrite32.winWrite32))))

theorem Keeps.refuseAccess {m : Mmio} (h : Keeps κ s₀ s) : Keeps κ s₀ (s.refuseAccess m) := by
  unfold State.refuseAccess
  extract_lets
  split
  · rename_i e
    exact h.windowShut _ e
  · exact .ite h.unsupported.post.modVd h.unsupported.post

theorem Keeps.applyWrite {m : Mmio} (h : Keeps κ s₀ s) : Keeps κ s₀ (s.applyWrite m) := by
  unfold State.applyWrite
  extract_lets
  split
  · exact h
  · extract_lets
    exact .ite h (.ite (by
      split
      · exact h
      · exact .ite h.modVd (.ite h.cqDb h.ringDb)) (.ite h (.ite (.ite h.modVd h) (.ite h.winWrite32 h.winWrite64))))

theorem Keeps.commitDecoder {v i : Nat} {base len : Nat} {ways gran : Nat} {bi : Bool} (h : Keeps κ s₀ s) :
    Keeps κ s₀ (s.commitDecoder v i base len ways gran bi) := by
  unfold State.commitDecoder
  exact h.modVd

theorem execGaugeCtrlWrite_keeps {gauge : Nat} {value : Word} (h : Keeps false s₀ s) : Answers s₀ (execGaugeCtrlWrite gauge value s) := by
  unfold execGaugeCtrlWrite
  split
  · exact .next h.gaugeCtrl
  · exact .ite (.next h) (.next (h.winWrite (fun h => h.viewWrite h.gaugeCtrl)))

theorem execGaugeConfigWrite_keeps {gauge off : Nat} {wide : Bool} {value : DWord} (h : Keeps false s₀ s) :
    Answers s₀ (execGaugeConfigWrite gauge off wide value s) := by
  unfold execGaugeConfigWrite
  split
  · exact .next h.gaugeConfig
  · exact .ite (.next h) (.next (h.winWrite (fun h => h.viewWrite h.gaugeConfig)))

theorem execGaugeWindowEnd_keeps {gauge : Nat} (h : Keeps false s₀ s) : Answers s₀ (execGaugeWindowEnd gauge s) := by
  unfold execGaugeWindowEnd
  exact .next h.modGauge

theorem execGaugeSampleInstant_keeps {gauge units : Nat} (h : Keeps false s₀ s) : Answers s₀ (execGaugeSampleInstant gauge units s) := by
  unfold execGaugeSampleInstant
  exact .ite (.next h) (.ite (.next h.modGauge) (.ite (.next h.modGauge) (.next h)))

end Sys2Proof.Machine
end

section
/-! What keeps the state: the mailbox and the FM API. -/
namespace Sys2Proof.Machine
variable {κ : Bool} {s₀ s : State}

theorem Keeps.offerExtents {v : Nat} {xs : List (Nat × Nat)} (h : Keeps κ s₀ s) : Keeps κ s₀ (s.offerExtents v xs) := by
  unfold State.offerExtents
  exact h.modVd.foldl (fun h => h.event)

theorem Keeps.dropExtents {v : Nat} {ty : EvType} {xs : List (Nat × Nat)} (h : Keeps κ s₀ s) : Keeps κ s₀ (s.dropExtents v ty xs) := by
  unfold State.dropExtents
  exact h.foldl (fun h => h.modVd.releaseExtent.event)

theorem Keeps.withdrawOffer {v : Nat} {o : Nat × Nat × Nat} (h : Keeps κ s₀ s) : Keeps κ s₀ (s.withdrawOffer v o) := by
  unfold State.withdrawOffer
  exact h.modVd.event

theorem Keeps.fmServe {h : MctpHdr} {op : Nat} {f : State → RetCode × List Nat × State} (hs : Keeps κ s₀ s)
    (hf : ∀ {s}, Keeps κ s₀ s → Keeps κ s₀ (f s).2.2) : Keeps κ s₀ (s.fmServe h op f) := by
  unfold State.fmServe
  exact .ite hs (.ite hs.mgmtFree (.send (.mgmtFree (hf hs))))

theorem Keeps.fmTell {h : MctpHdr} {op : Nat} {vals : List Nat} (hs : Keeps κ s₀ s) : Keeps κ s₀ (s.fmTell h op vals) := by
  unfold State.fmTell
  exact hs.fmServe (fun h => h)

theorem Keeps.mbServe {v op : Nat} {early : Bool} {f : State → RetCode × List Nat × State} (h : Keeps κ s₀ s)
    (hf : ∀ {s}, Keeps κ s₀ s → Keeps κ s₀ (f s).2.2) : Keeps κ s₀ (s.mbServe v op early f) := by
  unfold State.mbServe
  exact .ite (.ite (.getD h.windowShut h) h) (.ite h.send (.send (hf h)))

theorem Keeps.mbTell {v op : Nat} {early : Bool} {vals : List Nat} (h : Keeps κ s₀ s) : Keeps κ s₀ (s.mbTell v op early vals) := by
  unfold State.mbTell
  exact h.mbServe (fun h => h)

theorem Keeps.writeHalf {v dpa : Nat} {data : Option (BitVec 512)} {x : Ext} (h : Keeps κ s₀ s) :
    Keeps κ s₀ (s.writeHalf v dpa data x).2.2 := by
  unfold State.writeHalf
  extract_lets
  split
  · exact h
  · split
    · rename_i e
      exact h.translate.of_snd e
    · rename_i e
      extract_lets
      split
      · exact (h.translate.of_snd e).lineWrite
      · exact (h.translate.of_snd e).lineRead.lineWrite

theorem Keeps.startBackground {v : Nat} {b : BgKind} (h : Keeps κ s₀ s) : Keeps κ s₀ (s.startBackground v b).2.2 := by
  unfold State.startBackground
  split
  · exact .snd_snd h
  · exact .snd_snd h.modVd

theorem Keeps.startErase {v : Nat} {b : BgKind} (h : Keeps κ s₀ s) : Keeps κ s₀ (s.startErase v b).2.2 := by
  unfold State.startErase
  split
  · exact h.startBackground
  · exact h

theorem Keeps.mbDo {vd : Nat} {c : MbCmd} (h : Keeps κ s₀ s) : Keeps κ s₀ (s.mbDo vd c) := by
  unfold State.mbDo
  extract_lets
  split
  · exact h.mbTell
  · exact h.mbTell
  · exact h.mbServe (fun h => (by
      extract_lets
      split <;> exact .snd_snd h))
  · exact h.mbServe (fun h => (by
      extract_lets
      split
      · exact .snd_snd h
      · exact .snd_snd h.modVd))
  · exact h.mbTell
  · exact h.mbServe (fun h => (by
      split
      · exact .snd_snd h
      · exact .snd_snd h.modVd))
  · exact h.mbTell
  · exact h.mbServe (fun h => .snd_snd h.modVd)
  · exact h.mbTell
  · exact h.mbServe (fun h => (by
      split <;> exact .snd_snd h))
  · exact h.mbTell
  · exact h.mbTell
  · exact h.mbTell
  · exact h.mbServe (fun h => .snd_snd h.modVd)
  · exact h.mbServe (fun h => .snd_snd h)
  · exact h.mbServe (fun h => (by
      split
      · exact h.writeHalf
      · exact .snd_snd h))
  · exact h.mbServe (fun h => h.writeHalf)
  · exact h.mbTell
  · exact h.mbServe (fun h => (by
      split
      · rename_i e
        exact .snd_snd (h.startBackground.of_snd_snd e).modVd
      · exact h.startBackground))
  · exact h.mbServe (fun h => .snd_snd h.modVd)
  · exact h.mbServe (fun h => h.startErase)
  · exact h.mbServe (fun h => h.startErase)
  · exact h.mbTell
  · exact h.mbTell
  · exact h.mbServe (fun h => (by
      extract_lets
      split
      · split
        · exact .snd_snd h.withdrawOffer
        · exact .snd_snd h
      · split
        · exact .snd_snd h
        · exact .snd_snd h.modVd))
  · exact h.mbServe (fun h => (by
      split
      · exact .snd_snd h.dropExtents
      · exact .snd_snd h))
  · exact h.mbServe (fun h => .snd_snd h)

theorem Keeps.mailbox {vd : Nat} {c : MbCmd} {pick : Nat} (h : Keeps false s₀ s) : Keeps false s₀ (s.mailbox vd c pick) := by
  unfold State.mailbox
  exact .ite (h.updateBoot rfl id) (.ite (h.orWait (fun h => h.mbDo)) h.mbDo)

theorem execExtentOfferTimeout_keeps {vd base : Nat} (h : Keeps false s₀ s) : Answers s₀ (execExtentOfferTimeout vd base s) := by
  unfold execExtentOfferTimeout
  split
  · exact .next h.withdrawOffer
  · exact .next h

theorem execGetLdInfo_keeps {h : MctpHdr} {port : Nat} (hs : Keeps false s₀ s) : Answers s₀ (execGetLdInfo h port s) := by
  unfold execGetLdInfo
  exact .next hs.fmTell

theorem execGetLdAllocations_keeps {h : MctpHdr} {port : Nat} (hs : Keeps false s₀ s) : Answers s₀ (execGetLdAllocations h port s) := by
  unfold execGetLdAllocations
  exact .next hs.fmTell

theorem execSetLdAllocations_keeps {h : MctpHdr} (hs : Keeps false s₀ s) : Answers s₀ (execSetLdAllocations h s) := by
  unfold execSetLdAllocations
  exact .next (hs.fmServe (fun h => h))

theorem execGetQosControl_keeps {h : MctpHdr} {port : Nat} (hs : Keeps false s₀ s) : Answers s₀ (execGetQosControl h port s) := by
  unfold execGetQosControl
  exact .next hs.fmTell

theorem execSetQosControl_keeps {h : MctpHdr} (hs : Keeps false s₀ s) : Answers s₀ (execSetQosControl h s) := by
  unfold execSetQosControl
  exact .next (hs.fmServe (fun h => h))

theorem execGetQosStatus_keeps {h : MctpHdr} {port : Nat} (hs : Keeps false s₀ s) : Answers s₀ (execGetQosStatus h port s) := by
  unfold execGetQosStatus
  exact .next hs.fmTell

theorem execGetQosAllocatedBw_keeps {h : MctpHdr} {port : Nat} (hs : Keeps false s₀ s) : Answers s₀ (execGetQosAllocatedBw h port s) := by
  unfold execGetQosAllocatedBw
  exact .next hs.fmTell

theorem execGetDcdInfo_keeps {h : MctpHdr} (hs : Keeps false s₀ s) : Answers s₀ (execGetDcdInfo h s) := by
  unfold execGetDcdInfo
  exact .next hs.fmTell

theorem execGetHostDcRegionConfiguration_keeps {h : MctpHdr} {vd : Nat} (hs : Keeps false s₀ s) :
    Answers s₀ (execGetHostDcRegionConfiguration h vd s) := by
  unfold execGetHostDcRegionConfiguration
  exact .next (hs.fmServe (fun h => (by
    split <;> exact h)))

theorem execSetDcRegionConfiguration_keeps {h : MctpHdr} {vd region : Nat} {base len block : Nat} (hs : Keeps false s₀ s) :
    Answers s₀ (execSetDcRegionConfiguration h vd region base len block s) := by
  unfold execSetDcRegionConfiguration
  exact .next (hs.fmServe (fun h => h))

theorem execGetDcRegionExtentLists_keeps {h : MctpHdr} {vd : Nat} (hs : Keeps false s₀ s) :
    Answers s₀ (execGetDcRegionExtentLists h vd s) := by
  unfold execGetDcRegionExtentLists
  exact .next (hs.fmServe (fun h => (by
    split <;> exact h)))

theorem execInitiateDynamicCapacityAdd_keeps {h : MctpHdr} {vd : Nat} {extents : List (Nat × Nat)} {shared : Bool} (hs : Keeps false s₀ s) :
    Answers s₀ (execInitiateDynamicCapacityAdd h vd extents shared s) := by
  unfold execInitiateDynamicCapacityAdd
  exact .next (hs.fmServe (fun h => (by
    split
    · exact h.offerExtents
    · exact h)))

theorem execInitiateDynamicCapacityRelease_keeps {h : MctpHdr} {vd : Nat} {extents : List (Nat × Nat)} {forced : Bool}
    {pick : Nat} (hs : Keeps false s₀ s) : Answers s₀ (execInitiateDynamicCapacityRelease h vd extents forced pick s) := by
  unfold execInitiateDynamicCapacityRelease
  exact .next (hs.orWait (fun h => h.fmServe (fun h => (by
    split
    · exact h
    · split
      · exact .ite h.dropExtents (h.foldl (fun h => h.event))
      · exact h))))

theorem execFmApiUnsupported_keeps {h : MctpHdr} {op : Nat} (hs : Keeps false s₀ s) : Answers s₀ (execFmApiUnsupported h op s) := by
  unfold execFmApiUnsupported
  exact .ite (.next hs) (.next (hs.fmServe (fun h => h)))

theorem execMbIdentify_keeps {vd : Nat} (h : Keeps false s₀ s) : Answers s₀ (execMbIdentify vd s) := by
  unfold execMbIdentify
  exact .next h.mailbox

theorem execBackgroundOperationStatus_keeps {vd : Nat} (h : Keeps false s₀ s) : Answers s₀ (execBackgroundOperationStatus vd s) := by
  unfold execBackgroundOperationStatus
  exact .next h.mailbox

theorem execGetEventRecords_keeps {vd log : Nat} (h : Keeps false s₀ s) : Answers s₀ (execGetEventRecords vd log s) := by
  unfold execGetEventRecords
  exact .next h.mailbox

theorem execClearEventRecords_keeps {vd log : Nat} {all : Bool} {handles : List Nat} (h : Keeps false s₀ s) :
    Answers s₀ (execClearEventRecords vd log all handles s) := by
  unfold execClearEventRecords
  exact .next h.mailbox

theorem execGetEventInterruptPolicy_keeps {vd : Nat} (h : Keeps false s₀ s) : Answers s₀ (execGetEventInterruptPolicy vd s) := by
  unfold execGetEventInterruptPolicy
  exact .next h.mailbox

theorem execSetEventInterruptPolicy_keeps {vd log : Nat} {vector : Option Nat} (h : Keeps false s₀ s) :
    Answers s₀ (execSetEventInterruptPolicy vd log vector s) := by
  unfold execSetEventInterruptPolicy
  exact .next h.mailbox

theorem execGetTimestamp_keeps {vd : Nat} (h : Keeps false s₀ s) : Answers s₀ (execGetTimestamp vd s) := by
  unfold execGetTimestamp
  exact .next h.mailbox

theorem execSetTimestamp_keeps {vd : Nat} {value : DWord} (h : Keeps false s₀ s) : Answers s₀ (execSetTimestamp vd value s) := by
  unfold execSetTimestamp
  exact .next h.mailbox

theorem execGetSupportedLogs_keeps {vd : Nat} (h : Keeps false s₀ s) : Answers s₀ (execGetSupportedLogs vd s) := by
  unfold execGetSupportedLogs
  exact .next h.mailbox

theorem execGetLog_keeps {vd log : Nat} (h : Keeps false s₀ s) : Answers s₀ (execGetLog vd log s) := by
  unfold execGetLog
  exact .next h.mailbox

theorem execIdentifyMemoryDevice_keeps {vd : Nat} (h : Keeps false s₀ s) : Answers s₀ (execIdentifyMemoryDevice vd s) := by
  unfold execIdentifyMemoryDevice
  exact .next h.mailbox

theorem execGetHealthInfo_keeps {vd : Nat} (h : Keeps false s₀ s) : Answers s₀ (execGetHealthInfo vd s) := by
  unfold execGetHealthInfo
  exact .next h.mailbox

theorem execGetAlertConfiguration_keeps {vd : Nat} (h : Keeps false s₀ s) : Answers s₀ (execGetAlertConfiguration vd s) := by
  unfold execGetAlertConfiguration
  exact .next h.mailbox

theorem execSetAlertConfiguration_keeps {vd value : Nat} (h : Keeps false s₀ s) : Answers s₀ (execSetAlertConfiguration vd value s) := by
  unfold execSetAlertConfiguration
  exact .next h.mailbox

theorem execGetPoisonList_keeps {vd lo len : Nat} (h : Keeps false s₀ s) : Answers s₀ (execGetPoisonList vd lo len s) := by
  unfold execGetPoisonList
  exact .next h.mailbox

theorem execInjectPoison_keeps {vd dpa : Nat} {x : Ext} (h : Keeps false s₀ s) : Answers s₀ (execInjectPoison vd dpa x s) := by
  unfold execInjectPoison
  exact .next h.mailbox

theorem execClearPoison_keeps {vd dpa : Nat} {data : BitVec 512} {x : Ext} (h : Keeps false s₀ s) :
    Answers s₀ (execClearPoison vd dpa data x s) := by
  unfold execClearPoison
  exact .next h.mailbox

theorem execGetScanMediaCapabilities_keeps {vd lo len : Nat} (h : Keeps false s₀ s) :
    Answers s₀ (execGetScanMediaCapabilities vd lo len s) := by
  unfold execGetScanMediaCapabilities
  exact .next h.mailbox

theorem execScanMedia_keeps {vd lo len : Nat} (h : Keeps false s₀ s) : Answers s₀ (execScanMedia vd lo len s) := by
  unfold execScanMedia
  exact .next h.mailbox

theorem execGetScanMediaResults_keeps {vd : Nat} (h : Keeps false s₀ s) : Answers s₀ (execGetScanMediaResults vd s) := by
  unfold execGetScanMediaResults
  exact .next h.mailbox

theorem execSanitize_keeps {vd : Nat} (h : Keeps false s₀ s) : Answers s₀ (execSanitize vd s) := by
  unfold execSanitize
  exact .next h.mailbox

theorem execSecureErase_keeps {vd : Nat} (h : Keeps false s₀ s) : Answers s₀ (execSecureErase vd s) := by
  unfold execSecureErase
  exact .next h.mailbox

theorem execBackgroundOperationDone_keeps {vd pick : Nat} (h : Keeps false s₀ s) : Answers s₀ (execBackgroundOperationDone vd pick s) := by
  unfold execBackgroundOperationDone
  exact .next (h.orWait (fun h => (by
    extract_lets
    split
    · exact h
    · exact h.modVd.modVd
    · exact h.modVd.freePages.drawKey
    · exact h.modVd.freePages.drawKey)))

theorem execGetDynamicCapacityConfiguration_keeps {vd : Nat} (h : Keeps false s₀ s) :
    Answers s₀ (execGetDynamicCapacityConfiguration vd s) := by
  unfold execGetDynamicCapacityConfiguration
  exact .next h.mailbox

theorem execGetDynamicCapacityExtentList_keeps {vd start : Nat} (h : Keeps false s₀ s) :
    Answers s₀ (execGetDynamicCapacityExtentList vd s start) := by
  unfold execGetDynamicCapacityExtentList
  exact .next h.mailbox

theorem execAddDynamicCapacityResponse_keeps {vd : Nat} {extents : List (Nat × Nat)} (h : Keeps false s₀ s) :
    Answers s₀ (execAddDynamicCapacityResponse vd extents s) := by
  unfold execAddDynamicCapacityResponse
  exact .next h.mailbox

theorem execReleaseDynamicCapacity_keeps {vd : Nat} {extents : List (Nat × Nat)} {pick : Nat} (h : Keeps false s₀ s) :
    Answers s₀ (execReleaseDynamicCapacity vd extents pick s) := by
  unfold execReleaseDynamicCapacity
  exact .next h.mailbox

theorem execMailboxUnsupported_keeps {vd op : Nat} (h : Keeps false s₀ s) : Answers s₀ (execMailboxUnsupported vd op s) := by
  unfold execMailboxUnsupported
  exact .ite (.next h) (.next h.mailbox)

end Sys2Proof.Machine
end

section
/-! What keeps the state: the register windows. -/
namespace Sys2Proof.Machine
variable {s₀ s : State}

theorem Keeps.hostWrite {w : RegWrite} (h : Keeps false s₀ s) : Keeps false s₀ (s.hostWrite w) := by
  unfold State.hostWrite
  extract_lets
  split
  · exact .ite h.refuseAccess (h.winWrite (fun h => h.applyWrite))
  · split
    · rename_i e
      exact h.windowShut _ e
    · exact .ite (h.updateBoot rfl id) (.ite h.commitDecoder h)

theorem Keeps.hostDo {r : HostReq} (h : Keeps false s₀ s) : Keeps false s₀ (s.hostDo r) := by
  unfold State.hostDo
  extract_lets
  split
  · exact h.hostWrite
  · exact h.ldResetArrive
  · exact .ite (h.updateBoot rfl id) h.mbDo

theorem Keeps.flushHeld (h : Keeps false s₀ s) : Keeps false s₀ s.flushHeld := by
  unfold State.flushHeld
  exact .foldl (h.updateBoot rfl id) (fun h => h.hostDo)

theorem execUnsupportedAccess_keeps {m : Mmio} (h : Keeps false s₀ s) : Answers s₀ (execUnsupportedAccess m s) := by
  unfold execUnsupportedAccess
  exact .ite (.next h.refuseAccess) (.next h)

theorem execRegisterWrite_keeps {w : RegWrite} (h : Keeps false s₀ s) : Answers s₀ (execRegisterWrite w s) := by
  unfold execRegisterWrite
  exact .ite (.next h.hostWrite) (.next h)

theorem execIdeKm_keeps {port session : Nat} {mem : Bool} {op : IdeOp} {stream : Nat} {skid : Bool} {pick : Nat} (h : Keeps false s₀ s) :
    Answers s₀ (execIdeKm port session mem op s stream skid pick) := by
  unfold execIdeKm
  extract_lets
  exact .ite (.next h) (by
    split
    · exact .next h.modPort
    · exact .ite (.next (h.modPort.orWait (fun h => h.modPort.flushHeld.releaseHeld)))
        (.next (h.modPort.orWait (fun h => h.modPort.flushHeld.releaseHeld)))
    · exact .ite (.next (h.modPort.orWait (fun h => h.modPort.flushHeld.releaseHeld)))
        (.next (h.modPort.orWait (fun h => h.modPort.flushHeld.releaseHeld))))

end Sys2Proof.Machine
end

section
/-! What keeps the state: the rows of policy writes. -/
namespace Sys2Proof.Machine
variable {κ : Bool} {s₀ s : State}

theorem Keeps.polComplete {w : PolWrite} {bad : Bool} (h : Keeps κ s₀ s) : Keeps κ s₀ (s.polComplete w bad) := by
  unfold State.polComplete
  extract_lets
  split
  · exact h.update
  · exact .ite h.update h.update.mgmtAnswer

theorem Keeps.polTake {is : PolReg → Bool} {effect : State → PolReg → State} (h : Keeps false s₀ s)
    (heffect : ∀ {s x1}, Keeps false s₀ s → Keeps false s₀ (effect s x1)) : Keeps false s₀ (s.polTake is effect) := by
  unfold State.polTake
  extract_lets
  split
  · exact h
  · extract_lets _ _ _ _ s1
    have h1 : Keeps false s₀ s1 := .ite (heffect h.update.update) (.polComplete (by
        split
        · exact h.update.update.rsvdEnc
        · exact h.update.update))
    exact .ite h (.ite h1 (h.orWait (fun h => h1.update.flushHeld)))

theorem execPolicyWriteArrive_keeps {reg : PolReg} {val : Nat} {vd : Option Nat} (h : Keeps false s₀ s) :
    Answers s₀ (execPolicyWriteArrive reg val vd s) := by
  unfold execPolicyWriteArrive
  extract_lets
  split
  · exact .ite (.next h.polArrive) (.next h)
  · exact .ite (.next (h.winWrite (fun h => h.polArrive))) (.next h)

theorem execFmThreshWrite_keeps (h : Keeps false s₀ s) : Answers s₀ (execFmThreshWrite s) := by
  unfold execFmThreshWrite
  exact .next (h.polTake (fun h => (by
    split
    · exact h.recheck
    · exact h)))

theorem execFmWscaleWrite_keeps (h : Keeps false s₀ s) : Answers s₀ (execFmWscaleWrite s) := by
  unfold execFmWscaleWrite
  exact .next (h.polTake (fun h => h))

theorem execRefreshCapWrite_keeps (h : Keeps false s₀ s) : Answers s₀ (execRefreshCapWrite s) := by
  unfold execRefreshCapWrite
  exact .next (h.polTake (fun h => h))

theorem execSrMinIdleWrite_keeps (h : Keeps false s₀ s) : Answers s₀ (execSrMinIdleWrite s) := by
  unfold execSrMinIdleWrite
  exact .next (h.polTake (fun h => h))

theorem execPgMinIdleWrite_keeps (h : Keeps false s₀ s) : Answers s₀ (execPgMinIdleWrite s) := by
  unfold execPgMinIdleWrite
  exact .next (h.polTake (fun h => h))

theorem execKeepAwakeWrite_keeps {pick : Nat} (h : Keeps false s₀ s) : Answers s₀ (execKeepAwakeWrite pick s) := by
  unfold execKeepAwakeWrite
  exact .next (h.polTake (fun h => h.keepAwake))

theorem execSpillMaxKWrite_keeps (h : Keeps false s₀ s) : Answers s₀ (execSpillMaxKWrite s) := by
  unfold execSpillMaxKWrite
  exact .next (h.polTake (fun h => h))

theorem execHylEqHoldWrite_keeps (h : Keeps false s₀ s) : Answers s₀ (execHylEqHoldWrite s) := by
  unfold execHylEqHoldWrite
  exact .next (h.polTake (fun h => h))

theorem execFantailCtrlWrite_keeps (h : Keeps false s₀ s) : Answers s₀ (execFantailCtrlWrite s) := by
  unfold execFantailCtrlWrite
  exact .next (h.polTake (fun h => .ite h h.abandonMoves))

theorem execRegionPolicyWrite_keeps (h : Keeps false s₀ s) : Answers s₀ (execRegionPolicyWrite s) := by
  unfold execRegionPolicyWrite
  exact .next (h.polTake (fun h => h.abandonMoves))

theorem execVdQuotaTaskWrite_keeps (h : Keeps false s₀ s) : Answers s₀ (execVdQuotaTaskWrite s) := by
  unfold execVdQuotaTaskWrite
  exact .next (h.polTake (fun h => h))

theorem execVdQuotaBufWrite_keeps (h : Keeps false s₀ s) : Answers s₀ (execVdQuotaBufWrite s) := by
  unfold execVdQuotaBufWrite
  exact .next (h.polTake (fun h => h))

theorem execVdQuotaPageWrite_keeps (h : Keeps false s₀ s) : Answers s₀ (execVdQuotaPageWrite s) := by
  unfold execVdQuotaPageWrite
  exact .next (h.polTake (fun h => h))

theorem execVdQuotaPenWrite_keeps (h : Keeps false s₀ s) : Answers s₀ (execVdQuotaPenWrite s) := by
  unfold execVdQuotaPenWrite
  exact .next (h.polTake (fun h => h))

theorem execVdQosWrite_keeps (h : Keeps false s₀ s) : Answers s₀ (execVdQosWrite s) := by
  unfold execVdQosWrite
  exact .next (h.polTake (fun h => h))

theorem execPolicyWriteComplete_keeps (h : Keeps false s₀ s) : Answers s₀ (execPolicyWriteComplete s) := by
  unfold execPolicyWriteComplete
  extract_lets
  split
  · exact .next h
  · exact .next h.update.polComplete

end Sys2Proof.Machine
end

section
/-! What keeps the state: warm resets. -/
namespace Sys2Proof.Machine
variable {κ : Bool} {s₀ s : State}

theorem Keeps.demoteAll (h : Keeps κ s₀ s) : Keeps κ s₀ s.demoteAll := by
  unfold State.demoteAll
  exact h.update.foldl (fun h => h.setPromo.demoteDone)

theorem Keeps.flushCaches (h : Keeps κ s₀ s) : Keeps κ s₀ s.flushCaches := by
  unfold State.flushCaches
  exact (h.foldl (fun h => h.foldl (fun h => h.evict))).update

theorem Keeps.abandonWb {acked : List Nat} (h : Keeps κ s₀ s) : Keeps κ s₀ (s.abandonWb acked) := by
  unfold State.abandonWb
  exact h.update.foldl (fun h => h.post.update)

theorem Keeps.abandonCopies (h : Keeps κ s₀ s) : Keeps κ s₀ s.abandonCopies := by
  unfold State.abandonCopies
  exact h.foldl (fun h => h.moveAbandon)

theorem Keeps.clearBays (h : Keeps κ s₀ s) : Keeps κ s₀ s.clearBays := h.updateMem id fun w => Memory.wf_keep w _

theorem Keeps.warmVd {v : Nat} (h : Keeps κ s₀ s) : Keeps κ s₀ (s.warmVd v) := by
  unfold State.warmVd
  exact .ite h.modVd h.vdTrigger.vdStop.vdAbandon.vdClear.modVd.resetTo

theorem Keeps.dropPolicy (h : Keeps κ s₀ s) : Keeps κ s₀ s.dropPolicy := by
  unfold State.dropPolicy
  exact h.update.foldl (fun h => (by
    split
    · exact h.mgmtFree
    · exact h))

theorem Keeps.warmUnits (h : Keeps κ s₀ s) : Keeps κ s₀ s.warmUnits := by
  unfold State.warmUnits
  exact h.update

theorem Keeps.answerReads (h : Keeps κ s₀ s) : Keeps κ s₀ s.answerReads := by
  unfold State.answerReads
  exact h.update.foldl (fun h => h.mgmtAnswer)

theorem Keeps.heldServe {h : HeldReq} {pick : Nat} (hs : Keeps κ s₀ s) : Keeps κ s₀ (s.heldServe h pick) := by
  unfold State.heldServe
  split
  · exact hs.peerServe
  · exact hs.penServe
  · exact hs.slServe

theorem Keeps.releasePeers {pick : Nat} (h : Keeps κ s₀ s) : Keeps κ s₀ (s.releasePeers pick) := by
  unfold State.releasePeers
  exact h.update.foldl (fun h => h.heldServe)

end Sys2Proof.Machine
end

section
/-! What keeps the state: management requests. -/
namespace Sys2Proof.Machine
variable {κ : Bool} {s₀ s : State}

theorem Keeps.mgmtServe {h : MctpHdr} {cmd flags : Nat} {secured early : Bool} {f : State → State} (hs : Keeps κ s₀ s)
    (hf : ∀ {s}, Keeps κ s₀ s → Keeps κ s₀ (f s)) : Keeps κ s₀ (s.mgmtServe h cmd flags secured early f) := by
  unfold State.mgmtServe
  exact .ite hs (.ite hs.mgmtAnswer (.ite hs.mgmtAnswer (.ite hs.mgmtAnswer (hf hs))))

theorem Keeps.mgmtHold (h : Keeps κ s₀ s) : Keeps κ s₀ s.mgmtHold := by
  unfold State.mgmtHold
  exact h.update

theorem Keeps.mgmtWrite {o w : Nat} (h : Keeps false s₀ s) : Keeps false s₀ (s.mgmtWrite o w).1 := by
  unfold State.mgmtWrite
  extract_lets
  exact .ite_fst (.fst (h.updateBoot rfl id)) (.ite_fst (.fst h.update) (.ite_fst (.fst h.modPort) (by
    split
    · exact .ite_fst h.gaugeCtrl h.gaugeConfig
    · exact .fst h)))

theorem Keeps.polFrom {h : MctpHdr} {cmd : Nat} {r : PolReg} {w : Nat} {first : Bool} (hs : Keeps κ s₀ s) :
    Keeps κ s₀ (s.polFrom h cmd r w first) := by
  unfold State.polFrom
  exact hs.polArrive

theorem Keeps.poolLeave (h : Keeps κ s₀ s) : Keeps κ s₀ s.poolLeave := by
  unfold State.poolLeave
  exact (h.foldl (fun h => h.foldl (fun h => h.evict))).update.floodOut

theorem execMctpMessageReceive_keeps {h : MctpHdr} (hs : Keeps false s₀ s) : Answers s₀ (execMctpMessageReceive h s) := by
  unfold execMctpMessageReceive
  exact .ite (.next hs) (.ite (.next hs.update) (.ite (.next hs) (.ite (.next hs.update) (.ite (.next hs.update) (.next hs)))))

theorem execSetEndpointId_keeps {h : MctpHdr} {eid : Nat} (hs : Keeps false s₀ s) : Answers s₀ (execSetEndpointId h eid s) := by
  unfold execSetEndpointId
  exact .ite (.next hs) (.ite (.next hs.mgmtAnswer) (.next hs.update.mgmtAnswer))

theorem execRead32_keeps {h : MctpHdr} {flags off : Nat} (hs : Keeps false s₀ s) : Answers s₀ (execRead32 h flags off s) := by
  unfold execRead32
  exact .next (hs.mgmtServe (fun h => .ite h.mgmtAnswer (.ite h.update.mgmtHold h.mgmtAnswer)))

theorem execRead64_keeps {h : MctpHdr} {flags off : Nat} (hs : Keeps false s₀ s) : Answers s₀ (execRead64 h flags off s) := by
  unfold execRead64
  exact .next (hs.mgmtServe (fun h => .ite h.mgmtAnswer (.ite h.update.mgmtHold h.mgmtAnswer)))

theorem execWrite32_keeps {h : MctpHdr} {flags off : Nat} {value : Word} (hs : Keeps false s₀ s) :
    Answers s₀ (execWrite32 h flags off value s) := by
  unfold execWrite32
  exact .next (hs.mgmtServe (fun h => .ite h.mgmtAnswer (by
    split
    · exact h.polFrom.mgmtHold
    · exact h.mgmtWrite.mgmtAnswer)))

theorem execWrite64_keeps {h : MctpHdr} {flags off : Nat} {value : DWord} (hs : Keeps false s₀ s) :
    Answers s₀ (execWrite64 h flags off value s) := by
  unfold execWrite64
  refine .next (hs.mgmtServe fun h => .ite h.mgmtAnswer (.ite h.polFrom.mgmtHold ?_))
  split
  · exact h.polFrom.polFrom.mgmtHold
  · exact h.polFrom.mgmtHold
  · exact h.polFrom.mgmtHold
  · split
    · split
      rename_i e
      exact (h.gaugeConfig.of_fst e).mgmtAnswer
    · split
      rename_i e
      split
      rename_i e'
      exact ((h.mgmtWrite.of_fst e).mgmtWrite.of_fst e').mgmtAnswer

theorem execLogRead_keeps {h : MctpHdr} {flags seq count : Nat} (hs : Keeps false s₀ s) : Answers s₀ (execLogRead h flags seq count s) := by
  unfold execLogRead
  exact .next (hs.mgmtServe (fun h => .ite h.mgmtAnswer h.mgmtFree.send))

theorem execFatalLogRead_keeps {h : MctpHdr} {flags index count : Nat} (hs : Keeps false s₀ s) :
    Answers s₀ (execFatalLogRead h flags index count s) := by
  unfold execFatalLogRead
  exact .next (hs.mgmtServe (fun h => .ite h.mgmtAnswer h.mgmtFree.send))

theorem execVdReset_keeps {h : MctpHdr} {flags vd : Nat} (hs : Keeps false s₀ s) : Answers s₀ (execVdReset h flags vd s) := by
  unfold execVdReset
  exact .next (hs.mgmtServe (fun h => .ite h.mgmtAnswer (.ite h.vdTrigger.mgmtAnswer h.vdTrigger.update.mgmtHold)))

theorem execPoolLeave_keeps {h : MctpHdr} {flags : Nat} (hs : Keeps false s₀ s) : Answers s₀ (execPoolLeave h flags s) := by
  unfold execPoolLeave
  exact .next (hs.mgmtServe (fun h => .mgmtAnswer (.ite h.poolLeave h)))

theorem execIdentify_keeps {h : MctpHdr} {flags value : Nat} (hs : Keeps false s₀ s) : Answers s₀ (execIdentify h flags value s) := by
  unfold execIdentify
  exact .next (hs.mgmtServe (fun h => .ite h.mgmtAnswer h.update.mgmtAnswer))

theorem execPanelUpdate_keeps {h : MctpHdr} {flags : Nat} (hs : Keeps false s₀ s) : Answers s₀ (execPanelUpdate h flags s) := by
  unfold execPanelUpdate
  exact .next (hs.mgmtServe (fun h => h.panelAsk.mgmtAnswer))

end Sys2Proof.Machine
end

section
/-! What keeps the state: attestation and PLDM. -/
namespace Sys2Proof.Machine
variable {κ : Bool} {s₀ s : State}

theorem Keeps.spdmServe {h : MctpHdr} {code need : Nat} {f : State → Option (List Nat × State)} (hs : Keeps κ s₀ s)
    (hf : ∀ {s}, Keeps κ s₀ s → Yields κ s₀ Prod.snd (f s)) : Keeps κ s₀ (s.spdmServe h code need f) := by
  unfold State.spdmServe
  exact .ite hs (.ite hs.mgmtAnswer (by
    split
    · rename_i e
      exact .mgmtAnswer (hf hs _ e)
    · exact hs.mgmtAnswer))

theorem Keeps.setSpdm {n : Nat} (h : Keeps κ s₀ s) : Keeps κ s₀ (s.setSpdm n) := by
  unfold State.setSpdm
  exact h.update

theorem Keeps.pldmServe {h : MctpHdr} {cmd : Nat} {f : State → Nat × List Nat × State} (hs : Keeps κ s₀ s)
    (hf : ∀ {s}, Keeps κ s₀ s → Keeps κ s₀ (f s).2.2) : Keeps κ s₀ (s.pldmServe h cmd f) := by
  unfold State.pldmServe
  exact .ite (.mgmtAnswer (hf hs)) hs

theorem Keeps.pldmTell {h : MctpHdr} {cmd : Nat} {vals : List Nat} (hs : Keeps κ s₀ s) : Keeps κ s₀ (s.pldmTell h cmd vals) := by
  unfold State.pldmTell
  exact hs.pldmServe (fun h => h)

theorem Keeps.platformEvent {sensor value : Nat} (h : Keeps κ s₀ s) : Keeps κ s₀ (s.platformEvent sensor value) := by
  unfold State.platformEvent
  extract_lets
  split
  · exact h
  · exact .ite h.update.send h.update

theorem execGetVersion_keeps {h : MctpHdr} (hs : Keeps false s₀ s) : Answers s₀ (execGetVersion h s) := by
  unfold execGetVersion
  exact .next (hs.spdmServe (fun h => .some h.setSpdm))

theorem execGetCapabilities_keeps {h : MctpHdr} (hs : Keeps false s₀ s) : Answers s₀ (execGetCapabilities h s) := by
  unfold execGetCapabilities
  exact .next (hs.spdmServe (fun h => .some h.setSpdm))

theorem execNegotiateAlgorithms_keeps {h : MctpHdr} (hs : Keeps false s₀ s) : Answers s₀ (execNegotiateAlgorithms h s) := by
  unfold execNegotiateAlgorithms
  exact .next (hs.spdmServe (fun h => .some h.setSpdm))

theorem execGetDigests_keeps {h : MctpHdr} (hs : Keeps false s₀ s) : Answers s₀ (execGetDigests h s) := by
  unfold execGetDigests
  exact .next (hs.spdmServe (fun h => .some h))

theorem execGetCertificate_keeps {h : MctpHdr} {slot : Nat} (hs : Keeps false s₀ s) : Answers s₀ (execGetCertificate h slot s) := by
  unfold execGetCertificate
  exact .next (hs.spdmServe (fun h => .ite (.some h) .none))

theorem execChallenge_keeps {h : MctpHdr} {slot : Nat} (hs : Keeps false s₀ s) : Answers s₀ (execChallenge h slot s) := by
  unfold execChallenge
  exact .next (hs.spdmServe (fun h => .ite (.some h.draw) .none))

theorem execGetMeasurements_keeps {h : MctpHdr} {index : Nat} (hs : Keeps false s₀ s) : Answers s₀ (execGetMeasurements h index s) := by
  unfold execGetMeasurements
  exact .next (hs.spdmServe (fun h => .ite (.some h) (.ite (.some h) (.ite (.some h) .none))))

theorem execKeyExchange_keeps {h : MctpHdr} (hs : Keeps false s₀ s) : Answers s₀ (execKeyExchange h s) := by
  unfold execKeyExchange
  exact .next (hs.spdmServe (fun h => (by
    split
    · exact .some h.update
    · exact .none)))

theorem execFinish_keeps {h : MctpHdr} {session : Nat} (hs : Keeps false s₀ s) : Answers s₀ (execFinish h session s) := by
  unfold execFinish
  exact .next (hs.spdmServe (fun h => .ite (.some h.update) .none))

theorem execEndSession_keeps {h : MctpHdr} {session : Nat} (hs : Keeps false s₀ s) : Answers s₀ (execEndSession h session s) := by
  unfold execEndSession
  exact .next (hs.spdmServe (fun h => .ite (.some h.update) .none))

theorem execGetTid_keeps {h : MctpHdr} (hs : Keeps false s₀ s) : Answers s₀ (execGetTid h s) := by
  unfold execGetTid
  exact .next hs.pldmTell

theorem execSetTid_keeps {h : MctpHdr} {tid : Nat} (hs : Keeps false s₀ s) : Answers s₀ (execSetTid h tid s) := by
  unfold execSetTid
  exact .next (hs.pldmServe (fun h => (by
    split
    · exact h
    · exact h.update)))

theorem execGetPldmVersion_keeps {h : MctpHdr} {ty : Nat} (hs : Keeps false s₀ s) : Answers s₀ (execGetPldmVersion h ty s) := by
  unfold execGetPldmVersion
  exact .next (hs.pldmServe (fun h => (by
    split
    · exact h.draw
    · exact h)))

theorem execGetPldmTypes_keeps {h : MctpHdr} (hs : Keeps false s₀ s) : Answers s₀ (execGetPldmTypes h s) := by
  unfold execGetPldmTypes
  exact .next hs.pldmTell

theorem execGetPldmCommands_keeps {h : MctpHdr} {ty : Nat} (hs : Keeps false s₀ s) : Answers s₀ (execGetPldmCommands h ty s) := by
  unfold execGetPldmCommands
  exact .next (hs.pldmServe (fun h => (by
    split <;> exact h)))

theorem execSetEventReceiver_keeps {h : MctpHdr} {receiver : Option Nat} (hs : Keeps false s₀ s) :
    Answers s₀ (execSetEventReceiver h receiver s) := by
  unfold execSetEventReceiver
  exact .next (hs.pldmServe (fun h => h.update))

theorem execGetSensorReading_keeps {h : MctpHdr} {sensor : Nat} (hs : Keeps false s₀ s) : Answers s₀ (execGetSensorReading h sensor s) := by
  unfold execGetSensorReading
  exact .next (hs.pldmServe (fun h => (by
    split
    · exact h
    · split <;> exact h)))

theorem execGetStateSensorReadings_keeps {h : MctpHdr} {sensor : Nat} (hs : Keeps false s₀ s) :
    Answers s₀ (execGetStateSensorReadings h sensor s) := by
  unfold execGetStateSensorReadings
  exact .next (hs.pldmServe (fun h => (by
    split <;> exact h)))

theorem execGetSensorThresholds_keeps {h : MctpHdr} {sensor : Nat} (hs : Keeps false s₀ s) :
    Answers s₀ (execGetSensorThresholds h sensor s) := by
  unfold execGetSensorThresholds
  exact .next (hs.pldmServe (fun h => (by
    split <;> exact h)))

theorem execGetPdrRepositoryInfo_keeps {h : MctpHdr} (hs : Keeps false s₀ s) : Answers s₀ (execGetPdrRepositoryInfo h s) := by
  unfold execGetPdrRepositoryInfo
  exact .next hs.pldmTell

theorem execGetPdr_keeps {h : MctpHdr} {record : Nat} (hs : Keeps false s₀ s) : Answers s₀ (execGetPdr h record s) := by
  unfold execGetPdr
  exact .next (hs.pldmServe (fun h => (by
    split <;> exact h)))

theorem execPldmUnsupported_keeps {h : MctpHdr} {ty cmd : Nat} (hs : Keeps false s₀ s) : Answers s₀ (execPldmUnsupported h ty cmd s) := by
  unfold execPldmUnsupported
  exact .ite (.next hs) (.next (hs.pldmServe (fun h => h)))

theorem execPlatformEventResend_keeps {i : Nat} {acked : Bool} (h : Keeps false s₀ s) : Answers s₀ (execPlatformEventResend i acked s) := by
  unfold execPlatformEventResend
  extract_lets
  split
  · exact .next h
  · extract_lets
    exact .ite (.next h.update) (by
      split
      · exact .next h.update.send
      · exact .next h.update)

end Sys2Proof.Machine
end

section
/-! What keeps the state: the panel. -/
namespace Sys2Proof.Machine
variable {κ : Bool} {s₀ s : State}

theorem Keeps.sensorEvents (h : Keeps κ s₀ s) : Keeps κ s₀ s.sensorEvents := by
  unfold State.sensorEvents
  exact h.foldl (fun h => h.update.foldl (fun h => h.platformEvent))

theorem Keeps.setHealth {h : Nat} (hs : Keeps κ s₀ s) : Keeps κ s₀ (s.setHealth h) := by
  unfold State.setHealth
  exact .ite hs hs.update.platformEvent.panelAsk

theorem Keeps.setReadings {iodTemp power : Nat} (h : Keeps false s₀ s) : Keeps false s₀ (s.setReadings iodTemp power) := by
  unfold State.setReadings
  exact h.updateBoot rfl id

theorem Keeps.evaluate {waited : Bool} (h : Keeps κ s₀ s) : Keeps κ s₀ (s.evaluate waited) := by
  unfold State.evaluate
  exact h.setHealth

theorem panelStep_keeps {from_ : Nat} {f : Panel → Panel} (h : Keeps false s₀ s) : Answers s₀ (s.panelStep from_ f) := by
  unfold State.panelStep
  exact .ite (.next h.update) (.next h)

theorem execHealthEvaluate_keeps {iodTemp power : Nat} {waited : Bool} (h : Keeps false s₀ s) :
    Answers s₀ (execHealthEvaluate iodTemp power waited s) := by
  unfold execHealthEvaluate
  exact .ite (.next h) (.next h.setReadings.sensorEvents.evaluate)

theorem execPanelIntervalEnd_keeps (h : Keeps false s₀ s) : Answers s₀ (execPanelIntervalEnd s) := by
  unfold execPanelIntervalEnd
  exact .next h.update

theorem execPanelClearingWaveform_keeps (h : Keeps false s₀ s) : Answers s₀ (execPanelClearingWaveform s) := by
  unfold execPanelClearingWaveform
  exact .ite (.next h.update) (.next h)

theorem execPanelUpdateStart_keeps (h : Keeps false s₀ s) : Answers s₀ (execPanelUpdateStart s) := by
  unfold execPanelUpdateStart
  exact .ite (.next h.update) (.next h)

theorem execPanelBandHatched_keeps (h : Keeps false s₀ s) : Answers s₀ (execPanelBandHatched s) := by
  unfold execPanelBandHatched
  exact panelStep_keeps h

theorem execPanelFullRefreshDone_keeps (h : Keeps false s₀ s) : Answers s₀ (execPanelFullRefreshDone s) := by
  unfold execPanelFullRefreshDone
  exact panelStep_keeps h

theorem execPanelBandWhite_keeps (h : Keeps false s₀ s) : Answers s₀ (execPanelBandWhite s) := by
  unfold execPanelBandWhite
  exact panelStep_keeps h

theorem execPowerFailComparator_keeps (h : Keeps false s₀ s) : Answers s₀ (execPowerFailComparator s) := by
  unfold execPowerFailComparator
  exact .next h.update

theorem execComparatorDeassert_keeps (h : Keeps false s₀ s) : Answers s₀ (execComparatorDeassert s) := by
  unfold execComparatorDeassert
  exact .next h.update

theorem execPanelHoldUpFail_keeps (h : Keeps false s₀ s) : Answers s₀ (execPanelHoldUpFail s) := by
  unfold execPanelHoldUpFail
  exact .ite (.next h.update) (.next h)

end Sys2Proof.Machine
end

section
/-! What keeps the state: a tick of the time base. -/
namespace Sys2Proof.Machine
variable {κ : Bool} {s₀ s : State}

theorem Keeps.tickNs (h : Keeps κ s₀ s) : Keeps κ s₀ s.tickNs := by
  unfold State.tickNs
  exact .ite h (h.linkSync.foldl (fun h => h.askAgain)).update

end Sys2Proof.Machine
end

section
/-! The rows of power, reset and boot, which take the power-up on. -/
namespace Sys2Proof.Machine

/-- From `s` to `t` the power-up order and the canonical form of memory stand, though the power-up may have gone on. -/
structure Upholds (s t : State) : Prop where
  order : s.BootOrder → t.BootOrder
  mem : s.MemCanonical → t.MemCanonical

theorem Upholds.refl (s : State) : Upholds s s := ⟨id, id⟩

theorem Upholds.trans {s t u : State} (h : Upholds s t) (h' : Upholds t u) : Upholds s u := ⟨h'.order ∘ h.order, h'.mem ∘ h.mem⟩

theorem Keeps.powerUp {s t : State} (h : Keeps false s t) :
    t.boot.step = s.boot.step ∧ t.boot.thermalHold = s.boot.thermalHold ∧ t.boot.warm = s.boot.warm ∧ t.board = s.board := by
  have e := h.core
  simp only [State.core, Prod.mk.injEq] at e
  obtain ⟨-, -, -, hb, hs, hh, hw⟩ := e
  exact ⟨hs, hh, hw, hb⟩

theorem Keeps.upholds {s t : State} (h : Keeps false s t) : Upholds s t := by
  obtain ⟨hs, hh, hw, hb⟩ := h.powerUp
  refine ⟨fun ho => ?_, h.mem⟩
  obtain ⟨hle, hpwr, hhold, hwarm, hact⟩ := ho
  rw [State.BootOrder, hs, hh, hw, hb]
  exact ⟨hle, hpwr, hhold, hwarm, hact ∘ h.active⟩

theorem Upholds.ite {s a b : State} {c : Prop} {d : Decidable c} (ha : c → Upholds s a) (hb : ¬ c → Upholds s b) :
    Upholds s (if c then a else b) := by
  split
  · exact ha ‹_›
  · exact hb ‹_›

/-- A row that waits starts what it waits for; one that goes on does so from a state that differs in what it waits for only. -/
theorem Upholds.orWait {s : State} {pick : Nat} {f : State → State} (h : Upholds s.fresh (f s.fresh)) : Upholds s (s.orWait pick f) := by
  by_cases hs : (f s.fresh).stall = []
  · rw [State.orWait_next hs]
    exact ⟨h.order, h.mem⟩
  · rw [State.orWait_wait hs]
    exact ((Keeps.refl s).foldl fun h => h.startStall).upholds

theorem Upholds.mgmtServe {s : State} {h : MctpHdr} {cmd flags : Nat} {secured early : Bool} {f : State → State}
    (hf : s.served h 0x7E = true → Upholds s (f s)) : Upholds s (s.mgmtServe h cmd flags secured early f) := by
  have hk : ∀ code, Upholds s (s.mgmtAnswer h cmd code []) := fun _ => (Keeps.refl s).mgmtAnswer.upholds
  unfold State.mgmtServe
  split
  · exact .refl s
  · rename_i hs
    simp only [Bool.not_eq_true', Bool.not_eq_false] at hs
    exact .ite (fun _ => hk 2) fun _ => .ite (fun _ => hk 3) fun _ => .ite (fun _ => hk 4) fun _ => hf hs

/-- A machine that has lost its memories is in canonical form. -/
theorem Upholds.of_lost {s t : State} (hm : t.mem = []) (hb : t.bays = []) (ho : t.BootOrder) : Upholds s t :=
  ⟨fun _ => ho, fun _ => ⟨by rw [hm]; rfl, by rw [hb]; rfl⟩⟩

theorem Upholds.coldReset {s : State} {cause : Nat} {hold : Bool} (hp : s.board.pwrOk = true) : Upholds s (s.coldReset cause hold) := by
  refine .of_lost rfl rfl ?_
  cases hold <;> simp [State.BootOrder, State.coldReset, State.blank, Boot.note, hp]

/-- A step of Table 03-8 below discovery step 8, and what else the row does from there. -/
theorem Upholds.powerStep {s t : State} {from_ : Nat} {f : State → State} (h1 : 1 ≤ from_) (h2 : from_ < 7)
    (hf : ∀ u, Keeps false u (f u)) (h : s.powerStep from_ f = .next t) : Upholds s t := by
  unfold State.powerStep at h
  split at h
  · rename_i hs
    obtain ⟨hp, hst⟩ := hs
    cases h
    refine Upholds.trans (t := { s with boot := { s.boot with step := from_ + 1 } }) ⟨fun ho => ?_, fun hm => hm⟩ (hf _).upholds
    obtain ⟨-, -, hhold, hwarm, hact⟩ := ho
    simp only [hst] at hhold hwarm hact
    refine ⟨show from_ + 1 ≤ 8 by omega, ?_, fun e => ?_, fun e => ?_, fun e => ?_⟩
    · intro e
      rw [show s.board.pwrOk = false from e] at hp
      cases hp
    · have := hhold e
      omega
    · have := hwarm e
      omega
    · have := hact e
      omega
  · cases h
    exact .refl s

theorem Upholds.startWarm {s : State} {cause : Nat} (hs : 7 ≤ s.boot.step) : Upholds s (s.startWarm cause) := by
  have hk : Keeps false s _ := (Keeps.refl s).abandonMoves (f := fun _ => true)
  obtain ⟨-, -, -, hb⟩ := hk.powerUp
  refine ⟨fun ho => ?_, hk.mem⟩
  obtain ⟨hle, hpwr, hhold, -, hact⟩ := ho
  exact ⟨hle, fun e => hpwr (hb ▸ e), hhold, fun _ => hs, hact⟩

theorem Upholds.requestWarm {s : State} {cause : Nat} : Upholds s (s.requestWarm cause) := by
  unfold State.requestWarm
  refine .ite (fun _ => ⟨id, id⟩) fun _ => .ite (fun _ => ⟨id, id⟩) fun hs => .startWarm (by omega)

/-- A warm reset goes on to another of its steps, or ends. -/
theorem Upholds.warmStep {s t : State} {w : Nat} (h : Keeps false s t) (hw : s.boot.warm ≠ 0) :
    Upholds s { t with boot := { t.boot with warm := w } } := by
  obtain ⟨hs, -, hw', -⟩ := h.powerUp
  refine ⟨fun ho => ?_, h.mem⟩
  obtain ⟨hle, hpwr, hhold, hwarm, hact⟩ := h.upholds.order ho
  exact ⟨hle, hpwr, hhold, fun _ => hwarm (hw' ▸ hw), hact⟩

section
variable {s t : State}

theorem execPowerOn_upholds {straps : Straps} {fuses : Fuses} (h : execPowerOn straps fuses s = .next t) : Upholds s t := by
  unfold execPowerOn at h
  extract_lets s0 s1 at h
  split at h <;> cases h
  · exact .refl s
  · exact .of_lost rfl rfl (by simp [State.BootOrder, s1, State.blank])

theorem execMgmtIslandStart_upholds (h : execMgmtIslandStart s = .next t) : Upholds s t :=
  .powerStep (by decide) (by decide) Keeps.refl h

theorem execQuietClockLock_upholds (h : execQuietClockLock s = .next t) : Upholds s t :=
  .powerStep (by decide) (by decide) (fun u => (Keeps.refl u).update) h

theorem execSfdpParse_upholds {signature dense addr4 octal quad : Bool} (h : execSfdpParse signature dense addr4 octal quad s = .next t) :
    Upholds s t := by
  refine .powerStep (by decide) (by decide) (fun u => ?_) h
  have hu : Keeps false u u := .refl u
  exact .ite (.updateBoot hu rfl id) (hu.foldl fun h => h.modBootSlot.rejectSlot).noImage

theorem execDiscoveryStart_upholds (h : execDiscoveryStart s = .next t) : Upholds s t :=
  .powerStep (by decide) (by decide) (fun u => (Keeps.refl u).update) h

theorem execInventoryFix_upholds (h : execInventoryFix s = .next t) : Upholds s t := by
  unfold execInventoryFix at h
  extract_lets s1 _ s2 s3 at h
  split at h <;> cases h
  · rename_i hs
    obtain ⟨hst, hp⟩ := hs
    have h1 : Keeps false s s1 := (Keeps.refl s).deadline
    have h2 : Upholds s s2 := by
      obtain ⟨-, hh, hw, hb⟩ := h1.powerUp
      refine ⟨fun ho => ?_, h1.mem⟩
      obtain ⟨-, -, hhold, hwarm, hact⟩ := ho
      refine ⟨show 7 ≤ 8 by decide, fun e => ?_, fun e => ?_, fun _ => Nat.le_refl 7, fun e => ?_⟩
      · rw [show s.board.pwrOk = false from hb ▸ e] at hp
        cases hp
      · have := hhold (hh ▸ e)
        omega
      · have := hact (h1.active e)
        omega
    have h3 : Keeps false s2 s3 := .ite (Keeps.refl s2).fixInventory (Keeps.refl s2).holdCom
    have hst3 : s3.boot.step = 7 := h3.powerUp.1
    split
    · exact (h2.trans h3.upholds).trans (.startWarm (by omega))
    · exact h2.trans h3.upholds
  · exact .refl s

theorem execImageApply_upholds {pick : Nat} (h : execImageApply pick s = .next t) : Upholds s t := by
  unfold execImageApply at h
  split at h
  · cases h
    exact .refl s
  · extract_lets i img lock _ _ s1 s2 s3 s4 at h
    split at h
    · cases h
      exact .refl s
    · rename_i hs
      have h1 : Upholds s s1 := by
        refine ⟨fun ho => ?_, id⟩
        obtain ⟨-, hpwr, hhold, hwarm, -⟩ := ho
        refine ⟨Nat.le_refl 8, fun e => ?_, fun e => ?_, fun _ => show 7 ≤ 8 by decide, fun _ => rfl⟩
        · have := hpwr e
          omega
        · have := hhold e
          omega
      have h2 : Keeps false s1 s2 := ((Keeps.refl s1).foldl fun h => h.applyPort).toAnchor
      have h3 : Keeps false s2 s4 := (Keeps.refl s2).drawKeys.foldl fun h => h.modVd
      split at h
      · rw [← Host.Outcome.next.inj h]
        exact h1.trans h2.mediaError.postAs.releaseAll.bootDraw.upholds
      · rw [← Host.Outcome.next.inj h]
        exact h1.trans (h2.trans h3).hopStart.startLinks.releaseAll.bootDraw.upholds

theorem running_pwrOk (h : s.running = true) : s.board.pwrOk = true := by
  simp only [State.running, Bool.and_eq_true] at h
  exact h.1

theorem served_pwrOk {h : MctpHdr} {ty : Nat} (hs : s.served h ty = true) : s.board.pwrOk = true := by
  simp only [State.served, Bool.and_eq_true] at hs
  exact hs.1.1.1.1

theorem execColdRstNAssert_upholds (h : execColdRstNAssert s = .next t) : Upholds s t := by
  unfold execColdRstNAssert at h
  split at h <;> cases h
  · exact .coldReset (running_pwrOk ‹_›)
  · exact .refl s

theorem execWarmRstNAssert_upholds (h : execWarmRstNAssert s = .next t) : Upholds s t := by
  unfold execWarmRstNAssert at h
  split at h <;> cases h
  · exact .requestWarm
  · exact .refl s

theorem execPowerLoss_upholds (h : execPowerLoss s = .next t) : Upholds s t := by
  unfold execPowerLoss at h
  split at h <;> cases h
  · exact .of_lost rfl rfl (by simp [State.BootOrder, State.blank])
  · exact .refl s

theorem execPgmReq_upholds {low : Bool} (h : execPgmReq low s = .next t) : Upholds s t := by
  unfold execPgmReq at h
  split at h <;> cases h
  · exact .of_lost rfl rfl (by simp [State.BootOrder, State.blank])
  · exact ⟨id, id⟩

theorem execIodThermalTrip_upholds {temp : Nat} (h : execIodThermalTrip temp s = .next t) : Upholds s t := by
  unfold execIodThermalTrip at h
  extract_lets _ s1 at h
  split at h <;> cases h
  · rename_i hs
    have h1 : Upholds s s1 := by
      refine Upholds.trans (t := { s with boot := { s.boot with iodTemp := temp } }) ⟨id, id⟩ ?_
      exact .coldReset (running_pwrOk hs.1)
    exact h1.trans (Keeps.refl s1).update.bootDraw.upholds
  · exact .refl s

theorem execThermalHoldRelease_upholds {temp : Nat} (h : execThermalHoldRelease temp s = .next t) : Upholds s t := by
  unfold execThermalHoldRelease at h
  split at h <;> cases h
  · rename_i hs
    obtain ⟨hp, hh, -⟩ := hs
    refine ⟨fun ho => ?_, id⟩
    obtain ⟨-, -, hhold, hwarm, hact⟩ := ho
    have h0 := hhold hh
    refine ⟨show 1 ≤ 8 by decide, fun e => ?_, fun e => ?_, fun e => ?_, fun e => ?_⟩
    · rw [show s.board.pwrOk = false from e] at hp
      cases hp
    · cases e
    · have := hwarm e
      omega
    · have := hact e
      omega
  · exact .refl s

theorem execVddIoInTolerance_upholds (h : execVddIoInTolerance s = .next t) : Upholds s t := by
  cases h
  exact ⟨id, id⟩

theorem execCardPowerSense_upholds {sense0 sense1 : Bool} (h : execCardPowerSense sense0 sense1 s = .next t) : Upholds s t := by
  unfold execCardPowerSense at h
  split at h <;> cases h <;> exact ⟨id, id⟩

theorem execQsfpModuleDetect_upholds {cage : Nat} {present lowest : Bool} (h : execQsfpModuleDetect cage present lowest s = .next t) :
    Upholds s t := by
  unfold execQsfpModuleDetect at h
  split at h <;> cases h <;> exact ⟨id, id⟩

theorem execWarmResetTaskStop_upholds (h : execWarmResetTaskStop s = .next t) : Upholds s t := by
  unfold execWarmResetTaskStop at h
  split at h <;> cases h
  · exact .warmStep (Keeps.refl s).stopCmds (by omega)
  · exact .refl s

theorem execWarmResetFlush_upholds {acked : List Nat} {pick : Nat} (h : execWarmResetFlush acked pick s = .next t) : Upholds s t := by
  cases h
  refine .orWait (.ite (fun hw => ?_) fun _ => .refl _)
  have h1 : Keeps false s.fresh _ := (Keeps.refl s.fresh).demoteAll.abandonCopies.flushCaches.abandonWb (acked := acked)
  exact .warmStep (h1.foldl fun h => h.warmVd).hopWarm.clearBays.warmUnits.dropPolicy (by omega)

theorem execWarmImageReapply_upholds {ok : Bool} (h : execWarmImageReapply ok s = .next t) : Upholds s t := by
  unfold execWarmImageReapply at h
  split at h
  · rename_i hw
    split at h <;> cases h
    · exact (Upholds.warmStep (t := { s with pol := s.imagePol s.img }) (Keeps.refl s).update (by omega)).trans (Keeps.refl _).keepAwake.upholds
    · refine ⟨fun ho => ?_, fun _ => ⟨rfl, rfl⟩⟩
      obtain ⟨-, hpwr, -, hwarm, -⟩ := id ho
      have h7 := hwarm (by omega)
      refine (Upholds.coldReset ?_).order ho
      cases hp : s.board.pwrOk with
      | true => rfl
      | false =>
        have := hpwr hp
        omega
  · cases h
    exact .refl s

theorem execWarmResetComplete_upholds {pick : Nat} (h : execWarmResetComplete pick s = .next t) : Upholds s t := by
  cases h
  refine .orWait (.ite (fun hw => ?_) fun _ => .refl _)
  extract_lets vs _ _ s1
  have h0 := Upholds.warmStep (w := 0) (t := { s.fresh with power := { s.power with refresh := [] } }) (Keeps.refl s.fresh).update
    (by omega)
  have h1 : Upholds s.fresh s1 := h0.trans ((Keeps.refl _).foldl fun h => h.vdReady).upholds
  exact h1.trans (Keeps.refl s1).flushHeld.answerReads.releaseAll.releasePeers.upholds

theorem execColdReset_upholds {h : MctpHdr} {flags : Nat} (e : execColdReset h flags s = .next t) : Upholds s t := by
  cases e
  refine .mgmtServe fun hs => ?_
  have h1 : Keeps false s (s.mgmtAnswer h 0x20 0 []) := (Keeps.refl s).mgmtAnswer
  obtain ⟨-, -, -, hb⟩ := h1.powerUp
  exact h1.upholds.trans (.coldReset (hb ▸ served_pwrOk hs))

theorem execWarmReset_upholds {h : MctpHdr} {flags : Nat} (e : execWarmReset h flags s = .next t) : Upholds s t := by
  cases e
  exact .mgmtServe fun _ => (Keeps.refl s).mgmtAnswer.upholds.trans .requestWarm

end

end Sys2Proof.Machine
end

section
/-! Every row and every step upholds both invariants. -/
namespace Sys2Proof.Machine

/-- Every row upholds both invariants: those of power, reset and boot by their own lemmas, the others because they keep the state. -/
theorem exec_upholds {c : Instr} {s t : State} (h : exec c s = .next t) : Upholds s t := by
  cases c with
  | powerOn => exact execPowerOn_upholds h
  | mgmtIslandStart => exact execMgmtIslandStart_upholds h
  | quietClockLock => exact execQuietClockLock_upholds h
  | sfdpParse => exact execSfdpParse_upholds h
  | discoveryStart => exact execDiscoveryStart_upholds h
  | slicePllLock => exact (execSlicePllLock_keeps (.refl s) t h).upholds
  | leatWireTraining => exact (execLeatWireTraining_keeps (.refl s) t h).upholds
  | identityMessage => exact (execIdentityMessage_keeps (.refl s) t h).upholds
  | channelFailureMaskReport => exact (execChannelFailureMaskReport_keeps (.refl s) t h).upholds
  | discoveryDeadline => exact (execDiscoveryDeadline_keeps (.refl s) t h).upholds
  | inventoryFix => exact execInventoryFix_upholds h
  | cxlTrainingStart => exact (execCxlTrainingStart_keeps (.refl s) t h).upholds
  | slotStage => exact (execSlotStage_keeps (.refl s) t h).upholds
  | slotSelection => exact (execSlotSelection_keeps (.refl s) t h).upholds
  | imageApply => exact execImageApply_upholds h
  | coldRstNAssert => exact execColdRstNAssert_upholds h
  | warmRstNAssert => exact execWarmRstNAssert_upholds h
  | warmResetTaskStop => exact execWarmResetTaskStop_upholds h
  | warmResetFlush => exact execWarmResetFlush_upholds h
  | warmImageReapply => exact execWarmImageReapply_upholds h
  | warmResetComplete => exact execWarmResetComplete_upholds h
  | portReset => exact (execPortReset_keeps (.refl s) t h).upholds
  | powerLoss => exact execPowerLoss_upholds h
  | refGlitch => exact (execRefGlitch_keeps (.refl s) t h).upholds
  | refLoss => exact (execRefLoss_keeps (.refl s) t h).upholds
  | freqWindowEnd => exact (execFreqWindowEnd_keeps (.refl s) t h).upholds
  | refReturn => exact (execRefReturn_keeps (.refl s) t h).upholds
  | quietClockFail => exact (execQuietClockFail_keeps (.refl s) t h).upholds
  | thermalSample => exact (execThermalSample_keeps (.refl s) t h).upholds
  | iodThermalTrip => exact execIodThermalTrip_upholds h
  | sliceClockGate => exact (execSliceClockGate_keeps (.refl s) t h).upholds
  | slicePowerGate => exact (execSlicePowerGate_keeps (.refl s) t h).upholds
  | sliceWake => exact (execSliceWake_keeps (.refl s) t h).upholds
  | runnerGate => exact (execRunnerGate_keeps (.refl s) t h).upholds
  | stackSelfRefresh => exact (execStackSelfRefresh_keeps (.refl s) t h).upholds
  | cardPowerSense => exact execCardPowerSense_upholds h
  | leatEccError => exact (execLeatEccError_keeps (.refl s) t h).upholds
  | testLogicReset => exact (execTestLogicReset_keeps (.refl s) t h).upholds
  | extest => exact (execExtest_keeps (.refl s) t h).upholds
  | idcode => exact (execIdcode_keeps (.refl s) t h).upholds
  | sample => exact (execSample_keeps (.refl s) t h).upholds
  | preload => exact (execPreload_keeps (.refl s) t h).upholds
  | clamp => exact (execClamp_keeps (.refl s) t h).upholds
  | highz => exact (execHighz_keeps (.refl s) t h).upholds
  | ijtagAccess => exact (execIjtagAccess_keeps (.refl s) t h).upholds
  | dieSummary => exact (execDieSummary_keeps (.refl s) t h).upholds
  | bypass => exact (execBypass_keeps (.refl s) t h).upholds
  | sibUpdate => exact (execSibUpdate_keeps (.refl s) t h).upholds
  | dieComPowered => exact (execDieComPowered_keeps (.refl s) t h).upholds
  | policyWriteArrive => exact (execPolicyWriteArrive_keeps (.refl s) t h).upholds
  | fmThreshWrite => exact (execFmThreshWrite_keeps (.refl s) t h).upholds
  | fmWscaleWrite => exact (execFmWscaleWrite_keeps (.refl s) t h).upholds
  | refreshCapWrite => exact (execRefreshCapWrite_keeps (.refl s) t h).upholds
  | srMinIdleWrite => exact (execSrMinIdleWrite_keeps (.refl s) t h).upholds
  | pgMinIdleWrite => exact (execPgMinIdleWrite_keeps (.refl s) t h).upholds
  | keepAwakeWrite => exact (execKeepAwakeWrite_keeps (.refl s) t h).upholds
  | spillMaxKWrite => exact (execSpillMaxKWrite_keeps (.refl s) t h).upholds
  | hylEqHoldWrite => exact (execHylEqHoldWrite_keeps (.refl s) t h).upholds
  | fantailCtrlWrite => exact (execFantailCtrlWrite_keeps (.refl s) t h).upholds
  | regionPolicyWrite => exact (execRegionPolicyWrite_keeps (.refl s) t h).upholds
  | vdQuotaTaskWrite => exact (execVdQuotaTaskWrite_keeps (.refl s) t h).upholds
  | vdQuotaBufWrite => exact (execVdQuotaBufWrite_keeps (.refl s) t h).upholds
  | vdQuotaPageWrite => exact (execVdQuotaPageWrite_keeps (.refl s) t h).upholds
  | vdQuotaPenWrite => exact (execVdQuotaPenWrite_keeps (.refl s) t h).upholds
  | vdQosWrite => exact (execVdQosWrite_keeps (.refl s) t h).upholds
  | policyWriteComplete => exact (execPolicyWriteComplete_keeps (.refl s) t h).upholds
  | linkUp => exact (execLinkUp_keeps (.refl s) t h).upholds
  | linkDown => exact (execLinkDown_keeps (.refl s) t h).upholds
  | l1EntryRequest => exact (execL1EntryRequest_keeps (.refl s) t h).upholds
  | ideIntegrityFailure => exact (execIdeIntegrityFailure_keeps (.refl s) t h).upholds
  | functionLevelReset => exact (execFunctionLevelReset_keeps (.refl s) t h).upholds
  | cxlReset => exact (execCxlReset_keeps (.refl s) t h).upholds
  | memRd => exact (execMemRd_keeps (.refl s) t h).upholds
  | memWr => exact (execMemWr_keeps (.refl s) t h).upholds
  | memClnEvct => exact (execMemClnEvct_keeps (.refl s) t h).upholds
  | memSpecRd => exact (execMemSpecRd_keeps (.refl s) t h).upholds
  | birsp => exact (execBirsp_keeps (.refl s) t h).upholds
  | bisnpTimeout => exact (execBisnpTimeout_keeps (.refl s) t h).upholds
  | biconflict => exact (execBiconflict_keeps (.refl s) t h).upholds
  | devloadUpdate => exact (execDevloadUpdate_keeps (.refl s) t h).upholds
  | getLdInfo => exact (execGetLdInfo_keeps (.refl s) t h).upholds
  | getLdAllocations => exact (execGetLdAllocations_keeps (.refl s) t h).upholds
  | setLdAllocations => exact (execSetLdAllocations_keeps (.refl s) t h).upholds
  | getQosControl => exact (execGetQosControl_keeps (.refl s) t h).upholds
  | setQosControl => exact (execSetQosControl_keeps (.refl s) t h).upholds
  | getQosStatus => exact (execGetQosStatus_keeps (.refl s) t h).upholds
  | getQosAllocatedBw => exact (execGetQosAllocatedBw_keeps (.refl s) t h).upholds
  | getDcdInfo => exact (execGetDcdInfo_keeps (.refl s) t h).upholds
  | getHostDcRegionConfiguration => exact (execGetHostDcRegionConfiguration_keeps (.refl s) t h).upholds
  | setDcRegionConfiguration => exact (execSetDcRegionConfiguration_keeps (.refl s) t h).upholds
  | getDcRegionExtentLists => exact (execGetDcRegionExtentLists_keeps (.refl s) t h).upholds
  | initiateDynamicCapacityAdd => exact (execInitiateDynamicCapacityAdd_keeps (.refl s) t h).upholds
  | initiateDynamicCapacityRelease => exact (execInitiateDynamicCapacityRelease_keeps (.refl s) t h).upholds
  | fmApiUnsupported => exact (execFmApiUnsupported_keeps (.refl s) t h).upholds
  | extentOfferTimeout => exact (execExtentOfferTimeout_keeps (.refl s) t h).upholds
  | mbIdentify => exact (execMbIdentify_keeps (.refl s) t h).upholds
  | backgroundOperationStatus => exact (execBackgroundOperationStatus_keeps (.refl s) t h).upholds
  | getEventRecords => exact (execGetEventRecords_keeps (.refl s) t h).upholds
  | clearEventRecords => exact (execClearEventRecords_keeps (.refl s) t h).upholds
  | getEventInterruptPolicy => exact (execGetEventInterruptPolicy_keeps (.refl s) t h).upholds
  | setEventInterruptPolicy => exact (execSetEventInterruptPolicy_keeps (.refl s) t h).upholds
  | getTimestamp => exact (execGetTimestamp_keeps (.refl s) t h).upholds
  | setTimestamp => exact (execSetTimestamp_keeps (.refl s) t h).upholds
  | getSupportedLogs => exact (execGetSupportedLogs_keeps (.refl s) t h).upholds
  | getLog => exact (execGetLog_keeps (.refl s) t h).upholds
  | identifyMemoryDevice => exact (execIdentifyMemoryDevice_keeps (.refl s) t h).upholds
  | getHealthInfo => exact (execGetHealthInfo_keeps (.refl s) t h).upholds
  | getAlertConfiguration => exact (execGetAlertConfiguration_keeps (.refl s) t h).upholds
  | setAlertConfiguration => exact (execSetAlertConfiguration_keeps (.refl s) t h).upholds
  | getPoisonList => exact (execGetPoisonList_keeps (.refl s) t h).upholds
  | injectPoison => exact (execInjectPoison_keeps (.refl s) t h).upholds
  | clearPoison => exact (execClearPoison_keeps (.refl s) t h).upholds
  | getScanMediaCapabilities => exact (execGetScanMediaCapabilities_keeps (.refl s) t h).upholds
  | scanMedia => exact (execScanMedia_keeps (.refl s) t h).upholds
  | getScanMediaResults => exact (execGetScanMediaResults_keeps (.refl s) t h).upholds
  | sanitize => exact (execSanitize_keeps (.refl s) t h).upholds
  | secureErase => exact (execSecureErase_keeps (.refl s) t h).upholds
  | backgroundOperationDone => exact (execBackgroundOperationDone_keeps (.refl s) t h).upholds
  | getDynamicCapacityConfiguration => exact (execGetDynamicCapacityConfiguration_keeps (.refl s) t h).upholds
  | getDynamicCapacityExtentList => exact (execGetDynamicCapacityExtentList_keeps (.refl s) t h).upholds
  | addDynamicCapacityResponse => exact (execAddDynamicCapacityResponse_keeps (.refl s) t h).upholds
  | releaseDynamicCapacity => exact (execReleaseDynamicCapacity_keeps (.refl s) t h).upholds
  | mailboxUnsupported => exact (execMailboxUnsupported_keeps (.refl s) t h).upholds
  | vdResetTrigger => exact (execVdResetTrigger_keeps (.refl s) t h).upholds
  | vdResetTaskStop => exact (execVdResetTaskStop_keeps (.refl s) t h).upholds
  | vdResetAbandon => exact (execVdResetAbandon_keeps (.refl s) t h).upholds
  | vdResetSweep => exact (execVdResetSweep_keeps (.refl s) t h).upholds
  | vdResetComplete => exact (execVdResetComplete_keeps (.refl s) t h).upholds
  | errRingCtrlWrite => exact (execErrRingCtrlWrite_keeps (.refl s) t h).upholds
  | errRingHeadWrite => exact (execErrRingHeadWrite_keeps (.refl s) t h).upholds
  | errRingBaseWrite => exact (execErrRingBaseWrite_keeps (.refl s) t h).upholds
  | errorRecordWriteFail => exact (execErrorRecordWriteFail_keeps (.refl s) t h).upholds
  | errRingMsixDefer => exact (execErrRingMsixDefer_keeps (.refl s) t h).upholds
  | sharedEntryGrant => exact (execSharedEntryGrant_keeps (.refl s) t h).upholds
  | localRead => exact (execLocalRead_keeps (.refl s) t h).upholds
  | localWrite => exact (execLocalWrite_keeps (.refl s) t h).upholds
  | dramFillReturn => exact (execDramFillReturn_keeps (.refl s) t h).upholds
  | localReduction => exact (execLocalReduction_keeps (.refl s) t h).upholds
  | sliceAtomic => exact (execSliceAtomic_keeps (.refl s) t h).upholds
  | memSideAtomicDone => exact (execMemSideAtomicDone_keeps (.refl s) t h).upholds
  | rdS => exact (execRdS_keeps (.refl s) t h).upholds
  | rdX => exact (execRdX_keeps (.refl s) t h).upholds
  | upg => exact (execUpg_keeps (.refl s) t h).upholds
  | rdNc => exact (execRdNc_keeps (.refl s) t h).upholds
  | wrNc => exact (execWrNc_keeps (.refl s) t h).upholds
  | red => exact (execRed_keeps (.refl s) t h).upholds
  | atom => exact (execAtom_keeps (.refl s) t h).upholds
  | snpInv => exact (execSnpInv_keeps (.refl s) t h).upholds
  | snpData => exact (execSnpData_keeps (.refl s) t h).upholds
  | snpCur => exact (execSnpCur_keeps (.refl s) t h).upholds
  | rspI => exact (execRspI_keeps (.refl s) t h).upholds
  | rspS => exact (execRspS_keeps (.refl s) t h).upholds
  | rspE => exact (execRspE_keeps (.refl s) t h).upholds
  | rspNp => exact (execRspNp_keeps (.refl s) t h).upholds
  | gntAck => exact (execGntAck_keeps (.refl s) t h).upholds
  | cmp => exact (execCmp_keeps (.refl s) t h).upholds
  | cmpE => exact (execCmpE_keeps (.refl s) t h).upholds
  | wbAck => exact (execWbAck_keeps (.refl s) t h).upholds
  | fillS => exact (execFillS_keeps (.refl s) t h).upholds
  | fillE => exact (execFillE_keeps (.refl s) t h).upholds
  | rdDat => exact (execRdDat_keeps (.refl s) t h).upholds
  | datI => exact (execDatI_keeps (.refl s) t h).upholds
  | datS => exact (execDatS_keeps (.refl s) t h).upholds
  | datE => exact (execDatE_keeps (.refl s) t h).upholds
  | wb => exact (execWb_keeps (.refl s) t h).upholds
  | snoopTimeout => exact (execSnoopTimeout_keeps (.refl s) t h).upholds
  | directoryDepartureSweep => exact (execDirectoryDepartureSweep_keeps (.refl s) t h).upholds
  | release => exact (execRelease_keeps (.refl s) t h).upholds
  | hopAlloc => exact (execHopAlloc_keeps (.refl s) t h).upholds
  | hopAdopt => exact (execHopAdopt_keeps (.refl s) t h).upholds
  | hopFree => exact (execHopFree_keeps (.refl s) t h).upholds
  | hopQuery => exact (execHopQuery_keeps (.refl s) t h).upholds
  | hopTransfer => exact (execHopTransfer_keeps (.refl s) t h).upholds
  | transferSwitch => exact (execTransferSwitch_keeps (.refl s) t h).upholds
  | quarantineEnd => exact (execQuarantineEnd_keeps (.refl s) t h).upholds
  | hopperBackgroundPass => exact (execHopperBackgroundPass_keeps (.refl s) t h).upholds
  | sluiceWalk => exact (execSluiceWalk_keeps (.refl s) t h).upholds
  | pageZeroDone => exact (execPageZeroDone_keeps (.refl s) t h).upholds
  | pageMoveStart => exact (execPageMoveStart_keeps (.refl s) t h).upholds
  | moveAckComplete => exact (execMoveAckComplete_keeps (.refl s) t h).upholds
  | moveCopyDone => exact (execMoveCopyDone_keeps (.refl s) t h).upholds
  | moveSourceFree => exact (execMoveSourceFree_keeps (.refl s) t h).upholds
  | moveDeadline => exact (execMoveDeadline_keeps (.refl s) t h).upholds
  | fantailEvaluation => exact (execFantailEvaluation_keeps (.refl s) t h).upholds
  | promoteDone => exact (execPromoteDone_keeps (.refl s) t h).upholds
  | demoteDone => exact (execDemoteDone_keeps (.refl s) t h).upholds
  | slPlace => exact (execSlPlace_keeps (.refl s) t h).upholds
  | slPin => exact (execSlPin_keeps (.refl s) t h).upholds
  | slUnpin => exact (execSlUnpin_keeps (.refl s) t h).upholds
  | slQuery => exact (execSlQuery_keeps (.refl s) t h).upholds
  | slGrant => exact (execSlGrant_keeps (.refl s) t h).upholds
  | slRevoke => exact (execSlRevoke_keeps (.refl s) t h).upholds
  | slAttach => exact (execSlAttach_keeps (.refl s) t h).upholds
  | slDetach => exact (execSlDetach_keeps (.refl s) t h).upholds
  | grantRevocation => exact (execGrantRevocation_keeps (.refl s) t h).upholds
  | refreshLoopDecision => exact (execRefreshLoopDecision_keeps (.refl s) t h).upholds
  | equalisationDecision => exact (execEqualisationDecision_keeps (.refl s) t h).upholds
  | ringDb => exact (execRingDb_keeps (.refl s) t h).upholds
  | cqDb => exact (execCqDb_keeps (.refl s) t h).upholds
  | ringCtrlWrite => exact (execRingCtrlWrite_keeps (.refl s) t h).upholds
  | ringBaseWrite => exact (execRingBaseWrite_keeps (.refl s) t h).upholds
  | descriptorRead => exact (execDescriptorRead_keeps (.refl s) t h).upholds
  | cancelTag => exact (execCancelTag_keeps (.refl s) t h).upholds
  | cancelStream => exact (execCancelStream_keeps (.refl s) t h).upholds
  | cancelRing => exact (execCancelRing_keeps (.refl s) t h).upholds
  | cancelAllRings => exact (execCancelAllRings_keeps (.refl s) t h).upholds
  | capturedEntryRead => exact (execCapturedEntryRead_keeps (.refl s) t h).upholds
  | commandDecode => exact (execCommandDecode_keeps (.refl s) t h).upholds
  | commandReady => exact (execCommandReady_keeps (.refl s) t h).upholds
  | taskCreate => exact (execTaskCreate_keeps (.refl s) t h).upholds
  | taskLaunch => exact (execTaskLaunch_keeps (.refl s) t h).upholds
  | taskTerminate => exact (execTaskTerminate_keeps (.refl s) t h).upholds
  | completionWriteFail => exact (execCompletionWriteFail_keeps (.refl s) t h).upholds
  | ringMsixDefer => exact (execRingMsixDefer_keeps (.refl s) t h).upholds
  | nop => exact (execNop_keeps (.refl s) t h).upholds
  | fence => exact (execFence_keeps (.refl s) t h).upholds
  | copy => exact (execCopy_keeps (.refl s) t h).upholds
  | fill => exact (execFill_keeps (.refl s) t h).upholds
  | compare => exact (execCompare_keeps (.refl s) t h).upholds
  | atomic => exact (execAtomic_keeps (.refl s) t h).upholds
  | reduce => exact (execReduce_keeps (.refl s) t h).upholds
  | matmul => exact (execMatmul_keeps (.refl s) t h).upholds
  | paramUpdate => exact (execParamUpdate_keeps (.refl s) t h).upholds
  | embGather => exact (execEmbGather_keeps (.refl s) t h).upholds
  | kvAppend => exact (execKvAppend_keeps (.refl s) t h).upholds
  | attnDecode => exact (execAttnDecode_keeps (.refl s) t h).upholds
  | collective => exact (execCollective_keeps (.refl s) t h).upholds
  | serviceCall => exact (execServiceCall_keeps (.refl s) t h).upholds
  | penLease => exact (execPenLease_keeps (.refl s) t h).upholds
  | penDrop => exact (execPenDrop_keeps (.refl s) t h).upholds
  | penSignal => exact (execPenSignal_keeps (.refl s) t h).upholds
  | penReset => exact (execPenReset_keeps (.refl s) t h).upholds
  | penRead => exact (execPenRead_keeps (.refl s) t h).upholds
  | penArm => exact (execPenArm_keeps (.refl s) t h).upholds
  | penExport cmd pick => exact (execPenExport_keeps (cmd := cmd) (pick := pick) (.refl s) t h).upholds
  | penImport => exact (execPenImport_keeps (.refl s) t h).upholds
  | penUnexport => exact (execPenUnexport_keeps (.refl s) t h).upholds
  | runnerTileAttempt => exact (execRunnerTileAttempt_keeps (.refl s) t h).upholds
  | spill => exact (execSpill_keeps (.refl s) t h).upholds
  | localTileLoaded => exact (execLocalTileLoaded_keeps (.refl s) t h).upholds
  | accSetSwap => exact (execAccSetSwap_keeps (.refl s) t h).upholds
  | drainDone => exact (execDrainDone_keeps (.refl s) t h).upholds
  | flumeRunGrant => exact (execFlumeRunGrant_keeps (.refl s) t h).upholds
  | flumePeriodStart => exact (execFlumePeriodStart_keeps (.refl s) t h).upholds
  | flumeRunEnd => exact (execFlumeRunEnd_keeps (.refl s) t h).upholds
  | raceGrant => exact (execRaceGrant_keeps (.refl s) t h).upholds
  | hylDetectPoll => exact (execHylDetectPoll_keeps (.refl s) t h).upholds
  | hylTrainDone => exact (execHylTrainDone_keeps (.refl s) t h).upholds
  | trainingBlockReceive => exact (execTrainingBlockReceive_keeps (.refl s) t h).upholds
  | hylConfigDone => exact (execHylConfigDone_keeps (.refl s) t h).upholds
  | flitReceive => exact (execFlitReceive_keeps (.refl s) t h).upholds
  | replayTimeout => exact (execReplayTimeout_keeps (.refl s) t h).upholds
  | laneLockLoss => exact (execLaneLockLoss_keeps (.refl s) t h).upholds
  | noFlitTimeout => exact (execNoFlitTimeout_keeps (.refl s) t h).upholds
  | recoveryAttemptTimeout => exact (execRecoveryAttemptTimeout_keeps (.refl s) t h).upholds
  | wreq => exact (execWreq_keeps (.refl s) t h).upholds
  | wack => exact (execWack_keeps (.refl s) t h).upholds
  | widthChangeDone => exact (execWidthChangeDone_keeps (.refl s) t h).upholds
  | hylIdleTimer => exact (execHylIdleTimer_keeps (.refl s) t h).upholds
  | pmReq => exact (execPmReq_keeps (.refl s) t h).upholds
  | pmAck => exact (execPmAck_keeps (.refl s) t h).upholds
  | pmNak => exact (execPmNak_keeps (.refl s) t h).upholds
  | l1ToL1d => exact (execL1ToL1d_keeps (.refl s) t h).upholds
  | hylWake => exact (execHylWake_keeps (.refl s) t h).upholds
  | hylDownTimer => exact (execHylDownTimer_keeps (.refl s) t h).upholds
  | qsfpModuleDetect => exact execQsfpModuleDetect_upholds h
  | hello => exact (execHello_keeps (.refl s) t h).upholds
  | helloTimer => exact (execHelloTimer_keeps (.refl s) t h).upholds
  | elect => exact (execElect_keeps (.refl s) t h).upholds
  | electTimeout => exact (execElectTimeout_keeps (.refl s) t h).upholds
  | joinReq => exact (execJoinReq_keeps (.refl s) t h).upholds
  | joinReqTimer => exact (execJoinReqTimer_keeps (.refl s) t h).upholds
  | poolMember => exact (execPoolMember_keeps (.refl s) t h).upholds
  | departureSweepDone => exact (execDepartureSweepDone_keeps (.refl s) t h).upholds
  | linkState => exact (execLinkState_keeps (.refl s) t h).upholds
  | departureTimer => exact (execDepartureTimer_keeps (.refl s) t h).upholds
  | leave => exact (execLeave_keeps (.refl s) t h).upholds
  | sweepDone => exact (execSweepDone_keeps (.refl s) t h).upholds
  | isolationTimer => exact (execIsolationTimer_keeps (.refl s) t h).upholds
  | timeSyncTimer => exact (execTimeSyncTimer_keeps (.refl s) t h).upholds
  | timeReq => exact (execTimeReq_keeps (.refl s) t h).upholds
  | timeRsp => exact (execTimeRsp_keeps (.refl s) t h).upholds
  | unreach => exact (execUnreach_keeps (.refl s) t h).upholds
  | penReq => exact (execPenReq_keeps (.refl s) t h).upholds
  | penRsp => exact (execPenRsp_keeps (.refl s) t h).upholds
  | slReq => exact (execSlReq_keeps (.refl s) t h).upholds
  | slRsp => exact (execSlRsp_keeps (.refl s) t h).upholds
  | collReady => exact (execCollReady_keeps (.refl s) t h).upholds
  | collData => exact (execCollData_keeps (.refl s) t h).upholds
  | collStep => exact (execCollStep_keeps (.refl s) t h).upholds
  | collReadyTimeout => exact (execCollReadyTimeout_keeps (.refl s) t h).upholds
  | remoteOpTimeout => exact (execRemoteOpTimeout_keeps (.refl s) t h).upholds
  | meterLeak => exact (execMeterLeak_keeps (.refl s) t h).upholds
  | dramUeReread => exact (execDramUeReread_keeps (.refl s) t h).upholds
  | patrolScrub => exact (execPatrolScrub_keeps (.refl s) t h).upholds
  | waitingRetirementStart => exact (execWaitingRetirementStart_keeps (.refl s) t h).upholds
  | rowPprDone => exact (execRowPprDone_keeps (.refl s) t h).upholds
  | channelMetadataCopyDone => exact (execChannelMetadataCopyDone_keeps (.refl s) t h).upholds
  | channelPageMovesDone => exact (execChannelPageMovesDone_keeps (.refl s) t h).upholds
  | bayCopyDone => exact (execBayCopyDone_keeps (.refl s) t h).upholds
  | sliceDrainDone => exact (execSliceDrainDone_keeps (.refl s) t h).upholds
  | sliceRetired => exact (execSliceRetired_keeps (.refl s) t h).upholds
  | dieProxyWritebackDone => exact (execDieProxyWritebackDone_keeps (.refl s) t h).upholds
  | dieMetadataRestoreDone => exact (execDieMetadataRestoreDone_keeps (.refl s) t h).upholds
  | lostSetSweep => exact (execLostSetSweep_keeps (.refl s) t h).upholds
  | logCoalesceTimer => exact (execLogCoalesceTimer_keeps (.refl s) t h).upholds
  | gaugeCtrlWrite => exact (execGaugeCtrlWrite_keeps (.refl s) t h).upholds
  | gaugeConfigWrite => exact (execGaugeConfigWrite_keeps (.refl s) t h).upholds
  | gaugeWindowEnd => exact (execGaugeWindowEnd_keeps (.refl s) t h).upholds
  | gaugeSampleInstant => exact (execGaugeSampleInstant_keeps (.refl s) t h).upholds
  | mctpMessageReceive => exact (execMctpMessageReceive_keeps (.refl s) t h).upholds
  | setEndpointId => exact (execSetEndpointId_keeps (.refl s) t h).upholds
  | read32 => exact (execRead32_keeps (.refl s) t h).upholds
  | write32 => exact (execWrite32_keeps (.refl s) t h).upholds
  | read64 => exact (execRead64_keeps (.refl s) t h).upholds
  | write64 => exact (execWrite64_keeps (.refl s) t h).upholds
  | logRead => exact (execLogRead_keeps (.refl s) t h).upholds
  | fatalLogRead => exact (execFatalLogRead_keeps (.refl s) t h).upholds
  | coldReset => exact execColdReset_upholds h
  | warmReset => exact execWarmReset_upholds h
  | vdReset => exact (execVdReset_keeps (.refl s) t h).upholds
  | poolLeave => exact (execPoolLeave_keeps (.refl s) t h).upholds
  | identify => exact (execIdentify_keeps (.refl s) t h).upholds
  | panelUpdate => exact (execPanelUpdate_keeps (.refl s) t h).upholds
  | getVersion => exact (execGetVersion_keeps (.refl s) t h).upholds
  | getCapabilities => exact (execGetCapabilities_keeps (.refl s) t h).upholds
  | negotiateAlgorithms => exact (execNegotiateAlgorithms_keeps (.refl s) t h).upholds
  | getDigests => exact (execGetDigests_keeps (.refl s) t h).upholds
  | getCertificate => exact (execGetCertificate_keeps (.refl s) t h).upholds
  | challenge => exact (execChallenge_keeps (.refl s) t h).upholds
  | getMeasurements => exact (execGetMeasurements_keeps (.refl s) t h).upholds
  | keyExchange => exact (execKeyExchange_keeps (.refl s) t h).upholds
  | finish => exact (execFinish_keeps (.refl s) t h).upholds
  | endSession => exact (execEndSession_keeps (.refl s) t h).upholds
  | getTid => exact (execGetTid_keeps (.refl s) t h).upholds
  | setTid => exact (execSetTid_keeps (.refl s) t h).upholds
  | getPldmVersion => exact (execGetPldmVersion_keeps (.refl s) t h).upholds
  | getPldmTypes => exact (execGetPldmTypes_keeps (.refl s) t h).upholds
  | getPldmCommands => exact (execGetPldmCommands_keeps (.refl s) t h).upholds
  | setEventReceiver => exact (execSetEventReceiver_keeps (.refl s) t h).upholds
  | getSensorReading => exact (execGetSensorReading_keeps (.refl s) t h).upholds
  | getStateSensorReadings => exact (execGetStateSensorReadings_keeps (.refl s) t h).upholds
  | getSensorThresholds => exact (execGetSensorThresholds_keeps (.refl s) t h).upholds
  | getPdrRepositoryInfo => exact (execGetPdrRepositoryInfo_keeps (.refl s) t h).upholds
  | getPdr => exact (execGetPdr_keeps (.refl s) t h).upholds
  | pldmUnsupported => exact (execPldmUnsupported_keeps (.refl s) t h).upholds
  | platformEventResend => exact (execPlatformEventResend_keeps (.refl s) t h).upholds
  | healthEvaluate => exact (execHealthEvaluate_keeps (.refl s) t h).upholds
  | panelIntervalEnd => exact (execPanelIntervalEnd_keeps (.refl s) t h).upholds
  | panelClearingWaveform => exact (execPanelClearingWaveform_keeps (.refl s) t h).upholds
  | panelUpdateStart => exact (execPanelUpdateStart_keeps (.refl s) t h).upholds
  | panelBandHatched => exact (execPanelBandHatched_keeps (.refl s) t h).upholds
  | panelFullRefreshDone => exact (execPanelFullRefreshDone_keeps (.refl s) t h).upholds
  | panelBandWhite => exact (execPanelBandWhite_keeps (.refl s) t h).upholds
  | powerFailComparator => exact (execPowerFailComparator_keeps (.refl s) t h).upholds
  | comparatorDeassert => exact (execComparatorDeassert_keeps (.refl s) t h).upholds
  | pgmReq => exact execPgmReq_upholds h
  | unsupportedAccess => exact (execUnsupportedAccess_keeps (.refl s) t h).upholds
  | registerWrite => exact (execRegisterWrite_keeps (.refl s) t h).upholds
  | ideKm => exact (execIdeKm_keeps (.refl s) t h).upholds
  | thermalHoldRelease => exact execThermalHoldRelease_upholds h
  | panelHoldUpFail => exact (execPanelHoldUpFail_keeps (.refl s) t h).upholds
  | vddIoInTolerance => exact execVddIoInTolerance_upholds h
  | flumeRaceClockGate => exact (execFlumeRaceClockGate_keeps (.refl s) t h).upholds
  | cxlReceiverError => exact (execCxlReceiverError_keeps (.refl s) t h).upholds
  | cxlLinkRecovery => exact (execCxlLinkRecovery_keeps (.refl s) t h).upholds
  | relockFail => exact (execRelockFail_keeps (.refl s) t h).upholds
  | departedWriteEntryAge => exact (execDepartedWriteEntryAge_keeps (.refl s) t h).upholds

theorem step_upholds {s t : State} (h : step s = .next t) : Upholds s t := by
  unfold step at h
  split at h
  · rename_i rest _
    exact Upholds.trans (t := { s with pending := rest }) ⟨id, id⟩ (exec_upholds h)
  · rw [← Host.Outcome.next.inj h]
    exact (Keeps.refl s).tickNs.upholds

/-- Settles O57: every row keeps the registers that the order reads, or takes the power-up to its next step. -/
theorem powerUpOrderHoldsForEver : Obligations.PowerUpOrderHoldsForEver :=
  fun _ _ ho h => (step_upholds h).order ho

/-- Settles O58: every write of DRAM and of the bays goes through an operation of the memory, and each of them keeps its form. -/
theorem memoryStaysCanonical : Obligations.MemoryStaysCanonical :=
  fun _ _ hm h => (step_upholds h).mem hm

end Sys2Proof.Machine
end

section
/-! O39: the Flumes and the Races grant. -/
namespace Sys2Proof.Machine

/-! ### A choice among the waiting -/

theorem pickFrom_singleton {α : Type} (x : α) (pick : Nat) : pickFrom [x] pick = some x := by
  simp [pickFrom, Nat.mod_one]

/-- R165: a request that waits alone is granted, whatever its weight. -/
theorem Arb.choose_alone (y : Ask) (pick : Nat) : ∃ a, ({} : Arb).choose [y] pick = some (0, a) := by
  unfold Arb.choose
  by_cases hw : 0 < y.wt
  · simp [pickFrom_singleton, hw, Tab.getD, Tab.find, List.findIdx_cons]
  · simp [pickFrom_singleton, hw, Tab.getD, Tab.find, List.findIdx_cons]

/-- A fold that keeps what it has or takes the element at hand ends with one of the list. -/
theorem mem_of_foldl_eq_some {α : Type} {f : Option α → α → Option α} (hf : ∀ {a m x}, f a m = some x → a = some x ∨ x = m)
    {l : List α} {a : Option α} {x : α} (h : l.foldl f a = some x) : a = some x ∨ x ∈ l := by
  induction l generalizing a with
  | nil => exact .inl h
  | cons m l ih =>
    rcases ih h with h | h
    · rcases hf h with h | rfl
      · exact .inl h
      · exact .inr (List.mem_cons_self ..)
    · exact .inr (List.mem_cons_of_mem _ h)

theorem foldl_min_le {α : Type} (f : α → Nat) (l : List α) (a : Nat) :
    l.foldl (fun b x => min b (f x)) a ≤ a ∧ ∀ x ∈ l, l.foldl (fun b x => min b (f x)) a ≤ f x := by
  induction l generalizing a with
  | nil => exact ⟨Nat.le_refl a, fun _ h => absurd h List.not_mem_nil⟩
  | cons y l ih =>
    obtain ⟨h1, h2⟩ := ih (min a (f y))
    refine ⟨h1.trans (Nat.min_le_left ..), fun x hx => ?_⟩
    rcases List.mem_cons.1 hx with rfl | hx
    · exact h1.trans (Nat.min_le_right ..)
    · exact h2 x hx

theorem raceTop_le {ms : List RaceMsg} {k : RaceMsg} (hk : k ∈ ms) : raceTop ms ≤ k.cls := (foldl_min_le RaceMsg.cls ms 5).2 k hk

/-! ### The Race's choice -/

/-- R407: while no class has been passed over too often, the choice is a waiting message of the highest class at hand. -/
theorem Race.choose_mem {r r1 : Race} {out : Nat} {ms : List RaceMsg} {m : RaceMsg} (hr : ∀ c, r.higher.getD (out * 8 + c) 0 < 16)
    (h : r.choose out ms = some (m, r1)) : m ∈ ms ∧ m.cls = raceTop ms := by
  unfold Race.choose at h
  have hf : (ms.find? fun m => decide (16 ≤ r.higher.getD (out * 8 + m.cls) 0)) = none := by
    simp only [List.find?_eq_none, decide_eq_true_eq]
    exact fun m _ => Nat.not_le.2 (hr m.cls)
  simp only [hf] at h
  split at h
  · rename_i e
    cases h
    have hm := (mem_of_foldl_eq_some (fun {a m x} e => by
      cases a with
      | none => exact .inr (Option.some.inj e).symm
      | some b =>
        simp only at e
        split at e
        · exact .inr (Option.some.inj e).symm
        · exact .inl e) e).resolve_left nofun
    rw [List.mem_filter, decide_eq_true_eq] at hm
    exact hm
  · cases h

/-- A message that is the only one to wait is chosen, and waits on until it is taken from the list. -/
theorem Race.choose_alone (out : Nat) {m : RaceMsg} (hm : m.cls < 5) :
    ∃ r1, ({ waiting := [m] } : Race).choose out [m] = some (m, r1) ∧ r1.waiting = [m] := by
  have ht : raceTop [m] = m.cls := by simp [raceTop]; omega
  simp [Race.choose, Race.granted, ht, Tab.getD, Tab.find]

/-! ### The obligation -/

theorem flumeRunGrant_alone (s : State) (die pick : Nat) (g : FlumeRun) (hr : (s.flumeOf die).run = none) (hw : (s.flumeOf die).waiting = [g])
    (ha : (s.flumeOf die).arb = {}) (hl : s.runAlive g = true) :
    ∃ t a, exec (.flumeRunGrant die pick) s = .next t
      ∧ t = (s.dieClockOn die).setFlume die { s.flumeOf die with run := some g, waiting := [], arb := a } := by
  obtain ⟨a, h⟩ := Arb.choose_alone (s.ask g.vd) pick
  refine ⟨_, a, ?_, rfl⟩
  show execFlumeRunGrant die pick s = _
  cases hb : s.runBegun g <;> simp [execFlumeRunGrant, hr, hw, ha, hl, hb, h]

theorem flumeRunEnd_of_done (s : State) (die wait : Nat) (g : FlumeRun) (hr : (s.flumeOf die).run = some g) (h0 : 0 < g.periods)
    (ht : g.total ≤ g.periods) :
    exec (.flumeRunEnd die wait) s
      = .next ((s.setFlume die { s.flumeOf die with run := none, runs := (s.flumeOf die).runs + 1 }).gaugeEvent 0x31 die none g.slips) := by
  show execFlumeRunEnd die s wait = _
  simp [execFlumeRunEnd, hr, h0, ht, State.runOver]

theorem raceGrant_alone (s : State) (race out : Nat) (m : RaceMsg) (hr : s.races.getD race {} = {}) (hd : 8 ≤ race ∨ (s.die race).st = .active)
    (ho : s.racePort race out = true) (hi : s.racePort race m.inp = true) (hc : m.carried race = true) (hm : m.cls < 5) (hout : m.out = out) :
    ∃ (t : State) (r1 : Race), exec (.raceGrant race out [m]) s = .next t ∧ t = (s.dieClockOn race).setRace race { r1 with waiting := [] } := by
  subst hout
  obtain ⟨r1, h, hw⟩ := Race.choose_alone m.out hm
  have hoff : ¬ ((race < 8 ∧ (s.die race).st ≠ .active) ∨ ¬ s.racePort race m.out) := by
    rw [ho]
    rintro (⟨hlt, hst⟩ | hn)
    · exact hd.elim (fun h8 => absurd hlt (Nat.not_lt.2 h8)) hst
    · exact hn rfl
  refine ⟨_, r1, ?_, rfl⟩
  show execRaceGrant race m.out [m] s = _
  have hu (c : Nat) : ({} : Race).used.getD c 0 = 0 := rfl
  rw [execRaceGrant, if_neg hoff, hr]
  simp only [Race.returned, List.foldl_nil, List.map_cons, List.map_nil, List.filter_cons, List.filter_nil, hi, hc, Bool.and_self, if_true,
    List.nil_append, hu, Nat.succ_pos, decide_true, h, hw, List.erase_cons_head]

/-- Settles O39, a case for each command and one for the choice of a Race among the waiting. -/
theorem flumesAndRacesGrantInOrder : Obligations.FlumesAndRacesGrantInOrder := by
  refine ⟨flumeRunGrant_alone, ?period, flumeRunEnd_of_done, raceGrant_alone, ?_⟩
  case period =>
    intro s s1 die wait slips g c fr hr hc hf hs hb h
    show execFlumePeriodStart die wait slips s = _
    rcases h with ⟨hg, hall, rfl⟩ | ⟨hg, hne, hany, rfl⟩
    · simp only [execFlumePeriodStart, hr, hc, hf, State.runReady, hs, hb, hg, hall]
      rfl
    · simp [execFlumePeriodStart, hr, hc, hf, State.runReady, hs, hb, hg, hany, hne]
  · intro r r1 out ms m hr h
    obtain ⟨hm, ht⟩ := Race.choose_mem hr h
    exact ⟨hm, fun k hk => ht ▸ raceTop_le hk⟩

end Sys2Proof.Machine
end

section
/-! The machine at reset, power, cold resets and the steps of Table 03-8 (O56, O5, O1, O2, O3). -/
namespace Sys2Proof.Machine

/-- Settles O56: the reset state is a closed term. -/
theorem resetMeetsTheInvariants : Obligations.ResetMeetsTheInvariants := by
  refine ⟨?_, ⟨rfl, rfl⟩, rfl, rfl, rfl, rfl, rfl, rfl, rfl, rfl⟩
  unfold State.BootOrder
  decide

/-- Settles O5: each row writes one field of the board, and the sense pins one of the panel. -/
theorem boardAndCardPinsAreRecorded : Obligations.BoardAndCardPinsAreRecorded := by
  refine ⟨fun _ => rfl, fun s a b hp => ?_, fun s c l hc => ⟨if_pos hc, if_pos hc, if_pos hc⟩⟩
  show execCardPowerSense a b s = _
  simp only [execCardPowerSense, hp, Bool.not_false, if_true]
  cases a <;> cases b <;> rfl

theorem State.running_iff {s : State} : s.running = true ↔ s.board.pwrOk = true ∧ 1 ≤ s.boot.step := by
  simp only [State.running, Bool.and_eq_true, decide_eq_true_eq]

/-- Settles O1: each of these triggers answers the blank state, from which its own effect differs in the board and the boot only. -/
theorem resetsKeepOnlyFusesStrapsAndBoard : Obligations.ResetsKeepOnlyFusesStrapsAndBoard := by
  refine ⟨fun s st f hp hv hq hc => ?on, fun s hp => if_pos hp, fun s hp h1 => if_pos (State.running_iff.2 ⟨hp, h1⟩), fun s hp => ?pgm,
    fun _ => rfl⟩
  case on =>
    have hm : ({ s with straps := st, fuses := f } : State).mayPower = true := by
      rcases hc with hc | hc <;> simp [State.mayPower, hv, hq, hc]
    exact if_neg (by rw [hp, hm]; decide)
  case pgm => exact if_pos (by rw [hp]; rfl)

/-! ### The hold of R81 -/

theorem State.bootDraw_eq (s : State) : s.bootDraw = { s with panel := s.bootDraw.panel } := by
  unfold State.bootDraw
  split <;> rfl

theorem powerStep_of_ne {s : State} {k : Nat} {f : State → State} (h : s.boot.step ≠ k) : s.powerStep k f = .next s :=
  if_neg fun e => h e.2

theorem powerStep_of_eq {s : State} {k : Nat} {f : State → State} (hp : s.board.pwrOk = true) (h : s.boot.step = k) :
    s.powerStep k f = .next (f { s with boot := { s.boot with step := k + 1 } }) := if_pos ⟨hp, h⟩

/-- Settles O2: the trip is a cold reset into the hold, and step 0 is the start of no row of Table 03-8. -/
theorem junctionTripHoldsTheDeviceInReset : Obligations.JunctionTripHoldsTheDeviceInReset := by
  refine ⟨fun s temp hp h1 ht => ?trip, fun s temp ht => ?hot, fun s temp hp hh ht => if_pos ⟨hp, hh, ht⟩, fun s h0 => ?held⟩
  case trip =>
    refine ⟨_, if_pos ⟨State.running_iff.2 ⟨hp, h1⟩, ht⟩, ?_, ?_⟩
    · rw [State.bootDraw_eq]
      rfl
    · rw [State.bootDraw_boot]
      rfl
  case hot => exact if_neg fun h => absurd h.2.2 (Nat.not_lt.2 ht)
  case held =>
    have hstep {k : Nat} (hk : k ≠ 0) (f : State → State) : s.powerStep k f = .next s := powerStep_of_ne fun e => hk (e.symm.trans h0)
    refine ⟨show execMgmtIslandStart s = _ from hstep Nat.one_ne_zero _, show execQuietClockLock s = _ from hstep (Nat.succ_ne_zero 1) _,
      show execDiscoveryStart s = _ from hstep (Nat.succ_ne_zero 3) _,
      fun a b c d e => show execSfdpParse a b c d e s = _ from hstep (Nat.succ_ne_zero 2) _, fun hq => ?_⟩
    simp only [step, hq, State.tickNs, h0, if_pos (show 0 < 3 by decide)]

/-! ### What a record changes -/

theorem State.logWrite_eq (s : State) (r : Rec) : ∃ f p, s.logWrite r = { s with flt := f, panel := p } := by
  unfold State.logWrite State.panelAsk
  extract_lets
  split
  · split <;> exact ⟨_, _, rfl⟩
  · exact ⟨_, _, rfl⟩

/-- R527: a record changes the logs, and the panel that shows its code. -/
theorem State.post_eq (s : State) (r : Rec) : ∃ f p, s.post r = { s with flt := f, panel := p } := by
  unfold State.post
  extract_lets r1 same _ s1
  obtain ⟨f, p, h⟩ := s.logWrite_eq r1
  split
  · split
    · exact ⟨_, _, rfl⟩
    · have h1 : s1 = { s with flt := f, panel := p } := h
      rw [h1]
      exact ⟨_, _, rfl⟩
  · exact ⟨f, p, h⟩

/-! ### The steps of Table 03-8 -/

/-- R104: a slot that is rejected has its code; nothing else of the boot changes. -/
theorem State.rejectSlot_eq (s : State) (n : Nat) (b : Bad) : ∃ f p, s.rejectSlot n b
    = { s.modBootSlot n fun x => { x with code := b.code, sound := false } with flt := f, panel := p } := State.post_eq _ _

theorem State.slot_modBootSlot (s : State) {n m : Nat} {f : Slot → Slot} (h : f (s.slot n) ≠ {}) :
    (s.modBootSlot n f).slot m = if m = n then f (s.slot n) else s.slot m := by
  show Tab.getD (Tab.setD s.boot.slots n {} (f (s.slot n))) m {} = _
  rw [Tab.setD, if_neg h]
  split
  · subst m
    simp [Tab.getD, Tab.find_put_same]
  · simp only [Tab.getD, Tab.find_put_other _ _ ‹_›]
    rfl

/-- R83: a slot of a flash that fails a check. -/
def State.slotBad (s : State) (n : Nat) : State := (s.modBootSlot n fun x => { x with staged := true }).rejectSlot n { code := 0x0601 }

theorem State.slotBad_eq (s : State) (n : Nat) : ∃ t f p, s.slotBad n = { s with boot := { s.boot with slots := t }, flt := f, panel := p }
    ∧ (t.getD n {}).code = 0x0601 ∧ ∀ m, m ≠ n → t.getD m {} = s.slot m := by
  obtain ⟨f, p, h⟩ := (s.modBootSlot n fun x => { x with staged := true }).rejectSlot_eq n { code := 0x0601 }
  have hread (m : Nat) : ((s.modBootSlot n fun x => { x with staged := true }).modBootSlot n fun x => { x with code := 0x0601, sound := false }).slot m
      = if m = n then { s.slot n with staged := true, code := 0x0601, sound := false } else s.slot m := by
    have hcode (x : Slot) : ({ x with code := 0x0601, sound := false } : Slot) ≠ {} := by
      intro e
      have h0 : (0x0601 : Nat) = 0 := congrArg Slot.code e
      exact absurd h0 (by decide)
    have hstaged (x : Slot) : ({ x with staged := true } : Slot) ≠ {} := fun e => Bool.noConfusion (congrArg Slot.staged e)
    rw [State.slot_modBootSlot _ (hcode _), State.slot_modBootSlot s (hstaged _), State.slot_modBootSlot s (hstaged _), if_pos rfl]
    split <;> rfl
  refine ⟨_, f, p, h, ?_, fun m hm => (hread m).trans (if_neg hm)⟩
  exact congrArg Slot.code ((hread n).trans (if_pos rfl))

/-- R83: every slot of a flash that fails a check has its code, and nothing else of the boot changes. -/
theorem State.slotsBad_eq (s : State) : ∃ t f p, (List.range 3).foldl State.slotBad s
    = { s with boot := { s.boot with slots := t }, flt := f, panel := p } ∧ ∀ n < 3, (t.getD n {}).code = 0x0601 := by
  obtain ⟨t0, f0, p0, h0, hc0, -⟩ := s.slotBad_eq 0
  obtain ⟨t1, f1, p1, h1, hc1, ho1⟩ := (s.slotBad 0).slotBad_eq 1
  obtain ⟨t2, f2, p2, h2, hc2, ho2⟩ := ((s.slotBad 0).slotBad 1).slotBad_eq 2
  refine ⟨t2, f2, p2, ?_, fun n hn => ?_⟩
  · show ((s.slotBad 0).slotBad 1).slotBad 2 = _
    rw [h2, h1, h0]
  · have e1 : t2.getD 1 {} = t1.getD 1 {} := (ho2 1 (by decide)).trans (by rw [h1]; rfl)
    have e0 : t2.getD 0 {} = t1.getD 0 {} := (ho2 0 (by decide)).trans (by rw [h1]; rfl)
    have e00 : t1.getD 0 {} = t0.getD 0 {} := (ho1 0 (by decide)).trans (by rw [h0]; rfl)
    match n, hn with
    | 0, _ => rw [e0, e00, hc0]
    | 1, _ => rw [e1, hc1]
    | 2, _ => exact hc2

/-- R85: with the inventory not yet fixed. -/
theorem State.noImage_eq {s : State} (h : s.boot.step ≠ 7) : ∃ ports p, s.noImage
    = { s with boot := { s.boot with noImage := true, done := true, neverActive := true, flashOwn := false }, ports := ports, panel := p } := by
  unfold State.noImage
  extract_lets _ s1 s2
  have h2 : s2 = s1 := if_neg h
  rw [State.bootDraw_eq, h2]
  exact ⟨_, _, rfl⟩

/-- A flash that fails a check of R83 ends in the state without an image. -/
theorem exec_sfdpParse_bad {s : State} {a b c : Bool} (hp : s.board.pwrOk = true) (h3 : s.boot.step = 3) (hb : (a && b && c) = false)
    (octal quad : Bool) : exec (.sfdpParse a b c octal quad) s
      = .next ((List.range 3).foldl State.slotBad { s with boot := { s.boot with step := 4 } }).noImage := by
  show execSfdpParse a b c octal quad s = _
  refine (powerStep_of_eq hp h3).trans (congrArg Host.Outcome.next ?_)
  rw [if_neg (by rw [hb]; decide)]
  rfl

/-- The dies as the inventory fixes them: what has not passed step 7 by the limit has failed the step it is at. -/
theorem State.diesFixed_eq (s : State) : s.diesFixed = { s with
    boot := { s.boot with step := 7 }
    dies := s.dies.map fun e => (e.1, if e.2.fail.isNone && decide (e.2.step < 7)
      then { e.2 with fail := some (stepFailure (e.2.step + 1)), st := stepFailure (e.2.step + 1) }
      else { e.2 with st := e.2.fail.getD .active }) } := by
  have hd : (s.deadline 7).dies.mapVal (fun _ x => { x with st := x.fail.getD .active })
      = s.dies.map fun e => (e.1, if e.2.fail.isNone && decide (e.2.step < 7)
        then { e.2 with fail := some (stepFailure (e.2.step + 1)), st := stepFailure (e.2.step + 1) }
        else { e.2 with st := e.2.fail.getD .active }) := by
    simp only [State.deadline, Tab.mapVal, List.map_map]
    refine List.map_congr_left fun e _ => ?_
    simp only [Function.comp_apply]
    split <;> rfl
  unfold State.diesFixed
  rw [hd]
  rfl

/-- R49: the common block of a die that is not ACTIVE stays on behind an open SIB. -/
theorem State.mem_holdCom {s : State} {d : Nat} (hd : d < 8) (hb : bit s.jtag.sibs d = true) (hs : (s.die d).st ≠ .active) :
    d ∈ s.holdCom.power.testCom := by
  refine List.mem_append.2 (if h : d ∈ s.power.testCom then .inl h else .inr ?_)
  simp [bitsOf, hd, hb, hs, h]

theorem State.holdCom_of_closed {s : State} (h : s.jtag.sibs = 0) : s.holdCom.power = s.power := by
  simp [State.holdCom, h, bitsOf, bit]

/-- Settles O3: a lemma for each step that does more than count, and the equation of the inventory. -/
theorem powerUpStepsRunInOrder : Obligations.PowerUpStepsRunInOrder := by
  refine ⟨fun s hp h => show execMgmtIslandStart s = _ from powerStep_of_eq hp h,
    fun s hp h => show execQuietClockLock s = _ from powerStep_of_eq hp h,
    fun s o q hp h => show execSfdpParse true true true o q s = _ from powerStep_of_eq hp h, fun s a b c o q hp h3 hb => ?bad,
    fun s hp h => show execDiscoveryStart s = _ from powerStep_of_eq hp h, fun s hp h5 hn hw => ?fixed⟩
  case bad =>
    obtain ⟨t, f, p, ht, hc⟩ := State.slotsBad_eq { s with boot := { s.boot with step := 4 } }
    obtain ⟨ports, p', hi⟩ := State.noImage_eq (s := (List.range 3).foldl State.slotBad { s with boot := { s.boot with step := 4 } })
      (by rw [ht]; exact show (4 : Nat) ≠ 7 by decide)
    refine ⟨_, exec_sfdpParse_bad hp h3 hb o q, ?_⟩
    rw [hi, ht]
    exact ⟨rfl, rfl, rfl, hc 0 (by decide), hc 1 (by decide), hc 2 (by decide), rfl⟩
  case fixed =>
    refine ⟨s.diesFixed.holdCom, ?_, ?_, fun h => State.holdCom_of_closed h, fun d hd hb hs => State.mem_holdCom hd hb hs⟩
    · rw [exec_inventoryFix hp h5, hn, hw]
      rfl
    · exact congrArg (fun u : State => { u with power := { s.power with testCom := s.diesFixed.holdCom.power.testCom } }) s.diesFixed_eq

end Sys2Proof.Machine
end

section
/-! The clock monitor (O8). -/
namespace Sys2Proof.Machine

section
variable {s : State} {r pick : Nat}

/-- A record that the panel does not show changes the logs alone. -/
theorem State.post_of_noPanel (s : State) {e : Rec} (h : e.panelCode = none) : ∃ f, s.post e = { s with flt := f } := by
  have hw (e' : Rec) (h' : e'.panelCode = none) : ∃ f, s.logWrite e' = { s with flt := f } := by
    unfold State.logWrite
    rw [h']
    exact ⟨_, rfl⟩
  unfold State.post
  extract_lets e' same _ s1
  obtain ⟨f, hf⟩ : ∃ f, s1 = { s with flt := f } := hw e' h
  split
  · split
    · exact ⟨_, rfl⟩
    · rw [hf]
      exact ⟨_, rfl⟩
  · exact ⟨f, hf⟩

theorem State.portLost_of_down (h1 : (s.port r).link ≠ 1) (h2 : (s.port r).link ≠ 2) : s.portLost r pick = s := by
  unfold State.portLost
  split
  · exact absurd ‹_› h2
  · exact absurd ‹_› h1
  · rfl

theorem State.portLost_of_training (h : (s.port r).link = 1) : s.portLost r pick = s.modPort r fun x => { x with link := 0 } := by
  simp only [State.portLost, h]

theorem RefMon.ne_default {m : RefMon} (h : m.out = true) : m ≠ {} := by
  rintro rfl
  cases h

/-- R57, R58: an anchor is lost to the main PLL, which goes into holdover, when the quiet clock is good and its port stays as it is. -/
theorem State.refLost_anchor (ha : s.anchor = some r) (hs : s.clk.source ≠ 3) (hq : s.clk.quietBad = false)
    (hp : 2 ≤ (s.port r).refMode ∨ ((s.port r).link ≠ 1 ∧ (s.port r).link ≠ 2)) : s.refLost r pick = { s with clk := { s.clk with
      source := 1, lossCnt := s.clk.lossCnt + 1, refs := s.clk.refs.setD r {} { s.refMon r with valid := false, counting := false } } } := by
  have hlost : s.refLost r pick = if (s.port r).refMode ≤ 1 then State.portLost { s with clk := { s.clk with
      source := 1, lossCnt := s.clk.lossCnt + 1, refs := s.clk.refs.setD r {} { s.refMon r with valid := false, counting := false } } } r pick
      else { s with clk := { s.clk with
        source := 1, lossCnt := s.clk.lossCnt + 1, refs := s.clk.refs.setD r {} { s.refMon r with valid := false, counting := false } } } := by
    simp only [State.refLost, State.setRef, State.port, ha, hs, hq, if_true, if_false, Bool.false_eq_true]
  rw [hlost]
  split
  · rename_i hm
    rcases hp with hp | ⟨h1, h2⟩
    · exact absurd hm (Nat.not_le.2 hp)
    · exact State.portLost_of_down h1 h2
  · rfl

/-- A port that trains on a reference that is lost goes back to Detect. -/
theorem State.refLost_training (ha : s.anchor ≠ some r) (hm : (s.port r).refMode ≤ 1) (hl : (s.port r).link = 1) : s.refLost r pick = { s with
      ports := s.ports.setD r {} { s.port r with link := 0 }
      clk := { s.clk with refs := s.clk.refs.setD r {} { s.refMon r with valid := false, counting := false } } } := by
  have hl' : ((s.setRef r { s.refMon r with valid := false, counting := false }).port r).link = 1 := hl
  have hm' : ((s.setRef r { s.refMon r with valid := false, counting := false }).port r).refMode ≤ 1 := hm
  simp only [State.refLost, if_neg ha, if_pos hm', State.portLost_of_training hl']
  rfl

end

/-- Settles O8: a loss goes through `State.refLost`, and the other rows write the monitor's registers alone. -/
theorem clockMonitorFollowsTheReferences : Obligations.ClockMonitorFollowsTheReferences := by
  refine ⟨fun s r ns hm hn ha => ?glitch, fun s r pick hm hv ha hs hq hp => ?anchor, fun s r pick hm hv ha hf hl => ?training,
    fun s r hz pick hm hb => ?inBand, fun s r hz pick hm hb ho => ?outOnce, fun s r hz pick hm hb ho hv ha hs hq hf => ?outTwice,
    fun s r hm hv ho ha hs => ?back, fun s pick hm hq hs => ?quiet⟩
  case glitch => exact ⟨_, if_pos (by simp [hm, hn, ha]), rfl⟩
  case anchor => exact (if_pos (by simp [hm, hv])).trans (congrArg Host.Outcome.next (State.refLost_anchor ha hs hq hp))
  case training => exact (if_pos (by simp [hm, hv])).trans (congrArg Host.Outcome.next (State.refLost_training ha hf hl))
  case inBand => exact (if_neg (by simp [hm])).trans (if_pos hb)
  case outOnce => exact (if_neg (by simp [hm])).trans ((if_neg (by simp [hb])).trans (if_neg (by simp [ho])))
  case outTwice =>
    refine ⟨_, (if_neg (by simp [hm])).trans ((if_neg (by simp [hb])).trans (if_pos (by simp [ho, hv]))), ?_⟩
    have hs' : (s.setRef r { s.refMon r with out := true, counting := false }).clk.source ≠ 3 := fun e => by
      rw [show s.clk.source = 3 from e] at hs
      cases hs
    rw [State.refLost_anchor (s := s.setRef r { s.refMon r with out := true, counting := false }) ha hs' hq (.inl hf)]
    refine ⟨rfl, ?_, rfl, rfl⟩
    have hr : (s.setRef r { s.refMon r with out := true, counting := false }).refMon r = { s.refMon r with out := true, counting := false } :=
      Tab.getD_setD_self_of_ne _ _ (RefMon.ne_default rfl)
    rw [hr]
    have hne : ({ s.refMon r with valid := false, out := true, counting := false } : RefMon) ≠ {} := RefMon.ne_default rfl
    exact congrArg RefMon.valid (Tab.getD_setD_self_of_ne _ _ hne)
  case back => exact (if_pos (by simp [hm, hv, ho])).trans (if_pos ⟨ha, hs⟩)
  case quiet =>
    obtain ⟨f, hf⟩ := State.post_of_noPanel { s with clk := { s.clk with quietFail := true, quietBad := true } }
      (e := { cls := .correctable, code := 5 }) (by decide)
    refine ⟨_, (if_neg (by simp [hm, hq])).trans (if_pos hs), ?_⟩
    rw [hf]

end Sys2Proof.Machine
end

section
/-! Idle blocks gate and wake (O9). -/
namespace Sys2Proof.Machine

/-- R75: a choice that the policy allows is the interval. -/
theorem gateBound_of_le {s : State} {choice bound : Nat} (h : bound ≤ choice) : s.gateBound choice bound = (choice, s) :=
  if_neg (Nat.not_lt.2 h)

theorem State.sliceIdle_miss {s : State} {n : Nat} (h : s.sliceIdle n = true) : (s.slice n).miss = [] := by
  simp only [State.sliceIdle, Bool.and_eq_true, List.isEmpty_iff] at h
  exact h.1.1.2

/-- Settles O9: each row's test holds, and its effect is the one stated. -/
theorem idleBlocksGateThemselves : Obligations.IdleBlocksGateThemselves := by
  refine ⟨fun s n hon hg hi => ?clock, fun s n choice idle hon hg hi hb hk hc ht hf => ?gate, fun s n choice idle hon hg hi hb hk hc ht => ?early,
    fun s n choice idle hon hg hi hb hk hc ht => ?raised, fun s n pick hg hr hq => ?wake, fun s n hon ht hr => ?runner,
    fun s d choice idle ha hi hr hc ht => ?stack, fun s d ha hr hw hq hg => ?flume⟩
  case clock => exact if_pos (by simp [hon, hg, hi])
  case gate =>
    rw [exec_slicePowerGate hon hg hi hb hk (gateBound_of_le hc), if_neg (Nat.not_lt.2 ht), hf]
    exact if_pos (by simp [State.sliceIdle_miss hi])
  case early => rw [exec_slicePowerGate hon hg hi hb hk (gateBound_of_le hc), if_pos ht]
  case raised => rw [exec_slicePowerGate hon hg hi hb hk (if_pos hc), if_pos ht]; rfl
  case wake =>
    show Host.Outcome.next (s.wakeSlice n pick) = _
    rw [State.wakeSlice, if_neg (by simp [hg, hr]), hq]
    rfl
  case runner =>
    show execRunnerGate n s = _
    rw [execRunnerGate, if_pos (by rw [hon, ht, hr]; rfl)]
  case stack => rw [exec_stackSelfRefresh ha hi hr (gateBound_of_le hc), if_neg (Nat.not_lt.2 ht)]
  case flume =>
    show execFlumeRaceClockGate d s = _
    simp only [execFlumeRaceClockGate, ha, hr, hw, hq, hg]
    rfl

end Sys2Proof.Machine
end

section
/-! The refutation of O7: what a row's repair asks to move is wanted through a warm reset too. -/
namespace Sys2Proof.Machine

/-- A device at power-up step 7 in which a row's repair has asked for the move of a page. -/
def rowMoveWanted : State :=
  { board := { pwrOk := true }, boot := { step := 7 }, slu := { wanted := [{ vd := 0, page := 0, dev := 0, by_ := .row }] } }

/-- Refutes O7: its third clause keeps the moves asked for by a retirement alone, and `State.startWarm` also keeps those that a row's repair
asks for, as the one of `rowMoveWanted`. -/
theorem not_warmResetKeepsMemoryAndReappliesTheImage : ¬ Obligations.WarmResetKeepsMemoryAndReappliesTheImage := by
  rintro ⟨-, -, h, -⟩
  obtain ⟨t, ht, hw⟩ := h rowMoveWanted (by decide) rfl (by decide) rfl
  have hdrop : t.slu.wanted = [] := (congrArg (fun u : State => u.slu.wanted) hw).trans (by decide)
  have hkeep : (match exec .warmRstNAssert rowMoveWanted with
      | .next u => decide (u.slu.wanted.length = 1)
      | _ => false) = true := by decide +kernel
  rw [ht] at hkeep
  simp [hdrop] at hkeep

end Sys2Proof.Machine
end

section
/-! Policy writes in range (O15). -/
namespace Sys2Proof.Machine

theorem PolicyQ.refill_of_none_held {q : PolicyQ} (h : q.held = []) : q.refill = q := by
  obtain ⟨⟩ := q
  simp only at h
  subst h
  simp [PolicyQ.refill]

/-- The moves that a policy write ends leave the boot's registers, and so what is held, as they are. -/
theorem State.abandonMoves_boot (s : State) (f : MoveReq → Bool) : (s.abandonMoves f).boot = s.boot :=
  (Keeps.refl (κ := true) s).abandonMoves.boot rfl

theorem State.keepAwake_of_awake {s : State} (pick : Nat) (h : ∀ n, bit s.pol.keepAwake n = true → s.gateSt n = 0) : s.keepAwake pick = s := by
  have hf : (s.inv.slices.filter fun n => bit s.pol.keepAwake n && decide (s.gateSt n ≠ 0)) = [] := by
    simp only [List.filter_eq_nil_iff, Bool.and_eq_true, decide_eq_true_eq]
    exact fun n _ hn => hn.2 (h n hn.1)
  rw [State.keepAwake, hf]
  rfl

theorem State.recheck_of_no_meters {s : State} (k : Nat) (hm : s.flt.meters = []) (hr : s.flt.rows = []) : s.recheck k = s := by
  simp [State.recheck, hm, hr]

section
variable {s t : State} {w : PolWrite} {ws : List PolWrite}
  (hq : s.polq.queue = w :: ws) (hh : s.polq.held = []) (hc : s.polq.cur = none) (ho : s.polOpen = true) (hb : s.boot.held = [])
  (hr : s.polInRange w.reg (s.polValue w) = true)
  (ht : t = { s with pol := s.pol.set w.reg (s.polValue w), polq := { s.polq with queue := ws, cur := some w, result := 0 } })
include hq hh hc ho hb hr ht

/-- R112, R115: the row of the write at the head takes it, with what R116 adds to the new value. -/
theorem State.polTake_head {is : PolReg → Bool} {effect : State → PolReg → State} (his : is w.reg = true)
    (he : (effect t w.reg).boot = t.boot) : s.polTake is effect = effect t w.reg := by
  rw [State.polTake_inRange hq hc ho rfl hr his, PolicyQ.refill_of_none_held (q := { s.polq with queue := ws }) hh]
  have hheld : (effect t w.reg).boot.held = [] := by rw [he, ht]; exact hb
  rw [ht] at hheld ⊢
  exact if_pos (.inr hheld)

/-- The rows whose writes have no further effect. -/
theorem State.polTake_plain {is : PolReg → Bool} (his : is w.reg = true) : s.polTake is (fun s _ => s) = t :=
  State.polTake_head hq hh hc ho hb hr ht his rfl

end

/-- R79: the interval in force of every channel keeps to the cap. -/
theorem State.refreshInterval_le (s : State) (c : Nat) : s.refreshInterval c ≤ s.pol.refreshCap * 1000 := by
  unfold State.refreshInterval
  extract_lets i
  have hi : i ≤ s.pol.refreshCap := Nat.min_le_right ..
  split <;> omega

/-- Settles O15: each row takes its write (`State.polTake_head`), and its effect is none but for the rows that R116 names. -/
theorem policyWritesGiveTheirRegisterTheValue : Obligations.PolicyWritesGiveTheirRegisterTheValue := by
  intro s t w ws hq hh hc ho hb hr ht
  have plain {is : PolReg → Bool} (his : is w.reg = true) : s.polTake is (fun s _ => s) = t := State.polTake_plain hq hh hc ho hb hr ht his
  have head {is : PolReg → Bool} (effect : State → PolReg → State) (his : is w.reg = true) (he : (effect t w.reg).boot = t.boot) :
      s.polTake is effect = effect t w.reg := State.polTake_head hq hh hc ho hb hr ht his he
  refine ⟨fun k hk hm hw => ?thresh, fun k hk => ?_, fun hk => ⟨?_, fun c => ?cap⟩, fun hk => ?_, fun hk => ?_, fun pick hk hg => ?awake,
    fun hk => ?_, fun hk => ?_, fun hk => ⟨fun hv => ?on, fun hv => ?off⟩, fun n hk => ?region, fun v hk => ?_, fun v hk => ?_, fun v hk => ?_,
    fun v hk => ?_, fun v hk => ?_⟩
  case thresh =>
    have hno : t.recheck k = t := State.recheck_of_no_meters k (by rw [ht]; exact hm) (by rw [ht]; exact hw)
    refine congrArg Host.Outcome.next ((head _ (by rw [hk]) ?_).trans ?_) <;> rw [hk] <;> simp only [hno]
  case cap =>
    have hcap : t.pol.refreshCap = w.val := by rw [ht]; simp [hk, Policy.set, State.polValue]
    exact hcap ▸ t.refreshInterval_le c
  case awake =>
    have hno : t.keepAwake pick = t := State.keepAwake_of_awake pick (by rw [ht] at hg ⊢; exact hg)
    refine congrArg Host.Outcome.next ((head _ ?_ ?_).trans hno)
    · rcases hk with hk | hk | hk <;> rw [hk]
    · exact congrArg State.boot hno
  case on =>
    have hen : t.pol.fantailEnable = true := by rw [ht]; simp [hk, Policy.set, State.polValue, hv]
    refine congrArg Host.Outcome.next ((head _ (by rw [hk]) ?_).trans ?_) <;> rw [if_pos hen]
  case off =>
    have hen : ¬ t.pol.fantailEnable = true := by rw [ht]; simp [hk, Policy.set, State.polValue, hv]
    refine congrArg Host.Outcome.next ((head _ (by rw [hk]) ?_).trans ?_) <;> rw [if_neg hen]
    exact t.abandonMoves_boot _
  case region => exact congrArg Host.Outcome.next (head _ (by rw [hk]) (t.abandonMoves_boot _))
  all_goals exact congrArg Host.Outcome.next (plain (by rw [hk]))

end Sys2Proof.Machine
end

section
/-! The reset of a VD (R171, R173, R281, R320), of all VDs of a port, and a link that goes down without a host's copy (R152). -/
namespace Sys2Proof.Machine

/-! ### Entries that read back -/

/-- An entry that is written, and does not become the default, changes no other key, whatever the table's form. -/
theorem Tab.getD_setD_other_of_ne {α : Type} [DecidableEq α] (t : Tab α) {m n : Nat} {d x : α} (hx : x ≠ d) (hm : m ≠ n) :
    Tab.getD (Tab.setD t n d x) m d = Tab.getD t m d := by
  rw [Tab.setD, if_neg hx, Tab.getD, Tab.find_put_other t x hm, Tab.getD]

theorem Vd.ne_default_of_resetting {x : Vd} (h : x.st = .resetting) : x ≠ {} := by
  rintro rfl
  cases h

theorem State.vd_setVd_resetting {s : State} {v : Nat} {x : Vd} (h : x.st = .resetting) : (s.setVd v x).vd v = x :=
  Tab.getD_setD_self_of_ne _ _ (Vd.ne_default_of_resetting h)

theorem State.vd_setVd_resetting_other {s : State} {v w : Nat} {x : Vd} (h : x.st = .resetting) (hw : w ≠ v) : (s.setVd v x).vd w = s.vd w :=
  Tab.getD_setD_other_of_ne _ (Vd.ne_default_of_resetting h) hw

/-! ### What the end of an epoch touches -/

/-- `t` is `s` but for the Sluice and what the block sends. -/
def State.SluiceOnly (s t : State) : Prop := t = { s with slu := t.slu, out := t.out }

theorem State.SluiceOnly.trans {s t u : State} (h : s.SluiceOnly t) (h' : t.SluiceOnly u) : s.SluiceOnly u :=
  Eq.trans h' (by rw [h])

theorem State.SluiceOnly.foldl {α : Type} {f : State → α → State} (hf : ∀ (s : State) a, s.SluiceOnly (f s a)) (l : List α) (s : State) :
    s.SluiceOnly (l.foldl f s) := by
  induction l generalizing s with
  | nil => rfl
  | cons a l ih => exact (hf s a).trans (ih _)

theorem State.endGrant_sluiceOnly (s : State) (slot : Nat) : s.SluiceOnly (s.endGrant slot) := by
  unfold State.endGrant
  split
  · rfl
  · refine .trans (t := { s with slu := { s.slu with grants := s.slu.grants.del slot } }) rfl (.foldl (fun s d => ?_) _ _)
    split <;> rfl

theorem State.epochEnds_sluiceOnly (s : State) (v : Nat) : s.SluiceOnly (s.epochEnds v) :=
  .trans (.foldl State.endGrant_sluiceOnly _ _) rfl

/-! ### The reset of one VD -/

/-- Steps 1 and 2 of Table 06-4, as the VD's state shows them. -/
def Vd.restarted (x : Vd) (cause : Nat) : Vd :=
  { x with st := .resetting, epoch := x.epoch + 1, bind := [], oldBind := x.bind, err := {}, trigger := cause, memClr := decide (cause = 5),
           resetStep := 2 }

section
variable {s : State} {v : Nat} (hv : s.vdExists v = true)
include hv

theorem State.vdTrigger_start (h : (s.vd v).st ≠ .resetting) (c : Nat) :
    s.vdTrigger v c = (s.setVd v ((s.vd v).restarted c)).epochEnds v := by
  simp only [State.vdTrigger, hv, Bool.not_true, Bool.false_eq_true, if_false, if_neg h, Vd.restarted]

/-- R173: a trigger that is neither a warm reset nor a Mem Clr adds nothing to a reset under way. -/
theorem State.vdTrigger_resetting (h : (s.vd v).st = .resetting) {c : Nat} (h1 : c ≠ 1) (h5 : c ≠ 5) : s.vdTrigger v c = s := by
  simp only [State.vdTrigger, hv, Bool.not_true, Bool.false_eq_true, if_false, if_pos h, if_neg h1, h5, false_and]

theorem State.vdTrigger_resetting_warm (h : (s.vd v).st = .resetting) : s.vdTrigger v 1 = s.setVd v { s.vd v with trigger := 1 } := by
  simp only [State.vdTrigger, hv, Bool.not_true, Bool.false_eq_true, if_false, if_pos h, if_true]

theorem State.vdTrigger_start_eq (h : (s.vd v).st ≠ .resetting) (c : Nat) :
    ∃ slu out, s.vdTrigger v c = { s with vds := s.vds.setD v {} ((s.vd v).restarted c), slu := slu, out := out } :=
  ⟨_, _, (State.vdTrigger_start hv h c).trans (State.epochEnds_sluiceOnly _ v)⟩

end

/-! ### The reset of a port's VDs -/

/-- `t` is `s` but for the VDs, the Sluice and what the block sends. -/
def State.VdsOnly (s t : State) : Prop := t = { s with vds := t.vds, slu := t.slu, out := t.out }

theorem State.VdsOnly.trans {s t u : State} (h : s.VdsOnly t) (h' : t.VdsOnly u) : s.VdsOnly u :=
  Eq.trans h' (by rw [h])

theorem State.VdsOnly.vdExists {s t : State} (h : s.VdsOnly t) (v : Nat) : t.vdExists v = s.vdExists v := by rw [h]; rfl

theorem State.vdTrigger_two_cases (s : State) (v : Nat) :
    s.vdTrigger v 2 = s ∨ ∃ slu out, s.vdTrigger v 2 = { s with vds := s.vds.setD v {} ((s.vd v).restarted 2), slu := slu, out := out } := by
  by_cases hv : s.vdExists v = true
  · by_cases h : (s.vd v).st = .resetting
    · exact .inl (State.vdTrigger_resetting hv h (by decide) (by decide))
    · exact .inr (State.vdTrigger_start_eq hv h 2)
  · exact .inl (if_pos (by rw [Bool.eq_false_iff.2 hv]; rfl))

theorem State.vdTrigger_two_vdsOnly (s : State) (v : Nat) : s.VdsOnly (s.vdTrigger v 2) := by
  rcases s.vdTrigger_two_cases v with h | ⟨slu, out, h⟩ <;> rw [h] <;> rfl

theorem State.vd_vdTrigger_two_other (s : State) {v w : Nat} (hw : w ≠ v) : (s.vdTrigger v 2).vd w = s.vd w := by
  rcases s.vdTrigger_two_cases v with h | ⟨slu, out, h⟩
  · rw [h]
  · rw [h]; exact State.vd_setVd_resetting_other rfl hw

theorem State.vd_vdTrigger_two {s : State} {v : Nat} (hv : s.vdExists v = true) (h : (s.vd v).st ≠ .resetting) :
    (s.vdTrigger v 2).vd v = (s.vd v).restarted 2 := by
  obtain ⟨slu, out, he⟩ := State.vdTrigger_start_eq hv h 2
  rw [he]
  exact State.vd_setVd_resetting rfl

theorem State.foldl_vdTrigger_vdsOnly (l : List Nat) (s : State) : s.VdsOnly (l.foldl (fun s v => s.vdTrigger v 2) s) := by
  induction l generalizing s with
  | nil => rfl
  | cons w l ih => exact (s.vdTrigger_two_vdsOnly w).trans (ih _)

/-- A VD that is being reset stays as it is while the others of its port follow. -/
theorem State.vd_foldl_vdTrigger_resetting {v : Nat} (l : List Nat) {s : State} (hv : s.vdExists v = true) (h : (s.vd v).st = .resetting) :
    (l.foldl (fun s v => s.vdTrigger v 2) s).vd v = s.vd v := by
  induction l generalizing s with
  | nil => rfl
  | cons w l ih =>
    have hstep : (s.vdTrigger w 2).vd v = s.vd v := by
      by_cases hw : v = w
      · rw [← hw, State.vdTrigger_resetting hv h (by decide) (by decide)]
      · exact s.vd_vdTrigger_two_other hw
    exact (ih (by rwa [(s.vdTrigger_two_vdsOnly w).vdExists]) (by rwa [hstep])).trans hstep

theorem State.vd_foldl_vdTrigger {v : Nat} {l : List Nat} (hl : v ∈ l) {s : State} (hv : s.vdExists v = true)
    (h : (s.vd v).st ≠ .resetting) : (l.foldl (fun s v => s.vdTrigger v 2) s).vd v = (s.vd v).restarted 2 := by
  induction l generalizing s with
  | nil => cases hl
  | cons w l ih =>
    have hv' : (s.vdTrigger w 2).vdExists v = true := by rwa [(s.vdTrigger_two_vdsOnly w).vdExists]
    by_cases hw : v = w
    · subst hw
      have hstep := State.vd_vdTrigger_two hv h
      exact (State.vd_foldl_vdTrigger_resetting l hv' (by rw [hstep]; rfl)).trans hstep
    · have hstep := s.vd_vdTrigger_two_other hw
      rw [← hstep] at h ⊢
      exact ih ((List.mem_cons.1 hl).resolve_left hw) hv' h

theorem State.portVds_vdsOnly (s : State) (p : Nat) : s.VdsOnly (s.portVds p) := State.foldl_vdTrigger_vdsOnly _ s

theorem State.vd_portVds {s : State} {p v : Nat} (hp : v / 16 = p) (hv : s.vdExists v = true) (h : (s.vd v).st ≠ .resetting) :
    (s.portVds p).vd v = (s.vd v).restarted 2 :=
  State.vd_foldl_vdTrigger (List.mem_map.2 ⟨v % 16, by simp only [List.mem_range]; omega, by omega⟩) hv h

/-! ### A link goes down -/

/-- R152: what a port keeps of itself when its link goes down. -/
def CxlPort.dropped (x : CxlPort) (surprise : Bool) : CxlPort :=
  { x with link := if x.link = 3 then 3 else 0, era := x.era + 1, held := [], ideIo := false, ideMem := false, ideStreams := [],
           ideSwitch := false, power := 0, conflicts := [], surpriseDown := surprise }

theorem CxlPort.dropped_of_enabled {x : CxlPort} (h : x.link ≠ 3) (b : Bool) : x.dropped b =
    { x with link := 0, era := x.era + 1, held := [], ideIo := false, ideMem := false, ideStreams := [], ideSwitch := false, power := 0,
             conflicts := [], surpriseDown := b } := by
  rw [CxlPort.dropped, if_neg h]

theorem CxlPort.dropped_ne_default (x : CxlPort) (b : Bool) : x.dropped b ≠ {} := fun h => by
  have := congrArg CxlPort.era h
  simp [CxlPort.dropped] at this

/-- R152, R556: the port's sessions and what it held are gone, and no transaction keeps a copy for its host. -/
def State.unlinked (s : State) (p : Nat) (surprise : Bool) : State :=
  { s.modPort p (·.dropped surprise) with
    mgmt := { s.mgmt with sessions := s.mgmt.sessions.keep fun _ e => decide (e.1 ≠ some p) }
    boot := { s.boot with held := s.boot.held.filter fun r => !(s.port p).ideSwitch || decide (r.port ≠ p) }
    slices := (s.forgetHost p).slices }

theorem State.linkDown_of_no_copies {s : State} {p : Nat} (hb : s.biLines p = []) (hd : (s.dir.all fun e => !bit e.2.hosts.toNat p) = true)
    (pick : Nat) (b : Bool) :
    (s.linkDown p pick).modPort p (fun x => { x with surpriseDown := b }) = s.unlinked p b := by
  have hf : (s.dir.filter fun e => bit e.2.hosts.toNat p) = [] := by
    simpa [List.filter_eq_nil_iff] using hd
  have hl : s.linkDown p pick = s.unlinked p (s.port p).surpriseDown := by
    show State.forgetHost (State.clearHost (List.foldl _ _ (s.biLines p)) p) p = _
    rw [hb]
    show State.forgetHost (List.foldl _ _ (s.dir.filter fun e => bit e.2.hosts.toNat p)) p = _
    rw [hf]
    rfl
  have hp : (s.unlinked p (s.port p).surpriseDown).port p = (s.port p).dropped (s.port p).surpriseDown :=
    Tab.getD_setD_self_of_ne _ _ (CxlPort.dropped_ne_default _ _)
  rw [hl, State.modPort, hp]
  show ({ s.unlinked p _ with ports := Tab.setD (Tab.setD _ _ _ _) _ _ ((s.port p).dropped b) } : State) = _
  rw [Tab.setD_setD_of_ne _ _ (CxlPort.dropped_ne_default _ _) (CxlPort.dropped_ne_default _ _)]
  rfl

/-- R152: a slice whose transactions keep no copy for the host of port `p`. -/
def Slice.forget (x : Slice) (p : Nat) : Slice :=
  { x with miss := x.miss.mapVal fun _ m => { m with keepHost := m.keepHost.filter fun h => decide (h ≠ p) } }

/-- R187, R190: the slice of a line depends on the slices in service, the inventory, the dies and the device number. -/
theorem State.sliceOf_congr {s t : State} (hl : ∀ n, t.liveSlice n = s.liveSlice n) (hi : t.inv = s.inv) (hd : t.dies = s.dies)
    (hp : t.pool = s.pool) (gl : Nat) : t.sliceOf gl = s.sliceOf gl := by
  simp only [State.sliceOf, State.proxySlice, State.homeSlice, State.die, hl, hi, hd, hp]
  rfl

/-- Of a link that goes down with no copy at its host, what the device shows: the port, its VDs, and what a row keeps. -/
def State.portDown (s : State) (p : Nat) (surprise : Bool) : State := (s.unlinked p surprise).portVds p

theorem State.linkLost_of_no_copies {s : State} {p : Nat} (hb : s.biLines p = []) (hd : (s.dir.all fun e => !bit e.2.hosts.toNat p) = true)
    (pick : Nat) : s.linkLost p pick = s.portDown p true :=
  congrArg (·.portVds p) (State.linkDown_of_no_copies hb hd pick true)

theorem State.portReset_of_no_copies {s : State} {p : Nat} (hb : s.biLines p = []) (hd : (s.dir.all fun e => !bit e.2.hosts.toNat p) = true)
    (pick : Nat) : s.portReset p pick = State.portDown { s with boot := s.boot.note (7 + p) } p false :=
  congrArg (·.portVds p) (State.linkDown_of_no_copies (s := { s with boot := s.boot.note (7 + p) }) hb hd pick false)

section
variable (s : State) (p : Nat) (b : Bool)

theorem State.portDown_eq : s.portDown p b = { s.unlinked p b with
    vds := (s.portDown p b).vds, slu := (s.portDown p b).slu, out := (s.portDown p b).out } :=
  State.portVds_vdsOnly _ p

theorem State.port_portDown : (s.portDown p b).port p = (s.port p).dropped b := by
  rw [State.portDown_eq]
  exact Tab.getD_setD_self_of_ne _ _ (CxlPort.dropped_ne_default _ _)

theorem State.port_portDown_other {k : Nat} (hk : k ≠ p) : (s.portDown p b).port k = s.port k := by
  rw [State.portDown_eq]
  exact Tab.getD_setD_other_of_ne _ (CxlPort.dropped_ne_default _ _) hk

theorem State.mem_portDown : (s.portDown p b).mem = s.mem := by rw [State.portDown_eq]; rfl

/-- R152: a register keeps no copy for the host whose link is down. -/
theorem State.register?_portDown {gl n : Nat} {m : Miss} (h : s.register? gl = some (n, m)) :
    (s.portDown p b).register? gl = some (n, { m with keepHost := m.keepHost.filter fun h => decide (h ≠ p) }) := by
  have hs (k : Nat) : (s.portDown p b).slice k = (s.slice k).forget p := by
    rw [State.portDown_eq]
    exact Tab.getD_mapVal s.slices (f := fun _ x => x.forget p) rfl
  have hl (k : Nat) : (s.portDown p b).liveSlice k = s.liveSlice k := by rw [State.liveSlice, State.liveSlice, hs]; rfl
  have ho : (s.portDown p b).sliceOf gl = s.sliceOf gl :=
    State.sliceOf_congr hl (by rw [State.portDown_eq]; rfl) (by rw [State.portDown_eq]; rfl) (by rw [State.portDown_eq]; rfl) gl
  obtain ⟨x, hx, he⟩ := Option.map_eq_some_iff.1 h
  cases he
  rw [State.register?, ho, hs, Slice.forget, Tab.find_mapVal, hx]
  rfl

variable {s p}

theorem State.vd_portDown {v : Nat} (hp : v / 16 = p) (hv : s.vdExists v = true) (h : (s.vd v).st ≠ .resetting) :
    (s.portDown p b).vd v = (s.vd v).restarted 2 :=
  State.vd_portVds (s := s.unlinked p b) hp hv h

end

/-! ### A port's meter that does not cross (R502, R503) -/

/-- Whether a charge crosses a port's meter depends on the meters, the policy and Memory Active, while the port is not disabled. -/
theorem State.addLevel_port_crossed {s t : State} {p b : Nat} (hf : t.flt = s.flt) (hp : t.pol = s.pol)
    (hm : t.boot.memActive = s.boot.memActive) (hs : (s.port p).link ≠ 3) (ht : (t.port p).link ≠ 3) :
    (t.addLevel 7 p b).2 = (s.addLevel 7 p b).2 := by
  have hlevel : t.level 7 p = s.level 7 p := by simp only [State.level, State.meter, hf, if_neg (show ¬ (7 = 0) by decide)]
  have hmeter : t.metered 7 p = s.metered 7 p := by simp only [State.metered, State.outOfUse, hf, hs, ht]; rfl
  have hscale : t.scaled 7 b = s.scaled 7 b := by simp only [State.scaled, hp]
  have hthresh : t.threshold 7 = s.threshold 7 := by simp only [State.threshold, hp]
  simp only [State.addLevel, hlevel, hmeter, hscale, hthresh, hm]
  split <;> rfl

theorem State.addLevel_port_fst (s : State) (p b : Nat) : ∃ flt, (s.addLevel 7 p b).1 = { s with flt := flt } := by
  unfold State.addLevel
  dsimp only
  split
  · exact ⟨s.flt, rfl⟩
  · exact ⟨_, rfl⟩

theorem State.charge_port_of_not_crossed {s : State} {p b : Nat} (h : (s.addLevel 7 p b).2 = false) :
    s.charge 7 p b = (s.addLevel 7 p b).1 := by
  rw [State.charge, State.chargeF]
  cases hx : s.addLevel 7 p b with
  | mk u c =>
    rw [hx] at h
    cases (h : c = false)
    rfl

/-- A charge that does not cross leaves ports, VDs and memory as they are. -/
theorem State.charge_port_keeps {s : State} {p b : Nat} (h : (s.addLevel 7 p b).2 = false) :
    (s.charge 7 p b).ports = s.ports ∧ (s.charge 7 p b).vds = s.vds ∧ (s.charge 7 p b).mem = s.mem := by
  obtain ⟨flt, hflt⟩ := s.addLevel_port_fst p b
  rw [State.charge_port_of_not_crossed h, hflt]
  exact ⟨rfl, rfl, rfl⟩

end Sys2Proof.Machine
end

section
/-! CXL ports (O12). -/
namespace Sys2Proof.Machine

/-! ### Rates and widths (R120-R122) -/

theorem codeUpTo_succ (n : Nat) (val : Nat → Nat) (limit offered : Nat) : codeUpTo (n + 1) val limit offered =
    if n ≤ offered ∧ val n ≤ limit then max (codeUpTo n val limit offered) n else codeUpTo n val limit offered := by
  rw [codeUpTo, List.range_succ, List.foldl_append]
  rfl

theorem codeUpTo_le (n : Nat) (val : Nat → Nat) (limit offered : Nat) : codeUpTo n val limit offered ≤ min offered (n - 1) := by
  induction n with
  | zero => exact Nat.zero_le _
  | succ n ih =>
    rw [codeUpTo_succ]
    split <;> omega

/-- What a link trains at lies under a bound of the limit and of the lowest code's value. -/
theorem val_codeUpTo_le {val : Nat → Nat} {limit m : Nat} (h0 : val 0 ≤ m) (hm : limit ≤ m) (n offered : Nat) :
    val (codeUpTo n val limit offered) ≤ m := by
  induction n with
  | zero => exact h0
  | succ n ih =>
    rw [codeUpTo_succ]
    split
    next h =>
      rcases Nat.le_total (codeUpTo n val limit offered) n with hc | hc
      · rw [Nat.max_eq_right hc]
        exact h.2.trans hm
      · rwa [Nat.max_eq_left hc]
    next => exact ih

theorem le_codeUpTo {val : Nat → Nat} {limit offered n c : Nat} (hn : c < n) (ho : c ≤ offered) (hv : val c ≤ limit) :
    c ≤ codeUpTo n val limit offered := by
  induction n with
  | zero => omega
  | succ n ih =>
    rw [codeUpTo_succ]
    rcases Nat.lt_or_eq_of_le (Nat.le_of_lt_succ hn) with h | rfl
    · have := ih h
      split <;> omega
    · rw [if_pos ⟨ho, hv⟩]
      exact Nat.le_max_right _ _

section
variable (s : State) (p : Nat)

theorem State.trainedRate_le (rate : Nat) : s.trainedRate p rate ≤ min rate 5 := codeUpTo_le 6 _ _ _

theorem State.trainedWidth_le (width : Nat) : s.trainedWidth p width ≤ min width 2 := codeUpTo_le 3 _ _ _

theorem State.rateGt_trainedRate_le (rate : Nat) : rateGt (s.trainedRate p rate) ≤ s.fuses.maxRate := by
  refine val_codeUpTo_le ?_ ?_ _ _
  · unfold Fuses.maxRate
    split <;> decide
  · split
    · exact Nat.min_le_left _ _
    · exact Nat.le_refl _

theorem State.trainedRate_of_offered {rate : Nat} (h5 : rate ≤ 5) (hr : rateGt rate ≤ s.fuses.maxRate) (hi : s.img.applied = false) :
    s.trainedRate p rate = rate := by
  have hup : rate ≤ s.trainedRate p rate := le_codeUpTo (by omega) (Nat.le_refl _) (by rw [hi]; exact hr)
  have hle := s.trainedRate_le p rate
  omega

end

/-! ### A port that is up, and one change after another -/

theorem CxlPort.ne_default_of_link {x : CxlPort} {n : Nat} (h : x.link = n) (hn : n ≠ 0) : x ≠ {} := by
  rintro rfl
  exact hn h.symm

theorem CxlPort.ioStreams_append (x : CxlPort) (xs : List Nat) (a : Nat) :
    x.ioStreams (xs ++ [a]) = { x with ideIo := true, ideStreams := xs ++ [a] } := by
  cases xs <;> rfl

theorem CxlPort.ioStreams_filter (x : CxlPort) (xs : List Nat) (f : Nat → Bool) :
    x.ioStreams (xs.filter f) = { x with ideIo := xs.any f, ideStreams := xs.filter f } := by
  have hany : (!(xs.filter f).isEmpty) = xs.any f := by
    rw [Bool.eq_iff_iff]
    simp [List.isEmpty_eq_false_iff, List.filter_eq_nil_iff]
  rw [CxlPort.ioStreams, hany]

/-- Of two changes of a port that leave its link up the table shows what both make of it. -/
theorem State.modPort_modPort {s : State} {p : Nat} {f g : CxlPort → CxlPort} (hf : (f (s.port p)).link = 2)
    (hg : (g (f (s.port p))).link = 2) : (s.modPort p f).modPort p g = s.modPort p fun x => g (f x) := by
  have hf0 := CxlPort.ne_default_of_link hf (by decide)
  have hread : (s.modPort p f).port p = f (s.port p) := Tab.getD_setD_self_of_ne _ _ hf0
  show ({ s with ports := Tab.setD (Tab.setD s.ports p {} (f (s.port p))) p {} (g ((s.modPort p f).port p)) } : State) = _
  rw [hread, Tab.setD_setD_of_ne _ _ hf0 (CxlPort.ne_default_of_link hg (by decide))]
  rfl

theorem State.port_modPort_of_up {s : State} {p : Nat} {f : CxlPort → CxlPort} (hf : (f (s.port p)).link = 2) :
    (s.modPort p f).port p = f (s.port p) :=
  Tab.getD_setD_self_of_ne _ _ (CxlPort.ne_default_of_link hf (by decide))

/-- A port that holds nothing back releases nothing: only its entry is written again. -/
theorem State.releaseHeld_of_none_held {s : State} {p : Nat} (hl : (s.port p).link = 2) (hh : (s.port p).held = []) (pick : Nat) :
    s.releaseHeld p pick = s.modPort p fun x => { x with held := [] } := by
  rw [State.releaseHeld, if_neg (by omega), hh]
  rfl

theorem State.flushHeld_of_none_held {s : State} (h : s.boot.held = []) : s.flushHeld = s := by
  rw [State.flushHeld, h]
  show ({ s with boot := { s.boot with held := [] } } : State) = s
  rw [← h]

/-- R155: the media records of the LDs newly exposed leave the ports as they are. -/
theorem State.ports_mediaError (s : State) : s.mediaError.ports = s.ports := by
  have hevent (t : State) (v : Nat) (r : EvRec) : (t.event v 2 r).ports = t.ports := by
    unfold State.event
    dsimp only
    split <;> rfl
  have hfold (l : List Nat) (t : State) : (l.foldl (fun s v =>
      (s.event v 2 { kind := .memoryModule, ty := .mediaStatusChange }).modVd v fun x => { x with mediaLogged := true }) t).ports = t.ports := by
    induction l generalizing t with
    | nil => rfl
    | cons v l ih => exact (ih _).trans (hevent t v _)
  exact hfold _ s

/-- R149: with nothing held back, the end of a key switch is one change of the port. -/
theorem State.ideResumed_of_none_held {s : State} {p : Nat} (hl : (s.port p).link = 2) (hh : (s.port p).held = []) (hb : s.boot.held = [])
    (pick : Nat) : s.ideResumed p pick = s.modPort p fun x => { x with ideSwitch := false, held := [] } := by
  have hport : (s.modPort p fun x => { x with ideSwitch := false }).port p = { s.port p with ideSwitch := false } :=
    State.port_modPort_of_up hl
  rw [State.ideResumed, State.flushHeld_of_none_held (s := s.modPort p fun x => { x with ideSwitch := false }) hb,
    State.releaseHeld_of_none_held (by rw [hport]; exact hl) (by rw [hport]; exact hh), State.modPort_modPort hl hl]

/-- R149: with nothing held back, the port that a key message has changed goes on at once. -/
theorem State.orWait_ideResumed {s : State} {p : Nat} {f : CxlPort → CxlPort} (hl : (f (s.port p)).link = 2)
    (hh : (f (s.port p)).held = []) (hb : s.boot.held = []) (pick : Nat) :
    (s.modPort p f).orWait pick (State.ideResumed · p pick) =
      { s.fresh with ports := s.ports.setD p {} { f (s.port p) with ideSwitch := false } } := by
  have hport : (s.fresh.modPort p f).port p = f (s.port p) := State.port_modPort_of_up (s := s.fresh) hl
  have hy : ({ f (s.port p) with ideSwitch := false, held := [] } : CxlPort) = { f (s.port p) with ideSwitch := false } := by
    dsimp only
    rw [hh]
  have hres : (s.fresh.modPort p f).ideResumed p pick = { s.fresh with ports := s.ports.setD p {} { f (s.port p) with ideSwitch := false } } := by
    rw [State.ideResumed_of_none_held (s := s.fresh.modPort p f) (by rw [hport]; exact hl) (by rw [hport]; exact hh) hb,
      State.modPort_modPort (s := s.fresh) hl hl, ← hy]
    rfl
  show (if (State.ideResumed (s.fresh.modPort p f) p pick).stall.isEmpty then State.ideResumed (s.fresh.modPort p f) p pick else _) = _
  rw [hres]
  exact if_pos rfl

/-! ### The statement's parts -/

/-- R123, R155: a port that comes up and holds nothing back. -/
theorem exec_linkUp_of_none_held {s : State} {p rate width : Nat} {cxl mld sris : Bool} (hp : p < 4)
    (hl : (s.port p).link = 1 ∨ (s.port p).link = 2) (hr : (s.port p).perst = false) (hh : (s.port p).held = []) {t : State}
    (ht : t = s.modPort p fun x => { x with
      link := 2, rate := s.trainedRate p rate, width := s.trainedWidth p width, cxlOk := cxl, mld := cxl && mld,
      sris := sris && decide (x.refMode = 1), ideSeen := false, power := 0 }) (pick : Nat) :
    (s.boot.neverActive = false → exec (.linkUp p rate width cxl mld sris pick) s = .next t) ∧
    (s.boot.neverActive = true → ∃ u, exec (.linkUp p rate width cxl mld sris pick) s = .next u ∧ u.port p = t.port p
      ∧ u = { t.mediaError with ports := u.ports }) := by
  have hexec := exec_linkUp hp hl hr ht pick
  have hport : t.port p = { s.port p with
      link := 2, rate := s.trainedRate p rate, width := s.trainedWidth p width, cxlOk := cxl, mld := cxl && mld,
      sris := sris && decide ((s.port p).refMode = 1), ideSeen := false, power := 0 } := by rw [ht]; exact State.port_modPort_of_up rfl
  have hlink : (t.port p).link = 2 := by rw [hport]
  have hheld : (t.port p).held = [] := by rw [hport]; exact hh
  refine ⟨fun hn => ?_, fun hn => ?_⟩
  · rw [hexec, hn, if_neg (by decide), State.releaseHeld_of_none_held hlink hheld, ht, State.modPort_modPort rfl rfl]
    simp only [← hh]
    rfl
  · have hmedia : t.mediaError.port p = t.port p := by rw [State.port, State.ports_mediaError]; rfl
    rw [hn, if_pos rfl, State.releaseHeld_of_none_held (by rw [hmedia]; exact hlink) (by rw [hmedia]; exact hheld)] at hexec
    refine ⟨_, hexec, ?_, rfl⟩
    rw [State.port_modPort_of_up (by rw [hmedia]; exact hlink), hmedia, ← hheld]

/-- R152, R556: a link that goes down after a disable, where no copy depends on it. -/
theorem exec_linkDown_of_no_copies {s : State} {p : Nat} (hl : (s.port p).link = 1 ∨ (s.port p).link = 2) (hb : s.biLines p = [])
    (hd : (s.dir.all fun e => !bit e.2.hosts.toNat p) = true) (pick : Nat) :
    exec (.linkDown p false pick) s = .next (State.portDown { s with boot := s.boot.note (7 + p) } p false) :=
  (if_neg (by omega)).trans ((if_neg Bool.false_ne_true).trans (congrArg Host.Outcome.next (State.portReset_of_no_copies hb hd pick)))

/-- Settles O12: each row is one change of its port, and a link that goes down with no copy at its host takes nothing but what was the port's. -/
theorem cxlPortsTrainComeUpAndGoDown : Obligations.CxlPortsTrainComeUpAndGoDown := by
  refine ⟨fun s p hpwr hstep hp hl hr hi hsrc href hv => ?train, fun s p rate width pick cxl mld sris hp hl hr hh t ht =>
      exec_linkUp_of_none_held hp hl hr hh ht pick, fun s p rate width => ?codes, fun s p n stream pick mem skid hs hl hm => ?switch,
    fun s p n stream pick skid hs hl hh hb => ?ide, fun s p n stream pick skid op hg => if_pos (.inr (.inr ⟨rfl, hg⟩)),
    fun s p level hl hw hb => ?accepted, fun s p hl hb => ?busy, fun s p level hl hw => ?warm, fun s p => ?load,
    fun s p pick hp hl hb hd hwf => ?down, fun s p pick hp hpwr => if_neg (by rw [hpwr]; simp; omega)⟩
  case train =>
    refine if_pos ?_
    simp only [hpwr, hl, hr, hi, hv, Bool.and_eq_true, Bool.or_eq_true, decide_eq_true_eq, Bool.not_false, and_true, true_and, or_true]
    exact ⟨⟨⟨hstep, hp⟩, hsrc⟩, by omega⟩
  case codes =>
    exact ⟨s.trainedRate_le p rate, s.trainedWidth_le p width, s.rateGt_trainedRate_le p rate, fun h5 hr hi =>
      s.trainedRate_of_offered p h5 hr hi⟩
  case switch => exact if_neg (ideKm_takes hs hl (by rintro rfl; simpa using hm))
  case ide =>
    have honIo := State.orWait_ideResumed (f := fun x => x.ioStreams (x.ideStreams.filter (· ≠ stream) ++ [stream])) hl hh hb pick
    have hoffIo := State.orWait_ideResumed (f := fun x => x.ioStreams (x.ideStreams.filter (· ≠ stream))) hl hh hb pick
    have honMem := State.orWait_ideResumed (f := fun x => { x with ideMem := true, ideSkid := skid }) hl hh hb pick
    have hoffMem := State.orWait_ideResumed (f := fun x => { x with ideMem := false }) hl hh hb pick
    have htakes {mem : Bool} (hm : mem = true → s.fuses.prevGen = false) := ideKm_takes hs hl hm
    refine ⟨(if_neg (htakes (mem := false) nofun)).trans (congrArg Host.Outcome.next (honIo.trans ?_)),
      (if_neg (htakes (mem := false) nofun)).trans (congrArg Host.Outcome.next (hoffIo.trans ?_)), fun hg =>
      ⟨(if_neg (htakes (mem := true) fun _ => hg)).trans (congrArg Host.Outcome.next honMem),
        (if_neg (htakes (mem := true) fun _ => hg)).trans (congrArg Host.Outcome.next hoffMem)⟩⟩
    · rw [CxlPort.ioStreams_append]
    · rw [CxlPort.ioStreams_filter]
  case accepted =>
    have hbusy : ¬ (decide (s.boot.warm ≠ 0) || (decide (level = 2) && !(s.biLines p).isEmpty)) = true := by
      rcases hb with hb | hb <;> simp [hw, hb]
    exact (if_neg (not_not.2 hl)).trans (if_neg hbusy)
  case busy => exact (if_neg (not_not.2 hl)).trans (if_pos (by simp [hb]))
  case warm => exact (if_neg (not_not.2 hl)).trans (if_pos (by simp [hw]))
  case load =>
    have hload : (s.port p).load = if (s.port p).held ≠ [] then 3 else if (s.port p).outst.length < 512 then 0
        else if (s.port p).outst.length < 1536 then 1 else if (s.port p).outst.length < 1843 then 2 else 3 := by
      unfold CxlPort.load
      by_cases hh : (s.port p).held = []
      · simp only [hh, List.isEmpty_nil, Bool.not_true, Bool.false_eq_true, or_false, ne_eq, not_true_eq_false, if_false]
        split_ifs <;> omega
      · rw [if_pos hh, if_pos (.inr (by simpa using hh))]
    show Host.Outcome.next (s.modPort p fun x => { x with devLoad := x.load }) = _
    rw [State.modPort, hload]
  case down =>
    refine ⟨_, exec_linkDown_of_no_copies hl hb hd pick, ?_, fun k hk => State.port_portDown_other _ p false hk,
      by rw [State.portDown_eq]; rfl, State.mem_portDown _ p false, by rw [State.portDown_eq]; rfl,
      fun gl n m h => State.register?_portDown _ p false h, fun v hv he hst => ?_⟩
    · have h3 : (s.port p).link ≠ 3 := by omega
      exact (State.port_portDown _ p false).trans (CxlPort.dropped_of_enabled (x := s.port p) h3 false)
    · rw [State.vd_portDown (s := { s with boot := s.boot.note (7 + p) }) false hv he hst]
      exact ⟨rfl, rfl, rfl⟩

end Sys2Proof.Machine
end

section
/-! Resets of VDs by their port and their host (O13). -/
namespace Sys2Proof.Machine

/-- What the reset of one VD answers: the VD restarted, and no memory, bay, slice, directory, command or staging bay changed. -/
theorem State.vdTrigger_answers {s : State} {v : Nat} (hv : s.vdExists v = true) (h : (s.vd v).st ≠ .resetting) {c : Nat} {r : Res}
    (hr : r = .next (s.vdTrigger v c)) : ∃ t, r = .next t ∧ t.vds = s.vds.setD v {} ((s.vd v).restarted c)
      ∧ t.mem = s.mem ∧ t.bays = s.bays ∧ t.slices = s.slices ∧ t.dir = s.dir ∧ t.dax = s.dax ∧ t.hop = s.hop := by
  obtain ⟨slu, out, he⟩ := State.vdTrigger_start_eq hv h c
  refine ⟨_, hr, ?_⟩
  rw [he]
  exact ⟨rfl, rfl, rfl, rfl, rfl, rfl, rfl⟩

/-- R149: a port that is held back holds a reset request too. -/
theorem State.ldResetArrive_held {s : State} {p : Nat} (h : s.portStuck p = true) (ld c : Nat) :
    s.ldResetArrive p ld c = { s with boot := { s.boot with held := s.boot.held ++ [.reset p ld c] } } := if_pos h

/-- R129: a reset of an LD that the port does not expose. -/
theorem State.ldResetArrive_unexposed {s : State} {p ld : Nat} (hk : s.portStuck p = false) (h : 16 ≤ ld ∨ s.exposed p ld = false) (c : Nat) :
    s.ldResetArrive p ld c = if (s.port p).mld then s.noLd p ld else s := by
  refine (if_neg (by rw [hk]; decide)).trans (if_neg ?_)
  rintro ⟨hl, he⟩
  rcases h with h | h
  · omega
  · rw [he] at h; cases h

/-- R152, R153: a link lost without a disable, whose meter does not cross. -/
theorem State.linkLost_answers {s : State} {p : Nat} (hl : (s.port p).link = 1 ∨ (s.port p).link = 2)
    (hd : (s.dir.all fun e => !bit e.2.hosts.toNat p) = true) (hb : s.biLines p = []) (hc : (s.addLevel 7 p 256).2 = false) {pick : Nat}
    {r : Res} (hr : r = if (s.port p).link = 0 ∨ (s.port p).link = 3 then .next s else .next ((s.linkLost p pick).charge 7 p 256)) :
    ∃ t, r = .next t ∧ (t.port p).link = 0 ∧ (t.port p).surpriseDown = true ∧ t.mem = s.mem
      ∧ ∀ v, v / 16 = p → s.vdExists v = true → (s.vd v).st ≠ .resetting →
          (t.vd v).st = .resetting ∧ (t.vd v).epoch = (s.vd v).epoch + 1 ∧ (t.vd v).trigger = 2 := by
  have h3 : (s.port p).link ≠ 3 := by omega
  have hport := s.port_portDown p true
  have hlink : ((s.portDown p true).port p).link = 0 := by rw [hport]; exact if_neg h3
  have hcross : ((s.portDown p true).addLevel 7 p 256).2 = false := by
    refine (State.addLevel_port_crossed ?_ ?_ ?_ h3 (by omega)).trans hc <;> · rw [State.portDown_eq]; rfl
  obtain ⟨hports, hvds, hmem⟩ := State.charge_port_keeps hcross
  rw [if_neg (by omega), State.linkLost_of_no_copies hb hd] at hr
  have hport' : ((s.portDown p true).charge 7 p 256).port p = (s.portDown p true).port p := by rw [State.port, hports, State.port]
  refine ⟨_, hr, by rw [hport', hlink], by rw [hport', hport]; rfl, by rw [hmem, State.mem_portDown], fun v hp hv hst => ?_⟩
  rw [State.vd, hvds, ← State.vd, State.vd_portDown true hp hv hst]
  exact ⟨rfl, rfl, rfl⟩

/-- Settles O13: each trigger is one reset of a VD or of all VDs of a port, and a link that no host's copy depends on goes down by itself. -/
theorem portEventsResetTheirVirtualDevices : Obligations.PortEventsResetTheirVirtualDevices := by
  refine ⟨fun s p ld he hl hk hv hst => ?asked, fun s p ld => ?apart, fun s v c h1 h7 hv hst => ?start, fun s v c h2 h7 h5 hv hst => ?merged,
    fun s v hv hst => congrArg Host.Outcome.next (State.vdTrigger_resetting_warm hv hst), fun s p pick hp hl hd hb hc => ?lost,
    fun s p pick hp hrun hl hb hd hwf => ?port⟩
  case asked =>
    exact ⟨State.vdTrigger_answers hv hst (congrArg Host.Outcome.next (exec_ldReset hl he hk)),
      State.vdTrigger_answers hv hst (congrArg Host.Outcome.next (exec_ldReset hl he hk)),
      State.vdTrigger_answers hv hst (congrArg Host.Outcome.next (exec_ldReset hl he hk))⟩
  case apart =>
    refine ⟨fun hk => ?_, fun hk h hm => ?_, fun hk h hm => ?_⟩
    · exact ⟨congrArg Host.Outcome.next (State.ldResetArrive_held hk ld 3), congrArg Host.Outcome.next (State.ldResetArrive_held hk ld 4),
        congrArg Host.Outcome.next (State.ldResetArrive_held hk ld 5)⟩
    · have hun (c : Nat) := (State.ldResetArrive_unexposed hk h c).trans (if_pos hm)
      exact ⟨congrArg Host.Outcome.next (hun 3), congrArg Host.Outcome.next (hun 4)⟩
    · have hun (c : Nat) := (State.ldResetArrive_unexposed hk h c).trans (if_neg (by rw [hm]; decide))
      exact ⟨congrArg Host.Outcome.next (hun 3), congrArg Host.Outcome.next (hun 4)⟩
  case start => exact State.vdTrigger_answers hv hst (if_pos ⟨h1, h7⟩)
  case merged =>
    exact (if_pos ⟨by omega, h7⟩).trans (congrArg Host.Outcome.next (State.vdTrigger_resetting hv hst (by omega) h5))
  case lost => exact ⟨State.linkLost_answers hl hd hb hc rfl, State.linkLost_answers hl hd hb hc rfl⟩
  case port =>
    obtain ⟨hpwr, -⟩ := State.running_iff.1 hrun
    have hexec : exec (.portReset p none pick) s = .next (s.portReset p pick) :=
      (if_neg (by rw [hpwr]; simp; omega)).trans (if_pos ⟨hrun, hl⟩)
    refine ⟨_, hexec, ?_⟩
    rw [State.portReset_of_no_copies hb hd]
    have hport := State.port_portDown { s with boot := s.boot.note (7 + p) } p false
    refine ⟨?_, (congrArg CxlPort.surpriseDown hport :), by rw [State.portDown_eq]; rfl, by rw [State.portDown_eq]; rfl,
      State.mem_portDown _ p false, fun v hv he hst => ?_⟩
    · rw [hport]
      exact if_neg (show (s.port p).link ≠ 3 by omega)
    · rw [State.vd_portDown (s := { s with boot := s.boot.note (7 + p) }) false hv he hst]
      exact ⟨rfl, rfl, rfl⟩

end Sys2Proof.Machine
end

section
/-! Policy writes that wait, and those out of range (O14). -/
namespace Sys2Proof.Machine

/-! ### Arrival (R112) -/

theorem State.polArrive_of_room {s : State} (hq : s.polq.queue.length < 16) (hh : s.polq.held = []) (w : PolWrite) :
    s.polArrive w = { s with polq := { s.polq with queue := s.polq.queue ++ [w] } } :=
  if_pos ⟨hq, List.isEmpty_iff.2 hh⟩

theorem State.polArrive_of_full {s : State} (h : 16 ≤ s.polq.queue.length ∨ s.polq.held ≠ []) (w : PolWrite) :
    s.polArrive w = { s with polq := { s.polq with held := s.polq.held ++ [w] } } := by
  refine if_neg fun ⟨hq, hh⟩ => ?_
  rcases h with h | h
  · exact Nat.not_lt.2 h hq
  · exact h (List.isEmpty_iff.1 hh)

/-! ### A value out of range, and the end of a write (R112, R115, R551) -/

/-- A write that answers no request of management ends with DONE_SEQ alone. -/
theorem State.polComplete_of_no_request {w : PolWrite} (hw : w.hdr = none) (s : State) (bad : Bool) : s.polComplete w bad =
    { s with polq := { s.polq with doneSeq := s.polq.doneSeq + 1, firstBad := w.first && bad } } := by
  unfold State.polComplete
  rw [hw]

/-- R11, R115: a VD's write at the head whose value is out of range is refused at once; `State.polTake_inRange` is the other case. -/
theorem State.polTake_outOfRange {s t : State} {w : PolWrite} {ws : List PolWrite} {v : Nat} {is : PolReg → Bool}
    (hq : s.polq.queue = w :: ws) (hc : s.polq.cur = none) (ho : s.polOpen = true)
    (ht : t = { s with polq := { { s.polq with queue := ws }.refill with result := 1 } })
    (hr : s.polInRange w.reg (s.polValue w) = false) (hv : w.vd = some v) (his : is w.reg = true) (effect : State → PolReg → State) :
    s.polTake is effect = s.polGoOn ((t.rsvdEnc v).polComplete w true) := by
  subst ht
  simp only [State.polTake, State.polGoOn, hq, hc, ho, hr, hv, his, List.isEmpty_iff, Option.isSome_none, Bool.not_true, Bool.or_self,
    Bool.false_eq_true, if_false]

/-- Settles O14: a write arrives by `State.polArrive`, is refused as `State.polTake_outOfRange` says, and ends by `State.polComplete`. -/
theorem policyWritesWaitInOrder : Obligations.PolicyWritesWaitInOrder := by
  refine ⟨fun s r x ha hq hh => ?_, fun s r x ha hfull => ?_, fun s r x v hv hw hq hh => ?_, fun s r x v hv => if_neg hv,
    fun s w ws v hq hh hc ho hb hv hw hf hreg hr => ?refused, fun s w hc hw => ?complete⟩
  · exact (if_pos ha).trans (congrArg Host.Outcome.next (State.polArrive_of_room hq hh _))
  · exact (if_pos ha).trans (congrArg Host.Outcome.next (State.polArrive_of_full hfull _))
  · exact (if_pos hv).trans (congrArg Host.Outcome.next ((State.winWrite_open _ _ hw rfl).trans (State.polArrive_of_room hq hh _)))
  case refused =>
    have hval : s.polValue w = w.val := by rw [State.polValue, hreg]
    refine congrArg Host.Outcome.next ((State.polTake_outOfRange hq hc ho rfl (by rw [hval]; exact hr) hv (by rw [hreg]) _).trans ?_)
    rw [State.polComplete_of_no_request hw, hf, PolicyQ.refill_of_none_held (q := { s.polq with queue := ws }) hh]
    exact if_pos (.inr hb)
  case complete =>
    show execPolicyWriteComplete s = _
    rw [execPolicyWriteComplete, hc]
    dsimp only
    rw [State.polComplete_of_no_request hw, Bool.and_false]

end Sys2Proof.Machine
end

section
/-! Slots and the application of an image (O6). -/
namespace Sys2Proof.Machine

/-! ### The checks of a slot (R99, R100, R104) -/

/-- A check that is made only after one that passed says no more than both in their order. -/
theorem firstBad_lazy (a b : Option Bad) : firstBad [a, if a.isNone then b else none] = firstBad [a, b] := by
  cases a <;> rfl

theorem firstBad_pairs (a b c d : Option Bad) : firstBad [firstBad [a, b], firstBad [c, d]] = firstBad [a, b, c, d] := by
  cases a
  · cases b
    · cases c
      · cases d <;> rfl
      · rfl
    · rfl
  · rfl

/-- Two changes of a slot are one, where neither leaves it at its cold values. -/
theorem State.modBootSlot_modBootSlot {s : State} {n : Nat} {f g : Slot → Slot} (hf : f (s.slot n) ≠ {}) (hg : g (f (s.slot n)) ≠ {}) :
    (s.modBootSlot n f).modBootSlot n g = s.modBootSlot n (g ∘ f) := by
  have hread : (s.modBootSlot n f).slot n = f (s.slot n) := (s.slot_modBootSlot hf).trans (if_pos rfl)
  rw [State.modBootSlot, hread]
  show ({ s with boot := { s.boot with slots := Tab.setD (Tab.setD s.boot.slots n {} (f (s.slot n))) n {} (g (f (s.slot n))) } } : State) = _
  rw [Tab.setD_setD_of_ne _ _ hf hg]
  rfl

theorem Slot.ne_default_of_staged {x : Slot} (h : x.staged = true) : x ≠ {} := by
  rintro rfl
  cases h

/-- R108: a slot taken in, after which the boot may have no image left. -/
def State.bootOutcome (s : State) : State := if s.outcomeCertain then s.noImage else s

/-- R85: the state without an image keeps the slots, and no memory, bay, VD or image changes. -/
theorem State.bootOutcome_keeps (s : State) : s.bootOutcome.boot.slots = s.boot.slots ∧ s.bootOutcome.mem = s.mem
    ∧ s.bootOutcome.bays = s.bays ∧ s.bootOutcome.vds = s.vds ∧ s.bootOutcome.img = s.img := by
  unfold State.bootOutcome
  split
  · unfold State.noImage
    rw [State.bootDraw_eq]
    dsimp only
    split <;> exact ⟨rfl, rfl, rfl, rfl, rfl⟩
  · exact ⟨rfl, rfl, rfl, rfl, rfl⟩

/-- R108: with a sound slot the boot's outcome is open. -/
theorem State.bootOutcome_of_sound {s : State} {n : Nat} (hn : n < 3) (h : (s.slot n).sound = true) : s.bootOutcome = s := by
  refine if_neg fun hall => ?_
  have hbad := List.all_eq_true.1 hall n (List.mem_range.2 hn)
  rw [h, Bool.not_true, Bool.and_false] at hbad
  cases hbad

/-- R99, R104: what the first failing check, if one fails, makes of a slot read now; `good` is what is kept of a slot that passes. -/
def State.slotTaken (s : State) (n : Nat) (verdict : Option Bad) (good : Slot → Slot) : State :=
  verdict.elim ((s.modBootSlot n fun x => { x with staged := true }).modBootSlot n good)
    fun b => (s.modBootSlot n fun x => { x with staged := true }).rejectSlot n b

/-- R99, R100: SLOT_STAGE of a slot not yet read makes checks 1 to 4 in their order. -/
theorem exec_slotStage_verdict {s : State} {n : Nat} (hn : n < 3) (hr : s.running = true) (h5 : 5 ≤ s.boot.step)
    (hf : s.boot.flashOk = true) (hd : s.boot.done = false) (hs : (s.slot n).staged = false) (ho : s.stagingOpen = true)
    (bytes : List Byte) {full : Bool} (hfull : full = s.dies.any fun d => decide (6 ≤ d.2.step)) :
    exec (.slotStage n bytes) s = .next
      (s.slotTaken n (firstBad [check1 bytes, check2 s.fuses bytes, check3 bytes full, check4 bytes full]) fun x =>
        { x with sound := true, seq := at' bytes 0x10 4, caps := imgCaps bytes, limited := !full
                 img := readImage bytes (!full), digest := signedDigest bytes }).bootOutcome := by
  subst hfull
  show execSlotStage n bytes s = _
  rw [execSlotStage, if_pos ⟨hn, hr, h5, hf, by rw [hd]; rfl, by rw [hs]; rfl, ho⟩]
  dsimp only
  rw [firstBad_lazy, firstBad_lazy, firstBad_lazy, firstBad_pairs]
  cases firstBad [check1 bytes, check2 s.fuses bytes, check3 bytes _, check4 bytes _] <;> rfl

/-- R99: a slot that passes is sound, and the outcome of the boot stays open. -/
theorem State.slotTaken_none {s : State} {n : Nat} (hn : n < 3) {good : Slot → Slot} (hst : ∀ x, (good x).staged = x.staged)
    (hso : ∀ x, (good x).sound = true) :
    (s.slotTaken n none good).bootOutcome = s.modBootSlot n (good ∘ fun x => { x with staged := true }) := by
  have hne (x : Slot) (hx : x.staged = true) : good x ≠ {} := Slot.ne_default_of_staged ((hst x).trans hx)
  have hone : s.slotTaken n none good = s.modBootSlot n (good ∘ fun x => { x with staged := true }) :=
    State.modBootSlot_modBootSlot (Slot.ne_default_of_staged rfl) (hne _ rfl)
  rw [hone]
  refine State.bootOutcome_of_sound hn ?_
  rw [State.slot_modBootSlot (f := good ∘ fun x => { x with staged := true }) s (hne _ rfl), if_pos rfl]
  exact hso _

/-- R104: a slot that fails has the code of its first failure, and no memory, bay, VD or image changes. -/
theorem State.slotTaken_some (s : State) (n : Nat) (b : Bad) (good : Slot → Slot) {t : State}
    (ht : t = (s.slotTaken n (some b) good).bootOutcome) : t.slot n = { s.slot n with staged := true, code := b.code, sound := false }
      ∧ t.mem = s.mem ∧ t.bays = s.bays ∧ t.vds = s.vds ∧ t.img = s.img := by
  obtain ⟨f, p, hrej⟩ := (s.modBootSlot n fun x => { x with staged := true }).rejectSlot_eq n b
  rw [State.modBootSlot_modBootSlot (Slot.ne_default_of_staged rfl) (Slot.ne_default_of_staged rfl)] at hrej
  have hkeeps := (s.slotTaken n (some b) good).bootOutcome_keeps
  have htaken : s.slotTaken n (some b) good = _ := hrej
  rw [← ht, htaken] at hkeeps
  obtain ⟨hslots, hrest⟩ := hkeeps
  refine ⟨?_, hrest⟩
  rw [State.slot, hslots]
  exact (State.slot_modBootSlot s (Slot.ne_default_of_staged rfl)).trans (if_pos rfl)

/-! ### Selection (R105, R106) -/

/-- R106: of three slots the one sound one is the whole order. -/
theorem State.slotOrder_of_one_sound {s : State} {n : Nat} (hn : n < 3) (h : ∀ i < 3, (s.slot i).sound = decide (i = n)) :
    s.slotOrder = [n] := by
  have hsound (l : List Nat) (hl : ∀ i ∈ l, i < 3) : l.filter (fun i => (s.slot i).sound) = l.filter fun i => decide (i = n) :=
    List.filter_congr fun i hi => h i (hl i hi)
  refine (hsound _ (by split <;> decide)).trans ?_
  split <;> interval_cases n <;> rfl

/-- R85, R106: the one slot of the order fits and is selected. -/
theorem exec_slotSelection_one {s : State} {n : Nat} (h7 : s.boot.step = 7) (hd : s.boot.done = false)
    (hs : ∀ i < 3, (s.slot i).staged = true) (ho : s.slotOrder = [n]) (hfit : s.check56 n = none) :
    exec .slotSelection s = .next (State.fixInventory
      { s with boot := { s.boot with selected := n + 1, diesShort := false, done := true, flashOwn := false
                                     digest := (s.slot n).digest, fallback := false } }
      (s.slot n).img.device.dieExclude (s.slot n).img.device.minDies) := by
  have hall : (List.range 3).all (fun n => (s.slot n).staged) = true := List.all_eq_true.2 fun i hi => hs i (List.mem_range.1 hi)
  have hfirst : State.selectFrom [n] s none = (s, some n) := by
    rw [State.selectFrom, hfit]
    rfl
  show execSlotSelection s = _
  rw [execSlotSelection, if_pos ⟨h7, by rw [hd]; rfl, hall⟩]
  dsimp only
  rw [ho, hfirst]
  simp

/-! ### What the application of an image goes on to (R102, R122, R154) -/

/-- The ports hold no request back. -/
def State.NoneHeld (s : State) : Prop := Tab.wf s.ports = true ∧ ∀ p, (s.port p).held = []

/-- From `s`, whose ports hold nothing back, `t` comes about by changes of the ports, logs, panel, clock, VDs, keys, Hopper records,
HyhanLink ports and pool state alone, and holds nothing back either. -/
def State.Settles (s t : State) : Prop := s.NoneHeld → t.NoneHeld ∧ t = { s with
  ports := t.ports, flt := t.flt, panel := t.panel, clk := t.clk, vds := t.vds, freeCtr := t.freeCtr, hop := t.hop, hyl := t.hyl, pool := t.pool }

theorem State.Settles.refl (s : State) : s.Settles s := fun h => ⟨h, rfl⟩

theorem State.Settles.trans {s t u : State} (h : s.Settles t) (h' : t.Settles u) : s.Settles u := fun hs => by
  obtain ⟨ht, et⟩ := h hs
  obtain ⟨hu, eu⟩ := h' ht
  exact ⟨hu, eu.trans (by rw [et])⟩

theorem State.Settles.foldl {α : Type} {f : State → α → State} (hf : ∀ (s : State) a, s.Settles (f s a)) (l : List α) (s : State) :
    s.Settles (l.foldl f s) := by
  induction l generalizing s with
  | nil => exact .refl s
  | cons a l ih => exact (hf s a).trans (ih _)

/-- A change that touches none of the ports. -/
theorem State.Settles.of_ports_same {s t : State} (hp : t.ports = s.ports) (h : t = { s with
    ports := t.ports, flt := t.flt, panel := t.panel, clk := t.clk, vds := t.vds, freeCtr := t.freeCtr, hop := t.hop, hyl := t.hyl, pool := t.pool }) :
    s.Settles t := by
  rintro ⟨hwf, hheld⟩
  refine ⟨⟨by rw [hp]; exact hwf, fun p => ?_⟩, h⟩
  rw [State.port, hp]
  exact hheld p

theorem State.Settles.modPort {s : State} {p : Nat} {f : CxlPort → CxlPort} (hf : ∀ x : CxlPort, x.held = [] → (f x).held = []) :
    s.Settles (s.modPort p f) := by
  rintro ⟨hwf, hheld⟩
  refine ⟨⟨Tab.wf_setD hwf _ _ _, fun q => ?_⟩, rfl⟩
  show (Tab.getD (Tab.setD s.ports p {} (f (s.port p))) q {}).held = []
  rw [Tab.getD_setD hwf]
  split
  · exact hf _ (hheld p)
  · exact hheld q

theorem State.Settles.post (s : State) (r : Rec) : s.Settles (s.post r) := by
  obtain ⟨f, p, h⟩ := s.post_eq r
  rw [h]
  exact .of_ports_same rfl rfl

theorem State.Settles.bootDraw (s : State) : s.Settles s.bootDraw := by
  rw [State.bootDraw_eq]
  exact .of_ports_same rfl rfl

/-- R122: a port applies its record. -/
theorem State.Settles.applyPort (s : State) (p : Nat) : s.Settles (s.applyPort p) := by
  unfold State.applyPort
  extract_lets r x strap s1
  split
  · exact .modPort fun _ _ => rfl
  · have h1 : s.Settles s1 := by
      unfold s1
      split
      · have hmark : s.Settles (s.modPort p fun x => { x with strapMismatch := true }) := .modPort fun _ h => h
        exact hmark.trans (.post _ _)
      · exact .refl s
    exact h1.trans (.modPort fun _ h => h)

theorem State.Settles.toAnchor (s : State) : s.Settles s.toAnchor := by
  have hclk (c : Clk) : s.Settles { s with clk := c } := .of_ports_same rfl rfl
  unfold State.toAnchor
  split
  · exact .refl s
  · split
    · exact hclk _
    · split
      · exact hclk _
      · exact .refl s

theorem State.Settles.modVd (s : State) (v : Nat) (f : Vd → Vd) : s.Settles (s.modVd v f) := .of_ports_same rfl rfl

theorem State.Settles.drawKey (s : State) (v : Nat) : s.Settles (s.drawKey v) := .of_ports_same rfl rfl

theorem State.Settles.hopStart (s : State) : s.Settles s.hopStart := .of_ports_same rfl rfl

theorem State.Settles.startLinks (s : State) : s.Settles s.startLinks := .of_ports_same rfl rfl

/-- A port that holds nothing back lets nothing go on. -/
theorem State.Settles.releaseHeld (s : State) (p pick : Nat) : s.Settles (s.releaseHeld p pick) := by
  intro hs
  by_cases hl : (s.port p).link = 2
  · rw [State.releaseHeld_of_none_held hl (hs.2 p)]
    exact State.Settles.modPort (fun _ _ => rfl) hs
  · rw [State.releaseHeld, if_pos hl]
    exact State.Settles.refl s hs

theorem State.Settles.drawKeys (s : State) : s.Settles s.drawKeys := .foldl .drawKey _ _

theorem State.Settles.releaseAll (s : State) (pick : Nat) : s.Settles (s.releaseAll pick) := .foldl (fun s p => .releaseHeld s p pick) _ _

/-- R102, R109, R115: the registers that the image writes at once. -/
def State.imageWritten (s : State) (img : Image) (lock : Bool) : State := { s with
  img := img, pol := s.imagePol img
  boot := { s.boot with step := 8, testLock := lock, neverActive := s.boot.diesShort, memActive := !s.boot.diesShort }
  jtag := if lock then s.jtag.lock else s.jtag
  power := if lock then { s.power with testCom := [] } else s.power }

theorem State.imageSet_settles (s : State) (img : Image) (lock : Bool) : (s.imageWritten img lock).Settles (s.imageSet img lock) :=
  .trans (.foldl .applyPort _ _) (.toAnchor _)

/-- R102, R154: with dies enough the image is written and the device is Memory Active; ports, VDs, Hopper and links follow. -/
theorem exec_imageApply_settles {s : State} {n : Nat} (h7 : s.boot.step = 7) (hd : s.boot.diesShort = false)
    (hsel : s.boot.selected = n + 1) (hi : s.img.applied = false) (pick : Nat) : ∃ t, exec (.imageApply pick) s = .next t
      ∧ (s.imageWritten (s.slot n).img (s.slot n).img.device.testLock).Settles t := by
  have hslot : s.appliedSlot = some n := by simp [State.appliedSlot, hsel]
  refine ⟨_, (exec_imageApply hslot hi h7 (img := (s.slot n).img) (lock := (s.slot n).img.device.testLock) (by rw [hd]; rfl)
    (by rw [hd, Bool.not_false, Bool.and_true]) pick).trans (if_neg (by rw [hd]; decide)), ?_⟩
  have hvds := (s.imageSet_settles (s.slot n).img (s.slot n).img.device.testLock).trans
    ((State.Settles.drawKeys _).trans (.foldl (fun s v => .modVd s v fun x => { x with st := .ready })
      (s.imageSet (s.slot n).img (s.slot n).img.device.testLock).drawKeys.vdList _))
  exact hvds.trans (((State.Settles.hopStart _).trans (.startLinks _)).trans ((State.Settles.releaseAll _ pick).trans (.bootDraw _)))

/-- Settles O6: the verdict of a slot's checks says what is kept of it, the one sound slot is the order, and its image is written. -/
theorem slotsAreCheckedAndOneIsApplied : Obligations.SlotsAreCheckedAndOneIsApplied := by
  refine ⟨fun s n bytes hn hr h5 hf hd hs ho => ?stage, fun s n h7 hd hs hn hsound hfit => ?select,
    fun s n pick h7 hd hsel hi hwf hheld => ?apply⟩
  case stage =>
    refine ⟨_, _, exec_slotStage_verdict hn hr h5 hf hd hs ho bytes rfl, rfl, ?_⟩
    cases firstBad [check1 bytes, check2 s.fuses bytes, check3 bytes _, check4 bytes _] with
    | none => exact State.slotTaken_none hn (fun _ => rfl) fun _ => rfl
    | some b =>
      obtain ⟨hslot, hrest⟩ := s.slotTaken_some n b _ rfl
      exact ⟨by rw [hslot], by rw [hslot], by rw [hslot], hrest⟩
  case select =>
    exact ⟨_, exec_slotSelection_one h7 hd hs (State.slotOrder_of_one_sound hn hsound) hfit, rfl, rfl, rfl, rfl, rfl, rfl, rfl⟩
  case apply =>
    obtain ⟨t, ht, hset⟩ := exec_imageApply_settles h7 hd hsel hi pick
    obtain ⟨-, e⟩ := hset ⟨hwf, hheld⟩
    refine ⟨t, ht, ?_⟩
    rw [e]
    exact ⟨rfl, by simp [State.imageWritten, hd], hd, rfl, rfl, rfl, rfl, rfl, rfl, rfl, rfl, rfl⟩

end Sys2Proof.Machine
end

section
/-! Answers to snoops at the home (O29): what each leaves of the line's register while another answer is awaited (R139, R140, R225, R228, R230,
R235). -/
namespace Sys2Proof.Machine

/-! ### Updates that leave the registers -/

/-- What leaves every slice's registers, and which slice serves a line. -/
def State.SameRegisters (s t : State) : Prop := Tab.wf s.slices = true →
  Tab.wf t.slices = true ∧ (∀ n, (t.slice n).miss = (s.slice n).miss) ∧ (∀ n, (t.slice n).retired = (s.slice n).retired)
    ∧ t.inv = s.inv ∧ t.dies = s.dies ∧ t.pool = s.pool

section
variable {s t u : State}

theorem State.SameRegisters.refl (s : State) : s.SameRegisters s := fun h => ⟨h, fun _ => rfl, fun _ => rfl, rfl, rfl, rfl⟩

theorem State.SameRegisters.trans (h : s.SameRegisters t) (h' : t.SameRegisters u) : s.SameRegisters u := fun hwf => by
  obtain ⟨hw, hm, hr, hi, hd, hp⟩ := h hwf
  obtain ⟨hw', hm', hr', hi', hd', hp'⟩ := h' hw
  exact ⟨hw', fun n => (hm' n).trans (hm n), fun n => (hr' n).trans (hr n), hi'.trans hi, hd'.trans hd, hp'.trans hp⟩

/-- A change that touches no slice. -/
theorem State.SameRegisters.of_slices_same (hs : t.slices = s.slices) (hi : t.inv = s.inv) (hd : t.dies = s.dies) (hp : t.pool = s.pool) :
    s.SameRegisters t := fun hwf => by
  have hslice (n : Nat) : t.slice n = s.slice n := by rw [State.slice, State.slice, hs]
  exact ⟨hs ▸ hwf, fun n => by rw [hslice], fun n => by rw [hslice], hi, hd, hp⟩

theorem State.SameRegisters.modSlice (s : State) (n : Nat) {f : Slice → Slice} (hm : ∀ x, (f x).miss = x.miss)
    (hr : ∀ x, (f x).retired = x.retired) : s.SameRegisters (s.modSlice n f) := fun hwf => by
  refine ⟨Tab.wf_setD hwf _ _ _, fun k => ?_, fun k => ?_, rfl, rfl, rfl⟩ <;> rw [State.slice_modSlice hwf] <;> split
  · next h => rw [hm, h]
  · rfl
  · next h => rw [hr, h]
  · rfl

theorem State.SameRegisters.setFrame (s : State) (n k : Nat) (f : Frame) : s.SameRegisters (s.setFrame n k f) :=
  .modSlice s n (fun _ => rfl) fun _ => rfl

theorem State.SameRegisters.setDir (s : State) (l : Nat) (e : DirEntry) : s.SameRegisters (s.setDir l e) := by
  unfold State.setDir
  extract_lets set s1
  have h1 : s.SameRegisters s1 := .of_slices_same rfl rfl rfl rfl
  split
  · exact h1.trans (.modSlice _ _ (fun _ => rfl) fun _ => rfl)
  · exact h1

theorem State.SameRegisters.dropHolder (s : State) (l d : Nat) : s.SameRegisters (s.dropHolder l d) := by
  unfold State.dropHolder
  extract_lets e
  split
  · exact .setDir _ _ _
  · exact .refl s

theorem State.SameRegisters.dropHost (s : State) (l p : Nat) : s.SameRegisters (s.dropHost l p) := by
  unfold State.dropHost
  extract_lets e
  split
  · exact .setDir _ _ _
  · exact .refl s

theorem State.SameRegisters.hostAnswered (s : State) (l p : Nat) (m : Miss) : s.SameRegisters (s.hostAnswered l p m) := by
  unfold State.hostAnswered
  split
  · exact .dropHost s l p
  · exact .refl s

theorem State.SameRegisters.post (s : State) (r : Rec) : s.SameRegisters (s.post r) := by
  obtain ⟨f, p, h⟩ := s.post_eq r
  rw [h]
  exact .of_slices_same rfl rfl rfl rfl

theorem State.SameRegisters.send (s : State) (o : OutMsg) : s.SameRegisters (s.send o) := .of_slices_same rfl rfl rfl rfl

theorem State.SameRegisters.noWaiters (h : s.SameRegisters t) (hs : s.NoWaiters) : t.NoWaiters := by
  obtain ⟨hw, hm, -⟩ := h hs.1
  refine ⟨hw, fun n => ?_⟩
  rw [hm]
  exact hs.2 n

theorem State.SameRegisters.register? (h : s.SameRegisters t) (hwf : Tab.wf s.slices = true) (gl : Nat) : t.register? gl = s.register? gl := by
  obtain ⟨-, hm, hr, hi, hd, hp⟩ := h hwf
  have hlive (n : Nat) : t.liveSlice n = s.liveSlice n := by rw [State.liveSlice, State.liveSlice, hr]
  rw [State.register?, State.register?, State.sliceOf_congr hlive hi hd hp, hm]

/-! ### A register that still awaits an answer -/

/-- No register tries again where none waits for a way or for room to snoop (R195, R221). -/
theorem State.wake_noWaiters (h : s.NoWaiters) (n pick : Nat) : s.wake n pick = s := by
  have hnone : (s.slice n).miss.filter (fun e => e.2.waits) = [] := by
    refine List.filter_eq_nil_iff.2 fun e he => ?_
    obtain ⟨hway, hdir⟩ := h.2 n e he
    simp [Miss.waits, hway, hdir]
  simp [State.wake, hnone]

theorem State.wakeAll_noWaiters (h : s.NoWaiters) (pick : Nat) : s.wakeAll pick = s := by
  unfold State.wakeAll
  generalize s.slices.map (·.1) = l
  induction l with
  | nil => rfl
  | cons n l ih => rw [List.foldl_cons, State.wake_noWaiters h, ih]

/-- Registers that change, none of them to one that waits. -/
theorem State.NoWaiters.modSlice (h : s.NoWaiters) (n : Nat) {f : Slice → Slice}
    (hf : ∀ e ∈ (f (s.slice n)).miss, e ∈ (s.slice n).miss ∨ (e.2.phase ≠ .way ∧ e.2.phase ≠ .dirFull)) : (s.modSlice n f).NoWaiters := by
  refine ⟨Tab.wf_setD h.1 _ _ _, fun k e he => ?_⟩
  rw [State.slice_modSlice h.1] at he
  split at he
  · exact (hf e he).elim (h.2 n e) id
  · exact h.2 k e he

theorem State.NoWaiters.putMiss (h : s.NoWaiters) (n gl : Nat) {m : Miss} (hm : m.phase = .snoop) : (s.putMiss n gl m).NoWaiters :=
  h.modSlice n fun e he => (Tab.mem_put he).elim (fun h => .inr (by rw [h, hm]; decide)) .inl

/-- R225: while an answer is awaited the register keeps what has come, and nothing else happens. -/
theorem State.answered_awaiting (h : s.NoWaiters) {m : Miss} (hm : m.phase = .snoop) (hw : m.snpDev ≠ [] ∨ m.snpHost ≠ []) (n gl pick : Nat) :
    (s.answered n gl pick m).wakeAll pick = s.putMiss n gl m := by
  have hmore : ¬ (m.snpDev.isEmpty && m.snpHost.isEmpty && m.wbDev.isEmpty) = true := by
    rcases hw with hw | hw <;> simp [hw]
  rw [State.answered, if_neg hmore]
  exact State.wakeAll_noWaiters (h.putMiss n gl hm) pick

end

/-! ### Answers of devices (R228, R235) -/

/-- R228: RSP_NP is counted, and its device leaves the line's entry. -/
def State.snoopStale (s : State) (n gl d : Nat) : State :=
  (s.modSlice n fun x => { x with dirStaleSnp := x.dirStaleSnp + 1 }).dropHolder (ownNum gl) d

/-- R235: a timeout is recorded and counted, and the silent device leaves the line's entry. -/
def State.snoopGivenUp (s : State) (n gl d : Nat) : State :=
  ((s.post { cls := .correctable, code := 1, addr := gl * 128, device := some d, slice := n }).modSlice n fun x =>
    { x with dirTimeout := x.dirTimeout + 1 }).dropHolder (ownNum gl) d

theorem State.SameRegisters.snoopStale (s : State) (n gl d : Nat) : s.SameRegisters (s.snoopStale n gl d) := by
  have hcount : s.SameRegisters (s.modSlice n fun x => { x with dirStaleSnp := x.dirStaleSnp + 1 }) := .modSlice s n (fun _ => rfl) fun _ => rfl
  exact hcount.trans (.dropHolder _ _ _)

theorem State.SameRegisters.snoopGivenUp (s : State) (n gl d : Nat) : s.SameRegisters (s.snoopGivenUp n gl d) := by
  have hcount (u : State) : u.SameRegisters (u.modSlice n fun x => { x with dirTimeout := x.dirTimeout + 1 }) :=
    .modSlice u n (fun _ => rfl) fun _ => rfl
  exact ((State.SameRegisters.post s _).trans (hcount _)).trans (.dropHolder _ _ _)

/-- What the register keeps of a device's answer. -/
def Miss.heard (r : Miss) (d : Nat) (keep wait : Bool) : Miss := { r with
  snpDev := r.snpDev.erase d
  keepDev := if keep then r.keepDev ++ [d] else r.keepDev
  wbDev := if wait && !r.wbSeen.contains d then r.wbDev ++ [d] else r.wbDev }

section
variable {s : State} {n pick : Nat} {r : Miss} {m : CohMsg} (h : s.Snooping n m.line r) (hd : r.snpDev.contains m.dev = true)
  (hw : r.snpDev.erase m.dev ≠ [] ∨ r.snpHost ≠ [])
include h hd hw

theorem State.snoopAnswer_awaiting {t : State} {dirty : Bool}
    (ht : t = if dirty then s.mergeHome n m.line pick m.sec m.data m.pois else s) (hs : s.SameRegisters t) (keep wait : Bool) :
    s.snoopAnswer m keep dirty wait pick = t.putMiss n m.line (r.heard m.dev keep wait) := by
  obtain ⟨hnone, hreg, hph⟩ := h
  simp only [State.snoopAnswer, hreg]
  rw [if_pos ⟨hph, hd⟩, ← ht]
  exact State.answered_awaiting (m := r.heard m.dev keep wait) (hs.noWaiters hnone) hph hw _ _ _

/-- RSP_I, RSP_S, RSP_E and RSP_NP: an answer without data. -/
theorem State.snoopAnswer_clean (keep wait : Bool) :
    s.snoopAnswer m keep false wait pick = s.putMiss n m.line (r.heard m.dev keep wait) :=
  State.snoopAnswer_awaiting h hd hw (t := s) (dirty := false) rfl (.refl s) keep wait

/-- DAT_I, DAT_S and DAT_E: the dirty sectors go to the home's frame. -/
theorem State.snoopAnswer_dirty {k : Nat} {f : Frame} (hp : s.promoted m.line = false) (hh : (s.slice n).hit m.line = some (k, f)) (keep : Bool) :
    s.snoopAnswer m keep true false pick
      = (s.setFrame n k (f.merge (sectorBytes m.sec) m.data m.pois)).putMiss n m.line (r.heard m.dev keep false) := by
  refine State.snoopAnswer_awaiting h hd hw ?_ (.setFrame s n k _) keep false
  simp [State.mergeHome, hh, State.storeLine_of_hit hp hh]

/-- R228: the device that held no copy leaves the entry. -/
theorem exec_rspNp_awaiting :
    exec (.rspNp m pick) s = .next ((s.snoopStale n m.line m.dev).putMiss n m.line (r.heard m.dev false m.wbPending)) := by
  obtain ⟨hnone, hreg, hph⟩ := id h
  have hrow : exec (.rspNp m pick) s = .next ((s.snoopStale n m.line m.dev).snoopAnswer m false false m.wbPending pick) := by
    show execRspNp m pick s = _
    simp only [execRspNp, hreg]
    exact if_pos ⟨hph, hd⟩
  have hsame := State.SameRegisters.snoopStale s n m.line m.dev
  have ht : (s.snoopStale n m.line m.dev).Snooping n m.line r := ⟨hsame.noWaiters hnone, (hsame.register? hnone.1 _).trans hreg, hph⟩
  rw [hrow, State.snoopAnswer_clean ht hd hw]

/-- R235: the answer of a device that owns no line is given up. -/
theorem exec_snoopTimeout_awaiting (he : (s.dirEntry (ownNum m.line)).st ≠ .exclRemote) (hwb : r.wbDev.contains m.dev = false) :
    exec (.snoopTimeout m.line m.dev pick) s = .next ((s.snoopGivenUp n m.line m.dev).putMiss n m.line
      { r with snpDev := r.snpDev.erase m.dev, wbDev := r.wbDev.erase m.dev }) := by
  obtain ⟨hnone, hreg, hph⟩ := h
  refine congrArg Host.Outcome.next ?_
  simp only [State.snoopLost, hreg]
  rw [if_pos ⟨hph, .inl hd⟩, if_neg (by rw [hwb]; simp [he])]
  exact State.answered_awaiting (m := { r with snpDev := r.snpDev.erase m.dev, wbDev := r.wbDev.erase m.dev })
    ((State.SameRegisters.snoopGivenUp s n m.line m.dev).noWaiters hnone) hph hw _ _ _

end

/-! ### Answers of hosts (R139, R140) -/

section
variable {s : State} {n port line half pick : Nat} {r : Miss} (h : s.Snooping n line r)
include h

/-- One half of a host's answer comes while another is awaited. -/
theorem exec_birsp_awaiting (hd : r.snpHost.contains (port, half) = true) (hw : r.snpDev ≠ [] ∨ r.snpHost.erase (port, half) ≠ [])
    {rsp : BiRsp} {r1 : Miss} (h1 : r1 = { r with
      snpHost := r.snpHost.erase (port, half), keepHost := if decide (rsp = .s) && !r.keepHost.contains port then r.keepHost ++ [port] else r.keepHost }) :
    exec (.birsp port line half rsp pick) s = .next ((s.hostAnswered (ownNum line) port r1).putMiss n line r1) := by
  obtain ⟨hnone, hreg, hph⟩ := h
  rw [exec_birsp_awaited hreg hph hd h1, State.answered_awaiting ((State.SameRegisters.hostAnswered s _ port r1).noWaiters hnone) (by rw [h1]; exact hph)]
  rw [h1]; exact hw

/-- R140: a port's answers for a line that its host does not own are given up. -/
theorem exec_bisnpTimeout_awaiting (hd : (r.snpHost.any fun h => decide (h.1 = port)) = true) (hw : r.snpDev ≠ []) (ho : s.lineOwner line = none)
    (he : (s.dirEntry (ownNum line)).st ≠ .exclHost) :
    exec (.bisnpTimeout port line pick) s = .next (((s.post { cls := .correctable, code := 4, addr := line * 128, unit := port }).dropHost
      (ownNum line) port).putMiss n line
        { r with snpHost := r.snpHost.filter fun h => decide (h.1 ≠ port), keepHost := r.keepHost.filter fun p => decide (p ≠ port) }) := by
  obtain ⟨hnone, hreg, hph⟩ := h
  have hpost : ((s.post { cls := .correctable, code := 4, addr := line * 128, unit := port }).dirEntry (ownNum line)).st ≠ .exclHost := by
    obtain ⟨f, p, e⟩ := s.post_eq { cls := .correctable, code := 4, addr := line * 128, unit := port }
    rw [e]; exact he
  have hsame := State.SameRegisters.post s { cls := .correctable, code := 4, addr := line * 128, unit := port }
  rw [exec_bisnpTimeout hreg hph hd, State.lineEvent, ho]
  refine congrArg Host.Outcome.next ?_
  simp only [State.hostLost, (hsame.register? hnone.1 line).trans hreg, hpost, decide_false, Bool.false_and, Bool.false_eq_true, if_false]
  exact State.answered_awaiting (m := { r with
      snpHost := r.snpHost.filter fun h => decide (h.1 ≠ port), keepHost := r.keepHost.filter fun p => decide (p ≠ port) })
    ((hsame.trans (.dropHost _ _ _)).noWaiters hnone) hph (.inl hw) _ _ _

end

/-- Table 08-3: a host of a shared line whose last half is in, with none kept, leaves the entry. -/
theorem State.hostAnswered_eq (s : State) (l port : Nat) (m : Miss) : s.hostAnswered l port m =
    if (m.snpHost.any fun h => decide (h.1 = port)) ∨ m.keepHost.contains port ∨ (s.dirEntry l).st ≠ .shared then s else s.dropHost l port := by
  rw [State.hostAnswered, ← ite_not]
  refine if_congr ?_ rfl rfl
  simp only [Bool.and_eq_true, List.all_eq_true, List.any_eq_true, decide_eq_true_eq, Bool.not_eq_true']
  grind

/-! ### Grants and write-backs (R225, R230) -/

theorem State.SameRegisters.setBusy (s : State) (n gl : Nat) (b : Bool) : s.SameRegisters (s.setBusy n gl b) := by
  unfold State.setBusy
  extract_lets s1
  have h1 : s.SameRegisters s1 := by
    unfold s1
    split
    · split
      · exact .setFrame _ _ _ _
      · exact .refl s
    · exact .refl s
  split
  · exact h1.trans (.modSlice s1 n (fun _ => rfl) fun _ => rfl)
  · next t _ =>
    have hclear : s.SameRegisters (s1.modSlice n fun x => { x with busyAt := x.busyAt.del gl }) :=
      h1.trans (.modSlice s1 n (fun _ => rfl) fun _ => rfl)
    exact hclear.trans (.of_slices_same rfl rfl rfl rfl)
  · exact h1

/-- R225: the last grantee has acknowledged, and nobody waits for the line. -/
theorem exec_gntAck_last {s : State} {n : Nat} {r : Miss} {m : CohMsg} (h : s.NoWaiters) (hreg : s.register? m.line = some (n, r))
    (hph : r.phase = .grant) (hg : r.gnt = [m.dev]) (hw : r.waiters = []) (pick : Nat) :
    exec (.gntAck m pick) s = .next ((s.setBusy n m.line false).modSlice n fun x => { x with miss := x.miss.del m.line }) := by
  have hin : r.gnt.contains m.dev = true := by simp [hg]
  have hlast : (r.gnt.erase m.dev).isEmpty = true := by simp [hg]
  show execGntAck m pick s = _
  simp only [execGntAck, hreg]
  rw [if_pos ⟨hph, hin⟩, if_pos hlast, hw]
  have hbusy := (State.SameRegisters.setBusy s n m.line false).noWaiters h
  have hfree : ((s.setBusy n m.line false).modSlice n fun x => { x with miss := x.miss.del m.line }).NoWaiters :=
    hbusy.modSlice n fun _ he => .inl (Tab.mem_del he)
  exact congrArg Host.Outcome.next (State.wakeAll_noWaiters hfree pick)

section
variable {s : State} {k pick : Nat} {f : Frame} {m : CohMsg} (ha : s.atHome m = true) (hl : s.lostHome m.line = false)
  (hmiss : (s.slice (s.sliceOf m.line)).miss.find m.line = none)
include ha hl hmiss

/-- R230: the owner's write-back of an idle line is merged, and the line is HOME. -/
theorem exec_wb_owner (h : s.NoWaiters) (hp : s.promoted m.line = false) (hh : (s.slice (s.sliceOf m.line)).hit m.line = some (k, f))
    (hst : (s.dirEntry (ownNum m.line)).st = .exclRemote) (hb : bit (s.dirEntry (ownNum m.line)).sharers.toNat m.dev = true) :
    exec (.wb m pick) s = .next (((s.setFrame (s.sliceOf m.line) k (f.merge (sectorBytes m.sec) m.data m.pois)).send
      (.coh { op := .wbAck, dev := m.dev, line := m.line, tag := m.tag })).setDir (ownNum m.line) {}) := by
  have hmerge : s.mergeHome (s.sliceOf m.line) m.line pick m.sec m.data m.pois
      = s.setFrame (s.sliceOf m.line) k (f.merge (sectorBytes m.sec) m.data m.pois) := by
    simp [State.mergeHome, hh, State.storeLine_of_hit hp hh]
  refine (if_pos ha).trans (congrArg Host.Outcome.next ?_)
  simp only [State.writeBack, hl, Bool.false_eq_true, if_false, hmiss, hst, hb, decide_true, Bool.and_self, if_true, hmerge]
  exact State.wakeAll_noWaiters (State.SameRegisters.noWaiters (.trans (.trans (.setFrame s _ k _) (.send _ _)) (.setDir _ _ _)) h) pick

/-- R230: the write-back of a device that is no owner is counted, acknowledged and dropped. -/
theorem exec_wb_stale (hst : (s.dirEntry (ownNum m.line)).st ≠ .exclRemote) :
    exec (.wb m pick) s = .next ((s.modSlice (s.sliceOf m.line) fun x => { x with dirStaleWb := x.dirStaleWb + 1 }).send
      (.coh { op := .wbAck, dev := m.dev, line := m.line, tag := m.tag })) := by
  refine (if_pos ha).trans (congrArg Host.Outcome.next ?_)
  simp only [State.writeBack, hl, Bool.false_eq_true, if_false, hmiss, hst, decide_false, Bool.false_and]

end

/-- R236: a slice whose directory region does not name the departed device, which no transaction waits for, has swept. -/
theorem exec_directoryDepartureSweep_done {s : State} {slice dev : Nat} (hd : s.pool.departed.contains dev = true)
    (hdir : ∀ e ∈ s.dir, bit e.2.sharers.toNat dev = false)
    (hmiss : ∀ e ∈ s.slices, ∀ y ∈ e.2.miss, y.2.awaits dev = false ∧ (y.2.req.any fun r => r.fromDev dev) = false)
    (hs : s.pool.swept.contains (dev, slice) = false) :
    exec (.directoryDepartureSweep slice dev) s = .next { s with pool := { s.pool with swept := s.pool.swept ++ [(dev, slice)] } } := by
  have hsweep : s.dirSweep slice dev = s := by
    have hnone : s.dir.filter (fun e => decide (s.dirSet e.1 / 2 ^ 20 = slice) && bit e.2.sharers.toNat dev) = [] :=
      List.filter_eq_nil_iff.2 fun e he => by simp [hdir e he]
    simp only [State.dirSweep, hnone, List.foldl_nil]
  have hdone : s.sweepDone slice dev = true := by
    simp only [State.sweepDone, List.all_eq_true]
    intro e he y hy
    obtain ⟨haw, hreq⟩ := hmiss e he y hy
    rw [haw, hreq]
    simp
  refine (if_pos hd).trans (congrArg Host.Outcome.next ?_)
  simp only [hsweep, hdone, hs, if_true, Bool.false_eq_true, if_false]

/-! ### The obligation -/

/-- Settles O29: an answer that leaves another awaited is kept in the line's register, and the rest is one row each. -/
theorem snoopAnswersAreGatheredAtTheHome : Obligations.SnoopAnswersAreGatheredAtTheHome := by
  refine ⟨fun s n pick r m h hd hw => ⟨?rspI, ?rspS, ?rspE, fun hp hs => ?pending, fun hp => ?notPending, fun k f hp hh => ⟨?datI, ?datS, ?datE⟩,
      fun he hwb => exec_snoopTimeout_awaiting h hd hw he hwb⟩,
    fun s n port line half pick r h hd hw ri rs hi hs => ⟨?birspI, fun hk => ?birspS, ?left⟩, ?stray,
    fun s n port line pick r h hd hw ho he => exec_bisnpTimeout_awaiting h hd hw ho he,
    fun s n pick r m h hreg hph hg hw => exec_gntAck_last h hreg hph hg hw pick,
    fun s k pick f m h ha hl hmiss hp hh => ⟨exec_wb_owner ha hl hmiss h hp hh, exec_wb_stale ha hl hmiss⟩,
    fun s slice dev hd hdir hmiss hs => exec_directoryDepartureSweep_done hd hdir hmiss hs⟩
  case rspI => exact congrArg Host.Outcome.next (State.snoopAnswer_clean h hd hw false false)
  case rspS => exact congrArg Host.Outcome.next (State.snoopAnswer_clean h hd hw true false)
  case rspE => exact congrArg Host.Outcome.next (State.snoopAnswer_clean h hd hw true false)
  case pending => rw [exec_rspNp_awaiting h hd hw, Miss.heard, hp, hs]; rfl
  case notPending => rw [exec_rspNp_awaiting h hd hw, Miss.heard, hp]; rfl
  case datI => exact congrArg Host.Outcome.next (State.snoopAnswer_dirty h hd hw hp hh false)
  case datS => exact congrArg Host.Outcome.next (State.snoopAnswer_dirty h hd hw hp hh true)
  case datE => exact congrArg Host.Outcome.next (State.snoopAnswer_dirty h hd hw hp hh true)
  case birspI => exact exec_birsp_awaiting h hd hw hi
  case birspS =>
    rw [exec_birsp_awaiting h hd hw (rsp := .s) (r1 := rs) (by rw [hs, hk]; rfl), State.hostAnswered_eq, if_pos]
    rw [hs]; simp
  case left => rw [State.hostAnswered_eq, hi]
  case stray =>
    intro s port line half pick rsp h
    show execBirsp port line half rsp pick s = _
    simp only [execBirsp, h]

end Sys2Proof.Machine
end

section
/-! Accesses to a VD's windows (O49): which are refused and recorded, and what an allowed one does (R137, R174, R570 to R577, Table 22-3). -/
namespace Sys2Proof.Machine

/-! ### Accesses that no window takes (R124, R129, R150, R573) -/

theorem exec_registerWrite {s : State} (hr : s.running = true) (w : RegWrite) : exec (.registerWrite w) s = .next (s.hostWrite w) := if_pos hr

section
variable {s : State} {m : Mmio}

/-- A shut window answers a write for itself, whatever its shape. -/
theorem State.hostWrite_shut {u : State} (h : s.windowShut m = some u) : s.hostWrite (.window m) = u := by
  have hrefuse : s.refuseAccess m = u := by simp [State.refuseAccess, h]
  have hwrite : s.winWrite m (fun s => s.applyWrite m) = u := by simp [State.winWrite, h]
  cases hb : m.bad <;> simp [State.hostWrite, hb, hrefuse, hwrite]

theorem State.windowShut_noLink (h : (s.port (m.vd / 16)).link ≠ 2) : s.windowShut m = some s := if_pos h

theorem State.windowShut_noLd (hl : (s.port (m.vd / 16)).link = 2)
    (he : 16 ≤ m.ld.getD (m.vd % 16) ∨ s.exposed (m.vd / 16) (m.ld.getD (m.vd % 16)) = false) :
    s.windowShut m = some (if (s.port (m.vd / 16)).mld then s.noLd (m.vd / 16) (m.ld.getD (m.vd % 16)) else s) :=
  (if_neg (not_not.2 hl)).trans (if_pos (by simpa using he))

theorem State.windowShut_ide (hl : (s.port (m.vd / 16)).link = 2) (hld : m.ld.getD (m.vd % 16) < 16)
    (he : s.exposed (m.vd / 16) (m.ld.getD (m.vd % 16)) = true) (hi : s.ideBlocks (m.vd / 16) = true) : s.windowShut m = some (s.unsupported m) :=
  (if_neg (not_not.2 hl)).trans ((if_neg (by simp [he, hld])).trans (if_pos hi))

/-- R68, R112, R149: a window that takes a write holds it in a warm reset and while its port is held back. -/
theorem State.hostWrite_held (h : s.windowShut m = none) (hb : m.bad = false) (hw : s.boot.warm ≠ 0 ∨ s.portStuck (m.vd / 16) = true) :
    s.hostWrite (.window m) = { s with boot := { s.boot with held := s.boot.held ++ [.write (.window m)] } } := by
  simp only [State.hostWrite, hb, Bool.false_eq_true, if_false, State.winWrite, h]
  exact if_pos (by simpa using hw)

/-- R573: a bad access to a window that takes it. -/
theorem State.refuseAccess_taken {u : State} (h : s.windowShut m = none)
    (hu : u = (s.unsupported m).post { cls := .protocol, vd := m.vd, addr := m.off }) : s.refuseAccess m =
      if (s.vd m.vd).st = .ready then u.modVd m.vd (fun d => { d with err := { d.err with unaligned := true } }) else u := by
  have hvd : u.vd m.vd = s.vd m.vd := by
    obtain ⟨f, p, e⟩ := (s.unsupported m).post_eq { cls := .protocol, vd := m.vd, addr := m.off }
    rw [hu, e]; rfl
  simp only [State.refuseAccess, h, ← hu, hvd]

theorem exec_bad (hb : m.bad = true) (hr : s.running = true) :
    exec (.unsupportedAccess m) s = .next (s.refuseAccess m) ∧ exec (.registerWrite (.window m)) s = .next (s.refuseAccess m) := by
  refine ⟨if_pos (by rw [hb, hr]; rfl), (exec_registerWrite hr _).trans (congrArg Host.Outcome.next ?_)⟩
  exact if_pos hb

end

/-! ### The rows of Table 22-3 -/

/-- R573: the widths and the alignment of an allowed access that writes bytes. -/
theorem Mmio.span_allowed {m : Mmio} {o n : Nat} (hb : m.bad = false) (hs : m.span = some (o, n)) (hn : 0 < n) :
    (n = 1 ∨ n = 2 ∨ n = 4 ∨ n = 8) ∧ o % n = 0 := by
  simp only [Mmio.bad, hs, Nat.pos_iff_ne_zero.1 hn, if_false, Bool.or_eq_false_iff] at hb
  obtain ⟨-, hok⟩ := hb
  simp at hok
  exact ⟨by omega, hok.2⟩

theorem doorReg_ring {o : Nat} (ho : o < 0x10000) (hi : o % 0x1000 = 0) : doorReg o = some (o / 0x1000, false) := if_pos ⟨ho, hi⟩

theorem doorReg_cq {o : Nat} (ho : o < 0x10000) (hi : o % 0x1000 = 8) : doorReg o = some (o / 0x1000, true) :=
  (if_neg (by omega)).trans (if_pos ⟨ho, hi⟩)

section
variable {s : State} {m : Mmio} {o n w : Nat} (hs : m.span = some (o, n)) (hw : w = m.val / 256 ^ (o - m.off) % 256 ^ n)
include hs

omit hs in
/-- An allowed write to an open window is applied at once. -/
theorem exec_registerWrite_open (hb : m.bad = false) (hr : s.running = true) (h : s.WindowOpen m.vd) (hl : m.ld = none) :
    exec (.registerWrite (.window m)) s = .next (s.applyWrite m) := by
  refine (exec_registerWrite hr _).trans (congrArg Host.Outcome.next ?_)
  exact (if_neg (by rw [hb]; decide)).trans (State.winWrite_open _ _ h hl)

theorem State.applyWrite_empty (hn : n = 0) : s.applyWrite m = s := by simp [State.applyWrite, hs, hn]

theorem State.applyWrite_noDoor (hd : m.door = true) (h : doorReg (o / 4 * 4) = none) : s.applyWrite m = s := by
  simp [State.applyWrite, hs, hd, h]

theorem State.applyWrite_outside (hd : m.door = false) (ho : o < 0x20000 ∨ 0x30000 ≤ o) : s.applyWrite m = s := by
  simp [State.applyWrite, hs, hd, ho]

/-- R573: a write of one or two bytes changes no register, and says so where one lies. -/
theorem State.applyWrite_narrow (hd : m.door = false) (h0 : 0x20000 ≤ o) (h1 : o < 0x30000) (hn : 0 < n) (hn4 : n < 4)
    (hreg : s.winReg m.vd (o / 4 * 4 - 0x20000) ≠ none) :
    s.applyWrite m = s.modVd m.vd fun d => { d with err := { d.err with accessSize := true } } := by
  have hin : ¬ (o < 0x20000 ∨ 0x30000 ≤ o) := by omega
  have hsome := Option.isSome_iff_ne_none.2 hreg
  simp only [State.applyWrite, hs, hd, hin, Nat.pos_iff_ne_zero.1 hn, hn4, hsome, if_true, if_false, Bool.false_eq_true]

include hw

theorem State.applyWrite_door (hd : m.door = true) (hn : n = 4) {i : Nat} {cq : Bool} (h : doorReg (o / 4 * 4) = some (i, cq)) :
    s.applyWrite m = if cq then s.cqDb m.vd i (BitVec.ofNat 32 w) else s.ringDb m.vd i (BitVec.ofNat 32 w) := by
  subst hw hn
  simp [State.applyWrite, hs, hd, h]

theorem State.applyWrite_word (hd : m.door = false) (h0 : 0x20000 ≤ o) (h1 : o < 0x30000) (hn : n = 4) :
    s.applyWrite m = s.winWrite32 m.vd (o - 0x20000) w := by
  have hin : ¬ (o < 0x20000 ∨ 0x30000 ≤ o) := by omega
  subst hw hn
  simp [State.applyWrite, hs, hd, hin]

theorem State.applyWrite_pair (hd : m.door = false) (h0 : 0x20000 ≤ o) (h1 : o < 0x30000) (hn : n = 8) :
    s.applyWrite m = s.winWrite64 m.vd (o - 0x20000) w := by
  have hin : ¬ (o < 0x20000 ∨ 0x30000 ≤ o) := by omega
  subst hw hn
  simp [State.applyWrite, hs, hd, hin]

end

/-! ### HDM decoders (R137) -/

theorem exec_decoderWrite {s : State} {v i : Nat} (hr : s.running = true) (hv : v < 64) (hi : i < 2) (h : s.windowShut { vd := v, off := 0 } = none)
    (hw : s.boot.warm = 0) (hk : s.portStuck (v / 16) = false) (base len ways gran : Nat) (bi : Bool) :
    exec (.registerWrite (.decoder v i base len ways gran bi)) s = .next (s.commitDecoder v i base len ways gran bi) := by
  rw [exec_registerWrite hr]
  simp [State.hostWrite, h, hw, hk, hv, hi]

/-- R137: the shapes of a decoder that commits. -/
def decoderOk (ways gran : Nat) : Bool := [1, 2, 4, 8, 16].contains ways && [256, 512, 1024, 2048, 4096, 8192, 16384].contains gran

theorem decoderOk_iff (ways gran : Nat) :
    decoderOk ways gran = true ↔ ways ∈ [1, 2, 4, 8, 16] ∧ gran ∈ [256, 512, 1024, 2048, 4096, 8192, 16384] := by
  rw [decoderOk, Bool.and_eq_true, List.contains_iff_mem, List.contains_iff_mem]

/-- A decoder that was written is committed or has failed, so that it is listed and reads back. -/
theorem State.decoder_commitDecoder (s : State) (v i base len ways gran : Nat) (bi : Bool) :
    ((s.commitDecoder v i base len ways gran bi).vd v).decoders.getD i {} =
      { base := base, len := len, ways := ways, gran := gran, bi := bi && (s.img.ports.getD (v / 16) {}).hdmDbAllowed
        committed := decoderOk ways gran, error := !decoderOk ways gran } := by
  generalize hd : ({ base := base, len := len, ways := ways, gran := gran, bi := bi && (s.img.ports.getD (v / 16) {}).hdmDbAllowed
                     committed := decoderOk ways gran, error := !decoderOk ways gran } : Decoder) = d
  have hne : d ≠ {} := by
    rw [← hd]
    cases decoderOk ways gran <;> simp
  have hlisted : (s.vd v).decoders.setD i {} d ≠ [] := by
    rw [Tab.setD, if_neg hne]
    exact Tab.put_ne_nil _ _ _
  have hvd : (s.commitDecoder v i base len ways gran bi).vd v = { s.vd v with decoders := (s.vd v).decoders.setD i {} d } := by
    rw [← hd]
    refine Tab.getD_setD_self_of_ne _ _ fun h0 => hlisted ?_
    rw [← hd]
    exact congrArg Vd.decoders h0
  rw [hvd]
  exact Tab.getD_setD_self_of_ne _ _ hne

/-! ### Reads of a window (R174, R577) -/

theorem State.winRead_reset {s : State} {v x : Nat} (h : s.boot.memActive = false ∨ (s.vd v).st = .resetting ∧ x ≠ 0x1000) :
    s.winRead v x = (s.winReset v x).getD 0 := by
  rcases h with h | ⟨h, hx⟩
  · simp [State.winRead, h]
  · simp [State.winRead, h, hx]

theorem State.winRead_live {s : State} {v x : Nat} (ha : s.boot.memActive = true) (h : (s.vd v).st ≠ .resetting ∨ x = 0x1000) :
    s.winRead v x = (s.winReg v x).getD 0 := by
  rcases h with h | h
  · simp [State.winRead, ha, h]
  · simp [State.winRead, ha, h]

/-! ### The obligation -/

/-- Settles O49: whether the window is shut, the shape of the access and the state of the VD decide, each in its lemma above. -/
theorem windowAccessesFollowTheirTable : Obligations.WindowAccessesFollowTheirTable := by
  refine ⟨fun s u m hb hr hw hu => ⟨?badReady, ?badNotReady⟩, fun s m p ld hr hp hld => ⟨?noLink, fun hl hx => ?noLd, ?ide, ?held⟩,
    fun s m o n w hb hr ho hl hs hw => ?written, fun m o n hb hs hn => Mmio.span_allowed hb hs hn,
    fun s v i base len ways gran bi hr hv hi hw hwarm hk => ?decoder,
    fun s v x h => State.winRead_reset h, fun s v x ha h => State.winRead_live ha h⟩
  case badReady =>
    rintro hst t rfl
    have hbad := exec_bad hb hr
    rwa [State.refuseAccess_taken hw hu, if_pos hst] at hbad
  case badNotReady =>
    intro hst
    have hbad := exec_bad hb hr
    rwa [State.refuseAccess_taken hw hu, if_neg hst] at hbad
  case noLink =>
    intro hlink
    rw [exec_registerWrite hr, State.hostWrite_shut (State.windowShut_noLink (hp ▸ hlink))]
  case noLd =>
    subst hp hld
    rw [exec_registerWrite hr, State.hostWrite_shut (State.windowShut_noLd hl hx)]
    exact ⟨fun h => by rw [if_pos h]; rfl, fun h => by rw [h]; rfl⟩
  case ide =>
    subst hp hld
    intro hl hlt hx hi
    rw [exec_registerWrite hr, State.hostWrite_shut (State.windowShut_ide hl hlt hx hi)]
  case held =>
    intro hw hb hh
    rw [exec_registerWrite hr, State.hostWrite_held hw hb hh]
  case written =>
    rw [exec_registerWrite_open hb hr ho hl]
    have hal {d : Nat} (hd : o % 0x1000 = d) (hd4 : d % 4 = 0) : o / 4 * 4 = o := by omega
    refine ⟨fun hd h0 h1 hn => by rw [State.applyWrite_word hs hw hd h0 h1 hn], fun hd h0 h1 hn => by rw [State.applyWrite_pair hs hw hd h0 h1 hn],
      fun hd h0 h1 hn hn4 hreg => by rw [State.applyWrite_narrow hs hd h0 h1 hn hn4 hreg], fun hd h => ?_, fun hd hn h1 hi => ?_, fun hd hn h1 hi => ?_,
      fun hd h => by rw [State.applyWrite_noDoor hs hd h]⟩
    · rcases h with h | h
      · rw [State.applyWrite_empty hs h]
      · rw [State.applyWrite_outside hs hd h]
    · rw [State.applyWrite_door hs hw hd hn (by rw [hal hi rfl]; exact doorReg_ring h1 hi)]; rfl
    · rw [State.applyWrite_door hs hw hd hn (by rw [hal hi rfl]; exact doorReg_cq h1 hi)]; rfl
  case decoder =>
    refine ⟨_, exec_decoderWrite hr hv hi hw hwarm hk base len ways gran bi, rfl, ?_⟩
    rw [State.decoder_commitDecoder]
    refine ⟨fun hways hgran => ?_, fun hshape => ?_⟩
    · have hok := (decoderOk_iff ways gran).2 ⟨hways, hgran⟩
      exact ⟨hok, by rw [hok]; rfl, rfl⟩
    · have hok : decoderOk ways gran = false := by
        rw [Bool.eq_false_iff, ne_eq, decoderOk_iff]
        tauto
      exact ⟨hok, by rw [hok]; rfl⟩

end Sys2Proof.Machine
end

section
/-! The mailbox of an LD (O18): what each query answers, and what each setting stores (R127, R131, R146, R148, R154, R155). -/
namespace Sys2Proof.Machine

section
variable {s : State} {v : Nat} (ho : s.MailboxOpen v)
include ho

/-- A command that waits for nothing answers with its return code and values, and leaves the state that it makes. -/
theorem exec_mailbox_quick {c : Instr} {m : MbCmd} {op pick : Nat} {early : Bool} {f : State → RetCode × List Nat × State} {rc : RetCode}
    {vals : List Nat} {u : State} (he : exec c s = .next (s.mailbox v m pick)) (hm : m.stalls = false)
    (hdo : s.mbDo v m = s.mbServe v op early f) (hf : f s = (rc, vals, u)) : exec c s = .next (u.send (.mb v op rc vals)) := by
  rw [he, State.mailbox_quick ho hm, hdo, State.mbServe_open _ _ _ ho, hf]

/-- A query answers Success with its values, and changes nothing. -/
theorem exec_mailbox_tells {c : Instr} {m : MbCmd} {op : Nat} {early : Bool} {vals : List Nat} (he : exec c s = .next (s.mailbox v m))
    (hm : m.stalls = false) (hdo : s.mbDo v m = s.mbTell v op early vals) : exec c s = .next (s.send (.mb v op .success vals)) :=
  exec_mailbox_quick ho he hm hdo rfl

theorem exec_backgroundOperationStatus {vals : List Nat}
    (hv : vals = match (s.vd v).background with | some b => [1, b.opcode] | none => [0, 0]) :
    exec (.backgroundOperationStatus v) s = .next (s.send (.mb v 0x0002 .success vals)) :=
  exec_mailbox_tells ho rfl rfl (by rw [hv]; rfl)

/-- R146: the logs of an LD are five. -/
theorem exec_getEventRecords {log : Nat} (hl : log < 5) : exec (.getEventRecords v log) s = .next (s.send (.mb v 0x0100 .success
    (b2n ((s.vd v).logs.getD log {}).overflow :: ((s.vd v).logs.getD log {}).lost :: ((s.vd v).logs.getD log {}).recs.length
      :: (((s.vd v).logs.getD log {}).recs.take 31).flatMap EvRec.vals))) :=
  exec_mailbox_quick ho rfl rfl (by rw [State.mbDo]) (by exact if_pos hl)

/-- R146: to clear all records clears the log's overflow and the number lost too (notes/assumptions/20.md). -/
theorem exec_clearEventRecords_all {log : Nat} (hl : log < 5) (handles : List Nat) :
    exec (.clearEventRecords v log true handles) s = .next ((s.modVd v fun x => { x with
      logs := x.logs.setD log {} { (s.vd v).logs.getD log {} with recs := [], overflow := false, lost := 0 } }).send (.mb v 0x0101 .success [])) :=
  exec_mailbox_quick ho rfl rfl (by rw [State.mbDo]) (by exact if_neg (by simp; omega))

theorem exec_setEventInterruptPolicy {log m : Nat} (hl : log < 5) (hm : m < 32) :
    exec (.setEventInterruptPolicy v log (some m)) s = .next ((s.modVd v fun x => { x with
      logs := x.logs.setD log {} { x.logs.getD log {} with msix := some m } }).send (.mb v 0x0103 .success [])) :=
  exec_mailbox_quick ho rfl rfl (by rw [State.mbDo]) (by exact if_neg (by simp; omega))

/-- R154: in Memory Active the media are Ready. -/
theorem exec_getHealthInfo : exec (.getHealthInfo v) s = .next (s.send (.mb v 0x4200 .success [1, s.hottest])) := by
  have hready : s.mediaStatus = 1 := by
    obtain ⟨-, -, -, ha⟩ := ho
    exact if_pos ha
  rw [← hready]
  exact exec_mailbox_tells ho rfl rfl rfl

/-- R148: an opcode that Table 05-8 does not list. -/
theorem exec_mailboxUnsupported {op : Nat} (h : op ∉ mbOpcodes) :
    exec (.mailboxUnsupported v op) s = .next (s.send (.mb v op .unsupported [])) := by
  have hrow : exec (.mailboxUnsupported v op) s = .next (s.mailbox v (.unsupported op)) :=
    if_neg (by rwa [List.contains_iff_mem])
  exact exec_mailbox_quick ho hrow rfl (by rw [State.mbDo]) (by rfl)

end

/-- Settles O18: an open mailbox serves every command, and each row names what it answers and stores. -/
theorem mailboxReportsTheLogicalDevice : Obligations.MailboxReportsTheLogicalDevice := by
  intro s v ho
  refine ⟨exec_mailbox_tells ho rfl rfl rfl, fun hb => exec_backgroundOperationStatus ho (by rw [hb]), fun hb => exec_backgroundOperationStatus ho (by rw [hb]; rfl),
    fun log hl => exec_getEventRecords ho hl, fun log hl => exec_clearEventRecords_all ho hl [],
    ?interrupts, fun log m hl hm => exec_setEventInterruptPolicy ho hl hm, exec_mailbox_tells ho rfl rfl rfl,
    fun x => exec_mailbox_quick ho rfl rfl (by rw [State.mbDo]) (by rfl), exec_mailbox_tells ho rfl rfl rfl, exec_mailbox_quick ho rfl rfl (by rw [State.mbDo]) (by rfl),
    exec_mailbox_tells ho rfl rfl rfl, exec_getHealthInfo ho, exec_mailbox_tells ho rfl rfl rfl, fun x => exec_mailbox_quick ho rfl rfl (by rw [State.mbDo]) (by rfl),
    exec_mailbox_tells ho rfl rfl rfl, fun start => exec_mailbox_tells ho rfl rfl rfl, fun op h0 h1 => exec_mailboxUnsupported ho ?unlisted⟩
  case interrupts =>
    rintro vals rfl
    exact exec_mailbox_tells ho rfl rfl rfl
  case unlisted =>
    simp only [mbOpcodes, List.mem_cons, List.not_mem_nil, or_false]
    omega

end Sys2Proof.Machine
end

section
/-! The refutation of O19: an injection of poison whose page no walk can translate yet waits, and sends no answer (R148, R270, R271). -/
namespace Sys2Proof.Machine

/-- R271: a write of 64 bytes whose walk finds no entry of the walk queue waits. -/
theorem State.writeHalf_held {s : State} {v dpa : Nat} {x : Ext} (ha : dpa % 64 = 0) (hx : s.inExtent v dpa = true)
    (hh : s.heldUp v dpa x.miss = true) (d : Option (BitVec 512)) :
    s.writeHalf v dpa d x = (.invalidInput, [], s.stalled .hold) := by
  have htr : s.translate v dpa true x = (.error .revoked, s.stalled .hold) := if_pos hh
  simp [State.writeHalf, ha, hx, htr]

/-- A row that waits for an entry of the walk queue changes nothing. -/
theorem exec_injectPoison_held {s : State} {v dpa : Nat} {x : Ext} (ho : s.MailboxOpen v) (ha : dpa % 64 = 0) (hx : s.inExtent v dpa = true)
    (hh : s.heldUp v dpa x.miss = true) : exec (.injectPoison v dpa x) s = .next s := by
  have hact : s.fresh.boot.memActive = true := by
    obtain ⟨-, -, -, hact⟩ := ho
    exact hact
  have hdo : s.fresh.mbDo v (.injectPoison dpa x) = (s.fresh.stalled .hold).send (.mb v 0x4301 .invalidInput []) := by
    rw [State.mbDo, State.mbServe_open _ _ _ (State.fresh_mailboxOpen ho), if_pos hact, State.writeHalf_held (s := s.fresh) ha hx hh]
  have hst : (s.fresh.mbDo v (.injectPoison dpa x)).stall = [.hold] := by rw [hdo]; rfl
  refine congrArg Host.Outcome.next ((State.mailbox_stalls ho rfl _).trans ((State.orWait_wait ?_).trans ?_)) <;> rw [hst]
  · exact List.cons_ne_nil _ _
  · rfl

/-- Page 1 of VD 0 is mapped to line 0, which its home holds; and a walk of the VD for another page waits for an entry of the walk queue. -/
def walkQueueWaits : State :=
  { vd0 ex21 with slu := { pt := [(1, { kind := .page })], walks := [{ vd := 0, page := 9, slot := false }] }, slices := [(0, { frames := [(0, homeF)] })] }

/-- Refutes O19: its clause on INJECT_POISON asks nothing of the walk queue, and in `walkQueueWaits` an access that misses its translation cache
(`miss`) can have no walk behind the one that waits, so that the row waits and no answer is sent. -/
theorem not_mailboxMediaCommandsActOnTheLd : ¬ Obligations.MailboxMediaCommandsActOnTheLd := by
  intro h
  have ho : walkQueueWaits.MailboxOpen 0 := by
    simp only [State.MailboxOpen]
    decide +kernel
  have hidle : walkQueueWaits.HomeIdle 0 0 0 homeF := by
    simp only [State.HomeIdle]
    decide +kernel
  obtain ⟨-, -, -, hinject, -⟩ := h walkQueueWaits 0 ho
  obtain ⟨t, g, ht, hout, -⟩ := hinject 65536 { miss := true } { kind := .page } 0 0 homeF (by decide) (by decide +kernel) (by decide +kernel) rfl rfl rfl
    hidle
  rw [exec_injectPoison_held ho (by decide) (by decide +kernel) (by decide +kernel)] at ht
  cases ht
  simp at hout

end Sys2Proof.Machine
end

section
/-! CXL.mem requests of hosts (O31): their acceptance and translation (R134, R141 to R143, R270 to R275), and what each finds at a line idle at its
home (R138, R139, R226, R233). -/
namespace Sys2Proof.Machine

/-! ### Acceptance (R141, R142, R149, R154) -/

/-- A request as its port counts it once it is accepted. -/
def State.cxlTaken (s : State) (r : CxlReq) : State := (({ s with slu := { s.slu with order := s.slu.order + 1 } } : State).modPort r.port fun x => { x with
  outst := x.outst ++ [{ tag := r.tag, vd := r.vd, time := s.now, write := r.op.changes, era := (s.port r.port).era }], power := 0 })

/-- R129: a row's request as one of the VD that is LD `ld` of its port. -/
def CxlReq.forLd (r : CxlReq) (op : ReqOp) (ld : Nat) : CxlReq := { r with op := op, vd := 16 * r.port + ld }

/-- R142: what acceptance notes in a request. -/
def State.stampCxl (s : State) (r : CxlReq) : CxlReq := { r with era := (s.port r.port).era, no := s.slu.order }

theorem State.hostTake_eq (s : State) (r : CxlReq) : s.hostTake r = (s.stampCxl r, s.cxlTaken r) := rfl

section
variable {s : State} {r : CxlReq} {ld pick : Nat}

/-- A request of an exposed LD that nothing holds back is accepted. -/
theorem State.hostArrive_accepts (hp : r.port < 4) (hl : (s.port r.port).link = 2) (hc : (s.port r.port).cxlOk = true)
    (hcred : (s.port r.port).credits (decide (r.op = .memWr)) ≠ 0) (hld : ld < 16) (hx : s.exposed r.port ld = true)
    (hh : s.hostHeld { r with vd := 16 * r.port + ld } = false)
    (hm : s.mayEnter (.cxlMem r.port) (s.useCxl r.port) (((s.port r.port).held.filter fun q => !s.hostHeld q).map CxlReq.vd) (16 * r.port + ld) = true)
    (hit : Bool) : s.hostArrive r ld hit pick = s.hostAccept { r with vd := 16 * r.port + ld } hit pick := by
  refine (if_neg ?_).trans ((if_neg ?_).trans (if_neg ?_))
  · simp only [hl, hc, hcred]
    simp
    omega
  · simp [hx]
    omega
  · simp only [hh, hm]
    decide

/-- R149, R154: an LD outside a reset, of a device in Memory Active with no key switch on the port. -/
theorem State.not_hostHeld (hi : (s.port r.port).ideSwitch = false) (ha : s.boot.memActive = true) (hw : s.boot.warm = 0)
    (hv : (s.vd r.vd).memClr = false) : s.hostHeld r = false := by
  simp [State.hostHeld, hi, ha, hw, hv]

variable (hn : s.boot.neverActive = false) (hi : (s.img.ports.getD r.port {}).ideMemRequired = false)
include hn hi

/-- R271: where the translation cache gives no entry a walk does. -/
theorem State.hostAccept_walks {hit : Bool} (hw : hit = false ∨ s.walkOf r.vd (r.dpa / 65536) ≠ none ∨ s.entry r.vd (r.dpa / 65536) = none) :
    s.hostAccept r hit pick = (s.cxlTaken r).hostWalk (s.stampCxl r) := by
  have hn' : (s.cxlTaken r).boot.neverActive = false := hn
  simp only [State.hostAccept, State.hostTake_eq, hn', show (s.stampCxl r).port = r.port from rfl, hi, Bool.false_and, Bool.false_eq_true, if_false]
  split
  · next hwalk hentry =>
    rcases hw with hw | hw | hw
    · cases hw
    · exact absurd hwalk hw
    · exact absurd (hw.symm.trans hentry) (by simp)
  · rfl

/-- R141, R286: a page that the port's translation cache holds is served at once. -/
theorem State.hostAccept_hit {ep : Nat} {e : PEntry} (hw : s.walkOf r.vd (r.dpa / 65536) = none) (he : s.entry r.vd (r.dpa / 65536) = some (ep, e))
    (hk : e.kind = .page) (ha : (s.cxlTaken r).lineAhead (s.stampCxl r) = false) : s.hostAccept r true pick =
      ((s.cxlTaken r).sampleHeat r.port r.vd ep).hostServe (s.stampCxl r) (e.gaddr ep r.dpa) pick := by
  have hn' : (s.cxlTaken r).boot.neverActive = false := hn
  have hw' : (s.cxlTaken r).walkOf (s.stampCxl r).vd ((s.stampCxl r).dpa / 65536) = none := hw
  have he' : (s.cxlTaken r).entry (s.stampCxl r).vd ((s.stampCxl r).dpa / 65536) = some (ep, e) := he
  simp only [State.hostAccept, State.hostTake_eq, hn', show (s.stampCxl r).port = r.port from rfl, hi, Bool.false_and, Bool.false_eq_true, if_false,
    hw', he', State.hostEntry, ha, hk]
  rfl

end

/-! ### Answers to a host (R142, R144) -/

/-- R142: on the link that carried the request an answer is sent with the port's DevLoad, and the request is outstanding no longer. -/
theorem State.hostAnswer_sends {s : State} {p era : Nat} (hl : (s.port p).link = 2) (hc : (s.port p).conflicts = []) (he : era = (s.port p).era)
    (vd tag : Nat) (x : Line) (ps : Sectors) (mv : Meta) : ∃ pt ga, s.hostAnswer p vd tag era x ps mv
      = { s with ports := pt, gauges := ga, out := s.out ++ [.s2m p tag x ps mv (s.port p).devLoad] } := by
  have hsend : ¬ (era ≠ (s.port p).era ∨ (s.port p).link ≠ 2) := by simp [he, hl]
  unfold State.hostAnswer
  extract_lets y isIt s1 s2 s3
  rw [if_neg hsend, show y.conflicts = [] from hc]
  have h2 : ∃ pt ga, s2 = { s with ports := pt, gauges := ga } := by
    unfold s2
    split
    · exact ⟨s1.ports, _, rfl⟩
    · exact ⟨s1.ports, s.gauges, rfl⟩
  obtain ⟨pt, ga, h3⟩ : ∃ pt ga, s3 = { s with ports := pt, gauges := ga } := by
    obtain ⟨pt, ga, h⟩ := h2
    refine ⟨s3.ports, ga, ?_⟩
    unfold s3
    rw [h]
    rfl
  rw [h3]
  exact ⟨pt, ga, rfl⟩

/-! ### A host's request at an idle line -/

/-- The answer to a host's request that asks for no copy of the line (R138). -/
theorem State.answer_host (s : State) {q : Req} {p : Nat} (hq : q.src = .host p) (hmv : q.op = .memRd → q.mv ≠ .shared ∧ q.mv ≠ .any) (gl : Nat)
    (st : Status) (x : Line) (ps : Sectors) (e : DirEntry) : s.answer gl q st x ps e = s.hostAnswer p q.vd q.tag q.era x ps .inv := by
  simp only [State.answer, hq]
  split
  · next hop hs => exact absurd hs (hmv hop).1
  · next hop hs => exact absurd hs (hmv hop).2
  · rfl

/-- The request that a translated access makes at its home: a half of a line (R138). -/
def CxlReq.atLine (r : CxlReq) (ga : Nat) (mv : Meta) : Req :=
  { op := r.op, src := .host r.port, vd := r.vd, tag := r.tag, dpa := r.dpa, line := ga / 128, era := r.era,
    bytes := BitVec.ofNat 128 ((2 ^ 64 - 1) * 2 ^ (64 * (ga / 64 % 2))), data := BitVec.ofNat 1024 (r.data.toNat * 2 ^ (512 * (ga / 64 % 2))),
    pois := if r.pois then BitVec.ofNat 4 (3 * 4 ^ (ga / 64 % 2)) else 0, mv := mv }

/-- R138: a MetaValue counts in a range of HDM-DB. -/
def State.metaOf (s : State) (r : CxlReq) : Meta := if s.hdmDb r.vd r.dpa then r.mv else .inv

section
variable {s : State} {n k ga pick : Nat} {f : Frame} {r : CxlReq} (h : s.HomeIdle n (ga / 128) k f)
include h

/-- A host's request on a line idle at its home is applied at once, and whoever waits at the slice tries again. -/
theorem State.hostServe_homeIdle : s.hostServe r ga pick =
    (s.applyReq n (ga / 128) (r.atLine ga (s.metaOf r)) {} (s.finalEntry {} (r.atLine ga (s.metaOf r)) [] [])).wake n pick := by
  have hattrs : s.withAttrs (r.atLine ga (s.metaOf r)) = r.atLine ga (s.metaOf r) := by
    obtain ⟨-, -, -, -, -, -, -, -, -, -, -, -, -, -, -, hattr, -⟩ := h
    simp [State.withAttrs, CxlReq.atLine, hattr]
  have hserve := State.serve_homeIdle h (r := r.atLine ga (s.metaOf r)) rfl rfl rfl rfl pick
  have hfinish : s.finish n (ga / 128) (r.atLine ga (s.metaOf r)) [] [] =
      (s.applyReq n (ga / 128) (r.atLine ga (s.metaOf r)) {} (s.finalEntry {} (r.atLine ga (s.metaOf r)) [] []), none) := by
    obtain ⟨-, -, -, -, -, -, -, -, -, -, -, -, -, -, -, -, hent, -⟩ := h
    simp [State.finish, State.grants, Req.granted, CxlReq.atLine, hent]
  rw [hfinish] at hserve
  have hnoSnoop : s.register? (ga / 128) = none := by
    obtain ⟨-, -, -, hslice, -, -, -, -, hmiss, -⟩ := h
    simp [State.register?, hslice, hmiss, Tab.find]
  have harrive := State.arrive_homeIdle h (r := r.atLine ga (s.metaOf r)) rfl hserve
  obtain ⟨hdev, hoff, hlost, hslice, hrefresh, -⟩ := h
  have hline : (r.atLine ga (s.metaOf r)).line = ga / 128 := rfl
  have haccept : s.homeAccept (r.atLine ga (s.metaOf r)) pick =
      (s.applyReq n (ga / 128) (r.atLine ga (s.metaOf r)) {} (s.finalEntry {} (r.atLine ga (s.metaOf r)) [] [])).wake n pick := by
    rw [State.homeAccept, hline, if_neg (by rw [hoff]; decide), if_neg (by rw [hlost]; decide), State.stackFor_awake hrefresh, hslice, harrive]
  rw [← haccept, ← hattrs]
  simp [State.hostServe, hdev, State.writeUnderSnoop, hnoSnoop, CxlReq.atLine, State.metaOf]

/-- Where what a request does is a change of the directory and the slices and an answer to the host, and no register of the slice is in
use afterwards, that is all that comes of it. -/
theorem State.hostServe_outcome (hl : (s.port r.port).link = 2) (hc : (s.port r.port).conflicts = []) (he : r.era = (s.port r.port).era) {u : State}
    {x : Line} {p : Sectors} {mv : Meta}
    (happ : s.applyReq n (ga / 128) (r.atLine ga (s.metaOf r)) {} (s.finalEntry {} (r.atLine ga (s.metaOf r)) [] [])
      = u.hostAnswer r.port r.vd r.tag r.era x p mv)
    (hu : u = { s with dir := u.dir, slices := u.slices }) (hm : (u.slice n).miss = []) :
    (s.hostServe r ga pick).mem = s.mem ∧ (s.hostServe r ga pick).vds = s.vds
      ∧ (s.hostServe r ga pick).out = s.out ++ [.s2m r.port r.tag x p mv (s.port r.port).devLoad]
      ∧ (s.hostServe r ga pick).slice n = u.slice n := by
  have hport : u.port = s.port := by rw [hu]; rfl
  obtain ⟨pt, gs, hans⟩ := State.hostAnswer_sends (s := u) (p := r.port) (era := r.era) (by rw [hport, hl]) (by rw [hport, hc]) (by rw [hport, he])
    r.vd r.tag x p mv
  rw [← happ] at hans
  have hslice : (s.applyReq n (ga / 128) (r.atLine ga (s.metaOf r)) {} (s.finalEntry {} (r.atLine ga (s.metaOf r)) [] [])).slice n = u.slice n := by
    rw [hans]
    rfl
  have hmem : u.mem = s.mem := by rw [hu]
  have hvds : u.vds = s.vds := by rw [hu]
  have hout : u.out = s.out := by rw [hu]
  rw [State.hostServe_homeIdle h, State.wake_of_no_miss (by rw [hslice, hm])]
  refine ⟨?_, ?_, ?_, hslice⟩ <;> rw [hans]
  · exact hmem
  · exact hvds
  · rw [← hport, ← hout]

/-- MEM_RD: the frame's half. -/
theorem State.applyReq_memRd {q : Req} {p : Nat} (hop : q.op = .memRd) (hq : q.src = .host p) (hl : q.l1 = none) (hmv : q.mv = .none ∨ q.mv = .inv)
    (e e' : DirEntry) : s.applyReq n (ga / 128) q e e'
      = (s.withEntry (ga / 128) e').hostAnswer p q.vd q.tag q.era f.data (f.p &&& bytesSectors q.bytes) .inv := by
  have hdir := State.setDir_homeIdle h e'
  obtain ⟨-, -, -, -, -, -, -, -, -, -, hprom, hhit, -⟩ := h
  have hno : q.mv ≠ .shared ∧ q.mv ≠ .any := by rcases hmv with hmv | hmv <;> rw [hmv] <;> decide
  simp only [State.applyReq, hop, hdir, State.view_of_hit hprom hhit, State.touchL1_none hl, Req.need]
  exact State.answer_host _ hq (fun _ => hno) _ _ _ _ _

/-- MEM_WR: a half merged into the frame. -/
theorem State.applyReq_memWr {q : Req} {p : Nat} (hop : q.op = .memWr) (hq : q.src = .host p) (e e' : DirEntry) :
    s.applyReq n (ga / 128) q e e'
      = ((s.withEntry (ga / 128) e').setFrame n k (f.merge q.bytes q.data q.pois)).hostAnswer p q.vd q.tag q.era 0 0 .inv := by
  have hdir := State.setDir_homeIdle h e'
  obtain ⟨-, -, -, -, -, -, -, -, -, -, hprom, hhit, -⟩ := h
  have hstore := State.storeLine_of_hit (s := s.withEntry (ga / 128) e') hprom hhit q.bytes q.data q.pois
  simp only [State.applyReq, hop, hdir, hstore]
  exact State.answer_host _ hq (fun h => by rw [hop] at h; cases h) _ _ _ _ _

/-- MEM_CLN_EVCT: an answer alone. -/
theorem State.applyReq_memClnEvct {q : Req} {p : Nat} (hop : q.op = .memClnEvct) (hq : q.src = .host p) (e e' : DirEntry) :
    s.applyReq n (ga / 128) q e e' = (s.withEntry (ga / 128) e').hostAnswer p q.vd q.tag q.era 0 0 .inv := by
  simp only [State.applyReq, hop, State.setDir_homeIdle h e']
  exact State.answer_host _ hq (fun h => by rw [hop] at h; cases h) _ _ _ _ _

end

/-! ### Walks (R270, R271, R273) -/

theorem State.entry_putEntry (s : State) (v : Nat) {page : Nat} (hp : page < 2 ^ 26) (e : PEntry) :
    (s.putEntry v page e).entry v page = some (page, e) := by
  have hfind : (s.putEntry v page e).slu.pt.find (ptKey v page) = some e := Tab.find_put_same _ _ _
  rw [State.entry, if_neg (Nat.not_le.2 hp), hfind]

/-- R273: the entry of a first touch of 64 KiB. -/
theorem State.entry_touchDone (s : State) (v : Nat) {page : Nat} (hp : page < 2 ^ 26) (f : Nat) : (s.touchDone v page f false).entry v page =
    some (page, { kind := .page, gframe := s.pool.devnum * 2 ^ 25 + f, moved := s.movedNow }) :=
  State.entry_putEntry _ v hp _

section
variable {s : State} {v page pick : Nat} {w : Walk} (hw : s.walkOf v page = some w)
include hw

section
variable (hslot : w.slot = true) (hzero : w.zero = none)
include hslot hzero

/-- The walk meets an entry that has settled. -/
theorem State.sluiceWalk_entry {ep : Nat} {e : PEntry} (he : s.entry v page = some (ep, e)) (hk : e.kind ≠ .migrating) :
    s.sluiceWalk v page pick = (s.dropWalk v page).walkServe w.acc ep e pick := by
  simp [State.sluiceWalk, hw, hslot, hzero, he, hk]

/-- R134: the walk meets no entry, outside every extent. -/
theorem State.sluiceWalk_outside (he : s.entry v page = none) (hx : s.inExtent v (page * 65536) = false) :
    s.sluiceWalk v page pick = w.acc.foldl (fun s r => s.hostOutside r false) (s.dropWalk v page) := by
  simp [State.sluiceWalk, hw, hslot, hzero, he, hx]

/-- R273: a first touch takes frames, and the walk waits until they are zeroed. -/
theorem State.sluiceWalk_touch (he : s.entry v page = none) (hx : s.inExtent v (page * 65536) = true) (hb : s.touchBusy v page = false) {f : Nat}
    {big : Bool} (hf : s.touchFrames v page pick = .ok (f, big)) : s.sluiceWalk v page pick =
      (s.touchTake v page f big).setWalks fun ws => ws.map fun y => if y.vd = v ∧ y.page = page then { y with zero := some (f, big) } else y := by
  simp [State.sluiceWalk, hw, hslot, hzero, he, hx, hb, hf]

end

theorem exec_pageZeroDone {f : Nat} (hf : w.zero = some (f, false)) (hp : page < 2 ^ 26) : exec (.pageZeroDone v page pick) s =
    .next ((((s.dropWalk v page).touchDone v page f false).walkServe w.acc page
      { kind := .page, gframe := s.pool.devnum * 2 ^ 25 + f, moved := s.movedNow } pick).placeResume v page pick) := by
  have hpool : (s.dropWalk v page).pool = s.pool := by rw [State.dropWalk, hw]; rfl
  have hnow : (s.dropWalk v page).movedNow = s.movedNow := by rw [State.dropWalk, hw]; rfl
  have hentry := (s.dropWalk v page).entry_touchDone v hp f
  rw [hpool, hnow] at hentry
  show execPageZeroDone v page pick s = _
  simp only [execPageZeroDone, hw, hf, hentry]

end

/-! ### Refusals, hints and conflicts (R134, R143, R233) -/

/-- R134: outside every extent, in a second whose event is written, a request is answered and nothing else. -/
theorem State.hostOutside_limited {s : State} {r : CxlReq} (hl : (s.port r.port).link = 2) (hc : (s.port r.port).conflicts = [])
    (he : r.era = (s.port r.port).era) (hlim : (s.limits.any fun l => decide (l.kind = 2) && decide (l.who = r.vd) && decide (l.place = r.dpa / 2097152)
      && decide (s.now < l.time + 10 ^ 9)) = true) (quota : Bool) :
    (s.hostOutside r quota).mem = s.mem ∧ (s.hostOutside r quota).out
      = s.out ++ [.s2m r.port r.tag 0 (if r.op.changes then 0 else 15) .inv (s.port r.port).devLoad] := by
  obtain ⟨pt, ga, hans⟩ := State.hostAnswer_sends hl hc he r.vd r.tag 0 (if r.op.changes && !false then 0 else 15) .inv
  have hrefuse : s.hostOutside r quota = s.hostRefuse r := by
    have hsame : (s.hostRefuse r).limited 2 r.vd (r.dpa / 2097152) = (false, s.hostRefuse r) := by
      refine if_pos ?_
      rw [State.hostRefuse, hans]
      exact hlim
    rw [State.hostOutside, hsame]
  rw [hrefuse, State.hostRefuse, hans]
  exact ⟨rfl, by simp⟩

/-! ### A waiting Hopper command (R165) -/

theorem State.arbGrant_alone {s : State} {q : QueueId} {use : Nat → Nat} {y : Ask} (ha : (s.queue q).arb = {}) (hc : s.canTake q use y.share = true)
    (pick : Nat) : ∃ qs, s.arbGrant q use [y] pick = some (0, { s with queues := qs }) := by
  obtain ⟨a, hchoose⟩ := Arb.choose_alone y pick
  by_cases hown : use y.share < s.reserve q y.share
  · exact ⟨s.queues, by simp [State.arbGrant, List.range_succ, hown]⟩
  · refine ⟨(s.setQueue q { s.queue q with arb := a }).queues, ?_⟩
    simp [State.arbGrant, List.range_succ, hown, hc, ha, hchoose]
    rfl

theorem State.grantListed_alone {s : State} {q : QueueId} {use : Nat → Nat} {w : QWait} (hq : (s.queue q).waiting = [w]) (ha : (s.queue q).arb = {})
    (hc : s.canTake q use w.vd = true) (pick : Nat) : ∃ qs, s.grantListed q use pick = some (w, { s with queues := qs }) := by
  obtain ⟨qs, hgrant⟩ := State.arbGrant_alone (y := s.ask w.vd) ha hc pick
  refine ⟨(State.setQueue { s with queues := qs } q { State.queue { s with queues := qs } q with waiting := [] }).queues, ?_⟩
  simp only [State.grantListed, hq, List.map_cons, List.map_nil, hgrant]
  rfl

theorem exec_sharedEntryGrant_hopper {s : State} {v q : Nat} {c : Cmd} (hq : (s.queue .hopperCmds).waiting = [{ vd := v, item := q }])
    (ha : (s.queue .hopperCmds).arb = {}) (ht : s.canTake .hopperCmds s.useHopper v = true) (hc : s.cmd? q = some c) (pick : Nat) (x : Ext) :
    ∃ t, exec (.sharedEntryGrant .hopperCmds pick x) s = .next t ∧ t.cmd? q = some { c with admitted := true } ∧ t.mem = s.mem ∧ t.out = s.out := by
  obtain ⟨qs, hlisted⟩ := State.grantListed_alone (s := s.fresh) (use := s.fresh.useHopper) hq ha ht pick
  have hcmd : State.cmd? { s.fresh with queues := qs } q = some c := hc
  have hentry : s.fresh.grantEntry .hopperCmds pick x = State.setCmd { s.fresh with queues := qs } q { c with admitted := true } := by
    simp only [State.grantEntry, hlisted, State.modCmd, hcmd]
  refine ⟨_, congrArg Host.Outcome.next (State.orWait_next ?_), ?_⟩ <;> rw [hentry]
  · rfl
  · exact ⟨Tab.find_put_same _ _ _, rfl, rfl⟩

/-! ### The obligation -/

/-- Settles O31: an accepted request is stamped and translated; the home serves it within the row; and each other row is its lemma above. -/
theorem hostRequestsAreAcceptedTranslatedAndServed : Obligations.HostRequestsAreAcceptedTranslatedAndServed := by
  refine ⟨?accepted, fun s r n k ga pick f h hl hc he => ⟨?read, ?write, ?evict⟩,
    fun s v page pick w hw hslot hzero => ⟨fun ep e he hk => ?mapped, fun he hx => ?outside, fun f big he hx hb hf => ?touch⟩,
    fun s v page pick f w hw hf hp => exec_pageZeroDone hw hf hp,
    fun s r quota hl hc he hlim => State.hostOutside_limited hl hc he hlim quota,
    fun s port ld dpa pick => if_neg (by simp),
    fun s port ld dpa pick ep e hl hc hx ha hw ho he hk => exec_memSpecRd hl hc hx ha hw ho he (.inl hk) pick,
    fun s port line tag h => if_neg (by rw [h]; decide), fun s port line tag h => if_pos h,
    fun s v q pick c x hq ha ht hc => exec_sharedEntryGrant_hopper hq ha ht hc pick x⟩
  case accepted =>
    intro s r r1 ld pick hp hl hc _ hx hn hact hwarm hclr hide hsw hld hm hera hno hport hvd htag hdpa hmv hdata hpois hcred s1 hs1
    have hr1 : r1 = s.stampCxl (r.forLd r1.op ld) := by
      cases r1
      simp only at hera hno hport hvd htag hdpa hmv hdata hpois
      subst hera hno hport hvd htag hdpa hmv hdata hpois
      rfl
    have hs1' : s1 = s.cxlTaken (r.forLd r1.op ld) := by rw [hs1, hera, hvd]; rfl
    have harrive (hit : Bool) : s.hostArrive { r with op := r1.op } ld hit pick = s.hostAccept (r.forLd r1.op ld) hit pick :=
      State.hostArrive_accepts (r := { r with op := r1.op }) hp hl hc hcred hld hx (State.not_hostHeld hsw hact hwarm hclr) hm hit
    refine ⟨fun hit hmiss => ?_, fun ep e hw he hk ha => ?_⟩
    · have hwalk : s.hostArrive { r with op := r1.op } ld hit pick = s1.hostWalk r1 := by
        rw [harrive, State.hostAccept_walks (r := r.forLd r1.op ld) hn hide (by rwa [hvd] at hmiss), ← hs1', ← hr1]
      refine ⟨fun hop => ?_, fun hop => ?_, fun hop => ?_⟩ <;> rw [← hwalk, hop] <;> rfl
    · have hhit : s.hostArrive { r with op := r1.op } ld true pick = (s1.sampleHeat r1.port r1.vd ep).hostServe r1 (e.gaddr ep r.dpa) pick := by
        rw [hvd] at hw he
        rw [hr1, hs1'] at ha
        rw [harrive, State.hostAccept_hit (r := r.forLd r1.op ld) hn hide hw he hk ha, ← hs1', ← hr1, hport, hvd]
        rfl
      refine ⟨fun hop => ?_, fun hop => ?_, fun hop => ?_⟩ <;> rw [← hhit, hop] <;> rfl
  case read =>
    intro hop hmv
    have hmeta : s.metaOf r = .none ∨ s.metaOf r = .inv := by
      rw [State.metaOf, hmv]
      split <;> simp
    obtain ⟨hmem, hvds, hout, -⟩ := State.hostServe_outcome (pick := pick) h hl hc he (State.applyReq_memRd h hop rfl rfl hmeta _ _) rfl h.miss
    exact ⟨_, rfl, hmem, hvds, hout⟩
  case write =>
    intro hop _
    have hset := State.slice_setFrame (s := s.withEntry (ga / 128) (s.finalEntry {} (r.atLine ga (s.metaOf r)) [] [])) (n := n) (k := k)
      (f.merge (r.atLine ga (s.metaOf r)).bytes (r.atLine ga (s.metaOf r)).data (r.atLine ga (s.metaOf r)).pois) h.frame_st
    obtain ⟨hmem, hvds, hout, hslice⟩ := State.hostServe_outcome (pick := pick) h hl hc he (State.applyReq_memWr h hop rfl _ _) rfl
      ((congrArg Slice.miss hset).trans h.miss)
    refine ⟨_, rfl, hmem, hvds, hout, ?_⟩
    rw [hslice, hset]
    exact Tab.find_put_same _ _ _
  case evict =>
    intro hop
    obtain ⟨hmem, hvds, hout, -⟩ := State.hostServe_outcome (pick := pick) h hl hc he (State.applyReq_memClnEvct h hop rfl _ _) rfl h.miss
    exact ⟨_, rfl, hmem, hvds, hout⟩
  case mapped => exact congrArg (fun t => Host.Outcome.next (t.recFlush pick)) (State.sluiceWalk_entry hw hslot hzero he hk)
  case outside => exact congrArg (fun t => Host.Outcome.next (t.recFlush pick)) (State.sluiceWalk_outside hw hslot hzero he hx)
  case touch => exact congrArg (fun t => Host.Outcome.next (t.recFlush pick)) (State.sluiceWalk_touch hw hslot hzero he hx hb hf)

end Sys2Proof.Machine
end

section
/-!
The steps of a VD reset (O20; R168 to R174, Table 06-4): the stop of its tasks and what is abandoned leave the memories and the VD in its
reset, the sweep clears what is counted and queued for the VD, and the last step makes it ready.
-/
namespace Sys2Proof.Machine

/-! ### Tables, in any form -/

/-- A key that is found stays found when another is deleted, whatever the table's form. -/
theorem Tab.find_del_of_found {α : Type} {t : Tab α} {m n : Nat} {x : α} (h : Tab.find t m = some x) (hm : m ≠ n) :
    Tab.find (Tab.del t n) m = some x := by
  induction t with
  | nil => cases h
  | cons e t ih =>
    obtain ⟨k, y⟩ := e
    rw [Tab.del]
    split
    · subst_vars
      rw [Tab.find, if_neg hm] at h
      split at h
      · cases h
      · exact h
    · split
      · exact h
      · simp only [Tab.find] at h ⊢
        split at h
        · simp [*]
        · split at h
          · cases h
          · simp [*]

theorem Tab.getD_setD_of_found {α : Type} [DecidableEq α] {t : Tab α} {m n : Nat} {d : α} (h : Tab.getD t m d ≠ d) (hm : m ≠ n) (x : α) :
    Tab.getD (Tab.setD t n d x) m d = Tab.getD t m d := by
  by_cases hx : x = d
  · rw [Tab.setD, if_pos hx]
    cases hf : Tab.find t m with
    | none => exact absurd (by rw [Tab.getD, hf]; rfl) h
    | some y => rw [Tab.getD, Tab.getD, Tab.find_del_of_found hf hm, hf]
  · exact Tab.getD_setD_other_of_ne t hx hm

/-- A field that each step of a fold leaves, the fold leaves. -/
theorem State.foldl_leaves {α β : Type} {f : State → α → State} {g : State → β} (hf : ∀ s a, g (f s a) = g s) (l : List α) (s : State) :
    g (l.foldl f s) = g s := by
  induction l generalizing s with
  | nil => rfl
  | cons a l ih => exact (ih (f s a)).trans (hf s a)

/-! ### What leaves the memories, and a VD in its reset -/

/-- From `s` to `t` DRAM and the bays keep their bytes, and VD `v` stays in its reset if it is in one. -/
structure State.StaysInReset (v : Nat) (s t : State) : Prop where
  mem : t.mem = s.mem
  bays : t.bays = s.bays
  st : (s.vd v).st = .resetting → (t.vd v).st = .resetting

section
variable {v : Nat} {s t u : State}

theorem State.StaysInReset.of_vds_same (hm : t.mem = s.mem) (hb : t.bays = s.bays) (hv : t.vds = s.vds) : s.StaysInReset v t :=
  ⟨hm, hb, fun h => by rw [State.vd, hv]; exact h⟩

theorem State.StaysInReset.refl (s : State) : s.StaysInReset v s := ⟨rfl, rfl, id⟩

theorem State.StaysInReset.trans (h : s.StaysInReset v t) (h' : t.StaysInReset v u) : s.StaysInReset v u :=
  ⟨h'.mem.trans h.mem, h'.bays.trans h.bays, fun e => h'.st (h.st e)⟩

theorem State.StaysInReset.foldl {α : Type} {f : State → α → State} (hf : ∀ s a, State.StaysInReset v s (f s a)) (l : List α) (s : State) :
    s.StaysInReset v (l.foldl f s) := by
  induction l generalizing s with
  | nil => exact .refl s
  | cons a l ih => exact (hf s a).trans (ih _)

end

section
variable (v : Nat) (s : State)

theorem State.StaysInReset.modVd (w : Nat) {f : Vd → Vd} (hf : ∀ x, (f x).st = x.st) : s.StaysInReset v (s.modVd w f) := by
  refine ⟨rfl, rfl, fun h => ?_⟩
  by_cases hw : v = w
  · subst hw
    rw [State.modVd, State.vd_setVd_resetting ((hf _).trans h), hf, h]
  · have hvd : (s.modVd w f).vd v = s.vd v := Tab.getD_setD_of_found (Vd.ne_default_of_resetting h) hw _
    rw [hvd, h]

theorem State.StaysInReset.modCmd (q : Nat) (f : Cmd → Cmd) : s.StaysInReset v (s.modCmd q f) := by
  unfold State.modCmd
  split <;> exact .of_vds_same rfl rfl rfl

theorem State.StaysInReset.unwait (q : QueueId) (item : Nat) : s.StaysInReset v (s.unwait q item) := by
  obtain ⟨qs, he⟩ := s.unwait_queues q item
  rw [he]
  exact .of_vds_same rfl rfl rfl

theorem State.StaysInReset.sendRemote (r : RemoteOp) (m : OutMsg) : s.StaysInReset v (s.sendRemote r m) := by
  unfold State.sendRemote
  split <;> exact .of_vds_same rfl rfl rfl

/-! ### Step 3 (R169, R249): the VD's tasks stop -/

/-- A command without tasks that has ended CANCELLED. -/
def Cmd.stopped (c : Cmd) : Cmd :=
  { c with tasks := [], uncreated := [], engineFin := some { term := .cancelled, status := .cancelled } }

theorem State.cmd?_modCmd (k : Nat) (f : Cmd → Cmd) (q : Nat) : (s.modCmd k f).cmd? q = if q = k then (s.cmd? q).map f else s.cmd? q := by
  unfold State.modCmd
  split
  next c hc =>
    split
    · subst_vars
      rw [hc]
      exact Tab.find_put_same _ _ _
    · exact Tab.find_put_other _ _ ‹_›
  next hc =>
    split
    · subst_vars
      rw [hc]
      rfl
    · rfl

theorem State.cmd?_foldl_stopped (l : List (Nat × Cmd)) (q : Nat) : (l.foldl (fun s e => s.modCmd e.1 Cmd.stopped) s).cmd? q =
    if q ∈ l.map Prod.fst then (s.cmd? q).map Cmd.stopped else s.cmd? q := by
  induction l generalizing s with
  | nil => rfl
  | cons e l ih =>
    have htwice : (fun c => c.stopped.stopped) = Cmd.stopped := rfl
    rw [List.foldl_cons, ih, State.cmd?_modCmd]
    by_cases he : q = e.1 <;> by_cases hl : q ∈ l.map Prod.fst <;> simp [he, hl, Function.comp_def, htwice]

/-- R249: the buffers that tasks held are released, and then the commands end; nothing before that is about memory, VDs or commands. -/
theorem State.stopCmds_eq (l : List (Nat × Cmd)) : ∃ u : State, (u.mem, u.bays, u.vds, u.dax) = (s.mem, s.bays, s.vds, s.dax)
    ∧ s.stopCmds l = l.foldl (fun s e => s.modCmd e.1 Cmd.stopped) u := by
  refine ⟨_, ?_, rfl⟩
  refine State.foldl_leaves (g := fun s => (s.mem, s.bays, s.vds, s.dax)) (fun s e => ?_) _ _
  refine State.foldl_leaves (g := fun s => (s.mem, s.bays, s.vds, s.dax)) (fun s t => ?_) _ _
  refine State.foldl_leaves (g := fun s => (s.mem, s.bays, s.vds, s.dax)) (fun s h => ?_) _ _
  rfl

theorem State.cmd?_stopCmds (l : List (Nat × Cmd)) (q : Nat) :
    (s.stopCmds l).cmd? q = if q ∈ l.map Prod.fst then (s.cmd? q).map Cmd.stopped else s.cmd? q := by
  obtain ⟨u, hu, he⟩ := s.stopCmds_eq l
  simp only [Prod.mk.injEq] at hu
  obtain ⟨-, -, -, hdax⟩ := hu
  have hcmd : u.cmd? q = s.cmd? q := congrArg (fun d : Dax => Tab.find d.cmds q) hdax
  rw [he, State.cmd?_foldl_stopped, hcmd]

theorem State.StaysInReset.stopCmds (l : List (Nat × Cmd)) : s.StaysInReset v (s.stopCmds l) := by
  obtain ⟨u, hu, he⟩ := s.stopCmds_eq l
  simp only [Prod.mk.injEq] at hu
  obtain ⟨hmem, hbays, hvds, -⟩ := hu
  rw [he]
  exact .trans (.of_vds_same hmem hbays hvds) (.foldl (fun s (e : Nat × Cmd) => .modCmd v s e.1 _) _ _)

/-! ### Step 4 (R320, R326, R330): pennants and registrations of the old epoch -/

theorem State.StaysInReset.release (r : PenReg) (met : Bool) : s.StaysInReset v (s.release r met) := by
  have harm (q : Nat) (st : Status) (n : Nat) : s.StaysInReset v (s.armEnd q st n) := .trans (.modCmd v s q _) (.modCmd v _ q _)
  unfold State.release
  split
  · split
    · exact .of_vds_same rfl rfl rfl
    · split
      · split <;> exact harm ..
      · exact .of_vds_same rfl rfl rfl
  · exact .of_vds_same rfl rfl rfl

theorem State.StaysInReset.withdraw (f : PenReg → Bool) : s.StaysInReset v (s.withdraw f) := by
  refine .trans (t := { s with pen := { s.pen with regs := s.pen.regs.filter fun r => !f r } })
    (.of_vds_same rfl rfl rfl) (.foldl (fun s r => ?_) _ _)
  split
  next hw =>
    rw [State.recorded, hw]
    exact .of_vds_same rfl rfl rfl
  · exact .refl s

theorem State.StaysInReset.revokeExport (p : Nat) : s.StaysInReset v (s.revokeExport p) := by
  unfold State.revokeExport
  split
  · exact .refl s
  · extract_lets t hit s0 _ s1
    have h0 : s.StaysInReset v s0 := .trans (.withdraw v s hit) (.foldl (fun s r => by
      split
      · exact .release v s r false
      · exact .refl s) _ _)
    have h1 : s0.StaysInReset v s1 := .of_vds_same rfl rfl rfl
    refine (h0.trans h1).trans (.foldl (fun s i => ?_) _ _)
    split
    · exact .modVd v s i.2 fun _ => rfl
    · exact .of_vds_same rfl rfl rfl

theorem State.StaysInReset.penAbandon (p : Nat) : s.StaysInReset v (s.penAbandon p) := by
  unfold State.penAbandon
  extract_lets x s1 s2 s3 s4
  have h1 : s.StaysInReset v s1 := .trans (.withdraw v s _) (.foldl (fun s r => .release v s r false) _ _)
  have h3 : s2.StaysInReset v s3 := .modVd v s2 x.owner fun _ => rfl
  exact ((h1.trans (.revokeExport v s1 p)).trans h3).trans (.of_vds_same rfl rfl rfl)

theorem State.StaysInReset.unimport (w t : Nat) : s.StaysInReset v (s.unimport w t) := by
  unfold State.unimport
  split
  · split <;> exact .of_vds_same rfl rfl rfl
  · exact .sendRemote v s _ _

theorem State.StaysInReset.withdrawCmd (q : Nat) (c : Cmd) : s.StaysInReset v (s.withdrawCmd q c) := by
  unfold State.withdrawCmd
  extract_lets mine s1 _ s2
  have h1 : s.StaysInReset v s1 := .withdraw v s _
  have h2 : s.StaysInReset v s2 := by
    refine .trans ?_ (.unwait v _ _ _)
    refine .trans ?_ (.unwait v _ _ _)
    exact h1.trans (.of_vds_same rfl rfl rfl)
  split
  · split
    · exact h2
    · exact h2.trans (.sendRemote v s2 _ _)
  · exact h2

/-- The old epoch's commands and what its bindings held are given up before the bindings themselves go. -/
theorem State.vdAbandon_eq : ∃ u, s.StaysInReset v u ∧ s.vdAbandon v = u.modVd v fun x => { x with oldBind := [] } := by
  unfold State.vdAbandon
  extract_lets s1 held s2 s3
  have h1 : s.StaysInReset v s1 := .foldl (fun s (e : Nat × Cmd) => by
    exact .trans (.withdrawCmd v s e.1 e.2) (.of_vds_same rfl rfl rfl)) _ _
  have h2 : s1.StaysInReset v s2 := .foldl (fun s b => by
    split
    · exact .unimport v s v _
    · exact .refl s) _ _
  have h3 : s2.StaysInReset v s3 := .foldl (fun s b => by
    split
    · exact .penAbandon v s _
    · exact .refl s) _ _
  exact ⟨s3, (h1.trans h2).trans h3, rfl⟩

end

/-! ### Step 5 (R169, R172, R262): the sweep -/

theorem State.zeroBlock_leaves (s : State) (p o n : Nat) : ((s.zeroBlock p o n).vds, (s.zeroBlock p o n).stall) = (s.vds, s.stall) := by
  unfold State.zeroBlock
  split <;> rfl

theorem State.revokeRec_leaves (s : State) (k : Nat) : ((s.revokeRec k).vds, (s.revokeRec k).stall) = (s.vds, s.stall) := by
  unfold State.revokeRec
  extract_lets r p s1
  have hzeroed : (s1.vds, s1.stall) = (s.vds, s.stall) := by
    unfold s1
    split
    · exact s.zeroBlock_leaves _ _ _
    · rfl
  split
  · rfl
  · exact hzeroed

/-- R262: of the VDs and of what a row waits for, the sweep of Hopper's records sets the count of the VD's buffers. -/
theorem State.hopSweep_leaves (s : State) (v : Nat) :
    (s.hopSweep v).vds = (s.modVd v fun x => { x with useBuf := 0 }).vds ∧ (s.hopSweep v).stall = s.stall := by
  unfold State.hopSweep
  extract_lets ks _ s1
  have hleft := State.foldl_leaves (g := fun s => (s.vds, s.stall)) State.revokeRec_leaves ks s1
  obtain ⟨hvds, hstall⟩ := Prod.mk.inj hleft
  refine ⟨?_, hstall⟩
  show Tab.setD (ks.foldl State.revokeRec s1).vds v {} { Tab.getD (ks.foldl State.revokeRec s1).vds v {} with useBuf := 0 } = _
  rw [hvds]
  rfl

/-- A VD whose rings, error ring and counts of its queues are at their reset values. -/
def Vd.cleared (x : Vd) : Vd :=
  { x with rings := [], rrRing := 0, errRing := {}, failedStreams := [], useTask := 0, staleCnt := 0, penDropCnt := 0 }

theorem State.vdClear_leaves {s : State} {v : Nat} (h : (s.vd v).memClr = false) :
    (s.vdClear v).vds = (s.modVd v Vd.cleared).vds ∧ (s.vdClear v).stall = s.stall := by
  simp only [State.vdClear, h, Bool.false_eq_true, if_false]
  exact ⟨rfl, rfl⟩

theorem State.vdSweep_leaves {s : State} {v : Nat} (hst : (s.vd v).st = .resetting) (hclr : (s.vd v).memClr = false) :
    (s.vdSweep v).vd v = { s.vd v with useBuf := 0 }.cleared ∧ (s.vdSweep v).stall = s.stall := by
  obtain ⟨hvds, hstall⟩ := s.hopSweep_leaves v
  have hvd : (s.hopSweep v).vd v = { s.vd v with useBuf := 0 } := by
    rw [State.vd, hvds]
    exact State.vd_setVd_resetting hst
  obtain ⟨hvds', hstall'⟩ := State.vdClear_leaves (s := s.hopSweep v) (v := v) (by rw [hvd]; exact hclr)
  refine ⟨?_, hstall'.trans hstall⟩
  rw [State.vdSweep, State.vd, hvds', ← hvd]
  exact State.vd_setVd_resetting (by rw [hvd]; exact hst)

/-! ### Step 6 (R171): the VD is ready -/

/-- The VD as VD_RESET_COMPLETE leaves it, as the device's Memory Active bit has it. -/
def Vd.readied (x : Vd) (active : Bool) : Vd :=
  { x with st := if active then .ready else .notActive, resetSeen := true, lastReset := x.trigger, trigger := 0, memClr := false, resetStep := 0 }

theorem State.vdReady_of_unasked {s : State} {v : Nat} (h : (s.mgmt.resets.all fun r => decide (r.2 ≠ v)) = true) :
    s.vdReady v = s.modVd v fun x => x.readied s.boot.memActive := by
  have hne (r : MctpHdr × Nat) (hr : r ∈ s.mgmt.resets) : r.2 ≠ v := of_decide_eq_true (List.all_eq_true.1 h r hr)
  have hmine : (s.mgmt.resets.filter fun r => decide (r.2 = v)) = [] := List.filter_eq_nil_iff.2 fun r hr => by simpa using hne r hr
  have hrest : (s.mgmt.resets.filter fun r => !decide (r.2 = v)) = s.mgmt.resets := List.filter_eq_self.2 fun r hr => by simpa using hne r hr
  simp only [State.vdReady, hmine, State.modVd_mgmt, hrest]
  rfl

theorem State.releaseHeld_ports {s : State} {p : Nat} (hh : (s.port p).held = []) (pick : Nat) :
    ∃ ports, s.releaseHeld p pick = { s with ports := ports } := by
  by_cases hl : (s.port p).link = 2
  · exact ⟨_, State.releaseHeld_of_none_held hl hh pick⟩
  · exact ⟨s.ports, if_pos hl⟩

/-! ### The obligation -/

theorem State.resetAt_iff {s : State} {v k : Nat} : s.resetAt v k = true ↔ (s.vd v).st = .resetting ∧ (s.vd v).resetStep = k := by
  simp [State.resetAt]

/-- A step that is done leaves the VD in its reset, before the next one. -/
theorem State.vd_resetTo {s : State} {v : Nat} (h : (s.vd v).st = .resetting) (k : Nat) : (s.resetTo v k).vd v = { s.vd v with resetStep := k } :=
  State.vd_setVd_resetting h

/-- Settles O20: each step of Table 06-4 at its place. The commands of the stop are found in a command table of any form. -/
theorem vdResetFollowsItsSteps : Obligations.VdResetFollowsItsSteps := by
  refine ⟨fun s v h _ => ?stop, fun s v h => ?abandon, fun s v x h hclr => ?sweep, fun s v pick h hw hheld hask => ?ready⟩
  case stop =>
    have hstays : s.StaysInReset v (s.vdStop v) := .stopCmds v s _
    refine ⟨(s.vdStop v).resetTo v 3, if_pos h, ?_, hstays.mem, hstays.bays, fun q c hc hv hold => ⟨c.stopped, ?_, rfl, rfl, rfl⟩⟩
    · rw [State.vd_resetTo (hstays.st (State.resetAt_iff.1 h).1)]
    · have hmem : (q, c) ∈ s.oldCmds v := List.mem_filter.2 ⟨Tab.find_mem _ _ _ hc, by simp [hv, hold]⟩
      have hstop : (s.vdStop v).cmd? q = some c.stopped := by
        rw [State.vdStop, State.cmd?_stopCmds, if_pos (List.mem_map_of_mem (f := Prod.fst) hmem), hc]
        rfl
      exact hstop
  case abandon =>
    obtain ⟨u, hstays, hu⟩ := s.vdAbandon_eq v
    have hst : (u.vd v).st = .resetting := hstays.st (State.resetAt_iff.1 h).1
    have hvd : (s.vdAbandon v).vd v = { u.vd v with oldBind := [] } := by
      rw [hu]
      exact State.vd_setVd_resetting hst
    have hdone := State.vd_resetTo (s := s.vdAbandon v) (v := v) (by rw [hvd]; exact hst) 4
    rw [hvd] at hdone
    refine ⟨(s.vdAbandon v).resetTo v 4, if_pos h, by rw [hdone], by rw [hdone], ?_, ?_⟩
    · exact (congrArg State.mem hu).trans hstays.mem
    · exact (congrArg State.bays hu).trans hstays.bays
  case sweep =>
    have hst : (s.vd v).st = .resetting := (State.resetAt_iff.1 h).1
    obtain ⟨hvd, hstall⟩ := State.vdSweep_leaves (s := s.fresh) (v := v) hst hclr
    have hdone := State.vd_resetTo (s := s.fresh.vdSweep v) (v := v) (by rw [hvd]; exact hst) 5
    rw [hvd] at hdone
    refine ⟨(s.fresh.vdSweep v).resetTo v 5, congrArg Host.Outcome.next (State.orWait_if (p := fun s => s.resetAt v 4 = true)
      (f := fun s => (s.vdSweep v).resetTo v 5) (g := id) h hstall), ?_⟩
    rw [hdone]
    exact ⟨rfl, rfl, rfl, rfl, rfl, rfl, rfl⟩
  case ready =>
    have hready := State.vdReady_of_unasked hask
    obtain ⟨ports, hports⟩ := State.releaseHeld_ports (s := s.vdReady v) (p := v / 16) (by rw [hready]; exact hheld) pick
    refine ⟨(s.vdReady v).releaseHeld (v / 16) pick, if_pos ⟨h, hw⟩, ?_⟩
    rw [hports, hready]
    exact ⟨rfl, rfl⟩

end Sys2Proof.Machine
end

section
/-! Snoops at the proxy (O28): what each does to a copy, and to a line without one (Table 08-4). -/
namespace Sys2Proof.Machine

/-- The answer to a snoop of a copy: its dirty sectors if it has some, and else none (R228). -/
def Frame.snoopAnswer (f : Frame) (m : CohMsg) (dat rsp : CohOp) : CohMsg :=
  if f.d ≠ 0 then { op := dat, dev := m.dev, line := m.line, tag := m.tag, sec := f.d, data := f.data, pois := f.p &&& f.d }
  else { op := rsp, dev := m.dev, line := m.line, tag := m.tag }

/-- A write-back of a line is under way at its proxy slice (R229). -/
def State.wbUnderWay (s : State) (gl : Nat) : Bool :=
  match (s.slice (s.proxySlice gl)).miss.find gl with | some r => decide (r.phase = .wb) | none => false

section
variable {s : State} {m : CohMsg}

/-- The way kept for an upgrade's grant changes no register's phase. -/
theorem State.NoWaiters.keepWay (h : s.NoWaiters) (n gl k : Nat) : (s.keepWay n gl k).NoWaiters := by
  unfold State.keepWay
  split
  · next r hr =>
    split
    · have hphase : r.phase ≠ .way ∧ r.phase ≠ .dirFull := h.2 n (gl, r) (Tab.find_mem _ _ _ hr)
      exact h.modSlice n fun e he => (Tab.mem_put he).elim (fun heq => .inr (heq ▸ hphase)) .inl
    · exact h
  · exact h

theorem State.NoWaiters.of_slices_same {t : State} (h : s.NoWaiters) (ht : t.slices = s.slices) : t.NoWaiters := by
  simpa only [State.NoWaiters, State.slice, ht] using h

theorem State.NoWaiters.send (h : s.NoWaiters) (o : OutMsg) : (s.send o).NoWaiters := h.of_slices_same rfl

theorem State.NoWaiters.setFrame (h : s.NoWaiters) (n k : Nat) (f : Frame) : (s.setFrame n k f).NoWaiters :=
  (State.SameRegisters.setFrame s n k f).noWaiters h

/-- A snoop leaves no register waiting, so that none tries again after it. -/
theorem State.NoWaiters.snooped (h : s.NoWaiters) (m : CohMsg) (kind : SnpKind) : (s.snooped m kind).NoWaiters := by
  unfold State.snooped
  extract_lets gl n rsp dat
  split
  · next k f _ =>
    extract_lets dirty
    split
    · exact ((h.setFrame n k _).keepWay n gl k).send _
    · exact (h.setFrame n k _).send _
    · exact h.send _
    · exact (h.setFrame n k _).send _
    · exact h.send _
  · split
    · exact h.of_slices_same rfl
    · exact h.send _

theorem State.snoopCmd_served (hd : lineDev m.line = m.dev) (hne : m.dev ≠ s.pool.devnum) (h : s.NoWaiters) (kind : SnpKind) (pick : Nat) :
    s.snoopCmd m kind pick = .next (s.snooped m kind) := by
  rw [State.snoopCmd, if_pos (by simp [hd, hne]), State.wakeAll_noWaiters (h.snooped m kind)]

section
variable {k : Nat} {f : Frame} (hh : (s.slice (s.proxySlice m.line)).hit m.line = some (k, f))
include hh

theorem State.snooped_inv_of_hit : s.snooped m .inv = ((s.setFrame (s.proxySlice m.line) k {}).keepWay (s.proxySlice m.line) m.line k).send
    (.coh (f.snoopAnswer m .datI .rspI)) := by
  simp only [State.snooped, hh, decide_eq_true_eq, Frame.snoopAnswer]

theorem State.snooped_data_of_re (hst : f.st = .re) : s.snooped m .data =
    (s.setFrame (s.proxySlice m.line) k { f with st := .rs, d := 0 }).send (.coh (f.snoopAnswer m .datS .rspS)) := by
  simp only [State.snooped, hh, hst, decide_eq_true_eq, Frame.snoopAnswer]

theorem State.snooped_cur_of_re (hst : f.st = .re) : s.snooped m .cur =
    (s.setFrame (s.proxySlice m.line) k { f with d := 0 }).send (.coh (f.snoopAnswer m .datE .rspE)) := by
  simp only [State.snooped, hh, hst, decide_eq_true_eq, Frame.snoopAnswer]

/-- A shared copy stays as it is under the snoops that do not invalidate it. -/
theorem State.snooped_of_rs (hst : f.st = .rs) {kind : SnpKind} (hk : kind ≠ .inv) :
    s.snooped m kind = s.send (.coh { op := .rspS, dev := m.dev, line := m.line, tag := m.tag }) := by
  cases kind with
  | inv => exact absurd rfl hk
  | data => simp only [State.snooped, hh, hst]
  | cur => simp only [State.snooped, hh, hst]

end

section
variable (hh : (s.slice (s.proxySlice m.line)).hit m.line = none)
include hh

/-- R515: nothing answers for a copy that was lost, and its loss is forgotten. -/
theorem State.snooped_of_lost (hl : s.pool.lostCopies.contains m.line = true) (kind : SnpKind) :
    s.snooped m kind = { s with pool := { s.pool with lostCopies := s.pool.lostCopies.erase m.line } } := by
  simp only [State.snooped, hh, hl, if_true]

theorem State.snooped_of_absent (hl : s.pool.lostCopies.contains m.line = false) (kind : SnpKind) : s.snooped m kind =
    s.send (.coh { op := .rspNp, dev := m.dev, line := m.line, tag := m.tag, wbPending := s.wbUnderWay m.line }) := by
  simp only [State.snooped, hh, hl, Bool.false_eq_true, if_false]
  rfl

end
end

/-- Settles O28: no register waits, so that a snoop does what its cell of Table 08-4 says, and nothing follows. -/
theorem snoopsAtTheProxyFollowTheirTable : Obligations.SnoopsAtTheProxyFollowTheirTable := by
  intro s pick m hd hne h
  have hserved (kind : SnpKind) {t : State} (ht : s.snooped m kind = t) : s.snoopCmd m kind pick = .next t :=
    ht ▸ State.snoopCmd_served hd hne h kind pick
  refine ⟨fun k f hh => ⟨?inv, fun hre => ⟨?data, ?cur⟩, fun hrs => ⟨?dataShared, ?curShared⟩⟩,
    fun hh hl t ht => ?lost, fun hh hl t ht => ?absent⟩
  case inv => exact hserved .inv (State.snooped_inv_of_hit hh)
  case data => exact hserved .data (State.snooped_data_of_re hh hre)
  case cur => exact hserved .cur (State.snooped_cur_of_re hh hre)
  case dataShared => exact hserved .data (State.snooped_of_rs hh hrs (by decide))
  case curShared => exact hserved .cur (State.snooped_of_rs hh hrs (by decide))
  case lost =>
    subst ht
    have hall (kind : SnpKind) := hserved kind (State.snooped_of_lost hh hl kind)
    exact ⟨hall .inv, hall .data, hall .cur⟩
  case absent =>
    have hall (kind : SnpKind) := hserved kind ((State.snooped_of_absent hh hl kind).trans ht.symm)
    exact ⟨hall .inv, hall .data, hall .cur⟩

end Sys2Proof.Machine
end

section
/-!
Requests of pool devices on a line that its home holds whole (O27): the answer and the entry that column HOME of Table 08-3 gives them,
and the register that a grant holds until its GNT_ACK (R225, R226).
-/
namespace Sys2Proof.Machine

/-- The first entry that meets a test stays the first when it takes a value that meets it too, whatever the order of the keys. -/
theorem Tab.find?_put_first {α : Type} {t : Tab α} {k : Nat} {x y : α} {p : Nat × α → Bool} (hf : List.find? p t = some (k, x))
    (hp : p (k, y) = true) : List.find? p (Tab.put t k y) = some (k, y) := by
  induction t with
  | nil => cases hf
  | cons e t ih =>
    obtain ⟨j, z⟩ := e
    rw [List.find?_cons] at hf
    simp only [Tab.put]
    split
    · simp [hp]
    · next hne =>
      split
      · simp [hp]
      · split at hf
        · cases hf; exact absurd rfl hne
        · next hz => rw [List.find?_cons, hz]; exact ih hf

/-! ### What a request does to a held line, whoever makes it -/

section
variable {s : State} {n gl k : Nat} {f : Frame} {r : Req}

theorem State.hit_setFrame_first (hh : (s.slice n).hit gl = some (k, f)) {f' : Frame} (hst : f'.st = .h) (hline : f'.line = f.line) :
    ((s.setFrame n k f').slice n).hit gl = some (k, f') := by
  have hkey := List.find?_some hh
  simp only [Bool.and_eq_true, decide_eq_true_eq] at hkey
  rw [State.slice_setFrame f' hst]
  exact Tab.find?_put_first hh (by simp [hst, hline, hkey.2])

variable (h : s.HomeIdle n gl k f)
include h

/-- A request that changes nothing is answered with the frame's data, and the poison of the sectors that it needs. -/
theorem State.applyReq_reads (hl : r.l1 = none) (hop : r.op.changes = false) (hcln : r.op ≠ .memClnEvct) (e e' : DirEntry) :
    s.applyReq n gl r e e' = (s.withEntry gl e').answer gl r (if f.p &&& r.need = 0 then .ok else .poisoned) f.data (f.p &&& r.need) e := by
  have hdir := State.setDir_homeIdle h e'
  obtain ⟨-, -, -, -, -, -, -, -, -, -, hprom, hhit, -⟩ := h
  cases hr : r.op with
  | write | red | atomic | memWr => simp [hr, ReqOp.changes] at hop
  | memClnEvct => exact absurd hr hcln
  | _ => simp only [State.applyReq, hr, hdir, State.view_of_hit hprom hhit, State.touchL1_none hl]

/-- A write that merges no part of a poisoned sector takes its bytes into the frame. -/
theorem State.applyReq_writes (hl : r.l1 = none) (hop : r.op = .write) (hsound : partialSectors r.bytes &&& f.p = 0) (e e' : DirEntry) :
    s.applyReq n gl r e e' = ((s.withEntry gl e').setFrame n k (f.merge r.bytes r.data r.pois)).answer gl r .ok 0 0 e := by
  have hdir := State.setDir_homeIdle h e'
  obtain ⟨-, -, -, -, -, -, -, -, -, -, hprom, hhit, -, hv, -⟩ := h
  have hstore := State.storeLine_of_hit (s := s.withEntry gl e') hprom hhit r.bytes r.data r.pois
  simp only [State.applyReq, hop, hdir, hstore, State.lineNow_poison hprom hhit hv, hsound, ne_eq, not_true_eq_false, decide_false,
    Bool.and_false, Bool.false_eq_true, if_false, State.touchL1_none hl]

/-- R208, R209: a reduction leaves the frame of its two stores, and counts its NaNs and saturations. -/
theorem State.applyReq_reduces (hop : r.op = .red) (e e' : DirEntry) :
    s.applyReq n gl r e e' = ((s.withEntry gl e').reduceAt n k f r).answer gl r .ok 0 0 e := by
  have hdir := State.setDir_homeIdle h e'
  obtain ⟨-, -, -, -, -, -, -, -, -, -, hprom, hhit, hst, -⟩ := h
  have hsums := State.storeLine_of_hit (s := s.withEntry gl e') hprom hhit
    (redBytes r.fmt r.emask &&& sectorBytes (~~~ (f.p ||| r.pois))) (redLine r.fmt r.emask (f.p ||| r.pois) f.data r.data).1 0
  have hhit' := State.hit_setFrame_first (s := s.withEntry gl e') (f' := (f.reduced r).1) hhit hst rfl
  have hpois := State.storeLine_of_hit (s := (s.withEntry gl e').setFrame n k (f.reduced r).1) hprom hhit' (sectorBytes r.pois) 0 r.pois
  simp only [State.applyReq, hop, hdir, State.view_of_hit hprom hhit, hsums]
  exact congrArg (fun u : State => ((u.countNan n _).countSat n _).answer gl r .ok 0 0 e) hpois

/-- R211, R212: an atomic on a sound sector leaves the new value and is answered with the old one. -/
theorem State.applyReq_exchanges (hop : r.op = .atomic) (hp : bit f.p.toNat (r.off / 32) = false) (e e' : DirEntry) :
    s.applyReq n gl r e e' = ((s.withEntry gl e').atomicAt n k f r).answer gl r .ok (BitVec.ofNat 1024 (f.atomicOld r)) 0 e := by
  have hdir := State.setDir_homeIdle h e'
  obtain ⟨-, -, -, -, -, -, -, -, -, -, hprom, hhit, -⟩ := h
  generalize hs2 : (s.withEntry gl e').countNan n (b2n (atomicNan r.atop (f.atomicOld r) r.opA)) = s2
  have hhit2 : (s2.slice n).hit gl = some (k, f) := by
    rw [← hs2, State.slice_countNan (Slice.frames_of_hit (x := (s.withEntry gl e').slice n) hhit)]; exact hhit
  have hprom2 : s2.promoted gl = false := by rw [← hs2]; exact hprom
  have hstore := State.storeLine_of_hit hprom2 hhit2 (BitVec.ofNat 128 ((2 ^ (r.width / 8) - 1) * 2 ^ r.off))
    (putField 0 (8 * r.off) r.width (atomicNew r.atop r.width (f.atomicOld r) r.opA r.opB)) 0
  simp only [State.applyReq, hop, hdir, State.view_of_hit hprom hhit, hp, Bool.false_eq_true, if_false]
  rw [show (f.data.extractLsb' (8 * r.off) r.width).toNat = f.atomicOld r from rfl, hs2, hstore, State.atomicAt, hs2, Frame.atomicSet]

end

/-! ### A grant -/

/-- The line's register is the grant's until the device acknowledges it (R225), and the frame is BUSY. -/
theorem State.grant_holdsRegister {s : State} {n gl k : Nat} {f : Frame} (hh : (s.slice n).hit gl = some (k, f)) (hst : f.st = .h)
    (hbusy : (s.slice n).busyAt = []) (hmiss : (s.slice n).miss = []) (m : Miss) :
    ((s.setBusy n gl true).slice n).miss = []
    ∧ (((s.setBusy n gl true).putReg n gl m).slice n).miss.find gl = some { m with since := s.now }
    ∧ ∃ sl, (s.setBusy n gl true).putReg n gl m = { s with slices := sl } := by
  obtain ⟨sl, hsl⟩ := s.setFrame_frame n k { f with busy := true }
  have hset : s.setBusy n gl true = (s.setFrame n k { f with busy := true }).modSlice n fun x => { x with busyAt := x.busyAt.put gl s.now } := by
    simp only [State.setBusy, hh, hst, if_true, hbusy, Tab.find]
  have hframe := State.slice_setFrame (s := s) (n := n) (k := k) { f with busy := true } hst
  have hslice : (s.setBusy n gl true).slice n
      = { s.slice n with frames := (s.slice n).frames.put k { f with busy := true }, busyAt := (s.slice n).busyAt.put gl s.now } := by
    rw [hset, State.slice_modSlice_listed (by rw [hframe]; exact Tab.put_ne_nil _ _ _), hframe]
  have hnow : (s.setBusy n gl true).now = s.now := by rw [hset, hsl]; rfl
  refine ⟨by rw [hslice]; exact hmiss, ?_, ?_⟩
  · rw [State.putReg, State.slice_modSlice_listed (by rw [hslice]; exact Tab.put_ne_nil _ _ _), hslice, hnow, hmiss]
    exact Tab.find_put_same _ _ _
  · rw [hset, hsl]
    exact ⟨_, rfl⟩

/-! ### A message of a peer, from its arrival to its answer -/

/-- What a peer's request of a line with a FREE entry is answered (Table 08-3). -/
def CohMsg.answerOf (m : CohMsg) (op : ReqOp) (st : Status) (x : Line) (p : Sectors) : CohMsg :=
  let a : CohMsg := { op := .cmp, dev := m.dev, line := m.line, tag := m.tag, vd := m.vd, sec := bytesSectors m.bytes, bytes := m.bytes
                      data := x, pois := p, status := st }
  match op with
  | .rdS => { a with op := .fillS, sec := 15 }
  | .rdX => { a with op := .fillE, sec := 15 }
  | .upg => { a with op := .fillE, sec := 15 }
  | .rdNc => { a with op := .rdDat }
  | .atomic => { a with op := .rdDat }
  | _ => a

theorem State.answer_peer {s : State} {m : CohMsg} (hd : s.pool.departed.contains m.dev = false) (op : ReqOp) (st : Status) (x : Line)
    (p : Sectors) : s.answer m.line (m.req op) st x p {} = s.send (.coh (m.answerOf op st x p)) := by
  refine (if_neg (by rw [hd]; exact Bool.false_ne_true)).trans ?_
  cases op <;> rfl

/-- The requests that a GNT_ACK ends (R225). -/
def ReqOp.grants : ReqOp → Bool
  | .rdS => true
  | .rdX => true
  | .upg => true
  | _ => false

/-- A grant brings the whole line, changes nothing, and no field of it is checked. -/
theorem CohMsg.req_of_grants {op : ReqOp} (hg : op.grants = true) (m : CohMsg) :
    (m.req op).need = 15 ∧ op.changes = false ∧ op ≠ .memClnEvct ∧ m.refused op = false := by
  cases op with
  | rdS | rdX | upg => exact ⟨rfl, rfl, by decide, rfl⟩
  | _ => cases hg

theorem CohMsg.granted_req (m : CohMsg) (op : ReqOp) : (m.req op).granted = if op.grants then [m.dev] else [] := by
  cases op <;> rfl

/-- The reader is the one sharer. -/
theorem CohMsg.finalDir_rdS (m : CohMsg) : finalDir {} (m.req .rdS) [] [] = DirEntry.mk' .shared (oneHot m.dev) 0 :=
  congrArg (fun sharers => DirEntry.mk' .shared sharers 0) BitVec.zero_or

theorem State.grants_req {s : State} {m : CohMsg} (hd : s.pool.departed.contains m.dev = false) (op : ReqOp) :
    s.grants (m.req op) = if op.grants then [m.dev] else [] := by
  rw [State.grants, CohMsg.granted_req]
  split
  · simp only [List.filter, hd, Bool.not_false]
  · rfl

/-- R206, R211, R212: a message with a reserved code, or a misaligned target, is refused. -/
theorem State.peerReq_refused {s : State} {m : CohMsg} {op : ReqOp} (hhome : s.atHome m = true) (hnum : s.poolNumber m.dev = true)
    (hw : s.boot.warm < 2) (href : m.refused op = true) (pick : Nat) : s.peerReq m op pick = .next (s.refusePeer m op) := by
  have hgo : s.peersWait = false := decide_eq_false (by omega)
  rw [State.peerReq, hhome, hnum, hgo, State.peerServe, href]
  rfl

section
variable {s : State} {n k : Nat} {f : Frame} {m : CohMsg} {op : ReqOp} (h : s.HomeIdle n m.line k f)
include h

/-- Outside a warm reset a peer's message that is not refused arrives at its line's slice (R68, R187). -/
theorem State.peerReq_arrives (hne : m.dev ≠ s.pool.devnum) (hnum : s.poolNumber m.dev = true) (hw : s.boot.warm < 2)
    (href : m.refused op = false) (pick : Nat) : s.peerReq m op pick = .next (s.arrive n pick (m.req op)) := by
  obtain ⟨hdev, hoff, hlost, hslice, hrefresh, -, -, -, -, -, -, -, -, -, -, hattr, -⟩ := h
  have hhome : s.atHome m = true := by simp [State.atHome, hdev, hne]
  have hgo : s.peersWait = false := decide_eq_false (by omega)
  have hplain : s.withAttrs (m.req op) = m.req op := by
    rw [State.withAttrs, show (m.req op).line = m.line from rfl, hattr]; rfl
  have hline : (m.req op).line = m.line := rfl
  rw [State.peerReq, hhome, hnum, hgo, State.peerServe, href, hplain, State.homeAccept, hline, hoff, hlost, State.stackFor_awake hrefresh, hslice]
  rfl

/-- A slice where nothing waits gives a request that goes on a register, where it may take one (R202, R205). -/
theorem State.arrive_takesRegister {s1 : State} {r : Req} {g : Miss} {pick : Nat} (hl : r.line = m.line) (hs : s.serve n m.line pick r = (s1, some g))
    (htake : s.canTake (.missRegs n) (s.slice n).useMiss r.share = true) (hm : (s1.slice n).miss = []) :
    s.arrive n pick r = s1.putReg n m.line g := by
  obtain ⟨-, -, -, -, -, hstop, hsleep, hinq, hmiss, -⟩ := h
  have huse : (s1.slice n).useMiss = (s.slice n).useMiss := by funext v; rw [Slice.useMiss, Slice.useMiss, hm, hmiss]
  rw [State.canTake] at htake
  simp [State.arrive, hstop, hsleep, hinq, State.enterIf, hl, Slice.missOf_nil hmiss, hs, huse, State.mayEnter, inqHeads, htake]

variable (hd : s.pool.departed.contains m.dev = false)
include hd

/-- A peer's request on a line idle at its home is applied at once (R226). A grant then holds the line BUSY, and a register (R225). -/
theorem State.serve_peer (op : ReqOp) (pick : Nat) : s.serve n m.line pick (m.req op) =
    let s1 := s.applyReq n m.line (m.req op) {} (finalDir {} (m.req op) [] [])
    if op.grants then (s1.setBusy n m.line true, some { phase := .grant, vd := peerVd, gnt := [m.dev] }) else (s1, none) := by
  rw [State.serve_homeIdle h rfl rfl rfl rfl]
  obtain ⟨-, -, -, -, -, -, -, -, -, -, -, -, -, -, -, -, hent, -⟩ := h
  have hfinal : s.finalEntry {} (m.req op) [] [] = finalDir {} (m.req op) [] [] := if_neg (by rw [hd]; exact Bool.false_ne_true)
  simp only [State.finish, hent, hfinal, State.grants_req hd]
  cases op.grants <;> rfl

variable (hne : m.dev ≠ s.pool.devnum) (hnum : s.poolNumber m.dev = true) (hw : s.boot.warm < 2)
include hne hnum hw

/-- A peer's request that is no grant leaves the line without an entry, its answer, and what it does to the slice. -/
theorem State.peerReq_ends {u : State} {y : Slice} {st : Status} {x : Line} {p : Sectors} (hg : op.grants = false) (href : m.refused op = false)
    (hfree : finalDir {} (m.req op) [] [] = {}) (happ : s.applyReq n m.line (m.req op) {} {} = u.answer m.line (m.req op) st x p {})
    (hframe : ∃ sl, u = { s.withEntry m.line {} with slices := sl }) (hy : u.slice n = y) (hm : y.miss = []) (pick : Nat) :
    ∃ t, s.peerReq m op pick = .next t ∧ t.out = s.out ++ [.coh (m.answerOf op st x p)] ∧ t.slice n = y
      ∧ t.dir = s.dir.setD (ownNum m.line) {} {} ∧ t = { s with out := t.out, slices := t.slices, dir := t.dir } := by
  obtain ⟨sl, rfl⟩ := hframe
  have hserve := State.serve_peer h hd op pick
  simp only [hg, Bool.false_eq_true, if_false] at hserve
  rw [hfree, happ, State.answer_peer (s := { s.withEntry m.line {} with slices := sl }) hd] at hserve
  have harrive := State.arrive_homeIdle h rfl hserve
  rw [State.wake_of_no_miss (by exact (congrArg Slice.miss hy).trans hm)] at harrive
  exact ⟨_, (State.peerReq_arrives h hne hnum hw href pick).trans (congrArg Host.Outcome.next harrive), rfl, hy, rfl, rfl⟩

/-- A grant is answered with the whole line, makes its entry, and holds a register until its GNT_ACK. -/
theorem State.peerReq_grants (hg : op.grants = true) (htake : s.canTake (.missRegs n) (s.slice n).useMiss peerVd = true) (pick : Nat) :
    ∃ t, s.peerReq m op pick = .next t
      ∧ t.out = s.out ++ [.coh (m.answerOf op (if f.p &&& 15 = 0 then .ok else .poisoned) f.data (f.p &&& 15))]
      ∧ t.dir = s.dir.setD (ownNum m.line) {} (finalDir {} (m.req op) [] [])
      ∧ (t.slice n).miss.find m.line = some { phase := .grant, vd := peerVd, gnt := [m.dev], since := s.now }
      ∧ t = { s with out := t.out, slices := t.slices, dir := t.dir } := by
  obtain ⟨hneed, hchanges, hcln, href⟩ := CohMsg.req_of_grants hg m
  have happ := State.applyReq_reads (r := m.req op) h rfl hchanges hcln {} (finalDir {} (m.req op) [] [])
  rw [hneed, State.answer_peer (s := s.withEntry m.line _) hd] at happ
  have hserve := State.serve_peer h hd op pick
  simp only [hg, if_true, happ] at hserve
  obtain ⟨-, -, -, -, -, -, -, -, hmiss, hbusy, -, hhit, hst, -⟩ := id h
  obtain ⟨hfree, hreg, sl, hsl⟩ := State.grant_holdsRegister (s := (s.withEntry m.line (finalDir {} (m.req op) [] [])).send (.coh (m.answerOf op
    (if f.p &&& 15 = 0 then .ok else .poisoned) f.data (f.p &&& 15)))) (gl := m.line) hhit hst hbusy hmiss
    { phase := .grant, vd := peerVd, gnt := [m.dev] }
  refine ⟨_, (State.peerReq_arrives h hne hnum hw href pick).trans
    (congrArg Host.Outcome.next (State.arrive_takesRegister h rfl hserve htake hfree)), ?_, ?_, hreg, ?_⟩ <;> rw [hsl] <;> rfl

end

/-- Settles O27: by the row of column HOME, each message applied at once to the line's frame. -/
theorem peerRequestsFollowTheHomeColumn : Obligations.PeerRequestsFollowTheHomeColumn := by
  refine ⟨fun s pick m hhome hnum hw => ⟨fun hfmt => ?redRefused, fun hatom => ?atomRefused⟩,
    fun s n k pick f m h hne hnum hw htake hd => ⟨?rdS, ?rdX, ?upg, ?rdNc, fun hsound => ?wrNc, fun hfmt => ?red, fun hok hp => ?atom⟩⟩
  case redRefused => exact State.peerReq_refused (op := .red) hhome hnum hw (decide_eq_true hfmt) pick
  case atomRefused => exact State.peerReq_refused (op := .atomic) hhome hnum hw (by rw [CohMsg.refused, hatom]; rfl) pick
  case rdS =>
    obtain ⟨t, ht, hout, hdir, hreg, hframe⟩ := State.peerReq_grants (op := .rdS) h hd hne hnum hw rfl htake pick
    exact ⟨t, ht, hout, hdir.trans (by rw [CohMsg.finalDir_rdS]), hreg, hframe⟩
  case rdX => exact State.peerReq_grants (op := .rdX) h hd hne hnum hw rfl htake pick
  case upg => exact State.peerReq_grants (op := .upg) h hd hne hnum hw rfl htake pick
  case rdNc =>
    obtain ⟨t, ht, hout, hslice, hdir, hframe⟩ := State.peerReq_ends (op := .rdNc) h hd hne hnum hw rfl rfl rfl
      (State.applyReq_reads (r := m.req .rdNc) h rfl rfl nofun {} {}) ⟨s.slices, rfl⟩ rfl h.miss pick
    exact ⟨t, ht, hout, hdir, by rw [hslice]; exact h.miss, hframe⟩
  case wrNc =>
    have hset := State.slice_setFrame (s := s.withEntry m.line {}) (n := n) (k := k) (f.merge m.bytes m.data m.pois) h.frame_st
    obtain ⟨t, ht, hout, hslice, hdir, hframe⟩ := State.peerReq_ends (op := .write) h hd hne hnum hw rfl rfl rfl
      (State.applyReq_writes (r := m.req .write) h rfl rfl hsound {} {}) (State.setFrame_frame _ _ _ _) hset h.miss pick
    exact ⟨t, ht, hout, by rw [hslice]; exact Tab.find_put_same _ _ _, by rw [hslice]; exact h.miss, hdir, hframe⟩
  case red =>
    have hset := State.slice_reduceAt (s := s.withEntry m.line {}) (n := n) (k := k) h.frame_st (m.req .red)
    obtain ⟨t, ht, hout, hslice, hdir, hframe⟩ := State.peerReq_ends (op := .red) h hd hne hnum hw rfl (decide_eq_false (by omega)) rfl
      (State.applyReq_reduces (r := m.req .red) h rfl {} {}) (State.reduceAt_frame _ _ _ _ _) hset h.miss pick
    exact ⟨t, ht, hout, by rw [hslice]; exact Tab.find_put_same _ _ _, by rw [hslice]; exact h.miss, hdir, hframe⟩
  case atom =>
    have hset := State.slice_atomicAt (s := s.withEntry m.line {}) (n := n) h.hit h.frame_st (m.req .atomic)
    obtain ⟨t, ht, hout, hslice, hdir, hframe⟩ := State.peerReq_ends (op := .atomic) h hd hne hnum hw rfl (by rw [CohMsg.refused, hok]; rfl) rfl
      (State.applyReq_exchanges (r := m.req .atomic) h rfl hp {} {}) (State.atomicAt_frame _ _ _ _ _) hset h.miss pick
    exact ⟨t, ht, hout, by rw [hslice]; exact Tab.find_put_same _ _ _, by rw [hslice]; exact h.miss, hdir, hframe⟩

end Sys2Proof.Machine
end

section
/-! The refutation of O32: while the slices of a transfer's bays are gated its copy waits, and its switch changes nothing (R73, R258). -/
namespace Sys2Proof.Machine

/-- R73: 64 bytes between bays of gated slices wait once to be read and once to be written. -/
theorem State.copyHalf_asleep {s : State} {p o p' o' : Nat} (hsrc : s.blockAsleep p o 1 = true) (hdst : s.blockAsleep p' o' 1 = true)
    (w : Who) (pick : Nat) : State.copyHalf w pick p o p' o' s = (s.stalled .hold).stalled .hold := by
  have hread : s.poolLine p o (BitVec.ofNat 4 (3 * 4 ^ (o / 64 % 2))) w pick = ({}, s.stalled .hold) := if_pos hsrc
  rw [State.copyHalf, hread]
  exact if_pos hdst

/-- R73: a copy between bays of gated slices waits for each of its parts and moves no byte. -/
theorem State.copyParts_asleep {p o p' o' m : Nat} {s : State}
    (h : ∀ i < m, s.blockAsleep p (o + 64 * i) 1 = true ∧ s.blockAsleep p' (o' + 64 * i) 1 = true) (w : Who) (pick : Nat) :
    (List.range m).foldl (fun s i => State.copyHalf w pick p (o + 64 * i) p' (o' + 64 * i) s) s
      = { s with stall := s.stall ++ List.replicate (2 * m) .hold } := by
  induction m with
  | zero => simp
  | succ m ih =>
    obtain ⟨hsrc, hdst⟩ := h m (Nat.lt_succ_self m)
    rw [List.range_succ, List.foldl_append, ih fun i hi => h i (Nat.lt_succ_of_lt hi)]
    refine (State.copyHalf_asleep (by exact hsrc) (by exact hdst) w pick).trans ?_
    simp [State.stalled, Nat.mul_succ, List.replicate_add]

theorem State.zeroBlock_blockAsleep {s : State} {p : Nat} (hk : (s.hpool p).kind = 1) (o n p' o' n' : Nat) :
    (s.zeroBlock p o n).blockAsleep p' o' n' = s.blockAsleep p' o' n' := by
  rw [State.zeroBlock, if_pos hk]
  rfl

theorem State.engineDone_stall (s : State) (q : Nat) (st : Status) (result : Nat) (term : Term) (addr : Nat) :
    (s.engineDone q st result term addr).stall = s.stall := by
  unfold State.engineDone State.modCmd
  split <;> rfl

/-- A row that meets nothing but gated slices changes nothing. -/
theorem State.orWait_holds {s : State} {pick n : Nat} {f : State → State} (hn : n ≠ 0) (h : (f s.fresh).stall = List.replicate n .hold) :
    s.orWait pick f = s := by
  have hwait : (f s.fresh).stall ≠ [] := by
    rw [h]
    exact fun h0 => hn ((List.replicate_eq_nil_iff _).1 h0)
  rw [State.orWait_wait hwait, h]
  exact List.foldlRecOn (motive := (· = s)) _ _ rfl fun t ht y hy => by rw [ht, List.eq_of_mem_replicate hy]; rfl

section
variable {s : State} {q : Nat} {t : Transfer} (hfind : s.hop.transfers.find? (fun t => decide (t.cmd = q)) = some t)
  (hepoch : (s.vd t.vd).epoch = t.epoch) (hk : (s.hpool (t.dst / 2 ^ 20)).kind = 1)
  (h : ∀ i < s.classSize (t.src / 2 ^ 20) (s.hrec t.src).cls / 64,
    s.blockAsleep (t.src / 2 ^ 20) ((s.hrec t.src).base * 64 + 64 * i) 1 = true ∧ s.blockAsleep (t.dst / 2 ^ 20) (t.base * 64 + 64 * i) 1 = true)
include hfind hepoch hk h

/-- R73, R258: what the switch of a transfer between bays of gated slices waits for: two accesses for each 64 bytes of the source's block. -/
theorem State.transferSwitch_asleep (pick : Nat) : (s.transferSwitch q pick).stall
      = s.stall ++ List.replicate (2 * (s.classSize (t.src / 2 ^ 20) (s.hrec t.src).cls / 64)) .hold := by
  unfold State.transferSwitch
  rw [hfind]
  change State.stall (if _ then _ else _) = _
  rw [if_neg (fun hne => hne hepoch)]
  extract_lets r p _ s1 s2
  have hzeroed : s1.stall = s.stall := congrArg Prod.snd (State.zeroBlock_leaves _ _ _ _)
  have hasleep : ∀ p o, s1.blockAsleep p o 1 = s.blockAsleep p o 1 := fun p o => State.zeroBlock_blockAsleep (by exact hk) _ _ p o 1
  have hcopied : s2 = _ := State.copyParts_asleep (s := s1) (fun i hi => by rw [hasleep, hasleep]; exact h i hi) _ pick
  rw [State.engineDone_stall, ← hzeroed]
  exact congrArg State.stall hcopied

/-- R73: the switch of a transfer whose block and place lie in bays of gated slices waits until they have woken. -/
theorem exec_transferSwitch_asleep (hsize : 64 ≤ s.classSize (t.src / 2 ^ 20) (s.hrec t.src).cls) (x : Ext) :
    exec (.transferSwitch q x) s = .next s :=
  congrArg Host.Outcome.next (State.orWait_holds (n := 2 * (s.classSize (t.src / 2 ^ 20) (s.hrec t.src).cls / 64)) (by omega)
    (State.transferSwitch_asleep (s := s.fresh) hfind hepoch hk h x.pick))

end

/-- A transfer of buffer 0 of pool 0 to index 1 and the block after the first. -/
def gatedTransfer : Transfer := { cmd := 0, vd := 0, epoch := 0, src := 0, dst := 1, cls := 0, base := 1, inRetain := false }

/-- The copy of a buffer of 64 bytes to the next block of its pinned pool, whose one bay lies in slice 0, has not reached its switch when that
slice is clock-gated. -/
def gatedCopy : State :=
  { withC { rd 0x23 [] with st := .running } with
    img := { imgT with pools := [(0, { kind := 1, size := 4, classes := [6] })], bays := [(0, { kind := 1 })] }
    hop := { recs := [(0, { st := .live, held := true })], transfers := [gatedTransfer] }
    power := { slices := [(0, 1)] } }

/-- Refutes O32: its clause on the switch of a TRANSFER asks nothing of the slices of the two blocks, and in `gatedCopy` the row waits before
the gated one (R73), so that the transfer stays. -/
theorem not_hopperCommandsAllocateFreeAndMove : ¬ Obligations.HopperCommandsAllocateFreeAndMove := by
  rintro ⟨-, -, -, -, -, -, -, hswitch, -⟩
  obtain ⟨t, ht, hnone, -⟩ := hswitch gatedCopy 0 gatedTransfer { rd 0x23 [] with st := .running } {} rfl rfl (by decide) rfl (by decide) (by decide)
    (by decide) (by decide)
  rw [exec_transferSwitch_asleep (t := gatedTransfer) (by decide) (by decide) (by decide) (by decide) (by decide +kernel)] at ht
  cases ht
  exact absurd hnone (by decide)

end Sys2Proof.Machine
end


section
/-!
Page moves, promotion, demotion and Fantail (O34; R284 to R291): what each row does in a state that lets it act, and where a promotion
of a page in a table out of canonical form does more than O34 says.
-/
namespace Sys2Proof.Machine

/-! ### Moves of a page (Table 10-7) -/

theorem State.moveOf_dropMove (s : State) (v page : Nat) : (s.dropMove v page).moveOf v page = none := by
  simp only [State.moveOf, State.dropMove, List.find?_eq_none, List.mem_filter]
  rintro m ⟨-, hm⟩ h
  simp [h] at hm

/-- A move that was put is the page's move. -/
theorem State.moveOf_putMove (s : State) (m : Move) : (s.putMove m).moveOf m.vd m.page = some m := by
  show ((s.dropMove m.vd m.page).slu.moves ++ [m]).find? _ = _
  rw [List.find?_append, show List.find? _ (s.dropMove m.vd m.page).slu.moves = none from s.moveOf_dropMove m.vd m.page]
  simp

/-- R272: what the write of an entry sets. -/
theorem State.setEntry_sets (s : State) (v page : Nat) (e : PEntry) : ∃ n, s.setEntry v page e = { s with slu := { s.slu with
    pt := s.slu.pt.put (ptKey v page) e, l3 := if e.big then s.slu.l3.del (ptKey v page / 32) else s.slu.l3, shootdown := n } } := by
  unfold State.setEntry
  extract_lets shot
  cases shot <;> exact ⟨_, rfl⟩

/-- R272: the change of a PAGE or FOREIGN entry counts a shootdown. -/
theorem State.setEntry_of_cached {s : State} {v page : Nat} {o e : PEntry} (h : s.slu.pt.find (ptKey v page) = some o) (hc : o.cached = true)
    (hne : o ≠ e) : s.setEntry v page e = s.countShootdown.putEntry v page e := by
  simp [State.setEntry, h, hc, hne]

/-- R272: the change of an entry that no translation cache holds counts none. -/
theorem State.setEntry_of_uncached {s : State} {v page : Nat} {o e : PEntry} (h : s.slu.pt.find (ptKey v page) = some o)
    (hc : o.cached = false) : s.setEntry v page e = s.putEntry v page e := by
  simp [State.setEntry, h, hc]

/-- A page has settled for which nothing waits. -/
theorem State.placeResume_of_no_waits {s : State} (hp : s.slu.places = []) (hr : s.slu.recWait = []) (v page pick : Nat) :
    s.placeResume v page pick = s := by
  have hflush : s.recFlush pick = s := by
    rw [State.recFlush, hr, List.foldl_nil, ← hr]
  rw [State.placeResume, hp]
  exact hflush

/-- R284: the entry becomes MIGRATING, its shootdown is counted, and the move has reached step 1. -/
theorem State.moveBegin_sets {s : State} {m : Move} {e : PEntry} (he : s.slu.pt.find (ptKey m.vd m.page) = some e) (hk : e.kind = .page) :
    (s.moveBegin m e).slu.pt.find (ptKey m.vd m.page) = some { e with kind := .migrating }
      ∧ (s.moveBegin m e).slu.shootdown = s.slu.shootdown + 1 ∧ (s.moveBegin m e).mem = s.mem ∧ (s.moveBegin m e).slu.wanted = s.slu.wanted
      ∧ (s.moveBegin m e).moveOf m.vd m.page = some { m with step := 1 } := by
  have hset : s.moveBegin m e = (s.putMove { m with step := 1 }).countShootdown.putEntry m.vd m.page { e with kind := .migrating } :=
    State.setEntry_of_cached he (by simp [PEntry.cached, hk]) fun h => by rw [h] at hk; cases hk
  have hmove := s.moveOf_putMove { m with step := 1 }
  rw [hset]
  refine ⟨Tab.find_put_same _ _ _, ?_, ?_, ?_, hmove⟩ <;> simp only [State.putEntry, State.countShootdown, State.putMove, State.dropMove]

/-- Steps 1 and 2 of a move to frames of this device. -/
theorem exec_pageMoveStart_here {s : State} {i pick f : Nat} {r : MoveReq} {e : PEntry} (hw : s.boot.warm = 0) (hr : s.slu.wanted[i]? = some r)
    (he : s.slu.pt.find (ptKey r.vd r.page) = some e) (hk : e.kind = .page) (hp : e.promoted = false) (hd : r.dev = s.pool.devnum)
    (hm : s.mayMove r.by_ r.vd r.page e = true) (hf : s.chooseFrames (pageFrames e.big) pick (decide (r.by_ = .retire)) = some f) :
    ∃ t, exec (.pageMoveStart i pick) s = .next t ∧ t.slu.pt.find (ptKey r.vd r.page) = some { e with kind := .migrating }
      ∧ t.slu.shootdown = s.slu.shootdown + 1 ∧ t.mem = s.mem ∧ t.slu.wanted = s.slu.wanted.filter (fun w => decide (w ≠ r))
      ∧ t.moveOf r.vd r.page = some { vd := r.vd, page := r.page, big := e.big, src := e.gframe, dst := s.ownFrame f, step := 1, by_ := r.by_ } := by
  refine ⟨_, ?row, State.moveBegin_sets (s := { s with slu := { s.slu with wanted := s.slu.wanted.filter fun w => decide (w ≠ r) } }.tagFrames f
    (pageFrames e.big) r.vd r.page) (m := { vd := r.vd, page := r.page, big := e.big, src := e.gframe, dst := s.ownFrame f, step := 0, by_ := r.by_ })
    he hk⟩
  show execPageMoveStart i pick s = _
  simp [execPageMoveStart, hw, hr, State.moveStart, he, hk, hp, hd, hm, hf]

theorem exec_moveAckComplete_own {s : State} {v page : Nat} {m : Move} (hm : s.moveOf v page = some m) (h1 : m.step = 1)
    (hq : s.framesQuiet m.src (pageFrames m.big) = true) (hs : gfDev m.src = s.pool.devnum) :
    exec (.moveAckComplete v page) s = .next (s.putMove { m with step := 3 }) := by
  show execMoveAckComplete v page s = _
  simp [execMoveAckComplete, State.moveAcked, hm, h1, hq, hs]

/-- Step 4 of a move within this device that nothing but a retirement asked for, and step 5. -/
theorem exec_moveCopyDone_here {s s2 : State} {v page : Nat} {m : Move} {e : PEntry} {x : Ext} (hm : s.moveOf v page = some m) (h3 : m.step = 3)
    (hs : gfDev m.src = s.pool.devnum) (hd : gfDev m.dst = s.pool.devnum)
    (h2 : s2 = (s.fresh.takeBackFrames (gfLocal m.src) (pageFrames m.big) v).copyFrames (gfLocal m.src) (gfLocal m.dst) (pageFrames m.big))
    (hst : s2.stall = []) (he : s2.slu.pt.find (ptKey v page) = some e) (hp : s2.slu.places = []) (hw : s2.slu.recWait = []) (hb : m.by_ = .retire) :
    exec (.moveCopyDone v page x) s
      = .next ((s2.setEntry v page { e with kind := .page, gframe := m.dst, moved := s2.movedNow }).putMove { m with step := 5 }) := by
  obtain ⟨n, hset⟩ := s2.setEntry_sets v page { e with kind := .page, gframe := m.dst, moved := s2.movedNow }
  have hcommit : s.fresh.moveCommit v page x.pick
      = (s2.setEntry v page { e with kind := .page, gframe := m.dst, moved := s2.movedNow }).putMove { m with step := 5 } := by
    have hmf : s.fresh.moveOf v page = some m := hm
    simp only [State.moveCommit, hmf, State.fresh_pool, hs, hd, h3, ← h2, he, hb, and_self, ne_eq, not_true_eq_false, and_false, if_false, if_true,
      reduceCtorEq]
    refine State.placeResume_of_no_waits ?_ ?_ v page x.pick <;> rw [hset]
    · exact hp
    · exact hw
  refine congrArg Host.Outcome.next ((State.orWait_next ?_).trans hcommit)
  rw [hcommit, hset]
  exact hst

theorem exec_moveSourceFree_own {s : State} {v page : Nat} {m : Move} (hm : s.moveOf v page = some m) (h5 : m.step = 5)
    (hs : gfDev m.src = s.pool.devnum) :
    exec (.moveSourceFree v page) s = .next ((s.untagFrames (gfLocal m.src) (pageFrames m.big)).dropMove v page) := by
  show execMoveSourceFree v page s = _
  simp [execMoveSourceFree, State.moveFree, hm, h5, State.freeFramesOf, hs]

/-- R285: one more move is abandoned. -/
def State.countAbandon (s : State) : State := { s with slu := { s.slu with abandon := s.slu.abandon + 1 } }

section
variable {s : State} {m : Move} {e : PEntry} (h1 : m.step = 1) (hd : gfDev m.dst ≠ s.pool.devnum) (hf : m.fresh = false)
  (he : s.slu.pt.find (ptKey m.vd m.page) = some e) (hk : e.kind = .migrating)
include h1 hd hf he hk

/-- R285: the entry returns to PAGE, and the frames that a peer gave are given back. -/
theorem State.moveAbandon_remote : s.moveAbandon m = (((s.dropMove m.vd m.page).send (.sl (gfDev m.dst) (.giveBack (gfLocal m.dst)
    (pageFrames m.big)))).putEntry m.vd m.page { e with kind := .page }).countAbandon := by
  have hfree : (s.dropMove m.vd m.page).freeFramesOf m.dst (pageFrames m.big)
      = (s.dropMove m.vd m.page).send (.sl (gfDev m.dst) (.giveBack (gfLocal m.dst) (pageFrames m.big))) := if_neg hd
  have hfind : ((s.dropMove m.vd m.page).send (.sl (gfDev m.dst) (.giveBack (gfLocal m.dst) (pageFrames m.big)))).slu.pt.find
      (ptKey m.vd m.page) = some e := he
  have hset := State.setEntry_of_uncached (e := { e with kind := .page }) hfind (by simp [PEntry.cached, hk])
  simp only [State.moveAbandon, hf, Bool.false_eq_true, if_false, h1, one_ne_zero, hfree, hfind, hk, if_true, hset]
  rfl

/-- MOVE_DEADLINE of a move from this device to a peer, for whose page nothing waits. -/
theorem exec_moveDeadline_remote (hm : s.moveOf m.vd m.page = some m) (hs : gfDev m.src = s.pool.devnum) (hp : s.slu.places = [])
    (hw : s.slu.recWait = []) (pick : Nat) : exec (.moveDeadline m.vd m.page pick) s = .next (((s.dropMove m.vd m.page).send (.sl (gfDev m.dst)
      (.giveBack (gfLocal m.dst) (pageFrames m.big)))).putEntry m.vd m.page { e with kind := .page }).countAbandon := by
  have hne : ¬ gfDev m.src = gfDev m.dst := fun h => hd (h ▸ hs)
  show execMoveDeadline m.vd m.page pick s = _
  simp only [execMoveDeadline, hm]
  rw [if_pos (by simp [h1, hne, hf]), State.moveAbandon_remote h1 hd hf he hk]
  exact congrArg Host.Outcome.next (State.placeResume_of_no_waits (by exact hp) (by exact hw) _ _ _)

end

/-! ### Copies of frames (Table 10-7 step 4) -/

theorem Tab.find_keep_key {α : Type} {t : Tab α} {lo : Nat} (h : Tab.sortedFrom lo t = true) (p : Nat → Bool) (n : Nat) :
    Tab.find (Tab.keep t fun k _ => p k) n = if p n then Tab.find t n else none := by
  induction t generalizing lo with
  | nil => simp [Tab.keep, Tab.find]
  | cons e t ih =>
    obtain ⟨k, v⟩ := e
    simp only [Tab.sortedFrom, Bool.and_eq_true, decide_eq_true_eq] at h
    have hcons : Tab.keep ((k, v) :: t) (fun k _ => p k) = if p k then (k, v) :: Tab.keep t (fun k _ => p k) else Tab.keep t fun k _ => p k := by
      simp only [Tab.keep, List.filter_cons]
    rw [hcons]
    rcases Nat.lt_trichotomy n k with hlt | rfl | hgt
    · have hnone : Tab.find t n = none := Tab.find_below h.2 (by omega)
      split <;> simp [Tab.find, ih h.2, hnone, hlt, show ¬ n = k by omega]
    · have hnone : Tab.find t n = none := Tab.find_below h.2 (Nat.lt_succ_self n)
      cases hp : p n <;> simp [Tab.find, ih h.2, hnone]
    · split <;> simp [Tab.find, ih h.2, show ¬ n = k by omega, show ¬ n < k by omega]

/-- Cells written at other addresses: each reads as the cell that came there, and every other as before. -/
theorem Tab.getD_foldl_moved {α : Type} [DecidableEq α] {d : α} {lo low base : Nat} {l t : Tab α} (hl : Tab.sortedFrom low l = true)
    (hlo : ∀ c ∈ l, lo ≤ c.1) (ht : Tab.wf t = true) (a : Nat) :
    Tab.getD (l.foldl (fun t c => Tab.setD t (c.1 - lo + base) d c.2) t) a d
      = (if base ≤ a then Tab.find l (a - base + lo) else none).getD (Tab.getD t a d) := by
  induction l generalizing t low with
  | nil => simp [Tab.find]
  | cons c l ih =>
    obtain ⟨k, v⟩ := c
    simp only [Tab.sortedFrom, Bool.and_eq_true, decide_eq_true_eq] at hl
    have hk : lo ≤ k := hlo _ List.mem_cons_self
    rw [List.foldl_cons, ih hl.2 (fun c hc => hlo c (List.mem_cons_of_mem _ hc)) (Tab.wf_setD ht _ _ _), Tab.getD_setD ht]
    by_cases hb : base ≤ a
    · simp only [if_pos hb, Tab.find]
      rcases Nat.lt_trichotomy (a - base + lo) k with hlt | heq | hgt
      · rw [Tab.find_below hl.2 (by omega), if_neg (by omega), if_neg (by omega), if_pos hlt]
      · rw [Tab.find_below hl.2 (by omega), if_pos (by omega), if_pos heq]
        rfl
      · rw [if_neg (by omega), if_neg (by omega), if_neg (by omega)]
    · rw [if_neg hb, if_neg hb, if_neg (by omega)]

/-- What the place of a splice reads as: the spliced values inside it, and the old values outside. -/
theorem getD_splice {α : Type} [DecidableEq α] {d : α} {src dst : Tab α} (hs : Tab.wf src = true) (hd : Tab.wf dst = true)
    (lo base n a : Nat) : Tab.getD (splice d src lo dst base n) a d
      = if base ≤ a ∧ a < base + n then Tab.getD src (a - base + lo) d else Tab.getD dst a d := by
  have hkeep (t : Tab α) (p : Nat → Bool) (h : Tab.wf t = true) := Tab.find_keep_key h p
  unfold splice
  rw [Tab.getD_foldl_moved (Tab.sortedFrom_keep hs _) (fun c hc => ?lo) (Tab.sortedFrom_keep hd _)]
  case lo =>
    have hc := (List.mem_filter.1 hc).2
    simp only [Bool.and_eq_true, decide_eq_true_eq] at hc
    exact hc.1
  unfold Tab.getD
  rw [hkeep src (fun a => decide (lo ≤ a) && decide (a < lo + n)) hs, hkeep dst (fun a => decide (a < base) || decide (base + n ≤ a)) hd]
  by_cases hin : base ≤ a ∧ a < base + n
  · rw [if_pos hin, if_pos hin.1, if_pos (by simp; omega), if_neg (by simp; omega)]
    rfl
  · rw [if_neg hin, if_pos (show (decide (a < base) || decide (base + n ≤ a)) = true by simp; omega)]
    split
    · rw [if_neg (by simp; omega)]
      rfl
    · rfl

theorem State.copyFrames_mem (s : State) (f g k : Nat) :
    (s.copyFrames f g k).mem = splice 0 s.mem (f * 65536) s.mem (g * 65536) (k * 65536) := by
  unfold State.copyFrames
  exact congrArg (splice 0 s.mem (f * 65536) · (g * 65536) (k * 65536)) (State.foldl_leaves (f := fun s i => (s.stackFor (f + i)).stackFor (g + i))
    (g := State.mem) (fun _ _ => rfl) _ s)

/-- Table 10-7 step 4: each byte of the destination is the source's, and no other byte changes. -/
theorem State.readByte_copyFrames {s : State} (h : Tab.wf s.mem = true) (f g k a : Nat) : readByte (s.copyFrames f g k).mem a
    = if g * 65536 ≤ a ∧ a < g * 65536 + k * 65536 then readByte s.mem (a - g * 65536 + f * 65536) else readByte s.mem a := by
  rw [State.copyFrames_mem]
  exact getD_splice h h _ _ _ _

/-! ### Promotion and demotion (R288, R289) -/

section
variable {s : State} {k : Nat} {p : Promo} {e : PEntry}

/-- R288: the slot is held, the page's entry PROMOTED, and the promotion counted. -/
def State.promotionHeld (s : State) (k : Nat) (p : Promo) (e : PEntry) : State :=
  let t := (s.setPromo k { p with st := .held }).putEntry p.vd p.page e
  { t with slu := { t.slu with promote := s.slu.promote + 1 } }

theorem State.promotionHeld_promo (t : State) (k : Nat) (p : Promo) (e : PEntry) :
    (t.promotionHeld k p e).slu.promo.find k = some { p with st := .held } := Tab.find_put_same _ _ _

theorem State.promotionHeld_pt (t : State) (k : Nat) (p : Promo) (e : PEntry) :
    (t.promotionHeld k p e).slu.pt.find (ptKey p.vd p.page) = some e := Tab.find_put_same _ _ _

/-- A promotion's end changes the Sluice's tables and counter alone. -/
theorem State.promotionHeld_sets (t : State) (k : Nat) (p : Promo) (e : PEntry) :
    ∃ g : Sluice, g.promote = t.slu.promote + 1 ∧ t.promotionHeld k p e = { t with slu := g } := ⟨_, rfl, rfl⟩

/-- R200: a field that is of neither the slices, the memory, the power states, the pool nor what is sent stays as it is. -/
theorem State.evict_leaves {α : Type} {g : State → α} (hslice : ∀ s n f, g (State.modSlice s n f) = g s)
    (hset : ∀ (s : State) mem pois power pool out, g { s with mem := mem, memPoison := pois, power := power, pool := pool, out := out } = g s)
    (s : State) (n key : Nat) : g (s.evict n key) = g s := by
  have hsend (t : State) (m : CohMsg) : g (t.sendWb m) = g t := by
    unfold State.sendWb
    extract_lets
    split <;> exact hset t _ _ _ _ _
  unfold State.evict
  extract_lets f t
  have ht : g t = g s := hslice s n _
  clear_value t
  split
  · exact ht
  · split
    · exact (hset t _ _ _ _ _).trans ht
    · exact (hslice _ _ _).trans ((hsend t _).trans ht)
    · exact ht

theorem State.evict_slu : ∀ (s : State) (n key : Nat), (s.evict n key).slu = s.slu :=
  State.evict_leaves State.modSlice_slu fun _ _ _ _ _ _ => rfl

theorem State.evict_vds : ∀ (s : State) (n key : Nat), (s.evict n key).vds = s.vds :=
  State.evict_leaves State.modSlice_vds fun _ _ _ _ _ _ => rfl

/-- What each write-back leaves, the write-back of frames leaves. -/
theorem State.evictFrames_leaves {α : Type} {g : State → α} (h : ∀ s n key, g (State.evict s n key) = g s) (s : State) (f k : Nat) :
    g (s.evictFrames f k) = g s := by
  unfold State.evictFrames
  refine State.foldl_leaves (fun s e => State.foldl_leaves (fun s fr => ?_) _ s) _ s
  split
  · exact h _ _ _
  · rfl

theorem exec_promoteDone_coming (hp : s.slu.promo.find k = some p) (hst : p.st = .coming) (he : s.slu.pt.find (ptKey p.vd p.page) = some e)
    (hk : e.kind = .page) (hg : e.gframe = s.ownFrame p.frame) (hm : ∀ m ∈ s.slu.moves, m.vd ≠ p.vd ∨ m.page ≠ p.page)
    (hq : (s.slices.any fun y => y.2.miss.any fun m => s.inFrames p.frame 1 m.1) = false) : exec (.promoteDone k) s
      = .next (((s.evictFrames p.frame 1).slotIn p.frame k).promotionHeld k p { e with promoted := true, moved := s.movedNow }) := by
  have hslu : ((s.evictFrames p.frame 1).slotIn p.frame k).slu = s.slu := State.evictFrames_leaves State.evict_slu s _ _
  have hmoves : (s.slu.moves.all fun m => decide (m.vd ≠ p.vd) || decide (m.page ≠ p.page)) = true := by simpa using hm
  show Host.Outcome.next (s.promoteDone k) = _
  simp only [State.promoteDone, hp, hst, hq, he, hk, hg, hmoves]
  simp [State.promotionHeld, State.setPromo, State.putEntry, hslu]

/-- R289: the slot is written back and free, the page's entry no longer PROMOTED, and Fantail's demotion counted. -/
theorem exec_demoteDone_going (hp : s.slu.promo.find k = some p) (hst : p.st = .going) (hn : p.next = none) (hf : p.fantail = true)
    (he : s.slu.pt.find (ptKey p.vd p.page) = some e) : exec (.demoteDone k) s
      = .next (({ s.slotOut p.frame k with slu := { s.slu with promo := s.slu.promo.del k, demote := s.slu.demote + 1 } } : State).setEntry p.vd p.page
          { e with promoted := false, moved := s.movedNow }) := by
  show Host.Outcome.next (s.demoteDone k) = _
  simp [State.demoteDone, hp, hst, hn, hf, he, State.slotOut]

end

/-! ### Fantail (R286, R287, R290, R291) -/

/-- R286: every heat is halved. -/
def State.halveHeat (s : State) : State :=
  { s with slu := { s.slu with heat := (s.slu.heat.mapVal fun _ h => h / 2).keep fun _ h => decide (h ≠ 0) } }

/-- R287: what Fantail asked for at its last evaluation and has not begun is dropped. -/
def State.dropAsked (s : State) : State :=
  { s with slu := { s.slu with wanted := s.slu.wanted.filter fun w => decide (w.by_ ≠ .fantail) } }

theorem State.dropAsked_of_none {s : State} (h : s.slu.wanted = []) : s.dropAsked = s := by
  rw [State.dropAsked, h, List.filter_nil, ← h]

theorem exec_fantailEvaluation_disabled {s : State} (h : s.pol.fantailEnable = false) :
    exec .fantailEvaluation s = .next s.dropAsked.halveHeat := by
  show Host.Outcome.next s.fantail = _
  simp only [State.fantail, h]
  rfl

theorem exec_fantailEvaluation_enabled {s : State} (h : s.pol.fantailEnable = true) : exec .fantailEvaluation s
    = .next (State.ftRun ((s.dropAsked.slu.pt.filterMap fun e => s.dropAsked.candidate e.1 e.2).foldl (fun l c => insertCand c l) []) 32
      s.dropAsked).halveHeat := by
  show Host.Outcome.next s.fantail = _
  simp only [State.fantail, h]
  rfl

/-- Table 10-8: a hot page of a peer that no policy, pin or dwell holds is asked for. -/
theorem exec_fantailEvaluation_localise {s : State} {key : Nat} {e : PEntry} (hen : s.pol.fantailEnable = true) (hpt : s.slu.pt = [(key, e)])
    (hw : s.slu.wanted = []) (hm : s.slu.moves = []) (hp : s.slu.promo = []) (hk : e.kind = .page)
    (hg : s.granted (key / 2 ^ 26) (key % 2 ^ 26) (pageFrames e.big) = false) (hr : gfDev e.gframe ≠ s.pool.devnum)
    (hh : 128 ≤ s.slu.heat.getD key 0) (hpin : e.pin = false) (hpol : bit (s.regionPolicy (key / 2 ^ 26) (key % 2 ^ 26 * 65536)) 2 = false)
    (hd : s.dwells e = false) : exec .fantailEvaluation s
      = .next (s.want { vd := key / 2 ^ 26, page := key % 2 ^ 26, dev := s.pool.devnum, by_ := .fantail }).halveHeat := by
  have hcand : s.candidate key e = some { vd := key / 2 ^ 26, page := key % 2 ^ 26, heat := s.slu.heat.getD key 0, mv := .localise, e := e } := by
    simp only [State.candidate]
    rw [if_neg (by simp only [hk, hg]; simp), if_pos hr, if_pos hh]
  have hfree : s.forbids { vd := key / 2 ^ 26, page := key % 2 ^ 26, heat := s.slu.heat.getD key 0, mv := .localise, e := e } = none := by
    simp only [State.forbids, hpin, hpol]
    rfl
  have hidle : s.ftInFlight = 0 := by simp [State.ftInFlight, hw, hm, hp]
  rw [exec_fantailEvaluation_enabled hen, State.dropAsked_of_none hw, hpt]
  simp only [List.filterMap_cons, hcand, List.filterMap_nil, List.foldl_cons, List.foldl_nil, insertCand, State.ftRun, State.ftTry, hfree, hd, hidle]
  rfl

/-! ### PROMOTE_DONE and the form of the slices' tables -/

/-- Slice 0 lists frame 0 twice: first as a dirty copy of a line of device 1, then as line 0, which its home holds. A promotion of the page of
line 0 is under way. -/
def frameTwice : State :=
  { slices := [(0, { frames := [(0, { st := .re, line := 2 ^ 34, v := 1, d := 1 }), (0, { st := .h, v := 15 })] })]
    slu := { pt := [(0, { kind := .page })], promo := [(0, { vd := 0, page := 0, frame := 0 })] } }

/-- R223: with no write-back on its way, one goes at once and takes a credit of its home. -/
theorem State.sendWb_first {s : State} (ho : s.pool.wbOut = []) (hh : s.pool.wbHold = []) (m : CohMsg) :
    (s.sendWb m).pool.wbOut = [(m.dev, 1)] := by
  simp [State.sendWb, ho, hh, Tab.getD, Tab.find, Tab.setD, Tab.put]

theorem State.evict_dirtyRe {s : State} {n key : Nat} {f : Frame} (hf : (s.slice n).frames.getD key {} = f) (hst : f.st = .re) (hd : f.d ≠ 0) :
    (s.evict n key).pool = ((s.setFrame n key {}).sendWb (wbMsg f)).pool := by
  simp only [State.evict, hf, hst, if_neg hd]
  exact State.modSlice_pool _ _ _

/-- R200: the write-back of a line at its home sets its frame, DRAM and its stack's power state. -/
theorem State.evict_home {s : State} {n key : Nat} (hst : ((s.slice n).frames.getD key {}).st = .h) :
    (s.evict n key).pool = s.pool ∧ (s.evict n key).slices = (s.setFrame n key {}).slices := by
  have hpool : (s.setFrame n key {}).pool = s.pool := State.modSlice_pool _ _ _
  simp only [State.evict, hst]
  generalize s.setFrame n key {} = t at hpool ⊢
  split
  · exact ⟨hpool, rfl⟩
  · exact ⟨hpool, rfl⟩

/-- Entries found in a table with a default are found after another entry is set. -/
theorem Tab.find_setD_of_found {α : Type} [DecidableEq α] {t : Tab α} {m n : Nat} {d x : α} (h : Tab.find t m = some x) (hm : m ≠ n) (y : α) :
    Tab.find (Tab.setD t n d y) m = some x := by
  unfold Tab.setD
  split
  · exact Tab.find_del_of_found h hm
  · rw [Tab.find_put_other _ _ hm, h]

/-- A frame that is found in its slice stays there when another frame of the slice is emptied. -/
theorem State.find_frame_emptied {s : State} {n key key' : Nat} {f : Frame} (h : (s.slice n).frames.find key = some f) (hne : key ≠ key') :
    ((s.setFrame n key' {}).slice n).frames.find key = some f := by
  have hfound := Tab.find_setD_of_found (d := {}) h hne {}
  have hlisted : (s.slice n).frames.setD key' {} {} ≠ [] := fun h0 => by rw [h0] at hfound; cases hfound
  rw [State.setFrame, State.slice_modSlice_listed (by dsimp only; exact hlisted)]
  dsimp only
  exact hfound

/-- The write-back of some frames of a slice, as they are listed. -/
def State.evictListed (s : State) (f k n : Nat) (l : List (Nat × Frame)) : State :=
  l.foldl (fun s fr => if decide (fr.2.st = .h) && s.inFrames f k fr.2.line then s.evict n fr.1 else s) s

/-- Frames listed as they are found, each once: their write-back leaves the pool and the other slices. -/
theorem State.evictListed_leaves {f k n : Nat} {l : List (Nat × Frame)} {s : State} (hl : (l.map Prod.fst).Nodup)
    (h : ∀ e ∈ l, (s.slice n).frames.find e.1 = some e.2) : (s.evictListed f k n l).pool = s.pool
      ∧ ∀ m x, m ≠ n → s.slices.find m = some x → (s.evictListed f k n l).slices.find m = some x := by
  induction l generalizing s with
  | nil => exact ⟨rfl, fun _ _ _ hx => hx⟩
  | cons e l ih =>
    obtain ⟨hnew, hl⟩ := List.nodup_cons.1 hl
    have hcons : s.evictListed f k n (e :: l)
        = (if decide (e.2.st = .h) && s.inFrames f k e.2.line then s.evict n e.1 else s).evictListed f k n l := rfl
    rw [hcons]
    split
    · next hc =>
      simp only [Bool.and_eq_true, decide_eq_true_eq] at hc
      have hst : ((s.slice n).frames.getD e.1 {}).st = .h := by rw [Tab.getD, h e List.mem_cons_self]; exact hc.1
      obtain ⟨hpool, hslices⟩ := State.evict_home hst
      have hothers : ∀ e' ∈ l, ((s.evict n e.1).slice n).frames.find e'.1 = some e'.2 := fun e' he' => by
        rw [State.slice, hslices]
        exact State.find_frame_emptied (h e' (List.mem_cons_of_mem _ he')) fun heq => hnew (heq ▸ List.mem_map_of_mem he')
      obtain ⟨hp, hs⟩ := ih hl hothers
      refine ⟨hp.trans hpool, fun m x hm hx => hs m x hm ?_⟩
      rw [hslices, State.setFrame, State.modSlice_slices]
      exact Tab.find_setD_of_found hx hm _
    · exact ih hl fun e' he' => h e' (List.mem_cons_of_mem _ he')

theorem Tab.nodup_keys {α : Type} {t : Tab α} {lo : Nat} (h : Tab.sortedFrom lo t = true) : (t.map Prod.fst).Nodup := by
  induction t generalizing lo with
  | nil => exact List.nodup_nil
  | cons e t ih =>
    obtain ⟨k, v⟩ := e
    simp only [Tab.sortedFrom, Bool.and_eq_true] at h
    refine List.nodup_cons.2 ⟨fun hk => ?_, ih h.2⟩
    obtain ⟨⟨j, x⟩, hx, rfl⟩ := List.mem_map.1 hk
    have hfind := Tab.find_of_mem h.2 hx
    rw [Tab.find_below h.2 (Nat.lt_succ_self _)] at hfind
    cases hfind

/-- R288: with the tables of the slices in canonical form, the write-back of a page's cached lines leaves the pool. -/
theorem State.evictFrames_pool {s : State} (hs : Tab.wf s.slices = true) (hf : ∀ e ∈ s.slices, Tab.wf e.2.frames = true) (f k : Nat) :
    (s.evictFrames f k).pool = s.pool := by
  have hwhole (l : List (Nat × Slice)) : ∀ t : State, (l.map Prod.fst).Nodup → (∀ e ∈ l, Tab.wf e.2.frames = true) →
      (∀ e ∈ l, t.slices.find e.1 = some e.2) → (l.foldl (fun t e => t.evictListed f k e.1 e.2.frames) t).pool = t.pool := by
    induction l with
    | nil => exact fun _ _ _ _ => rfl
    | cons e l ih =>
      intro t hl hw h
      obtain ⟨hnew, hl⟩ := List.nodup_cons.1 hl
      have hwe := hw e List.mem_cons_self
      have hslice : t.slice e.1 = e.2 := by rw [State.slice, Tab.getD, h e List.mem_cons_self]; rfl
      obtain ⟨hpool, hothers⟩ := State.evictListed_leaves (s := t) (f := f) (k := k) (n := e.1) (Tab.nodup_keys hwe) fun fr hfr => by
        rw [hslice]; exact Tab.find_of_mem hwe hfr
      exact (ih _ hl (fun e' he' => hw e' (List.mem_cons_of_mem _ he')) fun e' he' => hothers _ _ (fun heq => hnew (heq ▸ List.mem_map_of_mem he'))
        (h e' (List.mem_cons_of_mem _ he'))).trans hpool
  exact hwhole s.slices s (Tab.nodup_keys hs) hf fun e he => Tab.find_of_mem hs he

/-- The clause of O34 that fails holds once the tables of the slices are in canonical form. -/
theorem promoteDone_of_canonical_slices (s : State) (k : Nat) (p : Promo) (e : PEntry) (hs : Tab.wf s.slices = true)
    (hf : ∀ y ∈ s.slices, Tab.wf y.2.frames = true) (hp : s.slu.promo.find k = some p) (hst : p.st = .coming)
    (he : s.slu.pt.find (ptKey p.vd p.page) = some e) (hk : e.kind = .page) (hg : e.gframe = s.ownFrame p.frame)
    (hm : ∀ m ∈ s.slu.moves, m.vd ≠ p.vd ∨ m.page ≠ p.page)
    (hq : (s.slices.any fun y => y.2.miss.any fun m => s.inFrames p.frame 1 m.1) = false) :
    ∃ t, exec (.promoteDone k) s = .next t ∧ t.slu.promo.find k = some { p with st := .held }
      ∧ t.bays = ((s.evictFrames p.frame 1).slotIn p.frame k).bays
      ∧ t.slu.pt.find (ptKey p.vd p.page) = some { e with promoted := true, moved := s.movedNow } ∧ t.slu.promote = s.slu.promote + 1
      ∧ t.vds = s.vds ∧ t.pool = s.pool := by
  have hslu : (s.evictFrames p.frame 1).slu = s.slu := State.evictFrames_leaves State.evict_slu s _ _
  obtain ⟨g, hcount, hset⟩ := ((s.evictFrames p.frame 1).slotIn p.frame k).promotionHeld_sets k p { e with promoted := true, moved := s.movedNow }
  refine ⟨_, exec_promoteDone_coming hp hst he hk hg hm hq, State.promotionHeld_promo _ _ _ _, ?_, State.promotionHeld_pt _ _ _ _, ?_, ?_, ?_⟩
    <;> rw [hset]
  · exact hcount.trans (congrArg (fun g : Sluice => g.promote + 1) hslu)
  · exact State.evictFrames_leaves State.evict_vds s _ _
  · exact State.evictFrames_pool hs hf _ _

/-- Refutes O34: its clause on PROMOTE_DONE says that the pool stays as it is and asks nothing of the form of the tables. The write-back of
the page's cached lines scans the list of `frameTwice`, finds line 0 under frame 0, and writes back what is found there, the copy
of the other device's line, so that a WB leaves for that device. With the tables in canonical form the clause
holds: `promoteDone_of_canonical_slices`. -/
theorem not_pagesMoveInSteps : ¬ Obligations.PagesMoveInSteps := by
  rintro ⟨-, -, -, -, -, -, -, hpromote, -⟩
  obtain ⟨t, ht, -, -, -, -, -, hpool⟩ := hpromote frameTwice 0 { vd := 0, page := 0, frame := 0 } { kind := .page } rfl rfl rfl rfl rfl
    (fun m hm => by cases hm) rfl
  rw [exec_promoteDone_coming (s := frameTwice) rfl rfl rfl rfl rfl (fun m hm => by cases hm) rfl] at ht
  have hscan : frameTwice.evictFrames 0 1 = frameTwice.evict 0 0 := by decide +kernel
  have hsent : (frameTwice.evict 0 0).pool.wbOut = [(1, 1)] := by
    rw [State.evict_dirtyRe (s := frameTwice) rfl rfl (by decide), State.sendWb_first rfl rfl]
    rfl
  have hsame : (frameTwice.evict 0 0).pool = frameTwice.pool := by
    rw [← hscan, ← hpool]
    cases ht
    rfl
  rw [hsame] at hsent
  cases hsent

end Sys2Proof.Machine
end

section
/-!
Messages of the pool (O44): timers and pool time (R450, R471), remote operations that end without an answer (R460 to R462), requests and
answers for pennants and pages (R280 to R284, R333 to R336), and the path of a message (R456).
-/
namespace Sys2Proof.Machine

/-! ### Timers and pool time (R450, R471) -/

section
variable {s : State} {p : Nat}

/-- R450, Table 17-2: the fields of a HELLO, the serial first. -/
theorem State.sendHello_sends (s : State) (p : Nat) :
    ∃ vals, s.sendHello p = s.send (.link p 1 vals) ∧ vals.length = 10 ∧ vals.headD 0 = s.fuses.serial := ⟨_, rfl, rfl, rfl⟩

theorem exec_helloTimer_l0 (h : (s.hylPort p).st = .l0) : exec (.helloTimer p) s = .next (s.sendHello p).linkSync := if_pos h

theorem exec_timeReq_poolLink (h : p ∈ s.floodPorts) : exec (.timeReq p) s = .next (s.send (.link p 9 [s.poolTime])).linkSync :=
  if_pos (List.contains_iff_mem.2 h)

theorem exec_timeRsp_upstream (h : p ∈ s.floodPorts) (hm : s.pool.st = .member) (d : Int) : exec (.timeRsp p d true) s = .next { s with pool :=
    { s.pool with slew := clampInt (-1000) 1000 d, aligned := s.pool.aligned || (decide (-20 ≤ d) && decide (d ≤ 20)) } } :=
  if_pos (by simp [h, hm])

theorem clampInt_between {lo hi : Int} (h : lo ≤ hi) (x : Int) : lo ≤ clampInt lo hi x ∧ clampInt lo hi x ≤ hi := by
  unfold clampInt
  split
  · omega
  · split <;> omega

theorem clampInt_inside {lo hi x : Int} (hl : lo ≤ x) (hh : x ≤ hi) : clampInt lo hi x = x := by
  rw [clampInt, if_neg (by omega), if_neg (by omega)]

end

/-! ### Remote operations that end without an answer (R460, R461, R462) -/

section
variable {s : State} {r : RemoteOp}

theorem exec_remoteOpTimeout_outstanding {i : Nat} (h : s.pool.remote[i]? = some r) (x : Ext) : exec (.remoteOpTimeout i x) s = .next ({ s with
    pool := { s.pool with remote := s.pool.remote.erase r, timeoutCnt := s.pool.timeoutCnt + 1 } }.opFailed r x) := by
  show execRemoteOpTimeout i x s = _
  simp only [execRemoteOpTimeout, h]
  rfl

/-- R461: the messages that UNREACH names by opcode, tag and line. -/
def RemoteOp.isUnreached (device op tag line : Nat) (r : RemoteOp) : Bool :=
  decide (r.dev = device) && decide (r.tag % 65536 = tag % 65536) && (match r.kind with
    | .mem => decide (r.op.code = op) && decide (r.line = line)
    | .pen => decide (op = 0x11)
    | .sl => decide (op = 0x13)
    | .coll => false)

/-- UNREACH of a request, a PEN_REQ or an SL_REQ ends the operation that it names. -/
theorem exec_unreach_only {device op tag line : Nat} (hop : op < 0x10 ∨ op < 0x18 ∧ line = 0) (hr : s.pool.remote = [r])
    (h : r.isUnreached device op tag line = true) (x : Ext) :
    exec (.unreach device op tag line x) s = .next ({ s with pool := { s.pool with remote := [] } }.opFailed r x) := by
  have hfind : s.pool.remote.find? (RemoteOp.isUnreached device op tag line) = some r := by rw [hr, List.find?_cons, h]
  have hdrop : s.dropRemote r = { s with pool := { s.pool with remote := [] } } := by rw [State.dropRemote, hr, List.erase_cons_head]
  rw [← hdrop]
  show execUnreach device op tag line x s = _
  unfold execUnreach
  rw [if_neg (by omega), if_neg (by omega)]
  change (match s.pool.remote.find? (RemoteOp.isUnreached device op tag line) with | some r => _ | none => _) = _
  rw [hfind]

/-- R462: whether a posted write finds an entry does not depend on those that wait. -/
theorem State.depChoose_depWait (s : State) (w : Who) (t : List (Who × CohMsg)) :
    { s with pool := { s.pool with depWait := t } }.depChoose w = s.depChoose w := rfl

theorem exec_departedWriteEntryAge_waits {w : Who} {m : CohMsg} {t : List (Who × CohMsg)} (h : s.pool.depWait = (w, m) :: t) :
    exec .departedWriteEntryAge s = .next (({ s with pool := { s.pool with depWait := t } }.postNow w m).getD s) := by
  show execDepartedWriteEntryAge s = _
  simp only [execDepartedWriteEntryAge, h]

/-- A posted write of a command goes if an entry is had for it, and every other posted write at once. -/
theorem State.postNow_eq_none_iff (s : State) (w : Who) (m : CohMsg) : s.postNow w m = none ↔ w.cmd ≠ none ∧ s.depChoose w = none := by
  unfold State.postNow
  extract_lets
  split
  · next hc => simp [hc]
  · next hc => simp [hc]

end

/-! ### Pennant requests at their owner (R333, R334, R336) -/

section
variable {s : State} {dev vd tag op ticket v k qos : Nat} {e : Export}

/-- R68: outside a warm reset's later steps a peer's request is served at once. -/
theorem exec_penReq_served (hw : s.boot.warm < 2) :
    exec (.penReq dev vd tag op ticket v qos) s = .next (s.penServe dev vd tag op ticket v qos) :=
  congrArg Host.Outcome.next (if_neg (by simpa [State.peersWait] using hw))

section
variable (ht : s.ticketPen ticket = some (k, e))
include ht

theorem State.penServe_signal : s.penServe dev vd tag 2 ticket v qos
    = (s.penAdd e.pen v).send (.penAnswer dev vd tag (.answer .ok ((s.penAdd e.pen v).penn e.pen).count.toNat)) := by
  simp [State.penServe, ht]

theorem State.penServe_read : s.penServe dev vd tag 4 ticket v qos
    = s.send (.penAnswer dev vd tag (.answer .ok (s.penn e.pen).count.toNat)) := by
  simp [State.penServe, ht]

/-- R334: a wait is met at once, or registered with the peer as its waiter. -/
theorem State.penServe_wait : s.penServe dev vd tag 5 ticket v qos = if v ≤ (s.penn e.pen).count.toNat
    then s.send (.penAnswer dev vd tag (.wake .ok (s.penn e.pen).count.toNat)) else s.register e.pen vd v (.peer dev vd tag) qos := by
  simp [State.penServe, ht]

theorem State.penServe_termination : s.penServe dev vd tag 16 ticket v qos
    = (s.penAdd e.pen v).send (.penAnswer dev vd tag (.answer .ok 0)) := by
  simp [State.penServe, ht]

end

/-- R336: the operation of a ticket that names nothing is dropped and counted. -/
theorem State.penServe_stale (ht : s.ticketPen ticket = none) (h7 : op ≠ 7) : s.penServe dev vd tag op ticket v qos =
    { s with pen := { s.pen with dropCnt := s.pen.dropCnt + 1 } }.send (.penAnswer dev vd tag (if op = 16 then .dropped else .answer .abandoned 0)) := by
  simp [State.penServe, ht, h7]

end

/-! ### Pennant answers at the importer (R323, R329, R334) -/

section
variable {s s1 : State} {r : RemoteOp} {c : Cmd} {dev vd tag : Nat} (hop : s.penOp dev tag vd = some (r, s1))
include hop

/-- R323: the wait of a command that is recorded frees the slot of an ARM. -/
theorem exec_penRsp_recorded (hc : s1.cmd? tag = some c) :
    exec (.penRsp dev vd tag .recorded) s = .next (if c.wait = .registered then s1.armRecorded tag c else s1) := by
  show execPenRsp dev vd tag .recorded s = _
  simp only [execPenRsp, hop, hc]

section
variable (hr : s.oldReply r = false)
include hr

theorem exec_penRsp_dropped :
    exec (.penRsp dev vd tag .dropped) s = .next (s1.modVd vd fun x => { x with penDropCnt := x.penDropCnt + 1 }) := by
  show execPenRsp dev vd tag .dropped s = _
  simp [execPenRsp, hop, hr]

theorem exec_penRsp_wake (n : Nat) : exec (.penRsp dev vd tag (.wake .ok n)) s = .next (s1.woken vd tag .ok n) := by
  show execPenRsp dev vd tag (.wake .ok n) s = _
  simp [execPenRsp, hop, hr]

/-- The answer to a PEN operation other than an IMPORT. -/
theorem exec_penRsp_answer (hc : s1.cmd? tag = some c) (hp : r.posted = false) (h3 : c.opcode = 3) (hst : c.st ≠ .queued) (h7 : c.opx ≠ 7) (n : Nat) :
    exec (.penRsp dev vd tag (.answer .ok n)) s = .next ((s1.penDone tag .ok n).modCmd tag fun c => { c with wait := .met }) := by
  show execPenRsp dev vd tag (.answer .ok n) s = _
  simp [execPenRsp, hop, hr, hc, hp, h3, hst, h7]

end
end

/-! ### Page requests and answers (R280 to R284) -/

theorem Tab.find_foldl_put {α : Type} (x : α) (f k : Nat) (t : Tab α) {i : Nat} (hi : i < k) :
    Tab.find ((List.range k).foldl (fun t i => Tab.put t (f + i) x) t) (f + i) = some x := by
  induction k with
  | zero => omega
  | succ k ih =>
    rw [List.range_succ, List.foldl_append, List.foldl_cons, List.foldl_nil]
    by_cases hk : i = k
    · rw [hk, Tab.find_put_same]
    · rw [Tab.find_put_other _ _ (by omega), ih (by omega)]

theorem Tab.find_foldl_del {α : Type} (f k : Nat) {t : Tab α} (h : Tab.wf t = true) :
    Tab.wf ((List.range k).foldl (fun t i => Tab.del t (f + i)) t) = true
      ∧ ∀ i < k, Tab.find ((List.range k).foldl (fun t i => Tab.del t (f + i)) t) (f + i) = none := by
  induction k with
  | zero => exact ⟨h, fun i hi => absurd hi (Nat.not_lt_zero i)⟩
  | succ k ih =>
    obtain ⟨hwf, hnone⟩ := ih
    rw [List.range_succ, List.foldl_append, List.foldl_cons, List.foldl_nil]
    refine ⟨Tab.wf_del hwf _, fun i hi => ?_⟩
    by_cases hk : i = k
    · rw [hk, Tab.find_del_same hwf]
    · rw [Tab.find_del_other hwf (by omega), hnone i (by omega)]

section
variable {s : State} {dev : Nat} {m : SlMsg} {x : Ext}

/-- R68: a peer's request that waits for nothing. -/
theorem exec_slReq_served (hw : s.boot.warm < 2) (h : (s.fresh.slServe dev m x.pick).stall = []) :
    exec (.slReq dev m x) s = .next (s.fresh.slServe dev m x.pick) :=
  congrArg Host.Outcome.next ((if_neg (by simpa [State.peersWait] using hw)).trans (State.orWait_next (f := fun s => s.slServe dev m x.pick) h))

/-- The fields of the state that the zeroing of frames leaves. -/
theorem State.zeroFrames_leaves {α : Type} {g : State → α}
    (h : ∀ (s : State) power slices mem pois, g { s with power := power, slices := slices, mem := mem, memPoison := pois } = g s)
    (s : State) (f k : Nat) : g (s.zeroFrames f k) = g s := by
  unfold State.zeroFrames
  extract_lets lo hi t
  have ht : g t = g s := (h _ _ _ _ _).trans (State.foldl_leaves (f := fun s i => s.stackFor (f + i)) (fun s _ => h s _ _ _ _) (List.range k) s)
  exact (h t _ _ _ _).trans ht

/-- R273: the bytes of the frames leave the memory. -/
theorem State.zeroFrames_mem (s : State) (f k : Nat) :
    (s.zeroFrames f k).mem = Tab.keep s.mem fun a _ => decide (a < f * 65536) || decide ((f + k) * 65536 ≤ a) :=
  congrArg (fun m => Tab.keep m fun a _ => decide (a < f * 65536) || decide ((f + k) * 65536 ≤ a))
    (State.foldl_leaves (f := fun s i => s.stackFor (f + i)) (g := State.mem) (fun _ _ => rfl) (List.range k) s)

theorem State.scanFree_fresh (s : State) (k n f : Nat) : s.fresh.scanFree k n f = s.scanFree k n f := by
  induction n generalizing f with
  | zero => rfl
  | succ n ih =>
    simp only [State.scanFree, ih]
    rfl

/-- The frames that a row finds do not depend on what it waits for. -/
theorem State.chooseFrames_fresh (s : State) (k pick : Nat) (reserve : Bool) : s.fresh.chooseFrames k pick reserve = s.chooseFrames k pick reserve := by
  unfold State.chooseFrames
  rw [State.scanFree_fresh]
  rfl

theorem exec_slReq_takeNone {tag k : Nat} (hw : s.boot.warm < 2) (h : s.chooseFrames k x.pick = none) :
    exec (.slReq dev (.take tag k) x) s = .next (s.fresh.send (.sl dev (.taken tag none k))) := by
  have hf : s.fresh.chooseFrames k x.pick = none := (s.chooseFrames_fresh _ _ _).trans h
  have hserve : s.fresh.slServe dev (.take tag k) x.pick = s.fresh.send (.sl dev (.taken tag none k)) := by simp only [State.slServe, hf]
  exact (exec_slReq_served hw (by rw [hserve]; rfl)).trans (congrArg Host.Outcome.next hserve)

/-- Frames are held for a peer: zeroed, and marked as its own. -/
def State.holdFrames (s : State) (dev f k : Nat) : State :=
  { s.zeroFrames f k with slu := { (s.zeroFrames f k).slu with
      foreignFrames := (List.range k).foldl (fun t i => t.put (f + i) dev) (s.zeroFrames f k).slu.foreignFrames } }

theorem exec_slReq_take {tag k f : Nat} (hw : s.boot.warm < 2) (h : s.chooseFrames k x.pick = some f) : exec (.slReq dev (.take tag k) x) s
    = .next ((s.fresh.holdFrames dev f k).send (.sl dev (.taken tag (some (s.ownFrame f)) k))) := by
  have hf : s.fresh.chooseFrames k x.pick = some f := (s.chooseFrames_fresh _ _ _).trans h
  have hserve : s.fresh.slServe dev (.take tag k) x.pick = (s.fresh.holdFrames dev f k).send (.sl dev (.taken tag (some (s.ownFrame f)) k)) := by
    simp only [State.slServe, hf]
    rfl
  refine (exec_slReq_served hw ?_).trans (congrArg Host.Outcome.next hserve)
  rw [hserve]
  exact State.zeroFrames_leaves (g := State.stall) (fun _ _ _ _ _ => rfl) _ _ _

/-- R285: frames that come back are taken from the peer, once no copy of their lines is awaited. -/
theorem exec_slReq_giveBack {f k : Nat} {s1 : State} (hw : s.boot.warm < 2) (h1 : s1 = s.fresh.takeBackFrames f k peerVd) (hst : s1.stall = []) :
    exec (.slReq dev (.giveBack f k) x) s = .next { s1 with slu := { s1.slu with
      foreignFrames := (List.range k).foldl (fun t i => t.del (f + i)) s1.slu.foreignFrames } } := by
  subst h1
  exact exec_slReq_served hw hst

theorem exec_slReq_revoke (hw : s.boot.warm < 2) (slot : Nat) :
    exec (.slReq dev (.revoke slot) x) s = .next (s.fresh.revokeGrant dev slot) := exec_slReq_served hw rfl

theorem exec_slReq_fetch {f k dst : Nat} {s1 : State} (hw : s.boot.warm < 2) (h1 : s1 = s.fresh.takeBackFrames f k peerVd) (hst : s1.stall = []) :
    exec (.slReq dev (.fetch f k dst) x) s = .next (s1.send (.sl (gfDev dst) (.page (gfLocal dst) k (s1.rawLines f k)))) := by
  subst h1
  exact exec_slReq_served hw hst

/-- A peer without frames fails the placement or the move that asked for them. -/
theorem exec_slRsp_takenNone {tag k : Nat} {r : RemoteOp} {s1 : State}
    (hr : (s.remoteAt fun r => decide (r.kind = .sl) && decide (r.dev = dev) && decide (r.tag = tag)) = some (r, s1))
    (hm : s1.moveOf (tag / 2 ^ 26) (tag % 2 ^ 26) ≠ none) : exec (.slRsp dev (.taken tag none k) x) s = .next (s1.takeFailed tag .noSpace x.pick) := by
  obtain ⟨m, hm⟩ := Option.ne_none_iff_exists'.1 hm
  show execSlRsp dev (.taken tag none k) x s = _
  simp only [execSlRsp, hr, hm]

/-- A page that no move of this device waits for lands in frames that are held for a peer. -/
theorem State.pageLands_foreign {f k : Nat} {lines : List RemLine} (hm : (s.slu.moves.find? fun m => decide (m.dst = s.ownFrame f) && decide (m.step = 3)
    && decide (gfDev m.src ≠ s.pool.devnum)) = none) (hf : s.slu.foreignFrames.find f ≠ none) : s.pageLands f k lines = s.landLines 0 f k lines := by
  simp only [State.pageLands, hm]
  exact if_pos (Option.isSome_iff_ne_none.2 hf)

/-- A page that a move waits for lands at its destination, and the move has copied. -/
theorem State.pageLands_move {f k : Nat} {lines : List RemLine} {m : Move} (hm : (s.slu.moves.find? fun m => decide (m.dst = s.ownFrame f)
    && decide (m.step = 3) && decide (gfDev m.src ≠ s.pool.devnum)) = some m) :
    s.pageLands f k lines = (s.landLines 0 f k lines).putMove { m with step := 4 } := by
  simp only [State.pageLands, hm]

end

/-! ### The path of a message (R456) -/

theorem State.nextHop_crosses {s : State} {dst d p : Nat} (h : s.nextHop dst = some (d, p)) :
    bit (s.pool.devnum ^^^ dst) d = true ∧ (∀ e, e < d → bit (s.pool.devnum ^^^ dst) e = false) ∧ p = s.dimPort d
      ∧ s.isMember (s.pool.devnum ^^^ 2 ^ d) = true := by
  unfold State.nextHop at h
  split at h
  · cases h
  · next c hc =>
    obtain ⟨hbit, -, hleast⟩ := List.find?_range_eq_some.1 hc
    simp only at h
    split at h
    · next hm =>
      cases h
      exact ⟨hbit, fun e he => by simpa using hleast e he, rfl, hm.2⟩
    · cases h

/-- Settles O44: each row's test holds, and its effect is the one stated. -/
theorem poolMessagesAreAnsweredRoutedAndTimedOut : Obligations.PoolMessagesAreAnsweredRoutedAndTimedOut := by
  refine ⟨fun s p h => ?hello, fun s p => ⟨rfl, exec_timeReq_poolLink⟩, fun s p d hp hm => ?time,
    fun s i r x h => exec_remoteOpTimeout_outstanding h x, fun s d line r x hr hd hk hl hc => ?mem,
    fun s d tag r x hr hd ht => ⟨fun hk => ?pen, fun hk => ?sl⟩, fun s w m t h => ⟨fun s1 hs => ?posted, fun hc hd => ?noEntry, fun hc => ?goes⟩,
    fun s dev vd tag ticket v k qos e ht hw => ?penReq, fun s dev vd tag ticket v ht hw => ?stale, fun s s1 r c dev vd tag n hop hr => ?penRsp,
    fun s dev tag k f x hw => ?slReq, fun s s1 dev tag f k r lines x => ?slRsp, fun s dst d p h => State.nextHop_crosses h⟩
  case hello =>
    obtain ⟨vals, hsend, hlen, hserial⟩ := s.sendHello_sends p
    exact ⟨_, vals, exec_helloTimer_l0 h, by rw [hsend], hlen, hserial⟩
  case time =>
    obtain ⟨hlo, hhi⟩ := clampInt_between (lo := -1000) (hi := 1000) (by decide) d
    exact ⟨_, exec_timeRsp_upstream hp hm d, hlo, hhi, clampInt_inside, by simp, rfl⟩
  case mem =>
    rw [exec_unreach_only (r := r) (.inl hc) hr (by simp [RemoteOp.isUnreached, hd, hk, hl])]
    simp only [State.opFailed, hk]
  case pen =>
    rw [exec_unreach_only (r := r) (.inr ⟨by decide, rfl⟩) hr (by simp [RemoteOp.isUnreached, hd, ← ht, hk])]
    simp only [State.opFailed, hk]
  case sl =>
    rw [exec_unreach_only (r := r) (.inr ⟨by decide, rfl⟩) hr (by simp [RemoteOp.isUnreached, hd, ← ht, hk])]
    simp only [State.opFailed, hk]
  case posted => rw [exec_departedWriteEntryAge_waits h, hs]; rfl
  case noEntry =>
    have hnone := (State.postNow_eq_none_iff _ w m).2 ⟨hc, (s.depChoose_depWait w t).trans hd⟩
    exact (exec_departedWriteEntryAge_waits h).trans (congrArg (fun o => Host.Outcome.next (o.getD s)) hnone)
  case goes =>
    refine Option.ne_none_iff_exists'.1 fun hnone => ?_
    obtain ⟨hcmd, hdep⟩ := (State.postNow_eq_none_iff _ w m).1 hnone
    exact hc.elim hcmd fun hd => hd ((s.depChoose_depWait w t).symm.trans hdep)
  case penReq =>
    simp only [exec_penReq_served hw, State.penServe_signal ht, State.penServe_read ht, State.penServe_wait ht, State.penServe_termination ht, true_and,
      and_true]
    exact ⟨fun hle => by rw [if_pos hle], fun hlt => by rw [if_neg (Nat.not_le.2 hlt)]⟩
  case stale =>
    simp only [exec_penReq_served hw]
    exact ⟨by rw [State.penServe_stale ht (by decide)]; rfl, by rw [State.penServe_stale ht (by decide)]; rfl⟩
  case penRsp =>
    refine ⟨fun hc hw => ?_, fun hc hw => ?_, exec_penRsp_dropped hop hr, exec_penRsp_wake hop hr n,
      fun hc hp h3 hst h7 => exec_penRsp_answer hop hr hc hp h3 hst h7 n⟩
    · rw [exec_penRsp_recorded hop hc, if_pos hw]
    · rw [exec_penRsp_recorded hop hc, if_neg hw]
  case slReq =>
    refine ⟨exec_slReq_takeNone hw, fun hf => ⟨_, exec_slReq_take hw hf, ?_, ?_, fun i hi => ?_⟩,
      fun s1 h1 hst => ⟨_, exec_slReq_giveBack hw h1 hst, fun hwf => (Tab.find_foldl_del f k hwf).2, rfl⟩, exec_slReq_revoke hw,
      fun dst s1 h1 hst => exec_slReq_fetch hw h1 hst⟩
    · exact congrArg (· ++ [_]) (State.zeroFrames_leaves (g := State.out) (fun _ _ _ _ _ => rfl) s.fresh f k)
    · exact (s.fresh.zeroFrames_mem f k).trans (s.zeroFrames_mem f k).symm
    · exact Tab.find_foldl_put dev f k _ hi
  case slRsp =>
    exact ⟨exec_slRsp_takenNone, fun hm hf => congrArg Host.Outcome.next (State.pageLands_foreign hm hf),
      fun m hm => congrArg Host.Outcome.next (State.pageLands_move hm)⟩

end Sys2Proof.Machine
end

section
/-! Sluice commands (O33; R278 to R281): placing, pinning, querying, granting, attaching and detaching ranges, and the end of a grant. -/
namespace Sys2Proof.Machine

/-! ### SL_PLACE (R278) -/

/-- What a command's engine writes last stands. -/
theorem State.modCmd_modCmd (s : State) (q : Nat) (f g : Cmd → Cmd) : (s.modCmd q f).modCmd q g = s.modCmd q (g ∘ f) := by
  cases hc : s.cmd? q with
  | none => simp [State.modCmd, hc]
  | some c =>
    have hset : (s.setCmd q (f c)).cmd? q = some (f c) := Tab.find_put_same _ _ _
    have hput : (s.setCmd q (f c)).setCmd q (g (f c)) = s.setCmd q (g (f c)) := by simp only [State.setCmd, Tab.put_put]
    simp only [State.modCmd, hc, hset, hput, Function.comp]

theorem State.setEntry_cmd? (s : State) (v page : Nat) (e : PEntry) (q : Nat) : (s.setEntry v page e).cmd? q = s.cmd? q := by
  obtain ⟨n, h⟩ := s.setEntry_sets v page e
  rw [h]
  rfl

/-- What Sluice holds decides alone whether the write of an entry counts a shootdown (R272). -/
theorem State.setEntry_of_slu (s : State) (v page : Nat) (e : PEntry) : ∃ shot : Bool, ∀ t : State, t.slu = s.slu →
    t.setEntry v page e = (if shot then t.countShootdown else t).putEntry v page e :=
  ⟨_, fun t h => by rw [State.setEntry, h]⟩

theorem State.setEntry_setCmd (s : State) (q : Nat) (c : Cmd) (v page : Nat) (e : PEntry) :
    (s.setCmd q c).setEntry v page e = (s.setEntry v page e).setCmd q c := by
  obtain ⟨shot, h⟩ := s.setEntry_of_slu v page e
  rw [h s rfl, h (s.setCmd q c) rfl]
  cases shot <;> rfl

/-- The write of an entry and the change of a command do not meet. -/
theorem State.setEntry_modCmd (s : State) (q : Nat) (f : Cmd → Cmd) (v page : Nat) (e : PEntry) :
    (s.modCmd q f).setEntry v page e = (s.setEntry v page e).modCmd q f := by
  unfold State.modCmd
  rw [State.setEntry_cmd?]
  split
  · rw [State.setEntry_setCmd]
  · rfl

/-- What a command's engine served is what it says when it has served it. -/
theorem State.engineDone_modCmd (s : State) (q : Nat) {f : Cmd → Cmd} (hf : ∀ c, f c = { c with st := .running }) (st : Status) :
    (s.modCmd q f).engineDone q st = s.engineDone q st := by
  have hsame : (fun c : Cmd => { c with st := .running, engineFin := some { term := .done, status := st, addr := 0 }, result := 0 }) ∘ f
      = fun c => { c with st := .running, engineFin := some { term := .done, status := st, addr := 0 }, result := 0 } :=
    funext fun c => by rw [Function.comp, hf]
  rw [State.engineDone, State.modCmd_modCmd, hsame]
  rfl

section
variable {s : State} {p : Placing}

theorem State.placeDrop_of_none (h : s.slu.places = []) (q : Nat) : s.placeDrop q = s := by
  rw [State.placeDrop, h, List.filter_nil, ← h]

/-- The placement has reached the end of its range. -/
theorem State.placeRun_end (h : p.stop ≤ p.next) (n pick : Nat) : State.placeRun (n + 1) p pick s = s.placeEnd p .ok := by
  rw [State.placeRun, if_pos h]

/-- A page that lies on the named device already is only pinned. -/
theorem State.placeRun_pin {ep : Nat} {e : PEntry} (h : p.next < p.stop) (hx : s.inExtent p.vd (p.next * 65536) = true)
    (he : s.entry p.vd p.next = some (ep, e)) (hk : e.kind = .page) (hg : s.granted p.vd ep (pageFrames e.big) = false)
    (hd : gfDev e.gframe = p.dev) (hp : p.pin = true) (n pick : Nat) : State.placeRun (n + 1) p pick s
      = State.placeRun n { p with next := ep + pageFrames e.big } pick (s.setEntry p.vd ep { e with pin := true }) := by
  simp [State.placeRun, Nat.not_le.2 h, hx, he, hk, hg, hd, hp]

end

section
variable {s : State} {q : Nat} {c : Cmd} {e : PEntry}

/-- The state in which a command runs differs in the commands alone. -/
theorem State.running_sets (s : State) (q : Nat) : ∃ d, s.modCmd q (fun c => { c with st := .running }) = { s with dax := d } := by
  unfold State.modCmd
  split <;> exact ⟨_, rfl⟩

/-- A placement of one page that lies on the named device already pins it and ends. -/
theorem State.placeGo_pin {p : Placing} (hc : p.cmd = q) (hstop : p.stop = p.next + 1) (htop : p.next < 2 ^ 26)
    (hx : s.inExtent p.vd (p.next * 65536) = true) (he : s.slu.pt.find (ptKey p.vd p.next) = some e) (hk : e.kind = .page) (hb : e.big = false)
    (hg : s.granted p.vd p.next 1 = false) (hdev : gfDev e.gframe = p.dev) (hpin : p.pin = true) (hp : s.slu.places = []) (pick : Nat) :
    (s.modCmd q fun c => { c with st := .running }).placeGo p pick = (s.setEntry p.vd p.next { e with pin := true }).engineDone q .ok := by
  have hentry : s.entry p.vd p.next = some (p.next, e) := by rw [State.entry, if_neg (by omega), he]
  have hfuel : 2 * (p.stop - p.next) + 2 = 2 + 1 + 1 := by omega
  obtain ⟨d, hd⟩ := s.running_sets q
  have hplaces : ((s.modCmd q fun c => { c with st := .running }).setEntry p.vd p.next { e with pin := true }).slu.places = [] := by
    obtain ⟨n, hn⟩ := State.setEntry_sets { s with dax := d } p.vd p.next { e with pin := true }
    rw [hd, hn, ← hp]
  have hrun := State.placeRun_pin (s := s.modCmd q fun c => { c with st := .running }) (p := p) (by omega) (by rw [hd]; exact hx)
    (by rw [hd]; exact hentry) hk (by rw [hd, hb]; exact hg) hdev hpin (2 + 1) pick
  rw [State.placeGo, hfuel, hrun, State.placeRun_end (by rw [hb]; exact hstop.le), State.placeEnd, hc, State.placeDrop_of_none hplaces,
    State.setEntry_modCmd, State.engineDone_modCmd _ _ fun _ => rfl]

theorem exec_slPlace_pin (hc : s.engineCmd q 0x28 = some c) (ha : c.addr % 65536 = 0) (hl : c.len = 65536) (hsp : s.splits c = false)
    (hd : c.f 0x28 1 < 128) (hf : c.f 0x29 1 = 2) (htop : c.addr < 2 ^ 42) (hx : s.inExtent c.vd c.addr = true)
    (he : s.slu.pt.find (ptKey c.vd (c.addr / 65536)) = some e) (hk : e.kind = .page) (hb : e.big = false)
    (hg : s.granted c.vd (c.addr / 65536) 1 = false) (hdev : gfDev e.gframe = c.f 0x28 1) (hp : s.slu.places = []) (pick : Nat) :
    exec (.slPlace q pick) s = .next ((s.setEntry c.vd (c.addr / 65536) { e with pin := true }).engineDone q .ok) := by
  have hx' : s.inExtent c.vd (c.addr / 65536 * 65536) = true := by rwa [Nat.div_mul_cancel (Nat.dvd_of_mod_eq_zero ha)]
  have hpin : bit (c.f 0x29 1) 1 = true := by rw [hf]; rfl
  have hstop : (c.addr + c.len) / 65536 = c.addr / 65536 + 1 := by omega
  have hlast : c.addr / 65536 < 2 ^ 26 := by omega
  have hok : (!rangeOk c 65536 || s.splits c || decide (128 ≤ c.f 0x28 1) || decide (3 < c.f 0x29 1)) = false := by
    simp [rangeOk, ha, hl, hsp, hd, hf]
  show execSlPlace q pick s = _
  simp only [execSlPlace, hc, hok]
  rw [if_neg Bool.false_ne_true]
  refine congrArg Host.Outcome.next ?_
  exact State.placeGo_pin (p := ⟨q, c.vd, c.addr / 65536, (c.addr + c.len) / 65536, c.f 0x28 1, bit (c.f 0x29 1) 0, bit (c.f 0x29 1) 1⟩)
    rfl hstop hlast hx' he hk hb hg hdev hpin hp pick

end

/-! ### SL_PIN, SL_UNPIN and SL_QUERY (R278) -/

section
variable {s s1 : State} {q : Nat} {c : Cmd}

theorem State.slPin_ok {on : Bool} (hr : rangeOk c 65536 = true) (hsp : s.splits c = false)
    (h : State.pinRun c.vd on (c.len / 65536) (c.addr / 65536) s = (true, s1)) : s.slPin q c on = s1.engineDone q .ok := by
  simp [State.slPin, hr, hsp, h]

theorem State.pinRun_page {v page : Nat} {on : Bool} {e : PEntry} (hx : s.inExtent v (page * 65536) = true)
    (he : s.slu.pt.find (ptKey v page) = some e) (hk : e.kind = .page) :
    State.pinRun v on 1 page s = (true, s.setEntry v page { e with pin := on }) := by
  simp [State.pinRun, hx, he, hk]

theorem State.slQuery_written {x : Ext} {bs : List Byte} {bad : Bool} (hr : rangeOk c 65536 = true) (hsp : s.splits c = false)
    (hn : s.pagesIn c.vd 65 (c.addr / 65536) ((c.addr + c.len) / 65536) ≤ 64)
    (hq : s.queryRun c.vd 65 (c.addr / 65536) ((c.addr + c.len) / 65536) = (bs, bad))
    (hw : s.vdWrite c.vd (c.f 0x28 8) bs false (c.who q) x = (none, s1)) :
    s.slQuery q c x = s1.engineDone q (if bad then .badAddress else .ok) := by
  simp [State.slQuery, hr, hsp, Nat.not_lt.2 hn, hq, hw]

theorem exec_slQuery {x : Ext} {t : State} (hc : s.engineCmd q 0x2B = some c) (h : s.fresh.slQuery q c x = t) (ht : t.stall = []) :
    exec (.slQuery q x) s = .next t := by
  subst h
  have hf : s.fresh.engineCmd q 0x2B = some c := hc
  show execSlQuery q x s = _
  rw [execSlQuery, State.orWait_next] <;> simp only [hf]
  exact ht

/-! ### Grants (R279, R281) -/

/-- The grant that the lowest free slot takes. -/
theorem State.slGrant_granted {k pick : Nat} (hr : rangeOk c 2097152 = true) (hlo : 2 ^ 30 ≤ c.len) (hhi : c.len ≤ 2 ^ 32)
    (hm : (s.slu.pt.any fun e => decide (e.1 / 2 ^ 26 = c.vd) && decide (c.addr / 65536 ≤ e.1 % 2 ^ 26)
      && decide (e.1 % 2 ^ 26 < (c.addr + c.len) / 65536) && decide (e.2.kind = .migrating)) = false)
    (ht : State.grantTouch c.vd pick (c.len / 65536) (c.addr / 65536) s = (none, s1))
    (hk : ((List.range 1024).find? fun j => (s1.slu.grants.find j).isNone) = some k) : s.slGrant q c pick
      = { s1 with freeCtr := s1.freeCtr + 1, slu := { s1.slu with grants := (s1.slu.grants.put k
          { vd := c.vd, epoch := (s.vd c.vd).epoch, va := c.addr, len := c.len, readOnly := bit c.opx 0
            key := (Config.freeValue s1.freeCtr).setWidth 32 }) } }.engineDone
            q .ok (k + ((Config.freeValue s1.freeCtr).setWidth 32).toNat * 2 ^ 32) := by
  have hlen : (!rangeOk c 2097152 || decide (c.len < 2 ^ 30) || decide (2 ^ 32 < c.len)) = false := by
    rw [hr, decide_eq_false (Nat.not_lt.2 hlo), decide_eq_false (Nat.not_lt.2 hhi)]
    rfl
  rw [State.slGrant, hlen, hm]
  simp only [ht, hk]
  rfl

theorem exec_slGrant {pick : Nat} {t : State} (hc : s.engineCmd q 0x2C = some c) (h : s.fresh.slGrant q c pick = t) (ht : t.stall = []) :
    exec (.slGrant q pick) s = .next t := by
  subst h
  have hf : s.fresh.engineCmd q 0x2C = some c := hc
  show execSlGrant q pick s = _
  rw [execSlGrant, State.orWait_next] <;> simp only [hf]
  exact ht

/-- A grant without attachments ends without a revocation. -/
theorem State.endGrant_of_unattached {slot : Nat} {g : Grant} (hg : s.slu.grants.find slot = some g) (ha : g.attach = []) :
    s.endGrant slot = { s with slu := { s.slu with grants := s.slu.grants.del slot } } := by
  simp only [State.endGrant, hg, ha]
  rfl

theorem exec_slRevoke_own {g : Grant} (hc : s.engineCmd q 0x2D = some c) (hg : s.slu.grants.find (c.f 0x18 2) = some g) (hv : g.vd = c.vd)
    (ha : g.attach = []) :
    exec (.slRevoke q) s = .next ({ s with slu := { s.slu with grants := s.slu.grants.del (c.f 0x18 2) } }.engineDone q .ok) := by
  show execSlRevoke q s = _
  simp only [execSlRevoke, hc, hg]
  rw [if_pos hv, State.endGrant_of_unattached hg ha]

theorem exec_slRevoke_none (hc : s.engineCmd q 0x2D = some c) (hg : s.slu.grants.find (c.f 0x18 2) = none) :
    exec (.slRevoke q) s = .next (s.engineDone q .notGranted) := by
  show execSlRevoke q s = _
  simp only [execSlRevoke, hc, hg]

/-! ### SL_ATTACH, SL_DETACH and the end of a grant on the attached device (R278, R280, R281) -/

/-- R280: an attach that the grant admits takes its place and the frames of the range. -/
theorem State.attachCheck_of_grant {dev vd slot len va : Nat} {key : Word} {ro : Bool} {g : Grant} (hg : s.slu.grants.find slot = some g)
    (hk : g.key = key) (hl : g.len = len) (hro : g.readOnly = true → ro = true) (hn : g.attach.length < 16) :
    s.attachCheck dev vd slot len key ro va
      = (some ((List.range (len / 65536)).filterMap fun i =>
          match s.slu.pt.find (ptKey g.vd (g.va / 65536 + i)) with | some e => some (e.gframe, e.big) | none => none),
        { s with slu := { s.slu with grants := s.slu.grants.put slot { g with attach := g.attach ++ [{ device := dev, vd := vd, va := va }] } } }) := by
  simp only [State.attachCheck, hg]
  exact if_pos ⟨hk, hl, hro, hn⟩

theorem exec_slAttach_own {g : Grant} (hc : s.engineCmd q 0x2E = some c) (hr : rangeOk c 2097152 = true) (hd : c.f 0x28 1 < 128)
    (hfree : (((List.range (c.len / 65536)).map fun i => c.addr / 65536 + i).any fun p => !s.inExtent c.vd (p * 65536) || (s.entry c.vd p).isSome) = false)
    (hown : c.f 0x28 1 = s.pool.devnum) (hg : s.slu.grants.find (c.f 0x2A 2) = some g) (hk : g.key = BitVec.ofNat 32 (c.f 0x2C 4))
    (hl : g.len = c.len) (hro : g.readOnly = true → bit c.opx 0 = true) (hn : g.attach.length < 16) :
    exec (.slAttach q) s = .next ({ s with slu := { s.slu with grants := s.slu.grants.put (c.f 0x2A 2) { g with
        attach := g.attach ++ [({ device := c.f 0x28 1, vd := c.vd, va := c.addr } : Attach)] } } }.attachEnd q c.vd (c.f 0x28 1) (c.f 0x2A 2)
          (bit c.opx 0) (c.addr / 65536) ((List.range (c.len / 65536)).filterMap fun i =>
        match s.slu.pt.find (ptKey g.vd (g.va / 65536 + i)) with | some e => some (e.gframe, e.big) | none => none)) := by
  have hok : (!rangeOk c 2097152 || decide (128 ≤ c.f 0x28 1)) = false := by
    rw [hr, decide_eq_false (Nat.not_le.2 hd)]
    rfl
  show execSlAttach q s = _
  simp only [execSlAttach, hc, hok, hfree]
  rw [if_neg Bool.false_ne_true, if_neg Bool.false_ne_true, if_pos hown, State.attachCheck_of_grant hg hk hl hro hn]

theorem exec_slDetach_ok (hc : s.engineCmd q 0x2F = some c) (hr : rangeOk c 2097152 = true)
    (h : State.detachRun c.vd (c.len / 65536) (c.addr / 65536) s = (true, s1)) : exec (.slDetach q) s = .next (s1.engineDone q .ok) := by
  show execSlDetach q s = _
  simp [execSlDetach, hc, hr, h]

theorem State.detachRun_foreign {v page : Nat} {e : PEntry} (hx : s.inExtent v (page * 65536) = true)
    (he : s.slu.pt.find (ptKey v page) = some e) (hk : e.kind = .foreign) : State.detachRun v 1 page s = (true, s.delEntry v page) := by
  simp [State.detachRun, hx, he, hk]

/-- R272: the end of an entry of which a copy may be held counts a shootdown. -/
theorem State.delEntry_shootdown {v page : Nat} {e : PEntry} (he : s.slu.pt.find (ptKey v page) = some e) (hc : e.cached = true) :
    (s.delEntry v page).slu.shootdown = s.slu.shootdown + 1 := by
  simp only [State.delEntry, he, hc]
  rfl

/-- R281: the end of a grant meets its FOREIGN entries alone. -/
theorem State.revokeGrant_entry {dev slot k : Nat} {e : PEntry} (he : s.slu.pt.find k = some e) : (s.revokeGrant dev slot).slu.pt.find k
    = some (if e.kind = .foreign ∧ e.grant = slot ∧ e.owner = dev then { e with kind := .revoked } else e) := by
  have hhit : (e.cached && (decide (e.kind = .foreign) && decide (e.grant = slot) && decide (e.owner = dev)))
      = decide (e.kind = .foreign ∧ e.grant = slot ∧ e.owner = dev) := by
    by_cases hk : e.kind = .foreign <;> simp [PEntry.cached, hk]
  simp only [State.revokeGrant, State.revokeEntries, Tab.find_mapVal, he, Option.map_some, hhit, decide_eq_true_eq]

end

/-- Settles O33: each command's row is its own lemma; what the end of SL_ATTACH maps is `State.attachEnd`'s. -/
theorem sluiceCommandsPlacePinGrantAndAttach : Obligations.SluiceCommandsPlacePinGrantAndAttach := by
  refine ⟨?place, ?pin, ?page, ?query, ?grant, ?revoke, ?attach, ?detach, ?foreign, ?revocation⟩
  case place =>
    intro s q pick c e hc ha hl hsp hd hf htop hx he hk hb hg hdev hp
    exact exec_slPlace_pin hc ha hl hsp hd hf htop hx he hk hb hg hdev hp pick
  case pin =>
    intro s s1 q c hr hsp
    refine ⟨fun hc h => ?_, fun hc h => ?_⟩
    · show execSlPin q s = _
      simp only [execSlPin, hc, State.slPin_ok hr hsp h]
    · show execSlUnpin q s = _
      simp only [execSlUnpin, hc, State.slPin_ok hr hsp h]
  case page =>
    intro s v page on e hx he hk
    exact State.pinRun_page hx he hk
  case query =>
    intro s s1 q c bs bad x hc hr hsp hn hq hw hs
    exact exec_slQuery hc (State.slQuery_written hr hsp hn hq hw) ((s1.engineDone_stall _ _ _ _ _).trans hs)
  case grant =>
    intro s s1 q pick k c hc hr hlo hhi hm ht hs hk
    exact ⟨_, _, exec_slGrant hc (State.slGrant_granted hr hlo hhi hm ht hk) ((State.engineDone_stall _ _ _ _ _ _).trans hs), rfl, rfl⟩
  case revoke =>
    intro s q c hc
    exact ⟨fun g hg hv ha => exec_slRevoke_own hc hg hv ha, exec_slRevoke_none hc⟩
  case attach =>
    intro s q c g hc hr hd hfree hown hg hk hl hro hn
    exact ⟨_, _, rfl, rfl, exec_slAttach_own hc hr hd hfree hown hg hk hl hro hn⟩
  case detach =>
    intro s s1 q c hc hr h
    exact exec_slDetach_ok hc hr h
  case foreign =>
    intro s v page e hx he hk
    exact ⟨State.detachRun_foreign hx he hk, State.delEntry_shootdown he (by rw [PEntry.cached, hk]; rfl)⟩
  case revocation =>
    intro s dev slot
    exact ⟨s.revokeGrant dev slot, rfl, rfl, fun k e he => State.revokeGrant_entry he⟩

end Sys2Proof.Machine
end
